-- ==== Sys2Proof/Word.lean ====
section
/-! DEFINITION. The word types of the model and their plainest arithmetic.

Bytes are bit vectors, because the spec packs, masks and checks them (R21, R75, R309). Identifiers, counts and
addresses are `Nat`; the width the spec gives each one is stated at the field or the register that holds it. -/

namespace Sys2Proof

/-- One byte of a packet, a record, an image or a memory. -/
abbrev Byte := BitVec 8

/-- A run of bytes, lowest address first (R21: every structure is little-endian). -/
abbrev Bytes := List Byte

/-- An FP32 word, kept as the bits software sees (R73 code 0x0). -/
abbrev F32 := BitVec 32

/-- A sparse table: key and value pairs, keys strictly rising, no entry equal to what an unlisted key reads as. -/
abbrev Tab (α : Type) := List (Nat × α)

/-- The number a run of bytes spells, lowest byte first (R21). -/
def leNat : Bytes → Nat
  | [] => 0
  | b :: bs => b.toNat + 256 * leNat bs

/-- `n` bytes of `v`, lowest byte first (R21). -/
def toLe : Nat → Nat → Bytes
  | 0, _ => []
  | n + 1, v => BitVec.ofNat 8 (v % 256) :: toLe n (v / 256)

end Sys2Proof
end

