-- ==== Sys2Proof/Syntax.lean ====
section
/-! DEFINITION. The commands and events of the VN-840: one constructor of `Instr` per row of the table of
operations and events (spec/opcode_table.json), with the operands each one brings from outside the device.

A command that arrives as an Evoest packet brings a `Pkt`: the path of arrival, the header fields of R307 and the
payload of the whole message (R310); for the per-packet opcodes of R316 it is one packet. An event brings the
indices of the unit it concerns and what the environment measured or did. A row whose rule reads the CLK_MGT
counter brings `now`, the tick at which it falls. -/

namespace Sys2Proof

/-- The path on which a packet arrives (R322, R501 to R504). -/
inductive Path where
  /-- Host submission ring `n`, 0-1,023 (R334). -/
  | ring (n : Nat)
  /-- The fabric: the QP it arrives on, the device it comes from, the port (0-7) of its first frame (R35, R352). -/
  | fabric (qp srcDev port : Nat)
  /-- The 25GBASE-R management port; an association is a source address and port (R501). -/
  | mgmt (assoc : Nat)
  /-- The I3C target (R503). -/
  | i3c
  /-- The MGT mailbox (R504). -/
  | mbox
deriving DecidableEq, Repr

/-- An Evoest command message as the device has received it: the header of R307 without its OPCODE (the row is the
opcode), HCRC (R313 is a row of its own) and PAYLOAD_LEN (the payload's length), and the payload. -/
structure Pkt where
  /-- Where it arrived. -/
  path : Path
  /-- The CLK_MGT tick at which its header was complete at ingress (R36). -/
  now : Nat
  /-- FORMAT, Evoest major version. -/
  format : Nat
  /-- MINOR, Evoest minor version. -/
  minor : Nat
  /-- FLAGS bits 7:3, which must be 0 (R308). -/
  flagsRsvd : Nat
  /-- FLAGS bit 2 RESP. -/
  resp : Bool
  /-- FLAGS bit 1 NO_REPLY. -/
  noReply : Bool
  /-- FLAGS bit 0 LAST. -/
  last : Bool
  /-- TAG. -/
  tag : Nat
  /-- MANIFEST_ID. -/
  mid : Nat
  /-- EPOCH. -/
  epoch : Nat
  /-- PD. -/
  pd : Nat
  /-- OFFSET of this payload within its message. -/
  offset : Nat
  /-- PARAM0. -/
  p0 : Nat
  /-- PARAM1. -/
  p1 : Nat
  /-- PARAM2. -/
  p2 : Nat
  /-- PARAM3. -/
  p3 : Nat
  /-- SLACK_US. -/
  slack : Nat
  /-- SEQ. -/
  seq : Nat
  /-- Header bytes 56-59, which must be 0. -/
  rsvd : Nat
  /-- The payload bytes. -/
  payload : Bytes
  /-- Whether every payload CRC of the message holds (R309, step 5 of R312). -/
  crcOk : Bool
deriving DecidableEq, Repr

/-- A reply (R315) as it reaches the device, for a command the device sent. -/
structure Rep where
  /-- The fabric QP it arrives on. -/
  qp : Nat
  /-- The CLK_MGT tick of its arrival. -/
  now : Nat
  /-- TAG. -/
  tag : Nat
  /-- OPCODE copied from the command. -/
  opcode : Nat
  /-- MANIFEST_ID. -/
  mid : Nat
  /-- STATUS. -/
  status : Nat
  /-- DETAIL. -/
  detail : Nat
  /-- RESULT. -/
  result : Nat
  /-- SEQ. -/
  seq : Nat
  /-- FLAGS bit 0 FINAL. -/
  final : Bool
  /-- Whether RCRC holds. -/
  rcrcOk : Bool
deriving DecidableEq, Repr

/-- The fabric header of a DATA frame as the transport sees it (R352), with the bytes its Evoest packet takes. -/
structure Fab where
  /-- The port it arrives on. -/
  port : Nat
  /-- The CLK_MGT tick of its arrival. -/
  now : Nat
  /-- DST_DEV. -/
  dstDev : Nat
  /-- SRC_DEV. -/
  srcDev : Nat
  /-- DST_QP. -/
  dstQp : Nat
  /-- SRC_QP. -/
  srcQp : Nat
  /-- PSN. -/
  psn : Nat
  /-- MSG_ID. -/
  msgId : Nat
  /-- PKT_IDX. -/
  pktIdx : Nat
  /-- PKT_COUNT. -/
  pktCount : Nat
  /-- Evoest OPCODE inside. -/
  opcode : Nat
  /-- Evoest OFFSET. -/
  offset : Nat
  /-- Evoest LAST. -/
  last : Bool
  /-- Evoest PAYLOAD_LEN. -/
  len : Nat
  /-- Evoest TAG. -/
  tag : Nat
  /-- The packet is a reply (R315) or belongs to a response message (R318). -/
  answer : Bool
deriving DecidableEq, Repr

/-- Cluster part that an uncorrected error struck (R49). -/
inductive ClusterPart where
  | sequencer | expander | slice
deriving DecidableEq, Repr

/-- Die-stack failure causes of R54 that are errors of their own. -/
inductive StackCause where
  | baseNetwork | hbmStack
deriving DecidableEq, Repr

/-- The object an uncorrected HBM3E or LPDDR5X error damages (R179). -/
inductive DamagedObject where
  /-- A sealed page copy, by page-frame number. -/
  | sealedPage (frame : Nat)
  /-- An extent of a stake image or of its copy, by STAKE_ID. -/
  | stakeExtent (stakeId : Nat)
  /-- A withy version. -/
  | withy (withyId ver : Nat)
  /-- A table image's copy in the TABLE area of a die stack: table slot and stack. -/
  | tableImage (slot stack : Nat)
  /-- An open page, by page-frame number. -/
  | openPage (frame : Nat)
deriving DecidableEq, Repr

/-- An immutable object that is moved off a withdrawn row (R178). -/
inductive MovedObject where
  /-- A sealed page copy, by page-frame number. -/
  | page (frame : Nat)
  /-- A stake image, by STAKE_ID. -/
  | stake (stakeId : Nat)
  /-- The resident copy of a withy version. -/
  | withy (withyId ver : Nat)
deriving DecidableEq, Repr

/-- A cluster and a cycle of its step (R137). -/
structure ClusterCycle where
  m : Nat
  cyc : Nat
deriving DecidableEq, Repr

/-- The command and the manifest that the header of a response message names (R318). -/
structure RespName where
  tag : Nat
  mid : Nat
deriving DecidableEq, Repr

/-- What the board has done with the package's power as it releases the reset. -/
structure PowerOn where
  /-- Every rail is in its window (R458). -/
  railsGood : Bool
  /-- The power was removed while the reset was held (R5). -/
  powerLost : Bool
deriving DecidableEq, Repr

/-- What the read of a snapshot found: its CRC holds, its CRC fails, or poison came (R176, R261). -/
inductive SnapRead where
  | whole | damaged | poisoned
deriving DecidableEq, Repr

/-- A context-SRAM word's owner (R176, R389). -/
inductive SramOwner where
  | berth (b : Nat) | qp (n : Nat) | msaLine (line : Nat)
deriving DecidableEq, Repr

/-- Where an internal FIFO lies (R432). -/
inductive FifoPlace where
  | cluster (m : Nat) | lighter (r : Nat) | compressor (r : Nat) | ioDie (d : Nat)
deriving DecidableEq, Repr

/-- The instructions of the JTAG TAP (R506). `unknown` is any other code. -/
inductive JtagInstr where
  | bypass | idcode | samplePreload | extest | extestPulse | extestTrain | clamp | highz | unknown
deriving DecidableEq, Repr

/-- What a host-memory read of a submission ring returned for one packet (R335, R340). -/
inductive SqRead where
  /-- A packet whose header check holds; it takes this many slots, and is of this opcode. -/
  | packet (slots opcode : Nat)
  /-- A header whose HCRC fails, at this slot. -/
  | hcrcFail
  /-- A read that returned poison or a completion error. -/
  | poison
deriving DecidableEq, Repr

/-- The codes a NAK carries (R352). -/
inductive NakCode where
  | seq | noContext | noQp | qpError | unreachable
deriving DecidableEq, Repr

/-- One command or event: one constructor per row of the table of operations and events. -/
inductive Instr where
  /-- NOP (R324): The device answers a NOP packet with ST_OK and takes no other action. -/
  | nop (p : Pkt)
  /-- SYS_HELLO (R328): The device negotiates the Evoest version from the offered range, replies with its choice and identity, or moves the QP to ERROR when a renegotiation loses the choice. -/
  | sysHello (p : Pkt)
  /-- SYS_CAPS (R327): The device returns its capabilities record: personality, grade, licensed capabilities, shape and logical core map. -/
  | sysCaps (p : Pkt)
  /-- SYS_FENCE (R405): The device fences a composition at once, takes its manifests out of weaves, discards its queued memory operations and passes over its turns. -/
  | sysFence (p : Pkt)
  /-- SYS_EPOCH (R403): The device ends any open drain window, installs the new epoch and map, unfences the compositions present and opens a new drain window. -/
  | sysEpoch (p : Pkt)
  /-- SYS_RESTART_WARM (R449): SYS.RESTART with P0 0 replies first and then starts a control-plane warm restart. -/
  | sysRestartWarm (p : Pkt)
  /-- SYS_RESTART_DEVICE_RESET (R458): SYS.RESTART with P0 1 replies first and then resets the device, which runs power-up again from step 2. -/
  | sysRestartDeviceReset (p : Pkt)
  /-- CFG_READ (R466): The device returns the selected configuration-record copy, with RESULT bit 0 telling whether the copy's check word holds. -/
  | cfgRead (p : Pkt)
  /-- CFG_WRITE (R468): The device checks a configuration record and starts the erase-program-verify write to the copy that would not be selected now. -/
  | cfgWrite (p : Pkt)
  /-- LIC_INSTALL (R473): The device verifies a signed licence and stores it in the slot with its LICENCE_ID or in the lowest free slot, effective at the next power-up. -/
  | licInstall (p : Pkt)
  /-- FW_STAGE (R480): The device writes a firmware component into its inactive slot, clears its pending mark and verifies its signature and security version. -/
  | fwStage (p : Pkt)
  /-- FW_COMMIT (R480): The device marks a verified staged component, or every such component, to boot at the next power-up. -/
  | fwCommit (p : Pkt)
  /-- SEC_ATTEST (R477): The device signs and returns an attestation report, or answers ST_BUSY for the rate limit, tree generation, exhaustion or a missing identity. -/
  | secAttest (p : Pkt)
  /-- TBL_LOAD (R151): The device places one packet of a table-set image in a slot and checks the completed image, leaving the slot LOADED or EMPTY. -/
  | tblLoad (p : Pkt)
  /-- TBL_ACTIVATE (R152): The device checks the stake image and the tensor indices and makes the set pending, to become ACTIVE at the first boundary with no run in progress. -/
  | tblActivate (p : Pkt)
  /-- TBL_RETIRE (R151): The device empties a LOADING or LOADED table-set slot, or rejects the retirement under the slot-state table. -/
  | tblRetire (p : Pkt)
  /-- STK_LOAD (R526): The device places a stake-image segment, or places the parts from a held copy, and checks and places the completed image. -/
  | stkLoad (p : Pkt)
  /-- STK_RETIRE (R527): The device retires a stake image, or ends a load in progress and frees its extents. -/
  | stkRetire (p : Pkt)
  /-- WTH_LOAD (R285): The device places a withy-image packet in a slot or library entry and checks the completed version, which becomes CURRENT. -/
  | wthLoad (p : Pkt)
  /-- WTH_RETIRE (R286): The device moves the named withy version, or every version of the withy, to RETIRING and frees it once unpinned. -/
  | wthRetire (p : Pkt)
  /-- WTH_QUERY (R291): The device returns one 16-byte record for each held version of the named withy. -/
  | wthQuery (p : Pkt)
  /-- REQ_ADMIT (R213): A prompt node checks an admission, takes a berth, pins the withy and logs the tokens carried, or replays the reply for a repeated admission. -/
  | reqAdmit (p : Pkt)
  /-- REQ_APPEND (R218): The device appends up to 2,048 tokens to an ADMITTED manifest and moves it on when the log is complete. -/
  | reqAppend (p : Pkt)
  /-- REQ_HANDOFF_RETARGET (R210): A prompt node replaces the manifest's GEN_DEV and, when the manifest is in HANDOFF, sends the transfer. -/
  | reqHandoffRetarget (p : Pkt)
  /-- REQ_HANDOFF_TRANSFER (R223): A generation node checks the first packet of an incoming transfer, reserves a berth and frames, and answers ST_PENDING or refuses. -/
  | reqHandoffTransfer (p : Pkt)
  /-- REQ_ACCEPT (R222): A prompt node confirms the outstanding transfer, moves the manifest to DONE and frees the berth, or answers ST_TIMEOUT or the voiding status. -/
  | reqAccept (p : Pkt)
  /-- REQ_CANCEL (R210): The device cancels a manifest at once or sets CANCEL_PENDING for the next step boundary, as its state requires. -/
  | reqCancel (p : Pkt)
  /-- REQ_QUERY (R210): The device returns the 256-byte image of the named manifest. -/
  | reqQuery (p : Pkt)
  /-- REQ_REBUILD (R232): A prompt node admits a rebuild with log target L, a page range and a mode, and then prefills it. -/
  | reqRebuild (p : Pkt)
  /-- REQ_RELEASE (R210): The device frees a DONE or FAILED manifest and releases every reference it holds. -/
  | reqRelease (p : Pkt)
  /-- REQ_DRAFT (R297): The device holds draft tokens for a GENERATING manifest until the request begins its next token. -/
  | reqDraft (p : Pkt)
  /-- PAGE_PUT (R251): A receiver places a packet of a page's stored bytes into an ARRIVING frame, or rejects it with ST_NO_PAGE. -/
  | pagePut (p : Pkt)
  /-- PAGE_GET (R250): A holder answers with the PAGE.PUT packets and the PAGE.SEAL of the named page. -/
  | pageGet (p : Pkt)
  /-- PAGE_SEAL (R251): A receiver checks the CRC and the container of an arrived page and makes it SEALED, or frees the frame. -/
  | pageSeal (p : Pkt)
  /-- PAGE_MIRROR_COPY (R256): A surviving holder starts copying to the spare, request by request, every page whose PARTNER is the dead holder. -/
  | pageMirrorCopy (p : Pkt)
  /-- PAGE_MIRROR_CLOSE (R256): A spare sends a PARTIAL with its verified prefix to the owner of every request it holds pages of from the dead survivor. -/
  | pageMirrorClose (p : Pkt)
  /-- PAGE_MIRROR_REPAIR (R256): An owner removes the dead devices from all holder fields, installs the new pair and marks LOST every entry left without a copy. -/
  | pageMirrorRepair (p : Pkt)
  /-- PAGE_MIRROR_DONE (R256): An owner adds the spare as holder of every entry of the request that V holds. -/
  | pageMirrorDone (p : Pkt)
  /-- PAGE_MIRROR_PARTIAL (R256): An owner adds the spare as holder of the entries that V holds below the verified prefix. -/
  | pageMirrorPartial (p : Pkt)
  /-- PAGE_DROP (R253): A holder releases its reference on each named page copy, or on every copy of the request. -/
  | pageDrop (p : Pkt)
  /-- PAGE_SWAP_OUT (R260): A generation node pre-empts a GENERATING manifest and starts writing its snapshot to a host window. -/
  | pageSwapOut (p : Pkt)
  /-- PAGE_SWAP_IN (R261): A generation node starts restoring a SWAPPED manifest from its snapshot. -/
  | pageSwapIn (p : Pkt)
  /-- ATT_PARTIAL (R277): A cache node checks an attention query and accepts it with ST_PENDING for folding, or refuses it. -/
  | attPartial (p : Pkt)
  /-- ATT_RESULT (R273): A sender matches an arriving result to its exchange by TAG and merges the returned state, or discards the result as late or malformed. -/
  | attResult (p : Pkt)
  /-- TOK_STREAM_RECEIVED (R316): A VN-840 that receives TOK.STREAM discards it without a reply and counts it. -/
  | tokStreamReceived (p : Pkt)
  /-- QP_CREATE (R365): The device creates a QP in INIT or RTS from the context record and its P3 parameter. -/
  | qpCreate (p : Pkt)
  /-- QP_MODIFY (R366): The device moves a QP between states and takes the record's fields, flushing or resetting the QP as the state table gives. -/
  | qpModify (p : Pkt)
  /-- QP_DESTROY (R366): The device frees a QP and flushes its outstanding work. -/
  | qpDestroy (p : Pkt)
  /-- PD_CREATE (R367): The device makes a protection domain. -/
  | pdCreate (p : Pkt)
  /-- REGION_REGISTER (R367): The device registers a region and returns its key. -/
  | regionRegister (p : Pkt)
  /-- REGION_DEREGISTER (R368): The device invalidates a region key at once. -/
  | regionDeregister (p : Pkt)
  /-- RECV_POST (R369): The device posts up to 256 receive-buffer descriptors on a QP. -/
  | recvPost (p : Pkt)
  /-- SEND (R369): The device binds an arriving SEND message to the next posted buffer and posts a completion packet entry. -/
  | sendMsg (p : Pkt)
  /-- MEM_LOAD (R384): The device executes a 64-byte line load as home, or forwards it as issuer. -/
  | memLoad (p : Pkt)
  /-- MEM_STORE (R383): The device queues a 64-byte line store as home, joining a run of stores, or forwards it as issuer. -/
  | memStore (p : Pkt)
  /-- MEM_ATOMIC (R385): The device queues an 8-byte atomic, possibly combined, as home, or forwards it as issuer. -/
  | memAtomic (p : Pkt)
  /-- MEM_GATEWAY (R392): An issuer sends a load and store batch to a home in any basin, and a home assembles the batch and enters its entries. -/
  | memGateway (p : Pkt)
  /-- SCH_SHARES (R406): The device sets a share class's weight, boost, default TBT budget, window and attention pattern. -/
  | schShares (p : Pkt)
  /-- SCH_SHAPER (R415): The device sets or clears a QP's traffic shaper and resets its token count. -/
  | schShaper (p : Pkt)
  /-- COMP_CREATE (R399): The device installs a composition's berth, frame and withy reservations and limits. -/
  | compCreate (p : Pkt)
  /-- COMP_METER (R414): The device returns a composition's meter record and, when CLEAR is set, zeroes it. -/
  | compMeter (p : Pkt)
  /-- TEST_SENTINEL (R118): The device makes a sentinel test due on a slot or logical ID and answers with LAST_RESULT. -/
  | testSentinel (p : Pkt)
  /-- TEST_KAT (R324): The device runs known-answer tests on one cluster, or on all clusters. -/
  | testKat (p : Pkt)
  /-- ERR_RECORD_RECEIVED (R316): A VN-840 that receives ERR.RECORD discards it without a reply and counts it. -/
  | errRecordReceived (p : Pkt)
  /-- VERIFY_REPLAY (R439): A replayer checks the parts of a replay request and accepts the last part with ST_PENDING. -/
  | verifyReplay (p : Pkt)
  /-- VERIFY_RESULT (R436): A requester takes a replay digest, or a verdict it was told, and decides the round or the verdict. -/
  | verifyResult (p : Pkt)
  /-- EVOEST_HCRC_FAIL (R313): A packet whose header CRC fails is discarded on the fabric and the management port, or takes a host ring to ERROR. -/
  | evoestHcrcFail (path : Path) (slot : Nat)
  /-- REPLY_RECEIVED (R317): The device matches an arriving reply by TAG, or discards it as unmatched, failing its RCRC, or carrying an unlisted status. -/
  | replyReceived (r : Rep)
  /-- RESPONSE_PACKET_RECEIVED (R318): The device places a response-message packet for a command it sent. -/
  | responsePacketReceived (qp now : Nat) (name : RespName) (opcode offset : Nat) (last : Bool) (payload : Bytes)
  /-- HANDOFF_TRANSFER_REPLY (R29): A prompt node receives the answer to its transfer; on a refusal it keeps the manifest in HANDOFF and reports the status. -/
  | handoffTransferReply (r : Rep)
  /-- ACCEPT_REPLY (R222): A generation node receives the answer to REQ.ACCEPT and clears AWAIT_CONFIRM, or voids the handoff. -/
  | acceptReply (r : Rep)
  /-- PAGE_MOVE_REPLY (R252): A sender handles a holder's answer to PAGE.SEAL: it records the acceptance, resends after ST_CRC, retries later or stops sending. -/
  | pageMoveReply (r : Rep)
  /-- PAGE_DROP_REPLY (R253): A sender handles the answer to PAGE.DROP, scheduling a resend when it is not ST_OK. -/
  | pageDropReply (r : Rep)
  /-- ATT_PARTIAL_STATUS_REPLY (R279): A sender takes a holder's status reply to ATT.PARTIAL and fails the exchange on any status other than ST_PENDING. -/
  | attPartialStatusReply (r : Rep)
  /-- MSA_FORWARD_REPLY (R378): An issuer returns the home's reply, and any response, to the originating completion ring under the original TAG. -/
  | msaForwardReply (r : Rep) (response : Bytes)
  /-- SQ_DOORBELL_WRITE (R338): A submission doorbell write enters the ring's doorbell FIFO, or is discarded as an invalid tail. -/
  | sqDoorbellWrite (fn ring value : Nat) (parityGood : Bool)
  /-- SQ_TAIL_CONSUME (R335): The device takes the next tail from the FIFO and reads and starts the packets that it covers. -/
  | sqTailConsume (ring : Nat) (reads : List SqRead)
  /-- CQ_HEAD_DOORBELL_WRITE (R338): Host software returns completion slots, and the device posts the entries it was holding. -/
  | cqHeadDoorbellWrite (fn ring value : Nat)
  /-- CQ_STALL_TIMEOUT (R337): An entry that has waited past CMD_CQ_STALL_TMO sets STALLED and raises the vector. -/
  | cqStallTimeout (ring now : Nat)
  /-- CQ_COAL_TIMEOUT (R336): The CMD_CQ_COAL delay expires, and the device raises the ring's interrupt for the entries pending. -/
  | cqCoalTimeout (ring now : Nat)
  /-- SQ_ENABLE (R334): Writing ENABLE 1 makes a submission ring ACTIVE. -/
  | sqEnable (fn ring value : Nat)
  /-- SQ_DISABLE (R340): Writing ENABLE 0 clears the doorbell FIFO and takes the submission ring to DISABLED. -/
  | sqDisable (fn ring value : Nat)
  /-- CQ_ENABLE (R336): Writing ENABLE 1 makes a completion ring ACTIVE. -/
  | cqEnable (fn ring value : Nat)
  /-- CQ_DISABLE (R340): Writing ENABLE 0 disables a completion ring, and later replies for it are dropped. -/
  | cqDisable (fn ring value : Nat)
  /-- HOSTWIN_ENABLE_WRITE (R170): The device checks a host window's alignment when ENABLE is written to 1, and sets HOSTWIN_ERR on failure. -/
  | hostwinEnableWrite (n value : Nat)
  /-- HOSTWIN_FIELD_WRITE (R171): A refused write to an enabled window, or a write of ENABLE 0 to a window in use, is ignored and sets HOSTWIN_ERR. -/
  | hostwinFieldWrite (offset value : Nat)
  /-- MAN_BERTH_SEL_WRITE (R235): The device copies the selected berth's manifest into MAN_BERTH_IMG. -/
  | manBerthSelWrite (value : Nat)
  /-- WTH_SLOT_SEL_WRITE (R306): The device copies the selected slot's description into WTH_SLOT_INFO. -/
  | wthSlotSelWrite (value : Nat)
  /-- QPC_SEL_WRITE (R371): The device copies the selected QP's visible context into QPC_CTX. -/
  | qpcSelWrite (value : Nat)
  /-- SCH_SHAPE_SEL_WRITE (R419): The device copies the selected QP's shaper state into SCH_SHAPE_INFO and SCH_SHAPE_TOKENS. -/
  | schShapeSelWrite (value : Nat)
  /-- ERR_LOG_SEL_WRITE (R454): The device copies the selected log entry into ERR_LOG_DATA. -/
  | errLogSelWrite (value : Nat)
  /-- PORT_RETRAIN_WRITE (R344): Writing RETRAIN sends a port that is not DISABLED back to DETECT. -/
  | portRetrainWrite (port : Nat)
  /-- SCH_HIST_CLEAR (R418): The device zeroes every queue histogram bin on one cycle. -/
  | schHistClear
  /-- DEV_RESET_DEVICE (R458): A keyed write resets the device, and power-up runs again from step 2. -/
  | devResetDevice (value : Nat)
  /-- DEV_RESET_CP_RESTART (R449): A keyed write starts a control-plane warm restart. -/
  | devResetCpRestart (value : Nat)
  /-- DEV_IRQ_STATUS_WRITE (R493): Writing 1 clears device-event status bits, except a bit that an event sets on the same cycle. -/
  | devIrqStatusWrite (value eventsNow : Nat)
  /-- DEV_IRQ_ENABLE_WRITE (R493): Setting an enable bit whose status bit is already 1 sends one message. -/
  | devIrqEnableWrite (value : Nat)
  /-- MGT_MBOX_GO (R504): The management controller takes the mailbox packet, writes the reply to the response area and clears BUSY. -/
  | mgtMboxGo (opcode : Nat) (p : Pkt)
  /-- BAR4_READ (R499): A debug-window read returns HBM3E or context-SRAM bytes, all-ones, or a poisoned completion. -/
  | bar4Read (offset len : Nat) (uncorrected : Bool)
  /-- BAR4_WRITE (R500): A debug-window write is applied only in restricted mode with the window enabled for writing, and is otherwise discarded and counted. -/
  | bar4Write (offset : Nat) (bytes : List (Option Byte))
  /-- BAR0_BAD_ACCESS (R496): A BAR0 access that is not 4 or 8 bytes naturally aligned reads all-ones or is discarded, and is counted. -/
  | bar0BadAccess (write : Bool) (offset size : Nat)
  /-- REG_RESERVED_WRITE (R423): A write of a reserved value leaves the field unchanged, sets REG_RSVD_WR and ERR_REG_LAST, and sends a REG_RESERVED record. -/
  | regReservedWrite (fn offset value : Nat)
  /-- REG_WRITE (R22): A write to a register that has no row of its own takes effect as its fields' access codes give. -/
  | regWrite (fn offset size value : Nat)
  /-- REG64_LOW_HALF_READ (R124): A 4-byte read of the lower half of a 64-bit register latches the upper half for the next read. -/
  | reg64LowHalfRead (offset : Nat)
  /-- SEQ_STEP_MAX_READ (R153): Reading SEQ_STEP_MAX returns the largest step length and clears it. -/
  | seqStepMaxRead
  /-- ATT_RTT_MAX_READ (R282): Reading ATT_RTT_MAX returns the longest round trip and clears it. -/
  | attRttMaxRead
  /-- QPC_FETCH_MAX_READ (R374): Reading QPC_FETCH_MAX returns the longest context fetch and clears it. -/
  | qpcFetchMaxRead
  /-- MSA_LINE_MAX_READ (R397): Reading MSA_LINE_MAX returns the deepest line queue and clears it. -/
  | msaLineMaxRead
  /-- FUNCTION_LEVEL_RESET (R490): An FLR disables the function's rings, resets its FN registers and MSI-X state, and flushes its TYPE 1 QPs. -/
  | functionLevelReset (fn now : Nat)
  /-- FLR_COMPLETE (R490): The function leaves reset within 1 ms and stops answering Request Retry Status. -/
  | flrComplete (fn : Nat)
  /-- VF_ENABLE_CHANGE (R488): A change of VF Enable disables and resets every ring whose owner changes. -/
  | vfEnableChange (enable : Bool) (numVfs : Nat)
  /-- MSIX_UNMASK (R492): Unmasking a vector with its pending bit set sends one message. -/
  | msixUnmask (fn vector : Nat)
  /-- PERST_ASSERT (R491): PERST# assertion acts as an FLR of PF0 while fabric work continues. -/
  | perstAssert (now : Nat)
  /-- PERST_DEASSERT (R459): The PCIe link trains within 20 ms of PERST# deassertion. -/
  | perstDeassert (flit : Bool) (width speed : Nat)
  /-- PCIE_HOT_RESET (R491): A PCIe hot reset acts as an FLR of PF0. -/
  | pcieHotReset (now : Nat)
  /-- PCIE_LINK_DOWN (R491): A loss of the link without a reset is counted, and completion entries are held. -/
  | pcieLinkDown
  /-- PCIE_LINK_UP (R491): When the link returns, the held completion entries are delivered. -/
  | pcieLinkUp (flit : Bool) (width speed : Nat)
  /-- I3C_ENTDAA (R503): The I3C target accepts a dynamic address with its Provisional ID. -/
  | i3cEntdaa (address : Nat)
  /-- MCTP_CONTROL_MESSAGE (R503): The I3C target serves an MCTP control message. -/
  | mctpControlMessage (body : Bytes)
  /-- I3C_CLK_STATUS_READ (R503): A vendor message of KIND 1 returns CLK_STATUS, even in ROM. -/
  | i3cClkStatusRead
  /-- UART_RX (R505): Input on the debug UART reaches CP_SHELL when that feature owns the UART, and is ignored otherwise. -/
  | uartRx (bytes : Bytes)
  /-- JTAG_INSTRUCTION (R506): The TAP loads an instruction, and the boundary instructions act only while the package reset is held. -/
  | jtagInstruction (instr : JtagInstr)
  /-- PKG_RESET_RELEASE (R458): Release of the package reset starts the power-up sequence. -/
  | pkgResetRelease (power : PowerOn)
  /-- PKG_RESET_ASSERT (R515): Assertion of PKG_RESET_N in service resets the device at once, with no record and no reply. -/
  | pkgResetAssert
  /-- ROOT_SYNTH_LOCK (R457): The root synthesizer locks, CLK_MGT moves to its output, and the management controller boots. -/
  | rootSynthLock (us : Nat) (pufGood : Bool)
  /-- ROOT_LOCK_TIMEOUT (R457): An attempt without lock after 1 ms is retried, and after the third failure the package stays in ROM. -/
  | rootLockTimeout
  /-- ROOT_LOCK_LOSS (R457): Loss of root lock in service is FATAL, reported as IO_DIE_FATAL. -/
  | rootLockLoss (now : Nat)
  /-- REF100_LOSS (R520): Loss of the board reference in service is FATAL. -/
  | ref100Loss (now : Nat)
  /-- MEMORY_TRAINING_DONE (R458): HBM3E and LPDDR5X training ends, failed stacks and sets are handled, and remaps are applied. -/
  | memoryTrainingDone (hbmFailed lpxFailed : List Nat) (cmpTargets : List Nat)
  /-- KAT_COMPLETE (R48): The known-answer tests end, and slots are sorted into serving, spare and absent. -/
  | katComplete (failed : List (Nat × Nat))
  /-- MICROCODE_BROADCAST_DONE (R460): Checksums of the broadcast microcode are compared, and mismatching cores are resent the image or fenced. -/
  | microcodeBroadcastDone (stillDiffer : List Nat)
  /-- PORT_TRAINING_STEP_END (R461): Power-up step 10 ends when every licensed port is UP, MISWIRED or DOWN. -/
  | portTrainingStepEnd (now : Nat)
  /-- THERMAL_SAMPLE (R517): Every 100 µs the device reads the sensors and adjusts the issue level N. -/
  | thermalSample (now : Nat) (celsius : List Nat) (throttleIn : Bool)
  /-- POWER_ESTIMATE (R516): Every 100 µs the device estimates package power into PWR_EST_W. -/
  | powerEstimate (now watts : Nat) (railsMv : List Nat)
  /-- AVS_ADJUST (R512): The device moves a VDD_CMP target in 5 mV steps over AVSBus, keeping the last acknowledged target on no acknowledgement. -/
  | avsAdjust (now stack : Nat) (up acked : Bool)
  /-- THERMTRIP (R519): A die at 115 °C asserts THERMTRIP_N, and the device stops as FATAL. -/
  | thermtrip (now sensor : Nat)
  /-- IO_DIE_FATAL_ERROR (R420): An uncorrected error in I/O-die control logic, or an I/O-die queue overrun, is FATAL. -/
  | ioDieFatalError (now die : Nat)
  /-- PORT_SIGNAL_DETECT (R344): A signal detected in DETECT moves the port to TRAIN. -/
  | portSignalDetect (port : Nat)
  /-- PORT_DETECT_TIMEOUT (R344): 50 ms in DETECT starts a new attempt, or takes the port DOWN at the third attempt. -/
  | portDetectTimeout (port now : Nat)
  /-- PORT_LANE_LOCK (R344): A lane locks in TRAIN, the width is chosen and the port moves to NEGOTIATE. -/
  | portLaneLock (port : Nat) (lanes : List Nat) (fast : Bool)
  /-- PORT_RATE_FALLBACK_TIMEOUT (R344): 25 ms without lock at 212.5 GBd lets training lock at 106.25 GBd. -/
  | portRateFallbackTimeout (port now : Nat)
  /-- PORT_TRAIN_TIMEOUT (R344): 50 ms in TRAIN with no lane locked starts a new attempt, or takes the port DOWN. -/
  | portTrainTimeout (port now : Nat)
  /-- PORT_NEGOTIATE_DONE (R344): The port agrees a version and checks the announced plane, going UP or MISWIRED. -/
  | portNegotiateDone (port now major minor plane : Nat)
  /-- PORT_NEGOTIATE_TIMEOUT (R344): 10 ms without agreement starts a new attempt, or takes the port DOWN. -/
  | portNegotiateTimeout (port now : Nat)
  /-- LANE_LOSS_OF_LOCK (R346): A lane that loses lock is retrained and counted, the port narrows or retrains, and the lane may be disabled. -/
  | laneLossOfLock (port lane now : Nat)
  /-- LANE_RETRAIN_LOCK (R344): A lane retrained in the background locks again, and the port widens. -/
  | laneRetrainLock (port lane : Nat)
  /-- KEEPALIVE_SEND (R351): Every 100 µs each UP port sends a KEEPALIVE frame. -/
  | keepaliveSend (port now : Nat)
  /-- KEEPALIVE_RECEIVED (R351): A received KEEPALIVE updates the port's one-way delay. -/
  | keepaliveReceived (port now plane txTick echoTick hold : Nat)
  /-- KEEPALIVE_MISS (R351): 100 µs without a KEEPALIVE counts a miss, and the third consecutive miss reports the partner as suspect and retrains the port. -/
  | keepaliveMiss (port now : Nat)
  /-- CREDIT_RECEIVED (R350): A CREDIT frame adds TC-L credit on the port. -/
  | creditReceived (port credits : Nat)
  /-- PAUSE_RECEIVED (R350): A PAUSE frame stops, or with time 0 resumes, new frames of the named classes. -/
  | pauseReceived (port now : Nat) (tcl tcs : Bool) (time : Nat)
  /-- PAUSE_EXPIRE (R350): The pause time runs out, and the paused classes resume. -/
  | pauseExpire (port now : Nat)
  /-- FRAME_SEND_START (R350): A waiting frame starts once credit, pause, gate window and shaping allow it. -/
  | frameSendStart (port now : Nat) (tcs : Bool)
  /-- LINK_FRAME_INVALID (R349): A frame with a bad FTYPE, non-zero reserved bits, a bad LCRC or a bad FHCRC is discarded and counted. -/
  | linkFrameInvalid (port : Nat) (otherDevice : Bool)
  /-- TCL_DATA_RECEIVED (R362): A TC-L DATA packet is accepted in PSN order, or discarded with an ACK or NAK SEQ. -/
  | tclDataReceived (f : Fab)
  /-- TCS_DATA_RECEIVED (R358): A TC-S packet is placed by index in its tracking entry, completing the message when the bitmap is full. -/
  | tcsDataReceived (f : Fab)
  /-- ACK_RECEIVED (R363): An ACK releases packets up to the acknowledged PSN and zeroes the retry count. -/
  | ackReceived (qp port psn now : Nat)
  /-- NAK_RECEIVED (R363): A NAK triggers a resend, a delayed resend, QP ERROR or port exclusion, as its code gives. -/
  | nakReceived (qp port psn now : Nat) (code : NakCode)
  /-- SACK_RECEIVED (R359): A SACK clears covered packets, completes the message, or fails it with ST_BUSY on NO_BUFFER. -/
  | sackReceived (qp port msgId base now : Nat) (complete noBuffer : Bool) (bitmap : List Nat)
  /-- TCL_ACK_TIMEOUT (R363): The oldest unacknowledged packet is resent, or the QP fails with ST_TARGET_DEAD once retries are exhausted. -/
  | tclAckTimeout (qp now : Nat)
  /-- TCL_ACK_DELAY_EXPIRE (R362): 2 µs after an unacknowledged accepted packet, the receiver sends a cumulative ACK. -/
  | tclAckDelayExpire (qp now : Nat)
  /-- TCL_NO_CONTEXT_RESEND (R363): 5 µs after NAK NO_CONTEXT, the sender resends from the named PSN. -/
  | tclNoContextResend (qp now : Nat)
  /-- TCS_RETRANSMIT_TIMEOUT (R359): A TC-S packet not covered by a SACK after 40 µs is resent, or its message fails once retries are exhausted. -/
  | tcsRetransmitTimeout (qp msgId pktIdx now : Nat)
  /-- TCS_SACK_TIMER (R358): Every 8 µs the receiver sends a SACK for an incomplete message. -/
  | tcsSackTimer (qp msgId now : Nat)
  /-- TCS_ASSEMBLY_TIMEOUT (R360): The assembly timer closes an incomplete message and completes its receive buffer with ST_TIMEOUT. -/
  | tcsAssemblyTimeout (qp msgId now : Nat)
  /-- PORT_EXCLUSION_EXPIRE (R357): 1 ms after NAK UNREACHABLE, the port counts again towards that destination. -/
  | portExclusionExpire (port dest now : Nat)
  /-- QPC_EVICT_VERIFIED (R370): The write of an evicted context is verified, and its resident slot frees. -/
  | qpcEvictVerified (qp : Nat)
  /-- QPC_FETCH_COMPLETE (R371): A fetched context is placed, and its parked packets are processed in arrival order. -/
  | qpcFetchComplete (qp now : Nat)
  /-- QPC_FETCH_FAIL (R371): A failed fetch takes the QP to ERROR and discards its parked packets. -/
  | qpcFetchFail (qp now : Nat)
  /-- QPC_HOLD_TIMEOUT (R372): A packet parked past QPC_HOLD_TMO is discarded, and a TC-L packet is answered with NAK NO_CONTEXT. -/
  | qpcHoldTimeout (qp now : Nat)
  /-- SHAPER_WHEEL_SLOT (R416): The timing wheel reaches a slot, and its QPs are evaluated again and joined to their send queues. -/
  | shaperWheelSlot (now : Nat)
  /-- QUEUE_SAMPLE_TICK (R418): Every 1 µs the device samples the depth and sojourn of 17 queues into histograms. -/
  | queueSampleTick (now : Nat)
  /-- MSA_LINE_APPLY (R382): The head operation, or store run, of a line queue is applied and answered. -/
  | msaLineApply (line now : Nat)
  /-- MSA_OP_TIMEOUT (R387): A forwarded operation without a reply after MSA_TMO completes with ST_TARGET_DEAD and all-ones data. -/
  | msaOpTimeout (tag now : Nat)
  /-- MSA_GW_TIMEOUT (R396): A gateway batch without a final reply after MSA_GW_TMO completes with ST_TIMEOUT. -/
  | msaGwTimeout (tag now : Nat)
  /-- STEP_START (R137): A step starts on one cycle in every cluster in service, and the harbourmaster chooses the step after it. -/
  | stepStart (now : Nat)
  /-- STEP_BOUNDARY (R137): The last cluster's END ends the step, and the boundary's effects are applied. -/
  | stepBoundary (now cycles : Nat)
  /-- STEP_OVERRUN (R143): A step that reaches step cycle 5,400,000 is counted as an overrun. -/
  | stepOverrun
  /-- STEP_WATCHDOG (R144): At 4.0 ms the step is aborted, unfinished clusters are reset, and the weave is replayed once or failed. -/
  | stepWatchdog (now : Nat)
  /-- CLUSTER_RESET_COMPLETE (R144): A cluster's watchdog reset completes within 20 µs, and the cluster stays in service. -/
  | clusterResetComplete (m : Nat)
  /-- DRAIN_WINDOW_END (R17): The drain window ends, and packets of the previous epoch are no longer acted on. -/
  | drainWindowEnd (now : Nat)
  /-- LOAD_TILE (R133): The table entry copies a tile from its source into core memory. -/
  | loadTile (m cyc : Nat)
  /-- EXPAND (R109): The table entry decodes a weight tile into the tile buffers of the named cores. -/
  | expandTile (m cyc : Nat)
  /-- MMA (R90): The table entry streams activation rows through the loaded tile and accumulates in FP32. -/
  | mma (m cyc : Nat)
  /-- VEC (R135): The table entry performs the vector operation that VOP selects. -/
  | vec (m cyc : Nat)
  /-- SAMPLE (R296): The table entry chooses one token per row from its logits. -/
  | sampleEntry (m cyc : Nat)
  /-- SEND_ENTRY (R138): The table entry writes to a HELD, QUERY or PASS batch slot. -/
  | sendEntry (m cyc now : Nat)
  /-- WAIT (R139): The table entry waits until its flag reaches COUNT. -/
  | waitEntry (m cyc : Nat)
  /-- SIGNAL (R139): The table entry signals a flag of a target cluster. -/
  | signalEntry (m cyc : Nat)
  /-- SIGNAL_DELIVERED (R139): A SIGNAL reaches its target cluster 40 or 160 cycles after issue and advances the flag. -/
  | signalDelivered (target flag cyc : Nat)
  /-- BARRIER (R139): The table entry waits until every cluster in its scope reaches the same barrier. -/
  | barrierEntry (m cyc : Nat)
  /-- SENTINEL (R97): The table entry recomputes a tile at FP8 and compares it with the narrow result. -/
  | sentinelEntry (m cyc : Nat)
  /-- END (R137): The cluster finishes the step once all its earlier entries have completed. -/
  | endEntry (m cyc : Nat)
  /-- ENTRY_DEADLINE (R140): An entry's deadline falls with its input not ready, and its fallback code is applied. -/
  | entryDeadline (m cyc : Nat) (delivered onCycle : Bool)
  /-- HOST_ARRIVAL_COMPLETE (R139): A host-memory arrival completes for a bound slot and advances its flag. -/
  | hostArrivalComplete (slot : Nat)
  /-- STAGER_TILE_START (R172): The slice stager starts staging a tile once the slice has room for it. -/
  | stagerTileStart (m : Nat)
  /-- STAGING_COMPLETE (R172): Every byte of a staged tile is in the slice. -/
  | stagingComplete (c : ClusterCycle)
  /-- DIRECT_PATH_COMPLETE (R115): A direct-path tile is delivered, and the switched entry completes. -/
  | directPathComplete (c : ClusterCycle)
  /-- EXPANDER_BLOCK_DONE (R193): The expander finishes delivering one coded or raw block. -/
  | expanderBlockDone (c : ClusterCycle)
  /-- COMPRESSOR_OBJECT_READY (R199): A region's compressor finishes coding one object. -/
  | compressorObjectReady (region : Nat)
  /-- CORE_UNCORRECTED_ERROR (R66): An uncorrected core error fences the core and aborts the running step in every cluster. -/
  | coreUncorrectedError (now cyc : Nat) (slots : List Nat)
  /-- CORE_CORRECTED_ERROR (R424): A corrected core error is counted against the suspect and fence thresholds. -/
  | coreCorrectedError (slot now : Nat)
  /-- SPARE_LOAD_COMPLETE (R66): The spare's microcode checksum matches, and the replay or covered test begins. -/
  | spareLoadComplete (m now : Nat) (checksumMatches : Bool)
  /-- SENTINEL_TEST_END (R121): A sentinel test program ends passed or failed, and the slot changes state. -/
  | sentinelTestEnd (slot now : Nat) (passed : Bool)
  /-- CLUSTER_UE (R49): An uncorrected error in a sequencer, expander or slice makes the cluster absent. -/
  | clusterUe (m now : Nat) (part : ClusterPart)
  /-- LIGHTER_UE (R50): An uncorrected lighter error fences it, and the backup lighter takes over its queues. -/
  | lighterUe (region now : Nat)
  /-- COMPRESSOR_UE (R52): A fenced compressor makes its region send raw blocks. -/
  | compressorUe (region now : Nat)
  /-- REGION_STOP_FAIL (R53): Failure of a region's base-network stop loses the region and fences its die stack. -/
  | regionStopFail (region now : Nat)
  /-- DIE_STACK_FENCE (R65): A fenced die stack stops all steps, reports lost pages and waits for reloads. -/
  | dieStackFence (stack now : Nat) (cause : StackCause)
  /-- HBM_CORRECTED_ERROR (R177): A corrected HBM3E error is counted per row. -/
  | hbmCorrectedError (stack dpa now : Nat)
  /-- HBM_ROW_COPY_DONE (R177): The remap copy completes, and the waiting accesses proceed. -/
  | hbmRowCopyDone (dpa now : Nat)
  /-- OBJECT_MOVE_COMPLETE (R178): A moved object is verified, its references are switched and the old copy is freed. -/
  | objectMoveComplete (object : MovedObject) (now : Nat) (verified : Bool)
  /-- MEMORY_UE (R179): An uncorrected HBM3E or LPDDR5X read delivers poison, and the damaged object is handled by its kind. -/
  | memoryUe (now dpa : Nat) (lpx : Bool) (obj : DamagedObject)
  /-- LPX_CORRECTED_ERROR (R176): A corrected LPDDR5X error is counted per device. -/
  | lpxCorrectedError (device dpa now : Nat)
  /-- SRAM_CORRECTED_ERROR (R176): A corrected SRAM error is corrected in place and counted. -/
  | sramCorrectedError (slice : Bool) (unit address now : Nat)
  /-- SRAM_UE (R176): An uncorrected context-SRAM error fails the berth or QP that holds the word. -/
  | sramUe (now address : Nat) (owner : SramOwner)
  /-- FIFO_PARITY_ERROR (R432): An internal FIFO word failing parity is delivered with poison. -/
  | fifoParityError (place : FifoPlace) (index now : Nat)
  /-- FIFO_OVERRUN (R432): A write to a full internal FIFO is an uncorrected error of its unit, or FATAL on an I/O die. -/
  | fifoOverrun (place : FifoPlace) (index now : Nat)
  /-- CP_WATCHDOG_EXPIRE (R449): A command-processor watchdog expires, and the control plane restarts. -/
  | cpWatchdogExpire (cp now : Nat)
  /-- CP_RESTART_COMPLETE (R452): The warm restart ends, pending commands receive their final replies, and CP_RESTART is sent. -/
  | cpRestartComplete (now : Nat)
  /-- MGT_WATCHDOG_EXPIRE (R453): The management-controller watchdog expires, and the controller alone restarts. -/
  | mgtWatchdogExpire (now : Nat)
  /-- MGT_RESTART_COMPLETE (R453): The management controller returns, sends held records and then MGT_RESTART. -/
  | mgtRestartComplete (now : Nat)
  /-- REPLAY_ROUND_TIMEOUT (R435): A replay round without a result fails and is repeated with the next peer. -/
  | replayRoundTimeout (stepSeq now : Nat)
  /-- REPLAY_PARTS_TIMEOUT (R439): The incomplete parts of a replay are discarded after ERR_REPLAY_TMO. -/
  | replayPartsTimeout (qp stepSeq now : Nat)
  /-- PAGE_MOVE_TIMEOUT (R252): A page move without an answer after LGT_MOVE_TMO is counted as refused and retried. -/
  | pageMoveTimeout (move now : Nat)
  /-- PAGE_MOVE_RETRY (R252): After LGT_RETRY, a fresh move starts to the holders that have not accepted the page. -/
  | pageMoveRetry (move now : Nat)
  /-- PAGE_DROP_RETRY (R253): After LGT_RETRY, a PAGE.DROP that was not answered ST_OK is sent again. -/
  | pageDropRetry (drop now : Nat)
  /-- ARRIVING_FRAME_TIMEOUT (R251): An ARRIVING frame without a PAGE.SEAL within LGT_MOVE_TMO is freed. -/
  | arrivingFrameTimeout (frame now : Nat)
  /-- DEMOTION_VERIFIED (R254): A coded LPDDR5X copy is verified, and the HBM3E copy is freed. -/
  | demotionVerified (frame now : Nat) (verified : Bool)
  /-- SWAP_OUT_VERIFIED (R260): A snapshot is verified, local frames are freed and the manifest goes to SWAPPED. -/
  | swapOutVerified (berth now : Nat) (verified : Bool)
  /-- SWAP_IN_COMPLETE (R261): A restored snapshot is checked, and the manifest returns to GENERATING or loses its state. -/
  | swapInComplete (berth now : Nat) (read : SnapRead)
  /-- HANDOFF_TIMEOUT (R224): A transfer without REQ.ACCEPT in time is treated as refused with ST_TIMEOUT. -/
  | handoffTimeout (berth now : Nat)
  /-- AWAIT_CONFIRM_TIMEOUT (R224): A generation node with no confirmation of its REQ.ACCEPT in time voids the handoff. -/
  | awaitConfirmTimeout (berth now : Nat)
  /-- RESERVED_BERTH_TIMEOUT (R224): A reserved berth whose pages have not all arrived in time is freed. -/
  | reservedBerthTimeout (berth now : Nat)
  /-- PROMOTION_VERIFIED (R289): A promoted resident slot is verified and becomes READY. -/
  | promotionVerified (slot : Nat) (verified : Bool)
  /-- ATT_EXCHANGE_TIMEOUT (R279): An exchange without its ATT.RESULT after ATT_TMO fails, and its holder is passed over. -/
  | attExchangeTimeout (tag now : Nat)
  /-- ATT_SERVICE_COMPLETE (R278): A cache node finishes folding an ATT.PARTIAL and sends the ATT.RESULT. -/
  | attServiceComplete (service now : Nat) (poisoned : List Nat)
  /-- FLASH_WRITE_COMPLETE (R468): A flash write finishes its read-back verification and releases the flash. -/
  | flashWriteComplete (now : Nat) (verified : Bool)
  /-- BOTTOM_TREE_GENERATED (R476): A new identity bottom tree is generated and the state record is written. -/
  | bottomTreeGenerated (now : Nat)
  /-- TELEMETRY_TICK (R469): Every TELEMETRY_S the device sends a counter summary to the collectors. -/
  | telemetryTick (now : Nat)
  /-- FLASH_SCRUB_TICK (R469): Every SCRUB_H the device read-verifies every signed and checked flash record. -/
  | flashScrubTick (now : Nat)
  /-- METER_PAGE_MS_TICK (R414): Every 1 ms each composition's meter adds the page frames charged to it. -/
  | meterPageMsTick (now : Nat)
  /-- ERR_STATUS_READ (R469): A read of ERR_STATUS ends the low drive of the FAULT_OUT pin that a UE or FATAL record started. -/
  | errStatusRead
  /-- ICMPV6_ECHO_REQUEST (R501): The management port answers an ICMPv6 echo request that arrives for its address. -/
  | icmpv6EchoRequest (src : Nat) (dst : Bytes) (body : Bytes)
  /-- NEIGHBOUR_DISCOVERY_MESSAGE (R501): The management port takes part in IPv6 neighbour discovery for its link-local and configured addresses. -/
  | neighbourDiscoveryMessage (src : Nat) (target : Bytes) (body : Bytes)
  /-- TRACE_TRIG_INPUT (R469): An edge on the GPIO pin owned by TRACE_TRIG, used as an input, acts as the debug trigger. -/
  | traceTrigInput (pin : Nat) (rising : Bool)
deriving DecidableEq, Repr

end Sys2Proof
end

