-- ==== Sys2Proof/Decode.lean ====
section
/-! DEFINITION. The words that spell commands.

The table of operations and events gives no row any bits: a command is a packet, a register access or an event, never
a word of fixed bits. -/

namespace Sys2Proof

/-- The command that a word of `nbits` bits spells: none, because no row of the table gives bits. -/
def decodeTableWord (_nbits _w : Nat) : Option Instr := none

end Sys2Proof
end

