-- ==== Sys2Proof/Machine/Tab.lean ====
section
/-! DEFINITION. Operations on sparse tables and the small list and number helpers the model uses.

A table is a list of key and value pairs with strictly rising keys. A table with a default holds no entry equal to the
default, so that equal tables are equal data. -/

namespace Sys2Proof.Machine

variable {α : Type}

/-- The entry under `k`. -/
def tabGet : Tab α → Nat → Option α
  | [], _ => none
  | (k', v) :: t, k => if k' = k then some v else tabGet t k

/-- Put `v` under `k`, keeping the keys rising. -/
def tabPut : Tab α → Nat → α → Tab α
  | [], k, v => [(k, v)]
  | (k', v') :: t, k, v =>
    if k < k' then (k, v) :: (k', v') :: t
    else if k = k' then (k, v) :: t
    else (k', v') :: tabPut t k v

/-- Remove the entry under `k`. -/
def tabDel : Tab α → Nat → Tab α
  | [], _ => []
  | (k', v') :: t, k => if k' = k then tabDel t k else (k', v') :: tabDel t k

/-- The entry under `k`, or the default `d`. -/
def tabGetD (t : Tab α) (k : Nat) (d : α) : α := (tabGet t k).getD d

/-- Write `v` under `k` in a table whose unlisted keys read `d`: writing the default removes the entry. -/
def tabSet [DecidableEq α] (t : Tab α) (k : Nat) (v d : α) : Tab α :=
  if v = d then tabDel t k else tabPut t k v

/-- Change the entry under `k`, if there is one. -/
def tabMod (t : Tab α) (k : Nat) (f : α → α) : Tab α :=
  t.map fun e => if e.1 = k then (e.1, f e.2) else e

/-- Keep the entries that satisfy `p`. -/
def tabKeep (t : Tab α) (p : Nat → α → Bool) : Tab α := t.filter fun e => p e.1 e.2

/-- Change every entry. -/
def tabMap (t : Tab α) (f : Nat → α → α) : Tab α := t.map fun e => (e.1, f e.1 e.2)

/-- The keys rise strictly. -/
def tabSorted : Tab α → Bool
  | [] => true
  | [_] => true
  | (k, _) :: (k', v') :: t => decide (k < k') && tabSorted ((k', v') :: t)

/-- The canonical form of a table with a default. -/
def tabWf [DecidableEq α] (t : Tab α) (d : α) : Bool := tabSorted t && t.all fun e => decide (e.2 ≠ d)

/-- The lowest number from `k` on that is no key of `t`, whose keys start at `k` or above. -/
def tabGap : Tab α → Nat → Nat
  | [], k => k
  | (k', _) :: t, k => if k' = k then tabGap t (k + 1) else k

/-- The lowest number below `n` that is no key of `t`. -/
def tabFree (t : Tab α) (n : Nat) : Option Nat :=
  if tabGap t 0 < n then some (tabGap t 0) else none

/-- Replace element `i` of a list. -/
def listSet (l : List α) (i : Nat) (v : α) : List α := l.set i v

/-- Bits `hi` to `lo` of `v`. -/
def bits (v hi lo : Nat) : Nat := v / 2 ^ lo % 2 ^ (hi + 1 - lo)

/-- Bit `i` of `v`. -/
def bit (v i : Nat) : Bool := v / 2 ^ i % 2 == 1

/-- `v` with bits `hi` to `lo` replaced by the low bits of `x`. -/
def setBits (v hi lo x : Nat) : Nat :=
  v - bits v hi lo * 2 ^ lo + x % 2 ^ (hi + 1 - lo) * 2 ^ lo

/-- A Boolean as a number. -/
def b2n (b : Bool) : Nat := if b then 1 else 0

/-- The number whose bit `i` says that `i`, below `n`, satisfies `p`. -/
def bitmap (n : Nat) (p : Nat → Bool) : Nat :=
  (List.range n).foldl (fun acc i => if p i then acc + 2 ^ i else acc) 0

/-- The positions of the 1 bits of `v` below `n`, ascending. -/
def bitsOf (n v : Nat) : List Nat := (List.range n).filter (bit v)

/-- The quotient rounded up. -/
def divUp (a b : Nat) : Nat := (a + (b - 1)) / b

/-- `n` bytes of `b` from offset `off`, short where `b` ends. -/
def slice (b : Bytes) (off n : Nat) : Bytes := (b.drop off).take n

/-- The number in `n` bytes of `b` at `off`, lowest byte first (R21). -/
def leAt (b : Bytes) (off n : Nat) : Nat := leNat (slice b off n)

/-- The signed value of the low `w` bits of `v`. -/
def signed (w v : Nat) : Int :=
  let x := v % 2 ^ w
  if x < 2 ^ (w - 1) then (x : Int) else (x : Int) - (2 ^ w : Nat)

/-- The low `w` bits of a signed value. -/
def unsigned (w : Nat) (v : Int) : Nat := (v % ((2 ^ w : Nat) : Int)).toNat

/-- Break a list into pieces of `n` elements; `fuel` bounds the pieces. -/
def pieces (n : Nat) : Nat → List α → List (List α)
  | 0, _ => []
  | _ + 1, [] => []
  | k + 1, l => l.take n :: pieces n k (l.drop n)

/-- The records of `n` bytes that `b` holds. -/
def records (n : Nat) (b : Bytes) : List Bytes := pieces n (b.length / (max n 1) + 1) b

/-- Whether ranges, each an offset and a length, cover every number from `at'` to below `n`; `fuel` bounds the search. -/
def rangesFrom (l : List (Nat × Nat)) (n : Nat) : Nat → Nat → Bool
  | 0, at' => decide (n ≤ at')
  | k + 1, at' =>
    if n ≤ at' then true
    else match l.find? fun x => decide (x.1 ≤ at') && decide (at' < x.1 + x.2) with
      | some x => rangesFrom l n k (x.1 + x.2)
      | none => false

/-- Whether ranges cover every number below `n`. -/
def rangesCover (l : List (Nat × Nat)) (n : Nat) : Bool := rangesFrom l n (l.length + 1) 0

/-- `n` zero bytes. -/
def zeros (n : Nat) : Bytes := List.replicate n 0

/-- Place `src` at offset `off` of `dst`, lengthening `dst` with zeros where needed. -/
def placeAt (dst : Bytes) (off : Nat) (src : Bytes) : Bytes :=
  let base := dst ++ zeros (off + src.length - dst.length)
  base.take off ++ src ++ base.drop (off + src.length)

end Sys2Proof.Machine
end

