-- ==== Sys2Proof/Machine/Digest.lean ====
section
/-! DEFINITION. The check words, digests and draws that the spec takes from published standards: CRC-32C (R309),
SHA-256 (R434, R474) and Philox-4x32-10 (R295). -/

namespace Sys2Proof.Machine

/-! ## CRC-32C -/

/-- One bit of the reflected CRC-32C division. -/
def crcBit (c : Nat) : Nat := if c % 2 = 1 then c / 2 ^^^ 0x82F63B78 else c / 2

/-- One byte into the CRC-32C register. -/
def crcByte (c : Nat) (b : Byte) : Nat :=
  crcBit (crcBit (crcBit (crcBit (crcBit (crcBit (crcBit (crcBit (c ^^^ b.toNat))))))))

/-- CRC-32C (Castagnoli) of a run of bytes: register preset to all ones, result complemented (R309). -/
def crc32c (b : Bytes) : Nat := (b.foldl crcByte 0xFFFFFFFF) ^^^ 0xFFFFFFFF

/-! ## SHA-256 (R434, R474)

The standard takes its constants from the roots of the first primes; they are computed here from that definition. -/

/-- Whether `n` has no divisor from 2 to `d + 1`. -/
def noDivisorTo (n d : Nat) : Bool := (List.range d).all fun k => n % (k + 2) ≠ 0

/-- The first `k` primes: 311 is the 64th. -/
def firstPrimes (k : Nat) : List Nat := ((List.range 310).map (· + 2)).filter (fun n => noDivisorTo n (n - 2)) |>.take k

/-- The largest `r + x` with `x < 2 ^ bits` whose `e`-th power is at most `n`, one bit at a time. -/
def rootFrom (e n : Nat) : Nat → Nat → Nat
  | 0, r => r
  | bits + 1, r => rootFrom e n bits (if (r + 2 ^ bits) ^ e ≤ n then r + 2 ^ bits else r)

/-- The first 32 bits of the fraction of the `e`-th root of a prime below 2 ^ 9. -/
def rootFraction (e p : Nat) : Nat := rootFrom e (p * 2 ^ (32 * e)) 41 0 % 2 ^ 32

/-- A word of 32 bits rotated right. -/
def turnRight (n x : Nat) : Nat := (x * 2 ^ 32 + x) / 2 ^ n % 2 ^ 32

/-- Exclusive or of two rotations and a third word. -/
def mix (i j x y : Nat) : Nat := turnRight i x ^^^ turnRight j x ^^^ y

/-- The schedule word sixteen places on from the sixteen words `w`. -/
def scheduled (w : List Nat) : Nat :=
  let near := w.getD 1 0
  let far := w.getD 14 0
  (w.getD 0 0 + mix 7 18 near (near / 2 ^ 3) + w.getD 9 0 + mix 17 19 far (far / 2 ^ 10)) % 2 ^ 32

/-- The eight working words: what a round turns over, with the sixteen schedule words that are still to come. -/
structure Rounds where
  upper : Nat × Nat × Nat × Nat
  lower : Nat × Nat × Nat × Nat
  window : List Nat

/-- One round with a constant: the schedule's next word enters both halves. -/
def roundTurn (r : Rounds) (k : Nat) : Rounds :=
  let (a, b, c, d) := r.upper
  let (e, f, g, h) := r.lower
  let entering := h + mix 6 11 e (turnRight 25 e) + ((e &&& f) ||| ((2 ^ 32 - 1 - e) &&& g)) + k + r.window.headD 0
  let joined := entering + mix 2 13 a (turnRight 22 a) + ((a &&& (b ||| c)) ||| (b &&& c))
  ⟨(joined % 2 ^ 32, a, b, c), ((d + entering) % 2 ^ 32, e, f, g), r.window.tail ++ [scheduled r.window]⟩

/-- The eight words of a hash value, from and to its halves. -/
def roundsStart (h w : List Nat) : Rounds :=
  ⟨(h.getD 0 0, h.getD 1 0, h.getD 2 0, h.getD 3 0), (h.getD 4 0, h.getD 5 0, h.getD 6 0, h.getD 7 0), w⟩
def roundsWords (r : Rounds) : List Nat :=
  let (a, b, c, d) := r.upper
  let (e, f, g, h) := r.lower
  [a, b, c, d, e, f, g, h]

/-- A big-endian word. -/
def beNat (b : Bytes) : Nat := leNat b.reverse

/-- Take one block of 64 bytes into the hash words, under the round constants `ks`. -/
def absorb (ks h : List Nat) (b : Bytes) : List Nat :=
  let r := ks.foldl roundTurn (roundsStart h ((pieces 4 16 b).map beNat))
  List.zipWith (fun x y => (x + y) % 2 ^ 32) h (roundsWords r)

/-- The message, a one bit, zeros, and the bit length, to a whole number of blocks. -/
def padded (m : Bytes) : Bytes :=
  m ++ (0x80#8 :: zeros ((119 - m.length % 64) % 64)) ++ (toLe 8 (8 * m.length)).reverse

/-- SHA-256 of a run of bytes. -/
def sha256 (m : Bytes) : Bytes :=
  let primes := firstPrimes 64
  let ks := primes.map (rootFraction 3)
  let p := padded m
  ((pieces 64 (p.length / 64 + 1) p).foldl (absorb ks) ((primes.take 8).map (rootFraction 2))).flatMap
    fun x => (toLe 4 x).reverse

/-- Sum of two words modulo 2^32. -/
def add32 (a b : Nat) : Nat := (a + b) % 2 ^ 32

/-! ## Philox-4x32-10 (R295) -/

/-- One Philox round under a key. -/
def philoxRound (c : Nat × Nat × Nat × Nat) (k0 k1 : Nat) : Nat × Nat × Nat × Nat :=
  let p0 := 0xD2511F53 * c.1
  let p1 := 0xCD9E8D57 * c.2.2.1
  ((p1 / 2 ^ 32) ^^^ c.2.1 ^^^ k0, p1 % 2 ^ 32, (p0 / 2 ^ 32) ^^^ c.2.2.2 ^^^ k1, p0 % 2 ^ 32)

/-- Philox rounds, the key advancing after each. -/
def philoxRounds : Nat → Nat × Nat × Nat × Nat → Nat → Nat → Nat × Nat × Nat × Nat
  | 0, c, _, _ => c
  | n + 1, c, k0, k1 => philoxRounds n (philoxRound c k0 k1) (add32 k0 0x9E3779B9) (add32 k1 0xBB67AE85)

/-- The word drawn for log position `q` under a 64-bit seed (R295). -/
def philoxWord (seed q : Nat) : Nat :=
  (philoxRounds 10 (q % 2 ^ 32, 0, 0, 0) (seed % 2 ^ 32) (seed / 2 ^ 32 % 2 ^ 32)).1

end Sys2Proof.Machine
end

