-- ==== Sys2Proof/Config.lean ====
section
/-! DEFINITION. What the spec leaves open. Every constant here is opaque: nothing in Lean can evaluate it, so no
statement can rest on a value of it. -/

namespace Sys2Proof.Config

/-- A value that the spec leaves open, fresh for each number it is applied to (log 8). -/
opaque freeValue : Nat → Nat

/-- Exponential, logarithm, reciprocal and reciprocal square root of FP32 bits: Izmund's fixed algorithms, which R91
does not publish. Flags.lean keeps to them only where they lie within the 2 ulp of R91 (log 18). -/
opaque expBits : Nat → Nat
opaque logBits : Nat → Nat
opaque rcpBits : Nat → Nat
opaque rsqrtBits : Nat → Nat

/-- The code lengths that the compressor gives a table's symbols, from the histogram of the table's blocks: R199 limits
them to 11 and does not say which complete code is built (log 19). -/
opaque codeLengths : List Nat → List Nat

/-- The side-band code of a block-scaled VEC destination, from the entry's 32 bytes: R80 takes it from a tensor
descriptor, and no field of R132 names one for a destination (log 25). -/
opaque vecSide : Bytes → Nat

/-- The token that a row samples when a score is a NaN, from TEMPERATURE, the random seed, the position and the logits: R296 sorts the
scores and gives NaN no place (log 156). -/
opaque nanToken : Nat → Nat → Nat → List Nat → Nat

/-- What a read of core memory past its 1 MiB delivers, from the count of free values and the address: only a gather
reaches there, by an index that no check of R105 can see (log 74). -/
opaque coreByte : Nat → Nat → Byte

/-- Where the bytes of a row of a weave lie within a batch slot's data, from the slot's length, the row bucket and the
row: offset and length. R434 names a row's bytes and no rule places them (log 20). -/
opaque rowShare : Nat → Nat → Nat → Nat × Nat

/-- Bytes that a read of host memory returns: what the host holds is not the device's state (log 26). Applied to the
count of free values and the address. -/
opaque hostByte : Nat → Nat → Byte

/-- Bytes of a PASS slot that no earlier step of the run has written (log 29). Applied to the count of free values, the slot
and the offset. -/
opaque passByte : Nat → Nat → Nat → Byte

/-- How the harbourmaster binds the batch slots of a weave: KIND, FLAG, FORMAT, TIER, LENGTH and ADDRESS of each slot,
from the program, the step sequence number and the manifests of its rows. R412 lays the records out and no rule says
what a slot number is bound to (log 27). -/
opaque slotRecs : Nat → Nat → List Nat → List (Nat × Nat × Nat × Nat × Nat × Nat)

/-- The tile of gathered rows whose bound withy a program reads through a batch slot: the tile's number in TILE_BIND by PROGRAM_ID and
slot, none for a slot of another use. R292 binds the slots that withy entries name and no rule numbers them (log 27). -/
opaque withyTile : Nat → Nat → Option Nat

/-- DPA in context SRAM at which the descriptor of the weave with a first step sequence number stands (R412; log 27). -/
opaque batchAt : Nat → Nat

/-- Verification of an HSS signature (RFC 8554, parameter sets of SP 800-208): public key, message, signature. R474 cites
the scheme and does not publish it (log 66). -/
opaque hssVerify : Bytes → Bytes → Bytes → Bool

/-- SHA-256 of the firmware key's public key, which mask ROM holds (R474, log 66). -/
opaque firmwareKeyHash : Bytes

/-- The identity public key that the ROM derives from the PUF and the helper data (R475, log 66). -/
opaque identityKey : Bytes → Bytes

/-- The identity signature of a message under a signature index (R476, log 66). -/
opaque identitySign : Nat → Bytes → Bytes

/-- What a firmware component image says of itself: the bytes that its own length field counts, its version, its security
version, and whether it lists stepping 0xA1. R479 names these and no rule lays the image out (log 67). -/
opaque fwLength : Bytes → Nat
opaque fwVersion : Bytes → Nat
opaque fwSecurity : Bytes → Nat
opaque fwStepping : Bytes → Bool

/-- The pairing list of a management component: firmware generation; management, command-processor and microcode version; table
format major and minor; stepping (R479, log 67). -/
opaque fwPairing : Bytes → List (Nat × List Nat)

/-- Izmund's MIPI manufacturer code, as the board design guide gives it (R503, log 69). -/
opaque mipiCode : Nat

/-- DPA of the frame-descriptor array in the SYS area: R242 names LGT_DESC_BASE and no rule places the array (log 93). -/
opaque descBase : Nat

/-- Answers to MCTP control messages and IPv6 neighbour discovery, from the addresses held and the message: R501 and R503
cite the standards and do not publish them (log 69). -/
opaque mctpAnswer : Nat → Bytes → Bytes
opaque ndAnswer : Bytes → Bytes → Bytes

end Sys2Proof.Config
end

