-- ==== Sys2Proof/Machine/RegMap.lean ====
section
/-! DEFINITION. The register map of BAR0: the offset, width, reset domain and fields of every register of the spec's
register tables (R22 to R24, R125, R153, R180, R202, R235, R263, R282, R306, R341, R373, R374, R397, R419, R454,
R455, R482, R507, R524). A register family is one row with a stride and a count.

`view` marks a register whose RO fields mirror state held elsewhere in `State`: its reading is the stored word with
the mirrored fields laid over it, and its stored reset value is then 0 in those fields. -/

namespace Sys2Proof.Machine

/-- Access codes (R22). -/
inductive Acc where
  | ro | rw | rw1c | rw1s | wo | rc
deriving DecidableEq, Repr

/-- Reset domains (R24). -/
inductive Dom where
  | pwr | dev | cp | fn
deriving DecidableEq, Repr

/-- A field: bits, access, reset value and the legal range of a written value (R22, R23). -/
structure FieldDef where
  hi : Nat
  lo : Nat
  acc : Acc
  rst : Nat
  min : Nat
  max : Nat
deriving DecidableEq, Repr

/-- A register or a family of registers. -/
structure RegDef where
  base : Nat
  width : Nat
  stride : Nat
  count : Nat
  stride2 : Nat
  count2 : Nat
  dom : Dom
  view : Bool
  fields : List FieldDef
deriving DecidableEq, Repr

/-- DEV_ID (R507), 32 bits, DEV: PART 31:16 RO, STEPPING 15:8 RO, GRADE 1:0 RO. -/
abbrev DEV_ID : Nat := 0x0

/-- DEV_STATUS (R507), 32 bits, DEV: DEVICE_ID 27:16 RO, PHASE 15:12 RO, PERSONALITY 9:8 RO, BELOW_MIN 4:4 RO, CP_RESTARTING 3:3 RO, FATAL 2:2 RO, RESTRICTED 1:1 RO, READY 0:0 RO. -/
abbrev DEV_STATUS : Nat := 0x4

/-- DEV_RESET (R507), 32 bits, DEV: KEY 31:16 WO, DEVICE 1:1 WO, CP_RESTART 0:0 WO. -/
abbrev DEV_RESET : Nat := 0x8

/-- DEV_IRQ_STATUS (R507), 32 bits, DEV: EVENTS 9:0 RW1C. -/
abbrev DEV_IRQ_STATUS : Nat := 0x10

/-- DEV_IRQ_ENABLE (R507), 32 bits, FN: EVENTS 9:0 RW. -/
abbrev DEV_IRQ_ENABLE : Nat := 0x14

/-- DEV_IRQ_VECTOR (R507), 32 bits, FN: VECTOR 10:0 RW. -/
abbrev DEV_IRQ_VECTOR : Nat := 0x18

/-- DEV_SCRATCH (R507), 32 bits, FN: DATA 31:0 RW. -/
abbrev DEV_SCRATCH : Nat := 0x1c

/-- DEV_FN_STATUS (R507), 32 bits, DEV: VF_ENABLE 8:8 RO, NUM_VFS 4:0 RO. -/
abbrev DEV_FN_STATUS : Nat := 0x20

/-- DEV_LINK_STATUS (R507), 32 bits, DEV: UP 15:15 RO, FLIT 12:12 RO, WIDTH 9:4 RO, SPEED 3:0 RO. -/
abbrev DEV_LINK_STATUS : Nat := 0x24

/-- DEV_BAR4_CTRL (R507), 32 bits, FN: BASE 31:12 RW, WRITE 1:1 RW, ENABLE 0:0 RW. -/
abbrev DEV_BAR4_CTRL : Nat := 0x28

/-- DEV_ACC_ERR_CNT (R507), 64 bits, DEV: COUNT 63:0 RO. -/
abbrev DEV_ACC_ERR_CNT : Nat := 0x40

/-- DEV_BAR4_DISCARD_CNT (R507), 64 bits, DEV: COUNT 63:0 RO. -/
abbrev DEV_BAR4_DISCARD_CNT : Nat := 0x48

/-- DEV_FLR_CNT (R507), 64 bits, DEV: COUNT 63:0 RO. -/
abbrev DEV_FLR_CNT : Nat := 0x50

/-- DEV_LINK_DOWN_CNT (R507), 64 bits, DEV: COUNT 63:0 RO. -/
abbrev DEV_LINK_DOWN_CNT : Nat := 0x58

/-- DEV_MSIX_SENT_CNT (R507), 64 bits, DEV: COUNT 63:0 RO. -/
abbrev DEV_MSIX_SENT_CNT : Nat := 0x60

/-- MGT_MBOX_CTRL (R507), 32 bits, FN: GO 0:0 RW1S. -/
abbrev MGT_MBOX_CTRL : Nat := 0xe00000

/-- MGT_MBOX_STATUS (R507), 32 bits, FN: STATUS 31:16 RO, BUSY 0:0 RO. -/
abbrev MGT_MBOX_STATUS : Nat := 0xe00004

/-- MGT_MBOX_CMD (R507), 32 bits, FN: DATA 31:0 WO. -/
abbrev MGT_MBOX_CMD (n : Nat) : Nat := 0xe01000 + 0x4 * n

/-- MGT_MBOX_RSP (R507), 32 bits, FN: DATA 31:0 RO. -/
abbrev MGT_MBOX_RSP (n : Nat) : Nat := 0xe04000 + 0x4 * n

/-- CMD_STATUS (R341), 32 bits, DEV: CQ_STALL 2:2 RO, SQ_DB 1:1 RO, SQ_ERR 0:0 RO. -/
abbrev CMD_STATUS : Nat := 0x100000

/-- CMD_COMPAT (R341), 32 bits, DEV: TRANSCODE 0:0 RW. -/
abbrev CMD_COMPAT : Nat := 0x100004

/-- CMD_VERSION (R341), 32 bits, DEV: RANGE 31:0 RO. -/
abbrev CMD_VERSION : Nat := 0x100008

/-- CMD_CQ_STALL_TMO (R341), 32 bits, DEV: MS 13:0 RW. -/
abbrev CMD_CQ_STALL_TMO : Nat := 0x10000c

/-- CMD_RX_CNT (R341), 64 bits, DEV: COUNT 63:0 RO. -/
abbrev CMD_RX_CNT : Nat := 0x100100

/-- CMD_HCRC_ERR_CNT (R341), 64 bits, DEV: COUNT 63:0 RO. -/
abbrev CMD_HCRC_ERR_CNT : Nat := 0x100108

/-- CMD_PCRC_ERR_CNT (R341), 64 bits, DEV: COUNT 63:0 RO. -/
abbrev CMD_PCRC_ERR_CNT : Nat := 0x100110

/-- CMD_REJECT_CNT (R341), 64 bits, DEV: COUNT 63:0 RO. -/
abbrev CMD_REJECT_CNT : Nat := 0x100118

/-- CMD_DISCARD_CNT (R341), 64 bits, DEV: COUNT 63:0 RO. -/
abbrev CMD_DISCARD_CNT : Nat := 0x100120

/-- CMD_DB_OVR_CNT (R341), 64 bits, DEV: COUNT 63:0 RO. -/
abbrev CMD_DB_OVR_CNT : Nat := 0x100128

/-- CMD_DB_PAR_CNT (R341), 64 bits, DEV: COUNT 63:0 RO. -/
abbrev CMD_DB_PAR_CNT : Nat := 0x100130

/-- CMD_XCODE_OUT_CNT (R341), 64 bits, DEV: COUNT 63:0 RO. -/
abbrev CMD_XCODE_OUT_CNT : Nat := 0x100138

/-- CMD_XCODE_IN_CNT (R341), 64 bits, DEV: COUNT 63:0 RO. -/
abbrev CMD_XCODE_IN_CNT : Nat := 0x100140

/-- CMD_BAD_STATUS_CNT (R341), 64 bits, DEV: COUNT 63:0 RO. -/
abbrev CMD_BAD_STATUS_CNT : Nat := 0x100148

/-- CMD_SQ_BASE (R341), 64 bits, FN: BASE 63:12 RW. -/
abbrev CMD_SQ_BASE (n : Nat) : Nat := 0x110000 + 0x40 * n

/-- CMD_SQ_CTRL (R341), 32 bits, FN: ENABLE 31:31 RW, SIZE 27:24 RW, CQ 21:12 RW, PD 11:0 RW. -/
abbrev CMD_SQ_CTRL (n : Nat) : Nat := 0x110008 + 0x40 * n

/-- CMD_SQ_COMP (R341), 32 bits, FN: COMP 11:0 RW. -/
abbrev CMD_SQ_COMP (n : Nat) : Nat := 0x11000c + 0x40 * n

/-- CMD_SQ_STATUS (R341), 32 bits, FN: HEAD 31:16 RO, DB_DEPTH 10:5 RO, DB_ERR 4:4 RW1C, DB_PAR 3:3 RW1C, DB_OVR 2:2 RW1C, STATE 1:0 RO. -/
abbrev CMD_SQ_STATUS (n : Nat) : Nat := 0x110010 + 0x40 * n

/-- CMD_SQ_TAIL (R341), 32 bits, FN: TAIL 15:0 RO. -/
abbrev CMD_SQ_TAIL (n : Nat) : Nat := 0x110014 + 0x40 * n

/-- CMD_SQ_ERRINFO (R341), 32 bits, FN: SLOT 31:16 RO, STATUS 15:0 RO. -/
abbrev CMD_SQ_ERRINFO (n : Nat) : Nat := 0x110018 + 0x40 * n

/-- CMD_CQ_BASE (R341), 64 bits, FN: BASE 63:12 RW. -/
abbrev CMD_CQ_BASE (n : Nat) : Nat := 0x120000 + 0x40 * n

/-- CMD_CQ_TAILWB (R341), 64 bits, FN: ADDR 63:3 RW. -/
abbrev CMD_CQ_TAILWB (n : Nat) : Nat := 0x120008 + 0x40 * n

/-- CMD_CQ_CTRL (R341), 32 bits, FN: ENABLE 31:31 RW, IRQ_EN 30:30 RW, SIZE 27:24 RW, VECTOR 21:11 RW, COAL_CNT 7:0 RW. -/
abbrev CMD_CQ_CTRL (n : Nat) : Nat := 0x120010 + 0x40 * n

/-- CMD_CQ_COAL (R341), 32 bits, FN: US 15:0 RW. -/
abbrev CMD_CQ_COAL (n : Nat) : Nat := 0x120014 + 0x40 * n

/-- CMD_CQ_STATUS (R341), 32 bits, FN: TAIL 31:16 RO, DB_ERR 3:3 RW1C, STALLED 2:2 RO, STATE 1:0 RO. -/
abbrev CMD_CQ_STATUS (n : Nat) : Nat := 0x120018 + 0x40 * n

/-- CMD_CQ_HEAD (R341), 32 bits, FN: HEAD 15:0 RO. -/
abbrev CMD_CQ_HEAD (n : Nat) : Nat := 0x12001c + 0x40 * n

/-- MAN_STATUS (R235), 32 bits, DEV: STOPSETS_FREE 26:16 RO, BERTHS_FREE 14:0 RO. -/
abbrev MAN_STATUS : Nat := 0x200000

/-- MAN_HANDOFF_TMO (R235), 32 bits, DEV: MS 9:0 RW. -/
abbrev MAN_HANDOFF_TMO : Nat := 0x200008

/-- MAN_STATE_CNT (R235), 32 bits, DEV: COUNT 14:0 RO. -/
abbrev MAN_STATE_CNT (n : Nat) : Nat := 0x200010 + 0x4 * n

/-- MAN_BERTH_SEL (R235), 32 bits, DEV: BERTH 13:0 RW. -/
abbrev MAN_BERTH_SEL : Nat := 0x200040

/-- MAN_BERTH_IMG (R235), 32 bits, DEV: DATA 31:0 RO. -/
abbrev MAN_BERTH_IMG (n : Nat) : Nat := 0x200100 + 0x4 * n

/-- MAN_ADMIT_CNT (R235), 64 bits, DEV: COUNT 63:0 RO. -/
abbrev MAN_ADMIT_CNT : Nat := 0x200200

/-- MAN_HANDOFF_OUT_CNT (R235), 64 bits, DEV: COUNT 63:0 RO. -/
abbrev MAN_HANDOFF_OUT_CNT : Nat := 0x200208

/-- MAN_HANDOFF_IN_CNT (R235), 64 bits, DEV: COUNT 63:0 RO. -/
abbrev MAN_HANDOFF_IN_CNT : Nat := 0x200210

/-- MAN_HANDOFF_REFUSED_CNT (R235), 64 bits, DEV: COUNT 63:0 RO. -/
abbrev MAN_HANDOFF_REFUSED_CNT : Nat := 0x200218

/-- MAN_HANDOFF_TMO_CNT (R235), 64 bits, DEV: COUNT 63:0 RO. -/
abbrev MAN_HANDOFF_TMO_CNT : Nat := 0x200220

/-- MAN_VOID_CNT (R235), 64 bits, DEV: COUNT 63:0 RO. -/
abbrev MAN_VOID_CNT : Nat := 0x200228

/-- MAN_REBUILD_CNT (R235), 64 bits, DEV: COUNT 63:0 RO. -/
abbrev MAN_REBUILD_CNT : Nat := 0x200230

/-- MAN_FAILED_CNT (R235), 64 bits, DEV: COUNT 63:0 RO. -/
abbrev MAN_FAILED_CNT : Nat := 0x200238

/-- MAN_STALE_ID_CNT (R235), 64 bits, DEV: COUNT 63:0 RO. -/
abbrev MAN_STALE_ID_CNT : Nat := 0x200240

/-- MAN_TTFT_MISS_CNT (R235), 64 bits, DEV: COUNT 63:0 RO. -/
abbrev MAN_TTFT_MISS_CNT : Nat := 0x200248

/-- MAN_TBT_MISS_CNT (R235), 64 bits, DEV: COUNT 63:0 RO. -/
abbrev MAN_TBT_MISS_CNT : Nat := 0x200250

/-- MAN_PREEMPT_CNT (R235), 64 bits, DEV: COUNT 63:0 RO. -/
abbrev MAN_PREEMPT_CNT : Nat := 0x200258

/-- SEQ_STEP_STATUS (R153), 32 bits, DEV: PENDING_SLOT 11:10 RO, ACT_PENDING 9:9 RO, ACTIVE_VALID 8:8 RO, ACTIVE_SLOT 5:4 RO, RUNNING 0:0 RO. -/
abbrev SEQ_STEP_STATUS : Nat := 0x300000

/-- SEQ_STEP_SEQ (R153), 32 bits, DEV: SEQ 31:0 RO. -/
abbrev SEQ_STEP_SEQ : Nat := 0x300004

/-- SEQ_STEP_CYCLES (R153), 32 bits, DEV: CYCLES 31:0 RO. -/
abbrev SEQ_STEP_CYCLES : Nat := 0x300008

/-- SEQ_STEP_MAX (R153), 32 bits, DEV: CYCLES 31:0 RC. -/
abbrev SEQ_STEP_MAX : Nat := 0x30000c

/-- SEQ_STEPS_DONE (R153), 64 bits, DEV: COUNT 63:0 RO. -/
abbrev SEQ_STEPS_DONE : Nat := 0x300010

/-- SEQ_OVERRUN_CNT (R153), 64 bits, DEV: COUNT 63:0 RO. -/
abbrev SEQ_OVERRUN_CNT : Nat := 0x300018

/-- SEQ_WDOG_CNT (R153), 64 bits, DEV: COUNT 63:0 RO. -/
abbrev SEQ_WDOG_CNT : Nat := 0x300020

/-- SEQ_ABORT_FENCE_CNT (R153), 64 bits, DEV: COUNT 63:0 RO. -/
abbrev SEQ_ABORT_FENCE_CNT : Nat := 0x300028

/-- SEQ_SENT_SKIP_CNT (R153), 64 bits, DEV: COUNT 63:0 RO. -/
abbrev SEQ_SENT_SKIP_CNT : Nat := 0x300030

/-- SEQ_SENT_SUSPECT_CNT (R153), 64 bits, DEV: COUNT 63:0 RO. -/
abbrev SEQ_SENT_SUSPECT_CNT : Nat := 0x300038

/-- SEQ_TBL_STATUS (R153), 32 bits, DEV: FMT_MAJOR 23:16 RO, FMT_MINOR 15:8 RO, LAST_ERR 7:4 RO, STATE 1:0 RO. -/
abbrev SEQ_TBL_STATUS (n : Nat) : Nat := 0x300100 + 0x10 * n

/-- SEQ_TBL_SET_ID (R153), 32 bits, DEV: VALUE 31:0 RO. -/
abbrev SEQ_TBL_SET_ID (n : Nat) : Nat := 0x300104 + 0x10 * n

/-- SEQ_TBL_BYTES (R153), 32 bits, DEV: VALUE 31:0 RO. -/
abbrev SEQ_TBL_BYTES (n : Nat) : Nat := 0x300108 + 0x10 * n

/-- SEQ_STALL_EXPAND (R153), 64 bits, DEV: COUNT 63:0 RO. -/
abbrev SEQ_STALL_EXPAND (n : Nat) : Nat := 0x310000 + 0x40 * n

/-- SEQ_STALL_HBM (R153), 64 bits, DEV: COUNT 63:0 RO. -/
abbrev SEQ_STALL_HBM (n : Nat) : Nat := 0x310008 + 0x40 * n

/-- SEQ_STALL_LPX (R153), 64 bits, DEV: COUNT 63:0 RO. -/
abbrev SEQ_STALL_LPX (n : Nat) : Nat := 0x310010 + 0x40 * n

/-- SEQ_STALL_FABRIC (R153), 64 bits, DEV: COUNT 63:0 RO. -/
abbrev SEQ_STALL_FABRIC (n : Nat) : Nat := 0x310018 + 0x40 * n

/-- SEQ_STALL_HOST (R153), 64 bits, DEV: COUNT 63:0 RO. -/
abbrev SEQ_STALL_HOST (n : Nat) : Nat := 0x310020 + 0x40 * n

/-- SEQ_CLU_WDOG_CNT (R153), 64 bits, DEV: COUNT 63:0 RO. -/
abbrev SEQ_CLU_WDOG_CNT (n : Nat) : Nat := 0x310028 + 0x40 * n

/-- SEQ_STALL_LAST (R153), 32 bits, DEV: ENTRY 31:16 RO, CAUSE 2:0 RO. -/
abbrev SEQ_STALL_LAST (n : Nat) : Nat := 0x310030 + 0x40 * n

/-- SEQ_CORE_STATUS (R125), 32 bits, DEV: ID_VALID 20:20 RO, LOGICAL_ID 19:10 RO, FENCE_CAUSE 7:4 RO, COVER_TEST 3:3 RO, STATE 2:0 RO. -/
abbrev SEQ_CORE_STATUS (n : Nat) : Nat := 0x380000 + 0x100 * n

/-- SEQ_CORE_TEST (R125), 32 bits, DEV: DEFER_STEPS 23:16 RO, TESTS_RUN 15:8 RO, LAST_RESULT 7:4 RO, TEST_STATE 3:0 RO. -/
abbrev SEQ_CORE_TEST (n : Nat) : Nat := 0x380004 + 0x100 * n

/-- SEQ_CORE_NAN_CNT (R125), 64 bits, DEV: COUNT 63:0 RO. -/
abbrev SEQ_CORE_NAN_CNT (n : Nat) : Nat := 0x380008 + 0x100 * n

/-- SEQ_CORE_BUSY (R125), 64 bits, DEV: COUNT 63:0 RO. -/
abbrev SEQ_CORE_BUSY (n : Nat) : Nat := 0x380010 + 0x100 * n

/-- SEQ_CORE_FEEDWAIT (R125), 64 bits, DEV: COUNT 63:0 RO. -/
abbrev SEQ_CORE_FEEDWAIT (n : Nat) : Nat := 0x380018 + 0x100 * n

/-- SEQ_CORE_CE_CNT (R125), 64 bits, DEV: COUNT 63:0 RO. -/
abbrev SEQ_CORE_CE_CNT (n : Nat) : Nat := 0x380020 + 0x100 * n

/-- SEQ_CORE_SAT_CNT (R125), 64 bits, DEV: COUNT 63:0 RO. -/
abbrev SEQ_CORE_SAT_CNT (n : Nat) (i : Nat) : Nat := 0x380040 + 0x100 * n + 0x8 * i

/-- SEQ_CLU_STATUS (R125), 32 bits, DEV: LC_VALID 23:23 RO, LOGICAL_CLUSTER 22:16 RO, SPARE_SLOT 15:12 RO, TEST_SLOT 11:8 RO, CORES 7:4 RO, SEVEN_CORE 0:0 RO. -/
abbrev SEQ_CLU_STATUS (n : Nat) : Nat := 0x3d0000 + 0x40 * n

/-- SEQ_CLU_DUE (R125), 32 bits, DEV: DUE 8:0 RO. -/
abbrev SEQ_CLU_DUE (n : Nat) : Nat := 0x3d0004 + 0x40 * n

/-- SEQ_CLU_DIRECT_CNT (R125), 64 bits, DEV: COUNT 63:0 RO. -/
abbrev SEQ_CLU_DIRECT_CNT (n : Nat) : Nat := 0x3d0008 + 0x40 * n

/-- SEQ_CLU_DIRECT_BYTES (R125), 64 bits, DEV: COUNT 63:0 RO. -/
abbrev SEQ_CLU_DIRECT_BYTES (n : Nat) : Nat := 0x3d0010 + 0x40 * n

/-- MEM_STATUS (R180), 32 bits, DEV: HBM_UP 19:8 RO, HOSTWIN_ERR 4:4 RW1C, AREA_DEFAULTED 3:3 RO, LPX_LICENSED 2:2 RO, LPX_SOUTH_UP 1:1 RO, LPX_NORTH_UP 0:0 RO. -/
abbrev MEM_STATUS : Nat := 0x400000

/-- MEM_AREA_HBM (R180), 32 bits, DEV: STAKE_GIB 15:8 RO, WITHY_GIB 7:0 RO. -/
abbrev MEM_AREA_HBM : Nat := 0x400004

/-- MEM_AREA_LPX (R180), 32 bits, DEV: WITHY_GIB 17:9 RO, STAKE_GIB 8:0 RO. -/
abbrev MEM_AREA_LPX : Nat := 0x400008

/-- MEM_HBM_STATUS (R180), 32 bits, DEV: REMAP_LEFT 28:16 RO, STATE 1:0 RO. -/
abbrev MEM_HBM_STATUS (n : Nat) : Nat := 0x400100 + 0x20 * n

/-- MEM_HBM_CE_CNT (R180), 64 bits, DEV: COUNT 63:0 RO. -/
abbrev MEM_HBM_CE_CNT (n : Nat) : Nat := 0x400108 + 0x20 * n

/-- MEM_HBM_UE_CNT (R180), 64 bits, DEV: COUNT 63:0 RO. -/
abbrev MEM_HBM_UE_CNT (n : Nat) : Nat := 0x400110 + 0x20 * n

/-- MEM_HBM_RETIRED (R180), 32 bits, DEV: COUNT 31:0 RO. -/
abbrev MEM_HBM_RETIRED (n : Nat) : Nat := 0x400118 + 0x20 * n

/-- MEM_LPX_STATUS (R180), 32 bits, DEV: STATE 1:0 RO. -/
abbrev MEM_LPX_STATUS (n : Nat) : Nat := 0x400300 + 0x20 * n

/-- MEM_LPX_CE_CNT (R180), 64 bits, DEV: COUNT 63:0 RO. -/
abbrev MEM_LPX_CE_CNT (n : Nat) : Nat := 0x400308 + 0x20 * n

/-- MEM_LPX_UE_CNT (R180), 64 bits, DEV: COUNT 63:0 RO. -/
abbrev MEM_LPX_UE_CNT (n : Nat) : Nat := 0x400310 + 0x20 * n

/-- MEM_HOSTWIN_CTRL (R180), 32 bits, FN: IN_USE 3:3 RO, USE 2:1 RW, ENABLE 0:0 RW. -/
abbrev MEM_HOSTWIN_CTRL (n : Nat) : Nat := 0x400600 + 0x20 * n

/-- MEM_HOSTWIN_BASE (R180), 64 bits, FN: ADDR 63:0 RW. -/
abbrev MEM_HOSTWIN_BASE (n : Nat) : Nat := 0x400608 + 0x20 * n

/-- MEM_HOSTWIN_LEN (R180), 64 bits, FN: BYTES 63:0 RW. -/
abbrev MEM_HOSTWIN_LEN (n : Nat) : Nat := 0x400610 + 0x20 * n

/-- MEM_HOSTWIN_USED (R180), 64 bits, FN: VALUE 63:0 RO. -/
abbrev MEM_HOSTWIN_USED (n : Nat) : Nat := 0x400618 + 0x20 * n

/-- MEM_STAGE_HBM_BYTES (R180), 64 bits, DEV: COUNT 63:0 RO. -/
abbrev MEM_STAGE_HBM_BYTES : Nat := 0x400800

/-- MEM_STAGE_LPX_BYTES (R180), 64 bits, DEV: COUNT 63:0 RO. -/
abbrev MEM_STAGE_LPX_BYTES : Nat := 0x400808

/-- MEM_SLICE_CE_CNT (R180), 64 bits, DEV: COUNT 63:0 RO. -/
abbrev MEM_SLICE_CE_CNT : Nat := 0x400810

/-- MEM_RETIRE_LAST (R180), 64 bits, DEV: DPA 47:0 RO. -/
abbrev MEM_RETIRE_LAST : Nat := 0x400818

/-- MEM_FREE_PAGE_HBM (R180), 32 bits, DEV: VALUE 31:0 RO. -/
abbrev MEM_FREE_PAGE_HBM : Nat := 0x400820

/-- MEM_FREE_PAGE_LPX (R180), 32 bits, DEV: VALUE 31:0 RO. -/
abbrev MEM_FREE_PAGE_LPX : Nat := 0x400824

/-- MEM_FREE_EXT_HBM (R180), 32 bits, DEV: VALUE 31:0 RO. -/
abbrev MEM_FREE_EXT_HBM : Nat := 0x400828

/-- MEM_FREE_EXT_LPX (R180), 32 bits, DEV: VALUE 31:0 RO. -/
abbrev MEM_FREE_EXT_LPX : Nat := 0x40082c

/-- LGT_STATUS (R263), 32 bits, DEV: VALUE 31:0 RO. -/
abbrev LGT_STATUS : Nat := 0x500000

/-- LGT_BACKUP (R263), 32 bits, DEV: VALUE 31:0 RO. -/
abbrev LGT_BACKUP : Nat := 0x500004

/-- LGT_PAGE_GEN (R263), 32 bits, PWR: GEN 7:0 RO. -/
abbrev LGT_PAGE_GEN : Nat := 0x500008

/-- LGT_MOVE_TMO (R263), 32 bits, DEV: US 16:0 RW. -/
abbrev LGT_MOVE_TMO : Nat := 0x50000c

/-- LGT_RETRY (R263), 32 bits, DEV: US 13:0 RW. -/
abbrev LGT_RETRY : Nat := 0x500010

/-- LGT_DEMOTE (R263), 32 bits, DEV: HIGH_PCT 15:8 RW, LOW_PCT 7:0 RW. -/
abbrev LGT_DEMOTE : Nat := 0x500014

/-- LGT_DESC_BASE (R263), 64 bits, DEV: DPA 47:0 RO. -/
abbrev LGT_DESC_BASE : Nat := 0x500018

/-- LGT_PAGE_SERIAL (R263), 64 bits, DEV: SERIAL 43:0 RO. -/
abbrev LGT_PAGE_SERIAL : Nat := 0x500020

/-- LGT_SEALED_CNT (R263), 64 bits, DEV: COUNT 63:0 RO. -/
abbrev LGT_SEALED_CNT : Nat := 0x500100

/-- LGT_ROLLBACK_CNT (R263), 64 bits, DEV: COUNT 63:0 RO. -/
abbrev LGT_ROLLBACK_CNT : Nat := 0x500108

/-- LGT_PUT_OUT_CNT (R263), 64 bits, DEV: COUNT 63:0 RO. -/
abbrev LGT_PUT_OUT_CNT : Nat := 0x500110

/-- LGT_PUT_IN_CNT (R263), 64 bits, DEV: COUNT 63:0 RO. -/
abbrev LGT_PUT_IN_CNT : Nat := 0x500118

/-- LGT_CRC_FAIL_CNT (R263), 64 bits, DEV: COUNT 63:0 RO. -/
abbrev LGT_CRC_FAIL_CNT : Nat := 0x500120

/-- LGT_REFUSED_CNT (R263), 64 bits, DEV: COUNT 63:0 RO. -/
abbrev LGT_REFUSED_CNT : Nat := 0x500128

/-- LGT_LOST_CNT (R263), 64 bits, DEV: COUNT 63:0 RO. -/
abbrev LGT_LOST_CNT : Nat := 0x500130

/-- LGT_DROP_CNT (R263), 64 bits, DEV: COUNT 63:0 RO. -/
abbrev LGT_DROP_CNT : Nat := 0x500138

/-- LGT_DEMOTED_CNT (R263), 64 bits, DEV: COUNT 63:0 RO. -/
abbrev LGT_DEMOTED_CNT : Nat := 0x500140

/-- LGT_MIRROR_CNT (R263), 64 bits, DEV: COUNT 63:0 RO. -/
abbrev LGT_MIRROR_CNT : Nat := 0x500148

/-- LGT_SWAPOUT_CNT (R263), 64 bits, DEV: COUNT 63:0 RO. -/
abbrev LGT_SWAPOUT_CNT : Nat := 0x500150

/-- LGT_SWAPIN_CNT (R263), 64 bits, DEV: COUNT 63:0 RO. -/
abbrev LGT_SWAPIN_CNT : Nat := 0x500158

/-- LGT_SWAP_BYTES (R263), 64 bits, DEV: COUNT 63:0 RO. -/
abbrev LGT_SWAP_BYTES : Nat := 0x500160

/-- LGT_REG_STATUS (R263), 32 bits, DEV: QUEUE 17:8 RO, BACKUP 1:1 RO, FENCED 0:0 RO. -/
abbrev LGT_REG_STATUS (n : Nat) : Nat := 0x510000 + 0x40 * n

/-- LGT_REG_BYTES_OUT (R263), 64 bits, DEV: COUNT 63:0 RO. -/
abbrev LGT_REG_BYTES_OUT (n : Nat) : Nat := 0x510008 + 0x40 * n

/-- LGT_REG_BYTES_IN (R263), 64 bits, DEV: COUNT 63:0 RO. -/
abbrev LGT_REG_BYTES_IN (n : Nat) : Nat := 0x510010 + 0x40 * n

/-- LGT_REG_PAGES_OUT (R263), 64 bits, DEV: COUNT 63:0 RO. -/
abbrev LGT_REG_PAGES_OUT (n : Nat) : Nat := 0x510018 + 0x40 * n

/-- EXP_STATUS (R202), 32 bits, DEV: LAST_CAUSE 9:8 RO, LAST_SUBSTREAM 7:3 RO, BUSY 0:0 RO. -/
abbrev EXP_STATUS (n : Nat) : Nat := 0x580000 + 0x40 * n

/-- EXP_CODED_SYMS (R202), 64 bits, DEV: COUNT 63:0 RO. -/
abbrev EXP_CODED_SYMS (n : Nat) : Nat := 0x580008 + 0x40 * n

/-- EXP_RAW_SYMS (R202), 64 bits, DEV: COUNT 63:0 RO. -/
abbrev EXP_RAW_SYMS (n : Nat) : Nat := 0x580010 + 0x40 * n

/-- EXP_MISMATCH_CNT (R202), 64 bits, DEV: COUNT 63:0 RO. -/
abbrev EXP_MISMATCH_CNT (n : Nat) : Nat := 0x580018 + 0x40 * n

/-- EXP_LAST_DPA (R202), 64 bits, DEV: COUNT 63:0 RO. -/
abbrev EXP_LAST_DPA (n : Nat) : Nat := 0x580020 + 0x40 * n

/-- EXP_BUSY_CYCLES (R202), 64 bits, DEV: COUNT 63:0 RO. -/
abbrev EXP_BUSY_CYCLES (n : Nat) : Nat := 0x580028 + 0x40 * n

/-- CMP_STATUS (R202), 32 bits, DEV: FENCED 1:1 RO, BUSY 0:0 RO. -/
abbrev CMP_STATUS (n : Nat) : Nat := 0x5c0000 + 0x40 * n

/-- CMP_IN_SYMS (R202), 64 bits, DEV: COUNT 63:0 RO. -/
abbrev CMP_IN_SYMS (n : Nat) : Nat := 0x5c0008 + 0x40 * n

/-- CMP_OUT_BYTES (R202), 64 bits, DEV: COUNT 63:0 RO. -/
abbrev CMP_OUT_BYTES (n : Nat) : Nat := 0x5c0010 + 0x40 * n

/-- CMP_RAW_BLOCKS (R202), 64 bits, DEV: COUNT 63:0 RO. -/
abbrev CMP_RAW_BLOCKS (n : Nat) : Nat := 0x5c0018 + 0x40 * n

/-- CMP_RAW_OBJECTS (R202), 64 bits, DEV: COUNT 63:0 RO. -/
abbrev CMP_RAW_OBJECTS (n : Nat) : Nat := 0x5c0020 + 0x40 * n

/-- CMP_FENCED_RAW (R202), 64 bits, DEV: COUNT 63:0 RO. -/
abbrev CMP_FENCED_RAW (n : Nat) : Nat := 0x5c0028 + 0x40 * n

/-- FAB_STATUS (R373), 32 bits, DEV: BELOW_MIN 12:12 RO, PORTS_MIN 11:8 RO, PORTS_UP 7:0 RO. -/
abbrev FAB_STATUS : Nat := 0x600000

/-- FAB_CTRL (R373), 32 bits, DEV: SPRAY 4:0 RW. -/
abbrev FAB_CTRL : Nat := 0x600004

/-- FAB_TMO (R373), 32 bits, DEV: RETRIES 28:26 RW, TCS_US 25:16 RW, TCL_US 9:0 RW. -/
abbrev FAB_TMO : Nat := 0x600008

/-- FAB_ASM_TMO (R373), 32 bits, DEV: US 13:0 RW. -/
abbrev FAB_ASM_TMO : Nat := 0x60000c

/-- FAB_GATE_0 (R373), 32 bits, DEV: EN 31:31 RW, LEN 24:16 RW, START 8:0 RW. -/
abbrev FAB_GATE_0 : Nat := 0x600010

/-- FAB_GATE (R373), 32 bits, DEV: EN 31:31 RW, LEN 24:16 RW, START 8:0 RW. -/
abbrev FAB_GATE (n : Nat) : Nat := 0x600014 + 0x4 * n

/-- FAB_PORT_STATUS (R373), 32 bits, DEV: ATTEMPTS 31:28 RO, LANES_UP 27:24 RO, LANES_DIS 23:20 RO, PLANE 19:16 RO, LINK_VER 15:8 RO, WIDTH 5:4 RO, STATE 3:0 RO. -/
abbrev FAB_PORT_STATUS (n : Nat) : Nat := 0x601000 + 0x100 * n

/-- FAB_PORT_CTRL (R373), 32 bits, DEV: RETRAIN 0:0 WO. -/
abbrev FAB_PORT_CTRL (n : Nat) : Nat := 0x601004 + 0x100 * n

/-- FAB_PORT_DELAY (R373), 32 bits, DEV: TICKS 31:0 RO. -/
abbrev FAB_PORT_DELAY (n : Nat) : Nat := 0x601008 + 0x100 * n

/-- FAB_PORT_TX_FRAMES (R373), 64 bits, DEV: COUNT 63:0 RO. -/
abbrev FAB_PORT_TX_FRAMES (n : Nat) : Nat := 0x601010 + 0x100 * n

/-- FAB_PORT_RX_FRAMES (R373), 64 bits, DEV: COUNT 63:0 RO. -/
abbrev FAB_PORT_RX_FRAMES (n : Nat) : Nat := 0x601018 + 0x100 * n

/-- FAB_PORT_FEC_CORR (R373), 64 bits, DEV: COUNT 63:0 RO. -/
abbrev FAB_PORT_FEC_CORR (n : Nat) : Nat := 0x601020 + 0x100 * n

/-- FAB_PORT_FEC_UNCORR (R373), 64 bits, DEV: COUNT 63:0 RO. -/
abbrev FAB_PORT_FEC_UNCORR (n : Nat) : Nat := 0x601028 + 0x100 * n

/-- FAB_PORT_BAD_FRAME (R373), 64 bits, DEV: COUNT 63:0 RO. -/
abbrev FAB_PORT_BAD_FRAME (n : Nat) : Nat := 0x601030 + 0x100 * n

/-- FAB_PORT_PAUSE_RX (R373), 64 bits, DEV: COUNT 63:0 RO. -/
abbrev FAB_PORT_PAUSE_RX (n : Nat) : Nat := 0x601038 + 0x100 * n

/-- FAB_PORT_CREDIT_WAIT (R373), 64 bits, DEV: COUNT 63:0 RO. -/
abbrev FAB_PORT_CREDIT_WAIT (n : Nat) : Nat := 0x601040 + 0x100 * n

/-- FAB_PORT_KA_MISS (R373), 64 bits, DEV: COUNT 63:0 RO. -/
abbrev FAB_PORT_KA_MISS (n : Nat) : Nat := 0x601048 + 0x100 * n

/-- FAB_PORT_RETRAIN (R373), 64 bits, DEV: COUNT 63:0 RO. -/
abbrev FAB_PORT_RETRAIN (n : Nat) : Nat := 0x601050 + 0x100 * n

/-- FAB_PORT_TCS_DROP (R373), 64 bits, DEV: COUNT 63:0 RO. -/
abbrev FAB_PORT_TCS_DROP (n : Nat) : Nat := 0x601058 + 0x100 * n

/-- FAB_LANE_STATUS (R373), 32 bits, DEV: RETRAINS_WIN 15:8 RO, STATE 1:0 RO. -/
abbrev FAB_LANE_STATUS (n : Nat) : Nat := 0x602000 + 0x20 * n

/-- FAB_LANE_SYM_CORR (R373), 64 bits, DEV: COUNT 63:0 RO. -/
abbrev FAB_LANE_SYM_CORR (n : Nat) : Nat := 0x602008 + 0x20 * n

/-- FAB_LANE_RETRAIN_CNT (R373), 64 bits, DEV: COUNT 63:0 RO. -/
abbrev FAB_LANE_RETRAIN_CNT (n : Nat) : Nat := 0x602010 + 0x20 * n

/-- FAB_TCL_TX (R373), 64 bits, DEV: COUNT 63:0 RO. -/
abbrev FAB_TCL_TX : Nat := 0x603000

/-- FAB_TCL_RETX (R373), 64 bits, DEV: COUNT 63:0 RO. -/
abbrev FAB_TCL_RETX : Nat := 0x603008

/-- FAB_TCL_NAK_TX (R373), 64 bits, DEV: COUNT 63:0 RO. -/
abbrev FAB_TCL_NAK_TX : Nat := 0x603010

/-- FAB_TCL_NAK_RX (R373), 64 bits, DEV: COUNT 63:0 RO. -/
abbrev FAB_TCL_NAK_RX : Nat := 0x603018

/-- FAB_TCS_TX (R373), 64 bits, DEV: COUNT 63:0 RO. -/
abbrev FAB_TCS_TX : Nat := 0x603020

/-- FAB_TCS_RETX (R373), 64 bits, DEV: COUNT 63:0 RO. -/
abbrev FAB_TCS_RETX : Nat := 0x603028

/-- FAB_TCS_DUP (R373), 64 bits, DEV: COUNT 63:0 RO. -/
abbrev FAB_TCS_DUP : Nat := 0x603030

/-- FAB_LATE_DISCARD (R373), 64 bits, DEV: COUNT 63:0 RO. -/
abbrev FAB_LATE_DISCARD : Nat := 0x603038

/-- FAB_ASM_TMO_CNT (R373), 64 bits, DEV: COUNT 63:0 RO. -/
abbrev FAB_ASM_TMO_CNT : Nat := 0x603040

/-- FAB_NO_QP (R373), 64 bits, DEV: COUNT 63:0 RO. -/
abbrev FAB_NO_QP : Nat := 0x603048

/-- FAB_RETRY_EXHAUST (R373), 64 bits, DEV: COUNT 63:0 RO. -/
abbrev FAB_RETRY_EXHAUST : Nat := 0x603050

/-- QPC_STATUS (R374), 32 bits, DEV: PINNED 28:16 RO, RESIDENT 14:0 RO. -/
abbrev QPC_STATUS : Nat := 0x700000

/-- QPC_MOOR_N (R374), 32 bits, DEV: USED_KIB 25:16 RO, CAP_KIB 9:0 RO. -/
abbrev QPC_MOOR_N : Nat := 0x700004

/-- QPC_MOOR_S (R374), 32 bits, DEV: USED_KIB 25:16 RO, CAP_KIB 9:0 RO. -/
abbrev QPC_MOOR_S : Nat := 0x700008

/-- QPC_HOLD_TMO (R374), 32 bits, DEV: US 7:0 RW. -/
abbrev QPC_HOLD_TMO : Nat := 0x70000c

/-- QPC_SEL (R374), 32 bits, DEV: QP 19:0 RW. -/
abbrev QPC_SEL : Nat := 0x700010

/-- QPC_FETCH_MAX (R374), 32 bits, DEV: TICKS 31:0 RC. -/
abbrev QPC_FETCH_MAX : Nat := 0x700014

/-- QPC_CTX (R374), 32 bits, DEV: DATA 31:0 RO. -/
abbrev QPC_CTX (n : Nat) : Nat := 0x700100 + 0x4 * n

/-- QPC_EVICT_CNT (R374), 64 bits, DEV: COUNT 63:0 RO. -/
abbrev QPC_EVICT_CNT : Nat := 0x700200

/-- QPC_EVICT_ABORT_CNT (R374), 64 bits, DEV: COUNT 63:0 RO. -/
abbrev QPC_EVICT_ABORT_CNT : Nat := 0x700208

/-- QPC_FETCH_CNT (R374), 64 bits, DEV: COUNT 63:0 RO. -/
abbrev QPC_FETCH_CNT : Nat := 0x700210

/-- QPC_FETCH_FAIL_CNT (R374), 64 bits, DEV: COUNT 63:0 RO. -/
abbrev QPC_FETCH_FAIL_CNT : Nat := 0x700218

/-- QPC_PARK_CNT (R374), 64 bits, DEV: COUNT 63:0 RO. -/
abbrev QPC_PARK_CNT : Nat := 0x700220

/-- QPC_MOOR_FULL_CNT (R374), 64 bits, DEV: COUNT 63:0 RO. -/
abbrev QPC_MOOR_FULL_CNT : Nat := 0x700228

/-- QPC_HOLD_EXP_CNT (R374), 64 bits, DEV: COUNT 63:0 RO. -/
abbrev QPC_HOLD_EXP_CNT : Nat := 0x700230

/-- QPC_ERROR_CNT (R374), 64 bits, DEV: COUNT 63:0 RO. -/
abbrev QPC_ERROR_CNT : Nat := 0x700238

/-- MSA_STATUS (R397), 32 bits, DEV: POISONED 31:16 RO, GW_OWNED 0:0 RO. -/
abbrev MSA_STATUS : Nat := 0x800000

/-- MSA_TMO (R397), 32 bits, DEV: DEAD 6:0 RW. -/
abbrev MSA_TMO : Nat := 0x800004

/-- MSA_GW_TMO (R397), 32 bits, DEV: MS 9:0 RW. -/
abbrev MSA_GW_TMO : Nat := 0x800008

/-- MSA_GW_CAP (R397), 32 bits, DEV: SOUTH_KIB 25:16 RO, NORTH_KIB 9:0 RO. -/
abbrev MSA_GW_CAP : Nat := 0x80000c

/-- MSA_LINE_MAX (R397), 32 bits, DEV: DEPTH 8:0 RC. -/
abbrev MSA_LINE_MAX : Nat := 0x800010

/-- MSA_LAST_DEAD (R397), 32 bits, DEV: VALID 31:31 RO, DEVICE 11:0 RO. -/
abbrev MSA_LAST_DEAD : Nat := 0x800014

/-- MSA_SQ_QP (R397), 32 bits, FN: VALID 31:31 RW, QP 19:0 RW. -/
abbrev MSA_SQ_QP (n : Nat) : Nat := 0x810000 + 0x4 * n

/-- MSA_LOAD_CNT (R397), 64 bits, DEV: COUNT 63:0 RO. -/
abbrev MSA_LOAD_CNT : Nat := 0x800100

/-- MSA_STORE_CNT (R397), 64 bits, DEV: COUNT 63:0 RO. -/
abbrev MSA_STORE_CNT : Nat := 0x800108

/-- MSA_ABSORB_CNT (R397), 64 bits, DEV: COUNT 63:0 RO. -/
abbrev MSA_ABSORB_CNT : Nat := 0x800110

/-- MSA_ATOMIC_CNT (R397), 64 bits, DEV: COUNT 63:0 RO. -/
abbrev MSA_ATOMIC_CNT : Nat := 0x800118

/-- MSA_MULT_SUM (R397), 64 bits, DEV: COUNT 63:0 RO. -/
abbrev MSA_MULT_SUM : Nat := 0x800120

/-- MSA_ISSUED_CNT (R397), 64 bits, DEV: COUNT 63:0 RO. -/
abbrev MSA_ISSUED_CNT : Nat := 0x800128

/-- MSA_DEAD_CNT (R397), 64 bits, DEV: COUNT 63:0 RO. -/
abbrev MSA_DEAD_CNT : Nat := 0x800130

/-- MSA_LATE_CNT (R397), 64 bits, DEV: COUNT 63:0 RO. -/
abbrev MSA_LATE_CNT : Nat := 0x800138

/-- MSA_POISON_CNT (R397), 64 bits, DEV: COUNT 63:0 RO. -/
abbrev MSA_POISON_CNT : Nat := 0x800140

/-- MSA_STALE_CNT (R397), 64 bits, DEV: COUNT 63:0 RO. -/
abbrev MSA_STALE_CNT : Nat := 0x800148

/-- MSA_INGRESS_WAIT (R397), 64 bits, DEV: COUNT 63:0 RO. -/
abbrev MSA_INGRESS_WAIT : Nat := 0x800150

/-- MSA_GW_SENT_CNT (R397), 64 bits, DEV: COUNT 63:0 RO. -/
abbrev MSA_GW_SENT_CNT : Nat := 0x800158

/-- MSA_GW_SERVED_CNT (R397), 64 bits, DEV: COUNT 63:0 RO. -/
abbrev MSA_GW_SERVED_CNT : Nat := 0x800160

/-- MSA_GW_TMO_CNT (R397), 64 bits, DEV: COUNT 63:0 RO. -/
abbrev MSA_GW_TMO_CNT : Nat := 0x800168

/-- MSA_GW_NOROOM_CNT (R397), 64 bits, DEV: COUNT 63:0 RO. -/
abbrev MSA_GW_NOROOM_CNT : Nat := 0x800170

/-- MSA_GW_ENTRY_FAIL (R397), 64 bits, DEV: COUNT 63:0 RO. -/
abbrev MSA_GW_ENTRY_FAIL : Nat := 0x800178

/-- SCH_STATUS (R419), 32 bits, DEV: DRAIN_OPEN 31:31 RO, ENGINE_VALID 30:30 RO, ENGINE_COMP 27:16 RO, RUNS 4:0 RO. -/
abbrev SCH_STATUS : Nat := 0x900000

/-- SCH_EPOCH (R419), 32 bits, DEV: VALUE 31:0 RO. -/
abbrev SCH_EPOCH : Nat := 0x900004

/-- SCH_EPOCH_PREV (R419), 32 bits, DEV: VALUE 31:0 RO. -/
abbrev SCH_EPOCH_PREV : Nat := 0x900008

/-- SCH_DRAIN (R419), 32 bits, DEV: MS 9:0 RW. -/
abbrev SCH_DRAIN : Nat := 0x90000c

/-- SCH_DRAIN_LEFT (R419), 32 bits, DEV: VALUE 31:0 RO. -/
abbrev SCH_DRAIN_LEFT : Nat := 0x900010

/-- SCH_CTRL (R419), 32 bits, DEV: HIST_CLEAR 0:0 WO. -/
abbrev SCH_CTRL : Nat := 0x900014

/-- SCH_WHEEL (R419), 32 bits, DEV: ENTRIES 30:16 RO, CURSOR 11:0 RO. -/
abbrev SCH_WHEEL : Nat := 0x900018

/-- SCH_WEAVE (R419), 64 bits, DEV: PROGRAM_ID 63:48 RO, COMP 47:36 RO, BUCKET 35:33 RO, VALID 32:32 RO, LIVE_ROWS 31:19 RO, TOKEN_ROWS 18:8 RO, WITHIES 6:0 RO. -/
abbrev SCH_WEAVE : Nat := 0x900020

/-- SCH_SHAPE_SEL (R419), 32 bits, DEV: QP 19:0 RW. -/
abbrev SCH_SHAPE_SEL : Nat := 0x900040

/-- SCH_SHAPE_INFO (R419), 64 bits, DEV: RATE 63:32 RO, ENABLED 31:31 RO, ON_WHEEL 30:30 RO, BURST 23:0 RO. -/
abbrev SCH_SHAPE_INFO : Nat := 0x900048

/-- SCH_SHAPE_TOKENS (R419), 32 bits, DEV: COUNT 24:0 RO. -/
abbrev SCH_SHAPE_TOKENS : Nat := 0x900050

/-- SCH_WEAVES_CNT (R419), 64 bits, DEV: COUNT 63:0 RO. -/
abbrev SCH_WEAVES_CNT : Nat := 0x900100

/-- SCH_PAD_ROWS (R419), 64 bits, DEV: COUNT 63:0 RO. -/
abbrev SCH_PAD_ROWS : Nat := 0x900108

/-- SCH_DRAFT_CUT_CNT (R419), 64 bits, DEV: COUNT 63:0 RO. -/
abbrev SCH_DRAFT_CUT_CNT : Nat := 0x900110

/-- SCH_SKIP_TURNS_CNT (R419), 64 bits, DEV: COUNT 63:0 RO. -/
abbrev SCH_SKIP_TURNS_CNT : Nat := 0x900118

/-- SCH_IDLE_US (R419), 64 bits, DEV: COUNT 63:0 RO. -/
abbrev SCH_IDLE_US : Nat := 0x900120

/-- SCH_RESTAGE_CNT (R419), 64 bits, DEV: COUNT 63:0 RO. -/
abbrev SCH_RESTAGE_CNT : Nat := 0x900128

/-- SCH_EPOCH_CNT (R419), 64 bits, DEV: COUNT 63:0 RO. -/
abbrev SCH_EPOCH_CNT : Nat := 0x900130

/-- SCH_FENCE_CNT (R419), 64 bits, DEV: COUNT 63:0 RO. -/
abbrev SCH_FENCE_CNT : Nat := 0x900138

/-- SCH_HIST_DEPTH (R419), 32 bits, DEV: COUNT 31:0 RO. -/
abbrev SCH_HIST_DEPTH (n : Nat) (i : Nat) : Nat := 0x910000 + 0x80 * n + 0x4 * i

/-- SCH_HIST_SOJ (R419), 32 bits, DEV: COUNT 31:0 RO. -/
abbrev SCH_HIST_SOJ (n : Nat) (i : Nat) : Nat := 0x910040 + 0x80 * n + 0x4 * i

/-- SCH_CLS_STATUS (R419), 32 bits, DEV: HELD 30:16 RO, BOOST_MULT 12:8 RO, WEIGHT 7:0 RO. -/
abbrev SCH_CLS_STATUS (n : Nat) : Nat := 0x920000 + 0x20 * n

/-- SCH_CLS_CYCLES (R419), 64 bits, DEV: COUNT 63:0 RO. -/
abbrev SCH_CLS_CYCLES (n : Nat) : Nat := 0x920008 + 0x20 * n

/-- SCH_CLS_ROWS (R419), 64 bits, DEV: COUNT 63:0 RO. -/
abbrev SCH_CLS_ROWS (n : Nat) : Nat := 0x920010 + 0x20 * n

/-- SCH_COMP_STATUS (R419), 32 bits, DEV: BERTHS 30:16 RO, WEIGHT 15:8 RO, FENCED 2:2 RO, PREV 1:1 RO, CUR 0:0 RO. -/
abbrev SCH_COMP_STATUS (n : Nat) : Nat := 0x940000 + 0x40 * n

/-- SCH_COMP_CREDIT (R419), 64 bits, DEV: VALUE 63:0 RO. -/
abbrev SCH_COMP_CREDIT (n : Nat) : Nat := 0x940008 + 0x40 * n

/-- SCH_COMP_FRAMES (R419), 32 bits, DEV: VALUE 31:0 RO. -/
abbrev SCH_COMP_FRAMES (n : Nat) : Nat := 0x940010 + 0x40 * n

/-- SCH_COMP_WITHY (R419), 32 bits, DEV: SLOTS 10:0 RO. -/
abbrev SCH_COMP_WITHY (n : Nat) : Nat := 0x940014 + 0x40 * n

/-- WTH_STATUS (R306), 32 bits, DEV: LIB_FREE 29:16 RO, SLOTS_FREE 10:0 RO. -/
abbrev WTH_STATUS : Nat := 0x980000

/-- WTH_SLOT_SEL (R306), 32 bits, DEV: SLOT 9:0 RW. -/
abbrev WTH_SLOT_SEL : Nat := 0x980004

/-- WTH_SLOT_INFO (R306), 64 bits, DEV: WITHY_ID 63:44 RO, VER 43:32 RO, PINS 31:17 RO, PROJ 16:10 RO, RANK 9:7 RO, VSTATE 6:4 RO, LIB 3:3 RO, SLOT_STATE 1:0 RO. -/
abbrev WTH_SLOT_INFO : Nat := 0x980008

/-- WTH_LOAD_CNT (R306), 64 bits, DEV: COUNT 63:0 RO. -/
abbrev WTH_LOAD_CNT : Nat := 0x980010

/-- WTH_FREED_CNT (R306), 64 bits, DEV: COUNT 63:0 RO. -/
abbrev WTH_FREED_CNT : Nat := 0x980018

/-- WTH_PROMOTE_CNT (R306), 64 bits, DEV: COUNT 63:0 RO. -/
abbrev WTH_PROMOTE_CNT : Nat := 0x980020

/-- WTH_EVICT_CNT (R306), 64 bits, DEV: COUNT 63:0 RO. -/
abbrev WTH_EVICT_CNT : Nat := 0x980028

/-- WTH_PROMOTE_WAIT (R306), 64 bits, DEV: COUNT 63:0 RO. -/
abbrev WTH_PROMOTE_WAIT : Nat := 0x980030

/-- SMP_TOKENS_CNT (R306), 64 bits, DEV: COUNT 63:0 RO. -/
abbrev SMP_TOKENS_CNT : Nat := 0x980038

/-- SMP_NAN_ROWS (R306), 64 bits, DEV: COUNT 63:0 RO. -/
abbrev SMP_NAN_ROWS : Nat := 0x980040

/-- SMP_DEGENERATE_CNT (R306), 64 bits, DEV: COUNT 63:0 RO. -/
abbrev SMP_DEGENERATE_CNT : Nat := 0x980048

/-- SPEC_DRAFTED_CNT (R306), 64 bits, DEV: COUNT 63:0 RO. -/
abbrev SPEC_DRAFTED_CNT : Nat := 0x980050

/-- SPEC_ACCEPTED_CNT (R306), 64 bits, DEV: COUNT 63:0 RO. -/
abbrev SPEC_ACCEPTED_CNT : Nat := 0x980058

/-- SPEC_STALE_CNT (R306), 64 bits, DEV: COUNT 63:0 RO. -/
abbrev SPEC_STALE_CNT : Nat := 0x980060

/-- TOK_RELEASED_CNT (R306), 64 bits, DEV: COUNT 63:0 RO. -/
abbrev TOK_RELEASED_CNT : Nat := 0x980068

/-- TOK_WITHHELD_CNT (R306), 64 bits, DEV: COUNT 63:0 RO. -/
abbrev TOK_WITHHELD_CNT : Nat := 0x980070

/-- TOK_STREAM_CNT (R306), 64 bits, DEV: COUNT 63:0 RO. -/
abbrev TOK_STREAM_CNT : Nat := 0x980078

/-- BOOST_CNT (R306), 64 bits, DEV: COUNT 63:0 RO. -/
abbrev BOOST_CNT : Nat := 0x980080

/-- ERR_STATUS (R454), 32 bits, DEV: CP_HUNG 15:8 RW1C, FATAL 3:3 RO, CP_RESTARTING 2:2 RO, LOG_WRAP 1:1 RW1C, REG_RSVD_WR 0:0 RW1C. -/
abbrev ERR_STATUS : Nat := 0xa00000

/-- ERR_REG_LAST (R454), 32 bits, DEV: OFFSET 23:0 RO. -/
abbrev ERR_REG_LAST : Nat := 0xa00004

/-- ERR_TH_CORE_SUSPECT (R454), 32 bits, DEV: SEC 27:16 RW, COUNT 7:0 RW. -/
abbrev ERR_TH_CORE_SUSPECT : Nat := 0xa00010

/-- ERR_TH_CORE_FENCE (R454), 32 bits, DEV: SEC 27:16 RW, COUNT 7:0 RW. -/
abbrev ERR_TH_CORE_FENCE : Nat := 0xa00014

/-- ERR_TH_HBM_ROW (R454), 32 bits, DEV: HOURS 23:16 RW, COUNT 7:0 RW. -/
abbrev ERR_TH_HBM_ROW : Nat := 0xa00018

/-- ERR_TH_LANE (R454), 32 bits, DEV: SEC 27:16 RW, COUNT 7:0 RW. -/
abbrev ERR_TH_LANE : Nat := 0xa0001c

/-- ERR_TH_TEST_DEFER (R454), 32 bits, DEV: STEPS 7:0 RW. -/
abbrev ERR_TH_TEST_DEFER : Nat := 0xa00020

/-- ERR_CP_WDOG (R454), 32 bits, DEV: MS 9:0 RW. -/
abbrev ERR_CP_WDOG : Nat := 0xa00024

/-- ERR_REPLAY_TMO (R454), 32 bits, DEV: MS 9:0 RW. -/
abbrev ERR_REPLAY_TMO : Nat := 0xa00028

/-- ERR_RATE (R454), 32 bits, DEV: MS 15:0 RW. -/
abbrev ERR_RATE : Nat := 0xa0002c

/-- ERR_LOG_HEAD (R454), 32 bits, DEV: NEXT 9:0 RO. -/
abbrev ERR_LOG_HEAD : Nat := 0xa00030

/-- ERR_LOG_SEL (R454), 32 bits, DEV: INDEX 9:0 RW. -/
abbrev ERR_LOG_SEL : Nat := 0xa00034

/-- ERR_REPLAY_PEER (R454), 32 bits, DEV: VALID 31:31 RW, QP 19:0 RW. -/
abbrev ERR_REPLAY_PEER (n : Nat) : Nat := 0xa00040 + 0x4 * n

/-- ERR_LOG_DATA (R454), 32 bits, DEV: DATA 31:0 RO. -/
abbrev ERR_LOG_DATA (n : Nat) : Nat := 0xa00100 + 0x4 * n

/-- ERR_CE_CNT (R454), 64 bits, DEV: COUNT 63:0 RO. -/
abbrev ERR_CE_CNT : Nat := 0xa00200

/-- ERR_UE_CNT (R454), 64 bits, DEV: COUNT 63:0 RO. -/
abbrev ERR_UE_CNT : Nat := 0xa00208

/-- ERR_FATAL_CNT (R454), 64 bits, DEV: COUNT 63:0 RO. -/
abbrev ERR_FATAL_CNT : Nat := 0xa00210

/-- ERR_REC_SENT_CNT (R454), 64 bits, DEV: COUNT 63:0 RO. -/
abbrev ERR_REC_SENT_CNT : Nat := 0xa00218

/-- ERR_REC_SUPPRESSED_CNT (R454), 64 bits, DEV: COUNT 63:0 RO. -/
abbrev ERR_REC_SUPPRESSED_CNT : Nat := 0xa00220

/-- ERR_POISON_CNT (R454), 64 bits, DEV: COUNT 63:0 RO. -/
abbrev ERR_POISON_CNT : Nat := 0xa00228

/-- ERR_FIFO_PAR_CNT (R454), 64 bits, DEV: COUNT 63:0 RO. -/
abbrev ERR_FIFO_PAR_CNT : Nat := 0xa00230

/-- ERR_FIFO_OVR_CNT (R454), 64 bits, DEV: COUNT 63:0 RO. -/
abbrev ERR_FIFO_OVR_CNT : Nat := 0xa00238

/-- ERR_CP_WDOG_CNT (R454), 64 bits, DEV: COUNT 63:0 RO. -/
abbrev ERR_CP_WDOG_CNT : Nat := 0xa00240

/-- ERR_CP_RESTART_CNT (R454), 64 bits, DEV: COUNT 63:0 RO. -/
abbrev ERR_CP_RESTART_CNT : Nat := 0xa00248

/-- PERF_VERIFY_STATUS (R455), 32 bits, DEV: SERVING 10:8 RO, AWAITING 4:0 RO. -/
abbrev PERF_VERIFY_STATUS : Nat := 0xb00000

/-- PERF_SUSPECT_CNT (R455), 64 bits, DEV: COUNT 63:0 RO. -/
abbrev PERF_SUSPECT_CNT : Nat := 0xb00100

/-- PERF_REPLAY_SENT_CNT (R455), 64 bits, DEV: COUNT 63:0 RO. -/
abbrev PERF_REPLAY_SENT_CNT : Nat := 0xb00108

/-- PERF_REPLAY_SERVED_CNT (R455), 64 bits, DEV: COUNT 63:0 RO. -/
abbrev PERF_REPLAY_SERVED_CNT : Nat := 0xb00110

/-- PERF_REPLAY_AGREE_CNT (R455), 64 bits, DEV: COUNT 63:0 RO. -/
abbrev PERF_REPLAY_AGREE_CNT : Nat := 0xb00118

/-- PERF_REPLAY_TIEBREAK_CNT (R455), 64 bits, DEV: COUNT 63:0 RO. -/
abbrev PERF_REPLAY_TIEBREAK_CNT : Nat := 0xb00120

/-- PERF_REPLAY_LOST_CNT (R455), 64 bits, DEV: COUNT 63:0 RO. -/
abbrev PERF_REPLAY_LOST_CNT : Nat := 0xb00128

/-- PERF_REPLAY_TMO_CNT (R455), 64 bits, DEV: COUNT 63:0 RO. -/
abbrev PERF_REPLAY_TMO_CNT : Nat := 0xb00130

/-- PERF_REPLAY_LATE_CNT (R455), 64 bits, DEV: COUNT 63:0 RO. -/
abbrev PERF_REPLAY_LATE_CNT : Nat := 0xb00138

/-- PERF_RERUN_POISON_CNT (R455), 64 bits, DEV: COUNT 63:0 RO. -/
abbrev PERF_RERUN_POISON_CNT : Nat := 0xb00140

/-- PERF_VERIFY_WAIT_US (R455), 64 bits, DEV: COUNT 63:0 RO. -/
abbrev PERF_VERIFY_WAIT_US : Nat := 0xb00148

/-- ATT_TMO (R282), 32 bits, DEV: US 13:0 RW. -/
abbrev ATT_TMO : Nat := 0xb80000

/-- ATT_BUDGET (R282), 32 bits, DEV: US 15:0 RW. -/
abbrev ATT_BUDGET : Nat := 0xb80004

/-- ATT_RTT_MAX (R282), 32 bits, DEV: TICKS 31:0 RC. -/
abbrev ATT_RTT_MAX : Nat := 0xb80008

/-- ATT_SENT_CNT (R282), 64 bits, DEV: COUNT 63:0 RO. -/
abbrev ATT_SENT_CNT : Nat := 0xb80010

/-- ATT_SERVED_CNT (R282), 64 bits, DEV: COUNT 63:0 RO. -/
abbrev ATT_SERVED_CNT : Nat := 0xb80018

/-- ATT_RETRY_CNT (R282), 64 bits, DEV: COUNT 63:0 RO. -/
abbrev ATT_RETRY_CNT : Nat := 0xb80020

/-- ATT_FAIL_CNT (R282), 64 bits, DEV: COUNT 63:0 RO. -/
abbrev ATT_FAIL_CNT : Nat := 0xb80028

/-- ATT_LATE_CNT (R282), 64 bits, DEV: COUNT 63:0 RO. -/
abbrev ATT_LATE_CNT : Nat := 0xb80030

/-- ATT_OVER_BUDGET_CNT (R282), 64 bits, DEV: COUNT 63:0 RO. -/
abbrev ATT_OVER_BUDGET_CNT : Nat := 0xb80038

/-- ATT_NO_PAGE_CNT (R282), 64 bits, DEV: COUNT 63:0 RO. -/
abbrev ATT_NO_PAGE_CNT : Nat := 0xb80040

/-- ATT_REMOTE_PAGES (R282), 64 bits, DEV: COUNT 63:0 RO. -/
abbrev ATT_REMOTE_PAGES : Nat := 0xb80048

/-- CFG_STATUS (R482), 32 bits, DEV: RESTRICT_CAUSE 11:8 RO, RESTRICTED 7:7 RO, FLASH_BUSY 6:6 RO, DEFECT_FULL 5:5 RO, FIELD_DEFAULTED 4:4 RO, DEFAULTED 3:3 RO, SOURCE 1:0 RO. -/
abbrev CFG_STATUS : Nat := 0xc00000

/-- CFG_SEQ (R482), 64 bits, DEV: VALUE 63:0 RO. -/
abbrev CFG_SEQ : Nat := 0xc00008

/-- CFG_FIELD_LAST (R482), 32 bits, DEV: OFFSET 11:0 RO. -/
abbrev CFG_FIELD_LAST : Nat := 0xc00010

/-- CFG_CONFLICT (R482), 32 bits, DEV: FEATURES 8:0 RO. -/
abbrev CFG_CONFLICT : Nat := 0xc00014

/-- CFG_FEATURES_ON (R482), 32 bits, DEV: FEATURES 8:0 RO. -/
abbrev CFG_FEATURES_ON : Nat := 0xc00018

/-- CFG_FW_GEN (R482), 32 bits, DEV: VALUE 31:0 RO. -/
abbrev CFG_FW_GEN : Nat := 0xc0001c

/-- CFG_BOOT (R482), 32 bits, DEV: FELLBACK 10:8 RO, PENDING 6:4 RO, SLOT 2:0 RO. -/
abbrev CFG_BOOT : Nat := 0xc00020

/-- CFG_FW_VER (R482), 32 bits, DEV: VALUE 31:0 RO. -/
abbrev CFG_FW_VER (n : Nat) : Nat := 0xc00030 + 0x4 * n

/-- CFG_DEFECTS (R482), 32 bits, DEV: FIELD 31:16 RO, FACTORY 15:0 RO. -/
abbrev CFG_DEFECTS : Nat := 0xc00040

/-- LIC_GRANTS (R482), 32 bits, DEV: PORTS_MAX 27:24 RO, PORTS_MIN 19:16 RO, GRANTS 5:0 RO. -/
abbrev LIC_GRANTS : Nat := 0xc10000

/-- LIC_GRADE (R482), 32 bits, DEV: VALID 31:31 RO, ABSENT_STACK 10:8 RO, GRADE 0:0 RO. -/
abbrev LIC_GRADE : Nat := 0xc10004

/-- LIC_SLOT_ID (R482), 32 bits, DEV: VALUE 31:0 RO. -/
abbrev LIC_SLOT_ID (n : Nat) : Nat := 0xc10010 + 0x8 * n

/-- LIC_SLOT_STATE (R482), 32 bits, DEV: VALID 31:31 RO, PENDING 30:30 RO, GRANTS 5:0 RO. -/
abbrev LIC_SLOT_STATE (n : Nat) : Nat := 0xc10014 + 0x8 * n

/-- SEC_STATUS (R482), 32 bits, DEV: EXHAUSTED 2:2 RO, KEYGEN 1:1 RO, ID_VALID 0:0 RO. -/
abbrev SEC_STATUS : Nat := 0xc20000

/-- SEC_SIG_NEXT (R482), 32 bits, DEV: VALUE 31:0 RO. -/
abbrev SEC_SIG_NEXT : Nat := 0xc20004

/-- SEC_POWERUP (R482), 32 bits, DEV: VALUE 31:0 RO. -/
abbrev SEC_POWERUP : Nat := 0xc20008

/-- SEC_ID_DIGEST (R482), 32 bits, DEV: VALUE 31:0 RO. -/
abbrev SEC_ID_DIGEST (n : Nat) : Nat := 0xc20010 + 0x4 * n

/-- SEC_SIG_CNT (R482), 64 bits, DEV: COUNT 63:0 RO. -/
abbrev SEC_SIG_CNT : Nat := 0xc20020

/-- SEC_RATE_REFUSED (R482), 64 bits, DEV: COUNT 63:0 RO. -/
abbrev SEC_RATE_REFUSED : Nat := 0xc20028

/-- SEC_SIG_ABANDONED (R482), 32 bits, DEV: COUNT 31:0 RO. -/
abbrev SEC_SIG_ABANDONED : Nat := 0xc20030

/-- CLK_STATUS (R482), 32 bits, DEV: ROOT_TRIES 9:8 RO, LOCK 4:0 RO. -/
abbrev CLK_STATUS : Nat := 0xd00000

/-- CLK_MGT_COUNT (R482), 64 bits, DEV: VALUE 63:0 RO. -/
abbrev CLK_MGT_COUNT : Nat := 0xd00008

/-- CLK_ROOT_LOCK_US (R482), 32 bits, DEV: US 31:0 RO. -/
abbrev CLK_ROOT_LOCK_US : Nat := 0xd00010

/-- PWR_STATUS (R524), 32 bits, DEV: LEVEL 20:16 RO, AVS_ERR 3:3 RW1C, FORCED 2:2 RO, POWER 1:1 RO, THERMAL 0:0 RO. -/
abbrev PWR_STATUS : Nat := 0xd00100

/-- PWR_CAP (R524), 32 bits, DEV: W 11:0 RW. -/
abbrev PWR_CAP : Nat := 0xd00104

/-- PWR_EST_W (R524), 32 bits, DEV: W 12:0 RO. -/
abbrev PWR_EST_W : Nat := 0xd00108

/-- THM_IN_LEVEL (R524), 32 bits, DEV: LEVEL 4:0 RW. -/
abbrev THM_IN_LEVEL : Nat := 0xd0010c

/-- PWR_CMP_MV (R524), 32 bits, DEV: MV 9:0 RO. -/
abbrev PWR_CMP_MV (n : Nat) : Nat := 0xd00110 + 0x4 * n

/-- PWR_RAIL_MV (R524), 32 bits, DEV: MV 11:0 RO. -/
abbrev PWR_RAIL_MV (n : Nat) : Nat := 0xd00120 + 0x4 * n

/-- PWR_THROTTLE_CYCLES (R524), 64 bits, DEV: COUNT 63:0 RO. -/
abbrev PWR_THROTTLE_CYCLES : Nat := 0xd00180

/-- PWR_THROTTLE_EVENTS (R524), 64 bits, DEV: COUNT 63:0 RO. -/
abbrev PWR_THROTTLE_EVENTS : Nat := 0xd00188

/-- THM_HBM_HOT_CNT (R524), 64 bits, DEV: COUNT 63:0 RO. -/
abbrev THM_HBM_HOT_CNT : Nat := 0xd00190

/-- THM_TEMP (R524), 32 bits, DEV: VALID 31:31 RO, CELSIUS 7:0 RO. -/
abbrev THM_TEMP (n : Nat) : Nat := 0xd00200 + 0x4 * n

/-- Rows of the register tables of R507. -/
def regRows0R507_0 : List RegDef :=
  [⟨0x0, 32, 0, 1, 0, 1, .dev, true, [⟨31, 16, .ro, 0, 0, 65535⟩, ⟨15, 8, .ro, 0, 0, 255⟩, ⟨1, 0, .ro, 0, 0, 3⟩]⟩,
   ⟨0x4, 32, 0, 1, 0, 1, .dev, true, [⟨27, 16, .ro, 0, 0, 4095⟩, ⟨15, 12, .ro, 0, 0, 15⟩, ⟨9, 8, .ro, 0, 0, 3⟩, ⟨4, 4, .ro, 0, 0, 1⟩, ⟨3, 3, .ro, 0, 0, 1⟩, ⟨2, 2, .ro, 0, 0, 1⟩, ⟨1, 1, .ro, 0, 0, 1⟩, ⟨0, 0, .ro, 0, 0, 1⟩]⟩,
   ⟨0x8, 32, 0, 1, 0, 1, .dev, false, [⟨31, 16, .wo, 0, 0, 65535⟩, ⟨1, 1, .wo, 0, 0, 1⟩, ⟨0, 0, .wo, 0, 0, 1⟩]⟩,
   ⟨0x10, 32, 0, 1, 0, 1, .dev, false, [⟨9, 0, .rw1c, 0, 0, 1023⟩]⟩,
   ⟨0x14, 32, 0, 1, 0, 1, .fn, false, [⟨9, 0, .rw, 0, 0, 1023⟩]⟩,
   ⟨0x18, 32, 0, 1, 0, 1, .fn, false, [⟨10, 0, .rw, 0, 0, 2047⟩]⟩,
   ⟨0x1c, 32, 0, 1, 0, 1, .fn, false, [⟨31, 0, .rw, 0, 0, 4294967295⟩]⟩,
   ⟨0x20, 32, 0, 1, 0, 1, .dev, true, [⟨8, 8, .ro, 0, 0, 1⟩, ⟨4, 0, .ro, 0, 0, 31⟩]⟩,
   ⟨0x24, 32, 0, 1, 0, 1, .dev, true, [⟨15, 15, .ro, 0, 0, 1⟩, ⟨12, 12, .ro, 0, 0, 1⟩, ⟨9, 4, .ro, 0, 0, 63⟩, ⟨3, 0, .ro, 0, 0, 15⟩]⟩,
   ⟨0x28, 32, 0, 1, 0, 1, .fn, false, [⟨31, 12, .rw, 0, 0, 1048575⟩, ⟨1, 1, .rw, 0, 0, 1⟩, ⟨0, 0, .rw, 0, 0, 1⟩]⟩,
   ⟨0x40, 64, 0, 1, 0, 1, .dev, false, [⟨63, 0, .ro, 0, 0, 18446744073709551615⟩]⟩,
   ⟨0x48, 64, 0, 1, 0, 1, .dev, false, [⟨63, 0, .ro, 0, 0, 18446744073709551615⟩]⟩]

/-- Rows of the register tables of R507. -/
def regRows0R507_1 : List RegDef :=
  [⟨0x50, 64, 0, 1, 0, 1, .dev, false, [⟨63, 0, .ro, 0, 0, 18446744073709551615⟩]⟩,
   ⟨0x58, 64, 0, 1, 0, 1, .dev, false, [⟨63, 0, .ro, 0, 0, 18446744073709551615⟩]⟩,
   ⟨0x60, 64, 0, 1, 0, 1, .dev, false, [⟨63, 0, .ro, 0, 0, 18446744073709551615⟩]⟩]

/-- Rows of the register tables of R507. -/
def regRowsER507_0 : List RegDef :=
  [⟨0xe00000, 32, 0, 1, 0, 1, .fn, false, [⟨0, 0, .rw1s, 0, 0, 1⟩]⟩,
   ⟨0xe00004, 32, 0, 1, 0, 1, .fn, false, [⟨31, 16, .ro, 0, 0, 65535⟩, ⟨0, 0, .ro, 0, 0, 1⟩]⟩,
   ⟨0xe01000, 32, 4, 3072, 0, 1, .fn, false, [⟨31, 0, .wo, 0, 0, 4294967295⟩]⟩,
   ⟨0xe04000, 32, 4, 4096, 0, 1, .fn, false, [⟨31, 0, .ro, 0, 0, 4294967295⟩]⟩]

/-- Rows of the register tables of R341. -/
def regRows1R341_0 : List RegDef :=
  [⟨0x100000, 32, 0, 1, 0, 1, .dev, true, [⟨2, 2, .ro, 0, 0, 1⟩, ⟨1, 1, .ro, 0, 0, 1⟩, ⟨0, 0, .ro, 0, 0, 1⟩]⟩,
   ⟨0x100004, 32, 0, 1, 0, 1, .dev, false, [⟨0, 0, .rw, 0, 0, 1⟩]⟩,
   ⟨0x100008, 32, 0, 1, 0, 1, .dev, false, [⟨31, 0, .ro, 50463235, 0, 4294967295⟩]⟩,
   ⟨0x10000c, 32, 0, 1, 0, 1, .dev, false, [⟨13, 0, .rw, 100, 1, 10000⟩]⟩,
   ⟨0x100100, 64, 0, 1, 0, 1, .dev, false, [⟨63, 0, .ro, 0, 0, 18446744073709551615⟩]⟩,
   ⟨0x100108, 64, 0, 1, 0, 1, .dev, false, [⟨63, 0, .ro, 0, 0, 18446744073709551615⟩]⟩,
   ⟨0x100110, 64, 0, 1, 0, 1, .dev, false, [⟨63, 0, .ro, 0, 0, 18446744073709551615⟩]⟩,
   ⟨0x100118, 64, 0, 1, 0, 1, .dev, false, [⟨63, 0, .ro, 0, 0, 18446744073709551615⟩]⟩,
   ⟨0x100120, 64, 0, 1, 0, 1, .dev, false, [⟨63, 0, .ro, 0, 0, 18446744073709551615⟩]⟩,
   ⟨0x100128, 64, 0, 1, 0, 1, .dev, false, [⟨63, 0, .ro, 0, 0, 18446744073709551615⟩]⟩,
   ⟨0x100130, 64, 0, 1, 0, 1, .dev, false, [⟨63, 0, .ro, 0, 0, 18446744073709551615⟩]⟩,
   ⟨0x100138, 64, 0, 1, 0, 1, .dev, false, [⟨63, 0, .ro, 0, 0, 18446744073709551615⟩]⟩]

/-- Rows of the register tables of R341. -/
def regRows1R341_1 : List RegDef :=
  [⟨0x100140, 64, 0, 1, 0, 1, .dev, false, [⟨63, 0, .ro, 0, 0, 18446744073709551615⟩]⟩,
   ⟨0x100148, 64, 0, 1, 0, 1, .dev, false, [⟨63, 0, .ro, 0, 0, 18446744073709551615⟩]⟩,
   ⟨0x110000, 64, 64, 1024, 0, 1, .fn, false, [⟨63, 12, .rw, 0, 0, 4503599627370495⟩]⟩,
   ⟨0x110008, 32, 64, 1024, 0, 1, .fn, false, [⟨31, 31, .rw, 0, 0, 1⟩, ⟨27, 24, .rw, 0, 0, 8⟩, ⟨21, 12, .rw, 0, 0, 1023⟩, ⟨11, 0, .rw, 0, 0, 4095⟩]⟩,
   ⟨0x11000c, 32, 64, 1024, 0, 1, .fn, false, [⟨11, 0, .rw, 0, 0, 4095⟩]⟩,
   ⟨0x110010, 32, 64, 1024, 0, 1, .fn, true, [⟨31, 16, .ro, 0, 0, 65535⟩, ⟨10, 5, .ro, 0, 0, 63⟩, ⟨4, 4, .rw1c, 0, 0, 1⟩, ⟨3, 3, .rw1c, 0, 0, 1⟩, ⟨2, 2, .rw1c, 0, 0, 1⟩, ⟨1, 0, .ro, 0, 0, 3⟩]⟩,
   ⟨0x110014, 32, 64, 1024, 0, 1, .fn, true, [⟨15, 0, .ro, 0, 0, 65535⟩]⟩,
   ⟨0x110018, 32, 64, 1024, 0, 1, .fn, false, [⟨31, 16, .ro, 0, 0, 65535⟩, ⟨15, 0, .ro, 0, 0, 65535⟩]⟩,
   ⟨0x120000, 64, 64, 1024, 0, 1, .fn, false, [⟨63, 12, .rw, 0, 0, 4503599627370495⟩]⟩,
   ⟨0x120008, 64, 64, 1024, 0, 1, .fn, false, [⟨63, 3, .rw, 0, 0, 2305843009213693951⟩]⟩,
   ⟨0x120010, 32, 64, 1024, 0, 1, .fn, false, [⟨31, 31, .rw, 0, 0, 1⟩, ⟨30, 30, .rw, 0, 0, 1⟩, ⟨27, 24, .rw, 0, 0, 8⟩, ⟨21, 11, .rw, 0, 0, 2047⟩, ⟨7, 0, .rw, 0, 0, 255⟩]⟩,
   ⟨0x120014, 32, 64, 1024, 0, 1, .fn, false, [⟨15, 0, .rw, 0, 0, 65535⟩]⟩]

/-- Rows of the register tables of R341. -/
def regRows1R341_2 : List RegDef :=
  [⟨0x120018, 32, 64, 1024, 0, 1, .fn, true, [⟨31, 16, .ro, 0, 0, 65535⟩, ⟨3, 3, .rw1c, 0, 0, 1⟩, ⟨2, 2, .ro, 0, 0, 1⟩, ⟨1, 0, .ro, 0, 0, 3⟩]⟩,
   ⟨0x12001c, 32, 64, 1024, 0, 1, .fn, true, [⟨15, 0, .ro, 0, 0, 65535⟩]⟩]

/-- Rows of the register tables of R235. -/
def regRows2R235_0 : List RegDef :=
  [⟨0x200000, 32, 0, 1, 0, 1, .dev, true, [⟨26, 16, .ro, 0, 0, 2047⟩, ⟨14, 0, .ro, 0, 0, 32767⟩]⟩,
   ⟨0x200008, 32, 0, 1, 0, 1, .dev, false, [⟨9, 0, .rw, 50, 1, 1000⟩]⟩,
   ⟨0x200010, 32, 4, 10, 0, 1, .dev, true, [⟨14, 0, .ro, 0, 0, 32767⟩]⟩,
   ⟨0x200040, 32, 0, 1, 0, 1, .dev, false, [⟨13, 0, .rw, 0, 0, 16383⟩]⟩,
   ⟨0x200100, 32, 4, 64, 0, 1, .dev, false, [⟨31, 0, .ro, 0, 0, 4294967295⟩]⟩,
   ⟨0x200200, 64, 0, 1, 0, 1, .dev, false, [⟨63, 0, .ro, 0, 0, 18446744073709551615⟩]⟩,
   ⟨0x200208, 64, 0, 1, 0, 1, .dev, false, [⟨63, 0, .ro, 0, 0, 18446744073709551615⟩]⟩,
   ⟨0x200210, 64, 0, 1, 0, 1, .dev, false, [⟨63, 0, .ro, 0, 0, 18446744073709551615⟩]⟩,
   ⟨0x200218, 64, 0, 1, 0, 1, .dev, false, [⟨63, 0, .ro, 0, 0, 18446744073709551615⟩]⟩,
   ⟨0x200220, 64, 0, 1, 0, 1, .dev, false, [⟨63, 0, .ro, 0, 0, 18446744073709551615⟩]⟩,
   ⟨0x200228, 64, 0, 1, 0, 1, .dev, false, [⟨63, 0, .ro, 0, 0, 18446744073709551615⟩]⟩,
   ⟨0x200230, 64, 0, 1, 0, 1, .dev, false, [⟨63, 0, .ro, 0, 0, 18446744073709551615⟩]⟩]

/-- Rows of the register tables of R235. -/
def regRows2R235_1 : List RegDef :=
  [⟨0x200238, 64, 0, 1, 0, 1, .dev, false, [⟨63, 0, .ro, 0, 0, 18446744073709551615⟩]⟩,
   ⟨0x200240, 64, 0, 1, 0, 1, .dev, false, [⟨63, 0, .ro, 0, 0, 18446744073709551615⟩]⟩,
   ⟨0x200248, 64, 0, 1, 0, 1, .dev, false, [⟨63, 0, .ro, 0, 0, 18446744073709551615⟩]⟩,
   ⟨0x200250, 64, 0, 1, 0, 1, .dev, false, [⟨63, 0, .ro, 0, 0, 18446744073709551615⟩]⟩,
   ⟨0x200258, 64, 0, 1, 0, 1, .dev, false, [⟨63, 0, .ro, 0, 0, 18446744073709551615⟩]⟩]

/-- Rows of the register tables of R153. -/
def regRows3R153_0 : List RegDef :=
  [⟨0x300000, 32, 0, 1, 0, 1, .dev, true, [⟨11, 10, .ro, 0, 0, 3⟩, ⟨9, 9, .ro, 0, 0, 1⟩, ⟨8, 8, .ro, 0, 0, 1⟩, ⟨5, 4, .ro, 0, 0, 3⟩, ⟨0, 0, .ro, 0, 0, 1⟩]⟩,
   ⟨0x300004, 32, 0, 1, 0, 1, .dev, true, [⟨31, 0, .ro, 0, 0, 4294967295⟩]⟩,
   ⟨0x300008, 32, 0, 1, 0, 1, .dev, false, [⟨31, 0, .ro, 0, 0, 4294967295⟩]⟩,
   ⟨0x30000c, 32, 0, 1, 0, 1, .dev, false, [⟨31, 0, .rc, 0, 0, 4294967295⟩]⟩,
   ⟨0x300010, 64, 0, 1, 0, 1, .dev, false, [⟨63, 0, .ro, 0, 0, 18446744073709551615⟩]⟩,
   ⟨0x300018, 64, 0, 1, 0, 1, .dev, false, [⟨63, 0, .ro, 0, 0, 18446744073709551615⟩]⟩,
   ⟨0x300020, 64, 0, 1, 0, 1, .dev, false, [⟨63, 0, .ro, 0, 0, 18446744073709551615⟩]⟩,
   ⟨0x300028, 64, 0, 1, 0, 1, .dev, false, [⟨63, 0, .ro, 0, 0, 18446744073709551615⟩]⟩,
   ⟨0x300030, 64, 0, 1, 0, 1, .dev, false, [⟨63, 0, .ro, 0, 0, 18446744073709551615⟩]⟩,
   ⟨0x300038, 64, 0, 1, 0, 1, .dev, false, [⟨63, 0, .ro, 0, 0, 18446744073709551615⟩]⟩,
   ⟨0x300100, 32, 16, 4, 0, 1, .dev, true, [⟨23, 16, .ro, 0, 0, 255⟩, ⟨15, 8, .ro, 0, 0, 255⟩, ⟨7, 4, .ro, 0, 0, 15⟩, ⟨1, 0, .ro, 0, 0, 3⟩]⟩,
   ⟨0x300104, 32, 16, 4, 0, 1, .dev, true, [⟨31, 0, .ro, 0, 0, 4294967295⟩]⟩]

/-- Rows of the register tables of R153. -/
def regRows3R153_1 : List RegDef :=
  [⟨0x300108, 32, 16, 4, 0, 1, .dev, true, [⟨31, 0, .ro, 0, 0, 4294967295⟩]⟩,
   ⟨0x310000, 64, 64, 128, 0, 1, .dev, false, [⟨63, 0, .ro, 0, 0, 18446744073709551615⟩]⟩,
   ⟨0x310008, 64, 64, 128, 0, 1, .dev, false, [⟨63, 0, .ro, 0, 0, 18446744073709551615⟩]⟩,
   ⟨0x310010, 64, 64, 128, 0, 1, .dev, false, [⟨63, 0, .ro, 0, 0, 18446744073709551615⟩]⟩,
   ⟨0x310018, 64, 64, 128, 0, 1, .dev, false, [⟨63, 0, .ro, 0, 0, 18446744073709551615⟩]⟩,
   ⟨0x310020, 64, 64, 128, 0, 1, .dev, false, [⟨63, 0, .ro, 0, 0, 18446744073709551615⟩]⟩,
   ⟨0x310028, 64, 64, 128, 0, 1, .dev, false, [⟨63, 0, .ro, 0, 0, 18446744073709551615⟩]⟩,
   ⟨0x310030, 32, 64, 128, 0, 1, .dev, false, [⟨31, 16, .ro, 0, 0, 65535⟩, ⟨2, 0, .ro, 0, 0, 7⟩]⟩]

/-- Rows of the register tables of R125. -/
def regRows3R125_0 : List RegDef :=
  [⟨0x380000, 32, 256, 1152, 0, 1, .dev, true, [⟨20, 20, .ro, 0, 0, 1⟩, ⟨19, 10, .ro, 0, 0, 1023⟩, ⟨7, 4, .ro, 0, 0, 15⟩, ⟨3, 3, .ro, 0, 0, 1⟩, ⟨2, 0, .ro, 0, 0, 7⟩]⟩,
   ⟨0x380004, 32, 256, 1152, 0, 1, .dev, true, [⟨23, 16, .ro, 0, 0, 255⟩, ⟨15, 8, .ro, 0, 0, 255⟩, ⟨7, 4, .ro, 0, 0, 15⟩, ⟨3, 0, .ro, 0, 0, 15⟩]⟩,
   ⟨0x380008, 64, 256, 1152, 0, 1, .dev, false, [⟨63, 0, .ro, 0, 0, 18446744073709551615⟩]⟩,
   ⟨0x380010, 64, 256, 1152, 0, 1, .dev, false, [⟨63, 0, .ro, 0, 0, 18446744073709551615⟩]⟩,
   ⟨0x380018, 64, 256, 1152, 0, 1, .dev, false, [⟨63, 0, .ro, 0, 0, 18446744073709551615⟩]⟩,
   ⟨0x380020, 64, 256, 1152, 0, 1, .dev, false, [⟨63, 0, .ro, 0, 0, 18446744073709551615⟩]⟩,
   ⟨0x380040, 64, 256, 1152, 8, 11, .dev, false, [⟨63, 0, .ro, 0, 0, 18446744073709551615⟩]⟩,
   ⟨0x3d0000, 32, 64, 128, 0, 1, .dev, true, [⟨23, 23, .ro, 0, 0, 1⟩, ⟨22, 16, .ro, 0, 0, 127⟩, ⟨15, 12, .ro, 0, 0, 15⟩, ⟨11, 8, .ro, 0, 0, 15⟩, ⟨7, 4, .ro, 0, 0, 15⟩, ⟨0, 0, .ro, 0, 0, 1⟩]⟩,
   ⟨0x3d0004, 32, 64, 128, 0, 1, .dev, true, [⟨8, 0, .ro, 0, 0, 511⟩]⟩,
   ⟨0x3d0008, 64, 64, 128, 0, 1, .dev, false, [⟨63, 0, .ro, 0, 0, 18446744073709551615⟩]⟩,
   ⟨0x3d0010, 64, 64, 128, 0, 1, .dev, false, [⟨63, 0, .ro, 0, 0, 18446744073709551615⟩]⟩]

/-- Rows of the register tables of R180. -/
def regRows4R180_0 : List RegDef :=
  [⟨0x400000, 32, 0, 1, 0, 1, .dev, true, [⟨19, 8, .ro, 0, 0, 4095⟩, ⟨4, 4, .rw1c, 0, 0, 1⟩, ⟨3, 3, .ro, 0, 0, 1⟩, ⟨2, 2, .ro, 0, 0, 1⟩, ⟨1, 1, .ro, 0, 0, 1⟩, ⟨0, 0, .ro, 0, 0, 1⟩]⟩,
   ⟨0x400004, 32, 0, 1, 0, 1, .dev, true, [⟨15, 8, .ro, 0, 0, 255⟩, ⟨7, 0, .ro, 0, 0, 255⟩]⟩,
   ⟨0x400008, 32, 0, 1, 0, 1, .dev, true, [⟨17, 9, .ro, 0, 0, 511⟩, ⟨8, 0, .ro, 0, 0, 511⟩]⟩,
   ⟨0x400100, 32, 32, 12, 0, 1, .dev, true, [⟨28, 16, .ro, 0, 0, 8191⟩, ⟨1, 0, .ro, 0, 0, 3⟩]⟩,
   ⟨0x400108, 64, 32, 12, 0, 1, .dev, false, [⟨63, 0, .ro, 0, 0, 18446744073709551615⟩]⟩,
   ⟨0x400110, 64, 32, 12, 0, 1, .dev, false, [⟨63, 0, .ro, 0, 0, 18446744073709551615⟩]⟩,
   ⟨0x400118, 32, 32, 12, 0, 1, .dev, false, [⟨31, 0, .ro, 0, 0, 4294967295⟩]⟩,
   ⟨0x400300, 32, 32, 16, 0, 1, .dev, true, [⟨1, 0, .ro, 0, 0, 3⟩]⟩,
   ⟨0x400308, 64, 32, 16, 0, 1, .dev, false, [⟨63, 0, .ro, 0, 0, 18446744073709551615⟩]⟩,
   ⟨0x400310, 64, 32, 16, 0, 1, .dev, false, [⟨63, 0, .ro, 0, 0, 18446744073709551615⟩]⟩,
   ⟨0x400600, 32, 32, 16, 0, 1, .fn, true, [⟨3, 3, .ro, 0, 0, 1⟩, ⟨2, 1, .rw, 0, 0, 1⟩, ⟨0, 0, .rw, 0, 0, 1⟩]⟩,
   ⟨0x400608, 64, 32, 16, 0, 1, .fn, false, [⟨63, 0, .rw, 0, 0, 18446744073709551615⟩]⟩]

/-- Rows of the register tables of R180. -/
def regRows4R180_1 : List RegDef :=
  [⟨0x400610, 64, 32, 16, 0, 1, .fn, false, [⟨63, 0, .rw, 0, 0, 18446744073709551615⟩]⟩,
   ⟨0x400618, 64, 32, 16, 0, 1, .fn, true, [⟨63, 0, .ro, 0, 0, 18446744073709551615⟩]⟩,
   ⟨0x400800, 64, 0, 1, 0, 1, .dev, false, [⟨63, 0, .ro, 0, 0, 18446744073709551615⟩]⟩,
   ⟨0x400808, 64, 0, 1, 0, 1, .dev, false, [⟨63, 0, .ro, 0, 0, 18446744073709551615⟩]⟩,
   ⟨0x400810, 64, 0, 1, 0, 1, .dev, false, [⟨63, 0, .ro, 0, 0, 18446744073709551615⟩]⟩,
   ⟨0x400818, 64, 0, 1, 0, 1, .dev, false, [⟨47, 0, .ro, 0, 0, 281474976710655⟩]⟩,
   ⟨0x400820, 32, 0, 1, 0, 1, .dev, true, [⟨31, 0, .ro, 0, 0, 4294967295⟩]⟩,
   ⟨0x400824, 32, 0, 1, 0, 1, .dev, true, [⟨31, 0, .ro, 0, 0, 4294967295⟩]⟩,
   ⟨0x400828, 32, 0, 1, 0, 1, .dev, true, [⟨31, 0, .ro, 0, 0, 4294967295⟩]⟩,
   ⟨0x40082c, 32, 0, 1, 0, 1, .dev, true, [⟨31, 0, .ro, 0, 0, 4294967295⟩]⟩]

/-- Rows of the register tables of R263. -/
def regRows5R263_0 : List RegDef :=
  [⟨0x500000, 32, 0, 1, 0, 1, .dev, true, [⟨31, 0, .ro, 0, 0, 4294967295⟩]⟩,
   ⟨0x500004, 32, 0, 1, 0, 1, .dev, true, [⟨31, 0, .ro, 0, 0, 4294967295⟩]⟩,
   ⟨0x500008, 32, 0, 1, 0, 1, .pwr, true, [⟨7, 0, .ro, 0, 0, 255⟩]⟩,
   ⟨0x50000c, 32, 0, 1, 0, 1, .dev, false, [⟨16, 0, .rw, 1000, 100, 100000⟩]⟩,
   ⟨0x500010, 32, 0, 1, 0, 1, .dev, false, [⟨13, 0, .rw, 1000, 10, 10000⟩]⟩,
   ⟨0x500014, 32, 0, 1, 0, 1, .dev, false, [⟨15, 8, .rw, 10, 0, 255⟩, ⟨7, 0, .rw, 5, 0, 255⟩]⟩,
   ⟨0x500018, 64, 0, 1, 0, 1, .dev, true, [⟨47, 0, .ro, 0, 0, 281474976710655⟩]⟩,
   ⟨0x500020, 64, 0, 1, 0, 1, .dev, true, [⟨43, 0, .ro, 0, 0, 17592186044415⟩]⟩,
   ⟨0x500100, 64, 0, 1, 0, 1, .dev, false, [⟨63, 0, .ro, 0, 0, 18446744073709551615⟩]⟩,
   ⟨0x500108, 64, 0, 1, 0, 1, .dev, false, [⟨63, 0, .ro, 0, 0, 18446744073709551615⟩]⟩,
   ⟨0x500110, 64, 0, 1, 0, 1, .dev, false, [⟨63, 0, .ro, 0, 0, 18446744073709551615⟩]⟩,
   ⟨0x500118, 64, 0, 1, 0, 1, .dev, false, [⟨63, 0, .ro, 0, 0, 18446744073709551615⟩]⟩]

/-- Rows of the register tables of R263. -/
def regRows5R263_1 : List RegDef :=
  [⟨0x500120, 64, 0, 1, 0, 1, .dev, false, [⟨63, 0, .ro, 0, 0, 18446744073709551615⟩]⟩,
   ⟨0x500128, 64, 0, 1, 0, 1, .dev, false, [⟨63, 0, .ro, 0, 0, 18446744073709551615⟩]⟩,
   ⟨0x500130, 64, 0, 1, 0, 1, .dev, false, [⟨63, 0, .ro, 0, 0, 18446744073709551615⟩]⟩,
   ⟨0x500138, 64, 0, 1, 0, 1, .dev, false, [⟨63, 0, .ro, 0, 0, 18446744073709551615⟩]⟩,
   ⟨0x500140, 64, 0, 1, 0, 1, .dev, false, [⟨63, 0, .ro, 0, 0, 18446744073709551615⟩]⟩,
   ⟨0x500148, 64, 0, 1, 0, 1, .dev, false, [⟨63, 0, .ro, 0, 0, 18446744073709551615⟩]⟩,
   ⟨0x500150, 64, 0, 1, 0, 1, .dev, false, [⟨63, 0, .ro, 0, 0, 18446744073709551615⟩]⟩,
   ⟨0x500158, 64, 0, 1, 0, 1, .dev, false, [⟨63, 0, .ro, 0, 0, 18446744073709551615⟩]⟩,
   ⟨0x500160, 64, 0, 1, 0, 1, .dev, false, [⟨63, 0, .ro, 0, 0, 18446744073709551615⟩]⟩,
   ⟨0x510000, 32, 64, 32, 0, 1, .dev, true, [⟨17, 8, .ro, 0, 0, 1023⟩, ⟨1, 1, .ro, 0, 0, 1⟩, ⟨0, 0, .ro, 0, 0, 1⟩]⟩,
   ⟨0x510008, 64, 64, 32, 0, 1, .dev, false, [⟨63, 0, .ro, 0, 0, 18446744073709551615⟩]⟩,
   ⟨0x510010, 64, 64, 32, 0, 1, .dev, false, [⟨63, 0, .ro, 0, 0, 18446744073709551615⟩]⟩]

/-- Rows of the register tables of R263. -/
def regRows5R263_2 : List RegDef :=
  [⟨0x510018, 64, 64, 32, 0, 1, .dev, false, [⟨63, 0, .ro, 0, 0, 18446744073709551615⟩]⟩]

/-- Rows of the register tables of R202. -/
def regRows5R202_0 : List RegDef :=
  [⟨0x580000, 32, 64, 128, 0, 1, .dev, false, [⟨9, 8, .ro, 0, 0, 3⟩, ⟨7, 3, .ro, 0, 0, 31⟩, ⟨0, 0, .ro, 0, 0, 1⟩]⟩,
   ⟨0x580008, 64, 64, 128, 0, 1, .dev, false, [⟨63, 0, .ro, 0, 0, 18446744073709551615⟩]⟩,
   ⟨0x580010, 64, 64, 128, 0, 1, .dev, false, [⟨63, 0, .ro, 0, 0, 18446744073709551615⟩]⟩,
   ⟨0x580018, 64, 64, 128, 0, 1, .dev, false, [⟨63, 0, .ro, 0, 0, 18446744073709551615⟩]⟩,
   ⟨0x580020, 64, 64, 128, 0, 1, .dev, false, [⟨63, 0, .ro, 0, 0, 18446744073709551615⟩]⟩,
   ⟨0x580028, 64, 64, 128, 0, 1, .dev, false, [⟨63, 0, .ro, 0, 0, 18446744073709551615⟩]⟩,
   ⟨0x5c0000, 32, 64, 32, 0, 1, .dev, true, [⟨1, 1, .ro, 0, 0, 1⟩, ⟨0, 0, .ro, 0, 0, 1⟩]⟩,
   ⟨0x5c0008, 64, 64, 32, 0, 1, .dev, false, [⟨63, 0, .ro, 0, 0, 18446744073709551615⟩]⟩,
   ⟨0x5c0010, 64, 64, 32, 0, 1, .dev, false, [⟨63, 0, .ro, 0, 0, 18446744073709551615⟩]⟩,
   ⟨0x5c0018, 64, 64, 32, 0, 1, .dev, false, [⟨63, 0, .ro, 0, 0, 18446744073709551615⟩]⟩,
   ⟨0x5c0020, 64, 64, 32, 0, 1, .dev, false, [⟨63, 0, .ro, 0, 0, 18446744073709551615⟩]⟩,
   ⟨0x5c0028, 64, 64, 32, 0, 1, .dev, false, [⟨63, 0, .ro, 0, 0, 18446744073709551615⟩]⟩]

/-- Rows of the register tables of R373. -/
def regRows6R373_0 : List RegDef :=
  [⟨0x600000, 32, 0, 1, 0, 1, .dev, true, [⟨12, 12, .ro, 0, 0, 1⟩, ⟨11, 8, .ro, 0, 0, 15⟩, ⟨7, 0, .ro, 0, 0, 255⟩]⟩,
   ⟨0x600004, 32, 0, 1, 0, 1, .dev, false, [⟨4, 0, .rw, 16, 1, 16⟩]⟩,
   ⟨0x600008, 32, 0, 1, 0, 1, .dev, false, [⟨28, 26, .rw, 7, 1, 7⟩, ⟨25, 16, .rw, 40, 10, 1000⟩, ⟨9, 0, .rw, 20, 5, 1000⟩]⟩,
   ⟨0x60000c, 32, 0, 1, 0, 1, .dev, false, [⟨13, 0, .rw, 500, 50, 10000⟩]⟩,
   ⟨0x600010, 32, 0, 1, 0, 1, .dev, false, [⟨31, 31, .rw, 1, 0, 1⟩, ⟨24, 16, .rw, 50, 0, 511⟩, ⟨8, 0, .rw, 0, 0, 511⟩]⟩,
   ⟨0x600014, 32, 4, 3, 0, 1, .dev, false, [⟨31, 31, .rw, 0, 0, 1⟩, ⟨24, 16, .rw, 0, 0, 511⟩, ⟨8, 0, .rw, 0, 0, 511⟩]⟩,
   ⟨0x601000, 32, 256, 8, 0, 1, .dev, true, [⟨31, 28, .ro, 0, 0, 15⟩, ⟨27, 24, .ro, 0, 0, 15⟩, ⟨23, 20, .ro, 0, 0, 15⟩, ⟨19, 16, .ro, 0, 0, 15⟩, ⟨15, 8, .ro, 0, 0, 255⟩, ⟨5, 4, .ro, 0, 0, 3⟩, ⟨3, 0, .ro, 0, 0, 15⟩]⟩,
   ⟨0x601004, 32, 256, 8, 0, 1, .dev, false, [⟨0, 0, .wo, 0, 0, 1⟩]⟩,
   ⟨0x601008, 32, 256, 8, 0, 1, .dev, true, [⟨31, 0, .ro, 0, 0, 4294967295⟩]⟩,
   ⟨0x601010, 64, 256, 8, 0, 1, .dev, false, [⟨63, 0, .ro, 0, 0, 18446744073709551615⟩]⟩,
   ⟨0x601018, 64, 256, 8, 0, 1, .dev, false, [⟨63, 0, .ro, 0, 0, 18446744073709551615⟩]⟩,
   ⟨0x601020, 64, 256, 8, 0, 1, .dev, false, [⟨63, 0, .ro, 0, 0, 18446744073709551615⟩]⟩]

/-- Rows of the register tables of R373. -/
def regRows6R373_1 : List RegDef :=
  [⟨0x601028, 64, 256, 8, 0, 1, .dev, false, [⟨63, 0, .ro, 0, 0, 18446744073709551615⟩]⟩,
   ⟨0x601030, 64, 256, 8, 0, 1, .dev, false, [⟨63, 0, .ro, 0, 0, 18446744073709551615⟩]⟩,
   ⟨0x601038, 64, 256, 8, 0, 1, .dev, false, [⟨63, 0, .ro, 0, 0, 18446744073709551615⟩]⟩,
   ⟨0x601040, 64, 256, 8, 0, 1, .dev, false, [⟨63, 0, .ro, 0, 0, 18446744073709551615⟩]⟩,
   ⟨0x601048, 64, 256, 8, 0, 1, .dev, false, [⟨63, 0, .ro, 0, 0, 18446744073709551615⟩]⟩,
   ⟨0x601050, 64, 256, 8, 0, 1, .dev, false, [⟨63, 0, .ro, 0, 0, 18446744073709551615⟩]⟩,
   ⟨0x601058, 64, 256, 8, 0, 1, .dev, false, [⟨63, 0, .ro, 0, 0, 18446744073709551615⟩]⟩,
   ⟨0x602000, 32, 32, 32, 0, 1, .dev, true, [⟨15, 8, .ro, 0, 0, 255⟩, ⟨1, 0, .ro, 0, 0, 3⟩]⟩,
   ⟨0x602008, 64, 32, 32, 0, 1, .dev, false, [⟨63, 0, .ro, 0, 0, 18446744073709551615⟩]⟩,
   ⟨0x602010, 64, 32, 32, 0, 1, .dev, false, [⟨63, 0, .ro, 0, 0, 18446744073709551615⟩]⟩,
   ⟨0x603000, 64, 0, 1, 0, 1, .dev, false, [⟨63, 0, .ro, 0, 0, 18446744073709551615⟩]⟩,
   ⟨0x603008, 64, 0, 1, 0, 1, .dev, false, [⟨63, 0, .ro, 0, 0, 18446744073709551615⟩]⟩]

/-- Rows of the register tables of R373. -/
def regRows6R373_2 : List RegDef :=
  [⟨0x603010, 64, 0, 1, 0, 1, .dev, false, [⟨63, 0, .ro, 0, 0, 18446744073709551615⟩]⟩,
   ⟨0x603018, 64, 0, 1, 0, 1, .dev, false, [⟨63, 0, .ro, 0, 0, 18446744073709551615⟩]⟩,
   ⟨0x603020, 64, 0, 1, 0, 1, .dev, false, [⟨63, 0, .ro, 0, 0, 18446744073709551615⟩]⟩,
   ⟨0x603028, 64, 0, 1, 0, 1, .dev, false, [⟨63, 0, .ro, 0, 0, 18446744073709551615⟩]⟩,
   ⟨0x603030, 64, 0, 1, 0, 1, .dev, false, [⟨63, 0, .ro, 0, 0, 18446744073709551615⟩]⟩,
   ⟨0x603038, 64, 0, 1, 0, 1, .dev, false, [⟨63, 0, .ro, 0, 0, 18446744073709551615⟩]⟩,
   ⟨0x603040, 64, 0, 1, 0, 1, .dev, false, [⟨63, 0, .ro, 0, 0, 18446744073709551615⟩]⟩,
   ⟨0x603048, 64, 0, 1, 0, 1, .dev, false, [⟨63, 0, .ro, 0, 0, 18446744073709551615⟩]⟩,
   ⟨0x603050, 64, 0, 1, 0, 1, .dev, false, [⟨63, 0, .ro, 0, 0, 18446744073709551615⟩]⟩]

/-- Rows of the register tables of R374. -/
def regRows7R374_0 : List RegDef :=
  [⟨0x700000, 32, 0, 1, 0, 1, .dev, true, [⟨28, 16, .ro, 0, 0, 8191⟩, ⟨14, 0, .ro, 0, 0, 32767⟩]⟩,
   ⟨0x700004, 32, 0, 1, 0, 1, .dev, true, [⟨25, 16, .ro, 0, 0, 1023⟩, ⟨9, 0, .ro, 0, 0, 1023⟩]⟩,
   ⟨0x700008, 32, 0, 1, 0, 1, .dev, true, [⟨25, 16, .ro, 0, 0, 1023⟩, ⟨9, 0, .ro, 0, 0, 1023⟩]⟩,
   ⟨0x70000c, 32, 0, 1, 0, 1, .dev, false, [⟨7, 0, .rw, 20, 5, 100⟩]⟩,
   ⟨0x700010, 32, 0, 1, 0, 1, .dev, false, [⟨19, 0, .rw, 0, 0, 1048575⟩]⟩,
   ⟨0x700014, 32, 0, 1, 0, 1, .dev, false, [⟨31, 0, .rc, 0, 0, 4294967295⟩]⟩,
   ⟨0x700100, 32, 4, 16, 0, 1, .dev, false, [⟨31, 0, .ro, 0, 0, 4294967295⟩]⟩,
   ⟨0x700200, 64, 0, 1, 0, 1, .dev, false, [⟨63, 0, .ro, 0, 0, 18446744073709551615⟩]⟩,
   ⟨0x700208, 64, 0, 1, 0, 1, .dev, false, [⟨63, 0, .ro, 0, 0, 18446744073709551615⟩]⟩,
   ⟨0x700210, 64, 0, 1, 0, 1, .dev, false, [⟨63, 0, .ro, 0, 0, 18446744073709551615⟩]⟩,
   ⟨0x700218, 64, 0, 1, 0, 1, .dev, false, [⟨63, 0, .ro, 0, 0, 18446744073709551615⟩]⟩,
   ⟨0x700220, 64, 0, 1, 0, 1, .dev, false, [⟨63, 0, .ro, 0, 0, 18446744073709551615⟩]⟩]

/-- Rows of the register tables of R374. -/
def regRows7R374_1 : List RegDef :=
  [⟨0x700228, 64, 0, 1, 0, 1, .dev, false, [⟨63, 0, .ro, 0, 0, 18446744073709551615⟩]⟩,
   ⟨0x700230, 64, 0, 1, 0, 1, .dev, false, [⟨63, 0, .ro, 0, 0, 18446744073709551615⟩]⟩,
   ⟨0x700238, 64, 0, 1, 0, 1, .dev, false, [⟨63, 0, .ro, 0, 0, 18446744073709551615⟩]⟩]

/-- Rows of the register tables of R397. -/
def regRows8R397_0 : List RegDef :=
  [⟨0x800000, 32, 0, 1, 0, 1, .dev, true, [⟨31, 16, .ro, 0, 0, 65535⟩, ⟨0, 0, .ro, 0, 0, 1⟩]⟩,
   ⟨0x800004, 32, 0, 1, 0, 1, .dev, false, [⟨6, 0, .rw, 70, 20, 80⟩]⟩,
   ⟨0x800008, 32, 0, 1, 0, 1, .dev, false, [⟨9, 0, .rw, 1, 1, 1000⟩]⟩,
   ⟨0x80000c, 32, 0, 1, 0, 1, .dev, true, [⟨25, 16, .ro, 0, 0, 1023⟩, ⟨9, 0, .ro, 0, 0, 1023⟩]⟩,
   ⟨0x800010, 32, 0, 1, 0, 1, .dev, false, [⟨8, 0, .rc, 0, 0, 511⟩]⟩,
   ⟨0x800014, 32, 0, 1, 0, 1, .dev, true, [⟨31, 31, .ro, 0, 0, 1⟩, ⟨11, 0, .ro, 0, 0, 4095⟩]⟩,
   ⟨0x810000, 32, 4, 1024, 0, 1, .fn, false, [⟨31, 31, .rw, 0, 0, 1⟩, ⟨19, 0, .rw, 0, 0, 1048575⟩]⟩,
   ⟨0x800100, 64, 0, 1, 0, 1, .dev, false, [⟨63, 0, .ro, 0, 0, 18446744073709551615⟩]⟩,
   ⟨0x800108, 64, 0, 1, 0, 1, .dev, false, [⟨63, 0, .ro, 0, 0, 18446744073709551615⟩]⟩,
   ⟨0x800110, 64, 0, 1, 0, 1, .dev, false, [⟨63, 0, .ro, 0, 0, 18446744073709551615⟩]⟩,
   ⟨0x800118, 64, 0, 1, 0, 1, .dev, false, [⟨63, 0, .ro, 0, 0, 18446744073709551615⟩]⟩,
   ⟨0x800120, 64, 0, 1, 0, 1, .dev, false, [⟨63, 0, .ro, 0, 0, 18446744073709551615⟩]⟩]

/-- Rows of the register tables of R397. -/
def regRows8R397_1 : List RegDef :=
  [⟨0x800128, 64, 0, 1, 0, 1, .dev, false, [⟨63, 0, .ro, 0, 0, 18446744073709551615⟩]⟩,
   ⟨0x800130, 64, 0, 1, 0, 1, .dev, false, [⟨63, 0, .ro, 0, 0, 18446744073709551615⟩]⟩,
   ⟨0x800138, 64, 0, 1, 0, 1, .dev, false, [⟨63, 0, .ro, 0, 0, 18446744073709551615⟩]⟩,
   ⟨0x800140, 64, 0, 1, 0, 1, .dev, false, [⟨63, 0, .ro, 0, 0, 18446744073709551615⟩]⟩,
   ⟨0x800148, 64, 0, 1, 0, 1, .dev, false, [⟨63, 0, .ro, 0, 0, 18446744073709551615⟩]⟩,
   ⟨0x800150, 64, 0, 1, 0, 1, .dev, false, [⟨63, 0, .ro, 0, 0, 18446744073709551615⟩]⟩,
   ⟨0x800158, 64, 0, 1, 0, 1, .dev, false, [⟨63, 0, .ro, 0, 0, 18446744073709551615⟩]⟩,
   ⟨0x800160, 64, 0, 1, 0, 1, .dev, false, [⟨63, 0, .ro, 0, 0, 18446744073709551615⟩]⟩,
   ⟨0x800168, 64, 0, 1, 0, 1, .dev, false, [⟨63, 0, .ro, 0, 0, 18446744073709551615⟩]⟩,
   ⟨0x800170, 64, 0, 1, 0, 1, .dev, false, [⟨63, 0, .ro, 0, 0, 18446744073709551615⟩]⟩,
   ⟨0x800178, 64, 0, 1, 0, 1, .dev, false, [⟨63, 0, .ro, 0, 0, 18446744073709551615⟩]⟩]

/-- Rows of the register tables of R419. -/
def regRows9R419_0 : List RegDef :=
  [⟨0x900000, 32, 0, 1, 0, 1, .dev, true, [⟨31, 31, .ro, 0, 0, 1⟩, ⟨30, 30, .ro, 0, 0, 1⟩, ⟨27, 16, .ro, 0, 0, 4095⟩, ⟨4, 0, .ro, 0, 0, 31⟩]⟩,
   ⟨0x900004, 32, 0, 1, 0, 1, .dev, true, [⟨31, 0, .ro, 0, 0, 4294967295⟩]⟩,
   ⟨0x900008, 32, 0, 1, 0, 1, .dev, true, [⟨31, 0, .ro, 0, 0, 4294967295⟩]⟩,
   ⟨0x90000c, 32, 0, 1, 0, 1, .dev, false, [⟨9, 0, .rw, 50, 1, 1000⟩]⟩,
   ⟨0x900010, 32, 0, 1, 0, 1, .dev, true, [⟨31, 0, .ro, 0, 0, 4294967295⟩]⟩,
   ⟨0x900014, 32, 0, 1, 0, 1, .dev, false, [⟨0, 0, .wo, 0, 0, 1⟩]⟩,
   ⟨0x900018, 32, 0, 1, 0, 1, .dev, true, [⟨30, 16, .ro, 0, 0, 32767⟩, ⟨11, 0, .ro, 0, 0, 4095⟩]⟩,
   ⟨0x900020, 64, 0, 1, 0, 1, .dev, true, [⟨63, 48, .ro, 0, 0, 65535⟩, ⟨47, 36, .ro, 0, 0, 4095⟩, ⟨35, 33, .ro, 0, 0, 7⟩, ⟨32, 32, .ro, 0, 0, 1⟩, ⟨31, 19, .ro, 0, 0, 8191⟩, ⟨18, 8, .ro, 0, 0, 2047⟩, ⟨6, 0, .ro, 0, 0, 127⟩]⟩,
   ⟨0x900040, 32, 0, 1, 0, 1, .dev, false, [⟨19, 0, .rw, 0, 0, 1048575⟩]⟩,
   ⟨0x900048, 64, 0, 1, 0, 1, .dev, false, [⟨63, 32, .ro, 0, 0, 4294967295⟩, ⟨31, 31, .ro, 0, 0, 1⟩, ⟨30, 30, .ro, 0, 0, 1⟩, ⟨23, 0, .ro, 0, 0, 16777215⟩]⟩,
   ⟨0x900050, 32, 0, 1, 0, 1, .dev, false, [⟨24, 0, .ro, 0, 0, 33554431⟩]⟩,
   ⟨0x900100, 64, 0, 1, 0, 1, .dev, false, [⟨63, 0, .ro, 0, 0, 18446744073709551615⟩]⟩]

/-- Rows of the register tables of R419. -/
def regRows9R419_1 : List RegDef :=
  [⟨0x900108, 64, 0, 1, 0, 1, .dev, false, [⟨63, 0, .ro, 0, 0, 18446744073709551615⟩]⟩,
   ⟨0x900110, 64, 0, 1, 0, 1, .dev, false, [⟨63, 0, .ro, 0, 0, 18446744073709551615⟩]⟩,
   ⟨0x900118, 64, 0, 1, 0, 1, .dev, false, [⟨63, 0, .ro, 0, 0, 18446744073709551615⟩]⟩,
   ⟨0x900120, 64, 0, 1, 0, 1, .dev, false, [⟨63, 0, .ro, 0, 0, 18446744073709551615⟩]⟩,
   ⟨0x900128, 64, 0, 1, 0, 1, .dev, false, [⟨63, 0, .ro, 0, 0, 18446744073709551615⟩]⟩,
   ⟨0x900130, 64, 0, 1, 0, 1, .dev, false, [⟨63, 0, .ro, 0, 0, 18446744073709551615⟩]⟩,
   ⟨0x900138, 64, 0, 1, 0, 1, .dev, false, [⟨63, 0, .ro, 0, 0, 18446744073709551615⟩]⟩,
   ⟨0x910000, 32, 128, 17, 4, 16, .dev, false, [⟨31, 0, .ro, 0, 0, 4294967295⟩]⟩,
   ⟨0x910040, 32, 128, 17, 4, 16, .dev, false, [⟨31, 0, .ro, 0, 0, 4294967295⟩]⟩,
   ⟨0x920000, 32, 32, 256, 0, 1, .dev, true, [⟨30, 16, .ro, 0, 0, 32767⟩, ⟨12, 8, .ro, 0, 0, 31⟩, ⟨7, 0, .ro, 0, 0, 255⟩]⟩,
   ⟨0x920008, 64, 32, 256, 0, 1, .dev, false, [⟨63, 0, .ro, 0, 0, 18446744073709551615⟩]⟩,
   ⟨0x920010, 64, 32, 256, 0, 1, .dev, false, [⟨63, 0, .ro, 0, 0, 18446744073709551615⟩]⟩]

/-- Rows of the register tables of R419. -/
def regRows9R419_2 : List RegDef :=
  [⟨0x940000, 32, 64, 4096, 0, 1, .dev, true, [⟨30, 16, .ro, 0, 0, 32767⟩, ⟨15, 8, .ro, 0, 0, 255⟩, ⟨2, 2, .ro, 0, 0, 1⟩, ⟨1, 1, .ro, 0, 0, 1⟩, ⟨0, 0, .ro, 0, 0, 1⟩]⟩,
   ⟨0x940008, 64, 64, 4096, 0, 1, .dev, true, [⟨63, 0, .ro, 0, 0, 18446744073709551615⟩]⟩,
   ⟨0x940010, 32, 64, 4096, 0, 1, .dev, true, [⟨31, 0, .ro, 0, 0, 4294967295⟩]⟩,
   ⟨0x940014, 32, 64, 4096, 0, 1, .dev, true, [⟨10, 0, .ro, 0, 0, 2047⟩]⟩]

/-- Rows of the register tables of R306. -/
def regRows9R306_0 : List RegDef :=
  [⟨0x980000, 32, 0, 1, 0, 1, .dev, true, [⟨29, 16, .ro, 0, 0, 16383⟩, ⟨10, 0, .ro, 0, 0, 2047⟩]⟩,
   ⟨0x980004, 32, 0, 1, 0, 1, .dev, false, [⟨9, 0, .rw, 0, 0, 1023⟩]⟩,
   ⟨0x980008, 64, 0, 1, 0, 1, .dev, false, [⟨63, 44, .ro, 0, 0, 1048575⟩, ⟨43, 32, .ro, 0, 0, 4095⟩, ⟨31, 17, .ro, 0, 0, 32767⟩, ⟨16, 10, .ro, 0, 0, 127⟩, ⟨9, 7, .ro, 0, 0, 7⟩, ⟨6, 4, .ro, 0, 0, 7⟩, ⟨3, 3, .ro, 0, 0, 1⟩, ⟨1, 0, .ro, 0, 0, 3⟩]⟩,
   ⟨0x980010, 64, 0, 1, 0, 1, .dev, false, [⟨63, 0, .ro, 0, 0, 18446744073709551615⟩]⟩,
   ⟨0x980018, 64, 0, 1, 0, 1, .dev, false, [⟨63, 0, .ro, 0, 0, 18446744073709551615⟩]⟩,
   ⟨0x980020, 64, 0, 1, 0, 1, .dev, false, [⟨63, 0, .ro, 0, 0, 18446744073709551615⟩]⟩,
   ⟨0x980028, 64, 0, 1, 0, 1, .dev, false, [⟨63, 0, .ro, 0, 0, 18446744073709551615⟩]⟩,
   ⟨0x980030, 64, 0, 1, 0, 1, .dev, false, [⟨63, 0, .ro, 0, 0, 18446744073709551615⟩]⟩,
   ⟨0x980038, 64, 0, 1, 0, 1, .dev, false, [⟨63, 0, .ro, 0, 0, 18446744073709551615⟩]⟩,
   ⟨0x980040, 64, 0, 1, 0, 1, .dev, false, [⟨63, 0, .ro, 0, 0, 18446744073709551615⟩]⟩,
   ⟨0x980048, 64, 0, 1, 0, 1, .dev, false, [⟨63, 0, .ro, 0, 0, 18446744073709551615⟩]⟩,
   ⟨0x980050, 64, 0, 1, 0, 1, .dev, false, [⟨63, 0, .ro, 0, 0, 18446744073709551615⟩]⟩]

/-- Rows of the register tables of R306. -/
def regRows9R306_1 : List RegDef :=
  [⟨0x980058, 64, 0, 1, 0, 1, .dev, false, [⟨63, 0, .ro, 0, 0, 18446744073709551615⟩]⟩,
   ⟨0x980060, 64, 0, 1, 0, 1, .dev, false, [⟨63, 0, .ro, 0, 0, 18446744073709551615⟩]⟩,
   ⟨0x980068, 64, 0, 1, 0, 1, .dev, false, [⟨63, 0, .ro, 0, 0, 18446744073709551615⟩]⟩,
   ⟨0x980070, 64, 0, 1, 0, 1, .dev, false, [⟨63, 0, .ro, 0, 0, 18446744073709551615⟩]⟩,
   ⟨0x980078, 64, 0, 1, 0, 1, .dev, false, [⟨63, 0, .ro, 0, 0, 18446744073709551615⟩]⟩,
   ⟨0x980080, 64, 0, 1, 0, 1, .dev, false, [⟨63, 0, .ro, 0, 0, 18446744073709551615⟩]⟩]

/-- Rows of the register tables of R454. -/
def regRowsAR454_0 : List RegDef :=
  [⟨0xa00000, 32, 0, 1, 0, 1, .dev, true, [⟨15, 8, .rw1c, 0, 0, 255⟩, ⟨3, 3, .ro, 0, 0, 1⟩, ⟨2, 2, .ro, 0, 0, 1⟩, ⟨1, 1, .rw1c, 0, 0, 1⟩, ⟨0, 0, .rw1c, 0, 0, 1⟩]⟩,
   ⟨0xa00004, 32, 0, 1, 0, 1, .dev, false, [⟨23, 0, .ro, 0, 0, 16777215⟩]⟩,
   ⟨0xa00010, 32, 0, 1, 0, 1, .dev, false, [⟨27, 16, .rw, 60, 1, 3600⟩, ⟨7, 0, .rw, 4, 1, 255⟩]⟩,
   ⟨0xa00014, 32, 0, 1, 0, 1, .dev, false, [⟨27, 16, .rw, 60, 1, 3600⟩, ⟨7, 0, .rw, 16, 2, 255⟩]⟩,
   ⟨0xa00018, 32, 0, 1, 0, 1, .dev, false, [⟨23, 16, .rw, 24, 1, 168⟩, ⟨7, 0, .rw, 2, 1, 255⟩]⟩,
   ⟨0xa0001c, 32, 0, 1, 0, 1, .dev, false, [⟨27, 16, .rw, 600, 1, 3600⟩, ⟨7, 0, .rw, 8, 1, 255⟩]⟩,
   ⟨0xa00020, 32, 0, 1, 0, 1, .dev, false, [⟨7, 0, .rw, 16, 1, 255⟩]⟩,
   ⟨0xa00024, 32, 0, 1, 0, 1, .dev, false, [⟨9, 0, .rw, 100, 10, 1000⟩]⟩,
   ⟨0xa00028, 32, 0, 1, 0, 1, .dev, false, [⟨9, 0, .rw, 20, 1, 1000⟩]⟩,
   ⟨0xa0002c, 32, 0, 1, 0, 1, .dev, false, [⟨15, 0, .rw, 1000, 1, 60000⟩]⟩,
   ⟨0xa00030, 32, 0, 1, 0, 1, .dev, true, [⟨9, 0, .ro, 0, 0, 1023⟩]⟩,
   ⟨0xa00034, 32, 0, 1, 0, 1, .dev, false, [⟨9, 0, .rw, 0, 0, 1023⟩]⟩]

/-- Rows of the register tables of R454. -/
def regRowsAR454_1 : List RegDef :=
  [⟨0xa00040, 32, 4, 4, 0, 1, .dev, false, [⟨31, 31, .rw, 0, 0, 1⟩, ⟨19, 0, .rw, 0, 0, 1048575⟩]⟩,
   ⟨0xa00100, 32, 4, 16, 0, 1, .dev, false, [⟨31, 0, .ro, 0, 0, 4294967295⟩]⟩,
   ⟨0xa00200, 64, 0, 1, 0, 1, .dev, false, [⟨63, 0, .ro, 0, 0, 18446744073709551615⟩]⟩,
   ⟨0xa00208, 64, 0, 1, 0, 1, .dev, false, [⟨63, 0, .ro, 0, 0, 18446744073709551615⟩]⟩,
   ⟨0xa00210, 64, 0, 1, 0, 1, .dev, false, [⟨63, 0, .ro, 0, 0, 18446744073709551615⟩]⟩,
   ⟨0xa00218, 64, 0, 1, 0, 1, .dev, false, [⟨63, 0, .ro, 0, 0, 18446744073709551615⟩]⟩,
   ⟨0xa00220, 64, 0, 1, 0, 1, .dev, false, [⟨63, 0, .ro, 0, 0, 18446744073709551615⟩]⟩,
   ⟨0xa00228, 64, 0, 1, 0, 1, .dev, false, [⟨63, 0, .ro, 0, 0, 18446744073709551615⟩]⟩,
   ⟨0xa00230, 64, 0, 1, 0, 1, .dev, false, [⟨63, 0, .ro, 0, 0, 18446744073709551615⟩]⟩,
   ⟨0xa00238, 64, 0, 1, 0, 1, .dev, false, [⟨63, 0, .ro, 0, 0, 18446744073709551615⟩]⟩,
   ⟨0xa00240, 64, 0, 1, 0, 1, .dev, false, [⟨63, 0, .ro, 0, 0, 18446744073709551615⟩]⟩,
   ⟨0xa00248, 64, 0, 1, 0, 1, .dev, false, [⟨63, 0, .ro, 0, 0, 18446744073709551615⟩]⟩]

/-- Rows of the register tables of R455. -/
def regRowsBR455_0 : List RegDef :=
  [⟨0xb00000, 32, 0, 1, 0, 1, .dev, true, [⟨10, 8, .ro, 0, 0, 7⟩, ⟨4, 0, .ro, 0, 0, 31⟩]⟩,
   ⟨0xb00100, 64, 0, 1, 0, 1, .dev, false, [⟨63, 0, .ro, 0, 0, 18446744073709551615⟩]⟩,
   ⟨0xb00108, 64, 0, 1, 0, 1, .dev, false, [⟨63, 0, .ro, 0, 0, 18446744073709551615⟩]⟩,
   ⟨0xb00110, 64, 0, 1, 0, 1, .dev, false, [⟨63, 0, .ro, 0, 0, 18446744073709551615⟩]⟩,
   ⟨0xb00118, 64, 0, 1, 0, 1, .dev, false, [⟨63, 0, .ro, 0, 0, 18446744073709551615⟩]⟩,
   ⟨0xb00120, 64, 0, 1, 0, 1, .dev, false, [⟨63, 0, .ro, 0, 0, 18446744073709551615⟩]⟩,
   ⟨0xb00128, 64, 0, 1, 0, 1, .dev, false, [⟨63, 0, .ro, 0, 0, 18446744073709551615⟩]⟩,
   ⟨0xb00130, 64, 0, 1, 0, 1, .dev, false, [⟨63, 0, .ro, 0, 0, 18446744073709551615⟩]⟩,
   ⟨0xb00138, 64, 0, 1, 0, 1, .dev, false, [⟨63, 0, .ro, 0, 0, 18446744073709551615⟩]⟩,
   ⟨0xb00140, 64, 0, 1, 0, 1, .dev, false, [⟨63, 0, .ro, 0, 0, 18446744073709551615⟩]⟩,
   ⟨0xb00148, 64, 0, 1, 0, 1, .dev, false, [⟨63, 0, .ro, 0, 0, 18446744073709551615⟩]⟩]

/-- Rows of the register tables of R282. -/
def regRowsBR282_0 : List RegDef :=
  [⟨0xb80000, 32, 0, 1, 0, 1, .dev, false, [⟨13, 0, .rw, 200, 20, 10000⟩]⟩,
   ⟨0xb80004, 32, 0, 1, 0, 1, .dev, false, [⟨15, 0, .rw, 25, 1, 65535⟩]⟩,
   ⟨0xb80008, 32, 0, 1, 0, 1, .dev, false, [⟨31, 0, .rc, 0, 0, 4294967295⟩]⟩,
   ⟨0xb80010, 64, 0, 1, 0, 1, .dev, false, [⟨63, 0, .ro, 0, 0, 18446744073709551615⟩]⟩,
   ⟨0xb80018, 64, 0, 1, 0, 1, .dev, false, [⟨63, 0, .ro, 0, 0, 18446744073709551615⟩]⟩,
   ⟨0xb80020, 64, 0, 1, 0, 1, .dev, false, [⟨63, 0, .ro, 0, 0, 18446744073709551615⟩]⟩,
   ⟨0xb80028, 64, 0, 1, 0, 1, .dev, false, [⟨63, 0, .ro, 0, 0, 18446744073709551615⟩]⟩,
   ⟨0xb80030, 64, 0, 1, 0, 1, .dev, false, [⟨63, 0, .ro, 0, 0, 18446744073709551615⟩]⟩,
   ⟨0xb80038, 64, 0, 1, 0, 1, .dev, false, [⟨63, 0, .ro, 0, 0, 18446744073709551615⟩]⟩,
   ⟨0xb80040, 64, 0, 1, 0, 1, .dev, false, [⟨63, 0, .ro, 0, 0, 18446744073709551615⟩]⟩,
   ⟨0xb80048, 64, 0, 1, 0, 1, .dev, false, [⟨63, 0, .ro, 0, 0, 18446744073709551615⟩]⟩]

/-- Rows of the register tables of R482. -/
def regRowsCR482_0 : List RegDef :=
  [⟨0xc00000, 32, 0, 1, 0, 1, .dev, true, [⟨11, 8, .ro, 0, 0, 15⟩, ⟨7, 7, .ro, 0, 0, 1⟩, ⟨6, 6, .ro, 0, 0, 1⟩, ⟨5, 5, .ro, 0, 0, 1⟩, ⟨4, 4, .ro, 0, 0, 1⟩, ⟨3, 3, .ro, 0, 0, 1⟩, ⟨1, 0, .ro, 0, 0, 3⟩]⟩,
   ⟨0xc00008, 64, 0, 1, 0, 1, .dev, true, [⟨63, 0, .ro, 0, 0, 18446744073709551615⟩]⟩,
   ⟨0xc00010, 32, 0, 1, 0, 1, .dev, true, [⟨11, 0, .ro, 0, 0, 4095⟩]⟩,
   ⟨0xc00014, 32, 0, 1, 0, 1, .dev, true, [⟨8, 0, .ro, 0, 0, 511⟩]⟩,
   ⟨0xc00018, 32, 0, 1, 0, 1, .dev, true, [⟨8, 0, .ro, 0, 0, 511⟩]⟩,
   ⟨0xc0001c, 32, 0, 1, 0, 1, .dev, true, [⟨31, 0, .ro, 0, 0, 4294967295⟩]⟩,
   ⟨0xc00020, 32, 0, 1, 0, 1, .dev, true, [⟨10, 8, .ro, 0, 0, 7⟩, ⟨6, 4, .ro, 0, 0, 7⟩, ⟨2, 0, .ro, 0, 0, 7⟩]⟩,
   ⟨0xc00030, 32, 4, 3, 0, 1, .dev, true, [⟨31, 0, .ro, 0, 0, 4294967295⟩]⟩,
   ⟨0xc00040, 32, 0, 1, 0, 1, .dev, true, [⟨31, 16, .ro, 0, 0, 65535⟩, ⟨15, 0, .ro, 0, 0, 65535⟩]⟩,
   ⟨0xc10000, 32, 0, 1, 0, 1, .dev, true, [⟨27, 24, .ro, 0, 0, 15⟩, ⟨19, 16, .ro, 0, 0, 15⟩, ⟨5, 0, .ro, 0, 0, 63⟩]⟩,
   ⟨0xc10004, 32, 0, 1, 0, 1, .dev, true, [⟨31, 31, .ro, 0, 0, 1⟩, ⟨10, 8, .ro, 0, 0, 7⟩, ⟨0, 0, .ro, 0, 0, 1⟩]⟩,
   ⟨0xc10010, 32, 8, 4, 0, 1, .dev, true, [⟨31, 0, .ro, 0, 0, 4294967295⟩]⟩]

/-- Rows of the register tables of R482. -/
def regRowsCR482_1 : List RegDef :=
  [⟨0xc10014, 32, 8, 4, 0, 1, .dev, true, [⟨31, 31, .ro, 0, 0, 1⟩, ⟨30, 30, .ro, 0, 0, 1⟩, ⟨5, 0, .ro, 0, 0, 63⟩]⟩,
   ⟨0xc20000, 32, 0, 1, 0, 1, .dev, true, [⟨2, 2, .ro, 0, 0, 1⟩, ⟨1, 1, .ro, 0, 0, 1⟩, ⟨0, 0, .ro, 0, 0, 1⟩]⟩,
   ⟨0xc20004, 32, 0, 1, 0, 1, .dev, true, [⟨31, 0, .ro, 0, 0, 4294967295⟩]⟩,
   ⟨0xc20008, 32, 0, 1, 0, 1, .dev, true, [⟨31, 0, .ro, 0, 0, 4294967295⟩]⟩,
   ⟨0xc20010, 32, 4, 4, 0, 1, .dev, true, [⟨31, 0, .ro, 0, 0, 4294967295⟩]⟩,
   ⟨0xc20020, 64, 0, 1, 0, 1, .dev, false, [⟨63, 0, .ro, 0, 0, 18446744073709551615⟩]⟩,
   ⟨0xc20028, 64, 0, 1, 0, 1, .dev, false, [⟨63, 0, .ro, 0, 0, 18446744073709551615⟩]⟩,
   ⟨0xc20030, 32, 0, 1, 0, 1, .dev, false, [⟨31, 0, .ro, 0, 0, 4294967295⟩]⟩]

/-- Rows of the register tables of R482. -/
def regRowsDR482_0 : List RegDef :=
  [⟨0xd00000, 32, 0, 1, 0, 1, .dev, true, [⟨9, 8, .ro, 0, 0, 3⟩, ⟨4, 0, .ro, 0, 0, 31⟩]⟩,
   ⟨0xd00008, 64, 0, 1, 0, 1, .dev, true, [⟨63, 0, .ro, 0, 0, 18446744073709551615⟩]⟩,
   ⟨0xd00010, 32, 0, 1, 0, 1, .dev, true, [⟨31, 0, .ro, 0, 0, 4294967295⟩]⟩]

/-- Rows of the register tables of R524. -/
def regRowsDR524_0 : List RegDef :=
  [⟨0xd00100, 32, 0, 1, 0, 1, .dev, true, [⟨20, 16, .ro, 0, 0, 31⟩, ⟨3, 3, .rw1c, 0, 0, 1⟩, ⟨2, 2, .ro, 0, 0, 1⟩, ⟨1, 1, .ro, 0, 0, 1⟩, ⟨0, 0, .ro, 0, 0, 1⟩]⟩,
   ⟨0xd00104, 32, 0, 1, 0, 1, .dev, false, [⟨11, 0, .rw, 2400, 1000, 2400⟩]⟩,
   ⟨0xd00108, 32, 0, 1, 0, 1, .dev, false, [⟨12, 0, .ro, 0, 0, 8191⟩]⟩,
   ⟨0xd0010c, 32, 0, 1, 0, 1, .dev, false, [⟨4, 0, .rw, 8, 4, 16⟩]⟩,
   ⟨0xd00110, 32, 4, 4, 0, 1, .dev, false, [⟨9, 0, .ro, 750, 0, 1023⟩]⟩,
   ⟨0xd00120, 32, 4, 13, 0, 1, .dev, false, [⟨11, 0, .ro, 0, 0, 4095⟩]⟩,
   ⟨0xd00180, 64, 0, 1, 0, 1, .dev, false, [⟨63, 0, .ro, 0, 0, 18446744073709551615⟩]⟩,
   ⟨0xd00188, 64, 0, 1, 0, 1, .dev, false, [⟨63, 0, .ro, 0, 0, 18446744073709551615⟩]⟩,
   ⟨0xd00190, 64, 0, 1, 0, 1, .dev, false, [⟨63, 0, .ro, 0, 0, 18446744073709551615⟩]⟩,
   ⟨0xd00200, 32, 4, 22, 0, 1, .dev, false, [⟨31, 31, .ro, 0, 0, 1⟩, ⟨7, 0, .ro, 0, 0, 255⟩]⟩]

/-- Every row of the register map. -/
def regRows : List RegDef :=
  regRows0R507_0 ++
  regRows0R507_1 ++
  regRowsER507_0 ++
  regRows1R341_0 ++
  regRows1R341_1 ++
  regRows1R341_2 ++
  regRows2R235_0 ++
  regRows2R235_1 ++
  regRows3R153_0 ++
  regRows3R153_1 ++
  regRows3R125_0 ++
  regRows4R180_0 ++
  regRows4R180_1 ++
  regRows5R263_0 ++
  regRows5R263_1 ++
  regRows5R263_2 ++
  regRows5R202_0 ++
  regRows6R373_0 ++
  regRows6R373_1 ++
  regRows6R373_2 ++
  regRows7R374_0 ++
  regRows7R374_1 ++
  regRows8R397_0 ++
  regRows8R397_1 ++
  regRows9R419_0 ++
  regRows9R419_1 ++
  regRows9R419_2 ++
  regRows9R306_0 ++
  regRows9R306_1 ++
  regRowsAR454_0 ++
  regRowsAR454_1 ++
  regRowsBR455_0 ++
  regRowsBR282_0 ++
  regRowsCR482_0 ++
  regRowsCR482_1 ++
  regRowsDR482_0 ++
  regRowsDR524_0

/-- Whether `off` is the offset of a register of the row. -/
def regRowHas (d : RegDef) (off : Nat) : Bool :=
  d.base ≤ off &&
    (let x := off - d.base
     let n := if d.stride = 0 then 0 else x / d.stride
     let y := x - n * d.stride
     let i := if d.stride2 = 0 then 0 else y / d.stride2
     n < d.count && i < d.count2 && y == i * d.stride2)

/-- The row whose register lies at `off`. -/
def regRow? (off : Nat) : Option RegDef := regRows.find? fun d => regRowHas d off

/-- The stored reset value of a row's registers (R24). -/
def regRowReset (d : RegDef) : Nat := d.fields.foldl (fun v f => v + f.rst * 2 ^ f.lo) 0

/-- The stored reset value of the register at `off`; an address that no table lists is RSVD and reads 0 (R22). -/
def regReset (off : Nat) : Nat := match regRow? off with | some d => regRowReset d | none => 0

end Sys2Proof.Machine
end

