-- ==== Sys2Proof/Machine/StBase.lean ====
section
/-! DEFINITION. State of the control side: bring-up and trust, the configuration flash, error records, host rings,
PCIe functions, management paths, power and temperature, and what the device sends.

A field's docstring ends with its width, the rule of spec/ that names it and its reset value. -/

namespace Sys2Proof.Machine

/-! ## What the device sends -/

/-- A reply (R315) before it is laid out as bytes. -/
structure ReplyOut where
  /-- FORMAT, MINOR and OPCODE, copied from the command. -/
  format : Nat
  minor : Nat
  opcode : Nat
  /-- FLAGS bit 0 FINAL. -/
  final : Bool
  tag : Nat
  mid : Nat
  status : Nat
  detail : Nat
  result : Nat
  seq : Nat
deriving DecidableEq, Repr

/-- A command packet or message that the device starts itself (R307); HCRC and payload CRC follow from the bytes. `slack` is
what is left as the message joins its queue; each frame carries what is left when its own transmission begins (R36). -/
structure TxPkt where
  format : Nat
  minor : Nat
  opcode : Nat
  flags : Nat
  tag : Nat
  mid : Nat
  epoch : Nat
  pd : Nat
  offset : Nat
  p0 : Nat
  p1 : Nat
  p2 : Nat
  p3 : Nat
  slack : Nat
  seq : Nat
  payload : Bytes
deriving DecidableEq, Repr

/-- An error record: the vendor section of R445. -/
structure ErrRec where
  cause : Nat
  /-- CLASS: 0 CE, 1 UE, 2 FATAL. -/
  cls : Nat
  flags : Nat
  unitKind : Nat
  unit : Nat
  stepSeq : Nat
  tick : Nat
  address : Nat
  deviceId : Nat
  count : Nat
  c0 : Nat
  c1 : Nat
  c2 : Nat
  /-- The record serial of its Record ID (R444). -/
  serial : Nat
deriving DecidableEq, Repr

/-- The time that a packet has left, as its sender keeps it (R34 to R36): what was left at a tick, the link delay charged
beside the residence since that tick, and the least charge. -/
structure Budget where
  /-- Microseconds left at `since`; 0xFFFF_FFFF: no deadline applies. -/
  left : Nat := 0xFFFFFFFF
  since : Nat := 0
  /-- One-way delay of the link of arrival in microseconds. -/
  link : Nat := 0
  /-- 1 for a packet that the device forwards, which costs at least 1 microsecond (R35). -/
  least : Nat := 0
deriving DecidableEq, Repr

/-- The frames the link layer and the transport send of themselves (R349 to R363). -/
inductive FrameOut where
  /-- KEEPALIVE with its plane, transmit tick, echoed tick and hold time (R351). -/
  | keepalive (plane txTick echoTick hold : Nat)
  /-- ACK up to and including a PSN (R362). -/
  | ack (qp psn : Nat)
  /-- NAK with its code and PSN (R352). -/
  | nak (qp psn : Nat) (code : NakCode)
  /-- SACK (R358): message, first index, COMPLETE, NO_BUFFER, covered indices. -/
  | sack (qp msgId base : Nat) (complete noBuffer : Bool) (covered : List Nat)
  /-- A TC-L DATA frame sent or resent (R363): its RETX, and the SLACK_US that its packet carries (R36). -/
  | tcl (qp psn : Nat) (retx : Bool) (slack : Nat)
  /-- A TC-S DATA frame sent or resent (R359): PATH, PKT_COUNT and RETX, and the SLACK_US that its packet carries (R36). -/
  | tcs (qp msgId pktIdx path count : Nat) (retx : Bool) (slack : Nat)
deriving DecidableEq, Repr

/-- Output pins the spec names. -/
inductive Pin where
  /-- GPIO pin `n` (R469). -/
  | gpio (n : Nat)
  /-- THERMTRIP_N (R519). -/
  | thermtripN
deriving DecidableEq, Repr

/-- What leaves the device. The list of these in `State` is the model's own: it records what the spec says is sent,
posted, raised or driven, newest first, and no rule reads it back. -/
inductive Out where
  /-- A reply on a management path or the fabric (R315, R316). -/
  | reply (path : Path) (r : ReplyOut)
  /-- A response message (R318), whole. -/
  | response (path : Path) (opcode tag seq : Nat) (bytes : Bytes)
  /-- A packet the device starts on a QP or towards an association. -/
  | packet (path : Path) (pk : TxPkt)
  /-- A link or transport frame on a port, `none` where no port is UP: a frame without a body whole, and what stands before the
  body of a DATA frame (R349, R352). -/
  | frame (port : Option Nat) (f : FrameOut) (bytes : Bytes)
  /-- A write to host memory under a function's requester ID (R486). -/
  | hostWrite (fn addr : Nat) (bytes : Bytes)
  /-- An MSI-X message (R492). -/
  | msix (fn vector : Nat)
  /-- The 264-byte payload of an ERR.RECORD to a collector (R443, R444). -/
  | record (collector : Nat) (payload : Bytes)
  /-- A pin driven to a level. -/
  | pin (p : Pin) (high : Bool)
  /-- An AVSBus transaction setting VDD_CMPs (R512). -/
  | avs (stack mv : Nat)
  /-- Bytes written to the debug UART (R505). -/
  | uart (bytes : Bytes)
  /-- The data a register or window read returns; poisoned or not. -/
  | readData (bytes : Bytes) (poisoned : Bool)
  /-- Uncorrectable Internal Error through AER (R494). -/
  | aerInternal
  /-- An MCTP or I3C answer (R503). -/
  | mctp (bytes : Bytes)
  /-- An ICMPv6 message from the management port (R501). -/
  | icmp (dst : Nat) (bytes : Bytes)
  /-- A counter summary to a collector (R469). -/
  | telemetry (collector : Nat)
  /-- The TAP's selected instruction (R506). -/
  | jtag (i : JtagInstr)
deriving DecidableEq, Repr

/-! ## Bring-up, configuration and trust -/

/-- Bring-up and identity (chapter 17). -/
structure DevSt where
  /-- PKG_RESET_N held low (1 bit; R514; reset true). -/
  held : Bool := true
  /-- The package stays in ROM after a third failed lock or a rail out of its window (1 bit; R457, R514; reset false). -/
  inRom : Bool := false
  /-- The ROM is in firmware recovery (1 bit; R480; reset false). -/
  recovery : Bool := false
  /-- CLK_STATUS.ROOT_TRIES: root lock attempts less 1 (2 bits; R482; reset 0). -/
  rootTries : Nat := 0
  /-- CLK_STATUS.LOCK: root and divider running bits (5 bits; R482; reset 0). -/
  lock : Nat := 0
  /-- CLK_ROOT_LOCK_US (32 bits; R482; reset 0). -/
  lockUs : Nat := 0
  /-- DEV_STATUS.PHASE (4 bits; R507; reset 0). -/
  phase : Nat := 0
  /-- DEV_STATUS.READY (1 bit; R507; reset false). -/
  ready : Bool := false
  /-- DEV_STATUS.FATAL (1 bit; R507; reset false). -/
  fatal : Bool := false
  /-- CFG_STATUS.RESTRICT_CAUSE, 0 when not restricted (4 bits; R482; reset 0). -/
  restrict : Nat := 0
  /-- Causes of restricted mode that apply (list of codes 1-8; R63, R422; reset empty). -/
  causes : List Nat := []
  /-- DEV_STATUS.PERSONALITY: 0 none, 1 P, 2 G, 3 C (2 bits; R507; reset 0). -/
  personality : Nat := 0
  /-- DEV_STATUS.DEVICE_ID (12 bits; R507; reset 0xFFF). -/
  deviceId : Nat := 0xFFF
  /-- NUMERIC_MODES in force (32 bits; R99; reset 0). -/
  modes : Nat := 0
  /-- LIC_GRADE.VALID (1 bit; R482; reset false). -/
  gradeValid : Bool := false
  /-- DEV_ID.GRADE and LIC_GRADE.GRADE (2 bits; R507; reset 0). -/
  grade : Nat := 0
  /-- LIC_GRADE.ABSENT_STACK of the grade record (3 bits; R482; reset 0). -/
  gradeAbsent : Nat := 0
  /-- LIC_GRANTS.GRANTS: combined grants in force (6 bits; R482; reset 0). -/
  grants : Nat := 0
  /-- LIC_GRANTS.PORTS_MIN (4 bits; R482; reset 0). -/
  portsMin : Nat := 0
  /-- LIC_GRANTS.PORTS_MAX (4 bits; R482; reset 0). -/
  portsMax : Nat := 0
  /-- Content keys of the valid licences (list of 32-byte digests; R473; reset empty). -/
  contentKeys : List Bytes := []
  /-- Licence slots valid at this power-up (list of 0-3; R482; reset empty). -/
  licValid : List Nat := []
  /-- Licence slots installed since power-up (list of 0-3; R482; reset empty). -/
  licPending : List Nat := []
  /-- CFG_STATUS.SOURCE (2 bits; R482; reset 0). -/
  cfgSource : Nat := 0
  /-- CFG_STATUS.DEFAULTED (1 bit; R482; reset false). -/
  cfgDefaulted : Bool := false
  /-- CFG_STATUS.FIELD_DEFAULTED (1 bit; R482; reset false). -/
  fieldDefaulted : Bool := false
  /-- CFG_FIELD_LAST.OFFSET (12 bits; R482; reset 0). -/
  fieldLast : Nat := 0
  /-- The configuration record in force, defaults applied (4,096 bytes; R465; reset empty until step 5). -/
  cfg : Bytes := []
  /-- The record of CFG.READ P0 0 as it stands in the copy in use (4,096 bytes; R466; reset empty until step 5). -/
  cfgRaw : Bytes := []
  /-- CFG_CONFLICT.FEATURES (9 bits; R482; reset 0). -/
  conflict : Nat := 0
  /-- CFG_FEATURES_ON.FEATURES (9 bits; R482; reset 0). -/
  featuresOn : Nat := 0
  /-- The resource each running feature owns, feature number to pin or timer (list of pairs; R469; reset empty). -/
  owns : List (Nat × Nat) := []
  /-- CFG_FW_GEN (32 bits; R482; reset 0). -/
  fwGen : Nat := 0
  /-- CFG_FW_VER_0 to 2 (3 words of 32 bits; R482; reset 0). -/
  fwVer : List Nat := [0, 0, 0]
  /-- Running component images, trailer excluded (3 images; R478; reset empty). -/
  fwRunning : List Bytes := [[], [], []]
  /-- CFG_BOOT.FELLBACK_c (3 bits; R482; reset 0). -/
  fellback : Nat := 0
  /-- CFG_BOOT.SLOT as booted, bit c (3 bits; R482; reset 0). -/
  bootSlot : Nat := 0
  /-- SEC_STATUS.ID_VALID (1 bit; R482; reset false). -/
  idValid : Bool := false
  /-- The identity HSS public key (60 bytes; R475; reset empty). -/
  idKey : Bytes := []
  /-- SEC_STATUS.KEYGEN: a bottom tree is being generated (1 bit; R482; reset false). -/
  keygen : Bool := false
  /-- Ticks of the identity signatures of the last second (list of ticks; R477; reset empty). -/
  sigTicks : List Nat := []
  /-- The SEC.ATTEST whose signature waits for the bottom tree (R476; reset none). -/
  attest : Option Pkt := none
  /-- PERST# asserted (1 bit; R491; reset DESIGN CHOICE true, log 13). -/
  perst : Bool := true
  /-- GPIO pin driven low by FAULT_OUT (1 bit; R469; reset false). -/
  faultLow : Bool := false
  /-- THERMTRIP_N asserted and latched (1 bit; R519; reset false). -/
  thermtrip : Bool := false
  /-- Next tick at which TELEMETRY falls due (64 bits; R469; reset 0). -/
  telemetryDue : Nat := 0
  /-- Next tick at which FLASH_SCRUB falls due (64 bits; R469; reset 0). -/
  scrubDue : Nat := 0
deriving DecidableEq, Repr

/-- The command that holds the flash (R464), with what its completion needs. -/
inductive FlashJob where
  /-- CFG.WRITE of this record to copy A (`false`) or B; `again` once the repeat of R468 has been used. -/
  | cfg (toB : Bool) (record : Bytes) (again : Bool)
  /-- LIC.INSTALL of a licence to a slot. -/
  | lic (slot : Nat) (image : Bytes)
  /-- An FW.STAGE message in progress for a component: pieces placed so far, oldest first, with their offsets; its length once
  the packet with LAST has come; `complete` once verification runs. -/
  | stage (comp : Nat) (placed : List (Nat × Bytes)) (len : Option Nat) (complete : Bool)
  /-- FW.COMMIT of these components. -/
  | commit (comps : List Nat)
deriving DecidableEq, Repr

/-- The configuration flash (R462, R463). -/
structure FlashSt where
  /-- Firmware components of slots A then B, components 0-2 each (6 images; R462; reset DESIGN CHOICE erased, log 7). -/
  fw : List Bytes := [[], [], [], [], [], []]
  /-- Boot-control record: boot slot of each component, bit c (3 bits; R480; reset DESIGN CHOICE 0, log 7). -/
  bootSlot : Nat := 0
  /-- Boot-control record: CFG_BOOT.PENDING, commit pending, bit c (3 bits; R480; reset DESIGN CHOICE 0, log 7). -/
  pending : Nat := 0
  /-- Components with a verified staged image, bit c (3 bits; R480; reset DESIGN CHOICE 0, log 7). -/
  staged : Nat := 0
  /-- Configuration record copy A (4,096 bytes; R462; reset DESIGN CHOICE erased, log 7). -/
  cfgA : Bytes := []
  /-- Configuration record copy B (4,096 bytes; R462; reset DESIGN CHOICE erased, log 7). -/
  cfgB : Bytes := []
  /-- Grade record with its trailer (4 KiB; R471; reset DESIGN CHOICE erased, log 7). -/
  grade : Bytes := []
  /-- Licence slots 0-3 (16 KiB each; R462; reset DESIGN CHOICE erased, log 7). -/
  lic : List Bytes := [[], [], [], []]
  /-- Factory section of the defect map with its trailer (128 KiB; R471; reset DESIGN CHOICE erased, log 7). -/
  factory : Bytes := []
  /-- Field section: entries of 16 bytes in order (8,192 entries; R471; reset DESIGN CHOICE empty, log 7). -/
  field : List Bytes := []
  /-- CFG_STATUS.DEFECT_FULL (1 bit; R482; reset false). -/
  defectFull : Bool := false
  /-- PUF helper data (64 KiB; R462; reset DESIGN CHOICE erased, log 7). -/
  helper : Bytes := []
  /-- Identity state record: the bottom tree t it caches, none when it fails CHECK (R476; reset DESIGN CHOICE none, log 7). -/
  idTree : Option Nat := none
  /-- The eight monotonic counters (8 words of 32 bits; R463; reset DESIGN CHOICE 0, log 7). -/
  counters : List Nat := [0, 0, 0, 0, 0, 0, 0, 0]
  /-- The command that holds the flash (R464; reset none). -/
  holder : Option FlashJob := none
  /-- Path, and header fields for the final reply, of the holder (R464; reset none). -/
  holderPkt : Option Pkt := none
deriving DecidableEq, Repr

/-! ## Errors -/

/-- The last record sent for one cause and unit, and what R443 has withheld since. -/
structure RateEntry where
  cause : Nat
  unitKind : Nat
  unit : Nat
  lastTick : Nat
  withheld : Nat
deriving DecidableEq, Repr

/-- Error reporting and the control-plane restart (chapter 16). -/
structure ErrSt where
  /-- The log: vendor sections by index (1,024 entries; R446; reset empty). -/
  log : Tab ErrRec := []
  /-- ERR_LOG_HEAD.NEXT (10 bits; R454; reset 0). -/
  head : Nat := 0
  /-- ERR_STATUS.LOG_WRAP (1 bit; R454; reset false). -/
  wrap : Bool := false
  /-- ERR_STATUS.REG_RSVD_WR (1 bit; R454; reset false). -/
  rsvdWr : Bool := false
  /-- ERR_STATUS.CP_HUNG (8 bits; R454; reset 0). -/
  cpHung : Nat := 0
  /-- ERR_STATUS.CP_RESTARTING (1 bit; R454; reset false). -/
  restarting : Bool := false
  /-- Cause of the restart in progress: 1 watchdog, 2 SYS.RESTART, 3 host (2 bits; R422; reset 0). -/
  restartCause : Nat := 0
  /-- CLK_MGT tick at which the restart began (64 bits; R449; reset 0). -/
  restartAt : Nat := 0
  /-- The management controller is restarting (1 bit; R453; reset false). -/
  mgtDown : Bool := false
  /-- Records logged while the management controller restarts, oldest first (list of records; R453; reset empty). -/
  heldRecs : List ErrRec := []
  /-- Record serial of the next record (56 bits; R444; reset 1). -/
  serial : Nat := 1
  /-- Rate limiting per cause and unit (list of entries; R443; reset empty). -/
  rate : List RateEntry := []
  /-- Core corrected errors: slot to event times in ms, newest first (list per slot; R424; reset empty). -/
  coreHist : Tab (List Nat) := []
  /-- Core corrected errors since the last passed sentinel test (list per slot; R425; reset empty). -/
  coreSince : Tab (List Nat) := []
  /-- HBM3E row corrected errors: row DPA to event times in ms (list per row; R424; reset empty). -/
  rowHist : Tab (List Nat) := []
  /-- Lane retrains: lane to event times in ms (list per lane; R424; reset empty). -/
  laneHist : Tab (List Nat) := []
  /-- Internal FIFOs whose overrun bit is set: place and FIFO index (list; R432; reset empty). -/
  fifoOvr : List (FifoPlace × Nat) := []
  /-- Commands answered ST_PENDING that a restart has ended: OPCODE and packet, to be answered ST_BUSY at its end (list; R452;
  reset empty). -/
  owed : List (Nat × Pkt) := []
deriving DecidableEq, Repr

/-! ## Host rings and PCIe -/

/-- A submission ring (R334, R335, R338 to R341). -/
structure SqRing where
  /-- CMD_SQ_STATUS.STATE: 0 DISABLED, 1 ACTIVE, 2 ERROR (2 bits; R341; reset 0). -/
  state : Nat := 0
  /-- CMD_SQ_STATUS.HEAD (16 bits; R341; reset 0). -/
  head : Nat := 0
  /-- CMD_SQ_TAIL.TAIL: last tail accepted (16 bits; R341; reset 0). -/
  tail : Nat := 0
  /-- The tail up to which the device may consume: the last tail read from the FIFO (16 bits; R335; reset 0). -/
  reach : Nat := 0
  /-- Doorbell FIFO, oldest first: a tail and whether its parity is good (32 entries; R338; reset empty). -/
  fifo : List (Nat × Bool) := []
  /-- CMD_SQ_STATUS.DB_ERR (1 bit; R341; reset false). -/
  dbErr : Bool := false
  /-- CMD_SQ_STATUS.DB_PAR (1 bit; R341; reset false). -/
  dbPar : Bool := false
  /-- CMD_SQ_STATUS.DB_OVR (1 bit; R341; reset false). -/
  dbOvr : Bool := false
deriving DecidableEq, Repr

/-- An entry for a completion ring (R336): its slots' bytes. -/
structure CqEntry where
  /-- The bytes, a whole number of 64-byte slots. -/
  bytes : Bytes
  /-- CLK_MGT tick at which it fell due. -/
  since : Nat
deriving DecidableEq, Repr

/-- A completion ring (R336 to R341). -/
structure CqRing where
  /-- CMD_CQ_STATUS.STATE: 0 DISABLED, 1 ACTIVE (2 bits; R341; reset 0). -/
  state : Nat := 0
  /-- CMD_CQ_STATUS.TAIL (16 bits; R341; reset 0). -/
  tail : Nat := 0
  /-- CMD_CQ_HEAD.HEAD: last head accepted (16 bits; R341; reset 0). -/
  head : Nat := 0
  /-- Slots written and not returned (17 bits; R337; reset 0). -/
  used : Nat := 0
  /-- CMD_CQ_STATUS.DB_ERR (1 bit; R341; reset false). -/
  dbErr : Bool := false
  /-- CMD_CQ_STATUS.STALLED (1 bit; R341; reset false). -/
  stalled : Bool := false
  /-- Entries held because they do not fit, oldest first (R337; reset empty). -/
  held : List CqEntry := []
  /-- Entries posted since the last interrupt (8 bits; R336; reset 0). -/
  coal : Nat := 0
  /-- Tick of the first entry posted since the last interrupt (64 bits; R336; reset 0). -/
  coalSince : Nat := 0
deriving DecidableEq, Repr

/-- The identity of a message on a path (R310). -/
structure MsgKey where
  path : Path
  opcode : Nat
  tag : Nat
  seq : Nat
deriving DecidableEq, Repr

/-- A message of which packets have arrived (R310, R314). -/
structure MsgIn where
  key : MsgKey
  /-- Byte ranges that its packets have covered: OFFSET and PAYLOAD_LEN. -/
  got : List (Nat × Nat)
  /-- Its length, once the packet with LAST has come. -/
  len : Option Nat
deriving DecidableEq, Repr

/-- An MSI-X vector of a function (R492). -/
structure MsixVec where
  /-- Mask bit (1 bit; R490; reset true). -/
  masked : Bool := true
  /-- Pending bit in the PBA (1 bit; R492; reset false). -/
  pending : Bool := false
  /-- Message address (64 bits; R492; reset DESIGN CHOICE 0, log 12). -/
  addr : Nat := 0
  /-- Message data (32 bits; R492; reset DESIGN CHOICE 0, log 12). -/
  data : Nat := 0
deriving DecidableEq, Repr

/-- PCIe link and functions (chapter 18). -/
structure PcieSt where
  /-- DEV_LINK_STATUS.UP (1 bit; R507; reset false). -/
  up : Bool := false
  /-- DEV_LINK_STATUS.FLIT (1 bit; R507; reset false). -/
  flit : Bool := false
  /-- DEV_LINK_STATUS.WIDTH (6 bits; R507; reset 0). -/
  width : Nat := 0
  /-- DEV_LINK_STATUS.SPEED (4 bits; R507; reset 0). -/
  speed : Nat := 0
  /-- DEV_FN_STATUS.VF_ENABLE (1 bit; R507; reset false). -/
  vfEnable : Bool := false
  /-- DEV_FN_STATUS.NUM_VFS (5 bits; R507; reset 0). -/
  numVfs : Nat := 0
  /-- Functions whose FLR is in progress and that answer Request Retry Status (list of 0-31; R490; reset empty). -/
  inFlr : List Nat := []
  /-- MSI-X vectors, key 2,048 x function + vector (R492; reset every vector masked). -/
  msix : Tab MsixVec := []
  /-- Functions whose MSI-X is masked as a whole (list of 0-31; R492; reset DESIGN CHOICE empty, log 12). -/
  fnMasked : List Nat := []
  /-- The upper half latched by a 4-byte read of a 64-bit register: its offset and value (R124; reset none). -/
  latch : Option (Nat × Nat) := none
deriving DecidableEq, Repr

/-- Management paths (R501 to R506). -/
structure MgmtSt where
  /-- Dynamic address of the I3C target (7 bits; R503; reset none). -/
  i3cAddr : Option Nat := none
  /-- A mailbox packet submitted while the management controller restarts, with its OPCODE (R453, R504; reset none). -/
  mboxWait : Option (Nat × Pkt) := none
  /-- Instruction in the TAP (R506; reset DESIGN CHOICE IDCODE, log 14). -/
  tap : JtagInstr := .idcode
  /-- Bytes that reached CP_SHELL (R505; reset empty). -/
  shell : Bytes := []
  /-- The debug trigger has acted, and its last edge (R469; reset none). -/
  trigger : Option Bool := none
deriving DecidableEq, Repr

/-! ## Power and temperature -/

/-- Issue level, sensors and rails (chapter 19). -/
structure PwrSt where
  /-- PWR_STATUS.LEVEL: the issue level N (5 bits; R517; reset 16). -/
  level : Nat := 16
  /-- PWR_STATUS.AVS_ERR (1 bit; R524; reset false). -/
  avsErr : Bool := false
  /-- PWR_STATUS.FORCED (1 bit; R524; reset false). -/
  forced : Bool := false
  /-- PWR_STATUS.THERMAL (1 bit; R524; reset false). -/
  thermal : Bool := false
  /-- Last AVSBus move of each stack (4 ticks; R512; reset none). -/
  avsAt : Tab Nat := []
  /-- HBM3E stacks whose refresh rate is doubled (12 bits; R517; reset 0). -/
  hotStacks : Nat := 0
deriving DecidableEq, Repr

end Sys2Proof.Machine
end

