-- ==== Sys2Proof/Machine/StFab.lean ====
section
/-! DEFINITION. State of the fabric: ports and lanes, queue pairs with their transport, protection domains and regions
(chapter 13), and the memory-semantic area and gateways (chapter 14).

A field's docstring ends with its width, the rule of spec/ that names it and its reset value. -/

namespace Sys2Proof.Machine

/-- A transport frame waiting at a port (R350, R361). -/
structure TxFrame where
  /-- Queue pair it belongs to. -/
  qp : Nat
  /-- TC-S, not TC-L. -/
  tcs : Bool
  /-- TC-L: the PSN. TC-S: the MSG_ID. -/
  id : Nat
  /-- TC-S: the packet index. -/
  idx : Nat
  /-- Bytes of the DATA frame, its 40 bytes of framing included (R349). -/
  bytes : Nat
  /-- A retransmission. -/
  retx : Bool
  /-- The tick it joined the queue. -/
  since : Nat
  /-- What its packet has left (R36). -/
  budget : Budget
  /-- TC-S: PATH (R357), and PKT_COUNT of the packet with LAST (R352). -/
  path : Nat := 0
  count : Nat := 0
deriving DecidableEq, Repr

/-- A fabric port (R344 to R351). -/
structure Port where
  /-- FAB_PORT_STATUS.STATE: 0 DISABLED, 1 DETECT, 2 TRAIN, 3 NEGOTIATE, 4 UP, 6 MISWIRED, 7 DOWN (4 bits; R373; reset 0). -/
  state : Nat := 0
  /-- FAB_PORT_STATUS.ATTEMPTS (4 bits; R373; reset 0). -/
  attempts : Nat := 0
  /-- FAB_PORT_STATUS.LANES_UP (4 bits; R373; reset 0). -/
  lanesUp : Nat := 0
  /-- FAB_PORT_STATUS.LANES_DIS (4 bits; R373; reset 0). -/
  lanesDis : Nat := 0
  /-- FAB_PORT_STATUS.PLANE (4 bits; R373; reset 0). -/
  plane : Nat := 0
  /-- FAB_PORT_STATUS.LINK_VER: major x 16 + minor (8 bits; R373; reset 0). -/
  linkVer : Nat := 0
  /-- FAB_PORT_STATUS.WIDTH: 0 none, 1 x1, 2 x2, 3 x4 (2 bits; R373; reset 0). -/
  width : Nat := 0
  /-- Training may lock at 106.25 GBd (1 bit; R344; reset false). -/
  slow : Bool := false
  /-- Tick at which the present state was entered (64 bits; R344; reset 0). -/
  since : Nat := 0
  /-- FAB_PORT_DELAY.TICKS (32 bits; R373; reset 0xFFFF_FFFF). -/
  delay : Nat := 0xFFFFFFFF
  /-- The last TX_TICK received from the partner (64 bits; R349; reset 0). -/
  partnerTick : Nat := 0
  /-- Tick of the last KEEPALIVE received (64 bits; R351; reset 0). -/
  kaRx : Nat := 0
  /-- Tick of the last KEEPALIVE sent (64 bits; R351; reset 0). -/
  kaTx : Nat := 0
  /-- Consecutive keepalives missed (2 bits; R351; reset 0). -/
  kaMiss : Nat := 0
  /-- Cumulative TC-L credits granted to this port (32 bits; R349; reset 0). -/
  credGranted : Nat := 0
  /-- Cumulative TC-L credits used (32 bits; R350; reset 0). -/
  credUsed : Nat := 0
  /-- Tick since which the first TC-L frame has waited for credit (64 bits; FAB_PORT_CREDIT_WAIT of R373; reset none). -/
  creditSince : Option Nat := none
  /-- Tick until which TC-L is paused (64 bits; R350; reset none). -/
  pauseTcl : Option Nat := none
  /-- Tick until which TC-S is paused (64 bits; R350; reset none). -/
  pauseTcs : Option Nat := none
  /-- Origin of the port's 50 us gate cycle on its own counter (64 bits; R373; reset DESIGN CHOICE 0, log 15). -/
  gateOrigin : Nat := 0
  /-- TC-L frames waiting, oldest first (list; R350; reset empty). -/
  tcl : List TxFrame := []
  /-- TC-S frames waiting, oldest first (list; R350; reset empty). -/
  tcs : List TxFrame := []
deriving DecidableEq, Repr

/-- What a message the device sends is for, so that its completion or failure reaches the right place. -/
inductive TxWhat where
  /-- A reply, a response message or a message whose outcome the spec gives no further effect. -/
  | plain
  /-- SYS.HELLO of the device on this QP (R328). -/
  | hello
  /-- A page of page move `m` to holder number `h` (R252). -/
  | move (m h : Nat)
  /-- PAGE.SEAL of page move `m` to holder number `h`. -/
  | seal (m h : Nat)
  /-- PAGE.DROP number `d` (R253). -/
  | drop (d : Nat)
  /-- The REQ.HANDOFF transfer of a berth (R221). -/
  | handoff (berth : Nat)
  /-- REQ.ACCEPT of a berth (R222). -/
  | accept (berth : Nat)
  /-- ATT.PARTIAL of exchange `x` (R275). -/
  | attPartial (x : Nat)
  /-- A forwarded memory-semantic operation (R378). -/
  | msa (tag : Nat)
  /-- A gateway batch (R392). -/
  | gateway (tag : Nat)
  /-- A VERIFY.REPLAY part of a step (R435). -/
  | replay (stepSeq : Nat)
  /-- A SEND message or another command started for host software. -/
  | mirror (id : Nat)
deriving DecidableEq, Repr

/-- A TC-L packet sent and not acknowledged (R361, R363). -/
structure TclPkt where
  psn : Nat
  /-- Tick of its last sending. -/
  sentAt : Nat
  /-- Frame bytes. -/
  bytes : Nat
  /-- The message it belongs to. -/
  what : TxWhat
  /-- What its packet has left (R36). -/
  budget : Budget
deriving DecidableEq, Repr

/-- A TC-S packet of a message being sent (R359). -/
structure TcsPkt where
  idx : Nat
  sentAt : Nat
  retries : Nat
  bytes : Nat
deriving DecidableEq, Repr

/-- A TC-S message being sent: the packets no SACK has covered (R359). -/
structure TcsOut where
  msgId : Nat
  open' : List TcsPkt
  what : TxWhat
  /-- What its packets have left (R36). -/
  budget : Budget
  /-- Packets of the message (R356). -/
  count : Nat
deriving DecidableEq, Repr

/-- A posted receive buffer (R369). -/
structure Posted where
  key : Nat
  len : Nat
  off : Nat
  cq : Nat
deriving DecidableEq, Repr

/-- A TC-S tracking entry at the receiver (R358). -/
structure TcsIn where
  msgId : Nat
  /-- The placement bitmap. -/
  placed : List Nat
  /-- The expected count, unknown until LAST arrives. -/
  expect : Option Nat
  /-- Tick of the first placement. -/
  firstAt : Nat
  /-- Tick at which the next SACK falls due. -/
  sackAt : Nat
  /-- A packet has arrived since the last SACK. -/
  fresh : Bool
  /-- Evoest OPCODE and TAG of the message. -/
  opcode : Nat
  tag : Nat
  /-- Device it comes from. -/
  src : Nat
  /-- The receive buffer a SEND message is bound to (R369). -/
  buffer : Option Posted
deriving DecidableEq, Repr

/-- A parked frame (R372). -/
structure ParkedPkt where
  frame : Fab
  tcs : Bool
  /-- I/O die it waits on: 0 north, 1 south. -/
  die : Nat
deriving DecidableEq, Repr

/-- A queue pair (R365, R366, R374). -/
structure Qp where
  /-- STATE: 0 RESET, 1 INIT, 2 RTS, 3 ERROR (4 bits; R374; reset 0). -/
  state : Nat := 0
  /-- TYPE: 0 fabric, 1 host completion ring (2 bits; R374; reset 0). -/
  type : Nat := 0
  /-- PIN (1 bit; R374; reset false). -/
  pin : Bool := false
  /-- SHAPED (1 bit; R374; reset false). -/
  shaped : Bool := false
  /-- LOC: 0 resident, 1 evicted, 2 fetching, 3 evicting (2 bits; R374; reset 0). -/
  loc : Nat := 0
  /-- PD (12 bits; R374; reset 0). -/
  pd : Nat := 0
  /-- PEER_DEV (12 bits; R374; reset 0). -/
  peerDev : Nat := 0
  /-- SPRAY (8 bits; R374; reset 0). -/
  spray : Nat := 0
  /-- PEER_QP, or the completion ring of TYPE 1 (20 bits; R374; reset 0). -/
  peerQp : Nat := 0
  /-- COMP (12 bits; R374; reset 0). -/
  comp : Nat := 0
  /-- EVOEST: negotiated version, 0 before negotiation (16 bits; R374; reset 0). -/
  evoest : Nat := 0
  /-- TAG of the device's own SYS.HELLO awaiting its reply (32 bits; R328; reset none). -/
  helloTag : Option Nat := none
  /-- A negotiation on this QP found no common version (1 bit; R528; reset false). -/
  noCommon : Bool := false
  /-- SEND_PSN (24 bits; R374; reset 0). -/
  sendPsn : Nat := 0
  /-- RETRY (8 bits; R374; reset 0). -/
  retry : Nat := 0
  /-- ACKED_PSN: oldest unacknowledged PSN (24 bits; R374; reset 0). -/
  ackedPsn : Nat := 0
  /-- EXP_PSN (24 bits; R374; reset 0). -/
  expPsn : Nat := 0
  /-- INIT_PSN of the record (24 bits; R365; reset 0). -/
  initPsn : Nat := 0
  /-- EXP_PSN of the record (24 bits; R365; reset 0). -/
  initExp : Nat := 0
  /-- TCS_SEND_MSG (32 bits; R374; reset 0). -/
  tcsSend : Nat := 0
  /-- TCS_RECV_BASE (32 bits; R374; reset 0). -/
  tcsBase : Nat := 0
  /-- ERR_CAUSE (8 bits; R374; reset 0). -/
  errCause : Nat := 0
  /-- ERR_STATUS (16 bits; R374; reset 0). -/
  errStatus : Nat := 0
  /-- LAST_USE (64 bits; R374; reset 0). -/
  lastUse : Nat := 0
  /-- SEQ of the next message sent (32 bits; R310; reset 0). -/
  seq : Nat := 0
  /-- Posted receive buffers, oldest first (0-256; R369; reset empty). -/
  posted : List Posted := []
  /-- TC-L packets sent and not acknowledged, oldest first (0-1,024; R361; reset empty). -/
  unacked : List TclPkt := []
  /-- TC-L packets waiting for room in the window of 1,024 (list; R361; reset empty). -/
  queued : List (Nat × TxWhat × Budget) := []
  /-- A NAK SEQ has been sent and the expected packet has not arrived (1 bit; R362; reset false). -/
  nakSent : Bool := false
  /-- Accepted TC-L packets not yet acknowledged (4 bits; R362; reset 0). -/
  ackOwed : Nat := 0
  /-- Tick of the oldest accepted and unacknowledged packet (64 bits; R362; reset 0). -/
  ackSince : Nat := 0
  /-- Resend after NAK NO_CONTEXT: due tick and PSN (R363; reset none). -/
  resend : Option (Nat × Nat) := none
  /-- TC-S messages being sent (list; R359; reset empty). -/
  tcsOut : List TcsOut := []
  /-- TC-S tracking entries (list; R358; reset empty). -/
  tcsIn : List TcsIn := []
  /-- Completed TC-S MSG_IDs above TCS_RECV_BASE (list; R358; reset empty). -/
  tcsDone : List Nat := []
  /-- TC-S MSG_IDs closed by the assembly timer (list; R360; reset empty). -/
  tcsLate : List Nat := []
  /-- Buffers bound to completed SEND messages whose Evoest processing follows: TAG and buffer (list; R369; reset empty). -/
  bound : List (Nat × Option Posted) := []
  /-- Parked frames, in arrival order (list; R372; reset empty). -/
  parked : List ParkedPkt := []
  /-- It waits for a resident slot of its die (1 bit; R371; reset false). -/
  needs : Bool := false
  /-- Tick at which the context fetch, or the wait for a slot, began (64 bits; R371; reset 0). -/
  fetchAt : Nat := 0
  /-- QP.MODIFY and SCH.SHAPER commands that wait for the fetch: OPCODE and packet (list; R371, R415; reset empty). -/
  waitCmds : List (Nat × Pkt) := []
deriving DecidableEq, Repr

/-- A registered region (R367). -/
structure Region where
  base : Nat
  len : Nat
  kind : Nat
  access : Nat
  pd : Nat
deriving DecidableEq, Repr

/-- A message of the device's own that waits for the outcome of a SYS.HELLO (R528). -/
structure WaitMsg where
  dest : Nat
  comp : Nat
  /-- The packet it will send; TAG, MID, EPOCH, PD and SEQ are set when it goes. -/
  opcode : Nat
  mid : Nat
  p0 : Nat
  p1 : Nat
  p2 : Nat
  p3 : Nat
  slack : Budget
  tag : Nat
  payload : Bytes
  what : TxWhat
deriving DecidableEq, Repr

/-- A response message that is arriving for a command this device sent (R318). -/
structure RespIn where
  qp : Nat
  tag : Nat
  opcode : Nat
  /-- Packets placed so far: OFFSET and payload, oldest first. -/
  placed : List (Nat × Bytes)
  /-- Its packet with LAST has come. -/
  whole : Bool
deriving DecidableEq, Repr

/-- The fabric (chapter 13). -/
structure FabSt where
  /-- The eight ports (8 ports; R344; reset all DISABLED). -/
  ports : List Port := List.replicate 8 {}
  /-- FAB_LANE_STATUS.STATE of lane 4p + l: 0 off, 1 up, 2 training, 3 disabled (32 x 2 bits; R373; reset 0). -/
  lanes : List Nat := List.replicate 32 0
  /-- FAB_STATUS.BELOW_MIN (1 bit; R373; reset false). -/
  belowMin : Bool := false
  /-- Ports left out for a destination: port, destination, tick at which it counts again (list; R357; reset empty). -/
  excluded : List (Nat × Nat × Nat) := []
  /-- Queue pairs by number (0-1,048,575; R365; reset none). -/
  qps : Tab Qp := []
  /-- Protection domains made (0-4,095; R367; reset none). -/
  pds : List Nat := []
  /-- Regions by index (0-262,143; R367; reset none). -/
  regions : Tab Region := []
  /-- Variant of each region index's last registration (8 bits; R367; reset DESIGN CHOICE none registered, log 16). -/
  variants : Tab Nat := []
  /-- Messages waiting for a SYS.HELLO (list; R528; reset empty). -/
  waiting : List WaitMsg := []
  /-- TAG of the next command the device starts (32 bits; R310; reset DESIGN CHOICE 0, log 17). -/
  nextTag : Nat := 0
  /-- Response messages arriving for commands of this device (list; R318; reset empty). -/
  resps : List RespIn := []
  /-- TAGs of VERIFY.RESULT commands of this device that await a reply (list; R317; reset empty). -/
  openTags : List Nat := []
deriving DecidableEq, Repr

/-! ## Memory-semantic access -/

/-- What a line operation does when it reaches the head of its queue (R381 to R385). -/
inductive MsaKind where
  | load
  | store (data : Bytes)
  /-- Operation code, first and second operand, byte offset within the line, multiplicity. -/
  | atomic (op a b off mult : Nat)
deriving DecidableEq, Repr

/-- Where a line operation's answer goes. -/
inductive MsaFrom where
  /-- A command that arrived as a packet, and its OPCODE. -/
  | pkt (opcode : Nat) (p : Pkt)
  /-- Entry `i` of gateway batch `batch` at this home. -/
  | entry (batch i : Nat)
deriving DecidableEq, Repr

/-- An operation waiting in a line queue. -/
structure MsaOp where
  kind : MsaKind
  /-- Epoch it was accepted under, and its composition. -/
  epoch : Nat
  comp : Nat
  from' : MsaFrom
deriving DecidableEq, Repr

/-- An operation that waits at the head of a port's receive buffer, or behind it, for room in the line queues (R382). -/
structure MsaWait where
  /-- Fabric port, or 8 + ring. -/
  port : Nat
  line : Nat
  op : MsaOp
  /-- Tick at which it began to wait. -/
  since : Nat
deriving DecidableEq, Repr

/-- A forwarded operation awaiting its reply (R378, R387). -/
structure MsaFwd where
  /-- The original command. -/
  opcode : Nat
  pkt : Pkt
  /-- QP it leaves on, home device, and the tick at which its packet was sent. -/
  qp : Nat
  home : Nat
  sentAt : Option Nat := none
deriving DecidableEq, Repr

/-- A gateway batch that this device issued (R392, R396). -/
structure GwOut where
  pkt : Pkt
  qp : Nat
  /-- The tick at which its first packet was sent. -/
  sentAt : Option Nat := none
deriving DecidableEq, Repr

/-- A gateway batch that this home serves (R393 to R395). -/
structure GwIn where
  pkt : Pkt
  /-- Die whose reassembly share it holds. -/
  die : Nat
  /-- Entry results so far: index, status, bytes. -/
  done : List (Nat × Nat × Bytes)
  /-- Entries in all. -/
  count : Nat
deriving DecidableEq, Repr

/-- Memory-semantic access (chapter 14). -/
structure MsaSt where
  /-- Line queues, oldest first, by line (0-32,767; R381; reset empty). -/
  lines : Tab (List MsaOp) := []
  /-- Poisoned lines (list of 0-32,767; R389; reset empty). -/
  poisoned : List Nat := []
  /-- Forwarded operations by TAG (list; R378; reset empty). -/
  fwd : Tab MsaFwd := []
  /-- Gateway batches issued, by TAG (list; R392; reset empty). -/
  gwOut : Tab GwOut := []
  /-- Gateway batches served (list; R393; reset empty). -/
  gwIn : Tab GwIn := []
  /-- Gateway batches being assembled: QP, TAG, die and bytes (list; R394; reset empty). -/
  gwBuf : List (Nat × Nat × Nat × Nat) := []
  /-- Operations waiting for room in the line queues, oldest first (list; R382; reset empty). -/
  ingress : List MsaWait := []
  /-- MSA_LAST_DEAD: the device last reported dead (12 bits and VALID; R397; reset none). -/
  lastDead : Option Nat := none
deriving DecidableEq, Repr

end Sys2Proof.Machine
end

