-- ==== Sys2Proof/Machine/StMan.lean ====
section
/-! DEFINITION. State of requests and their pages: manifests and berths (chapter 8), page tables, frames, moves,
mirroring and swap (chapter 9).

A field's docstring ends with its width, the rule of spec/ that names it and its reset value. -/

namespace Sys2Proof.Machine

/-! ## The manifest (R207) -/

/-- What admission fixes in a manifest. -/
structure ManId where
  /-- REQUEST_ID (64 bits; R207; reset 0). -/
  requestId : Nat := 0
  /-- SHARE_CLASS (8 bits; R207; reset 0). -/
  shareClass : Nat := 0
  /-- ADMIT_EPOCH (32 bits; R207; reset 0). -/
  admitEpoch : Nat := 0
  /-- WITHY_ID (20 bits; R207; reset 0). -/
  withyId : Nat := 0
  /-- WITHY_VER (12 bits; R207; reset 0). -/
  withyVer : Nat := 0
  /-- OWNER_QP (20 bits; R207; reset 0). -/
  ownerQp : Nat := 0
  /-- PROMPT_DEV (12 bits; R207; reset 0). -/
  promptDev : Nat := 0
  /-- GEN_DEV (12 bits; R207; reset 0). -/
  genDev : Nat := 0
  /-- CACHE_PRI (12 bits; R207; reset 0). -/
  cachePri : Nat := 0
  /-- CACHE_MIR (12 bits; R207; reset 0). -/
  cacheMir : Nat := 0
  /-- SEED (64 bits; R207; reset 0). -/
  seed : Nat := 0
  /-- SAMPLING (16 bytes; R207; reset 0). -/
  sampling : Bytes := []
  /-- SPEC_MAX (8 bits; R207; reset 0). -/
  specMax : Nat := 0
  /-- STOP_SET (16 bits; R207; reset 0). -/
  stopSet : Nat := 0
  /-- MAX_NEW (32 bits; R207; reset 0). -/
  maxNew : Nat := 0
  /-- PROMPT_LEN (32 bits; R207; reset 0). -/
  promptLen : Nat := 0
  /-- CYCLE_BUDGET (32 bits; R207; reset 0). -/
  cycleBudget : Nat := 0
  /-- TTFT_BUDGET_US (32 bits; R207; reset 0). -/
  ttftBudget : Nat := 0
  /-- TBT_BUDGET_US (32 bits; R207; reset 0). -/
  tbtBudget : Nat := 0
deriving DecidableEq, Repr

/-- Where a request stands. -/
structure ManProg where
  /-- STATE: 0 FREE, 1 ADMITTED, 2 PROMPT, 3 HANDOFF, 4 GENERATING, 5 PREEMPTED, 6 SWAPPED, 7 REBUILD, 8 DONE, 9 FAILED (8 bits; R207; reset 0). -/
  state : Nat := 0
  /-- CANCEL_PENDING (1 bit; R207; reset false). -/
  cancel : Bool := false
  /-- AWAIT_CONFIRM (1 bit; R207; reset false). -/
  await : Bool := false
  /-- FIRST_OUT (1 bit; R207; reset false). -/
  firstOut : Bool := false
  /-- BOOST (1 bit; R207; reset false). -/
  boost : Bool := false
  /-- FENCED (1 bit; R207; reset false). -/
  fenced : Bool := false
  /-- REBUILT (1 bit; R207; reset false). -/
  rebuilt : Bool := false
  /-- END_CAUSE (8 bits; R207; reset 0). -/
  endCause : Nat := 0
  /-- SPEC_DEPTH (8 bits; R207; reset 0). -/
  specDepth : Nat := 0
  /-- LOG_LEN (32 bits; R207; reset 0). -/
  logLen : Nat := 0
  /-- RELEASED (32 bits; R207; reset 0). -/
  released : Nat := 0
  /-- POS_HELD (32 bits; R207; reset 0). -/
  posHeld : Nat := 0
  /-- SLACK_US (32 bits; R207; reset 0). -/
  slack : Nat := 0
  /-- DEFICIT_US (32 bits; R207; reset 0). -/
  deficit : Nat := 0
  /-- TTFT_US (32 bits; R207; reset 0). -/
  ttftUs : Nat := 0
  /-- SLACK_TICK (64 bits; R207; reset 0). -/
  slackTick : Nat := 0
  /-- PAGE_ROOT (48 bits; R207; reset 0). -/
  pageRoot : Nat := 0
  /-- LOG_PAGE: frame descriptor of the open log page (32 bits; R207; reset 0). -/
  logPage : Nat := 0
  /-- TTFT_MISSED (8 bits; R207; reset 0). -/
  ttftMissed : Nat := 0
  /-- STOP_MATCH (32 bits; R207; reset 0). -/
  stopMatch : Nat := 0
deriving DecidableEq, Repr

/-- The counters at bytes 128 to 189 that travel with the manifest (R208). -/
structure ManCnt where
  /-- TBT_MISS_CNT (16 bits; R207; reset 0). -/
  tbtMiss : Nat := 0
  /-- TBT_HIST (8 bins of 16 bits; R207; reset 0). -/
  tbtHist : List Nat := [0, 0, 0, 0, 0, 0, 0, 0]
  /-- MAX_DEFICIT_US (32 bits; R207; reset 0). -/
  maxDeficit : Nat := 0
  /-- STEPS (32 bits; R207; reset 0). -/
  steps : Nat := 0
  /-- ENGINE_CYCLES (64 bits; R207; reset 0). -/
  engineCycles : Nat := 0
  /-- BYTES_MOVED (64 bits; R207; reset 0). -/
  bytesMoved : Nat := 0
  /-- DRAFTED (32 bits; R207; reset 0). -/
  drafted : Nat := 0
  /-- ACCEPTED (32 bits; R207; reset 0). -/
  accepted : Nat := 0
  /-- SUSPECT_STEPS (16 bits; R207; reset 0). -/
  suspect : Nat := 0
  /-- PREEMPT_CNT (16 bits; R207; reset 0). -/
  preempt : Nat := 0
  /-- LAST_STATUS (16 bits; R207; reset 0). -/
  lastStatus : Nat := 0
deriving DecidableEq, Repr

/-- A page-table entry (R238). -/
structure PtEntry where
  /-- PAGE_ID (64 bits; R238; reset 0). -/
  pageId : Nat := 0
  /-- HOLDER_A (12 bits; R238; reset 0xFFF). -/
  holderA : Nat := 0xFFF
  /-- HOLDER_B (12 bits; R238; reset 0xFFF). -/
  holderB : Nat := 0xFFF
  /-- STATE: 0 EMPTY, 1 OPEN, 2 LOCAL, 3 MOVING, 4 REMOTE, 5 RETAINED, 6 LOST (4 bits; R238; reset 0). -/
  state : Nat := 0
  /-- GLOBAL (1 bit; R238; reset false). -/
  global : Bool := false
  /-- DESC: frame of the local copy, 0xFFFF_FFFF none (32 bits; R238; reset 0xFFFF_FFFF). -/
  desc : Nat := 0xFFFFFFFF
deriving DecidableEq, Repr

/-- The page table of a manifest (R236, R237). -/
structure PageTable where
  /-- KV_LAYERS (32 bits; R237; reset 0). -/
  layers : Nat := 0
  /-- INDICES (32 bits; R237; reset 0). -/
  indices : Nat := 0
  /-- Page IDs of the sealed log pages, in log order (0-128; R237; reset empty). -/
  logIds : List Nat := []
  /-- Frames of the log pages, sealed ones first, then the open one (list; R217; reset empty). -/
  logFrames : List Nat := []
  /-- The root frame (32 bits; R237; reset none). -/
  root : Option Nat := none
  /-- Table frames (list; R237; reset empty). -/
  tables : List Nat := []
  /-- Entries by e = i x KV_LAYERS + L (list; R237; reset EMPTY). -/
  entries : Tab PtEntry := []
  /-- Frames that hold overflow areas (list; R243; reset empty). -/
  ovf : List Nat := []
deriving DecidableEq, Repr

/-- A transfer that a prompt node has sent and that awaits REQ.ACCEPT (R221, R224). -/
structure XferOut where
  /-- Tick at which REQ.HANDOFF was sent, once its first frame has started. -/
  at' : Option Nat
  /-- TAG it carries. -/
  tag : Nat
  /-- QP it left on. -/
  qp : Nat
deriving DecidableEq, Repr

/-! ## Frames -/

/-- What a page frame is used for. -/
inductive FrameUse where
  /-- A KV page, open, sealed, moving or arriving (R242). -/
  | page
  /-- A log page (R217). -/
  | log
  /-- Overflow areas of open pages (R243). -/
  | overflow
  /-- A page-table root, or a table frame (R237). -/
  | root
  | table
deriving DecidableEq, Repr

/-- A page frame's descriptor (R242) and what the device keeps beside it. -/
structure Frame where
  use : FrameUse := .page
  /-- PAGE_ID (64 bits; R242; reset 0). -/
  pageId : Nat := 0
  /-- REQUEST_ID (64 bits; R242; reset 0). -/
  requestId : Nat := 0
  /-- LAYER (8 bits; R242; reset 0). -/
  layer : Nat := 0
  /-- STATE: 0 FREE, 1 OPEN, 2 SEALED, 3 MOVING, 4 ARRIVING (3 bits; R242; reset 0). -/
  state : Nat := 0
  /-- CODED (1 bit; R242; reset false). -/
  coded : Bool := false
  /-- TIER: LPDDR5X, not HBM3E (1 bit; R242; reset false). -/
  lpx : Bool := false
  /-- INDEX (32 bits; R242; reset 0). -/
  index : Nat := 0
  /-- CRC of the stored bytes (32 bits; R242; reset 0). -/
  crc : Nat := 0
  /-- STORED_LEN in 16-byte units (16 bits; R242; reset 0). -/
  storedLen : Nat := 0
  /-- OWNER (12 bits; R242; reset 0). -/
  owner : Nat := 0
  /-- COMMITTED (16 bits; R242; reset 0). -/
  committed : Nat := 0
  /-- SPEC (8 bits; R242; reset 0). -/
  spec : Nat := 0
  /-- OVF_DPA (48 bits; R242; reset 0). -/
  ovfDpa : Nat := 0
  /-- PARTNER (12 bits; R242; reset 0xFFF). -/
  partner : Nat := 0xFFF
  /-- GLOBAL flag of the PAGE.SEAL (1 bit; R326; reset false). -/
  global : Bool := false
  /-- References held on the copy (32 bits; R159; reset 0). -/
  refs : Nat := 0
  /-- Composition charged (12 bits; R398; reset 0). -/
  comp : Nat := 0
  /-- Byte ranges placed by PAGE.PUT: offset and length (list; R251; reset empty). -/
  placed : List (Nat × Nat) := []
  /-- Tick of the last PAGE.PUT (64 bits; R251; reset 0). -/
  putAt : Nat := 0
  /-- Placed bytes that the frame itself does not hold: an open page's overflow area, or a page in FP8 form (list of bytes; R324, R332; reset empty). -/
  stage : Bytes := []
  /-- Device the copy came from (12 bits; R256; reset 0). -/
  src : Nat := 0
  /-- Tick of its last ATT.PARTIAL service (64 bits; R254; reset 0). -/
  served : Nat := 0
  /-- The transfer whose reservation it came from (R223; reset none). -/
  xfer : Option Nat := none
  /-- A demotion of the copy is being written to this frame (R254; reset none). -/
  demote : Option Nat := none
deriving DecidableEq, Repr

/-- A manifest's snapshot in host memory (R260). -/
structure Snapshot where
  window : Nat
  offset : Nat
  bytes : Nat
  frames : Nat
  /-- What was written, which a good read returns: page-table entry, descriptor, page bytes and overflow area of each local page. -/
  pages : List (Nat × Frame × Bytes × Bytes)
deriving DecidableEq, Repr

/-! ## Berths -/

/-- A berth in use (R203, R207) with what the device holds for its request beside the 256 bytes. -/
structure Berth where
  id : ManId := {}
  prog : ManProg := {}
  cnt : ManCnt := {}
  /-- The input log: token IDs (list of 32-bit; R217; reset empty). -/
  log : List Nat := []
  /-- Log target: PROMPT_LEN, or L of a rebuild (32 bits; R218; reset 0). -/
  target : Nat := 0
  /-- The rebuild is in restore mode for this MANIFEST_ID on GEN_DEV (32 bits; R325; reset none). -/
  restore : Option Nat := none
  /-- RANGE_FIRST and RANGE_COUNT of a rebuild (32 bits each; R325; reset none). -/
  range : Option (Nat × Nat) := none
  /-- The page table (R237; reset empty). -/
  table : PageTable := {}
  /-- The transfer outstanding (R221; reset none). -/
  xfer : Option XferOut := none
  /-- Status of the event that voided the last transfer (16 bits; R222; reset none). -/
  voided : Option Nat := none
  /-- On a generation node: sender's MANIFEST_ID and device, for REQ.ACCEPT (R222; reset none). -/
  sender : Option (Nat × Nat) := none
  /-- Tick at which REQ.ACCEPT was sent, once its frame has started (64 bits; R224; reset none). -/
  acceptAt : Option Nat := none
  /-- One-way delay, in microseconds, of the link on which the request's last packet arrived, where it has not been charged yet
  (R35; reset 0). -/
  linkUs : Nat := 0
  /-- TAG of the REQ.ACCEPT (32 bits; R222; reset 0). -/
  acceptTag : Nat := 0
  /-- A miss has been counted against the present deadline (1 bit; R226; reset false). -/
  missed : Bool := false
  /-- The tag T of R410 (64 bits; R410; reset 0). -/
  tagT : Nat := 0
  /-- The manifest was a candidate at the last boundary (1 bit; R410; reset false). -/
  wasCand : Bool := false
  /-- Tick from which its rows have been ready, in no published weave (64 bits; R418; reset none). -/
  candAt : Option Nat := none
  /-- The waiting draft: its REQ.DRAFT, whose reply waits, and its tokens (0-8 tokens; R297; reset none). -/
  draft : Option (Pkt × List Nat) := none
  /-- Tokens of the draft applied for the token in progress (0-8 tokens; R297; reset empty). -/
  drafts : List Nat := []
  /-- REQ.CANCELs to be answered at the boundary (list; R210; reset empty). -/
  cancels : List Pkt := []
  /-- Refusals reported once per holder and status (list; R249; reset empty). -/
  reported : List (Nat × Nat) := []
  /-- The rows stall for lack of a frame (1 bit; R217, R246; reset false). -/
  stalled : Bool := false
  /-- The status of a state loss or failure that takes effect at the next boundary (R211, R212; reset none). -/
  lossAt : Option Nat := none
  failAt : Option Nat := none
  /-- The snapshot in a host window (R260; reset none). -/
  snap : Option Snapshot := none
  /-- A swap-out, or swap-in, is moving its pages (1 bit each; R260 to R262; reset false). -/
  swapOut : Bool := false
  swapIn : Bool := false
  /-- A swap was asked for by a command, whose final reply waits (R262; reset none). -/
  swapPkt : Option Pkt := none
  /-- The pinned withy version is referenced (1 bit; R228; reset false). -/
  pinned : Bool := false
  /-- OPCODE and record of the REQ.ADMIT or REQ.REBUILD that made it, stop record included (list of bytes; R214; reset empty). -/
  adm : Bytes := []
deriving DecidableEq, Repr

/-- An incoming handoff transfer with its reserved berth (R206, R223). -/
structure XferIn where
  /-- The manifest image as received, and the log. -/
  id : ManId
  prog : ManProg
  cnt : ManCnt
  log : List Nat
  /-- The stop record, when there is one. -/
  stop : Option Bytes
  /-- Sender's MANIFEST_ID and device. -/
  sender : Nat × Nat
  /-- In restore mode: the berth restored, RANGE_FIRST and RANGE_COUNT. -/
  restore : Option (Nat × Nat × Nat)
  /-- Frames reserved and not yet used. -/
  frames : Nat
  /-- KV layers, the first page index that the transfer carries, and the index of its open pages, if it has any. -/
  layers : Nat
  first : Nat
  openIdx : Option Nat
  /-- Overflow frames taken from the reservation. -/
  ovf : List Nat
  /-- Keys placed so far: page-table entry number and frame. -/
  placed : List (Nat × Nat)
  /-- Tick at which it was accepted. -/
  at' : Nat
  /-- The stop-set slot on which the transfer holds a reference, 0xFFFF for none. -/
  stopSet : Nat
  /-- Composition charged. -/
  comp : Nat
  /-- The packet, for the final reply. -/
  pkt : Pkt
deriving DecidableEq, Repr

/-! ## Moves and mirroring -/

/-- One holder of a page move (R252). -/
structure MoveTgt where
  dev : Nat
  /-- 0 to be sent, 1 PUT outstanding, 2 SEAL outstanding, 3 accepted, 4 waiting to retry, 5 dead. -/
  st : Nat
  qp : Nat
  /-- TAG of the PAGE.PUT or PAGE.SEAL outstanding. -/
  tag : Nat
  /-- Sendings that ended in ST_CRC. -/
  crcs : Nat
  /-- The tick at which the retry is due. -/
  at' : Nat
  /-- What was sent: CODED, CRC and STORED_LEN of the PAGE.SEAL. -/
  sent : Bool × Nat × Nat
  /-- TAG of the PAGE.PUT while the PAGE.SEAL is outstanding. -/
  put : Nat
  /-- Tick at which the first PAGE.PUT of the move was sent (R252). -/
  sentAt : Option Nat := none
deriving DecidableEq, Repr

/-- What stands for a holder that a move does not have. -/
def noTgt : MoveTgt := ⟨0xFFF, 0, 0, 0, 0, 0, (false, 0, 0), 0, none⟩

/-- Why a page moves. -/
inductive MoveWhy where
  /-- A sealed page below the window start (R248). -/
  | window
  /-- A window page or open page of a handoff (R221). -/
  | handoff
  /-- A copy under PAGE.MIRROR mode 0: the mirror job (R256). -/
  | mirror (job : Nat)
  /-- The answer to a PAGE.GET (R250). -/
  | get
deriving DecidableEq, Repr

/-- A page move in progress (R248 to R253). -/
structure Move where
  frame : Nat
  why : MoveWhy
  /-- Berth of the manifest; none on a cache node. -/
  berth : Option Nat
  comp : Nat
  tgts : List MoveTgt
  /-- A PAGE.DROP arrived while it moved (R253). -/
  dropped : Bool
deriving DecidableEq, Repr

/-- A PAGE.DROP, or a PAGE.MIRROR of mode 3 or 4, that has not been answered ST_OK (R253, R256). -/
structure DropJob where
  dest : Nat
  requestId : Nat
  /-- LIST 1 keys: index and layer; empty for a drop by REQUEST_ID. -/
  keys : List (Nat × Nat)
  comp : Nat
  tag : Nat
  /-- Tick at which it is sent again; none while it is outstanding or waits for a SYS.HELLO. -/
  retryAt : Option Nat
  /-- For PAGE.MIRROR: the mirror job, the mode, and the verified prefix k and m. -/
  mirror : Option (Nat × Nat × Nat × Nat)
  /-- It waits for a QP's SYS.HELLO (R528). -/
  waits : Bool
deriving DecidableEq, Repr

/-- A page still to be copied under mode 0: its key and its frame. -/
structure CopyItem where
  requestId : Nat
  index : Nat
  layer : Nat
  frame : Nat
  /-- Owner node of the request. -/
  owner : Nat
deriving DecidableEq, Repr

/-- A PAGE.MIRROR COPY, or CLOSE, in progress (R256). -/
structure MirrorJob where
  /-- CLOSE, not COPY. -/
  close : Bool
  /-- D of a copy; V of a close. -/
  dead : Nat
  /-- The spare S; this device for a close. -/
  spare : Nat
  comp : Nat
  /-- Pages left to copy, in copy order. -/
  todo : List CopyItem
  /-- A move to S was answered ST_TARGET_DEAD. -/
  deadSpare : Bool
  pkt : Pkt
deriving DecidableEq, Repr

/-- Requests and pages (chapters 8 and 9). -/
structure ManSt where
  /-- Berths whose manifest is not FREE (16,384 berths; R203; reset FREE). -/
  berths : Tab Berth := []
  /-- Incarnation of each berth (18 bits; R204; reset 0). -/
  incarn : Tab Nat := []
  /-- Incoming transfers by reserved berth (list; R206; reset empty). -/
  xfers : Tab XferIn := []
  /-- Stop sets by slot: stop record and its references (1,024 slots; R216; reset free). -/
  stops : Tab (Bytes × Nat) := []
  /-- Page frames in use, by frame number (R242; reset FREE). -/
  frames : Tab Frame := []
  /-- LGT_PAGE_SERIAL (44 bits; R263; reset 1). -/
  serial : Nat := 1
  /-- Sealing has stopped for want of serials (1 bit; R241; reset false). -/
  sealStop : Bool := false
  /-- LGT_PAGE_GEN (8 bits; R263; reset set at power-up from flash). -/
  gen : Nat := 0
  /-- Page moves in progress (list; R252; reset empty). -/
  moves : Tab Move := []
  /-- Keys whose ARRIVING frame an uncorrected error freed and whose PAGE.SEAL is to come: REQUEST_ID, page index and layer (list; R255;
  reset empty). -/
  arrivalsLost : List (Nat × Nat × Nat) := []
  /-- Drops not yet answered ST_OK (list; R253; reset empty). -/
  drops : Tab DropJob := []
  /-- Mirror jobs (list; R256; reset empty). -/
  mirrors : Tab MirrorJob := []
deriving DecidableEq, Repr

end Sys2Proof.Machine
end

