-- ==== Sys2Proof/Machine/StMem.lean ====
section
/-! DEFINITION. State of the memory tiers and of the objects loaded into them: areas, remaps and host windows, image
loads in progress, stake images, table slots, withy versions and resident slots (chapters 5, 6, 11 and 12).

A field's docstring ends with its width, the rule of spec/ that names it and its reset value. -/

namespace Sys2Proof.Machine

/-- Bytes that one packet placed for an image load (R311). -/
structure PlacedSeg where
  /-- The message that placed them. -/
  key : MsgKey
  /-- Byte offset within the image. -/
  off : Nat
  bytes : Bytes
deriving DecidableEq, Repr

/-- The object that an image load names (R311). -/
inductive LoadName where
  | table (setId : Nat)
  | stake (stakeId : Nat)
  | withy (withyId ver : Nat)
deriving DecidableEq, Repr

/-- An image load in progress (R311). -/
structure ImgLoad where
  name : LoadName
  /-- Table slot, or stake flags (R324), or withy placement (R288). -/
  arg : Nat
  /-- What has been placed, oldest first. -/
  segs : List PlacedSeg
  /-- The header has been placed and checked. -/
  header : Bool
  /-- Extents taken for reception or for the copies being filled: first byte DPAs. -/
  extents : List Nat
  /-- Composition charged. -/
  comp : Nat
deriving DecidableEq, Repr

/-- A held stake image (R525 to R527). -/
structure Stake where
  /-- Header and directory bytes. -/
  header : Bytes
  directory : Bytes
  /-- Image length and CRC-32C, signature excluded. -/
  len : Nat
  crc : Nat
  /-- Extents of the header and directory, per present die stack. -/
  dirExt : List (Nat × Nat)
  /-- Extents of each directory entry, stored bytes first. -/
  ext : Tab (List Nat)
  /-- References of the table sets in slots; those of tiles in the layer store are counted in the slices (R159). -/
  refs : Nat
  /-- Damaged extents: first byte DPAs (R179). -/
  damaged : List Nat
deriving DecidableEq, Repr

/-- A stake copy in LPDDR5X (R165). -/
structure StakeCopy where
  ext : List Nat
  /-- The whole image with its trailer, as received. -/
  image : Bytes
  /-- Reads in flight: a load from the copy, or a repair (R159, R165). -/
  refs : Nat
deriving DecidableEq, Repr

/-- An immutable object on its way off a withdrawn row: old and new granules, by frame number or by first byte DPA (R178). -/
structure ObjMove where
  obj : MovedObject
  granules : List (Nat × Nat)
deriving DecidableEq, Repr

/-- A table slot (R151, R153). -/
structure TblSlot where
  /-- SEQ_TBL_STATUS.STATE: 0 EMPTY, 1 LOADING, 2 LOADED, 3 ACTIVE (2 bits; R153; reset 0). -/
  state : Nat := 0
  /-- SEQ_TBL_SET_ID (32 bits; R153; reset 0). -/
  setId : Nat := 0
  /-- SEQ_TBL_BYTES (32 bits; R153; reset 0). -/
  bytes : Nat := 0
  /-- SEQ_TBL_STATUS.LAST_ERR (4 bits; R153; reset 0). -/
  lastErr : Nat := 0
  /-- SEQ_TBL_STATUS.FMT_MAJOR and FMT_MINOR (16 bits; R153; reset 0). -/
  fmt : Nat := 0
  /-- The image, signature excluded (up to 1 GiB; R163; reset empty). -/
  image : Bytes := []
  /-- Stake image the set names (32 bits; R126; reset 0). -/
  stakeId : Nat := 0
  /-- The set holds a reference on its stake image (1 bit; R159; reset false). -/
  stakeRef : Bool := false
  /-- Die stacks whose TABLE copy is damaged (list of 0-3; R179; reset empty). -/
  damaged : List Nat := []
deriving DecidableEq, Repr

/-- A held withy version (R284 to R288). -/
structure WithyVer where
  /-- 0 LOADING, 1 CURRENT, 2 SUPERSEDED, 3 RETIRING, 4 DAMAGED. -/
  state : Nat
  rank : Nat
  proj : Nat
  stakeId : Nat
  alpha : Nat
  len : Nat
  crc : Nat
  /-- Image bytes, signature excluded. -/
  image : Bytes
  /-- Header of the stake image that STAKE_ID named as it was loaded, which gives its widths (R284, R285). -/
  widths : Bytes
  /-- Library entry it holds. -/
  lib : Option Nat
  /-- Extents of the library copy. -/
  libExt : List Nat
  /-- Pins: references of manifests (R159). -/
  pins : Nat
  /-- Order of completion (R286). -/
  born : Nat
deriving DecidableEq, Repr

/-- A resident slot (R288, R289). -/
structure WSlot where
  /-- 0 EMPTY, 1 FILLING, 2 READY (2 bits; R289; reset 0). -/
  state : Nat := 0
  /-- Key of the version: WITHY_ID x 4,096 + VERSION (32 bits; R306; reset 0). -/
  ver : Nat := 0
  /-- A promotion fills it (1 bit; R290; reset false). -/
  promo : Bool := false
  /-- Composition charged (12 bits; R398; reset 0). -/
  comp : Nat := 0
  /-- Weave number of the last weave that named it (R290; reset 0). -/
  woven : Nat := 0
  /-- Extents of the copy (R160; reset empty). -/
  ext : List Nat := []
deriving DecidableEq, Repr

/-- An object in a host window (R170). -/
inductive WinObj where
  | snapshot (berth : Nat)
  | qpContext (qp : Nat)
deriving DecidableEq, Repr

/-- A placed window object. -/
structure WinUse where
  win : Nat
  off : Nat
  len : Nat
  obj : WinObj
deriving DecidableEq, Repr

/-- A retired HBM3E row (R177). -/
structure RowRemap where
  /-- DPA of the row's first byte. -/
  row : Nat
  /-- The copy is still running. -/
  copying : Bool
deriving DecidableEq, Repr

/-- Memory tiers and loaded objects. -/
structure MemSt where
  /-- MEM_HBM_STATUS.STATE of the 12 stacks: 0 absent, 1 in service, 2 failed, 3 fenced (12 x 2 bits; R180; reset 0). -/
  hbm : List Nat := List.replicate 12 0
  /-- MEM_LPX_STATUS.STATE of the 16 devices (16 x 2 bits; R180; reset 0). -/
  lpx : List Nat := List.replicate 16 0
  /-- MEM_AREA_HBM.STAKE_GIB (8 bits; R180; reset 0). -/
  hbmStake : Nat := 0
  /-- MEM_AREA_HBM.WITHY_GIB (8 bits; R180; reset 0). -/
  hbmWithy : Nat := 0
  /-- LPDDR5X STAKE area in GiB per set (9 bits; R180; reset 0). -/
  lpxStake : Nat := 0
  /-- LPDDR5X WITHY area in GiB per set (9 bits; R180; reset 0). -/
  lpxWithy : Nat := 0
  /-- MEM_STATUS.AREA_DEFAULTED (1 bit; R180; reset false). -/
  areaDef : Bool := false
  /-- MEM_STATUS.HOSTWIN_ERR (1 bit; R180; reset false). -/
  winErr : Bool := false
  /-- Live objects in host windows (list; R170; reset empty). -/
  winUse : List WinUse := []
  /-- Retired rows by stack (list; R177; reset empty). -/
  remaps : List RowRemap := []
  /-- Withdrawn granules' first bytes (list; R178; reset empty). -/
  withdrawn : List Nat := []
  /-- Open pages to move at the next step boundary: frame numbers (list; R178; reset empty). -/
  moveOpen : List Nat := []
  /-- Immutable objects being moved off a withdrawn granule (list; R178; reset empty). -/
  objMoves : List ObjMove := []
  /-- 2 MiB extents in use: first byte DPAs (list; R160; reset empty). -/
  extents : List Nat := []
  /-- DPAs of coded blocks whose length mismatch awaits the next boundary (list; R197; reset empty). -/
  mismatched : List Nat := []
  /-- Activations stored coded: first byte and container length (list; R182, R183; reset empty). -/
  coded : Tab Nat := []
  /-- Image loads in progress (list; R311; reset empty). -/
  loads : List ImgLoad := []
  /-- Stake images held, by STAKE_ID (list; R526; reset empty). -/
  stakes : Tab Stake := []
  /-- Retired stake images that a staged tile still reads, with their STAKE_ID (list; R159; reset empty). -/
  dying : List (Nat × Stake) := []
  /-- Damaged stake images without a copy: STAKE_IDs whose reload ends ST_RESTRICTED (list; R179, R197; reset empty). -/
  reload : List Nat := []
  /-- Stake copies held, by STAKE_ID (list; R165; reset empty). -/
  copies : Tab StakeCopy := []
  /-- The four table slots (4 slots; R151; reset EMPTY). -/
  slots : List TblSlot := List.replicate 4 {}
  /-- The slot made pending by TBL.ACTIVATE, with the packets to be answered (R151, R152; reset none). -/
  pendAct : Option (Nat × List Pkt) := none
  /-- Withy versions held, by WITHY_ID x 4,096 + VERSION (list; R286; reset empty). -/
  withies : Tab WithyVer := []
  /-- Resident slots (1,024 slots; R288; reset EMPTY). -/
  wslots : Tab WSlot := []
  /-- Order number of the next version to become CURRENT (64 bits; R286; reset 0). -/
  wborn : Nat := 0
deriving DecidableEq, Repr

end Sys2Proof.Machine
end

