-- ==== Sys2Proof/Machine/StSched.lean ====
section
/-! DEFINITION. State of compositions, epochs, share classes, metering and traffic shaping (chapter 15).

A field's docstring ends with its width, the rule of spec/ that names it and its reset value. -/

namespace Sys2Proof.Machine

/-- A composition's record (R399). -/
structure CompRec where
  /-- BERTH_RSV (16 bits; R399; reset 0). -/
  berthRsv : Nat := 0
  /-- BERTH_LIM (16 bits; R399; reset 0). -/
  berthLim : Nat := 0
  /-- FRAME_RSV (32 bits; R399; reset 0). -/
  frameRsv : Nat := 0
  /-- FRAME_LIM (32 bits; R399; reset 0). -/
  frameLim : Nat := 0
  /-- WITHY_RSV (16 bits; R399; reset 0). -/
  withyRsv : Nat := 0
  /-- WITHY_LIM (16 bits; R399; reset 0). -/
  withyLim : Nat := 0
deriving DecidableEq, Repr

/-- A composition's meter (R414). -/
structure Meter where
  /-- ACTIVE_US (64 bits; R414; reset 0). -/
  activeUs : Nat := 0
  /-- CORE_CYCLES (64 bits; R414; reset 0). -/
  coreCycles : Nat := 0
  /-- BYTES_OUT (64 bits; R414; reset 0). -/
  bytesOut : Nat := 0
  /-- BYTES_IN (64 bits; R414; reset 0). -/
  bytesIn : Nat := 0
  /-- PAGE_MS (64 bits; R414; reset 0). -/
  pageMs : Nat := 0
deriving DecidableEq, Repr

/-- A share class (R406). -/
structure ClassRec where
  /-- WEIGHT (8 bits; R406; reset 1). -/
  weight : Nat := 1
  /-- BOOST_MULT (8 bits; R406; reset 1). -/
  boostMult : Nat := 1
  /-- BOOST_US (32 bits; R406; reset 0). -/
  boostUs : Nat := 0
  /-- TBT_DEFAULT_US (32 bits; R406; reset 0xFFFF_FFFF). -/
  tbtDefault : Nat := 0xFFFFFFFF
  /-- WINDOW, W of R247 (32 bits; R406; reset 1,024). -/
  window : Nat := 1024
  /-- ATT_WINDOW, S of R264 (32 bits; R406; reset 0). -/
  attWindow : Nat := 0
  /-- ATT_GLOBAL, G of R264 (32 bits; R406; reset 0). -/
  attGlobal : Nat := 0
deriving DecidableEq, Repr

/-- A QP's traffic shaper (R415, R416). -/
structure Shaper where
  /-- RATE in MB/s (32 bits; R415; reset 0). -/
  rate : Nat := 0
  /-- BURST in bytes (24 bits; R415; reset 0). -/
  burst : Nat := 0
  /-- ENABLE (1 bit; R415; reset false). -/
  enabled : Bool := false
  /-- Token count in hundredths of a byte, so that one CLK_MGT tick adds RATE (signed; R416; reset 0). -/
  count100 : Int := 0
  /-- Tick at which the count was last brought up to date (64 bits; R416; reset 0). -/
  countAt : Nat := 0
  /-- Slot of the timing wheel it is on (12 bits; R416; reset none). -/
  slot : Option Nat := none
  /-- Frames it holds back while it is on the wheel, each with its port (list; R416; reset empty). -/
  frames : List (Nat × TxFrame) := []
deriving DecidableEq, Repr

/-- Scheduling outside the running step (chapter 15). -/
structure SchedSt where
  /-- SCH_EPOCH: current epoch E (32 bits; R402; reset 0). -/
  epoch : Nat := 0
  /-- SCH_EPOCH_PREV (32 bits; R402; reset 0). -/
  prev : Nat := 0
  /-- Current map: WEIGHT of each composition PRESENT (4,096 entries; R402; reset empty). -/
  map : Tab Nat := []
  /-- Previous map (4,096 entries; R402; reset empty). -/
  prevMap : Tab Nat := []
  /-- Tick at which the open drain window ends (64 bits; R403; reset none). -/
  drainEnd : Option Nat := none
  /-- Fenced compositions (list of 0-4,095; R405; reset empty). -/
  fenced : List Nat := []
  /-- Composition records (4,096 records; R399; reset zeros). -/
  comps : Tab CompRec := []
  /-- Meters (4,096 records; R414; reset zeros). -/
  meters : Tab Meter := []
  /-- Tick from which a composition has had an ATT.PARTIAL in service (4,096 entries of 64 bits; R414; reset none). -/
  serveSince : Tab Nat := []
  /-- Share classes (256 records; R406; reset the values at power-up). -/
  classes : Tab ClassRec := []
  /-- The share classes as the last weave built found them: their weights and boosts are in force until the next (256 records; R406;
  reset the values at power-up). -/
  classesWoven : Tab ClassRec := []
  /-- SCH_COMP_CREDIT: credits of R407 (4,096 signed 64-bit; R419; reset 0). -/
  credit : Tab Int := []
  /-- Composition of the last step run (12 bits; R407; reset 4,095). -/
  lastComp : Nat := 4095
  /-- Traffic shapers by QP (1,048,576 shapers; R415; reset disabled). -/
  shapers : Tab Shaper := []
  /-- SCH_WHEEL.CURSOR (12 bits; R419; reset 0). -/
  cursor : Nat := 0
  /-- Tick of the last wheel slot (64 bits; R416; reset 0). -/
  wheelAt : Nat := 0
  /-- Tick of the last 1 us queue sample (64 bits; R418; reset 0). -/
  sampleAt : Nat := 0
  /-- Tick of the last 1 ms page-frame metering (64 bits; R414; reset 0). -/
  pageMsAt : Nat := 0
deriving DecidableEq, Repr

end Sys2Proof.Machine
end

