-- ==== Sys2Proof/Machine/StStep.lean ====
section
/-! DEFINITION. State of cores and clusters, of the cluster sequencers, expanders and stagers, of the runs and the
running step, of replay verification and of the attention exchanges (chapters 2, 4, 5, 7, 10, 11, 15 and 16).

A field's docstring ends with its width, the rule of spec/ that names it and its reset value. -/

namespace Sys2Proof.Machine

/-! ## Cores and clusters -/

/-- A physical core slot (R116 to R122). -/
structure CoreSlot where
  /-- SEQ_CORE_STATUS.STATE: 0 NOT_PRESENT, 1 SERVING, 2 SPARE, 3 COVERING, 4 TESTING, 5 FENCED (3 bits; R125; reset 0). -/
  state : Nat := 0
  /-- ID_VALID and LOGICAL_ID: the ID the slot runs under (11 bits; R125; reset none). -/
  lid : Option Nat := none
  /-- The ID that a slot in TESTING gave to its cover and will resume (10 bits; R117; reset none). -/
  home : Option Nat := none
  /-- FENCE_CAUSE (4 bits; R125; reset 0). -/
  cause : Nat := 0
  /-- COVER_TEST (1 bit; R125; reset false). -/
  coverTest : Bool := false
  /-- SEQ_CORE_TEST.TEST_STATE: 0 idle, 1 due, 2 waiting for a spare, 3 loading the spare, 4 running (4 bits; R125; reset 0). -/
  testState : Nat := 0
  /-- SEQ_CORE_TEST.LAST_RESULT (4 bits; R125; reset 0). -/
  lastResult : Nat := 0
  /-- SEQ_CORE_TEST.TESTS_RUN (8 bits; R125; reset 0). -/
  testsRun : Nat := 0
  /-- SEQ_CORE_TEST.DEFER_STEPS (8 bits; R125; reset 0). -/
  deferSteps : Nat := 0
  /-- A counting window asked for the due test (1 bit; R118; reset false). -/
  counted : Bool := false
  /-- The TEST.SENTINEL commands that wait for the test's result (list; R118; reset empty). -/
  waiting : List Pkt := []
  /-- The ended test's outcome, until the boundary at which it takes effect (R117; reset none). -/
  ended : Option Bool := none
  /-- The slot is to be fenced at the next step boundary (1 bit; R426; reset false). -/
  fenceDue : Bool := false
  /-- Tick at which the running test program started (64 bits; R121; reset 0). -/
  testAt : Nat := 0
deriving DecidableEq, Repr

/-- A weight tile in a tile buffer (R101, R102). -/
structure TileBuf where
  /-- Format code of the weights. -/
  fmt : Nat
  /-- Activation format that fixed the tile's shape. -/
  afmt : Nat
  /-- Side-band code of the tensor. -/
  side : Nat
  /-- Element bytes, block after block. -/
  elems : Bytes
  /-- Block metadata records. -/
  recs : Bytes
  /-- Poisoned 32-element blocks: block number and kind (1 loss, 2 hardware). -/
  poison : Tab Nat
  /-- Blocks of it that the expander has still to deliver, and the step cycle at which the last came (R112, R136). -/
  left : Nat
  readyAt : Nat
  /-- It comes by the direct path (R113). -/
  direct : Bool
deriving DecidableEq, Repr

/-- A block that the expander is to deliver (R193). -/
structure ExpBlock where
  /-- DPA of the block. -/
  dpa : Nat
  /-- Coded, not raw or plain. -/
  coded : Bool
  /-- Symbols it holds. -/
  syms : Nat
  /-- The mismatch it decodes with: substream and cause of EXP_STATUS. -/
  mismatch : Option (Nat × Nat)
  /-- Tile buffers it is delivered into, keyed as the cluster's buffers are; and the CORES mask of the LOAD_TILE it belongs to
  (R109, R194). -/
  bufs : List Nat := []
  cores : Nat := 0
deriving DecidableEq, Repr

/-- A tile that the stager holds in the slice, or is staging (R172). -/
structure StagedTile where
  /-- Entry that named it. -/
  entry : Nat
  /-- The bytes it holds: HANDLE, with its stake image above bit 16, and offset of a tensor; 0xF000 and DPA of a batch slot's data; and
  their raw length. -/
  handle : Nat
  off : Nat
  len : Nat
  /-- Bytes it takes in the slice: those stored. -/
  bytes : Nat
  /-- Home: 0 HBM3E, 1 LPDDR5X (R175). -/
  tier : Nat
  /-- Step cycle at which its staging completed. -/
  since : Nat
deriving DecidableEq, Repr

/-- A SIGNAL on its way (R139). -/
structure FlagSignal where
  target : Nat
  flag : Nat
  /-- Step cycle of its delivery. -/
  at' : Nat
deriving DecidableEq, Repr

/-- A cluster with its sequencer, expander and slice (R49, R136 to R146, R172 to R175, R193). -/
structure Cluster where
  /-- SEQ_CLU_STATUS.LC_VALID: in service (1 bit; R125; reset false). -/
  present : Bool := false
  /-- SEQ_CLU_STATUS.LOGICAL_CLUSTER (7 bits; R125; reset 0). -/
  logical : Nat := 0
  /-- SEQ_CLU_STATUS.CORES: 8, 7 or 0 (4 bits; R125; reset 0). -/
  cores : Nat := 0
  /-- SEQ_CLU_STATUS.SEVEN_CORE (1 bit; R125; reset false). -/
  seven : Bool := false
  /-- A watchdog reset is in progress (1 bit; R144; reset false). -/
  resetting : Bool := false
  /-- A spare's microcode is being sent (1 bit; R66, R120; reset false). -/
  loading : Bool := false
  /-- Index of the next entry to issue (17 bits; R136; reset 0). -/
  pc : Nat := 0
  /-- END has issued (1 bit; R137; reset false). -/
  finished : Bool := false
  /-- The flags that are not 0 (64 counts of 16 bits; R139; reset 0). -/
  flags : Tab Nat := []
  /-- SIGNALs issued and not delivered (list; R139; reset empty). -/
  signals : List FlagSignal := []
  /-- The BARRIER waited at: scope and ID (R139; reset none). -/
  barrier : Option (Nat × Nat) := none
  /-- The next entry's fallback has been applied (1 bit; R140; reset false). -/
  fellBack : Bool := false
  /-- The next entry has been switched to the direct path, which another tile still takes (1 bit; R113, R114; reset false). -/
  switched : Bool := false
  /-- A direct-path tile is in flight: the entry that was switched (R114; reset none). -/
  direct : Option Nat := none
  /-- Running sums of 16-bit blocks: key 2^20 x position + accumulator address, next quarter and sums (R103; reset empty). -/
  carry : Tab (Nat × List Nat) := []
  /-- Tile buffers, 2 per core: key 2 x position + buffer (R102; reset empty). -/
  bufs : Tab TileBuf := []
  /-- Blocks the expander has still to deliver, in order (list; R194; reset empty). -/
  expander : List ExpBlock := []
  /-- Tiles staged in the slice (list; R172; reset empty). -/
  staged : List StagedTile := []
  /-- The tile being staged (R172; reset none). -/
  staging : Option StagedTile := none
  /-- Entry that the stager looks at next (17 bits; R172; reset 0). -/
  reach : Nat := 0
  /-- The reach has run past END into the next step (1 bit; R174; reset false). -/
  pastEnd : Bool := false
  /-- Step cycle at which the last entry issued (24 bits; R136; reset none). -/
  issuedAt : Option Nat := none
  /-- Step cycle up to which the next entry's stall cycles have been counted (24 bits; R141; reset 0). -/
  stalledTo : Nat := 0
  /-- The next entry has been found past its deadline with all data at hand but itself not fetched (1 bit; R141; reset false). -/
  unfetched : Bool := false
  /-- Step cycle at which the matrix engine of a position has streamed its last row (24 bits each; R102; reset 0). -/
  engine : Tab Nat := []
  /-- Step cycle and stall cause of the last late load into the core memory of a position (R115, R141, R194; reset none). -/
  loaded : Tab (Nat × Nat) := []
deriving DecidableEq, Repr

/-- A region's lighter and compressor (R50 to R53). -/
structure RegionSt where
  /-- LGT_STATUS fenced: the lighter (1 bit; R50; reset false). -/
  lighterFenced : Bool := false
  /-- CMP_STATUS.FENCED (1 bit; R202; reset false). -/
  compFenced : Bool := false
  /-- The base-network stop has failed (1 bit; R53; reset false). -/
  lost : Bool := false
  /-- Objects at the compressor, oldest first: symbols, container bytes, raw blocks (list; R199; reset empty). -/
  coding : List (Nat × Nat × Nat) := []
deriving DecidableEq, Repr

/-- Chapters 2 and 4. -/
structure CoreSt where
  /-- Core slots that are not in their reset state (1,152 slots; R116; reset NOT_PRESENT). -/
  slots : Tab CoreSlot := []
  /-- Clusters (128 clusters; R49; reset absent). -/
  clusters : Tab Cluster := []
  /-- Regions (32 regions; R50; reset in order). -/
  regions : Tab RegionSt := []
  /-- Die stacks fenced or absent (list of 0-3; R54; reset empty until power-up). -/
  stacksGone : List Nat := []
  /-- After a die-stack fence: stake images that it took and that STK.LOAD has not loaded again (list of STAKE_IDs; R65; reset
  empty). -/
  waitStakes : List Nat := []
  /-- After a die-stack fence: withy versions whose resident copies it took and that WTH.LOAD has not loaded again (list of WITHY_ID
  x 4,096 + VERSION; R65; reset empty). -/
  waitWithies : List Nat := []
  /-- After a die-stack fence: a table set that covers the new shape is still to be activated (1 bit; R65; reset false). -/
  waitTable : Bool := false
  /-- TEST.KAT commands that are running (list; R324; reset empty). -/
  kats : List Pkt := []
deriving DecidableEq, Repr

/-! ## Runs and the running step -/

/-- A row record of the batch descriptor (R412). -/
structure RowRec where
  mid : Nat
  position : Nat
  token : Nat
  /-- 0 token row, 1 draft row, 2 chunk position, 3 padding. -/
  kind : Nat
  ctx : Nat
  /-- The row has been turned into padding since the weave was built (R411). -/
  turned : Bool
deriving DecidableEq, Repr

/-- A slot record of the batch descriptor (R412). -/
structure SlotRec where
  /-- 0 INPUT, 1 HELD, 2 QUERY, 3 PASS, 4 unbound. -/
  kind : Nat
  flag : Nat
  format : Nat
  tier : Nat
  len : Nat
  addr : Nat
deriving DecidableEq, Repr

/-- A published batch descriptor (R412, R292). -/
structure Batch where
  stepSeq : Nat
  programId : Nat
  steps : Nat
  bucket : Nat
  liveRows : Nat
  tokenRows : Nat
  comp : Nat
  setSlot : Nat
  rows : List RowRec
  slots : List SlotRec
  /-- WITHY_LIST: resident slots. -/
  withies : List Nat
  /-- FWD_INDEX, INV_INDEX, TILE_BIND and TILE_ALPHA. -/
  fwd : List Nat
  inv : List Nat
  bind : List Nat
  alpha : List Nat
deriving DecidableEq, Repr

/-- Data written to, or read from, a batch slot: bytes at an offset. -/
structure SlotData where
  slot : Nat
  off : Nat
  bytes : Bytes
  /-- Poison of each byte: 0 none, 1 loss, 2 hardware. -/
  tags : List Nat
  /-- The data went through a compressor: its format, and whether the compressor was fenced. The bytes stand here in raw form
  (R52, R182). -/
  coded : Option (Nat × Bool) := none
deriving DecidableEq, Repr

/-- What SAMPLE chose for one row (R296). -/
structure RowSample where
  row : Nat
  token : Nat
  logits : Bytes
  nan : Bool
  degenerate : Bool
deriving DecidableEq, Repr

/-- A suspect step of a run and the rounds of its verification (R433 to R438). -/
structure Suspect where
  /-- Step index within the run. -/
  step : Nat
  stepSeq : Nat
  /-- Rows of the replay sample. -/
  sample : List Nat
  /-- The local digest. -/
  digest : Bytes
  /-- What the step read from its slots. -/
  inputs : List SlotData
  /-- 0 before the first round, then 1 or 2; 3 for a local re-run. -/
  round : Nat
  /-- ERR_REPLAY_PEER number of the round in progress, the TAGs of its parts (one SUSPECT.TEST each, R442) and the tick
  it began. -/
  peer : Option (Nat × List Nat × Nat)
  /-- Round 1's peer and digest. -/
  first : Option (Nat × Bytes)
deriving DecidableEq, Repr

/-- A run in progress, or awaiting its verdicts (R408, R433). -/
structure Run where
  batch : Batch
  /-- Index of the step to run next, or running. -/
  step : Nat
  /-- HELD writes of the run's completed steps, and of the running step. -/
  held : List SlotData
  heldNow : List SlotData
  /-- PASS data readable by the step, and written by the running step. -/
  pass : List SlotData
  passNow : List SlotData
  /-- What the running step has read. -/
  readNow : List SlotData
  /-- Samples of the run's last step. -/
  samples : List RowSample
  /-- Manifests whose row groups failed in the run, with the status to report (R280). -/
  lost : List (Nat × Nat)
  /-- The running step has been marked suspect; the checked tile when a drift sentinel did it. -/
  suspectNow : Bool
  drift : Option Nat
  /-- Suspect steps without a verdict. -/
  suspects : List Suspect
  /-- Every step is suspect (R437), and the local losses so far. -/
  allSuspect : Bool
  losses : Nat
  /-- The watchdog has ended the weave once (R145). -/
  wdogOnce : Bool
  /-- Consecutive poisoned outcomes of the step (R431). -/
  poisons : Nat
  /-- The next start of this step is a replay (R68, R430, R144). -/
  replay : Bool
  /-- Every step has run; verdicts are awaited (R433). -/
  ended : Bool
  /-- Tick at which its last step ended (R455). -/
  endedAt : Nat := 0
  /-- A local loss: the run starts again from its first step (R437). -/
  again : Bool := false
  /-- Smallest tag of the weave's manifests when it was built (R410). -/
  minTag : Nat
deriving DecidableEq, Repr

/-- What the engine is running. -/
inductive Running where
  /-- The next step of a composition's run. -/
  | run (comp : Nat)
  /-- A replay served for another device (R439). -/
  | service (id : Nat)
  /-- A local re-run of a suspect step of a composition's run (R438). -/
  | local' (comp stepSeq : Nat)
deriving DecidableEq, Repr

/-- The running step (R137). -/
structure StepRun where
  what : Running
  stepSeq : Nat
  /-- Tick of its start. -/
  since : Nat
  /-- Composition charged, and PLAN_CYCLES debited for it. -/
  comp : Nat
  plan : Nat
  /-- The overrun has been counted. -/
  overrun : Bool
  /-- Step cycles of a boundary reached during a control-plane restart, which is applied when the restart ends (R452). -/
  held : Option Nat := none
  /-- Tick up to which its composition's activity has been metered (R414). -/
  metered : Nat := 0
deriving DecidableEq, Repr

/-- A replay asked for by another device (R439, R440). -/
structure ReplaySvc where
  path : Path
  stepSeq : Nat
  round : Nat
  programId : Nat
  step : Nat
  setId : Nat
  rows : Nat
  parts : Tab Bytes
  count : Nat
  comp : Nat
  /-- Tick of its first part. -/
  since : Nat
  /-- Every part has arrived; the last part, for its final reply. -/
  last : Option Pkt
deriving DecidableEq, Repr

/-! ## Attention exchanges -/

/-- An ATT.PARTIAL sent and not closed (R273 to R281), by TAG. -/
structure Exchange where
  berth : Nat
  mid : Nat
  comp : Nat
  stepSeq : Nat
  /-- Cluster and QUERY slot that sent it. -/
  cluster : Nat
  slot : Nat
  /-- The descriptor and the queries of the SEND, incoming state left out. -/
  msg : Bytes
  /-- The state that the run continues: statistics and outputs of R272, empty for the empty state; and its poison kind. -/
  state : Bytes
  tag : Nat
  /-- First page and page count of the run outstanding, and the page index at which the SEND's run ends. -/
  first : Nat
  count : Nat
  last : Nat
  holder : Nat
  /-- QP it left on; 2^20 while it waits for a SYS.HELLO (R528). -/
  qp : Nat
  /-- The first core that the SEND names. -/
  core : Nat
  /-- The SEND it belongs to, and the segment of it that it folds (R270). -/
  group : Nat
  seg : Nat
  /-- Its run is sent again after a failed exchange (R279, R282). -/
  again : Bool := false
  /-- Tick at which its first packet was sent, once that has started (R279). -/
  sentAt : Option Nat
  /-- Its status reply, ST_PENDING, has arrived (R279). -/
  pended : Bool := false
deriving DecidableEq, Repr

/-- A SEND to a QUERY slot whose result is not yet formed (R270, R275). -/
structure AttGroup where
  /-- Segments it spans. -/
  segments : Nat
  /-- Segments folded: state and poison kind. -/
  done : Tab (Bytes × Nat)
deriving DecidableEq, Repr

/-- An ATT.PARTIAL accepted for folding (R278). -/
structure AttService where
  pkt : Pkt
  /-- Frames of the pages it reads, whose references it holds. -/
  frames : List Nat
deriving DecidableEq, Repr

/-- Chapters 5, 10, 15 and 16: what the engine runs. -/
structure EngSt where
  /-- Runs in progress or awaiting verdicts, by composition (at most 16 in progress; R408; reset empty). -/
  runs : Tab Run := []
  /-- The running step (R137; reset none). -/
  step : Option StepRun := none
  /-- The composition chosen to follow (R407; reset none). -/
  next : Option Nat := none
  /-- The device's STEP_SEQ counter (32 bits; R412; reset 0). -/
  seq : Nat := 0
  /-- SEQ_STEP_SEQ while no step runs: the number of the last completed step (32 bits; R153; reset 0). -/
  lastSeq : Nat := 0
  /-- Tick from which no step has been ready (64 bits; R419; reset none). -/
  idleSince : Option Nat := none
  /-- Weaves built so far, for R290 (64 bits; R290; reset 0). -/
  weaves : Nat := 0
  /-- Smallest tag of each composition's most recently built weave (R410; reset 0). -/
  lastMin : Tab Nat := []
  /-- The one-step run of a replay in service or of a local re-run, while it is chosen or runs (R438, R439; reset none). -/
  aux : Option Run := none
  /-- Replays in service or being received (at most 4 in service; R439; reset empty). -/
  services : Tab ReplaySvc := []
  /-- Attention exchanges outstanding, by TAG (list; R273; reset empty). -/
  exch : Tab Exchange := []
  /-- SENDs to QUERY slots whose results are not yet formed (list; R270, R275; reset empty). -/
  groups : Tab AttGroup := []
  /-- Holders passed over in the running step: berth, layer, holder, and the page that it reported missing or poisoned, if it
  did (list; R279, R280; reset empty). -/
  passed : List (Nat × Nat × Nat × Option Nat) := []
  /-- ATT.PARTIALs being folded (list; R278; reset empty). -/
  folds : Tab AttService := []
deriving DecidableEq, Repr

end Sys2Proof.Machine
end

