-- ==== Sys2Proof/Machine/State.lean ====
section
/-! DEFINITION. The state of the VN-840, the reasons a step can stop, and the state after reset.

`State` is plain data. Its parts stand in StBase, StFab, StSched, StMan, StMem and StStep. -/

namespace Sys2Proof.Machine

/-- The device, with the queue of the commands and events that wait. -/
structure State where
  /-- Commands and events waiting, first in, first out (the model's own queue; log 1; reset empty). -/
  pending : List Instr := []
  /-- The free-running CLK_MGT counter, in 10 ns ticks (64 bits; R36; reset 0). -/
  tick : Nat := 0
  /-- Free values taken so far (the model's own counter; log 8; reset DESIGN CHOICE 0, log 8). -/
  free : Nat := 0
  /-- What the device has sent, posted, raised or driven, newest first (the model's own; log 4; reset empty). -/
  out : List Out := []
  /-- BAR0 registers whose stored value is not their reset value, by offset (R22; reset every register at its reset value). -/
  regs : Tab Nat := []
  /-- Bring-up and identity (chapter 17). -/
  dev : DevSt := {}
  /-- The configuration flash (chapter 17). -/
  flash : FlashSt := {}
  /-- Error reporting and the control-plane restart (chapter 16). -/
  err : ErrSt := {}
  /-- Submission rings that are not in their reset state (1,024 rings; R334; reset DISABLED). -/
  sq : Tab SqRing := []
  /-- Completion rings that are not in their reset state (1,024 rings; R336; reset DISABLED). -/
  cq : Tab CqRing := []
  /-- Messages of per-packet opcodes in progress (list; R310; reset empty). -/
  msgs : List MsgIn := []
  /-- Messages whose later packets are discarded (list; R314; reset empty). -/
  discards : List MsgIn := []
  /-- PCIe link, functions and MSI-X (chapter 18). -/
  pcie : PcieSt := {}
  /-- Management paths (chapter 18). -/
  mgmt : MgmtSt := {}
  /-- Power and temperature (chapter 19). -/
  pwr : PwrSt := {}
  /-- The fabric (chapter 13). -/
  fab : FabSt := {}
  /-- Memory-semantic access (chapter 14). -/
  msa : MsaSt := {}
  /-- Compositions, epochs, share classes and shaping (chapter 15). -/
  sched : SchedSt := {}
  /-- Manifests and pages (chapters 8 and 9). -/
  man : ManSt := {}
  /-- Memory tiers, tables, stakes and withies (chapters 5, 6 and 11). -/
  tier : MemSt := {}
  /-- Cores and clusters (chapters 2 and 4). -/
  core : CoreSt := {}
  /-- Runs, the running step, replays and attention exchanges (chapters 5, 10, 15 and 16). -/
  eng : EngSt := {}
  /-- HBM3E, LPDDR5X and context SRAM by DPA, unlisted bytes reading 0 (48-bit addresses; R167; reset DESIGN CHOICE 0, log 6). -/
  mem : List Host.Cell := []
  /-- DPAs divided by 8 of the 64-bit words that carry poison: 1 loss, 2 hardware (R428; reset none). -/
  memPoison : Tab Nat := []
  /-- Core memory, key slot x 2^20 + address, unlisted bytes reading 0 (1,152 x 1 MiB; R105; reset 0). -/
  coreMem : List Host.Cell := []
  /-- Core-memory words that carry poison, key divided by 8: 1 loss, 2 hardware (R428; reset none). -/
  corePoison : Tab Nat := []
  /-- Saturations of the running step held in staging, key 16 x slot + format code (64 bits each; R95; reset 0). -/
  satNow : Tab Nat := []
  /-- MMA entries with NaN inputs of the running step held in staging, by slot (64 bits each; R95; reset 0). -/
  nanNow : Tab Nat := []
deriving DecidableEq, Repr

/-- Why a run of the model stops with a fault. -/
inductive Fault where
  /-- A table entry's bound batch slot places data at a DPA that R167 reserves: the spec gives no target there. Raised by
  the table entries that read or write bound slots. Safe: the machine stops where nothing is stated. -/
  | reservedDpa (dpa : Nat)
deriving DecidableEq, Repr

/-- Why a command has no meaning. -/
inductive Refusal where
  /-- The command has not been modelled. Raised by its arm of `exec`. Safe: nothing follows. -/
  | notModelled (mnemonic : String)
deriving DecidableEq, Repr

/-- The machine right after reset: PKG_RESET_N held, every register at its reset value, memory with nothing listed
(R458, R514). -/
def State.reset : State := {}

end Sys2Proof.Machine
end

