-- ==== Sys2Proof/Machine/Ops.lean ====
section
/-! DEFINITION. The named operations over the state that the meanings share: the queue and the clock, registers,
memory and poison, free values, MSI-X messages and device events, error records, and restricted mode. -/

namespace Sys2Proof.Machine

/-! ## Queue, clock, outputs -/

/-- `s` with the queue `q`. -/
def State.withPending (s : State) (q : List Instr) : State := { s with pending := q }

/-- One CLK_MGT tick in which nothing is commanded (log 1). -/
def idle (s : State) : State := { s with tick := s.tick + 1 }

/-- Bring the CLK_MGT counter up to the tick at which an event falls; it never runs back (R36, log 2). -/
def atTick (now : Nat) (s : State) : State := { s with tick := max s.tick now }

/-- Add to what the device has sent (log 4). -/
def emit (o : Out) (s : State) : State := { s with out := o :: s.out }

/-- Microseconds and milliseconds in CLK_MGT ticks of 10 ns (R36). -/
def usTicks (us : Nat) : Nat := 100 * us
def msTicks (ms : Nat) : Nat := 100000 * ms

/-- What a packet has left when its transmission begins: the residence since the start tick, rounded up, and the link delay are
taken from it, and it stops at 0 (R34 to R36). -/
def budgetLeft (b : Budget) (now : Nat) : Nat :=
  if b.left = 0xFFFFFFFF then b.left else b.left - (max b.least (divUp (now - b.since) 100) + b.link)

/-- A free value below `2 ^ w`, and the state that has taken it (log 8). -/
def takeFree (w : Nat) (s : State) : Nat × State :=
  (Config.freeValue s.free % 2 ^ w, { s with free := s.free + 1 })

/-- Later reads of host memory, and of unwritten bytes, may return other bytes (log 26, log 29). -/
def freeNext (s : State) : State := { s with free := s.free + 1 }

/-! ## Parts of the state -/

def modDev (f : DevSt → DevSt) (s : State) : State := { s with dev := f s.dev }
def modFlash (f : FlashSt → FlashSt) (s : State) : State := { s with flash := f s.flash }
def modErr (f : ErrSt → ErrSt) (s : State) : State := { s with err := f s.err }
def modPcie (f : PcieSt → PcieSt) (s : State) : State := { s with pcie := f s.pcie }
def modMgmt (f : MgmtSt → MgmtSt) (s : State) : State := { s with mgmt := f s.mgmt }
def modPwr (f : PwrSt → PwrSt) (s : State) : State := { s with pwr := f s.pwr }
def modFab (f : FabSt → FabSt) (s : State) : State := { s with fab := f s.fab }
def modMsa (f : MsaSt → MsaSt) (s : State) : State := { s with msa := f s.msa }
def modSched (f : SchedSt → SchedSt) (s : State) : State := { s with sched := f s.sched }
def modMan (f : ManSt → ManSt) (s : State) : State := { s with man := f s.man }
def modTier (f : MemSt → MemSt) (s : State) : State := { s with tier := f s.tier }
def modCore (f : CoreSt → CoreSt) (s : State) : State := { s with core := f s.core }
def modEng (f : EngSt → EngSt) (s : State) : State := { s with eng := f s.eng }

/-! ## Registers -/

/-- The stored word of the register at `off` (R22). -/
def regGet (s : State) (off : Nat) : Nat := tabGetD s.regs off (regReset off)

/-- Store the word of the register at `off`. -/
def regPut (off v : Nat) (s : State) : State := { s with regs := tabSet s.regs off v (regReset off) }

/-- The largest count of a 64-bit counter, at which it stops (R124). -/
def cntMax : Nat := 2 ^ 64 - 1

/-- Add `k` to the counter at `off`; it stops at its largest value (R124). -/
def bump (off k : Nat) (s : State) : State := regPut off (min (regGet s off + k) cntMax) s

/-- Keep the larger of a maximum register and `v`, which stops at the largest 32-bit value. -/
def keepMax (off v : Nat) (s : State) : State := regPut off (max (regGet s off) (min v (2 ^ 32 - 1))) s

/-- A field of the register at `off`. -/
def regField (s : State) (off hi lo : Nat) : Nat := bits (regGet s off) hi lo

/-! ## Memory (R167) and poison (R428) -/

/-- Write bytes at consecutive addresses; unlisted addresses read 0 (log 6). -/
def cellsWrite (m : List Host.Cell) (a : Nat) : Bytes → List Host.Cell
  | [] => m
  | b :: bs => cellsWrite (tabSet m a b 0#8) (a + 1) bs

/-- The byte at an address. -/
def cellRead (m : List Host.Cell) (a : Nat) : Byte := tabGetD m a 0#8

/-- `n` bytes at an address. -/
def cellsRead (m : List Host.Cell) (a n : Nat) : Bytes := (List.range n).map fun i => cellRead m (a + i)

/-- The canonical form of a memory: addresses strictly rising, no byte equal to what an unlisted address reads as. -/
abbrev Memory.wf (m : List Host.Cell) : Bool := tabWf m (0#8)

/-- The numbers of the 64-bit words that `n` bytes at `a` touch. -/
def wordsOf (a n : Nat) : List Nat :=
  if n = 0 then [] else (List.range ((a + n - 1) / 8 - a / 8 + 1)).map (a / 8 + ·)

/-- The tag of each of `n` bytes at `a`: 0 none, 1 loss, 2 hardware. -/
def tagsRead (t : Tab Nat) (a n : Nat) : List Nat := (List.range n).map fun i => tabGetD t ((a + i) / 8) 0

/-- The worst of a list of tags. -/
def worst (l : List Nat) : Nat := l.foldl max 0

/-- The tag a word takes from the bytes stored into it; a store of clean data clears the word (R428). -/
def wordTag (a : Nat) (tags : List Nat) (w : Nat) : Nat :=
  worst ((List.range tags.length).map fun i => if (a + i) / 8 = w then tags.getD i 0 else 0)

/-- Give the words that the bytes at `a` touch their tags. -/
def tagsWrite (t : Tab Nat) (a : Nat) (tags : List Nat) : Tab Nat :=
  (wordsOf a tags.length).foldl (fun t w => tabSet t w (wordTag a tags w) 0) t

/-- As many clean tags as there are bytes. -/
def clean (b : Bytes) : List Nat := List.replicate b.length 0

/-- Read device memory, and the tags of its bytes, by DPA. -/
def memRead (s : State) (a n : Nat) : Bytes := cellsRead s.mem a n
def memTags (s : State) (a n : Nat) : List Nat := tagsRead s.memPoison a n

/-- Write bytes with their tags by DPA. -/
def memWrite (a : Nat) (b : Bytes) (tags : List Nat) (s : State) : State :=
  { s with mem := cellsWrite s.mem a b, memPoison := tagsWrite s.memPoison a tags }

/-- Write clean bytes by DPA. -/
def memStore (a : Nat) (b : Bytes) (s : State) : State := memWrite a b (clean b) s

/-- Whether a DPA lies in a range that R167 gives a target. -/
def dpaMapped (a : Nat) : Bool :=
  a < 0x9000000000 || (0x10000000000 ≤ a && a < 0x18000000000) ||
    (0x20000000000 ≤ a && a < 0x20001000000)

/-! ## MSI-X messages and device events (R492, R493) -/

/-- The MSI-X vector of a function. -/
def msixVec (s : State) (fn v : Nat) : MsixVec := tabGetD s.pcie.msix (2048 * fn + v) {}

/-- A message falls due on a vector: it is sent, or held as pending while the vector or the function is masked. -/
def msixRaise (fn v : Nat) (s : State) : State :=
  if (msixVec s fn v).masked || fn ∈ s.pcie.fnMasked then
    modPcie (fun p => { p with msix := tabSet p.msix (2048 * fn + v) { msixVec s fn v with pending := true } {} }) s
  else bump DEV_MSIX_SENT_CNT 1 (emit (.msix fn v) s)

/-- A device event sets its bit of DEV_IRQ_STATUS; a bit going from 0 to 1 with its enable bit set sends one message. -/
def irqEvent (b : Nat) (s : State) : State :=
  if bit (regGet s DEV_IRQ_STATUS) b then s
  else
    let s' := regPut DEV_IRQ_STATUS (setBits (regGet s DEV_IRQ_STATUS) b b 1) s
    if bit (regGet s DEV_IRQ_ENABLE) b then msixRaise 0 (regField s DEV_IRQ_VECTOR 10 0) s' else s'

/-! ## Error records (R422, R443 to R446) -/

/-- What a record says, before its tick, device and count. -/
structure RecWords where
  cause : Nat
  cls : Nat
  flags : Nat := 0
  kind : Nat := 0
  unit : Nat := 0
  addr : Nat := 0
  c0 : Nat := 0
  c1 : Nat := 0
  c2 : Nat := 0
deriving DecidableEq, Repr

/-- STEP_SEQ of a record: the running step, 0xFFFF_FFFF when none (R445). -/
def recStep (s : State) : Nat := match s.eng.step with | some r => r.stepSeq | none => 0xFFFFFFFF

/-- The identity digest: the first 16 bytes of the digest of the identity public key (R475). -/
def identityDigest (s : State) : Bytes := (sha256 s.dev.idKey).take 16

/-! ### The Common Platform Error Record (R444, R445) -/

/-- The vendor section of a record (R445). -/
def vendorBytes (r : ErrRec) : Bytes :=
  toLe 2 1 ++ toLe 2 r.cause ++ toLe 1 r.cls ++ toLe 1 r.flags ++ toLe 1 r.unitKind ++ toLe 1 0 ++ toLe 4 r.unit ++ toLe 4 r.stepSeq ++
    toLe 8 r.tick ++ toLe 6 r.address ++ toLe 2 r.deviceId ++ toLe 4 r.count ++ toLe 4 0 ++ toLe 8 r.c0 ++ toLe 8 r.c1 ++ toLe 8 r.c2

/-- A GUID as the UEFI Specification stores it: its first three parts little-endian. -/
def guidBytes (a b c d : Nat) : Bytes := toLe 4 a ++ toLe 2 b ++ toLe 2 c ++ (toLe 8 d).reverse

/-- Notification types: Corrected Machine Check for CE, Machine Check Exception otherwise (log 146). -/
def notificationType (cls : Nat) : Bytes :=
  if cls = 0 then guidBytes 0x2DCE8BB1 0xBDD7 0x450E 0xB9AD9CF4EBD4F890 else guidBytes 0xE8F56FFE 0x919C 0x4CC5 0xBA8865ABE14913BB

/-- Error Severity: 2 for CE, 0 for UE, 1 for FATAL. -/
def cperSeverity (cls : Nat) : Nat := if cls = 0 then 2 else if cls = 1 then 0 else 1

/-- Record ID: the page-ID generation in bits 63:56 and the record serial in bits 55:0. -/
def cperRecordId (s : State) (r : ErrRec) : Nat := 2 ^ 56 * (s.man.gen % 256) + r.serial % 2 ^ 56

/-- The 128-byte record header. What R444 does not fill is 0; a package without an identity has Platform ID 0 (log 146). -/
def cperHeader (s : State) (r : ErrRec) : Bytes :=
  [0x43#8, 0x50#8, 0x45#8, 0x52#8] ++ toLe 2 0x0101 ++ toLe 4 0xFFFFFFFF ++ toLe 2 1 ++ toLe 4 (cperSeverity r.cls) ++ toLe 4 1 ++
    toLe 4 264 ++ toLe 8 0 ++ (if s.dev.idValid then identityDigest s else zeros 16) ++ zeros 16 ++ zeros 16 ++
    notificationType r.cls ++ toLe 8 (cperRecordId s r) ++ toLe 4 0 ++ zeros 8 ++ zeros 12

/-- The 72-byte section descriptor, with the Izmund vendor GUID; its revision and severity are those of the record (log 146). -/
def cperSection (r : ErrRec) : Bytes :=
  toLe 4 200 ++ toLe 4 64 ++ toLe 2 0x0101 ++ toLe 1 0 ++ toLe 1 0 ++ toLe 4 1 ++ guidBytes 0x6E1D0840 0x0C3B 0x4E7A 0x9A155F2D6B8C1E47 ++
    zeros 16 ++ toLe 4 (cperSeverity r.cls) ++ zeros 20

/-- The 264-byte payload of ERR.RECORD (R444). -/
def cperBytes (s : State) (r : ErrRec) : Bytes := cperHeader s r ++ cperSection r ++ vendorBytes r

/-- The pin a running feature owns (R469). -/
def ownedPin (s : State) (feature : Nat) : Option Nat :=
  if bit s.dev.featuresOn feature then (s.dev.owns.find? fun e => e.1 = feature).map (·.2) else none

/-- A collector entry is one that records go to: protocol 1 and a port (R443, R467). -/
def collectorValid (b : Bytes) (n : Nat) : Bool := leAt b (118 + 20 * n) 2 = 1 && leAt b (116 + 20 * n) 2 ≠ 0

/-- The collectors that the configuration record names (R443). -/
def collectors (s : State) : List Nat := (List.range 4).filter (collectorValid s.dev.cfg)

/-- A record leaves for each collector; a UE record raises UE_RECORD, and a UE or FATAL record drives FAULT_OUT low. -/
def recSend (r : ErrRec) (s : State) : State :=
  let s1 := bump ERR_REC_SENT_CNT 1 ((collectors s).foldl (fun t n => emit (.record n (cperBytes s r)) t) s)
  let s2 := if r.cls = 1 then irqEvent 2 s1 else s1
  match r.cls, ownedPin s2 0 with
  | 0, _ => s2
  | _, some p => emit (.pin (.gpio p) false) (modDev (fun d => { d with faultLow := true }) s2)
  | _, none => s2

/-- Write a record into the log of 1,024 (R446). -/
def recLog (r : ErrRec) (e : ErrSt) : ErrSt :=
  { e with log := tabPut e.log e.head r, head := (e.head + 1) % 1024, wrap := e.wrap || e.head + 1 = 1024,
           serial := e.serial + 1 }

/-- The rate-limiting entry of a cause and unit (R443). -/
def rateFind (e : ErrSt) (w : RecWords) : Option RateEntry :=
  e.rate.find? fun x => x.cause = w.cause && x.unitKind = w.kind && x.unit = w.unit

/-- Replace the rate-limiting entry of a cause and unit. -/
def ratePut (e : ErrSt) (x : RateEntry) : ErrSt :=
  { e with rate := x :: e.rate.filter fun y => !(y.cause = x.cause && y.unitKind = x.unitKind && y.unit = x.unit) }

/-- The counter of a class of events (R454). -/
def classCnt (cls : Nat) : Nat := if cls = 0 then ERR_CE_CNT else if cls = 1 then ERR_UE_CNT else ERR_FATAL_CNT

/-- Whether a CE record of this cause and unit was sent within ERR_RATE.MS (R443). -/
def rateHolds (s : State) (w : RecWords) : Bool :=
  w.cls = 0 && match rateFind s.err w with
    | some x => s.tick < x.lastTick + msTicks (regField s ERR_RATE 15 0)
    | none => false

/-- The vendor section of a record (R445). -/
def recFill (s : State) (w : RecWords) : ErrRec :=
  { cause := w.cause, cls := w.cls, flags := w.flags, unitKind := w.kind, unit := w.unit, stepSeq := recStep s,
    tick := s.tick, address := w.addr, deviceId := s.dev.deviceId,
    count := (match rateFind s.err w with | some x => x.withheld | none => 0) + 1,
    c0 := w.c0, c1 := w.c1, c2 := w.c2, serial := s.err.serial }

/-- Raise an error event: count it, and send and log its record, or withhold a CE record under R443. While the
management controller restarts the record is logged and held (R453). -/
def record (w : RecWords) (s : State) : State :=
  let s1 := bump (classCnt w.cls) 1 s
  if rateHolds s w then
    let x := (rateFind s.err w).getD ⟨w.cause, w.kind, w.unit, s.tick, 0⟩
    bump ERR_REC_SUPPRESSED_CNT 1 (modErr (fun e => ratePut e { x with withheld := x.withheld + 1 }) s1)
  else
    let r := recFill s w
    let s2 := modErr (fun e => recLog r (ratePut e ⟨w.cause, w.kind, w.unit, s.tick, 0⟩)) s1
    if s.err.mgtDown then modErr (fun e => { e with heldRecs := e.heldRecs ++ [r] }) s2 else recSend r s2

/-! ## Restricted mode (R22 of chapter 0, R422) -/

/-- The device is in restricted mode. -/
def restricted (s : State) : Bool := s.dev.restrict ≠ 0

/-- Enter restricted mode for a cause of the RESTRICTED record; a further cause joins those that apply (log 11). -/
def restrictEnter (cause : Nat) (s : State) : State :=
  if restricted s then modDev (fun d => { d with causes := if d.causes.contains cause then d.causes else d.causes ++ [cause] }) s
  else
    irqEvent 3 (record { cause := 0x4A, cls := 1, flags := 4, c0 := cause } (modDev (fun d => { d with restrict := cause, causes := [cause] }) s))

/-- A cause of restricted mode no longer applies; with none left the device leaves restricted mode (R63). -/
def restrictLeave (cause : Nat) (s : State) : State :=
  let l := s.dev.causes.filter fun c => c ≠ cause
  modDev (fun d => { d with causes := l, restrict := if l.isEmpty then 0 else d.restrict }) s

end Sys2Proof.Machine
end

