-- ==== Sys2Proof/Machine/Areas.lean ====
section
/-! DEFINITION. The areas of the memory tiers (R161), page frames and extents (R160). -/

namespace Sys2Proof.Machine

/-- One GiB, one 72 KiB page frame, one 2 MiB extent (R160). -/
def gib : Nat := 2 ^ 30
def frameBytes : Nat := 73728
def extBytes : Nat := 2 ^ 21

/-- First DPA of an HBM3E stack (R167). -/
def hbmBase (stack : Nat) : Nat := 0xC00000000 * stack

/-- First DPA of an LPDDR5X set: 0 north, 1 south (R167). -/
def lpxBase (set : Nat) : Nat := 0x10000000000 + 0x4000000000 * set

/-- First byte after SYS and TABLE in a stack: areas lie in the order of R161's table (DESIGN CHOICE, log 28). -/
def hbmStakeBase (stack : Nat) : Nat := hbmBase stack + gib * (if stack % 3 = 0 then 5 else 1)

/-- First byte of a stack's WITHY and PAGE areas. -/
def hbmWithyBase (s : State) (stack : Nat) : Nat := hbmStakeBase stack + gib * s.tier.hbmStake
def hbmPageBase (s : State) (stack : Nat) : Nat := hbmWithyBase s stack + gib * s.tier.hbmWithy

/-- First byte of an LPDDR5X set's WITHY and PAGE areas; STAKE comes first. -/
def lpxWithyBase (s : State) (set : Nat) : Nat := lpxBase set + gib * s.tier.lpxStake
def lpxPageBase (s : State) (set : Nat) : Nat := lpxWithyBase s set + gib * s.tier.lpxWithy

/-- Stacks and sets that serve. -/
def hbmServes (s : State) (stack : Nat) : Bool := s.tier.hbm.getD stack 0 = 1
def lpxServes (s : State) (set : Nat) : Bool := (List.range 8).all fun d => s.tier.lpx.getD (8 * set + d) 0 = 1

/-- Page areas in frame order: first byte and frames, HBM3E stacks 0-11, then the two LPDDR5X sets (log 28). -/
def pageAreas (s : State) : List (Nat × Nat) :=
  ((List.range 12).map fun k => (hbmPageBase s k, (hbmBase (k + 1) - hbmPageBase s k) / frameBytes)) ++
  ((List.range 2).map fun k => (lpxPageBase s k, (lpxBase (k + 1) - lpxPageBase s k) / frameBytes))

/-- The first byte of frame `n` in a list of areas. -/
def frameIn : List (Nat × Nat) → Nat → Nat
  | [], _ => 0
  | (b, k) :: t, n => if n < k then b + frameBytes * n else frameIn t (n - k)

/-- The first byte of page frame `n` (R242). -/
def frameDpa (s : State) (n : Nat) : Nat := frameIn (pageAreas s) n

/-- The frame that holds a DPA, counting from `base` frames. -/
def frameNoIn : List (Nat × Nat) → Nat → Nat → Option Nat
  | [], _, _ => none
  | (b, k) :: t, base, a =>
    if b ≤ a && a < b + frameBytes * k then some (base + (a - b) / frameBytes) else frameNoIn t (base + k) a

/-- The page frame that holds a DPA. -/
def frameNo (s : State) (a : Nat) : Option Nat := frameNoIn (pageAreas s) 0 a

/-- Whether a granule of `n` bytes at `a` has been withdrawn (R178). -/
def isWithdrawn (s : State) (a n : Nat) : Bool := s.tier.withdrawn.any fun w => a ≤ w && w < a + n

/-- Whether frame `n` can be taken in a page area of a serving stack or set. -/
def frameFree (s : State) (n : Nat) : Bool :=
  (tabGet s.man.frames n).isNone && !isWithdrawn s (frameDpa s n) frameBytes

/-- The first `n`, counting up from `k` through `fuel` numbers, that satisfies `p`. -/
def firstFrom (p : Nat → Bool) : Nat → Nat → Option Nat
  | 0, _ => none
  | fuel + 1, k => if p k then some k else firstFrom p fuel (k + 1)

/-- Frame numbers of the areas that serve, HBM3E only or LPDDR5X only: first number and count. -/
def frameRanges (s : State) (lpx : Bool) : List (Nat × Nat) :=
  let a := pageAreas s
  let start := fun i => ((a.take i).map (·.2)).sum
  (List.range 14).filterMap fun i =>
    if lpx then (if 12 ≤ i && lpxServes s (i - 12) then some (start i, (a.getD i (0, 0)).2) else none)
    else if i < 12 && hbmServes s i then some (start i, (a.getD i (0, 0)).2) else none

/-- The lowest free page frame of a tier; the search meets a free one after at most the frames in use and the
withdrawn ones. -/
def frameTake (s : State) (lpx : Bool) : Option Nat :=
  (frameRanges s lpx).findSome? fun r =>
    firstFrom (frameFree s) (min r.2 (s.man.frames.length + s.tier.withdrawn.length + 1)) r.1

/-- The lowest free 2 MiB extent between two addresses. -/
def extFind (s : State) (lo hi : Nat) : Option Nat :=
  (firstFrom (fun k => !s.tier.extents.contains (lo + extBytes * k) && !isWithdrawn s (lo + extBytes * k) extBytes)
    (min ((hi - lo) / extBytes) (s.tier.extents.length + s.tier.withdrawn.length + 1)) 0).map fun k => lo + extBytes * k

/-- Take `n` extents from the areas given, in order: their addresses, or none when they lack room. -/
def extTake (areas : List (Nat × Nat)) : Nat → State → Option (List Nat × State)
  | 0, s => some ([], s)
  | n + 1, s =>
    match areas.findSome? fun a => extFind s a.1 a.2 with
    | none => none
    | some e =>
      match extTake areas n (modTier (fun t => { t with extents := e :: t.extents }) s) with
      | none => none
      | some (l, s') => some (e :: l, s')

/-- Return extents. Their bytes stay as they are until something writes them. -/
def extFree (l : List Nat) (s : State) : State :=
  modTier (fun t => { t with extents := t.extents.filter fun e => !l.contains e }) s

/-- Write bytes across extents, from the first byte of the first. -/
def extWrite : List Nat → Bytes → State → State
  | [], _, s => s
  | e :: t, b, s => if b.isEmpty then s else extWrite t (b.drop extBytes) (memStore e (b.take extBytes) s)

/-- The 2 MiB extent that holds a DPA. -/
def extentOf (a : Nat) : Nat := a / extBytes * extBytes

/-- Whether one of the extents `l` holds the byte at `a`. -/
def extHolds (a : Nat) (l : List Nat) : Bool := l.any fun e => decide (e ≤ a) && decide (a < e + extBytes)

/-- `n` bytes at offset `off` of an object held in extents, and their tags. -/
def extRead (s : State) (l : List Nat) (off n : Nat) : Bytes × List Nat :=
  let at' := fun i => l.getD (i / extBytes) 0 + i % extBytes
  ((List.range n).map fun i => cellRead s.mem (at' (off + i)),
    (List.range n).map fun i => tabGetD s.memPoison (at' (off + i) / 8) 0)

/-! ## Host windows (R170) -/

/-- Whether host window `n` is enabled for a use: 0 swap snapshots, 1 QP contexts. -/
def winServes (s : State) (n use : Nat) : Bool :=
  bit (regGet s (MEM_HOSTWIN_CTRL n)) 0 && regField s (MEM_HOSTWIN_CTRL n) 2 1 = use

/-- Whether `len` bytes at `off` of a window meet a live object. -/
def winMeets (s : State) (n off len : Nat) : Bool :=
  s.tier.winUse.any fun u => u.win = n && decide (u.off < off + len) && decide (off < u.off + u.len)

/-- Offsets at which an object may start: the window's first byte, and behind each live object. -/
def winStarts (s : State) (n : Nat) : List Nat := 0 :: (s.tier.winUse.filter fun u => u.win = n).map fun u => u.off + u.len

/-- The lowest window of a use, and the lowest start in it, with room for `len` bytes (DESIGN CHOICE, log 42). -/
def winFind (s : State) (use len : Nat) : Option (Nat × Nat) :=
  (List.range 16).findSome? fun n =>
    if winServes s n use then
      (((winStarts s n).filter fun o => decide (o + len ≤ regGet s (MEM_HOSTWIN_LEN n)) && !winMeets s n o len).foldl
        (fun m o => match m with | some x => some (min x o) | none => some o) none).map fun o => (n, o)
    else none

/-- Place an object in a window. -/
def winPut (n off len : Nat) (o : WinObj) (s : State) : State :=
  modTier (fun t => { t with winUse := ⟨n, off, len, o⟩ :: t.winUse }) s

/-- A read of an object in host memory meets poison, or a completion error: a HOST_POISON record with its window and host address
(R176, R422). -/
def hostPoison (o : WinObj) (s : State) : State :=
  match s.tier.winUse.find? fun u => u.obj = o with
  | some u => record { cause := 0x18, cls := 1, c0 := u.win, c1 := regGet s (MEM_HOSTWIN_BASE u.win) + u.off } s
  | none => s

/-- Free a window object. -/
def winFree (o : WinObj) (s : State) : State := modTier (fun t => { t with winUse := t.winUse.filter fun u => u.obj ≠ o }) s

end Sys2Proof.Machine
end

