-- ==== Sys2Proof/Machine/Flags.lean ====
section
/-! DEFINITION. Number formats (chapter 3): exact values, widening, rounding, conversion with its saturation counts,
block scales, escapes, and FP32 arithmetic with rounding to nearest, ties to even. -/

namespace Sys2Proof.Machine

/-! ## Exact values -/

/-- A value as the formats of R73 hold it: NaN, an infinity, or a signed dyadic number `m * 2 ^ e` whose zero keeps
its sign. -/
inductive Dyad where
  | nan
  | inf (neg : Bool)
  | fin (neg : Bool) (m : Nat) (e : Int)
deriving DecidableEq, Repr

/-- The value +0. -/
def dyZero : Dyad := .fin false 0 0

/-- How a floating-point format spends its topmost codes: infinities and NaNs; one NaN code; neither (R73). -/
inductive TopCodes where
  | ieee | oneNan | none
deriving DecidableEq, Repr

/-- The parameters of a floating-point format (R73). -/
structure FloatFmt where
  eb : Nat
  mb : Nat
  bias : Nat
  top : TopCodes
  /-- Largest finite code, sign clear. -/
  maxCode : Nat
  /-- NaN code of R84, sign clear. -/
  nanCode : Nat
deriving DecidableEq, Repr

/-- The floating-point format of a format code; none for the integer formats and the reserved codes (R73). -/
def floatFmt : Nat → Option FloatFmt
  | 0x0 => some ⟨8, 23, 127, .ieee, 0x7F7FFFFF, 0x7FC00000⟩
  | 0x1 => some ⟨5, 10, 15, .ieee, 0x7BFF, 0x7E00⟩
  | 0x2 => some ⟨8, 7, 127, .ieee, 0x7F7F, 0x7FC0⟩
  | 0x3 => some ⟨4, 3, 7, .oneNan, 0x7E, 0x7F⟩
  | 0x4 => some ⟨5, 2, 15, .ieee, 0x7B, 0x7E⟩
  | 0x5 => some ⟨3, 2, 3, .none, 0x1F, 0⟩
  | 0x6 => some ⟨2, 3, 1, .none, 0x1F, 0⟩
  | 0x7 => some ⟨2, 1, 1, .none, 0x7, 0⟩
  | _ => none

/-- Whether a format code is one of the eleven of R73. -/
def fmtValid (f : Nat) : Bool := f ≤ 0xA

/-- Block-scaled formats (R73). -/
def fmtBlock (f : Nat) : Bool := 3 ≤ f && f ≤ 0xA

/-- Bytes of one element of a format without block scales (R73). -/
def fmtBytes (f : Nat) : Nat := if f = 0 then 4 else 2

/-- Bytes of a block of 32 elements (R75). -/
def blockBytes : Nat → Nat
  | 0x0 => 128
  | 0x1 => 64
  | 0x2 => 64
  | 0x3 => 32
  | 0x4 => 32
  | 0x8 => 32
  | 0x5 => 24
  | 0x6 => 24
  | 0x7 => 16
  | 0x9 => 16
  | _ => 7

/-- Bytes of a block's metadata record by side-band code; formats without scales have none (R80). -/
def recBytes (f side : Nat) : Nat := if fmtBlock f then 1 + 2 * side else 0

/-- The value of a code of a floating-point format (R73, R74). -/
def floatVal (p : FloatFmt) (c : Nat) : Dyad :=
  let neg := bit c (p.eb + p.mb)
  let x := bits c (p.mb + p.eb - 1) p.mb
  let man := c % 2 ^ p.mb
  let fin : Dyad :=
    if x = 0 then .fin neg man (1 - (p.bias : Int) - p.mb)
    else .fin neg (2 ^ p.mb + man) ((x : Int) - p.bias - p.mb)
  match p.top with
  | .ieee => if x = 2 ^ p.eb - 1 then (if man = 0 then .inf neg else .nan) else fin
  | .oneNan => if c % 2 ^ (p.eb + p.mb) = p.nanCode then .nan else fin
  | .none => fin

/-- The trit code at position `i` of a TERN byte (R75). -/
def trit (b i : Nat) : Nat := b / 3 ^ i % 3

/-- The value of an element code of any format (R73). -/
def codeVal (f c : Nat) : Dyad :=
  match floatFmt f with
  | some p => floatVal p c
  | none =>
    let v : Int := if f = 0x8 then signed 8 c else if f = 0x9 then signed 4 c else (c : Int) - 1
    .fin (decide (v < 0)) v.natAbs 0

/-- The element code at position `i` of a block's bytes (R75). -/
def elemCode (f : Nat) (b : Bytes) (i : Nat) : Nat :=
  if f = 0x0 then leAt b (4 * i) 4
  else if f = 0x1 || f = 0x2 then leAt b (2 * i) 2
  else if f = 0x5 || f = 0x6 then bits (leAt b (3 * (i / 4)) 3) (6 * (i % 4) + 5) (6 * (i % 4))
  else if f = 0x7 || f = 0x9 then bits (leAt b (i / 2) 1) (4 * (i % 2) + 3) (4 * (i % 2))
  else if f = 0xA then trit (leAt b (i / 5) 1) (i % 5)
  else leAt b i 1

/-- Pack the 32 element codes of a block (R75, R76). -/
def packBlock (f : Nat) (cs : List Nat) : Bytes :=
  let c := fun i => cs.getD i (if f = 0xA then 1 else 0)
  if f = 0x0 then (List.range 32).flatMap fun i => toLe 4 (c i)
  else if f = 0x1 || f = 0x2 then (List.range 32).flatMap fun i => toLe 2 (c i)
  else if f = 0x5 || f = 0x6 then
    (List.range 8).flatMap fun j => toLe 3 (c (4 * j) + 64 * c (4 * j + 1) + 4096 * c (4 * j + 2) + 262144 * c (4 * j + 3))
  else if f = 0x7 || f = 0x9 then (List.range 16).flatMap fun j => toLe 1 (c (2 * j) + 16 * c (2 * j + 1))
  else if f = 0xA then
    (List.range 7).flatMap fun j =>
      toLe 1 (c (5 * j) + 3 * c (5 * j + 1) + 9 * c (5 * j + 2) + 27 * c (5 * j + 3) + 81 * c (5 * j + 4))
  else (List.range 32).flatMap fun i => toLe 1 (c i)

/-! ## Reading a block (R77 to R82) -/

/-- Multiply a value by 2 to the power `k`. -/
def numScale (k : Int) : Dyad → Dyad
  | .fin n m e => .fin n m (e + k)
  | x => x

/-- The escape that replaces the element at position `i`: entry 1 before entry 0 (R81, R82). -/
def escapeAt (side : Nat) (rec : Bytes) (i : Nat) : Option Nat :=
  let entry := fun j => leAt rec (1 + 2 * j) 2
  let hit := fun j => j < side && bit (entry j) 13 && bits (entry j) 12 8 = i
  if hit 1 then some (entry 1 % 256) else if hit 0 then some (entry 0 % 256) else none

/-- The values of the 32 elements of a block, its scale left out, with the exponent of the scale; none when the scale
is 0xFF or a TERN byte is reserved, so that every element reads as NaN (R77, R79, R82, R99 bit 2). -/
def blockVals (escIgnore : Bool) (f side : Nat) (elems rec : Bytes) : Option (List Dyad × Int) :=
  let e := leAt rec 0 1
  let badTern := f = 0xA && (elems.take 7).any fun b => decide (243 ≤ b.toNat)
  if fmtBlock f && (e = 255 || badTern) then none
  else
    let val := fun i =>
      match (if escIgnore then none else escapeAt side rec i) with
      | some v => codeVal 0x3 v
      | none => codeVal f (elemCode f elems i)
    some ((List.range 32).map val, if fmtBlock f then (e : Int) - 127 else 0)

/-! ## Rounding (R85) -/

/-- The number of bits of `m`. -/
def bitLen (m : Nat) : Nat := if m = 0 then 0 else Nat.log2 m + 1

/-- `m / 2 ^ k` rounded to nearest, ties to even. -/
def rneShift (m k : Nat) : Nat :=
  let q := m / 2 ^ k
  let r := m % 2 ^ k
  if 2 * r > 2 ^ k || (2 * r = 2 ^ k && k ≠ 0 && q % 2 = 1) then q + 1 else q

/-- `m * 2 ^ e` in units of `2 ^ q`, rounded to nearest, ties to even. -/
def rneUnits (m : Nat) (e q : Int) : Nat :=
  if q ≤ e then m * 2 ^ (e - q).toNat else rneShift m (q - e).toNat

/-- The code, sign clear, that `m * 2 ^ e` rounds to when the exponent has no upper end. -/
def roundCode (p : FloatFmt) (m : Nat) (e : Int) : Nat :=
  if m = 0 then 0
  else
    let low : Int := 1 - (p.bias : Int) - p.mb
    let q := max ((bitLen m : Int) + e - (p.mb + 1)) low
    (q - low).toNat * 2 ^ p.mb + rneUnits m e q

/-- The sign bit of a format's code. -/
def signCode (p : FloatFmt) (neg : Bool) : Nat := if neg then 2 ^ (p.eb + p.mb) else 0

/-- The FP32 bits of a value: overflow gives infinity, NaN the canonical NaN (R84, R85). -/
def f32Of (x : Dyad) : Nat :=
  match x with
  | .nan => 0x7FC00000
  | .inf n => (if n then 0x80000000 else 0) + 0x7F800000
  | .fin n m e =>
    let c := roundCode ⟨8, 23, 127, .ieee, 0x7F7FFFFF, 0x7FC00000⟩ m e
    (if n then 0x80000000 else 0) + min c 0x7F800000

/-- The value of FP32 bits. -/
def f32Val (b : Nat) : Dyad := codeVal 0 b

/-- FP32 bits that are an infinity. -/
def f32Inf (b : Nat) : Bool := b % 2 ^ 31 = 0x7F800000

/-- FP32 bits that are a NaN. -/
def f32Nan (b : Nat) : Bool := decide (b % 2 ^ 31 > 0x7F800000)

/-- NUMERIC_MODES.VEC_FTZ: a subnormal result becomes a signed zero (R99). -/
def ftz (on : Bool) (b : Nat) : Nat :=
  if on && bits b 30 23 = 0 then b / 2 ^ 31 * 2 ^ 31 else b

/-! ## Exact arithmetic -/

/-- Exact sum; an exact zero of opposite signs is +0, opposite infinities give NaN. -/
def numAdd : Dyad → Dyad → Dyad
  | .nan, _ => .nan
  | _, .nan => .nan
  | .inf a, .inf b => if a = b then .inf a else .nan
  | .inf a, .fin _ _ _ => .inf a
  | .fin _ _ _, .inf b => .inf b
  | .fin n m e, .fin n' m' e' =>
    let q := min e e'
    let a : Int := (m * 2 ^ (e - q).toNat : Nat)
    let b : Int := (m' * 2 ^ (e' - q).toNat : Nat)
    let v := (if n then -a else a) + (if n' then -b else b)
    if v = 0 then .fin (n && n') 0 q else .fin (decide (v < 0)) v.natAbs q

/-- Exact product; an infinity times zero gives NaN. -/
def numMul : Dyad → Dyad → Dyad
  | .nan, _ => .nan
  | _, .nan => .nan
  | .inf a, .inf b => .inf (a != b)
  | .inf a, .fin n m _ => if m = 0 then .nan else .inf (a != n)
  | .fin n m _, .inf b => if m = 0 then .nan else .inf (n != b)
  | .fin n m e, .fin n' m' e' => .fin (n != n') (m * m') (e + e')

/-- Exact sum of a list, first element first; +0 for the empty list. -/
def numSum : List Dyad → Dyad
  | [] => dyZero
  | x :: xs => xs.foldl numAdd x

/-- Whether `a < b` for values that are not NaN. -/
def numLt (a b : Dyad) : Bool :=
  match a, b with
  | .nan, _ => false
  | _, .nan => false
  | .inf n, .inf n' => n && !n'
  | .inf n, .fin _ _ _ => n
  | .fin _ _ _, .inf n => !n
  | .fin n m e, .fin n' m' e' =>
    let q := min e e'
    let x : Int := (m * 2 ^ (e - q).toNat : Nat)
    let y : Int := (m' * 2 ^ (e' - q).toNat : Nat)
    decide ((if n then -x else x) < (if n' then -y else y))

/-- The magnitude of a value. -/
def numAbs : Dyad → Dyad
  | .fin _ m e => .fin false m e
  | .inf _ => .inf false
  | .nan => .nan

/-! ## FP32 arithmetic (R85, R91) -/

def f32Add (a b : Nat) : Nat := f32Of (numAdd (f32Val a) (f32Val b))
def f32Mul (a b : Nat) : Nat := f32Of (numMul (f32Val a) (f32Val b))
def f32Fma (a b c : Nat) : Nat := f32Of (numAdd (numMul (f32Val a) (f32Val b)) (f32Val c))
def f32Neg (a : Nat) : Nat := if bit a 31 then a - 2 ^ 31 else a + 2 ^ 31
def f32Sub (a b : Nat) : Nat := f32Add a (f32Neg b)

/-- Maximum: NaN if either is, +0 above −0 (R91). -/
def f32Max (a b : Nat) : Nat :=
  if f32Nan a || f32Nan b then 0x7FC00000
  else if numLt (f32Val a) (f32Val b) then b
  else if numLt (f32Val b) (f32Val a) then a
  else if bit a 31 then b else a

/-- Minimum: NaN if either is; of two zeros −0 is the smaller (DEDUCED from R91, log 21). -/
def f32Min (a b : Nat) : Nat :=
  if f32Nan a || f32Nan b then 0x7FC00000
  else if numLt (f32Val a) (f32Val b) then a
  else if numLt (f32Val b) (f32Val a) then b
  else if bit a 31 then a else b

/-! ## The fixed functions of R91

The firmware's algorithms are not published (Config, log 18). What binds them is that each result lies within 2 ulp of the
exact one, which stands here as an interval of integers in units of a power of 2. -/

/-- FP32 bits whose value lies within 2 ulp of some value from `lo` to `hi`, in units of `2 ^ e`; an infinity stands for
the magnitude 2 ^ 128 (R85, R91). -/
def withinUlps (lo hi e : Int) (c : Nat) : Bool :=
  match (if f32Inf c then Dyad.fin (bit c 31) 1 128 else f32Val c) with
  | .fin n m e' =>
    let q := max ((bitLen lo.natAbs : Int) + e - 24) (-149)
    let k := min (min e e') q
    let v : Int := (m * 2 ^ (e' - k).toNat : Nat)
    let x := if n then -v else v
    let two : Int := (2 * 2 ^ (q - k).toNat : Nat)
    let unit : Int := (2 ^ (e - k).toNat : Nat)
    decide (x ≤ hi * unit + two ∧ lo * unit ≤ x + two)
  | _ => false

/-- The algorithm's result where R91 allows it, else the exact value rounded. -/
def f32Bound (f : Nat → Nat) (a : Nat) (lo hi e : Int) : Nat :=
  if withinUlps lo hi e (f a % 2 ^ 32) then f a % 2 ^ 32 else f32Of (.fin (decide (lo < 0)) lo.natAbs e)

/-- The algorithm's result for an operand for which the spec states none (log 18): NaN gives the canonical NaN, and no
other NaN pattern is produced (R84). -/
def f32Open (f : Nat → Nat) (a : Nat) : Nat :=
  if f32Nan a || f32Nan (f a % 2 ^ 32) then 0x7FC00000 else f a % 2 ^ 32

/-- ln 2 in units of 2^-120. -/
def lnTwo : Nat := ((List.range 124).map fun k => 2 ^ 120 / ((k + 1) * 2 ^ (k + 1))).sum

/-- e to the power r, for r below ln 2; both in units of 2^-120. -/
def expSeries (r : Nat) : Nat :=
  ((List.range 40).foldl (fun (a : Nat × Nat) k => (a.1 + a.2, a.2 * r / ((k + 1) * 2 ^ 120))) (0, 2 ^ 120)).1

/-- Twice the inverse hyperbolic tangent of z, for z below 1/3; both in units of 2^-120. -/
def atanhSeries (z : Nat) : Nat :=
  2 * ((List.range 48).foldl (fun (a : Nat × Nat) k => (a.1 + a.2 / (2 * k + 1), a.2 * z / 2 ^ 120 * z / 2 ^ 120)) (0, z)).1

/-- The largest number whose square is at most `n`, of at most `k` bits. -/
def squareRoot (k n : Nat) : Nat :=
  (List.range k).foldr (fun i r => if (r + 2 ^ i) * (r + 2 ^ i) ≤ n then r + 2 ^ i else r) 0

/-- Exponential: beyond -104 and 89 the exact value is below half a subnormal and above every finite number (R91). -/
def f32Exp (a : Nat) : Nat :=
  match f32Val a with
  | .fin n m e =>
    if numLt (.fin false 104 0) (.fin false m e) then (if n then f32Bound Config.expBits a 0 1 (-150) else f32Bound Config.expBits a 1 1 129)
    else
      let u : Int := (m * 2 ^ (e + 149).toNat * 2 ^ 120 / 2 ^ 149 : Nat)
      let x := if n then -u else u
      let k := x / (lnTwo : Int)
      let s : Int := expSeries (x % (lnTwo : Int)).toNat
      f32Bound Config.expBits a (s - 2 ^ 24) (s + 2 ^ 24) (k - 120)
  | _ => f32Open Config.expBits a

/-- Natural logarithm of a positive number (R91). -/
def f32Log (a : Nat) : Nat :=
  match f32Val a with
  | .fin false (m + 1) e =>
    let b := bitLen (m + 1) - 1
    let v : Int := ((b : Int) + e) * (lnTwo : Int) + (atanhSeries ((m + 1 - 2 ^ b) * 2 ^ 120 / (m + 1 + 2 ^ b)) : Nat)
    let slack : Int := if m + 1 = 2 ^ b && (b : Int) + e = 0 then 0 else 2 ^ 24
    f32Bound Config.logBits a (v - slack) (v + slack) (-120)
  | _ => f32Open Config.logBits a

/-- Reciprocal (R91). -/
def f32Rcp (a : Nat) : Nat :=
  match f32Val a with
  | .fin n (m + 1) e =>
    let q : Int := (2 ^ 120 / (m + 1) : Nat)
    if n then f32Bound Config.rcpBits a (-q - 1) (-q) (-e - 120) else f32Bound Config.rcpBits a q (q + 1) (-e - 120)
  | _ => f32Open Config.rcpBits a

/-- Reciprocal square root of a positive number (R91). -/
def f32Rsqrt (a : Nat) : Nat :=
  match f32Val a with
  | .fin false (m + 1) e =>
    let odd := e % 2 ≠ 0
    let q : Int := (squareRoot 122 (2 ^ 240 / (if odd then 2 * (m + 1) else m + 1)) : Nat)
    f32Bound Config.rsqrtBits a q (q + 1) (-((if odd then e - 1 else e) / 2) - 120)
  | _ => f32Open Config.rsqrtBits a

/-- One tree level: neighbours are added, the left operand first, and an unpaired last sum rises unchanged (R90). -/
def treeLevel {α : Type} (add : α → α → α) : List α → List α
  | a :: b :: t => add a b :: treeLevel add t
  | l => l

/-- Combine sums in the balanced tree of R90; `fuel` bounds the levels. -/
def treeSum {α : Type} (add : α → α → α) (zero : α) : Nat → List α → α
  | _, [] => zero
  | _, [a] => a
  | 0, a :: _ => a
  | fuel + 1, l => treeSum add zero fuel (treeLevel add l)

/-- Add a list one element at a time, first element first. -/
def seqSum {α : Type} (add : α → α → α) (zero : α) : List α → α
  | [] => zero
  | x :: xs => xs.foldl add x

/-- The order of R90 and R91: groups of `size` elements added one at a time, then the tree. -/
def reduceSum {α : Type} (add : α → α → α) (zero : α) (size : Nat) (l : List α) : α :=
  treeSum add zero 32 ((pieces size (l.length / size + 1) l).map (seqSum add zero))

/-! ## Conversion (R88, R89, R94) -/

/-- A value converted to a destination format: the code, and whether R88 counts it. -/
structure Conv where
  code : Nat
  counted : Bool
deriving DecidableEq, Repr

/-- Convert a value, already divided by the block scale, to format `f` (R88). `half` is NUMERIC_MODES.HALF_IEEE_OVF. A
NaN gives the format's NaN where it has one; R89 deals with the others at the block. -/
def convert (half : Bool) (f : Nat) (x : Dyad) : Conv :=
  match floatFmt f with
  | some p =>
    let toInf := f = 0x0 || f = 0x4 || (half && (f = 0x1 || f = 0x2))
    let infCode := p.maxCode + 1
    match x with
    | .nan => ⟨p.nanCode, false⟩
    | .inf n => if toInf then ⟨signCode p n + infCode, false⟩ else ⟨signCode p n + p.maxCode, true⟩
    | .fin n m e =>
      let c := roundCode p m e
      if c ≤ p.maxCode then ⟨signCode p n + c, false⟩
      else if toInf then ⟨signCode p n + infCode, true⟩ else ⟨signCode p n + p.maxCode, true⟩
  | none =>
    let top := if f = 0x8 then 127 else if f = 0x9 then 7 else 1
    let w := if f = 0x8 then 8 else 4
    let put := fun (n : Bool) (m : Nat) =>
      if f = 0xA then (if m = 0 then 1 else if n then 0 else 2)
      else if n then (2 ^ w - m) % 2 ^ w else m
    match x with
    | .nan => ⟨put false 0, false⟩
    | .inf n => ⟨put n top, true⟩
    | .fin n m e =>
      let v := rneUnits m e 0
      if v ≤ top then ⟨put n v, false⟩ else ⟨put n top, true⟩

/-- Widen a value to FP32 bits; the flag tells an infinity created by the widening (R83). -/
def widen (x : Dyad) : Conv :=
  let b := f32Of x
  ⟨b, match x with | .fin _ _ _ => f32Inf b | _ => false⟩

/-- The largest finite magnitude of a block-scaled destination (R86): a number and an exponent of 2. -/
def fmtMax : Nat → Nat × Int
  | 0x3 => (448, 0)
  | 0x4 => (57344, 0)
  | 0x5 => (28, 0)
  | 0x6 => (15, -1)
  | 0x7 => (6, 0)
  | 0x8 => (127, 0)
  | 0x9 => (7, 0)
  | _ => (1, 0)

/-- The scale exponent chosen for the largest finite magnitude `x` (R86). -/
def scaleFor (f : Nat) (x : Dyad) : Nat :=
  match x with
  | .fin _ 0 _ => 127
  | .fin _ m e =>
    ((List.range 255).find? fun (k : Nat) =>
      !numLt (.fin false (fmtMax f).1 ((fmtMax f).2 + (k : Int) - 127)) (.fin false m e)).getD 254
  | _ => 127

/-- The largest magnitude among the finite values of a list, 0 when there is none (R86). -/
def maxFinite (l : List Dyad) : Dyad :=
  l.foldl (fun a x => match x with | .fin _ m e => if numLt a (.fin false m e) then .fin false m e else a | _ => a) dyZero

/-- The positions of the `k` elements of largest magnitude, lower position first among equals (R87). -/
def chooseEscapes : Nat → List (Nat × Dyad) → List Nat
  | 0, _ => []
  | _ + 1, [] => []
  | k + 1, x :: xs =>
    let best := xs.foldl (fun a y => if numLt (numAbs a.2) (numAbs y.2) then y else a) x
    best.1 :: chooseEscapes k ((x :: xs).filter fun y => y.1 ≠ best.1)

/-- A block as written: element bytes, metadata record, elements counted under the format and escapes counted under
FP8-E4M3 (R86 to R89, R94). -/
structure BlockOut where
  elems : Bytes
  recd : Bytes
  sat : Nat
  satEsc : Nat
deriving DecidableEq, Repr

/-- Write a block of up to 32 FP32 values, padded with zeros, to a block-scaled format (R78, R86 to R89, R99 bit 2). -/
def writeBlock (escIgnore : Bool) (f side : Nat) (vals : List Dyad) : BlockOut :=
  let xs := (List.range 32).map fun i => vals.getD i dyZero
  let at' := (List.range 32).zip xs
  if !(f = 0x3 || f = 0x4) && xs.contains .nan then
    ⟨packBlock f (List.replicate 32 0), toLe 1 255 ++ zeros (2 * side), 0, 0⟩
  else
    let pos := if escIgnore then [] else chooseEscapes side at'
    let e := scaleFor f (maxFinite ((at'.filter fun y => !pos.contains y.1).map (·.2)))
    let sh : Int := 127 - (e : Int)
    let cs := at'.map fun y =>
      if pos.contains y.1 then (⟨0, false⟩ : Conv) else convert false f (numScale sh y.2)
    let esc := ((List.range 32).filter pos.contains).map fun i => (i, convert false 0x3 (numScale sh (xs.getD i dyZero)))
    let words := esc.flatMap fun y => toLe 2 (2 ^ 13 + 256 * y.1 + y.2.code)
    ⟨packBlock f (cs.map (·.code)), toLe 1 e ++ (words ++ zeros (2 * side - words.length)),
      (cs.filter (·.counted)).length, (esc.filter (·.2.counted)).length⟩

/-! ## Block partials (R90, R93) -/

/-- The exact sum of the products of two blocks, their scales applied, rounded once to FP32 (R90). -/
def blockPartial (w a : List Dyad × Int) : Nat :=
  f32Of (numScale (w.2 + a.2) (numSum ((w.1.zip a.1).map fun x => numMul x.1 x.2)))

end Sys2Proof.Machine
end

