-- ==== Sys2Proof/Machine/Coded.lean ====
section
/-! DEFINITION. Coded objects (chapter 7): the container, its validation (R191) and the decoding of its blocks with the
mismatches of R196. -/

namespace Sys2Proof.Machine

/-- Formats that may be coded (R181). -/
def codable (f : Nat) : Bool := f = 0x3 || f = 0x4 || f = 0x7 || f = 0x8 || f = 0x9

/-- Bits of a symbol: the element code (R181). -/
def symBits (f : Nat) : Nat := if f = 0x7 || f = 0x9 then 4 else 8

/-- Bytes of a code table (R184). -/
def tableBytes (f : Nat) : Nat := if symBits f = 4 then 8 else 128

/-- Round up to a multiple of 16. -/
def up16 (n : Nat) : Nat := (n + 15) / 16 * 16

/-- Fields of a container's header (R184). -/
def ctFormat (c : Bytes) : Nat := leAt c 4 1 % 16
def ctTables (c : Bytes) : Nat := leAt c 5 1
def ctSymbols (c : Bytes) : Nat := leAt c 8 4
def ctBlocks (c : Bytes) : Nat := leAt c 12 4

/-- Offset of the index table. -/
def ctIndexAt (c : Bytes) : Nat := 16 + ctTables c * tableBytes (ctFormat c)

/-- Index entry `b`: the start of block `b` in bytes (R185). -/
def ctStart (c : Bytes) (b : Nat) : Nat := 16 * leAt c (ctIndexAt c + 4 * b) 4

/-- Symbols of block `b` (R185). -/
def blockSyms (symbols b : Nat) : Nat := min 4096 (symbols - 4096 * b)

/-- Bytes of `n` symbols in raw form (R190). -/
def rawBytes (f n : Nat) : Nat := n * symBits f / 8

/-- The code lengths of table `t`, in symbol order (R186). -/
def codeLens (c : Bytes) (t : Nat) : List Nat :=
  let f := ctFormat c
  let base := 16 + t * tableBytes f
  (List.range (2 ^ symBits f)).map fun s => bits (leAt c (base + s / 2) 1) (4 * (s % 2) + 3) (4 * (s % 2))

/-- A code table that keeps R186. -/
def lensOk (l : List Nat) : Bool :=
  let present := l.filter (· ≠ 0)
  present.all (· ≤ 11) &&
    (present == [1] || (present.map fun n => 2 ^ (11 - n)).sum = 2 ^ 11)

/-- Substream lengths of a coded block at `at'` (R188). -/
def subLens (c : Bytes) (at' : Nat) : List Nat := (List.range 32).map fun j => leAt c (at' + 4 + 2 * j) 2

/-- C of R190: the bytes of a coded block. -/
def codedBytes (lens : List Nat) : Nat := 68 + (lens.map fun n => divUp n 8).sum

/-- The shortest and longest present code lengths. -/
def lenMin (l : List Nat) : Nat := (l.filter (· ≠ 0)).foldl min 11
def lenMax (l : List Nat) : Nat := l.foldl max 0

/-- Block `b` of a container keeps R188, R190 and R191. -/
def ctBlockOk (c : Bytes) (b : Nat) : Bool :=
  let f := ctFormat c
  let a := ctStart c b
  let n := blockSyms (ctSymbols c) b
  let span := ctStart c (b + 1) - a
  let h := leAt c a 4
  let form := h % 4
  let t := bits h 3 2
  h < 16 && ctStart c b < ctStart c (b + 1) &&
    (if form = 0 then t = 0 && span = up16 (4 + rawBytes f n)
     else if form = 1 then
       let lens := subLens c a
       let tab := codeLens c t
       t < ctTables c && span = up16 (codedBytes lens) && 40 * codedBytes lens ≤ 37 * rawBytes f n &&
         lens.all fun x => n / 32 * lenMin tab ≤ x && x ≤ n / 32 * lenMax tab
     else false)

/-- A valid container (R184 to R191). -/
def ctValid (c : Bytes) : Bool :=
  16 ≤ c.length && leAt c 0 4 = 0x4C424F43 && leAt c 4 1 < 16 && codable (ctFormat c) &&
    1 ≤ ctTables c && ctTables c ≤ 4 && leAt c 6 2 = 0 && 32 ≤ ctSymbols c && ctSymbols c % 32 = 0 &&
    ctBlocks c = divUp (ctSymbols c) 4096 &&
    ctStart c 0 = up16 (ctIndexAt c + 4 * (ctBlocks c + 1)) && ctStart c (ctBlocks c) = c.length &&
    ((List.range (ctTables c)).all fun t => lensOk (codeLens c t)) &&
    ((List.range (ctBlocks c)).all fun b => ctBlockOk c b)

/-! ## Decoding -/

/-- The symbols of a table in canonical order: length, then symbol (R187). -/
def canonOrder (l : List Nat) : List (Nat × Nat) :=
  let at' := (List.range l.length).zip l
  (List.range 12).flatMap fun n => if n = 0 then [] else at'.filterMap fun x => if x.2 = n then some (n, x.1) else none

/-- Assign canonical codes: length, code, symbol (R187). -/
def canonCodes : Nat → Nat → List (Nat × Nat) → List (Nat × Nat × Nat)
  | _, _, [] => []
  | prev, next, (n, s) :: t =>
    let c := next * 2 ^ (n - prev)
    (n, c, s) :: canonCodes n (c + 1) t

/-- Bit `i` of a run of bytes, bit 0 of the first byte first (R189). -/
def streamBit (b : Bytes) (i : Nat) : Nat := leAt b (i / 8) 1 / 2 ^ (i % 8) % 2

/-- Read one code, its most significant bit first: the symbol and the bits it takes; `fuel` bounds its length. -/
def readCode (codes : List (Nat × Nat × Nat)) (b : Bytes) (at' : Nat) : Nat → Nat → Nat → Option (Nat × Nat)
  | 0, _, _ => none
  | fuel + 1, n, acc =>
    let acc' := 2 * acc + streamBit b (at' + n)
    match codes.find? fun x => x.1 = n + 1 && x.2.1 = acc' with
    | some x => some (x.2.2, n + 1)
    | none => readCode codes b at' fuel (n + 1) acc'

/-- Decode `n` symbols of a substream of `len` bits: the symbols, and a mismatch: 1 SHORT, 2 LONG, 3 INVALID_CODE
(R196). -/
def readSubstream (codes : List (Nat × Nat × Nat)) (b : Bytes) (len : Nat) : Nat → Nat → List Nat × Nat
  | 0, at' => ([], if at' < len then 2 else 0)
  | n + 1, at' =>
    match readCode codes b at' 11 0 0 with
    | none => (List.replicate (n + 1) 0, 3)
    | some (s, k) =>
      if at' + k > len then (List.replicate (n + 1) 0, 1)
      else
        let r := readSubstream codes b len n (at' + k)
        (s :: r.1, r.2)

/-- The symbols of a coded block at `at'`, and its lowest-numbered mismatching substream with its cause. -/
def decodeCoded (c : Bytes) (at' n : Nat) : List Nat × Option (Nat × Nat) :=
  let lens := subLens c at'
  let order := canonOrder (codeLens c (bits (leAt c at' 4) 3 2))
  let codes := canonCodes ((order.headD (0, 0)).1) 0 order
  let subs := (List.range 32).map fun j =>
    let off := at' + 68 + ((lens.take j).map fun x => divUp x 8).sum
    readSubstream codes (slice c off (divUp (lens.getD j 0) 8)) (lens.getD j 0) (n / 32) 0
  ((List.range n).map fun i => ((subs.getD (i % 32) ([], 0)).1).getD (i / 32) 0,
    ((List.range 32).zip subs).findSome? fun x => if x.2.2 ≠ 0 then some (x.1, x.2.2) else none)

/-- Symbols packed as R75 packs them. -/
def packSyms (f : Nat) (l : List Nat) : Bytes :=
  if symBits f = 4 then (List.range (l.length / 2)).map fun i => BitVec.ofNat 8 (l.getD (2 * i) 0 + 16 * l.getD (2 * i + 1) 0)
  else l.map fun x => BitVec.ofNat 8 x

/-- Block `b` of a container in raw form, whether it is coded, and its mismatch. -/
def ctBlock (c : Bytes) (b : Nat) : Bytes × Bool × Option (Nat × Nat) :=
  let f := ctFormat c
  let n := blockSyms (ctSymbols c) b
  let a := ctStart c b
  if leAt c a 1 % 4 = 0 then (slice c (a + 4) (rawBytes f n), false, none)
  else
    let r := decodeCoded c a n
    (packSyms f r.1, true, r.2)

/-- A container's object in raw form. -/
def ctDecode (c : Bytes) : Bytes := (List.range (ctBlocks c)).flatMap fun b => (ctBlock c b).1

/-! ## Encoding (R199) -/

/-- The symbols that packed bytes hold (R75). -/
def unpackSyms (f : Nat) (b : Bytes) : List Nat :=
  if symBits f = 4 then b.flatMap fun x => [x.toNat % 16, x.toNat / 16] else b.map (·.toNat)

/-- Occurrences of each symbol. -/
def histogram (f : Nat) (l : List Nat) : List Nat := (List.range (2 ^ symBits f)).map fun x => (l.filter (· = x)).length

/-- The lengths of a complete code as flat as the number of present symbols allows: the earlier symbols take the shorter of
its two lengths. -/
def flatLens (hist : List Nat) : List Nat :=
  let present := (List.range hist.length).filter fun i => hist.getD i 0 ≠ 0
  let n := present.length
  let k := max 1 (bitLen (n - 1))
  let short := (present.take (2 ^ k - n)).filter fun _ => 1 < n
  (List.range hist.length).map fun i => if hist.getD i 0 = 0 then 0 else if short.contains i then k - 1 else k

/-- The lengths the compressor builds: its own choice where that is a code table of R186 for the symbols present, else the
flat one (log 19). -/
def builtLens (hist : List Nat) : List Nat :=
  let l := Config.codeLengths hist
  if l.length = hist.length && lensOk l && ((hist.zip l).all fun x => decide (x.1 = 0) == decide (x.2 = 0)) then l else flatLens hist

/-- A code's bits, most significant first. -/
def codeBits (codes : List (Nat × Nat × Nat)) (sym : Nat) : List Nat :=
  match codes.find? fun x => x.2.2 = sym with
  | some (n, c, _) => (List.range n).map fun i => c / 2 ^ (n - 1 - i) % 2
  | none => []

/-- Bits in bytes, from bit 0 of the first byte upwards, the last byte filled with 0 (R188, R189). -/
def packBits (l : List Nat) : Bytes :=
  (pieces 8 (divUp l.length 8) l).map fun g => BitVec.ofNat 8 (g.foldr (fun b n => b + 2 * n) 0)

/-- A raw block of symbols (R188). -/
def rawBlock (f : Nat) (l : List Nat) : Bytes :=
  placeAt (zeros (up16 (4 + rawBytes f l.length))) 4 (packSyms f l)

/-- A block under code table `t`, of lengths `lens`: coded, or raw where the coded form breaks R190. -/
def encodeBlock (f t : Nat) (lens : List Nat) (l : List Nat) : Bytes :=
  let order := canonOrder lens
  let codes := canonCodes ((order.headD (0, 0)).1) 0 order
  let subs := (List.range 32).map fun j =>
    ((List.range (l.length / 32)).map fun i => l.getD (32 * i + j) 0).flatMap (codeBits codes)
  let size := codedBytes (subs.map (·.length))
  if 40 * size ≤ 37 * rawBytes f l.length then
    placeAt (zeros (up16 size)) 0 (toLe 1 (1 + 4 * t) ++ zeros 3 ++ (subs.flatMap fun x => toLe 2 x.length) ++ subs.flatMap packBits)
  else rawBlock f l

/-- A container of blocks under code tables (R184, R185). -/
def containerOf (f symbols : Nat) (tables : List (List Nat)) (blocks : List Bytes) : Bytes :=
  let head := up16 (16 + tables.length * tableBytes f + 4 * (blocks.length + 1))
  let starts := (List.range (blocks.length + 1)).map fun k => head + ((blocks.take k).map (·.length)).sum
  let tabs := tables.flatMap fun l => (List.range (l.length / 2)).map fun i => BitVec.ofNat 8 (l.getD (2 * i) 0 + 16 * l.getD (2 * i + 1) 0)
  let front := toLe 4 0x4C424F43 ++ toLe 1 f ++ toLe 1 tables.length ++ zeros 2 ++ toLe 4 symbols ++ toLe 4 blocks.length ++ tabs ++
    starts.flatMap fun x => toLe 4 (x / 16)
  placeAt front head blocks.flatten

/-- The blocks of an object's symbols (R185). -/
def symbolBlocks (l : List Nat) : List (List Nat) := pieces 4096 (divUp l.length 4096) l

/-- The compressor's container for an object in raw form (R199, R200): min(4, blocks) tables, block b under table
b × tables ÷ blocks, each built from its own blocks. -/
def compress (f : Nat) (b : Bytes) : Bytes :=
  let l := unpackSyms f b
  let bl := symbolBlocks l
  let n := min 4 bl.length
  let tableOf := fun i => i * n / bl.length
  let at' := (List.range bl.length).zip bl
  let tables := (List.range n).map fun t => builtLens (histogram f ((at'.filter fun x => tableOf x.1 = t).flatMap (·.2)))
  containerOf f l.length tables (at'.map fun x => encodeBlock f (tableOf x.1) (tables.getD (tableOf x.1) []) x.2)

/-- A container whose blocks are all raw: what a region sends while its compressor is fenced (R52, log 22). Its one table
holds one symbol. -/
def rawContainer (f : Nat) (b : Bytes) : Bytes :=
  let l := unpackSyms f b
  containerOf f l.length [(List.range (2 ^ symBits f)).map fun x => b2n (x = 0)] ((symbolBlocks l).map (rawBlock f))

end Sys2Proof.Machine
end

