-- ==== Sys2Proof/Machine/Operands.lean ====
section
/-! DEFINITION. Operands of the tide-table entries (chapter 5): table sets and their variants, the entry at which a
sequencer stands, the cores it names, core memory, and source and destination references. -/

namespace Sys2Proof.Machine

/-! ## Table-set images (R126, R128) -/

def tblSetId (b : Bytes) : Nat := leAt b 8 4
def tblStakeId (b : Bytes) : Nat := leAt b 12 4
def tblPrograms (b : Bytes) : Nat := leAt b 16 2
def tblDirOff (b : Bytes) : Nat := leAt b 20 4
def tblLen (b : Bytes) : Nat := leAt b 24 8

/-- Directory record `i` of a set. -/
def tblDirRec (b : Bytes) (i : Nat) : Bytes := slice b (tblDirOff b + 16 * i) 16

/-- Fields of a directory record. -/
def dirProgram (r : Bytes) : Nat := leAt r 0 2
def dirBucket (r : Bytes) : Nat := leAt r 2 1
def dirSteps (r : Bytes) : Nat := leAt r 3 1
def dirVariants (r : Bytes) : Nat := leAt r 4 4
def dirVarOff (r : Bytes) : Nat := leAt r 8 8

/-- The directory record of a program. -/
def tblProgram (b : Bytes) (program : Nat) : Option Bytes :=
  ((List.range (tblPrograms b)).map (tblDirRec b)).find? fun r => dirProgram r = program

/-- The variant records of a program, in order. -/
def dirRecs (b r : Bytes) : List Bytes := (List.range (dirVariants r)).map fun i => slice b (dirVarOff r + 16 * i) 16

/-- Fields of a variant record. -/
def varStep (v : Bytes) : Nat := leAt v 0 1
def varEntries (v : Bytes) : Nat := leAt v 2 2 + 1
def varKey (v : Bytes) : Nat := leAt v 4 4
def varPlan (v : Bytes) : Nat := leAt v 8 4
def varTable (v : Bytes) : Nat := 32 * leAt v 12 4

/-- The variant of a program's step for a key. -/
def tblVariant (b : Bytes) (program step key : Nat) : Option Bytes :=
  match tblProgram b program with
  | none => none
  | some r => (dirRecs b r).find? fun v => varStep v = step && varKey v = key

/-- The table set in ACTIVE. -/
def activeSlot (s : State) : Option Nat := (List.range 4).find? fun n => (s.tier.slots.getD n {}).state = 3

/-- The slot `n` of the table area. -/
def tblSlot (s : State) (n : Nat) : TblSlot := s.tier.slots.getD n {}

/-! ## Shape and clusters (R43, R58, R60, R128) -/

def cluster (s : State) (m : Nat) : Cluster := tabGetD s.core.clusters m {}
def coreSlot (s : State) (n : Nat) : CoreSlot := tabGetD s.core.slots n {}
def regionSt (s : State) (r : Nat) : RegionSt := tabGetD s.core.regions r {}

def modCluster (m : Nat) (f : Cluster → Cluster) (s : State) : State :=
  modCore (fun c => { c with clusters := tabSet c.clusters m (f (tabGetD c.clusters m {})) {} }) s
def modSlot (n : Nat) (f : CoreSlot → CoreSlot) (s : State) : State :=
  modCore (fun c => { c with slots := tabSet c.slots n (f (tabGetD c.slots n {})) {} }) s
def modRegion (r : Nat) (f : RegionSt → RegionSt) (s : State) : State :=
  modCore (fun c => { c with regions := tabSet c.regions r (f (tabGetD c.regions r {})) {} }) s

/-- Clusters in service. -/
def clustersIn (s : State) : List Nat := (List.range 128).filter fun m => (cluster s m).present

/-- The absent cluster of a die stack, as 4g + c; 63 for none (R128). -/
def absentCluster (s : State) (stack : Nat) : Nat :=
  ((List.range 32).find? fun i => !(cluster s (32 * stack + i)).present).getD 63

/-- The absent die stack; 7 for none (R128). -/
def absentStack (s : State) : Nat := ((List.range 4).find? fun k => s.core.stacksGone.contains k).getD 7

/-- The key of the variant that cluster `m` runs (R128). -/
def shapeKey (s : State) (m : Nat) : Nat :=
  1024 * m + 512 * b2n (cluster s m).seven + 8 * absentCluster s (m / 32) + absentStack s

/-- The core slot that runs under a logical core ID. -/
def slotOfId (s : State) (lid : Nat) : Option Nat := (s.core.slots.find? fun e => e.2.lid = some lid).map (·.1)

/-- The core slots of a cluster's serving logical positions, in ascending position order (R58, R129). -/
def servingSlots (s : State) (m : Nat) : List Nat :=
  (List.range 8).filterMap fun p => slotOfId s (8 * (cluster s m).logical + p)

/-! ## The running step -/

/-- The run that the engine is in. -/
def curRun (s : State) : Option Run :=
  match s.eng.step with
  | none => none
  | some r => match r.what with | .run c => tabGet s.eng.runs c | _ => s.eng.aux

/-- Change the run that the engine is in. -/
def modRun (f : Run → Run) (s : State) : State :=
  match s.eng.step with
  | none => s
  | some r =>
    match r.what with
    | .run c => modEng (fun e => { e with runs := tabMod e.runs c f }) s
    | _ => modEng (fun e => { e with aux := e.aux.map f }) s

/-- The variant record and image of the table that cluster `m` runs in the running step. -/
def curVariant (s : State) (m : Nat) : Option (Bytes × Bytes) :=
  match curRun s with
  | none => none
  | some r =>
    let img := (tblSlot s r.batch.setSlot).image
    (tblVariant img r.batch.programId r.step (shapeKey s m)).map fun v => (img, v)

/-- Entry `i` of a variant's table. -/
def varEntry (img v : Bytes) (i : Nat) : Bytes := slice img (varTable v + 32 * i) 32

/-- The entry at which cluster `m`'s sequencer stands, while it runs a step. -/
def curEntry (s : State) (m : Nat) : Option Bytes :=
  if !s.dev.fatal && (cluster s m).present && !(cluster s m).finished && !(cluster s m).resetting then
    match curVariant s m with
    | some (img, v) => if (cluster s m).pc < varEntries v then some (varEntry img v (cluster s m).pc) else none
    | none => none
  else none

/-! ## Fields of an entry (R131, R132) -/

def enOp (e : Bytes) : Nat := leAt e 0 1 % 16
def enFallback (e : Bytes) : Nat := leAt e 1 1 % 16
def enCores (e : Bytes) : Nat := leAt e 2 1
def enDeadline (e : Bytes) : Nat := leAt e 4 4

/-- A core-memory operand. -/
def enCm (e : Bytes) (off : Nat) : Nat := leAt e off 4 % 2 ^ 20

/-- Opcode of each entry (R132). -/
def opLoadTile : Nat := 0
def opExpand : Nat := 1
def opMma : Nat := 2
def opVec : Nat := 3
def opSample : Nat := 4
def opSend : Nat := 5
def opWait : Nat := 6
def opSignal : Nat := 7
def opBarrier : Nat := 8
def opSentinel : Nat := 9
def opEnd : Nat := 10

/-- The core slots that an entry of cluster `m` names, in ascending position order (R129, R131). -/
def entryCores (s : State) (m : Nat) (e : Bytes) : List Nat :=
  let l := servingSlots s m
  (List.range l.length).filterMap fun i => if bit (enCores e) i then l[i]? else none

/-- Positions that an entry names. -/
def entryPositions (s : State) (m : Nat) (e : Bytes) : List Nat :=
  (List.range (servingSlots s m).length).filter fun i => bit (enCores e) i

/-- Rows of a bucket code (R126). -/
def bucketRows (code : Nat) : Nat := 64 * 2 ^ code

/-- Rows of context bucket `b` in a batch (R412, R133). -/
def ctxRows (bt : Batch) (b : Nat) : Nat := (bt.rows.filter fun r => r.kind ≠ 3 && r.ctx = b).length

/-- The ROWS field resolved (R133). -/
def resolveRows (bt : Batch) (rows : Nat) : Nat :=
  if rows = 0x8000 then bucketRows bt.bucket
  else if 0x8100 ≤ rows && rows ≤ 0x8108 then divUp (ctxRows bt (rows - 0x8100)) 64 * 64
  else rows

/-- Move cluster `m` past the entry that it issues on step cycle `cyc`. -/
def advance (m cyc : Nat) (s : State) : State :=
  modCluster m (fun c =>
    { c with pc := c.pc + 1, fellBack := false, switched := false, barrier := none, issuedAt := some cyc, stalledTo := 0, unfetched := false }) s

/-! ## Core memory (R105, R428)

A core's memory ends at 1 MiB. TBL.LOAD refuses the operands that reach past it (R105); the index of a gather or a scatter can
still name a row there. A read of it delivers free values and a write of it is lost (log 74). -/

def cmKey (slot addr : Nat) : Nat := 2 ^ 20 * slot + addr

/-- How many of `n` bytes at an address lie within core memory. -/
def cmFit (addr n : Nat) : Nat := min n (2 ^ 20 - addr)

def cmRead (s : State) (slot addr n : Nat) : Bytes :=
  cellsRead s.coreMem (cmKey slot addr) (cmFit addr n) ++ (List.range (n - cmFit addr n)).map fun i => Config.coreByte s.free (addr + cmFit addr n + i)
def cmTags (s : State) (slot addr n : Nat) : List Nat :=
  tagsRead s.corePoison (cmKey slot addr) (cmFit addr n) ++ List.replicate (n - cmFit addr n) 0
def cmWrite (slot addr : Nat) (b : Bytes) (tags : List Nat) (s : State) : State :=
  { s with coreMem := cellsWrite s.coreMem (cmKey slot addr) (b.take (cmFit addr b.length))
           corePoison := tagsWrite s.corePoison (cmKey slot addr) (tags.take (cmFit addr b.length)) }

/-- FP32 word `i` of a run of bytes. -/
def wordAt (b : Bytes) (i : Nat) : Nat := leAt b (4 * i) 4

/-- Numeric modes in force (R99). -/
def vecFtz (s : State) : Bool := bit s.dev.modes 0
def halfIeee (s : State) : Bool := bit s.dev.modes 1
def escIgnore (s : State) : Bool := bit s.dev.modes 2

/-! ## Stake tensors (R525) -/

def stkTensors (h : Bytes) : Nat := leAt h 12 4
def stkDirOff (h : Bytes) : Nat := leAt h 16 8
def stkLen (h : Bytes) : Nat := leAt h 24 8
def stkLayers (h : Bytes) : Nat := leAt h 32 2
def stkHeads (h : Bytes) : Nat := leAt h 34 2
def stkDim (h : Bytes) : Nat := leAt h 36 2
def stkProjN (h : Bytes) (p : Nat) : Nat := leAt h (40 + 4 * p) 4
def stkProjM (h : Bytes) (p : Nat) : Nat := leAt h (68 + 4 * p) 4

/-- Directory entry `i`. -/
def stkEntry (k : Stake) (i : Nat) : Bytes := slice k.directory (64 * i) 64
def teData (e : Bytes) : Nat := leAt e 0 8
def teStored (e : Bytes) : Nat := leAt e 8 8
def teRaw (e : Bytes) : Nat := leAt e 16 8
def teMeta (e : Bytes) : Nat := leAt e 24 8
def teBlocks (e : Bytes) : Nat := leAt e 32 8
def teFormat (e : Bytes) : Nat := leAt e 40 1 % 16
def teSide (e : Bytes) : Nat := bits (leAt e 40 1) 5 4
def teCoded (e : Bytes) : Bool := bit (leAt e 40 1) 6
def teHome (e : Bytes) : Nat := leAt e 41 1
def teTol (e : Bytes) : Nat := leAt e 42 2

/-- The stake image that the set of a run names, and that of the running step. -/
def stakeIn (s : State) (r : Run) : Option Stake := tabGet s.tier.stakes (tblSlot s r.batch.setSlot).stakeId
def curStake (s : State) : Option Stake := (curRun s).bind (stakeIn s)

/-! ## What a reference delivers -/

/-- Bytes of a source, the tag of each, the container blocks an expander delivers for them, and how many stored bytes hold
them. -/
structure Fetched where
  bytes : Bytes
  tags : List Nat
  blocks : List ExpBlock
  stored : Nat
deriving DecidableEq, Repr

/-- First and last block of a container that a range of the raw form touches (R185, R194). -/
def touchedBlocks (c : Bytes) (off len : Nat) : List Nat :=
  let per := rawBytes (ctFormat c) 4096
  (List.range ((off + len - 1) / per - off / per + 1)).map (off / per + ·)

/-- The ranges of a container that the expander reads to decode block `b`: header, code table, index entries and block. -/
def blockReads (c : Bytes) (b : Nat) : List (Nat × Nat) :=
  let t := bits (leAt c (ctStart c b) 4) 3 2
  [(0, 16), (16 + t * tableBytes (ctFormat c), tableBytes (ctFormat c)), (ctIndexAt c + 4 * b, 8), (ctStart c b, ctStart c (b + 1) - ctStart c b)]

/-- A range of a stored container in raw form: whole touched blocks are decoded; a mismatching block, or one for which the expander
reads poisoned bytes, is delivered with hardware poison, and the latter is no mismatch (R194, R196, R198). -/
def fetchCoded (read : Nat → Nat → Bytes × List Nat) (dpa : Nat → Nat) (stored off len : Nat) : Fetched :=
  let c := (read 0 stored).1
  let bl := (touchedBlocks c off len).map fun b =>
    let r := ctBlock c b
    let p := worst ((blockReads c b).map fun x => worst (read x.1 x.2).2)
    let mm := if p = 2 then none else r.2.2
    (r.1, r.1.map fun _ => if mm.isSome then 2 else p,
      (⟨dpa (ctStart c b), r.2.1, blockSyms (ctSymbols c) b, mm, [], 0⟩ : ExpBlock))
  let skip := off % rawBytes (ctFormat c) 4096
  ⟨slice (bl.flatMap (·.1)) skip len, ((bl.flatMap (·.2.1)).drop skip).take len, bl.map (·.2.2),
    ((touchedBlocks c off len).map fun b => ctStart c (b + 1) - ctStart c b).sum⟩

/-- A range of plain bytes, which bypass the expander's lanes. -/
def fetchPlain (r : Bytes × List Nat) : Fetched := ⟨r.1, r.2, [], r.1.length⟩

/-- The container in which coded slot data stands (R52, R182). -/
def slotContainer (d : SlotData) : Bytes :=
  match d.coded with
  | some (f, fenced) => if fenced then rawContainer f d.bytes else compress f d.bytes
  | none => d.bytes

/-- The tags of a container's bytes: those of each block's span are the worst of its symbols, and those before the blocks are clean. -/
def containerTags (c : Bytes) (tags : List Nat) : List Nat :=
  let per := rawBytes (ctFormat c) 4096
  List.replicate (ctStart c 0) 0 ++
    (List.range (ctBlocks c)).flatMap fun b => List.replicate (ctStart c (b + 1) - ctStart c b) (worst ((tags.drop (per * b)).take per))

/-- The extents of a tensor's stored bytes, and of its metadata (R527). -/
def teExtents (k : Stake) (h : Nat) : List Nat := tabGetD k.ext h []
def teMetaExtents (k : Stake) (h : Nat) : List Nat :=
  (teExtents k h).drop (divUp (teStored (stkEntry k h)) extBytes)

/-- A range of a stake tensor's raw form (R133). -/
def fetchTensor (s : State) (k : Stake) (h off len : Nat) : Fetched :=
  let e := stkEntry k h
  let ext := teExtents k h
  let dpa := fun i => ext.getD (i / extBytes) 0 + i % extBytes
  if teCoded e then fetchCoded (extRead s ext) dpa (teStored e) off len else fetchPlain (extRead s ext off len)

/-- Records `first` to `first + n - 1` of a tensor's metadata array (R80). -/
def fetchRecords (s : State) (k : Stake) (h first n : Nat) : Bytes × List Nat :=
  let e := stkEntry k h
  let w := recBytes (teFormat e) (teSide e)
  extRead s (teMetaExtents k h) (w * first) (w * n)

/-! ## Withies in the form of R288 -/

/-- Stored rank of a RANK code, and the widths of a projection. -/
def withyRank (code : Nat) : Nat := 4 * 2 ^ code

/-- Length of a record before and after its padding: rank r, widths n and m (R285). -/
def withyRecLen (r n m : Nat) : Nat := r * n + r + m * r + m
def withyRecPad (r n m : Nat) : Nat := up16 (withyRecLen r n m)

/-- Offset of the record of layer `L` and projection `p` in a withy image; none when the projection is unmodified. -/
def withyRecAt (h : Bytes) (proj r layer p : Nat) : Option Nat :=
  let lenOf := fun q => if bit proj q then withyRecPad r (stkProjN h q) (stkProjM h q) else 0
  let per := ((List.range 7).map lenOf).sum
  if bit proj p then some (32 + layer * per + ((List.range p).map lenOf).sum) else none

/-- Where the image of a version holds byte `off` of the sparse raw form (R288); none where no stored row covers it. The widths are those
of the stake image that the version names. -/
def withyPlace (v : WithyVer) (off : Nat) : Option Nat :=
  let r := withyRank v.rank
  let q := off / 2 ^ 32
  let o := off % 2 ^ 32
  let p := q % 8
  let n := stkProjN v.widths p
  let m := stkProjM v.widths p
  match (if p < 7 then withyRecAt v.widths v.proj r (q / 8) p else none) with
  | none => none
  | some base =>
    if o < 2 ^ 30 then (if o / max n 1 < r && o < 64 * n then some (base + o) else none)
    else if o < 2 ^ 31 then (if o - 2 ^ 30 < r then some (base + r * n + (o - 2 ^ 30)) else none)
    else if o < 2 ^ 31 + 2 ^ 30 then
      let x := o - 2 ^ 31
      if x / 64 < m && x % 64 < r then some (base + r * n + r + r * (x / 64) + x % 64) else none
    else
      let x := o - 2 ^ 31 - 2 ^ 30
      if x < m then some (base + r * n + r + m * r + x) else none

/-- A byte of the sparse raw form that no stored row covers: element code 0, scale 127, which is +0 (R288). -/
def withyBlank (off : Nat) : Byte := if bits off 30 30 = 1 then 127 else 0

/-- What a batch slot of a withy reads: a READY resident copy, or the zero withy (R288, R292). -/
inductive WithyRead where
  | copy (v : WithyVer) (ext : List Nat)
  | zero
deriving DecidableEq, Repr

/-- A range of the sparse raw form, with the poison of the words that hold it (R179, R288, R292). -/
def withyRead (s : State) (w : WithyRead) (off n : Nat) : Bytes × List Nat :=
  let at' := fun (i : Nat) => match w with | .copy v ext => (withyPlace v (off + i)).map fun x => (v, ext, x) | .zero => none
  ((List.range n).map fun i => match at' i with | some (v, _, x) => (v.image.drop x).headD 0 | none => withyBlank (off + i),
   (List.range n).map fun i =>
     match at' i with
     | some (_, ext, x) => tabGetD s.memPoison ((ext.getD (x / extBytes) 0 + x % extBytes) / 8) 0
     | none => 0)

/-- The READY copy in a resident slot. -/
def withyInSlot (s : State) (n : Nat) : Option WithyRead :=
  match tabGet s.tier.wslots n with
  | some w => if w.state = 2 then (tabGet s.tier.withies w.ver).map fun v => .copy v w.ext else none
  | none => none

/-- What batch slot `n` resolves to through TILE_BIND (R292): the copy that the tile of gathered rows is bound to, or the zero withy; none
for a slot that names no withy, and in a descriptor without the withy part. Which slot numbers the table's withy entries use is open
(log 27). -/
def withyBound (s : State) (bt : Batch) (n : Nat) : Option WithyRead :=
  if bt.bind.isEmpty then none
  else
    match Config.withyTile bt.programId n with
    | none => none
    | some k =>
      let e := bt.bind.getD k 0xFF
      some (if e = 0xFF then .zero else (withyInSlot s (bt.withies.getD e 0xFFFF)).getD .zero)

/-! ## Batch slots (R138, R412) -/

/-- The record of batch slot `n`; a slot that the descriptor does not list is unbound. -/
def slotRec (bt : Batch) (n : Nat) : SlotRec := bt.slots.getD n ⟨4, 0xFF, 0xF, 0, 0, 0⟩

/-- Byte `i` of batch slot `n` among slot data, with its tag; the newest comes first. -/
def slotByte (l : List SlotData) (n i : Nat) : Option (Byte × Nat) :=
  l.findSome? fun d =>
    if d.slot = n && d.off ≤ i && i < d.off + d.bytes.length then some (d.bytes.getD (i - d.off) 0, d.tags.getD (i - d.off) 0)
    else none

/-- A range of PASS slot `n`; a byte that no earlier step has written is a free value (log 29). Data that a SEND coded comes
through the expander, block by block (R183). -/
def passRead (free : Nat) (l : List SlotData) (n off len : Nat) : Fetched :=
  let x := (List.range len).map fun i => (slotByte l n (off + i)).getD (Config.passByte free n (off + i), 0)
  let coded := l.filter fun d => d.slot = n && d.coded.isSome && d.off < off + len && off < d.off + d.bytes.length
  let part := fun (d : SlotData) =>
    let c := slotContainer d
    (fetchCoded (fun o k => (slice c o k, List.replicate k 0)) (fun _ => 0) c.length (off - d.off) (min (off + len) (d.off + d.bytes.length) - max off d.off)).blocks
  ⟨x.map (·.1), x.map (·.2), coded.flatMap part, len⟩

/-- A range of a sealed coded page's raw form: payload decoded, side-band plain (R182, R240). -/
def fetchPage (s : State) (f : Nat) (off len : Nat) : Fetched :=
  let base := frameDpa s f
  let stored := 16 * (tabGetD s.man.frames f {}).storedLen
  let read := fun o n => (memRead s (base + o) n, memTags s (base + o) n)
  let clen := stored - 8192
  let a := if off < 65536 then fetchCoded read (base + ·) clen off (min len (65536 - off)) else ⟨[], [], [], 0⟩
  let b := if 65536 < off + len then read (clen + (max off 65536 - 65536)) (off + len - max off 65536) else ([], [])
  ⟨a.bytes ++ b.1, a.tags ++ b.2, a.blocks, a.stored + b.1.length⟩

/-- The coded activation whose raw form holds `len` bytes from offset `off` of a slot bound to `base`: its first byte, container
length and the offset within it (R183). Bytes that something else has overwritten since are no container any more. -/
def codedAt (s : State) (base off len : Nat) : Option (Nat × Nat × Nat) :=
  s.tier.coded.findSome? fun e =>
    let c := memRead s e.1 e.2
    let o := e.1 - base
    if base ≤ e.1 && o ≤ off && ctValid c && off + len ≤ o + rawBytes (ctFormat c) (ctSymbols c) then some (e.1, e.2, off - o) else none

/-- A range of the object at `base`; a coded page and a coded activation are read in their raw form. -/
def fetchMem (s : State) (base off len : Nat) : Fetched :=
  let a := base + off
  match codedAt s base off len with
  | some (at', n, o) => fetchCoded (fun x k => (memRead s (at' + x) k, memTags s (at' + x) k)) (at' + ·) n o len
  | none =>
    match frameNo s a with
    | some f =>
      if (tabGetD s.man.frames f {}).coded then fetchPage s f (a - frameDpa s f) len
      else fetchPlain (memRead s a len, memTags s a len)
    | none => fetchPlain (memRead s a len, memTags s a len)

/-- A row record of the published descriptor; a row turned into padding is one (R411, R412). -/
def rowImage (x : RowRec) : Bytes :=
  toLe 4 (if x.turned then 0xFFFFFFFF else x.mid) ++ toLe 4 x.position ++ toLe 4 x.token ++ toLe 1 (if x.turned then 3 else x.kind) ++
    toLe 1 x.ctx ++ zeros 2

/-- A slot record of the published descriptor (R412). -/
def slotImage (x : SlotRec) : Bytes :=
  toLe 1 x.kind ++ toLe 1 x.flag ++ toLe 1 (x.format % 16 + 16 * x.tier) ++ zeros 1 ++ toLe 4 x.len ++ toLe 6 x.addr ++ zeros 2

/-- The withy part of the descriptor (R292). -/
def withyImage (bt : Batch) : Bytes :=
  (List.range 64).flatMap (fun i => toLe 2 (bt.withies.getD i 0xFFFF)) ++ bt.fwd.flatMap (toLe 2) ++ bt.inv.flatMap (toLe 2) ++
    bt.bind.flatMap (toLe 1) ++ bt.alpha.flatMap (toLe 4)

/-- The published batch descriptor (R412). -/
def batchImage (bt : Batch) : Bytes :=
  let slotAt := 64 + 16 * bt.rows.length
  let withyAt := slotAt + 16 * bt.slots.length
  toLe 4 bt.stepSeq ++ toLe 2 bt.programId ++ toLe 1 bt.steps ++ toLe 1 bt.bucket ++ toLe 2 bt.liveRows ++ toLe 2 bt.tokenRows ++
    toLe 2 bt.comp ++ toLe 1 bt.setSlot ++ toLe 1 bt.withies.length ++ (List.range 9).flatMap (fun b => toLe 2 (ctxRows bt b)) ++
    toLe 2 bt.slots.length ++ toLe 4 64 ++ toLe 4 slotAt ++ toLe 4 (if bt.withies.isEmpty then 0 else withyAt) ++ zeros 16 ++
    bt.rows.flatMap rowImage ++ bt.slots.flatMap slotImage ++ (if bt.withies.isEmpty then [] else withyImage bt)

/-- A range of context SRAM as a batch slot reads it: where the run's descriptor stands, the descriptor (R292, R412). -/
def contextRead (s : State) (bt : Batch) (a n : Nat) : Bytes × List Nat :=
  let base := Config.batchAt bt.stepSeq
  let img := batchImage bt
  let here := fun (x : Nat) => decide (base ≤ x) && decide (x < base + img.length)
  ((List.range n).map fun i => if here (a + i) then img.getD (a + i - base) 0 else cellRead s.mem (a + i),
   (List.range n).map fun i => if here (a + i) then 0 else tabGetD s.memPoison ((a + i) / 8) 0)

/-- A range of what an INPUT or PASS slot is bound to; none when its ADDRESS names a reserved DPA (R138, R167, R194). A step
run for verification reads the recorded inputs, which stand among its PASS data, in place of what its slots are bound to (R438,
R439). -/
def fetchSlot (s : State) (r : Run) (n off len : Nat) : Option Fetched :=
  let sr := slotRec r.batch n
  if sr.kind = 3 || (r.pass.any fun d => d.slot = n) then some (passRead s.free r.pass n off len)
  else
    match withyBound s r.batch n with
    | some w => some (fetchPlain (withyRead s w off len))
    | none =>
      if sr.tier = 2 then
        some (fetchPlain ((List.range len).map fun i => Config.hostByte s.free (sr.addr + off + i), List.replicate len 0))
      else if !(dpaMapped (sr.addr + off) && dpaMapped (sr.addr + off + len - 1)) then none
      else some (if sr.tier = 3 then fetchPlain (contextRead s r.batch (sr.addr + off) len) else fetchMem s sr.addr off len)

/-- HANDLE and byte offset of a reference (R133). -/
def refHandle (x : Nat) : Nat := x / 2 ^ 48
def refOff (x : Nat) : Nat := x % 2 ^ 48
def refIsSlot (x : Nat) : Bool := 0xF000 ≤ refHandle x

/-- A range of what a source reference names. -/
def fetchRef (s : State) (x len : Nat) : Option Fetched :=
  match curRun s with
  | none => none
  | some r =>
    if refIsSlot x then fetchSlot s r (refHandle x - 0xF000) (refOff x) len
    else
      match curStake s with
      | none => none
      | some k => some (fetchTensor s k (refHandle x) (refOff x) len)

/-- The HBM3E or LPDDR5X home of a reference of a run: 0 HBM3E, 1 LPDDR5X, 2 host memory, 3 context SRAM (R134, R172). A bound withy copy
lies in HBM3E; the zero withy lies nowhere, and nothing of it is staged. -/
def refTierIn (s : State) (r : Run) (x : Nat) : Nat :=
  if refIsSlot x then
    (let sr := slotRec r.batch (refHandle x - 0xF000)
     match withyBound s r.batch (refHandle x - 0xF000) with
     | some (.copy _ _) => 0
     | some .zero => 3
     | none => if sr.kind = 0 then sr.tier else 3)
  else
    match stakeIn s r with
    | some k => if teHome (stkEntry k (refHandle x)) < 4 then 0 else 1
    | none => 3
def refTier (s : State) (x : Nat) : Nat := match curRun s with | none => 3 | some r => refTierIn s r x

/-- Whether the stager stages a reference named by an entry of opcode `op`, in tier `tier` (R172). -/
def tierStaged (op x tier : Nat) : Bool :=
  if refIsSlot x then op = opLoadTile && tier ≤ 1 else op = opLoadTile || op = opExpand || op = opSentinel
def refStaged (s : State) (op x : Nat) : Bool := tierStaged op x (refTier s x)

/-! ## Tile shapes (R101) -/

/-- Contraction elements of a tile for an operand pair. -/
def tileK (w a : Nat) : Nat :=
  let four := fun f => f = 0x7 || f = 0x9
  if w = 0x1 || w = 0x2 then 8
  else if w = 0xA && four a then 128
  else if four w && four a then 64
  else 32

/-- 32-element blocks that a tile's column takes; a 16-bit tile takes a quarter of one (R150). -/
def tileBlocks (w a : Nat) : Nat := tileK w a / 32

/-- Bytes of a tile's elements: 64 columns, each column's blocks in order (log 24). -/
def tileBytes (w a : Nat) : Nat := if fmtBlock w then 64 * tileBlocks w a * blockBytes w else 64 * tileK w a * fmtBytes w

/-- Valid operand pairs (R92). -/
def pairOk (w a : Nat) : Bool :=
  if fmtBlock w then 3 ≤ a && a ≤ 9 else (w = 1 || w = 2) && a = w

end Sys2Proof.Machine
end

