-- ==== Sys2Proof/Machine/Engines.lean ====
section
/-! DEFINITION. What the matrix and vector engines compute (chapters 3, 4 and 11): MMA rows, vector operations, the
choice of a token and the drift sentinel's comparison, as functions of their operands. -/

namespace Sys2Proof.Machine

/-- An FP32 result with its poison tag and the infinities created on the way, which R94 counts. -/
structure Res where
  bits : Nat
  tag : Nat
  sat : Nat
deriving DecidableEq, Repr

/-- A sum, counting an infinity created from finite operands (R94). -/
def addRes (a b : Res) : Res :=
  let v := f32Add a.bits b.bits
  ⟨v, max a.tag b.tag, a.sat + b.sat + b2n (f32Inf v && !f32Inf a.bits && !f32Inf b.bits)⟩

/-! ## Matrix products (R90, R93, R103) -/

/-- Values of one block of a weight tile or an activation row; none for a NaN block. -/
abbrev BlockRead := Option (List Dyad × Int)

/-- Whether a block read holds a NaN element, escape or scale (R93). -/
def blockNan (b : BlockRead) : Bool := match b with | none => true | some (l, _) => l.contains .nan

/-- Block `b` of column `c` of a weight tile. -/
def tileBlock (esc : Bool) (t : TileBuf) (c b : Nat) : BlockRead :=
  let i := c * tileBlocks t.fmt t.afmt + b
  let bb := blockBytes t.fmt
  let rb := recBytes t.fmt t.side
  blockVals esc t.fmt t.side (slice t.elems (bb * i) bb) (slice t.recs (rb * i) rb)

/-- The eight elements of column `c` of a 16-bit tile. -/
def tileHalf (t : TileBuf) (c : Nat) : List Dyad :=
  (List.range 8).map fun i => codeVal t.fmt (leAt t.elems (16 * c + 2 * i) 2)

/-- The tag of column `c` of a weight tile. -/
def tileTag (t : TileBuf) (c : Nat) : Nat :=
  let nb := max 1 (tileBlocks t.fmt t.afmt)
  worst ((List.range nb).map fun b => tabGetD t.poison (c * nb + b) 0)

/-- A value that is an infinity. -/
def dyInf (x : Dyad) : Bool := match x with | .inf _ => true | _ => false

/-- A block partial with its tag; an infinity it creates is counted (R90, R94). -/
def partialRes (w a : BlockRead) (tag : Nat) : Res :=
  match w, a with
  | some w, some a =>
    let v := blockPartial w a
    ⟨v, tag, b2n (f32Inf v && !(w.1.any dyInf || a.1.any dyInf))⟩
  | _, _ => ⟨0x7FC00000, tag, 0⟩

/-- The block partials of a row and a column in ascending block order, added one at a time to an accumulator, which the
first starts when ACC_INIT is 1 (R90). -/
def chainBlocks : Option Res → List Res → Res
  | none, [] => ⟨0, 0, 0⟩
  | some a, [] => a
  | none, p :: ps => chainBlocks (some p) ps
  | some a, p :: ps => chainBlocks (some (addRes a p)) ps

/-- The sum of a quarter of a 16-bit block: each product is formed in FP32 and rounded there, and the products are added
in ascending element order to the running sum, if there is one; created infinities are counted (R90, R94, R103). -/
def halfPartial (run : Option Nat) (w a : List Dyad) : Res :=
  let ps := (w.zip a).map fun x =>
    let v := f32Of (numMul x.1 x.2)
    (⟨v, 0, b2n (f32Inf v && !dyInf x.1 && !dyInf x.2)⟩ : Res)
  match run with
  | some r => ps.foldl addRes ⟨r, 0, 0⟩
  | none => seqSum addRes ⟨0, 0, 0⟩ ps

/-- One row and column of a block-scaled MMA (R90). -/
def mmaBlockCell (esc : Bool) (t : TileBuf) (act : List BlockRead) (actTag : Nat) (prior : Option Res) (c : Nat) : Res :=
  chainBlocks prior ((List.range act.length).map fun b =>
    partialRes (tileBlock esc t c b) (act.getD b none) (max actTag (tileTag t c)))

/-! ## Vector operations (R135) -/

/-- An operand element: FP32 bits after widening, its tag, and an infinity created by the widening (R83). -/
def widenRes (x : Dyad) (tag : Nat) : Res :=
  let w := widen x
  ⟨w.code, tag, b2n w.counted⟩

/-- Elements of a vector operand held in a format without block scales. -/
def plainElems (f : Nat) (b : Bytes) (tags : List Nat) (n : Nat) : List Res :=
  let w := fmtBytes f
  (List.range n).map fun i => widenRes (codeVal f (leAt b (w * i) w)) (worst ((tags.drop (w * i)).take w))

/-- Elements of a block-scaled vector operand; its records have side-band code 0 (log 25). -/
def blockElems (esc : Bool) (f : Nat) (b recs : Bytes) (tags rtags : List Nat) (n : Nat) : List Res :=
  let bb := blockBytes f
  ((List.range (divUp n 32)).flatMap fun k =>
    let tag := max (worst ((tags.drop (bb * k)).take bb)) (rtags.getD k 0)
    match blockVals esc f 0 (slice b (bb * k) bb) (slice recs k 1) with
    | none => List.replicate 32 (⟨0x7FC00000, tag, 0⟩ : Res)
    | some (l, e) => l.map fun x => widenRes (numScale e x) tag).take n

/-- Bytes that `n` elements of a format take. -/
def vecBytes (f n : Nat) : Nat := if fmtBlock f then divUp n 32 * blockBytes f else n * fmtBytes f

/-- A result flushed under VEC_FTZ (R99). -/
def flush (on : Bool) (r : Res) : Res := { r with bits := ftz on r.bits }

/-- A two-operand FP32 operation, counting an infinity created from finite operands. -/
def binRes (f : Nat → Nat → Nat) (a b : Res) : Res :=
  let v := f a.bits b.bits
  ⟨v, max a.tag b.tag, a.sat + b.sat + b2n (f32Inf v && !f32Inf a.bits && !f32Inf b.bits)⟩

/-- A one-operand function; an overflow of a finite non-zero operand is counted. -/
def funRes (f : Nat → Nat) (a : Res) : Res :=
  let v := f a.bits
  ⟨v, a.tag, a.sat + b2n (f32Inf v && !f32Inf a.bits && a.bits % 2 ^ 31 ≠ 0)⟩

/-- Fused multiply-add. -/
def fmaRes (a b c : Res) : Res :=
  let v := f32Fma a.bits b.bits c.bits
  ⟨v, max a.tag (max b.tag c.tag), a.sat + b.sat + c.sat + b2n (f32Inf v && !f32Inf a.bits && !f32Inf b.bits && !f32Inf c.bits)⟩

/-- A row sum: groups of 2,048 elements in order, then the tree (R91). -/
def sumRes (on : Bool) (l : List Res) : Res := reduceSum (fun a b => flush on (addRes a b)) ⟨0, 0, 0⟩ 2048 l

/-- The maximum of a row (R91). -/
def maxRes (l : List Res) : Res :=
  match l with
  | [] => ⟨0, 0, 0⟩
  | x :: xs => xs.foldl (fun a b => ⟨f32Max a.bits b.bits, max a.tag b.tag, a.sat + b.sat⟩) x

/-- Rows of `len` elements. -/
def rowsOf (len : Nat) (l : List Res) : List (List Res) := if len = 0 then [] else pieces len (l.length / len) l

/-- The result of a vector operation on its widened operands (R135). Gather, scatter and copy move elements and are
given apart; `idx` are the 16-bit indices at B. -/
def vecOp (on : Bool) (vop rowLen : Nat) (a b d : List Res) : List Res :=
  let zip := fun (f : Res → Res → Res) => (a.zip b).map fun x => flush on (f x.1 x.2)
  if vop = 0x00 then zip (binRes f32Add)
  else if vop = 0x01 then zip (binRes f32Mul)
  else if vop = 0x02 then (a.zip (b.zip d)).map fun x => flush on (fmaRes x.1 x.2.1 x.2.2)
  else if vop = 0x03 then zip (binRes f32Max)
  else if vop = 0x04 then zip (binRes f32Min)
  else if vop = 0x05 then a.map fun x => flush on (funRes f32Exp x)
  else if vop = 0x06 then a.map fun x => flush on (funRes f32Log x)
  else if vop = 0x07 then a.map fun x => flush on (funRes f32Rcp x)
  else if vop = 0x08 then a.map fun x => flush on (funRes f32Rsqrt x)
  else if vop = 0x09 then a.map (flush on)
  else if vop = 0x0A then (rowsOf rowLen a).map fun r => flush on (sumRes on r)
  else if vop = 0x0B then (rowsOf rowLen a).map fun r => flush on (maxRes r)
  else if vop = 0x0C then
    (a.zip b).map fun x =>
      let both : Res := { x.1 with tag := max x.1.tag x.2.tag, sat := x.1.sat + x.2.sat }
      if x.2.bits % 2 ^ 31 = 0 then { both with bits := 0xFF800000 } else flush on both
  else if vop = 0x10 then
    ((rowsOf rowLen a).zip b).flatMap fun x => x.1.map fun y => flush on (binRes f32Mul y x.2)
  else a.map (flush on)

/-- What a vector result writes: bytes with tags, records with tags, and the counts by format code (R88, R94). -/
structure VecOut where
  bytes : Bytes
  tags : List Nat
  recs : Bytes
  rtags : List Nat
  /-- Format code and count. -/
  sats : List (Nat × Nat)
deriving DecidableEq, Repr

/-- Convert FP32 results to a destination format, its block records with side-band code `side` (R85 to R89). -/
def vecOut (half esc : Bool) (f side : Nat) (l : List Res) : VecOut :=
  let s0 := (l.map (·.sat)).sum
  if fmtBlock f then
    let bl := (pieces 32 (divUp l.length 32) l).map fun g => (writeBlock esc f side (g.map fun r => f32Val r.bits), worst (g.map (·.tag)))
    ⟨bl.flatMap (·.1.elems), bl.flatMap fun x => List.replicate x.1.elems.length x.2,
      bl.flatMap (·.1.recd), bl.flatMap fun x => List.replicate x.1.recd.length x.2,
      [(0, s0), (f, (bl.map (·.1.sat)).sum), (0x3, (bl.map (·.1.satEsc)).sum)]⟩
  else
    let cs := l.map fun r => (convert half f (f32Val r.bits), r.tag)
    ⟨cs.flatMap fun x => toLe (fmtBytes f) x.1.code, cs.flatMap fun x => List.replicate (fmtBytes f) x.2, [], [],
      [(0, s0), (f, if f = 0 then 0 else (cs.filter (·.1.counted)).length)]⟩

/-! ## Choosing a token (R295, R296) -/

/-- Sampling parameters, bytes 40 to 55 of the manifest (R294). -/
def smpMode (b : Bytes) : Nat := leAt b 0 1
def smpTopK (b : Bytes) : Nat := leAt b 2 2
def smpTemp (b : Bytes) : Nat := leAt b 4 4
def smpTopP (b : Bytes) : Nat := leAt b 8 4

/-- FP32 comparison. -/
def f32Lt (a b : Nat) : Bool := numLt (f32Val a) (f32Val b)

/-- A vector-engine operation of the choice: flushed under VEC_FTZ, created infinities counted (R94, R99). -/
def smpOp (on : Bool) (f : Nat → Nat → Nat) (a b : Res) : Res := flush on (binRes f { a with sat := 0 } { b with sat := 0 })

/-- FP32 bits as an operand. -/
def plainRes (b : Nat) : Res := ⟨b, 0, 0⟩

/-- Insert a token by score descending, then token ID ascending. -/
def rankInsert (x : Nat × Res) : List (Nat × Res) → List (Nat × Res)
  | [] => [x]
  | y :: t =>
    if f32Lt y.2.bits x.2.bits || (!f32Lt x.2.bits y.2.bits && decide (x.1 < y.1)) then x :: y :: t else y :: rankInsert x t

/-- The running sums c of R296 over the kept tokens, each with the infinities created up to it. -/
def cumSums (on : Bool) (m : Nat) : Res → List (Nat × Res) → List Res
  | _, [] => []
  | s, (_, z) :: t =>
    let d := smpOp on f32Sub z (plainRes m)
    let e := if m = 0x7F800000 then plainRes (if z.bits = 0x7F800000 then 0x3F800000 else 0) else flush on (funRes f32Exp { d with sat := 0 })
    let a := smpOp on f32Add s e
    let s' : Res := { a with sat := s.sat + a.sat + (if m = 0x7F800000 then 0 else d.sat + e.sat) }
    s' :: cumSums on m s' t

/-- The token chosen from a row's logits, whether the choice was degenerate, and the FP32 infinities it created. -/
structure TokenPick where
  token : Nat
  degenerate : Bool
  sat : Nat
deriving DecidableEq, Repr

/-- The choice of R296, counted as R94 counts vector arithmetic. Scores that are NaN, as 0 times an infinite reciprocal gives, have no
stated place, and leave the token open (log 156). -/
def chooseToken (on : Bool) (par : Bytes) (seed q : Nat) (logits : List Nat) : TokenPick :=
  let l := logits.map fun x => if f32Nan x then 0xFF800000 else x
  let best := l.foldl f32Max 0xFF800000
  if smpMode par = 0 then
    ⟨(((List.range l.length).zip l).find? fun x => !f32Lt x.2 best).map (·.1) |>.getD 0, best = 0xFF800000, 0⟩
  else
    let w := flush on (funRes f32Rcp (plainRes (smpTemp par)))
    let z := ((List.range l.length).zip l).map fun x => (x.1, smpOp on f32Mul (plainRes x.2) w)
    let made := w.sat + (z.map (·.2.sat)).sum
    if z.any fun x => f32Nan x.2.bits then ⟨Config.nanToken (smpTemp par) seed q logits % l.length, false, made⟩ else
    let k := if smpTopK par = 0 || l.length < smpTopK par then l.length else smpTopK par
    let kept := (z.foldr rankInsert []).take k
    let first := kept.headD (0, plainRes 0)
    if first.2.bits = 0xFF800000 then ⟨first.1, true, made⟩
    else
      let c := cumSums on first.2.bits (plainRes 0) kept
      let last := c.getLastD (plainRes 0)
      let bound := smpOp on f32Mul (plainRes (smpTopP par)) last
      let n := ((List.range c.length).find? fun i => !f32Lt (c.getD i (plainRes 0)).bits bound.bits).getD (c.length - 1)
      let u := f32Of (.fin false (philoxWord seed q / 2 ^ 8) (-24))
      let t := smpOp on f32Mul (plainRes u) (c.getD n (plainRes 0))
      let i := ((List.range (n + 1)).find? fun i => f32Lt t.bits (c.getD i (plainRes 0)).bits).getD n
      ⟨(kept.getD i (0, plainRes 0)).1, false, made + last.sat + bound.sat + t.sat⟩

/-! ## The drift sentinel (R97) -/

/-- A row of FP32 words converted to FP8-E4M3 blocks, as they are written (R86 to R89). -/
def fp8Blocks (esc : Bool) (row : List Nat) : List BlockOut :=
  (pieces 32 (divUp row.length 32) row).map fun g => writeBlock esc 0x3 0 (g.map f32Val)

/-- The converted blocks as the matrix engine reads them. -/
def fp8Read (esc : Bool) (l : List BlockOut) : List BlockRead := l.map fun b => blockVals esc 0x3 0 b.elems b.recd

/-- One element of the reference tile: partials, groups of 64 blocks, tree (R90). -/
def refCell (a w : List BlockRead) : Res := reduceSum addRes ⟨0, 0, 0⟩ 64 ((a.zip w).map fun x => partialRes x.2 x.1 0)

/-- D and Q of R97 over the elements of the two tiles in row order. -/
def driftSums (n f : List Nat) : Res × Res :=
  (reduceSum addRes ⟨0, 0, 0⟩ 2048 ((n.zip f).map fun x =>
     let d := binRes f32Sub (plainRes x.1) (plainRes x.2)
     binRes f32Mul d { d with sat := 0 }),
   reduceSum addRes ⟨0, 0, 0⟩ 2048 (f.map fun x => binRes f32Mul (plainRes x) (plainRes x)))

/-- Whether the sums mark the step suspect under a tolerance in FP16 (R97). The rule puts the sums in FP32 and does not say
how tol² × Q is formed: DESIGN CHOICE, its two products are FP32 products too (log 137). -/
def driftFails (tol d q : Nat) : Bool :=
  let t := f32Of (codeVal 0x1 tol)
  let fin := fun x => !f32Inf x && !f32Nan x
  !fin d || !fin q || (q % 2 ^ 31 = 0 && f32Lt 0 d) || f32Lt (f32Mul (f32Mul t t) q) d

end Sys2Proof.Machine
end

