-- ==== Sys2Proof/Machine/Entries.lean ====
section
/-! DEFINITION. The tide-table entries: what each does when the sequencer of a cluster issues it, and the events of the
stager, the expander and the compressor (chapters 4, 5, 6 and 7).

An entry has an effect when it is the one at which the cluster's sequencer stands in the running step, and its input is
ready; otherwise nothing happens (log 2). -/

namespace Sys2Proof.Machine

/-- The entry at which cluster `m` stands, when its opcode is `op`. -/
def entryOf (s : State) (m op : Nat) : Option Bytes :=
  match curEntry s m with
  | some e => if enOp e = op then some e else none
  | none => none

/-- Mark the running step suspect (R433). -/
def markSuspect (s : State) : State := modRun (fun r => { r with suspectNow := true }) s

/-- Hold the counts of a step in staging: `k` for format code `f` on a core slot (R95). -/
def stageSat (slot : Nat) (s : State) (x : Nat × Nat) : State :=
  if x.2 = 0 then s
  else { s with satNow := tabSet s.satNow (16 * slot + x.1) (min (tabGetD s.satNow (16 * slot + x.1) 0 + x.2) cntMax) 0 }

/-- Record what the running step has read from a batch slot, for replay verification (R435, R441). -/
def logRead (x : Nat) (f : Fetched) (s : State) : State :=
  if refIsSlot x then
    modRun (fun r => { r with readNow := r.readNow ++ [⟨refHandle x - 0xF000, refOff x, f.bytes, f.tags, none⟩] }) s
  else s

/-- The blocks of a LOAD_TILE hold up the named cores until they are delivered (R136, R194). -/
def loadBlocks (cores : Nat) (l : List ExpBlock) : List ExpBlock := l.map fun b => { b with cores := cores }

/-- Queue a fetch's container blocks at the expander, in issue order (R194). -/
def queueBlocks (m : Nat) (l : List ExpBlock) (s : State) : State :=
  modCluster m (fun c => { c with expander := c.expander ++ l }) s

/-- Count the poisoned bytes that reach a core as words (R428, ERR_POISON_CNT). -/
def countPoison (tags : List Nat) (s : State) : State :=
  let n := divUp (tags.filter (· = 2)).length 8
  if n = 0 then s else bump ERR_POISON_CNT n s

/-- Release the staged tile of an entry; one that a later entry names too is kept under that entry's number (R173). -/
def releaseTile (m : Nat) (i : Nat) (s : State) : State :=
  modCluster m (fun c => { c with staged := c.staged.filter fun t => !(t.entry = i) }) s

/-! ## References of entries that read tiles -/

/-- The source reference, and the bytes it covers, of a LOAD_TILE, EXPAND or SENTINEL. -/
def enRef (e : Bytes) : Nat := leAt e 8 8

/-- Format and side-band code of what an EXPAND's reference names in a run (R525; a batch slot's FORMAT, log 23). -/
def refFmtIn (s : State) (r : Run) (x : Nat) : Nat × Nat :=
  if refIsSlot x then
    (let f := (slotRec r.batch (refHandle x - 0xF000)).format
     (if (withyBound s r.batch (refHandle x - 0xF000)).isNone && f ≤ 0xA then f else 0x3, 0))
  else
    match stakeIn s r with
    | some k => (teFormat (stkEntry k (refHandle x)), teSide (stkEntry k (refHandle x)))
    | none => (0x3, 0)
def refFmt (s : State) (x : Nat) : Nat × Nat := match curRun s with | some r => refFmtIn s r x | none => (0x3, 0)

/-- Bytes of the reference tile that a SENTINEL names: the rest of its tensor (log 31). -/
def sentBytes (s : State) (r : Run) (x : Nat) : Nat :=
  match stakeIn s r with
  | some k => teRaw (stkEntry k (refHandle x)) - refOff x
  | none => 0

/-- Bytes an entry's tile takes in the slice. -/
def tileLenIn (s : State) (r : Run) (e : Bytes) : Nat :=
  if enOp e = opLoadTile then leAt e 20 4
  else if enOp e = opExpand then tileBytes (refFmtIn s r (enRef e)).1 (leAt e 16 1 % 16)
  else if enOp e = opSentinel then sentBytes s r (enRef e)
  else 0
def enTileLen (s : State) (e : Bytes) : Nat := match curRun s with | some r => tileLenIn s r e | none => 0

/-- The name of a stake image's bytes in the slices: STAKE_ID and CRC-32C. -/
def stakeMark (id : Nat) (k : Stake) : Nat := id + 2 ^ 32 * k.crc

/-- The bytes that a reference names in a run, by which the slice knows a tile: HANDLE and offset in a stake image, the place in a withy
version's copy, or the DPA of a batch slot's data, which every slot bound to it shares. -/
def tileName (s : State) (r : Run) (x : Nat) : Nat × Nat :=
  if refIsSlot x then
    match withyBound s r.batch (refHandle x - 0xF000) with
    | some (.copy v _) => (0xF001 + 2 ^ 16 * (v.born + 1), refOff x)
    | some .zero => (0xF001, refOff x)
    | none => (0xF000, (slotRec r.batch (refHandle x - 0xF000)).addr + refOff x)
  else
    let id := (tblSlot s r.batch.setSlot).stakeId
    (refHandle x + 2 ^ 16 * (match stakeIn s r with | some k => stakeMark id k | none => id), refOff x)

/-! ## References on stake images (R159) -/

/-- Tiles in the layer store, complete or on their way, of the stake image with a mark. -/
def tileRefs (s : State) (mark : Nat) : Nat :=
  (s.core.clusters.map fun e =>
    ((e.2.staged ++ e.2.staging.toList).filter fun t => t.handle % 2 ^ 16 < 0xF000 && t.handle / 2 ^ 16 = mark).length).sum

/-- Sets in the table slots that hold a reference on a stake image. -/
def stakeRefs (s : State) (id : Nat) : Nat := (s.tier.slots.filter fun t => t.stakeRef && t.stakeId = id).length

/-- The reference count of a held stake image: table sets, and tiles staged in the layer store. The reads in flight are those of a step,
whose set holds the image (R159). -/
def stakeCount (s : State) (id : Nat) (k : Stake) : Nat := stakeRefs s id + tileRefs s (stakeMark id k)

/-- Extents of a stake image. -/
def stakeExtents (k : Stake) : List Nat := k.dirExt.map (·.2) ++ k.ext.flatMap (·.2)

/-- After references have been taken or released: the counts of the table sets, and the retired images whose last tile has gone are
freed (R159). -/
def refsNow (s : State) : State :=
  let ends := fun (e : Nat × Stake) => decide (tileRefs s (stakeMark e.1 e.2) = 0)
  extFree ((s.tier.dying.filter ends).flatMap fun e => stakeExtents e.2)
    (modTier (fun t => { t with stakes := tabMap t.stakes fun id k => { k with refs := stakeRefs s id },
                                dying := t.dying.filter fun e => !ends e }) s)

/-- The tile of these bytes in the slice, whichever entry it was staged for (R173). -/
def isTile (x : Nat × Nat) (len : Nat) (t : StagedTile) : Bool := t.handle = x.1 && t.off = x.2 && t.len = len
def inSlice (c : Cluster) (x : Nat × Nat) (len : Nat) : Option StagedTile := c.staged.find? (isTile x len)
def stagedTile (s : State) (m : Nat) (e : Bytes) : Option StagedTile :=
  (curRun s).bind fun r => inSlice (cluster s m) (tileName s r (enRef e)) (enTileLen s e)
def tileStaged (s : State) (m : Nat) (e : Bytes) : Bool := (stagedTile s m e).isSome

/-- The input of an entry that reads a tile is ready: staged, or read at issue (R136, R172). -/
def tileReady (s : State) (m : Nat) (e : Bytes) : Bool := !refStaged s (enOp e) (enRef e) || tileStaged s m e

/-! ## Issue (R136, R141)

Entries that name the same core take effect on its memory and its tile buffers in table order, so that an entry waits for the
loads of its cores that are still on the direct path or in the expander. -/

/-- The entry on the direct path. -/
def directEntry (s : State) (m : Nat) : Option Bytes :=
  match (cluster s m).direct, curVariant s m with
  | some i, some (img, v) => some (varEntry img v i)
  | _, _ => none

/-- Two CORES fields name a common core. -/
def sharesCore (a b : Nat) : Bool := (a &&& b) ≠ 0

/-- Whether an entry waits for a tile on the direct path: one that goes into the memory of its cores, or, for another EXPAND, into
the same buffer. -/
def waitsDirect (s : State) (m : Nat) (e : Bytes) : Bool :=
  match directEntry s m with
  | none => false
  | some d => sharesCore (enCores d) (enCores e) && (enOp d ≠ opExpand || (enOp e = opExpand && leAt d 17 1 % 2 = leAt e 17 1 % 2))

/-- Whether an entry waits for a coded load in the expander. -/
def waitsExpander (s : State) (m : Nat) (e : Bytes) : Bool := (cluster s m).expander.any fun b => sharesCore b.cores (enCores e)

/-- The loads that an entry depends on have come. -/
def loadsCome (s : State) (m : Nat) (e : Bytes) : Bool := !waitsDirect s m e && !waitsExpander s m e

/-- The later of two data arrivals: step cycle and stall cause. -/
def laterOf (a b : Nat × Nat) : Nat × Nat := if a.1 < b.1 then b else a

/-- Step cycle at which the last data came that an entry awaited, and the cause under which its wait counts (R141, R175): its tile's
staging by the tile's home, the expander's output or the direct path, a load into its cores' memory, or its own fetch. 0 is no cause. -/
def dataCame (s : State) (m cyc : Nat) (e : Bytes) : Nat × Nat :=
  let c := cluster s m
  let pos := entryPositions s m e
  let load := (pos.map fun p => tabGetD c.loaded p (0, 0)).foldl laterOf (0, 0)
  let own :=
    if enOp e = opWait then (cyc, if 56 ≤ leAt e 8 1 then 5 else if 48 ≤ leAt e 8 1 then 4 else 0)
    else if enOp e = opMma then
      (pos.map fun p => match tabGet c.bufs (2 * p + leAt e 19 1 % 2) with
        | some t => (t.readyAt, if t.direct then 2 else 1)
        | none => (0, 0)).foldl laterOf (0, 0)
    else if enOp e ≤ 1 || enOp e = opSentinel then
      (match stagedTile s m e with | some t => (t.since, if t.tier = 0 then 2 else if t.tier = 1 then 3 else 0) | none => (0, 0))
    else (0, 0)
  if c.unfetched then (cyc, 2) else laterOf own load

/-- The cause of the data that an entry awaits now (R141). With nothing else awaited, it is the entry itself, fetched from the table
area in HBM3E. -/
def stallCause (s : State) (m : Nat) (e : Bytes) : Nat :=
  let c := cluster s m
  if enOp e = opBarrier then 0
  else if enOp e = opWait then (if 56 ≤ leAt e 8 1 then 5 else if 48 ≤ leAt e 8 1 then 4 else 0)
  else if waitsDirect s m e || c.switched then 2
  else if waitsExpander s m e then 1
  else if (enOp e ≤ 1 || enOp e = opSentinel) && !tileReady s m e then (if refTier s (enRef e) = 0 then 2 else if refTier s (enRef e) = 1 then 3 else 0)
  else if enOp e = opMma then
    (match (entryPositions s m e).findSome? fun p => (tabGet c.bufs (2 * p + leAt e 19 1 % 2)).filter fun t => t.left ≠ 0 with
     | some t => if t.direct then 2 else 1
     | none => 2)
  else 2

/-- The counter of a stall cause. -/
def stallReg (m cause : Nat) : Nat :=
  if cause = 1 then SEQ_STALL_EXPAND m else if cause = 2 then SEQ_STALL_HBM m else if cause = 3 then SEQ_STALL_LPX m
  else if cause = 4 then SEQ_STALL_FABRIC m else SEQ_STALL_HOST m

/-- Count the stall cycles of a cluster at its next entry up to a step cycle, from the latest of the entry's deadline, the cycle after
the last issue and the cycle counted up to so far (R141). -/
def stallTo (m : Nat) (e : Bytes) (upTo cause : Nat) (s : State) : State :=
  let c := cluster s m
  let start := max (enDeadline e) (max c.stalledTo (match c.issuedAt with | some k => k + 1 | none => 0))
  if cause = 0 || enDeadline e = 0xFFFFFFFF || upTo ≤ start then s
  else
    modCluster m (fun c => { c with stalledTo := upTo })
      (regPut (SEQ_STALL_LAST m) (2 ^ 16 * c.pc + cause) (bump (stallReg m cause) (upTo - start) s))

/-- Issue an entry on a step cycle: what it waited past its deadline is counted, and the sequencer goes on. -/
def issue (m cyc : Nat) (e : Bytes) (s : State) : State :=
  let d := dataCame s m cyc e
  advance m cyc (stallTo m e (min cyc d.1) d.2 s)

/-! ## LOAD_TILE (R133) -/

/-- Copy a fetched tile into the core memory of every named core. -/
def loadInto (s : State) (m : Nat) (e : Bytes) (f : Fetched) : State :=
  (entryCores s m e).foldl (fun t k => cmWrite k (enCm e 16) f.bytes f.tags t) s

/-- The effect of a LOAD_TILE, from the slice or by the direct path; a coded source comes through the expander. -/
def loadTileFx (m : Nat) (e : Bytes) (f : Fetched) (s : State) : State :=
  freeNext (countPoison f.tags (queueBlocks m (loadBlocks (enCores e) f.blocks) (logRead (enRef e) f (loadInto s m e f))))

/-- LOAD_TILE: the source's bytes go into core memory at DST. -/
def execLoadTile (m cyc : Nat) (s : State) : Host.Outcome State Fault Refusal :=
  match entryOf s m opLoadTile with
  | none => .next s
  | some e =>
    if (cluster s m).switched || !tileReady s m e || !loadsCome s m e then .next s
    else
      match fetchRef s (enRef e) (leAt e 20 4) with
      | some f => .next (releaseTile m (cluster s m).pc (loadTileFx m e f (issue m cyc e s)))
      | none => .fault (.reservedDpa (refOff (enRef e)))

/-! ## EXPAND (R109) -/

/-- Block records of an EXPAND's tile: a tensor's metadata array, a withy row's scales, or the records after a slot's
elements (R80, R288, log 23). -/
def expandRecs (s : State) (x n : Nat) : Bytes × List Nat :=
  let f := refFmt s x
  if !fmtBlock f.1 then ([], [])
  else
    let first := refOff x / blockBytes f.1
    if refIsSlot x then
      match curRun s with
      | none => ([], [])
      | some r =>
        let sr := slotRec r.batch (refHandle x - 0xF000)
        match withyBound s r.batch (refHandle x - 0xF000) with
        | some w =>
          let base := 2 ^ 32 * (refOff x / 2 ^ 32)
          let o := refOff x % 2 ^ 32
          let width := if o < 2 ^ 31 then (match w with | .copy v _ => stkProjN v.widths (refOff x / 2 ^ 32 % 8) | .zero => 64) else 64
          let row := fun i => (o % 2 ^ 31 + 32 * i) / max width 1
          let l := (List.range n).map fun i => withyRead s w (base + (if o < 2 ^ 31 then 2 ^ 30 else 2 ^ 31 + 2 ^ 30) + row i) 1
          (l.flatMap (·.1), l.flatMap (·.2))
        | none =>
          (memRead s (sr.addr + sr.len + first) n, memTags s (sr.addr + sr.len + first) n)
    else
      match curStake s with
      | some k => fetchRecords s k (refHandle x) first n
      | none => ([], [])

/-- The tile buffer contents an EXPAND delivers, in `left` blocks of the expander. -/
def expandTileOf (s : State) (e : Bytes) (f : Fetched) (left : Nat) (direct : Bool) : TileBuf :=
  let fs := refFmt s (enRef e)
  let a := leAt e 16 1 % 16
  let n := 64 * tileBlocks fs.1 a
  let r := expandRecs s (enRef e) n
  let bb := blockBytes fs.1
  let rb := recBytes fs.1 fs.2
  let tag := fun i => max (worst ((f.tags.drop (bb * i)).take bb)) (worst ((r.2.drop (rb * i)).take rb))
  ⟨fs.1, a, fs.2, f.bytes, r.1, ((List.range (max n 1)).map fun i => (i, tag i)).filter fun x => x.2 ≠ 0, left, 0, direct⟩

/-- Tile buffers that an EXPAND names, keyed as the cluster's buffers are. -/
def expandBufs (s : State) (m : Nat) (e : Bytes) : List Nat := (entryPositions s m e).map fun p => 2 * p + leAt e 17 1 % 2

/-- Put a tile into buffers of a cluster. -/
def putTile (keys : List Nat) (t : TileBuf) (c : Cluster) : Cluster := { c with bufs := keys.foldl (fun b k => tabPut b k t) c.bufs }

/-- Symbols of a plain tile on the raw path: an element, or a packed byte of TERN (R108). -/
def plainSyms (fmt len : Nat) : Nat := if fmt = 0xA then len else if fmtBlock fmt then len / blockBytes fmt * 32 else len / 2

/-- The effect of an EXPAND, from the slice or by the direct path: its blocks join the expander's queue, and buffer BUF of every named
core holds the tile once they are delivered (R109, R136). A plain source is delivered on the raw path as one run of symbols. -/
def expandFx (m : Nat) (e : Bytes) (f : Fetched) (direct : Bool) (s : State) : State :=
  let raw : ExpBlock := ⟨refOff (enRef e), false, plainSyms (refFmt s (enRef e)).1 f.bytes.length, none, [], 0⟩
  let bl := (if f.blocks.isEmpty then [raw] else f.blocks).map fun b => { b with bufs := expandBufs s m e }
  freeNext (countPoison f.tags (queueBlocks m bl (modCluster m (putTile (expandBufs s m e) (expandTileOf s e f bl.length direct)) s)))

/-- EXPAND: one decode fills the tile buffers of the named cores. -/
def execExpandTile (m cyc : Nat) (s : State) : Host.Outcome State Fault Refusal :=
  match entryOf s m opExpand with
  | none => .next s
  | some e =>
    if (cluster s m).switched || !tileReady s m e || !loadsCome s m e then .next s
    else
      match fetchRef s (enRef e) (enTileLen s e) with
      | some f => .next (releaseTile m (cluster s m).pc (expandFx m e f false (issue m cyc e s)))
      | none => .fault (.reservedDpa (refOff (enRef e)))

/-! ## MMA (R90, R93, R101 to R103) -/

/-- Rows, formats and operands of an MMA. -/
def mmaRows (s : State) (e : Bytes) : Nat := match curRun s with | some r => resolveRows r.batch (leAt e 16 2) | none => 0
def mmaW (e : Bytes) : Nat := leAt e 18 1 % 16
def mmaA (e : Bytes) : Nat := leAt e 18 1 / 16
def mmaInit (e : Bytes) : Bool := bit (leAt e 19 1) 1

/-- The prior accumulator of a row and column. -/
def accRead (s : State) (slot acc r c : Nat) : Res :=
  ⟨leNat (cmRead s slot (acc + 256 * r + 4 * c) 4), worst (cmTags s slot (acc + 256 * r + 4 * c) 4), 0⟩

/-- Whether row `r` of an entry pads its bucket: the rows of the weave's bucket past its live rows, and those of a context bucket past
the rows the weave has in it (R102, R133). The rows of a literal count are the table's own (log 24). -/
def rowPads (s : State) (rows r : Nat) : Bool :=
  match curRun s with
  | none => false
  | some x =>
    if rows = 0x8000 then x.batch.liveRows ≤ r
    else if 0x8100 ≤ rows && rows ≤ 0x8108 then ctxRows x.batch (rows - 0x8100) ≤ r
    else false

/-- Block reads of activation row `r`, and its tag: elements at ACT, records with side-band code 0 at AMETA (log 24). A padding row
carries zeros (R102). -/
def actRow (s : State) (slot : Nat) (e : Bytes) (r : Nat) : List BlockRead × Nat :=
  let a := mmaA e
  let nb := tileBlocks (mmaW e) a
  let len := nb * blockBytes a
  if rowPads s (leAt e 16 2) r then (List.replicate nb (some (List.replicate 32 dyZero, 0)), 0)
  else
    let b := cmRead s slot (enCm e 8 + len * r) len
    let rec' := cmRead s slot (enCm e 24 + nb * r) nb
    ((List.range nb).map fun i => blockVals (escIgnore s) a 0 (slice b (blockBytes a * i) (blockBytes a)) (slice rec' i 1),
      worst (cmTags s slot (enCm e 8 + len * r) len ++ cmTags s slot (enCm e 24 + nb * r) nb))

/-- The accumulators a block-scaled MMA leaves for a row (R90, R93). -/
def mmaRowBlocks (s : State) (slot : Nat) (e : Bytes) (t : TileBuf) (wNan : Bool) (r : Nat) : List Res × Bool :=
  let act := actRow s slot e r
  let nan := act.1.any blockNan
  ((List.range 64).map fun c =>
    let prior := if mmaInit e then none else some (accRead s slot (enCm e 12) r c)
    if nan || wNan then ⟨0x7FC00000, max act.2 (tileTag t c), 0⟩
    else mmaBlockCell (escIgnore s) t act.1 act.2 prior c, nan)

/-- The 16-bit elements of activation row `r`, and its tag. -/
def actHalf (s : State) (slot : Nat) (e : Bytes) (r : Nat) : List Dyad × Nat :=
  if rowPads s (leAt e 16 2) r then (List.replicate 8 dyZero, 0)
  else
    let b := cmRead s slot (enCm e 8 + 16 * r) 16
    ((List.range 8).map fun i => codeVal (mmaA e) (leAt b (2 * i) 2), worst (cmTags s slot (enCm e 8 + 16 * r) 16))

/-- What a 16-bit MMA leaves for a row: accumulators, running sums after this quarter, and whether it read a NaN. The
sum of the block's 32 products joins the accumulator after its fourth quarter (R90, R103). The rules do not say what core memory
holds at ACC after quarters 0 to 2, while the engine carries the sum: DESIGN CHOICE, the running sum in the block that starts the
accumulator, and the prior value otherwise (log 138). -/
def mmaRowHalf (s : State) (slot : Nat) (e : Bytes) (t : TileBuf) (wNan : Bool) (quarter : Nat) (runs : List Nat) (first : Bool)
    (r : Nat) : List (Res × Nat) × Bool :=
  let act := actHalf s slot e r
  let nan := act.1.contains .nan
  ((List.range 64).map fun c =>
    let tag := max act.2 (tileTag t c)
    let sum : Res := { halfPartial (if quarter = 0 then none else some (runs.getD (64 * r + c) 0)) (tileHalf t c) act.1 with tag := tag }
    let prior := accRead s slot (enCm e 12) r c
    if nan || wNan then (⟨0x7FC00000, tag, 0⟩, 0x7FC00000)
    else if quarter = 3 then (if first then sum else addRes prior sum, sum.bits)
    else if first then (sum, sum.bits)
    else ({ prior with tag := max prior.tag tag, sat := sum.sat }, sum.bits), nan)

/-- Write accumulator rows back to core memory. -/
def accWrite (slot acc : Nat) (rows : List (List Res)) (s : State) : State :=
  ((List.range rows.length).zip rows).foldl (fun t x =>
    cmWrite slot (acc + 256 * x.1) (x.2.flatMap fun r => toLe 4 r.bits) (x.2.flatMap fun r => List.replicate 4 r.tag) t) s

/-- NaN inputs of an MMA on a core: one corrected-class event, and the core's counter held in staging (R93, R95). R93 has one event per
MMA entry, and the record of R422 names one core: DESIGN CHOICE, an entry that names several cores raises one event for each of them
that read a NaN (log 139). -/
def nanEvent (slot : Nat) (nan : Bool) (s : State) : State :=
  if nan then
    record { cause := 0x7, cls := 0, kind := 1, unit := slot, c0 := regGet s (SEQ_CORE_NAN_CNT slot) }
      { s with nanNow := tabSet s.nanNow slot (min (tabGetD s.nanNow slot 0 + 1) cntMax) 0 }
  else s

/-- The time an MMA takes on the engine of a position (R102, R112): one cycle per row from its issue, and before that the cycles in which
the engine had streamed its last row and its next tile had not come. -/
def engineTime (m cyc rows : Nat) (x : Nat × Nat) (t : TileBuf) (s : State) : State :=
  let free := tabGetD (cluster s m).engine x.1 0
  modCluster m (fun c => { c with engine := tabPut c.engine x.1 (cyc + rows) })
    (bump (SEQ_CORE_FEEDWAIT x.2) (t.readyAt - free) (bump (SEQ_CORE_BUSY x.2) rows s))

/-- An MMA on one core: position `p` of cluster `m`, core slot `slot`. -/
def mmaCore (m cyc : Nat) (e : Bytes) (rows : Nat) (s : State) (x : Nat × Nat) : State :=
  let slot := x.2
  match tabGet (cluster s m).bufs (2 * x.1 + leAt e 19 1 % 2) with
  | none => s
  | some t =>
    let s1 := engineTime m cyc rows x t s
    if fmtBlock t.fmt then
      let wNan := (List.range 64).any fun c => (List.range (tileBlocks t.fmt t.afmt)).any fun b => blockNan (tileBlock (escIgnore s) t c b)
      let out := (List.range rows).map (mmaRowBlocks s slot e t wNan)
      let sat := (out.map fun r => (r.1.map (·.sat)).sum).sum
      nanEvent slot (wNan || out.any (·.2)) (stageSat slot (accWrite slot (enCm e 12) (out.map (·.1)) s1) (0, sat))
    else
      let key := 2 ^ 20 * x.1 + enCm e 12
      let prev := if mmaInit e then none else tabGet (cluster s m).carry key
      let q := match prev with | some p => p.1 % 4 | none => 0
      let first := mmaInit e || (match prev with | some p => 4 ≤ p.1 | none => false)
      let runs := match prev with | some p => p.2 | none => []
      let wNan := (List.range 64).any fun c => (tileHalf t c).contains .nan
      let out := (List.range rows).map (mmaRowHalf s slot e t wNan q runs first)
      let sat := (out.map fun r => (r.1.map (·.1.sat)).sum).sum
      let next := (q + 1) % 4
      let keep : Cluster → Cluster := fun c =>
        if q = 3 then { c with carry := tabDel c.carry key }
        else { c with carry := tabPut c.carry key (next + (if first then 4 else 0), out.flatMap fun r => r.1.map (·.2)) }
      nanEvent slot (wNan || out.any (·.2))
        (stageSat slot (modCluster m keep (accWrite slot (enCm e 12) (out.map fun r => r.1.map (·.1)) s1)) (0, sat))

/-- The cores an entry names with their positions. -/
def namedCores (s : State) (m : Nat) (e : Bytes) : List (Nat × Nat) := (entryPositions s m e).zip (entryCores s m e)

/-- The named cores hold the whole tile that an MMA streams rows through. The rules say nothing of an MMA whose formats differ from those
of the tile in its buffer: DESIGN CHOICE, its input is never ready, and it waits (log 140). -/
def mmaReady (s : State) (m : Nat) (e : Bytes) : Bool :=
  loadsCome s m e && (namedCores s m e).all fun x =>
    match tabGet (cluster s m).bufs (2 * x.1 + leAt e 19 1 % 2) with
    | some t => t.fmt = mmaW e && t.afmt = mmaA e && t.left = 0
    | none => false

/-- The engines of the named cores have streamed their last rows by a step cycle (R102, R136). -/
def enginesFree (s : State) (m cyc : Nat) (e : Bytes) : Bool :=
  (entryPositions s m e).all fun p => tabGetD (cluster s m).engine p 0 ≤ cyc

/-- MMA: activation rows stream through the loaded tile and accumulate in FP32; no rows make it a no-operation. -/
def execMma (m cyc : Nat) (s : State) : Host.Outcome State Fault Refusal :=
  match entryOf s m opMma with
  | none => .next s
  | some e =>
    if mmaRows s e = 0 then .next (issue m cyc e s)
    else if mmaReady s m e && enginesFree s m cyc e then
      .next ((namedCores s m e).foldl (mmaCore m cyc e (mmaRows s e)) (issue m cyc e s))
    else .next s

/-! ## VEC (R135) -/

/-- Fields of a VEC. -/
def vecCount (e : Bytes) : Nat := leAt e 20 3
def vecVop (e : Bytes) : Nat := leAt e 23 1
def vecDst (e : Bytes) : Nat := leAt e 24 1 % 16
def vecSrc (e : Bytes) : Nat := leAt e 24 1 / 16
def vecRow (e : Bytes) : Nat := leAt e 25 3

/-- Side-band code of a block-scaled destination's records: a free choice, since no field names one (log 25); 0 where R80 admits no
other. -/
def vecSide (e : Bytes) : Nat :=
  if vecDst e = 0x7 || vecDst e = 0x9 || vecDst e = 0xA then Config.vecSide e % 3 else 0

/-- `n` elements of a source operand at `a`. A block-scaled source has its records at SRC_B (log 25). -/
def vecRead (s : State) (slot : Nat) (e : Bytes) (a n : Nat) : List Res :=
  let f := vecSrc e
  let len := vecBytes f n
  if fmtBlock f then
    blockElems (escIgnore s) f (cmRead s slot a len) (cmRead s slot (enCm e 12) (divUp n 32)) (cmTags s slot a len)
      (cmTags s slot (enCm e 12) (divUp n 32)) n
  else plainElems f (cmRead s slot a len) (cmTags s slot a len) n

/-- Whether the operation moves rows of elements, and the row number it takes element row `k` from (R135). -/
def moveRows (s : State) (slot : Nat) (e : Bytes) : List (Nat × Nat) :=
  let rows := if vecRow e = 0 then 0 else vecCount e / vecRow e
  let idx := fun k => leNat (cmRead s slot (enCm e 12 + 2 * k) 2)
  if vecVop e = 0x0D then (List.range rows).map fun k => (idx k, k)
  else if vecVop e = 0x0E then (List.range rows).map fun k => (k, idx k)
  else [(0, 0)]

/-- An element as a move between equal plain formats delivers it: a NaN is the canonical one, and under VEC_FTZ an FP32 subnormal is a
zero (R84, R99). -/
def movedCode (on : Bool) (f c : Nat) : Nat :=
  match codeVal f c with
  | .nan => (convert false f .nan).code
  | _ => if f = 0 then ftz on c else c

/-- The bytes of a row that moves between equal formats (log 25). -/
def movedBytes (on : Bool) (f : Nat) (b : Bytes) : Bytes :=
  if fmtBlock f then b else (records (fmtBytes f) b).flatMap fun x => toLe (fmtBytes f) (movedCode on f (leNat x))

/-- Gather, scatter and copy between equal formats move the elements; a copy of a block-scaled operand moves its records too. -/
def vecMove (s : State) (slot : Nat) (e : Bytes) : State :=
  let f := vecSrc e
  let w := vecBytes f (if vecVop e = 0x0F then vecCount e else vecRow e)
  let s1 := (moveRows s slot e).foldl (fun t x =>
    cmWrite slot (enCm e 16 + w * x.2) (movedBytes (vecFtz s) f (cmRead s slot (enCm e 8 + w * x.1) w)) (cmTags s slot (enCm e 8 + w * x.1) w) t) s
  if fmtBlock f && vecVop e = 0x0F then
    cmWrite slot (enCm e 28) (cmRead s slot (enCm e 12) (divUp (vecCount e) 32)) (cmTags s slot (enCm e 12) (divUp (vecCount e) 32)) s1
  else s1

/-- The widened operands of a VEC, moved rows taken in order, and its results. -/
def vecResults (s : State) (slot : Nat) (e : Bytes) : List Res :=
  let n := vecCount e
  let rows := if vecRow e = 0 then 0 else n / vecRow e
  if vecVop e = 0x0D then
    ((moveRows s slot e).flatMap fun x => vecRead s slot e (enCm e 8 + vecBytes (vecSrc e) (vecRow e) * x.1) (vecRow e)).map (flush (vecFtz s))
  else
    let a := vecRead s slot e (enCm e 8) n
    let b := if vecVop e = 0x10 then vecRead s slot e (enCm e 12) rows else vecRead s slot e (enCm e 12) n
    let d := if fmtBlock (vecDst e) then [] else
      plainElems (vecDst e) (cmRead s slot (enCm e 16) (vecBytes (vecDst e) n)) (cmTags s slot (enCm e 16) (vecBytes (vecDst e) n)) n
    vecOp (vecFtz s) (vecVop e) (vecRow e) a b d

/-- A VEC on one core. -/
def vecCore (e : Bytes) (s : State) (slot : Nat) : State :=
  if (vecVop e = 0x0D || vecVop e = 0x0E || vecVop e = 0x0F) && vecSrc e = vecDst e then vecMove s slot e
  else
    let o := vecOut (halfIeee s) (escIgnore s) (vecDst e) (vecSide e) (vecResults s slot e)
    let put := fun t => cmWrite slot (enCm e 28) o.recs o.rtags t
    let s1 :=
      if vecVop e = 0x0E then
        (let w := vecBytes (vecDst e) (vecRow e)
         (moveRows s slot e).foldl (fun t x => cmWrite slot (enCm e 16 + w * x.2) (slice o.bytes (w * x.1) w) ((o.tags.drop (w * x.1)).take w) t) s)
      else cmWrite slot (enCm e 16) o.bytes o.tags s
    o.sats.foldl (stageSat slot) (if o.recs.isEmpty then s1 else put s1)

/-- VEC: the operation that VOP selects, on every named core. -/
def execVec (m cyc : Nat) (s : State) : Host.Outcome State Fault Refusal :=
  match entryOf s m opVec with
  | none => .next s
  | some e => if loadsCome s m e then .next ((entryCores s m e).foldl (vecCore e) (issue m cyc e s)) else .next s

/-! ## SAMPLE (R296) -/

/-- The berth of a manifest ID, when its incarnation is current (R204). -/
def berthOf (s : State) (mid : Nat) : Option Berth :=
  match tabGet s.man.berths (mid % 2 ^ 14) with
  | some b => if tabGetD s.man.incarn (mid % 2 ^ 14) 0 = mid / 2 ^ 14 then some b else none
  | none => none

/-- The sample of weave row `i` from its logits, with the infinities its choice created: the token for the position after the row's
(R94, R295, R298). -/
def sampleRow (s : State) (b : Batch) (i : Nat) (logits : Bytes) (vocab : Nat) : Option (RowSample × Nat) :=
  match b.rows[i]? with
  | none => none
  | some r =>
    match berthOf s r.mid with
    | none => none
    | some br =>
      let l := (List.range vocab).map (wordAt logits)
      let t := chooseToken (vecFtz s) br.id.sampling br.id.seed (r.position + 1) l
      some (⟨i, t.token, logits, l.any f32Nan, t.degenerate⟩, t.sat)

/-- The sample of a row of a step that runs for another device: no rule carries the request's sampling parameters to the
replaying device, so that the token is a free value (log 84). -/
def sampleServed (s : State) (b : Batch) (i : Nat) (logits : Bytes) : Option RowSample × State :=
  match b.rows[i]?, s.eng.step with
  | some r, some st =>
    (match st.what with
     | .service _ =>
       if r.kind = 3 then (none, s)
       else
         let x := takeFree 32 s
         (some ⟨i, x.1, logits, false, false⟩, x.2)
     | _ => (none, s))
  | _, _ => (none, s)

/-- SAMPLE on one core: each row's token goes to OUT, and is held for the commit; rows without a manifest are padding,
and nothing is written for them (R102, log 30). -/
def sampleCore (e : Bytes) (rows : Nat) (s : State) (slot : Nat) : State :=
  let v := leAt e 20 4
  (List.range rows).foldl (fun t i =>
    match curRun t with
    | none => t
    | some r =>
      let logits := cmRead s slot (enCm e 8 + 4 * v * i) (4 * v)
      let served := sampleServed t r.batch i logits
      match (match served.1 with | some x => some (x, 0) | none => sampleRow s r.batch i logits v) with
      | none => t
      | some (x, sat) =>
        modRun (fun r => { r with samples := r.samples.filter (fun y => y.row ≠ i) ++ [x] })
          (cmWrite slot (enCm e 12 + 4 * i) (toLe 4 x.token)
            (List.replicate 4 (worst (cmTags s slot (enCm e 8 + 4 * v * i) (4 * v)))) (stageSat slot served.2 (0, sat)))) s

/-- SAMPLE: one token per row from its logits. -/
def execSampleEntry (m cyc : Nat) (s : State) : Host.Outcome State Fault Refusal :=
  match entryOf s m opSample with
  | none => .next s
  | some e =>
    let rows := match curRun s with | some r => resolveRows r.batch (leAt e 16 2) | none => 0
    if loadsCome s m e then .next ((entryCores s m e).foldl (sampleCore e rows) (issue m cyc e s)) else .next s

/-! ## Flags and barriers (R139) -/

/-- A flag of a cluster. -/
def flagOf (s : State) (m f : Nat) : Nat := tabGetD (cluster s m).flags f 0

/-- Advance a flag, which stops at 0xFFFF. -/
def flagUp (m f : Nat) (s : State) : State :=
  modCluster m (fun c => { c with flags := tabSet c.flags f (min (tabGetD c.flags f 0 + 1) 0xFFFF) 0 }) s

/-- An arrival for a batch slot advances the flag bound to it in every cluster in service (R138, R139). -/
def flagArrival (f : Nat) (s : State) : State :=
  if 48 ≤ f && f ≤ 63 then (clustersIn s).foldl (fun t m => flagUp m f t) s else s

/-- A fabric arrival completes in the `len` bytes at DPA `a`: the flag 48 to 55 of each INPUT slot of the running step bound to any of
them advances (R139). The rules do not list the arrivals: DESIGN CHOICE, a page that PAGE.SEAL places, a SEND message and a store from
the fabric are those that complete in memory that a slot can name (log 141). -/
def inputArrived (a len : Nat) (s : State) : State :=
  match curRun s with
  | none => s
  | some r =>
    (r.batch.slots.filter fun x =>
        x.kind = 0 && decide (48 ≤ x.flag) && decide (x.flag ≤ 55) && x.tier ≠ 2 && decide (a < x.addr + x.len) && decide (x.addr < a + len)).foldl
      (fun t x => flagArrival x.flag t) s

/-- WAIT: issues once its flag is at least COUNT. -/
def execWaitEntry (m cyc : Nat) (s : State) : Host.Outcome State Fault Refusal :=
  match entryOf s m opWait with
  | none => .next s
  | some e => if leAt e 16 2 ≤ flagOf s m (leAt e 8 1) then .next (issue m cyc e s) else .next s

/-- Cycles a SIGNAL takes: 40 within a die stack, 160 to another (R139). -/
def signalDelay (m target : Nat) : Nat := if m / 32 = target / 32 then 40 else 160

/-- SIGNAL: leaves for its target cluster; nothing is delivered to an absent one. -/
def execSignalEntry (m cyc : Nat) (s : State) : Host.Outcome State Fault Refusal :=
  match entryOf s m opSignal with
  | none => .next s
  | some e =>
    let t := leAt e 10 2
    .next (issue m cyc e
      (if (cluster s t).present then
        modCluster m (fun c => { c with signals := c.signals ++ [⟨t, leAt e 8 1, cyc + signalDelay m t⟩] }) s
       else s))

/-- Whether a cluster has this SIGNAL on its way. -/
def hasSignal (x : FlagSignal) (c : Cluster) : Bool := c.signals.contains x

/-- A SIGNAL reaches its target at the cycle it is due and advances the flag. -/
def execSignalDelivered (target flag cyc : Nat) (s : State) : Host.Outcome State Fault Refusal :=
  match (List.range 128).find? fun m => hasSignal ⟨target, flag, cyc⟩ (cluster s m) with
  | none => .next s
  | some m =>
    let s1 := modCluster m (fun c => { c with signals := c.signals.erase ⟨target, flag, cyc⟩ }) s
    .next (if (cluster s1 target).present then flagUp target flag s1 else s1)

/-- Clusters in service within a BARRIER's scope of cluster `m`: 0 cluster, 1 die stack, 2 package. -/
def barrierScope (s : State) (m scope : Nat) : List Nat :=
  if scope = 0 then [m] else if scope = 1 then (clustersIn s).filter fun k => k / 32 = m / 32 else clustersIn s

/-- Every entry that a cluster has issued has completed by a step cycle: its engines have streamed their rows, and neither the expander
nor the direct path holds anything for it. -/
def entriesDone (s : State) (m cyc : Nat) : Bool :=
  (cluster s m).expander.isEmpty && (cluster s m).direct.isNone && (cluster s m).engine.all fun x => x.2 ≤ cyc

/-- A cluster waits at a BARRIER whose whole scope has reached one with the same ID; within the cluster, its earlier entries have
completed (R139). -/
def barrierMet (s : State) (cyc m : Nat) : Bool :=
  match (cluster s m).barrier with
  | none => false
  | some b =>
    (barrierScope s m b.1).all (fun k => match (cluster s k).barrier with | some b' => b'.2 = b.2 | none => false) &&
      (b.1 ≠ 0 || entriesDone s m cyc)

/-- BARRIER: the cluster waits; every BARRIER whose scope is now complete issues. -/
def execBarrierEntry (m cyc : Nat) (s : State) : Host.Outcome State Fault Refusal :=
  match entryOf s m opBarrier with
  | none => .next s
  | some e =>
    let s1 := modCluster m (fun c => { c with barrier := some (leAt e 8 1, leAt e 9 1) }) s
    .next (((List.range 128).filter (barrierMet s1 cyc)).foldl (fun t k => advance k cyc t) s1)

/-! ## SENTINEL (R97, R142) -/

/-- What a SENTINEL computes: the narrow tile and the reference tile in row order, and the counts of R94 by format code. -/
structure SentOut where
  narrow : List Nat
  ref : List Nat
  sats : List (Nat × Nat)
deriving DecidableEq, Repr

/-- The two tiles of a SENTINEL on the core at `slot`. The rules place neither NARROW's rows nor the check among several named cores:
DESIGN CHOICE, NARROW lies tile by tile, row i of column tile c at NARROW + 256 × (c × L + i), and the first named core makes the check
(log 31). -/
def sentTiles (s : State) (slot : Nat) (e : Bytes) (r : Run) (ref recs : Bytes) (l index : Nat) : SentOut :=
  let k := ref.length / 64
  let nb := k / 32
  let live := (List.range 64).map fun i => 64 * index + i < r.batch.liveRows && 64 * index + i < l
  let ws := (List.range 64).map fun c =>
    (List.range nb).map fun b => blockVals (escIgnore s) 0x3 0 (slice ref (32 * (c * nb + b)) 32) (slice recs (c * nb + b) 1)
  let row := fun (i : Nat) (n w : Nat) => (List.range w).map (wordAt (cmRead s slot n (4 * w)))
  let acts := (List.range 64).map fun i =>
    if live.getD i false then fp8Blocks (escIgnore s) (row i (enCm e 16 + 4 * k * (64 * index + i)) k) else []
  let cells := acts.map fun a => if a.isEmpty then List.replicate 64 (⟨0, 0, 0⟩ : Res) else ws.map (refCell (fp8Read (escIgnore s) a))
  ⟨(List.range 64).flatMap fun i =>
      if live.getD i false then row i (enCm e 20 + 256 * (leAt e 26 2 * l + 64 * index + i)) 64 else List.replicate 64 0,
    cells.flatMap fun x => x.map (·.bits),
    [(0, ((cells.flatMap fun x => x).map (·.sat)).sum), (0x3, ((acts.flatMap fun x => x).map (·.sat)).sum)]⟩

/-- A drift beyond tolerance marks the step suspect and sends a DRIFT record (R98). -/
def driftMark (m : Nat) (e : Bytes) (index d q : Nat) (s : State) : State :=
  record { cause := 0x8, cls := 0, flags := 1, kind := 2, unit := m,
           c0 := leAt e 24 2 + 2 ^ 16 * leAt e 26 2 + 2 ^ 32 * (64 * index), c1 := d + 2 ^ 32 * q }
    (modRun (fun r => { r with suspectNow := true, drift := some index }) s)

/-- A SENTINEL without rows, or of a tensor without a tolerance, issues as a no-operation (R96, R133, R142). -/
def sentIdle (s : State) (e : Bytes) : Bool :=
  (match curRun s with | some r => resolveRows r.batch (leAt e 28 2) = 0 | none => true) ||
    (match curStake s with | some k => teTol (stkEntry k (leAt e 24 2)) = 0 | none => true)

/-- The check of a SENTINEL, from the slice or by the direct path. -/
def sentinelFx (m : Nat) (e : Bytes) (f : Fetched) (s : State) : State :=
  match curRun s, curStake s, entryCores s m e with
  | some r, some k, slot :: _ =>
    let l := resolveRows r.batch (leAt e 28 2)
    let tol := teTol (stkEntry k (leAt e 24 2))
    if sentIdle s e then s
    else
      let index := recStep s % divUp l 64
      let recs := (fetchRecords s k (refHandle (enRef e)) (refOff (enRef e) / 32) (f.bytes.length / 32)).1
      let t := sentTiles s slot e r f.bytes recs l index
      let x := driftSums t.narrow t.ref
      let s1 := (t.sats ++ [(0, x.1.sat + x.2.sat)]).foldl (stageSat slot) s
      freeNext (queueBlocks m (loadBlocks (enCores e) f.blocks)
        (if driftFails tol x.1.bits x.2.bits then driftMark m e index x.1.bits x.2.bits s1 else s1))
  | _, _, _ => s

/-- SENTINEL: a tile is recomputed at FP8 and compared with the narrow result. -/
def execSentinelEntry (m cyc : Nat) (s : State) : Host.Outcome State Fault Refusal :=
  match entryOf s m opSentinel with
  | none => .next s
  | some e =>
    if sentIdle s e then .next (releaseTile m (cluster s m).pc (issue m cyc e s))
    else if (cluster s m).switched || !tileReady s m e || !loadsCome s m e then .next s
    else
      match fetchRef s (enRef e) (enTileLen s e) with
      | some f => .next (releaseTile m (cluster s m).pc (sentinelFx m e f (issue m cyc e s)))
      | none => .fault (.reservedDpa (refOff (enRef e)))

/-- END: the cluster has finished the step, once its earlier entries have all completed (R137). -/
def execEndEntry (m cyc : Nat) (s : State) : Host.Outcome State Fault Refusal :=
  match entryOf s m opEnd with
  | none => .next s
  | some e =>
    if entriesDone s m cyc then
      .next (modCluster m (fun c => { c with finished := true }) (stallTo m e (min cyc (dataCame s m cyc e).1) (dataCame s m cyc e).2 s))
    else .next s

/-! ## Deadlines and fallbacks (R113, R134, R140) -/

/-- Switch cluster `m`'s next entry to the direct path, which carries one tile at a time (R113, R114). The sequencer goes on; a tile
buffer that an EXPAND names holds nothing until the path has delivered. While the path is taken, the entry waits for it. -/
def switchEntry (m cyc : Nat) (e : Bytes) (s : State) : State :=
  if (cluster s m).direct.isSome then modCluster m (fun c => { c with switched := true, fellBack := true }) s
  else
    let awaited : TileBuf := { fmt := (refFmt s (enRef e)).1, afmt := leAt e 16 1 % 16, side := 0, elems := [], recs := [], poison := [],
                               left := 1, readyAt := 0, direct := true }
    let s1 := advance m cyc (modCluster m (fun c => { c with direct := some c.pc }) s)
    if enOp e = opExpand then modCluster m (putTile (expandBufs s m e) awaited) s1 else s1

/-- The fallback of an entry whose input is not ready (R134): DIRECT switches a tile staged from HBM3E, SKIP and
SKIP_SUSPECT pass over a SENTINEL, and everything else keeps waiting. -/
def fallback (m cyc : Nat) (e : Bytes) (s : State) : State :=
  if enFallback e = 1 && refStaged s (enOp e) (enRef e) && refTier s (enRef e) = 0 then
    switchEntry m cyc e (bump (SEQ_CLU_DIRECT_CNT m) 1 s)
  else if enFallback e = 2 then advance m cyc (releaseTile m (cluster s m).pc (bump SEQ_SENT_SKIP_CNT 1 s))
  else if enFallback e = 3 then advance m cyc (releaseTile m (cluster s m).pc (bump SEQ_SENT_SUSPECT_CNT 1 (markSuspect s)))
  else modCluster m (fun c => { c with fellBack := true }) s

/-- The input of an entry is ready as the device's own state shows it; that of a source read at issue shows nowhere. -/
def inputReady (s : State) (m : Nat) (e : Bytes) : Bool :=
  if enOp e = opWait then leAt e 16 2 ≤ flagOf s m (leAt e 8 1)
  else if enOp e = opMma then mmaReady s m e
  else if enOp e ≤ 1 || enOp e = opSentinel then refStaged s (enOp e) (enRef e) && tileStaged s m e && loadsCome s m e
  else loadsCome s m e

/-- ENTRY_DEADLINE: step cycle `cyc`, at or past the deadline of cluster `m`'s next entry, finds its input not ready. Two
things the state does not show make it ready all the same: the data of a source read at issue have been delivered, or an input becomes
ready on this very cycle (R113, R140). With the input ready there is no fallback: an entry that still does not issue waits for its own fetch (R141). Otherwise the
fallback is applied once, and the stall cycles so far are counted. -/
def execEntryDeadline (m cyc : Nat) (delivered onCycle : Bool) (s : State) : Host.Outcome State Fault Refusal :=
  match curEntry s m with
  | none => .next s
  | some e =>
    if delivered || onCycle || enDeadline e = 0xFFFFFFFF || cyc < enDeadline e then .next s
    else
      let s1 := stallTo m e cyc (stallCause s m e) s
      .next (if inputReady s m e then modCluster m (fun c => { c with unfetched := true }) s1
             else if (cluster s m).fellBack then s1 else fallback m cyc e s1)

/-! ## Arrivals, staging and the direct path (R113 to R115, R139, R172 to R175) -/

/-- HOST_ARRIVAL_COMPLETE: the flag bound to a slot of host memory advances. -/
def execHostArrivalComplete (slot : Nat) (s : State) : Host.Outcome State Fault Refusal :=
  match curRun s with
  | none => .next s
  | some r =>
    let f := (slotRec r.batch slot).flag
    .next (if 56 ≤ f && f ≤ 63 then flagArrival f s else s)

/-- The run and the step whose table the stager walks: the running step's, or the next step's once its reach has passed END
(R174). -/
def stageRun (s : State) (m : Nat) : Option (Run × Nat) :=
  if (cluster s m).pastEnd then
    match s.eng.next with
    | none => none
    | some c =>
      let same : Bool := match s.eng.step with | some x => decide (x.what = .run c) | none => false
      (tabGet s.eng.runs c).map fun r => (r, if same then r.step + 1 else r.step)
  else (curRun s).map fun r => (r, r.step)

/-- The variant of that table: the run, the image and the record. -/
def stageVariant (s : State) (m : Nat) : Option (Run × Bytes × Bytes) :=
  match stageRun s m with
  | none => none
  | some (r, k) =>
    let img := (tblSlot s r.batch.setSlot).image
    (tblVariant img r.batch.programId k (shapeKey s m)).map fun v => (r, img, v)

/-- The slice's bytes in use. -/
def sliceUsed (c : Cluster) : Nat := (c.staged.map (·.bytes)).sum + (match c.staging with | some t => t.bytes | none => 0)

/-- Stored bytes that hold `len` bytes of a reference: for a coded tensor the blocks touched (R182, R194). -/
def refStored (s : State) (r : Run) (x len : Nat) : Nat :=
  if refIsSlot x then len
  else
    match stakeIn s r with
    | none => len
    | some k =>
      let h := refHandle x
      if teCoded (stkEntry k h) then
        (let c := (extRead s (teExtents k h) 0 (teStored (stkEntry k h))).1
         ((touchedBlocks c (refOff x) len).map fun b => ctStart c (b + 1) - ctStart c b).sum)
      else len

/-- Tiles that an entry makes the stager stage (R172). -/
def entryStages (s : State) (r : Run) (e : Bytes) : Bool :=
  (enOp e ≤ 1 || enOp e = opSentinel) && tierStaged (enOp e) (enRef e) (refTierIn s r (enRef e))

/-- Whether an entry of a table, from entry `i` on, makes the stager stage this tile. -/
def namesTile (s : State) (r : Run) (img v : Bytes) (t : StagedTile) (i : Nat) : Bool :=
  (List.range (varEntries v)).any fun k =>
    i ≤ k && (let e := varEntry img v k
              entryStages s r e && isTile (tileName s r (enRef e)) (tileLenIn s r e) t)

/-- The first entry from the stager's reach whose tile it stages, `fuel` entries at most. -/
def stageNext (s : State) (r : Run) (img v : Bytes) : Nat → Nat → Option (Nat × Bytes)
  | 0, _ => none
  | fuel + 1, i =>
    if varEntries v ≤ i then none
    else
      let e := varEntry img v i
      if entryStages s r e then some (i, e) else stageNext s r img v fuel (i + 1)

/-- A staged tile that a later entry `i` names too is kept for it (R173). -/
def keepTile (x : Nat × Nat) (len i : Nat) (t : StagedTile) : StagedTile := if isTile x len t then { t with entry := i } else t

/-- The number under which a tile is staged: its entry, or, for a tile of the step that follows, its entry and 2^17, which
no entry of the running step has. -/
def stageNo (c : Cluster) (i : Nat) : Nat := if c.pastEnd then 2 ^ 17 + i else i

/-- STAGER_TILE_START: the stager starts the next tile once the slice has room for the whole of it; a tile already
staged is kept as the one copy (R172, R173). -/
def execStagerTileStart (m : Nat) (s : State) : Host.Outcome State Fault Refusal :=
  let c := cluster s m
  match (if c.present && c.staging.isNone then stageVariant s m else none) with
  | none => .next s
  | some (r, img, v) =>
    match stageNext s r img v (varEntries v) c.reach with
    | none => .next (modCluster m (fun c => if c.pastEnd then c else { c with pastEnd := true, reach := 0 }) s)
    | some (i, e) =>
      let len := tileLenIn s r e
      let x := tileName s r (enRef e)
      let size := refStored s r (enRef e) len
      if (inSlice c x len).isSome then
        .next (modCluster m (fun c => { c with reach := i + 1, staged := c.staged.map (keepTile x len (stageNo c i)) }) s)
      else if sliceUsed c + size ≤ 24 * 2 ^ 20 then
        .next (modCluster m (fun c =>
          { c with reach := i + 1, staging := some ⟨stageNo c i, x.1, x.2, len, size, refTierIn s r (enRef e), 0⟩ }) s)
      else .next s

/-- Count the bytes of a staged tile by the tier it came from (R180). -/
def stagedCount (t : StagedTile) (s : State) : State :=
  if t.tier = 0 then bump MEM_STAGE_HBM_BYTES t.bytes s else if t.tier = 1 then bump MEM_STAGE_LPX_BYTES t.bytes s else s

/-- A tile whose entry has been switched or skipped in the meantime serves the later entries that name it; without one it is released
(R115, R173). -/
def servesLater (s : State) (m : Nat) (t : StagedTile) : Bool :=
  decide ((cluster s m).pc ≤ t.entry) ||
    (match curRun s, curVariant s m with
     | some r, some (img, v) => namesTile s r img v t (cluster s m).pc
     | _, _ => true)

/-- STAGING_COMPLETE: every byte of the tile is in the slice. -/
def execStagingComplete (c : ClusterCycle) (s : State) : Host.Outcome State Fault Refusal :=
  match (cluster s c.m).staging with
  | none => .next s
  | some t =>
    let here := if servesLater s c.m t then [{ t with since := c.cyc }] else []
    .next (stagedCount t (modCluster c.m (fun x => { x with staging := none, staged := x.staged ++ here }) s))

/-- The effect of an entry whose tile has come by the direct path. -/
def directFx (m : Nat) (e : Bytes) (f : Fetched) (s : State) : State :=
  if enOp e = opLoadTile then loadTileFx m e f s else if enOp e = opExpand then expandFx m e f true s else sentinelFx m e f s

/-- What came late into the core memory of an entry's cores: the step cycle, and the cause under which waits for it count. -/
def loadedAt (m cyc cause : Nat) (cores : Nat) (s : State) : State :=
  modCluster m (fun c => { c with loaded := ((List.range 8).filter (bit cores)).foldl (fun l p => tabPut l p (cyc, cause)) c.loaded }) s

/-- The direct path is free: an entry that waits for it is next on it. -/
def directNext (m cyc : Nat) (s : State) : State :=
  let s1 := modCluster m (fun c => { c with direct := none }) s
  match (if (cluster s m).switched then curEntry s1 m else none) with
  | some e => switchEntry m cyc e (stallTo m e cyc 2 s1)
  | none => s1

/-- DIRECT_PATH_COMPLETE: the tile is delivered with the bytes the slice would have given, and the switched entry
completes (R114, R115). -/
def execDirectPathComplete (c : ClusterCycle) (s : State) : Host.Outcome State Fault Refusal :=
  match directEntry s c.m with
  | none => .next s
  | some e =>
    match fetchRef s (enRef e) (enTileLen s e) with
    | none => .fault (.reservedDpa (refOff (enRef e)))
    | some f =>
      .next (directNext c.m c.cyc (loadedAt c.m c.cyc 2 (if enOp e = opExpand then 0 else enCores e)
        (bump (SEQ_CLU_DIRECT_BYTES c.m) f.stored (directFx c.m e f s))))

/-! ## Expander and compressor (R193, R196, R199) -/

/-- A length mismatch: counted, reported, the step suspect and the block's extent kept for repair (R196, R197). -/
def mismatchFx (m : Nat) (b : ExpBlock) (s : State) : State :=
  match b.mismatch with
  | none => s
  | some (sub, cause) =>
    let s1 := regPut (EXP_LAST_DPA m) b.dpa (regPut (EXP_STATUS m) (2 ^ 8 * cause + 2 ^ 3 * sub) (bump (EXP_MISMATCH_CNT m) 1 s))
    let s2 := modTier (fun t => { t with mismatched := t.mismatched ++ [b.dpa] }) (markSuspect (bump ERR_POISON_CNT b.syms s1))
    record { cause := 0xA, cls := 1, flags := 1, kind := 2, unit := m, addr := b.dpa, c0 := sub + 2 ^ 8 * cause } s2

/-- What an expander delivers is counted: coded at 256 and raw at 512 symbols a cycle (R193, R202). -/
def expanderCounts (m : Nat) (b : ExpBlock) (s : State) : State :=
  mismatchFx m b (bump (EXP_BUSY_CYCLES m) (divUp b.syms (if b.coded then 256 else 512))
    (bump (if b.coded then EXP_CODED_SYMS m else EXP_RAW_SYMS m) b.syms s))

/-- A block has come into the tile buffers that wait for it. -/
def blockDelivered (b : ExpBlock) (cyc : Nat) (c : Cluster) : Cluster :=
  { c with bufs := b.bufs.foldl (fun l k => tabMod l k fun t => { t with left := t.left - 1, readyAt := cyc }) c.bufs }

/-- EXPANDER_BLOCK_DONE: one block has been delivered. -/
def execExpanderBlockDone (c : ClusterCycle) (s : State) : Host.Outcome State Fault Refusal :=
  match (cluster s c.m).expander with
  | [] => .next s
  | b :: t =>
    .next (loadedAt c.m c.cyc 1 b.cores (expanderCounts c.m b (modCluster c.m (fun x => blockDelivered b c.cyc { x with expander := t }) s)))

/-- COMPRESSOR_OBJECT_READY: a region's compressor finishes its oldest object. -/
def execCompressorObjectReady (region : Nat) (s : State) : Host.Outcome State Fault Refusal :=
  match (regionSt s region).coding with
  | [] => .next s
  | (syms, bytes, raw) :: t =>
    .next (bump (CMP_RAW_BLOCKS region) raw (bump (CMP_OUT_BYTES region) bytes
      (bump (CMP_IN_SYMS region) syms (modRegion region (fun r => { r with coding := t }) s))))

/-- Code an object through a region's compressor: the container it gives, raw blocks only while it is fenced
(R52, R199, R201). -/
def codeObject (region f : Nat) (b : Bytes) (s : State) : Bytes × State :=
  if (regionSt s region).compFenced then
    let c := rawContainer f b
    (c, bump (CMP_FENCED_RAW region) (ctBlocks c) s)
  else
    let c := compress f b
    let raw := ((List.range (ctBlocks c)).filter fun i => leAt c (ctStart c i) 1 % 4 = 0).length
    (c, modRegion region (fun r => { r with coding := r.coding ++ [(b.length * 8 / symBits f, c.length, raw)] }) s)

end Sys2Proof.Machine
end

