-- ==== Sys2Proof/Machine/Packets.lean ====
section
/-! DEFINITION. Evoest packets (chapter 12): status codes, completion rings, replies and response messages, what the
device sends on a queue pair, and the checks of reception (R312). -/

namespace Sys2Proof.Machine

/-! ## Status codes (R319) -/

def stOk : Nat := 0x0000
def stPending : Nat := 0x0001
def stVersion : Nat := 0x0101
def stOpcode : Nat := 0x0102
def stFormat : Nat := 0x0103
def stCrc : Nat := 0x0104
def stPd : Nat := 0x0201
def stKey : Nat := 0x0202
def stEpochStale : Nat := 0x0203
def stLicence : Nat := 0x0204
def stNoBerth : Nat := 0x0301
def stNoPage : Nat := 0x0302
def stBusy : Nat := 0x0303
def stResource : Nat := 0x0304
def stTimeout : Nat := 0x0401
def stTargetDead : Nat := 0x0402
def stPoison : Nat := 0x0403
def stStateLost : Nat := 0x0404
def stWithyRetired : Nat := 0x0405
def stQpError : Nat := 0x0406
def stRestricted : Nat := 0x0501
def stInternal : Nat := 0x0FFF

/-- Every status code that R319 lists. -/
def statusListed (st : Nat) : Bool :=
  [0x0000, 0x0001, 0x0101, 0x0102, 0x0103, 0x0104, 0x0201, 0x0202, 0x0203, 0x0204, 0x0301, 0x0302, 0x0303, 0x0304,
   0x0401, 0x0402, 0x0403, 0x0404, 0x0405, 0x0406, 0x0501, 0x0FFF].contains st

/-! ## Host rings (R334 to R337) -/

def sqRing (s : State) (n : Nat) : SqRing := tabGetD s.sq n {}
def cqRing (s : State) (n : Nat) : CqRing := tabGetD s.cq n {}
def modSq (n : Nat) (f : SqRing → SqRing) (s : State) : State := { s with sq := tabSet s.sq n (f (sqRing s n)) {} }
def modCq (n : Nat) (f : CqRing → CqRing) (s : State) : State := { s with cq := tabSet s.cq n (f (cqRing s n)) {} }

/-- The function that owns rings `n`: a VF for its 32 rings while VF Enable covers it, else PF0 (R487). -/
def ringOwner (s : State) (n : Nat) : Nat :=
  if 1 ≤ n / 32 && s.pcie.vfEnable && n / 32 ≤ s.pcie.numVfs then n / 32 else 0

/-- Slots of a ring (R341). -/
def sqSlots (s : State) (n : Nat) : Nat := 2 ^ (regField s (CMD_SQ_CTRL n) 27 24 + 8)
def cqSlots (s : State) (n : Nat) : Nat := 2 ^ (regField s (CMD_CQ_CTRL n) 27 24 + 8)
def sqCq (s : State) (n : Nat) : Nat := regField s (CMD_SQ_CTRL n) 21 12
def sqPd (s : State) (n : Nat) : Nat := regField s (CMD_SQ_CTRL n) 11 0
def sqComp (s : State) (n : Nat) : Nat := regField s (CMD_SQ_COMP n) 11 0

/-- Write slots to a completion ring from `tail` on, wrapping at its end. -/
def cqSlotWrites (fn base size : Nat) : Nat → List Bytes → State → State
  | _, [], s => s
  | tail, b :: t, s => cqSlotWrites fn base size ((tail + 1) % size) t (emit (.hostWrite fn (base + 64 * tail) b) s)

/-- Raise the interrupt of a completion ring, and start counting entries afresh (R336). -/
def cqIrq (n : Nat) (s : State) : State :=
  let s1 := modCq n (fun q => { q with coal := 0 }) s
  if bit (regGet s (CMD_CQ_CTRL n)) 30 then msixRaise (ringOwner s n) (regField s (CMD_CQ_CTRL n) 21 11) s1 else s1

/-- One more entry posted: the interrupt falls due at COAL_CNT entries, 0 and 1 each meaning every entry (R336). -/
def cqCoalesce (n : Nat) (s : State) : State :=
  let k := (cqRing s n).coal + 1
  if max 1 (regField s (CMD_CQ_CTRL n) 7 0) ≤ k then cqIrq n s
  else modCq n (fun q => { q with coal := k, coalSince := if q.coal = 0 then s.tick else q.coalSince }) s

/-- Write an entry that fits: its slots, the tail, the tail writeback, then the interrupt (R336, R486). -/
def cqWrite (n : Nat) (b : Bytes) (s : State) : State :=
  let q := cqRing s n
  let fn := ringOwner s n
  let k := b.length / 64
  let tail := (q.tail + k) % cqSlots s n
  let s1 := cqSlotWrites fn (regGet s (CMD_CQ_BASE n)) (cqSlots s n) q.tail (pieces 64 k b) s
  let s2 := modCq n (fun q => { q with tail := tail, used := q.used + k }) s1
  let wb := regGet s (CMD_CQ_TAILWB n)
  cqCoalesce n (if wb = 0 then s2 else emit (.hostWrite fn wb (toLe 4 tail)) s2)

/-- Whether an entry fits behind the unreturned slots, with the link up and nothing held before it (R337, R491). -/
def cqFits (s : State) (n : Nat) (b : Bytes) : Bool :=
  (cqRing s n).held.isEmpty && s.pcie.up && (cqRing s n).used + b.length / 64 ≤ cqSlots s n

/-- Post an entry to a completion ring: written, held until it fits, or dropped when the ring is DISABLED (R337, R340). -/
def cqPost (n : Nat) (b : Bytes) (s : State) : State :=
  if (cqRing s n).state ≠ 1 then bump CMD_DISCARD_CNT 1 s
  else if cqFits s n b then cqWrite n b s
  else modCq n (fun q => { q with held := q.held ++ [⟨b, s.tick⟩] }) s

/-- Post the held entries that fit now, oldest first; `fuel` bounds them. -/
def cqDrain (n : Nat) : Nat → State → State
  | 0, s => s
  | fuel + 1, s =>
    match (cqRing s n).held with
    | [] => s
    | e :: t =>
      if s.pcie.up && (cqRing s n).used + e.bytes.length / 64 ≤ cqSlots s n then
        cqDrain n fuel (cqWrite n e.bytes (modCq n (fun q => { q with held := t, stalled := false }) s))
      else s

/-- The 32 bytes of a reply (R315). -/
def replyBytes (r : ReplyOut) : Bytes :=
  let b := toLe 1 r.format ++ toLe 1 r.minor ++ toLe 1 r.opcode ++ toLe 1 (128 + b2n r.final) ++ toLe 4 r.tag ++ toLe 4 r.mid ++
    toLe 2 r.status ++ toLe 2 r.detail ++ toLe 8 r.result ++ toLe 4 r.seq
  b ++ toLe 4 (crc32c b)

/-- A reply entry of a completion ring, with the submission ring's HEAD as it stands (R336, log 158). -/
def replyEntry (sqn head : Nat) (r : ReplyOut) : Bytes := replyBytes r ++ toLe 4 sqn ++ toLe 4 head ++ zeros 24

/-- The 64-byte header of a packet (R307). -/
def headerBytes (pk : TxPkt) (len : Nat) : Bytes :=
  let b := toLe 1 pk.format ++ toLe 1 pk.minor ++ toLe 1 pk.opcode ++ toLe 1 pk.flags ++ toLe 4 pk.tag ++ toLe 4 pk.mid ++
    toLe 4 pk.epoch ++ toLe 4 pk.pd ++ toLe 4 len ++ toLe 8 pk.offset ++ toLe 4 pk.p0 ++ toLe 4 pk.p1 ++ toLe 4 pk.p2 ++
    toLe 4 pk.p3 ++ toLe 4 pk.slack ++ toLe 4 pk.seq ++ zeros 4
  b ++ toLe 4 (crc32c b)

/-- The packets of a message whose payload `pk` holds: at most 8,192 payload bytes each, LAST in the last of them (R307, R310). -/
def cutPackets (pk : TxPkt) : List TxPkt :=
  let n := max 1 (divUp pk.payload.length 8192)
  (List.range n).map fun i =>
    { pk with flags := if i + 1 = n then pk.flags else setBits pk.flags 0 0 0, offset := 8192 * i, payload := slice pk.payload (8192 * i) 8192 }

/-- A packet in the slot form of R334. -/
def packetSlots (pk : TxPkt) : Bytes :=
  let b := headerBytes pk pk.payload.length ++ (if pk.payload.isEmpty then [] else pk.payload ++ toLe 4 (crc32c pk.payload))
  b ++ zeros (divUp b.length 64 * 64 - b.length)

/-! ## Sending on queue pairs (R310, R354 to R361, R528) -/

def qpOf (s : State) (n : Nat) : Option Qp := tabGet s.fab.qps n
def modQp (n : Nat) (f : Qp → Qp) (s : State) : State := modFab (fun b => { b with qps := tabMod b.qps n f }) s
def portOf (s : State) (p : Nat) : Port := s.fab.ports.getD p {}
def modPort (p : Nat) (f : Port → Port) (s : State) : State :=
  modFab (fun b => { b with ports := listSet b.ports p (f (b.ports.getD p {})) }) s

/-- Ports that are UP, ascending. -/
def portsUp (s : State) : List Nat := (List.range 8).filter fun p => (portOf s p).state = 4

/-- UP ports that are not left out for a destination (R357). -/
def portsFor (s : State) (dest : Nat) : List Nat := (portsUp s).filter fun p => !s.fab.excluded.any fun x => x.1 = p && x.2.1 = dest

/-- The port on which a QP's TC-L packets leave: the (QPN mod n)-th of the n that are UP, those left out for its peer apart
(R361, R363, log 131). -/
def tclPort (s : State) (qp : Nat) : Option Nat :=
  match (match qpOf s qp with | some q => portsFor s q.peerDev | none => portsUp s) with
  | [] => none
  | l => l[qp % l.length]?

/-- Paths of a QP; 0 names FAB_CTRL.SPRAY (R365). -/
def sprayOf (s : State) (q : Qp) : Nat := if q.spray = 0 then regField s FAB_CTRL 4 0 else q.spray

/-- The path of TC-S packet `i` after `retries` retransmissions (R357). -/
def sprayPath (s : State) (q : Qp) (i retries : Nat) : Nat := (i + retries) % max 1 (sprayOf s q)

/-- The port by which a path leaves, over the UP ports that are not left out for the destination (R357). -/
def pathPort (s : State) (dest path : Nat) : Option Nat :=
  match portsFor s dest with
  | [] => none
  | l => l[path % l.length]?

/-- PKT_COUNT of packet `i` of a message of `n` packets (R352). -/
def pktCountOf (i n : Nat) : Nat := if i + 1 = n then n else 0

/-- Frames of a message as its payload is cut into packets of 8,192 bytes (R356): frame bytes with the 40 of R349. -/
def packetFrames (len : Nat) : List Nat :=
  if len = 0 then [104]
  else (List.range (divUp len 8192)).map fun i => 40 + 64 + min 8192 (len - 8192 * i) + 4

/-- Evoest packet bytes of a message, headers and payload CRCs included, framing excluded (R414). -/
def evoBytes (len : Nat) : Nat := (packetFrames len).sum - 40 * (packetFrames len).length

def shaperOf (s : State) (qp : Nat) : Shaper := tabGetD s.sched.shapers qp {}
def modShaper (qp : Nat) (f : Shaper → Shaper) (s : State) : State :=
  modSched (fun c => { c with shapers := tabSet c.shapers qp (f (tabGetD c.shapers qp {})) {} }) s

/-- Join a frame to a port's queue; the first sending of a QP on the timing wheel waits there (R416). -/
def queueFrame (p : Option Nat) (f : TxFrame) (s : State) : State :=
  match p with
  | none => s
  | some p =>
    if (shaperOf s f.qp).slot.isSome && !f.retx then modShaper f.qp (fun h => { h with frames := h.frames ++ [(p, f)] }) s
    else modPort p (fun q => if f.tcs then { q with tcs := q.tcs ++ [f] } else { q with tcl := q.tcl ++ [f] }) s

/-! ### Resident contexts (R370, R371) -/

/-- A context that is never evicted: TYPE 1, or PIN. -/
def qpPinned (q : Qp) : Bool := q.type = 1 || q.pin

/-- Resident slots of a die in use: a fetch has taken its slot, and a context being evicted still holds it. -/
def dieContexts (s : State) (die : Nat) : Nat := (s.fab.qps.filter fun e => e.1 % 2 = die && e.2.loc ≠ 1).length

/-- An idle context (R370). -/
def qpIdle (s : State) (n : Nat) (q : Qp) : Bool :=
  q.unacked.isEmpty && q.queued.isEmpty && q.tcsOut.isEmpty && q.tcsIn.isEmpty && q.parked.isEmpty && q.waitCmds.isEmpty &&
    q.resend.isNone && (shaperOf s n).slot.isNone

/-- The idle context that has gone longest without use, the lower QP number first (R370). -/
def evictChoice (s : State) (die : Nat) : Option Nat :=
  ((s.fab.qps.filter fun e => e.1 % 2 = die && e.2.loc = 0 && !qpPinned e.2 && qpIdle s e.1 e.2).foldl
    (fun (m : Option (Nat × Nat)) e => match m with | some x => if e.2.lastUse < x.2 then some (e.1, e.2.lastUse) else m | none => some (e.1, e.2.lastUse))
    none).map (·.1)

/-- Start writing out a context, when one is idle and a window has room (R370, R371). -/
def evictStart (die : Nat) (s : State) : State :=
  match evictChoice s die, winFind s 1 256 with
  | some n, some w => winPut w.1 w.2 256 (.qpContext n) (modQp n (fun q => { q with loc := 3 }) s)
  | _, _ => s

/-- A context takes a slot: a fetch begins, or one that was never written out becomes resident. -/
def takeSlot (n : Nat) (s : State) : State :=
  let out := s.tier.winUse.any fun u => u.obj = .qpContext n
  modQp n (fun q => { q with needs := false, fetchAt := s.tick, loc := if out then 2 else 0 }) s

/-- A context that is out needs a slot of its die: it takes one, or waits while an idle context is written out. -/
def needSlot (n : Nat) (s : State) : State :=
  match qpOf s n with
  | none => s
  | some q =>
    if q.loc ≠ 1 || q.needs then s
    else if dieContexts s (n % 2) < 8192 then takeSlot n s
    else evictStart (n % 2) (modQp n (fun q => { q with needs := true, fetchAt := s.tick }) s)

/-- The eviction of a context is abandoned: the written object is freed; what needed the slot looks for another (R371). -/
def evictAbandon (n : Nat) (s : State) : State :=
  let s1 := bump QPC_EVICT_ABORT_CNT 1 (winFree (.qpContext n) (modQp n (fun q => { q with loc := 0 }) s))
  if s1.fab.qps.any fun e => e.1 % 2 = n % 2 && e.2.needs then evictStart (n % 2) s1 else s1

/-- Local work, or a packet, for a QP: an eviction is abandoned, and an evicted context is fetched (R371). -/
def wakeQp (n : Nat) (s : State) : State :=
  match qpOf s n with
  | none => s
  | some q => if q.loc = 3 then evictAbandon n s else needSlot n s

/-- The need of a die that has waited longest, the lower QP number first. -/
def oldestNeed (s : State) (die : Nat) : Option Nat :=
  ((s.fab.qps.filter fun e => e.1 % 2 = die && e.2.needs).foldl
    (fun (m : Option (Nat × Nat)) e => match m with | some x => if e.2.fetchAt < x.2 then some (e.1, e.2.fetchAt) else m | none => some (e.1, e.2.fetchAt))
    none).map (·.1)

/-- A slot of a die has become free: the oldest need takes it. -/
def slotFreed (die : Nat) (s : State) : State :=
  match oldestNeed s die with
  | some n => if dieContexts s die < 8192 then takeSlot n s else s
  | none => s

/-- Send one TC-L packet on a QP in INIT or RTS: the next PSN while fewer than 1,024 are unacknowledged, else it waits
(R361). An answer leaves in INIT too, as part of the receive side (R366, log 49). -/
def tclSend (n bytes : Nat) (what : TxWhat) (b : Budget) (s0 : State) : State :=
  let s := wakeQp n s0
  match qpOf s n with
  | none => s
  | some q =>
    if q.state ≠ 1 && q.state ≠ 2 then s
    else if q.unacked.length < 1024 && q.queued.isEmpty then
      queueFrame (tclPort s n) ⟨n, false, q.sendPsn, 0, bytes, false, s.tick, b, 0, 0⟩
        (modQp n (fun q =>
          { q with sendPsn := (q.sendPsn + 1) % 2 ^ 24, lastUse := s.tick
                   unacked := q.unacked ++ [⟨q.sendPsn, s.tick, bytes, what, b⟩] }) s)
    else modQp n (fun q => { q with queued := q.queued ++ [(bytes, what, b)] }) s

/-- Send the packets of a TC-L message. -/
def tclSendAll (n : Nat) (what : TxWhat) (g : Budget) : List Nat → State → State
  | [], s => s
  | b :: t, s => tclSendAll n what g t (tclSend n b what g s)

/-- Send a TC-S message: one entry with every packet uncovered, each on its own path (R357, R359). -/
def tcsSend (n : Nat) (what : TxWhat) (b : Budget) (frames : List Nat) (s0 : State) : State :=
  let s := wakeQp n s0
  match qpOf s n with
  | none => s
  | some q =>
    let at' := (List.range frames.length).zip frames
    let s1 := modQp n (fun q =>
      { q with tcsSend := (q.tcsSend + 1) % 2 ^ 32, lastUse := s.tick
               tcsOut := q.tcsOut ++ [⟨q.tcsSend, at'.map fun x => ⟨x.1, s.tick, 0, x.2⟩, what, b, frames.length⟩] }) s
    at'.foldl (fun t x =>
      queueFrame (pathPort t q.peerDev (sprayPath t q x.1 0))
        ⟨n, true, q.tcsSend, x.1, x.2, false, s.tick, b, sprayPath t q x.1 0, pktCountOf x.1 frames.length⟩ t) s1

/-- Opcodes whose messages travel on TC-S (R354); REQ.HANDOFF only as a transfer, which carries a payload. -/
def onTcs (opcode : Nat) (payload : Bytes) : Bool :=
  [0x30, 0x4F, 0x69, 0x10, 0x14, 0x18].contains opcode || (opcode = 0x22 && !payload.isEmpty)

/-- Version fields of a packet sent on a QP: NOP, SYS.HELLO and SYS.CAPS always as 2.3, others as negotiated (R330, R331). -/
def sendVersion (q : Qp) (opcode : Nat) : Nat × Nat :=
  if opcode ≤ 2 then (2, 3) else (q.evoest / 256, q.evoest % 256)

/-- Fields of a message that the device starts. -/
structure MsgOut where
  opcode : Nat
  tag : Nat
  mid : Nat := 0xFFFFFFFF
  p0 : Nat := 0
  p1 : Nat := 0
  p2 : Nat := 0
  p3 : Nat := 0
  slack : Budget := {}
  flags : Nat := 1
  payload : Bytes := []
deriving DecidableEq, Repr

/-- Add to a composition's count of bytes sent (R414). -/
def meterOut (comp n : Nat) (s : State) : State :=
  modSched (fun c =>
    { c with meters := tabSet c.meters comp { tabGetD c.meters comp {} with bytesOut := min ((tabGetD c.meters comp {}).bytesOut + n) cntMax } {} }) s

/-- Post a message as packet entries of a completion ring (R336). -/
def cqPackets (cq : Nat) (pk : TxPkt) (s : State) : State := (cutPackets pk).foldl (fun t x => cqPost cq (packetSlots x) t) s

/-- Send a whole message on a QP in RTS with its SEQ and the current epoch: TYPE 0 on its class, TYPE 1 as a packet entry of
its completion ring (R310, R323, R336, R354). -/
def sendMsgOn (n : Nat) (m : MsgOut) (what : TxWhat) (s : State) : State :=
  match qpOf s n with
  | none => s
  | some q =>
    if q.state ≠ 2 then s else
    let v := sendVersion q m.opcode
    let pk : TxPkt := { format := v.1, minor := v.2, opcode := m.opcode, flags := m.flags, tag := m.tag, mid := m.mid,
                        epoch := s.sched.epoch, pd := q.pd, offset := 0, p0 := m.p0, p1 := m.p1, p2 := m.p2, p3 := m.p3,
                        slack := budgetLeft m.slack s.tick, seq := q.seq, payload := m.payload }
    let s1 := modQp n (fun q => { q with seq := (q.seq + 1) % 2 ^ 32 }) s
    let s1 := meterOut q.comp (evoBytes m.payload.length) s1
    if q.type = 1 then cqPackets q.peerQp { pk with format := 3, minor := 2 } s1
    else
      let frames := packetFrames m.payload.length
      let s2 := emit (.packet (.fabric n q.peerDev 0) pk) s1
      if onTcs m.opcode m.payload then tcsSend n what m.slack frames s2 else tclSendAll n what m.slack frames s2

/-- Add to a composition's count of bytes received (R414). -/
def meterIn (comp n : Nat) (s : State) : State :=
  modSched (fun c =>
    { c with meters := tabSet c.meters comp { tabGetD c.meters comp {} with bytesIn := min ((tabGetD c.meters comp {}).bytesIn + n) cntMax } {} }) s

/-- A time `d` from a sending has passed; what has not been sent is not late. -/
def sentBefore (sent : Option Nat) (d now : Nat) : Bool := match sent with | some t => decide (t + d ≤ now) | none => false

/-- A fresh TAG for a command that the device starts (R310, log 17). -/
def takeTag (s : State) : Nat × State := (s.fab.nextTag, modFab (fun b => { b with nextTag := (b.nextTag + 1) % 2 ^ 32 }) s)

/-- What the choice of a QP for a message of the device's own gives (R528). -/
inductive Chosen where
  | qp (n : Nat)
  | wait
  | failed (status : Nat)
deriving DecidableEq, Repr

/-- Choose the QP for a message to a device on behalf of a composition (R528). -/
def chooseQp (s : State) (dest comp : Nat) : Chosen :=
  let l := s.fab.qps.filter fun e => e.2.type = 0 && e.2.state = 2 && e.2.peerDev = dest && e.2.comp = comp
  match l.find? fun e => e.2.evoest ≠ 0 with
  | some e => .qp e.1
  | none =>
    if l.any fun e => e.2.helloTag.isSome then .wait
    else if l.any fun e => e.2.noCommon then .failed stVersion else .failed stQpError

/-! ## Replies (R315 to R318) -/

/-- The QP's frame of a reply or other short body: 40 bytes beyond it. -/
def replyFrame : Nat := 72

/-- Put bytes into consecutive 32-bit registers from `off` on. -/
def putWords (off : Nat) (b : Bytes) (s : State) : State :=
  (List.range (divUp b.length 4)).foldl (fun t i => regPut (off + 4 * i) (leAt b (4 * i) 4) t) s

/-- A reply through the MGT mailbox: the response area and STATUS take it, and a final one clears BUSY (R504, R507). -/
def mboxReply (r : ReplyOut) (s : State) : State :=
  let busy := if r.final then 0 else regField s MGT_MBOX_STATUS 0 0
  regPut MGT_MBOX_STATUS (r.status % 2 ^ 16 * 2 ^ 16 + busy) (putWords (MGT_MBOX_RSP 0) (replyBytes r) s)

/-- Send a reply on the path on which its command arrived. -/
def sendReply (path : Path) (r : ReplyOut) (s : State) : State :=
  match path with
  | .ring n => cqPost (sqCq s n) (replyEntry n (sqRing s n).head r) s
  | .fabric qp _ _ => tclSend qp replyFrame .plain {} (emit (.reply path r) s)
  | .mbox => mboxReply r (emit (.reply path r) s)
  | _ => emit (.reply path r) s

/-- Answer a command: NO_REPLY leaves out ST_OK and ST_PENDING, a final failure is counted, and ST_INTERNAL is
recorded (R316, CMD_REJECT_CNT, R422). -/
def answer (opcode : Nat) (p : Pkt) (mid status detail result : Nat) (final : Bool) (s : State) : State :=
  if p.noReply && (status = stOk || status = stPending) then s
  else
    let r : ReplyOut := ⟨p.format, p.minor, opcode, final, p.tag, mid, status, detail, result, p.seq⟩
    let s1 := if final && status ≠ stOk then bump CMD_REJECT_CNT 1 s else s
    let s2 := if status = stInternal then record { cause := 0x43, cls := 1, c0 := opcode, c1 := p.tag } s1 else s1
    sendReply p.path r s2

/-- Final ST_OK with a RESULT. -/
def ok (opcode : Nat) (p : Pkt) (result : Nat) (s : State) : State := answer opcode p p.mid stOk 0 result true s

/-- ST_PENDING. -/
def pend (opcode : Nat) (p : Pkt) (s : State) : State := answer opcode p p.mid stPending 0 0 false s

/-- Final failing status with a DETAIL. -/
def failAt (opcode : Nat) (p : Pkt) (status detail : Nat) (s : State) : State := answer opcode p p.mid status detail 0 true s

/-- Final failing status of a check that stands in no numbered table: its DETAIL is a free value (log 32). -/
def fail (opcode : Nat) (p : Pkt) (status : Nat) (s : State) : State :=
  let x := takeFree 16 s
  failAt opcode p status x.1 x.2

/-- A response message with the command's OPCODE, TAG and SEQ, sent whole, and the final reply after it (R318). -/
def respond (opcode : Nat) (p : Pkt) (b : Bytes) (result : Nat) (s0 : State) : State :=
  let s :=
    match p.path with
    | .ring n => meterOut (sqComp s0 n) (evoBytes b.length) s0
    | .fabric qp _ _ => (match qpOf s0 qp with | some q => meterOut q.comp (evoBytes b.length) s0 | none => s0)
    | _ => s0
  let s1 :=
    match p.path with
    | .ring n =>
      cqPackets (sqCq s n) {
        format := p.format, minor := p.minor, opcode := opcode, flags := 7, tag := p.tag, mid := p.mid,
        epoch := s.sched.epoch, pd := p.pd, offset := 0, p0 := 0, p1 := 0, p2 := 0, p3 := 0, slack := 0xFFFFFFFF,
        seq := p.seq, payload := b } s
    | .fabric qp _ _ => tclSendAll qp .plain {} (packetFrames b.length) (emit (.response p.path opcode p.tag p.seq b) s)
    | .mbox => putWords (MGT_MBOX_RSP 8) b (emit (.response p.path opcode p.tag p.seq b) s)
    | _ => emit (.response p.path opcode p.tag p.seq b) s
  ok opcode p result s1

/-! ## Reception (R312 to R314) -/

/-- A row of R324: who serves it, its longest message, and whether it is epoch-checked and per-packet. -/
structure OpRow where
  code : Nat
  /-- Served by PL-PROMPT, PL-GEN, PL-CACHE. -/
  p : Bool
  g : Bool
  c : Bool
  max : Nat
  perPacket : Bool := false
deriving DecidableEq, Repr

/-- Management-class opcodes (R321). -/
def mgmtClass (o : Nat) : Bool :=
  o ≤ 5 || (8 ≤ o && o ≤ 0xD) || (0x10 ≤ o && o ≤ 0x12) || o = 0x14 || o = 0x15 || (0x18 ≤ o && o ≤ 0x1A) || o = 0x25 ||
    o = 0x27 || (0x48 ≤ o && o ≤ 0x4B) || (0x58 ≤ o && o ≤ 0x5B) || o = 0x60 || o = 0x61 || o = 0x68

/-- Epoch-checked opcodes (R323). -/
def epochChecked (o : Nat) : Bool :=
  (0x20 ≤ o && o ≤ 0x28) || (0x30 ≤ o && o ≤ 0x36) || o = 0x38 || o = 0x39 || o = 0x4E || o = 0x4F || (0x50 ≤ o && o ≤ 0x53)

/-- Opcodes that the fabric does not carry (R322). -/
def notFabric (o : Nat) : Bool := o = 5 || o = 9 || o = 0xA || o = 0xB || o = 0xC

/-- Opcodes that are never answered (R316). -/
def neverAnswered (o : Nat) : Bool := o = 0x39 || o = 0x40 || o = 0x68

/-- An opcode that a version does not define (R329). -/
def opLacking (major minor o : Nat) : Bool :=
  if major = 2 then o = 0x28 || o = 0x53 || o = 0x69 || o = 0x6A
  else if minor = 0 then o = 0x28 || o = 0x69 || o = 0x6A
  else if minor = 1 then o = 0x28
  else false

/-- The composition of a QP. -/
def compOfQp (s : State) (qp : Nat) : Nat := match qpOf s qp with | some q => q.comp | none => 0

/-- The composition of the QP or ring of arrival; a management path has none and stands under composition 0. -/
def arrivalComp (s : State) (path : Path) : Nat :=
  match path with
  | .ring n => sqComp s n
  | .fabric qp _ _ => compOfQp s qp
  | _ => 0

def berthAt (s : State) (b : Nat) : Option Berth := tabGet s.man.berths b

/-- Incarnation of a berth, and the MANIFEST_ID of the manifest in it. -/
def incarnOf (s : State) (b : Nat) : Nat := tabGetD s.man.incarn b 0
def midOf (s : State) (b : Nat) : Nat := 2 ^ 14 * incarnOf s b + b

/-- The berth whose manifest a MANIFEST_ID names: it is not FREE and the incarnation is the present one (R205). -/
def berthNamed (s : State) (mid : Nat) : Option Nat :=
  if (berthAt s (mid % 2 ^ 14)).isSome && midOf s (mid % 2 ^ 14) = mid then some (mid % 2 ^ 14) else none

/-- The composition against which an epoch-checked packet is checked: on a management path that of the OWNER_QP of the
manifest it names (R502), and none where it names no manifest of this device, which its opcode answers (log 128). -/
def checkComp (s : State) (p : Pkt) : Option Nat :=
  match p.path with
  | .ring n => some (sqComp s n)
  | .fabric qp _ _ => some (compOfQp s qp)
  | _ => ((berthNamed s p.mid).bind (berthAt s)).map fun x => compOfQp s x.id.ownerQp

/-- Whether PD is that of the QP or ring of arrival, and 0 on a management path (step 6, R502). -/
def pdOk (s : State) (p : Pkt) : Bool :=
  match p.path with
  | .ring n => p.pd = sqPd s n
  | .fabric qp _ _ => match qpOf s qp with | some q => p.pd = q.pd | none => false
  | _ => p.pd = 0

/-- Whether the path accepts the version (R329, R330); NOP, SYS.HELLO and SYS.CAPS pass with FORMAT 2 or 3 on every QP
(log 33). -/
def versionOk (s : State) (o : Nat) (p : Pkt) : Bool :=
  match p.path with
  | .fabric qp _ _ =>
    (o ≤ 2 && (p.format = 2 || p.format = 3)) ||
      (match qpOf s qp with
       | some q => q.evoest ≠ 0 && p.format = q.evoest / 256 && p.minor ≤ q.evoest % 256
       | none => false)
  | _ => p.format = 3 && p.minor ≤ 2

/-- A reserved header bit, an over-long payload or message, or the reserved TAG on a host ring (step 3). -/
def headerBad (r : OpRow) (p : Pkt) : Bool :=
  p.flagsRsvd ≠ 0 || p.rsvd ≠ 0 || decide (4095 < p.pd) || (r.perPacket && decide (8192 < p.payload.length)) ||
    decide (r.max < p.offset + p.payload.length) ||
    (match p.path with | .ring _ => p.tag = 0xFFFFFFFF | _ => false)

/-- Whether the path permits the opcode (R322). -/
def pathOk (o : Nat) (path : Path) : Bool :=
  match path with
  | .ring _ => true
  | .fabric _ _ _ => !notFabric o
  | _ => mgmtClass o

/-- Whether the running personality serves the opcode (step 8). The whole management class also works while no personality
runs (R10, R321). -/
def servedBy (s : State) (r : OpRow) : Bool :=
  (s.dev.personality = 1 && r.p) || (s.dev.personality = 2 && r.g) || (s.dev.personality = 3 && r.c) ||
    (s.dev.personality = 0 && mgmtClass r.code)

/-- Whether a composition is present in the map of an epoch that is current, or the previous one within the drain
window, and not fenced (R17, R404). -/
def epochOk (s : State) (comp epoch : Nat) : Bool :=
  !s.sched.fenced.contains comp &&
    ((epoch = s.sched.epoch && (tabGet s.sched.map comp).isSome) ||
      ((match s.sched.drainEnd with | some t => decide (s.tick < t) | none => false) && epoch = s.sched.prev && (tabGet s.sched.prevMap comp).isSome))

/-- Whether the epoch check of R323 rejects a packet. -/
def epochBad (s : State) (p : Pkt) : Bool := match checkComp s p with | some c => !epochOk s c p.epoch | none => false

/-- The licence grants the replay-verification capability (grant bit 4; R12, R472). -/
def replayGranted (s : State) : Bool := bit s.dev.grants 4

/-- A packet needs a capability that no licence grants (R12): replay verification, or the LPDDR5X tier for a stake copy or a library
copy (R169). -/
def capabilityOff (s : State) (o : Nat) (p : Pkt) : Bool :=
  ((o = 0x69 || o = 0x6A) && !replayGranted s) ||
    (!bit s.dev.grants 3 && ((o = 0x14 && (bit p.p1 0 || bit p.p1 1)) || (o = 0x18 && (p.p0 = 1 || p.p0 = 2))))

/-- Serving waits for what the run-time has to reload after the fence of a die stack (R65). -/
def recovering (s : State) : Bool := !s.core.waitStakes.isEmpty || !s.core.waitWithies.isEmpty || s.core.waitTable

/-- The first of steps 2 to 9 of R312 that fails: status and DETAIL. After the fence of a die stack the serving opcodes are
answered ST_BUSY where restricted mode would answer ST_RESTRICTED (R65, log 71). -/
def firstFail (s : State) (r : OpRow) (p : Pkt) : Option (Nat × Nat) :=
  if !versionOk s r.code p then some (stVersion, 2)
  else if headerBad r p then some (stFormat, 3)
  else if opLacking p.format p.minor r.code then some (stOpcode, 4)
  else if !p.crcOk then some (stCrc, 5)
  else if !pdOk s p || !pathOk r.code p.path then some (stPd, 6)
  else if (restricted s || !s.dev.ready) && !mgmtClass r.code then some (stRestricted, 7)
  else if recovering s && !mgmtClass r.code then some (stBusy, 7)
  else if !servedBy s r || capabilityOff s r.code p then some (stLicence, 8)
  else if epochChecked r.code && epochBad s p then some (stEpochStale, 9)
  else none

/-- Steps 2 to 6, for the opcodes whose own table takes the place of steps 7 to 9 (R312). -/
def firstFail6 (s : State) (r : OpRow) (p : Pkt) : Option (Nat × Nat) :=
  match firstFail s r p with
  | some (st, d) => if d ≤ 6 then some (st, d) else none
  | none => none

/-- Packets a message took, for CMD_RX_CNT. -/
def packetsOf (p : Pkt) : Nat := max 1 (divUp p.payload.length 8192)

/-- The path on which a message's packets come: the port of a frame does not tell messages apart. -/
def msgPath : Path → Path
  | .fabric qp src _ => .fabric qp src 0
  | x => x

/-- The key of a packet's message. -/
def msgKey (o : Nat) (p : Pkt) : MsgKey := ⟨msgPath p.path, o, p.tag, p.seq⟩

/-- The message with this key in a list, or a fresh one. -/
def msgFind (l : List MsgIn) (k : MsgKey) : MsgIn := (l.find? fun m => m.key = k).getD ⟨k, [], none⟩
def msgDel (l : List MsgIn) (k : MsgKey) : List MsgIn := l.filter fun m => m.key ≠ k

/-- A message with one more packet, and whether every byte of it has come (R310). -/
def msgPlace (p : Pkt) (m : MsgIn) : MsgIn :=
  { m with got := (p.offset, p.payload.length) :: m.got, len := if p.last then some (p.offset + p.payload.length) else m.len }
def msgWhole (m : MsgIn) : Bool := match m.len with | some n => rangesCover m.got n | none => false

/-- Whether a packet came on TC-S, on which discarding ends with the message's tracking entry and not at LAST (R314, R354). -/
def onTcsPath (o : Nat) (p : Pkt) : Bool := match p.path with | .fabric _ _ _ => onTcs o p.payload | _ => false

/-- Whether the discarding of a message ends with this packet (R314). -/
def discardEnds (o : Nat) (p : Pkt) (m : MsgIn) : Bool := if onTcsPath o p then msgWhole m else p.last

/-- The device can act on packets: its command processors have started, and no FATAL event has occurred (R421, R459). -/
def alive (s : State) : Bool := !s.dev.held && !s.dev.inRom && !s.dev.fatal && s.dev.phase ≠ 0

/-- Registers can be read: power-up has begun; after FATAL reads still complete (R494). -/
def readable (s : State) : Bool := !s.dev.held && !s.dev.inRom && s.dev.phase ≠ 0

/-- A failed message of a per-packet opcode is discarded packet by packet to its end; the later packets of any other, whose row
is the whole message, are discarded with it (R314, log 3). -/
def startDiscard (r : OpRow) (p : Pkt) (s : State) : State :=
  let k := msgKey r.code p
  let m := msgPlace p (msgFind s.msgs k)
  let s1 := { s with msgs := msgDel s.msgs k }
  if !r.perPacket then (if packetsOf p = 1 then s1 else bump CMD_DISCARD_CNT (packetsOf p - 1) s1)
  else if discardEnds r.code p m then s1
  else { s1 with discards := m :: s1.discards }

/-- The packet belongs to a message that is being discarded. -/
def discarding (s : State) (o : Nat) (p : Pkt) : Bool := s.discards.any fun m => m.key = msgKey o p

/-- A packet of a message being discarded: counted, and the discarding ends with the message (R314). -/
def discardOne (o : Nat) (p : Pkt) (s : State) : State :=
  let k := msgKey o p
  let m := msgPlace p (msgFind s.discards k)
  let l := msgDel s.discards k
  bump CMD_DISCARD_CNT 1 { s with discards := if discardEnds o p m then l else m :: l }

/-- A failing command: counted and discarded where it is never answered, otherwise answered once (R314, R316). -/
def reject (r : OpRow) (p : Pkt) (status detail : Nat) (s : State) : State :=
  let s1 := if status = stCrc && detail = 5 then bump CMD_PCRC_ERR_CNT 1 s else s
  startDiscard r p (if neverAnswered r.code then bump CMD_DISCARD_CNT 1 s1 else failAt r.code p status detail s1)

/-- Another message in progress on the path has this TAG under another OPCODE or SEQ (R310). -/
def tagClash (s : State) (o : Nat) (p : Pkt) : Bool :=
  s.msgs.any fun m => m.key.path = msgPath p.path && m.key.tag = p.tag && !(m.key.opcode = o && m.key.seq = p.seq)

/-- Microseconds of the one-way delay of the link of arrival; an unmeasured delay charges nothing (R35, log 54). -/
def linkUs (s : State) (path : Path) : Nat :=
  match path with
  | .fabric _ _ port => if (portOf s port).delay = 0xFFFFFFFF then 0 else divUp (portOf s port).delay 100
  | _ => 0

/-- The request that a packet names keeps the delay of the link on which it came, for the packets that continue it (R35). -/
def noteLink (p : Pkt) (s : State) : State :=
  match berthNamed s p.mid with
  | some b => modMan (fun m => { m with berths := tabMod m.berths b fun x => { x with linkUs := linkUs s p.path } }) s
  | none => s

/-- Note a per-packet message in progress, or its end, and the link of a request's packet. -/
def noteMsg (r : OpRow) (p : Pkt) (s : State) : State :=
  if r.perPacket then
    (let k := msgKey r.code p
     let m := msgPlace p (msgFind s.msgs k)
     { s with msgs := if msgWhole m then msgDel s.msgs k else m :: msgDel s.msgs k })
  else noteLink p s

/-- The assembly timer closes a TC-S message: nothing of it is in progress or being discarded any more (R314, R360). -/
def msgClose (qp src opcode tag : Nat) (s : State) : State :=
  let keep := fun (m : MsgIn) => !(m.key.path = .fabric qp src 0 && m.key.opcode = opcode && m.key.tag = tag)
  { s with msgs := s.msgs.filter keep, discards := s.discards.filter keep }

/-- Bytes received on a composition's QPs and rings (R414). -/
def meterRx (p : Pkt) (s : State) : State :=
  match p.path with
  | .ring _ => meterIn (arrivalComp s p.path) (evoBytes p.payload.length) s
  | .fabric _ _ _ => meterIn (arrivalComp s p.path) (evoBytes p.payload.length) s
  | _ => s

/-- A message comes on TC-S: its discarding ends with the transport's tracking entry alone (R314, R354). -/
def keyOnTcs (k : MsgKey) : Bool := match k.path with | .fabric _ _ _ => onTcs k.opcode [] | _ => false

/-- Off TC-S the discarding of a message ends at a packet with the same TAG and another SEQ, which begins a new message (R314). -/
def endDiscards (p : Pkt) (s : State) : State :=
  { s with discards := s.discards.filter fun m =>
      keyOnTcs m.key || !(m.key.path = msgPath p.path && m.key.tag = p.tag && m.key.seq ≠ p.seq) }

/-- What a control-plane restart does not stop: memory-semantic service of packets from the fabric, and ATT.RESULT (R450). -/
def passesRestart (o : Nat) (p : Pkt) : Bool :=
  o = 0x39 || (0x50 ≤ o && o ≤ 0x52 && match p.path with | .fabric _ _ _ => true | _ => false)

/-- A packet whose TAG is that of a message in progress under another OPCODE or SEQ is rejected: no numbered step has this
check, and its DETAIL is free (R310, log 32). -/
def clash (r : OpRow) (p : Pkt) (s : State) : State :=
  let x := takeFree 16 s
  reject r p stFormat x.1 x.2

/-- Receive a command message: the checks `chk`, then the opcode's own effect `act` (R312 to R316). A packet with RESP set
answers no command of this device's here, and is discarded (R316). While the control plane restarts, a message on a ring waits
in host memory, one on the fabric has been turned away by the transport, and one on a management path is discarded (R450). -/
def receiveWith (chk : State → OpRow → Pkt → Option (Nat × Nat)) (r : OpRow) (p : Pkt) (act : State → State) (s0 : State) : State :=
  let s := atTick p.now s0
  if !alive s then s
  else if s.err.restarting && !passesRestart r.code p then s
  else
    let s1 := endDiscards p (meterRx p (bump CMD_RX_CNT (packetsOf p) s))
    if discarding s1 r.code p then discardOne r.code p s1
    else if p.resp then bump CMD_DISCARD_CNT 1 s1
    else
      match chk s1 r p with
      | some (st, d) => reject r p st d s1
      | none => if tagClash s1 r.code p then clash r p s1 else act (noteMsg r p s1)

/-- Receive a command under all the steps of R312. -/
def receive (r : OpRow) (p : Pkt) (act : State → State) (s : State) : State := receiveWith firstFail r p act s

/-- Parameters that R324 does not list for an opcode must be 0. -/
def paramsZero (p : Pkt) (use0 use1 use2 use3 : Bool) : Bool :=
  (use0 || p.p0 = 0) && (use1 || p.p1 = 0) && (use2 || p.p2 = 0) && (use3 || p.p3 = 0)

/-- Act when a layout condition holds, else answer ST_FORMAT. -/
def orFormat (c : Bool) (o : Nat) (p : Pkt) (act : State → State) (s : State) : State := if c then act s else fail o p stFormat s

/-! ## Frames without a body (R352) -/

/-- The fields of a fabric header that its frame gives; a field it does not use is 0 (R352). -/
structure FabHead where
  kind : Nat
  path : Nat := 0
  tc : Bool := false
  retx : Bool := false
  psn : Nat := 0
  nak : Nat := 0
  msgId : Nat := 0
  idx : Nat := 0
  count : Nat := 0
deriving DecidableEq, Repr

/-- NAK_CODE (R352). -/
def nakNumber : NakCode → Nat
  | .seq => 1
  | .noContext => 2
  | .noQp => 3
  | .qpError => 4
  | .unreachable => 5

/-- The 32 bytes of a fabric header, from QP `n` to its peer device and QP (R352). -/
def fabricHeader (dev n : Nat) (peer : Nat × Nat) (h : FabHead) : Bytes :=
  let b := toLe 2 (peer.1 + 2 ^ 12 * h.kind) ++ toLe 2 (dev + 2 ^ 12 * h.path) ++
    toLe 4 (peer.2 + 2 ^ 20 * b2n h.tc + 2 ^ 21 * b2n h.retx) ++ toLe 4 n ++ toLe 4 (h.psn + 2 ^ 24 * h.nak) ++ toLe 4 h.msgId ++
    toLe 2 h.idx ++ toLe 2 h.count ++ zeros 4
  b ++ toLe 4 (crc32c b)

/-- A frame's bytes closed by their LCRC (R349). -/
def withLcrc (b : Bytes) : Bytes := b ++ toLe 4 (crc32c b)

/-- The bytes of a frame: whole where it has no body, and up to the body of a DATA frame (R349, R352). -/
def linkBytes (dev : Nat) (peer : Nat × Nat) : FrameOut → Bytes
  | .keepalive plane tx echo hold => withLcrc (toLe 4 3 ++ toLe 4 plane ++ toLe 8 tx ++ toLe 8 echo ++ toLe 4 hold)
  | .ack n psn => withLcrc (zeros 4 ++ fabricHeader dev n peer { kind := 1, psn := psn })
  | .nak n psn c => withLcrc (zeros 4 ++ fabricHeader dev n peer { kind := 2, psn := psn, nak := nakNumber c })
  | .sack n id base complete noBuffer l =>
    let map := toLe 32 (bitmap 256 fun i => l.contains (base + i))
    withLcrc (zeros 4 ++ fabricHeader dev n peer
      { kind := 3, tc := true, msgId := id, idx := base, count := b2n complete + 2 * b2n noBuffer } ++ map ++ toLe 4 (crc32c map))
  | .tcl n psn retx _ => zeros 4 ++ fabricHeader dev n peer { kind := 0, retx := retx, psn := psn }
  | .tcs n id idx path count retx _ =>
    zeros 4 ++ fabricHeader dev n peer { kind := 0, path := path, tc := true, retx := retx, msgId := id, idx := idx, count := count }

/-- The device and QP at the other end of a QP. -/
def peerOf (s : State) (n : Nat) : Nat × Nat := match qpOf s n with | some q => (q.peerDev, q.peerQp) | none => (0, 0)

/-- A frame leaves: it counts on its port (R373). -/
def frameOut (p : Option Nat) (peer : Nat × Nat) (f : FrameOut) (s : State) : State :=
  let s1 := emit (.frame p f (linkBytes s.dev.deviceId peer f)) s
  match p with
  | some k => bump (FAB_PORT_TX_FRAMES k) 1 s1
  | none => s1

/-- Send a frame without a body: it leaves by the port of the QP's TC-L packets (log 131). -/
def sendControl (n : Nat) (f : FrameOut) (s : State) : State := frameOut (tclPort s n) (peerOf s n) f s

/-- Send a NAK (R352). -/
def sendNak (n psn : Nat) (code : NakCode) (s : State) : State := bump FAB_TCL_NAK_TX 1 (sendControl n (.nak n psn code) s)

end Sys2Proof.Machine
end

