-- ==== Sys2Proof/Machine/Regs.lean ====
section
/-! DEFINITION. Writing BAR0 registers by their access codes (R22, R23), which function reaches which register (R489,
R497), and the reset domains (R24). -/

namespace Sys2Proof.Machine

/-! ## Fields -/

/-- What a write of `x` leaves in a field that holds `old` (R22); a reserved value of an RW field leaves it (R23). -/
def fieldAfter (f : FieldDef) (old x : Nat) : Nat :=
  match f.acc with
  | .rw => if f.min ≤ x && x ≤ f.max then x else old
  | .rw1c => old - Nat.land old x
  | .rw1s => Nat.lor old x
  | .ro => old
  | .wo => old
  | .rc => old

/-- Whether `x` is a reserved value of a field that a write sets. -/
def fieldRsvd (f : FieldDef) (x : Nat) : Bool := f.acc = .rw && !(f.min ≤ x && x ≤ f.max)

/-- The stored word after a write of `v` to the fields `l`. -/
def fieldsAfter (l : List FieldDef) (old v : Nat) : Nat :=
  l.foldl (fun w f => setBits w f.hi f.lo (fieldAfter f (bits old f.hi f.lo) (bits v f.hi f.lo))) old

/-- Whether a write of `v` gives any of the fields a reserved value. -/
def fieldsRsvd (l : List FieldDef) (v : Nat) : Bool := l.any fun f => fieldRsvd f (bits v f.hi f.lo)

/-- The fields of the register at `off`. -/
def fieldsOf (off : Nat) : List FieldDef := match regRow? off with | some d => d.fields | none => []

/-- A reserved value was written to the register at `off` (R423). -/
def reservedWritten (off v : Nat) (s : State) : State :=
  record { cause := 0x28, cls := 0, c0 := off, c1 := v } (regPut ERR_REG_LAST (off % 2 ^ 24) (modErr (fun e => { e with rsvdWr := true }) s))

/-- Write `v` to the register at `off` by its fields' access codes (R22, R23). -/
def regSet (off v : Nat) (s : State) : State :=
  let l := fieldsOf off
  let s1 := regPut off (fieldsAfter l (regGet s off) v) s
  if fieldsRsvd l v then reservedWritten off v s1 else s1

/-! ## Who reaches what -/

/-- Host software's writes are heard: power-up has begun and no FATAL event has occurred (R494). -/
def hostHeard (s : State) : Bool := alive s

/-- The ring whose window holds a PF0 offset (R341). -/
def windowRing (off : Nat) : Option Nat :=
  if 0x110000 ≤ off && off < 0x130000 then some (off % 0x10000 / 0x40) else none

/-- Function `fn` may change what lies at PF0 offset `off` (R489). -/
def mayWrite (s : State) (fn off : Nat) : Bool :=
  match windowRing off with
  | some n => ringOwner s n = fn
  | none => true

/-- The PF0 offset that an offset of a function's BAR0 reaches (R495, R497); MSI-X tables are rows of their own. -/
def pfOffset (fn off : Nat) : Option Nat :=
  if fn = 0 then some off
  else if off < 4 then some off
  else if 0x10000 ≤ off && off < 0x10800 then some (0x110000 + 0x800 * fn + (off - 0x10000))
  else if 0x18000 ≤ off && off < 0x18080 then some (0x810000 + 0x80 * fn + (off - 0x18000))
  else if 0x20000 ≤ off && off < 0x20800 then some (0x120000 + 0x800 * fn + (off - 0x20000))
  else none

/-! ## Reset domains (R24) -/

/-- Return every register of the domains that `p` selects to its reset value. -/
def resetRegs (p : Dom → Nat → Bool) (s : State) : State :=
  { s with regs := s.regs.filter fun e => match regRow? e.1 with | some d => !p d.dom e.1 | none => false }

end Sys2Proof.Machine
end

