-- ==== Sys2Proof/Machine/Requests.lean ====
section
/-! DEFINITION. Operations on requests: berths and what they are charged to, the manifest image, slack, the completion
stream, pins, page frames (R34 to R38, R203 to R209, R225 to R228, R286, R303 to R305, R398 to R401). -/

namespace Sys2Proof.Machine

/-! ## Berths (R203 to R205) -/

def modBerth (b : Nat) (f : Berth → Berth) (s : State) : State := modMan (fun m => { m with berths := tabMod m.berths b f }) s
def modProg (b : Nat) (f : ManProg → ManProg) (s : State) : State := modBerth b (fun x => { x with prog := f x.prog }) s
def modCnt (b : Nat) (f : ManCnt → ManCnt) (s : State) : State := modBerth b (fun x => { x with cnt := f x.cnt }) s

/-- The incarnation advances as the berth is taken; after 0x3_FFFE it wraps to 0 (R204). -/
def incarnNext (b : Nat) (s : State) : State :=
  modMan (fun m => { m with incarn := tabSet m.incarn b (if tabGetD m.incarn b 0 = 0x3FFFE then 0 else tabGetD m.incarn b 0 + 1) 0 }) s

/-- The berth of a request held here. -/
def berthOfRequest (s : State) (rid : Nat) : Option Nat := (s.man.berths.find? fun e => e.2.id.requestId = rid).map (·.1)

/-! ## What is charged to a composition (R398, R401) -/

/-- The composition of a manifest: that of its OWNER_QP. -/
def compOf (s : State) (x : Berth) : Nat := compOfQp s x.id.ownerQp

def compRec (s : State) (c : Nat) : CompRec := tabGetD s.sched.comps c {}

/-- Berths, reserved ones included, HBM3E page frames and resident slots that a composition holds. -/
def berthsHeld (s : State) (c : Nat) : Nat :=
  (s.man.berths.filter fun e => compOf s e.2 = c).length + (s.man.xfers.filter fun e => e.2.comp = c && e.2.restore.isNone).length
def framesHeld (s : State) (c : Nat) : Nat := (s.man.frames.filter fun e => !e.2.lpx && e.2.comp = c).length
def slotsHeld (s : State) (c : Nat) : Nat := (s.tier.wslots.filter fun e => e.2.comp = c).length

/-- Units set aside for other compositions and not held by them (R401). -/
def setAside (s : State) (rsv : CompRec → Nat) (held : Nat → Nat) (c : Nat) : Nat :=
  ((s.sched.comps.filter fun e => e.1 ≠ c).map fun e => rsv e.2 - held e.1).sum

/-- Whether composition `c` may take `n` units, one after another (R401). -/
def mayTake (s : State) (rsv lim : CompRec → Nat) (held : Nat → Nat) (free c n : Nat) : Bool :=
  let r := compRec s c
  n = 0 || held c + n ≤ rsv r ||
    ((lim r = 0 || held c + n ≤ lim r) && decide (setAside s rsv held c + n ≤ free))

/-- Page frames of a tier that nothing holds; withdrawn ones are gone. -/
def pagesLeft (s : State) (lpx : Bool) : Nat :=
  let lost := ((s.tier.withdrawn.filter fun a => decide (lpxBase 0 ≤ a) = lpx).filterMap (frameNo s)).eraseDups.filter fun f =>
    (tabGet s.man.frames f).isNone
  ((frameRanges s lpx).map (·.2)).sum - (s.man.frames.filter fun e => e.2.lpx = lpx).length - lost.length

/-- Free berths, HBM3E page frames and resident slots. -/
def berthsFree (s : State) : Nat := 16384 - s.man.berths.length - (s.man.xfers.filter fun e => e.2.restore.isNone).length
def framesInService (s : State) : Nat := ((frameRanges s false).map (·.2)).sum
def framesFree (s : State) : Nat :=
  pagesLeft s false - (s.man.xfers.map fun e => e.2.frames).sum
def slotsFree (s : State) : Nat := 1024 - s.tier.wslots.length

def berthAllowed (s : State) (c : Nat) : Bool := mayTake s CompRec.berthRsv CompRec.berthLim (berthsHeld s) (berthsFree s) c 1
def framesAllowed (s : State) (c n : Nat) : Bool := mayTake s CompRec.frameRsv CompRec.frameLim (framesHeld s) (framesFree s) c n
def slotAllowed (s : State) (c : Nat) : Bool := mayTake s CompRec.withyRsv CompRec.withyLim (slotsHeld s) (slotsFree s) c 1

/-- The lowest-numbered berth that is neither in use nor reserved (R206). -/
def berthFree (s : State) : Option Nat :=
  firstFrom (fun b => (berthAt s b).isNone && !(s.man.xfers.any fun e => e.1 = b && e.2.restore.isNone))
    (min 16384 (s.man.berths.length + s.man.xfers.length + 1)) 0

/-! ## Page frames -/

def frameAt (s : State) (f : Nat) : Option Frame := tabGet s.man.frames f
def modFrame (f : Nat) (g : Frame → Frame) (s : State) : State := modMan (fun m => { m with frames := tabMod m.frames f g }) s

/-- Take a page frame of HBM3E for a composition (R160, R401). -/
def takeFrame (c : Nat) (fr : Frame) (s : State) : Option (Nat × State) :=
  if !framesAllowed s c 1 then none
  else (frameTake s false).map fun n => (n, modMan (fun m => { m with frames := tabPut m.frames n { fr with comp := c } }) s)

/-- Take a page frame of LPDDR5X: no composition's frame limit counts it. -/
def takeLpx (c : Nat) (fr : Frame) (s : State) : Option (Nat × State) :=
  (frameTake s true).map fun n => (n, modMan (fun m => { m with frames := tabPut m.frames n { fr with comp := c, lpx := true } }) s)

/-- A frame becomes FREE: a move of it ends, and so does a demotion (R253, R255). -/
def frameGone (f : Nat) (s : State) : State :=
  let d := match frameAt s f with | some x => x.demote | none => none
  modMan (fun m =>
    { m with frames := (match d with | some g => tabDel (tabDel m.frames f) g | none => tabDel m.frames f)
             moves := m.moves.filter fun e => e.2.frame ≠ f }) s

/-- Release one reference; the frame is freed on the cycle the count reaches zero (R159). -/
def frameUnref (f : Nat) (s : State) : State :=
  match frameAt s f with
  | none => s
  | some x => if x.refs ≤ 1 then frameGone f s else modFrame f (fun x => { x with refs := x.refs - 1 }) s

/-- A frame that holds a sealed copy, moving or not. -/
def isSealed (x : Frame) : Bool := x.use = .page && (x.state = 2 || x.state = 3)

/-- The sealed copy of a key that this device holds. -/
def copyOf (s : State) (rid index layer : Nat) : Option Nat :=
  (s.man.frames.find? fun e => isSealed e.2 && e.2.requestId = rid && e.2.index = index && e.2.layer = layer).map (·.1)

/-- The ARRIVING frame of a key. -/
def arrivingOf (s : State) (rid index layer : Nat) : Option Nat :=
  (s.man.frames.find? fun e => e.2.use = .page && e.2.state = 4 && e.2.requestId = rid && e.2.index = index && e.2.layer = layer).map (·.1)

/-! ## The manifest image (R207) -/

/-- Byte 9 of the manifest. -/
def manFlags (p : ManProg) : Nat :=
  32 * b2n p.cancel + 16 * b2n p.await + 8 * b2n p.firstOut + 4 * b2n p.boost + 2 * b2n p.fenced + b2n p.rebuilt

/-- The 256 bytes of a manifest. -/
def manImage (x : Berth) : Bytes :=
  let i := x.id
  let p := x.prog
  let c := x.cnt
  toLe 8 i.requestId ++ toLe 1 p.state ++ toLe 1 (manFlags p) ++ toLe 1 i.shareClass ++ toLe 1 p.endCause ++
  toLe 4 i.admitEpoch ++ toLe 4 (4096 * i.withyId + i.withyVer) ++ toLe 4 i.ownerQp ++ toLe 2 i.promptDev ++ toLe 2 i.genDev ++
  toLe 2 i.cachePri ++ toLe 2 i.cacheMir ++ toLe 8 i.seed ++ (i.sampling ++ zeros 16).take 16 ++ toLe 1 p.specDepth ++
  toLe 1 i.specMax ++ toLe 2 i.stopSet ++ toLe 4 i.maxNew ++ toLe 4 i.promptLen ++ toLe 4 p.logLen ++ toLe 4 p.released ++
  toLe 4 p.posHeld ++ toLe 4 i.cycleBudget ++ toLe 4 i.ttftBudget ++ toLe 4 i.tbtBudget ++ toLe 4 p.slack ++ toLe 4 p.deficit ++
  toLe 4 p.ttftUs ++ toLe 8 p.slackTick ++ toLe 8 p.pageRoot ++ toLe 8 p.logPage ++ toLe 2 c.tbtMiss ++ toLe 1 p.ttftMissed ++
  toLe 1 0 ++ toLe 4 p.stopMatch ++ (c.tbtHist.flatMap fun n => toLe 2 n) ++ toLe 4 c.maxDeficit ++ toLe 4 c.steps ++
  toLe 8 c.engineCycles ++ toLe 8 c.bytesMoved ++ toLe 4 c.drafted ++ toLe 4 c.accepted ++ toLe 2 c.suspect ++ toLe 2 c.preempt ++
  toLe 2 c.lastStatus ++ zeros 66

/-- The parts of a manifest image. Reserved fields are ignored on read (R208). -/
def manIdOf (b : Bytes) : ManId :=
  { requestId := leAt b 0 8, shareClass := leAt b 10 1, admitEpoch := leAt b 12 4, withyId := leAt b 16 4 / 4096,
    withyVer := leAt b 16 4 % 4096, ownerQp := leAt b 20 4 % 2 ^ 20, promptDev := leAt b 24 2 % 4096, genDev := leAt b 26 2 % 4096,
    cachePri := leAt b 28 2 % 4096, cacheMir := leAt b 30 2 % 4096, seed := leAt b 32 8, sampling := slice b 40 16,
    specMax := leAt b 57 1, stopSet := leAt b 58 2, maxNew := leAt b 60 4, promptLen := leAt b 64 4, cycleBudget := leAt b 80 4,
    ttftBudget := leAt b 84 4, tbtBudget := leAt b 88 4 }

def manProgOf (b : Bytes) : ManProg :=
  let f := leAt b 9 1
  { state := leAt b 8 1, cancel := bit f 5, await := bit f 4, firstOut := bit f 3, boost := bit f 2, fenced := bit f 1,
    rebuilt := bit f 0, endCause := leAt b 11 1, specDepth := leAt b 56 1, logLen := leAt b 68 4, released := leAt b 72 4,
    posHeld := leAt b 76 4, slack := leAt b 92 4, deficit := leAt b 96 4, ttftUs := leAt b 100 4, slackTick := leAt b 104 8,
    pageRoot := leAt b 112 6, logPage := leAt b 120 4, ttftMissed := leAt b 130 1, stopMatch := leAt b 132 4 }

def manCntOf (b : Bytes) : ManCnt :=
  { tbtMiss := leAt b 128 2, tbtHist := (List.range 8).map fun k => leAt b (136 + 2 * k) 2, maxDeficit := leAt b 152 4,
    steps := leAt b 156 4, engineCycles := leAt b 160 8, bytesMoved := leAt b 168 8, drafted := leAt b 176 4,
    accepted := leAt b 180 4, suspect := leAt b 184 2, preempt := leAt b 186 2, lastStatus := leAt b 188 2 }

/-! ## Slack (R34 to R38, R225, R226, R305) -/

def classRec (s : State) (k : Nat) : ClassRec := tabGetD s.sched.classes k {}

/-- A class as the last weave built found it: a change of its weights and of its boost applies from the next one (R406, log 148). -/
def wovenClass (s : State) (k : Nat) : ClassRec := tabGetD s.sched.classesWoven k {}

/-- What a packet that continues the request of berth `b` has left: its residence runs from the manifest's last update (R35,
R36). -/
def manBudget (s : State) (b : Nat) : Budget :=
  match berthAt s b with
  | none => {}
  | some x => ⟨x.prog.slack, x.prog.slackTick, x.linkUs, 0⟩

/-- The charge of an update at tick `t` (R37). -/
def slackCharge (p : ManProg) (t : Nat) : Nat := divUp (t - p.slackTick) 100

/-- No deadline applies (R34). -/
def noDeadline : Nat := 0xFFFFFFFF

/-- A manifest after its slack is charged `c` microseconds: in time, late for the first time, or later still (R226). The
second value is the miss counted: 0 none, 1 of the first token, 2 of a later one. -/
def slackAfter (x : Berth) (c : Nat) : Berth × Nat :=
  let p := { x.prog with slackTick := x.prog.slackTick + 100 * c }
  if x.prog.slack = noDeadline then ({ x with prog := p }, 0)
  else if x.missed then ({ x with prog := { p with deficit := min (p.deficit + c) 0xFFFFFFFF } }, 0)
  else if c ≤ p.slack then ({ x with prog := { p with slack := p.slack - c } }, 0)
  else
    let late := { p with slack := 0, deficit := min (p.deficit + (c - p.slack)) 0xFFFFFFFF }
    if p.firstOut then
      ({ x with prog := late, missed := true, cnt := { x.cnt with tbtMiss := min (x.cnt.tbtMiss + 1) 0xFFFF } }, 2)
    else ({ x with prog := { late with ttftMissed := 1 }, missed := true }, 1)

/-- BOOST is set when the slack of a PROMPT or GENERATING manifest lies below its class's threshold (R305). -/
def boostDue (s : State) (x : Berth) : Bool :=
  let t := (wovenClass s x.id.shareClass).boostUs
  (x.prog.state = 2 || x.prog.state = 4) && t ≠ 0 && decide (x.prog.slack < t) && !x.prog.boost

/-- Bring a manifest's slack up to date at the present tick (R225, R37). -/
def slackUpdate (b : Nat) (s : State) : State :=
  match berthAt s b with
  | none => s
  | some x =>
    if 1 ≤ x.prog.state && x.prog.state ≤ 7 then
      let r := slackAfter x (slackCharge x.prog s.tick)
      let s1 := modBerth b (fun _ => r.1) s
      let s2 := if r.2 = 1 then bump MAN_TTFT_MISS_CNT 1 s1 else if r.2 = 2 then bump MAN_TBT_MISS_CNT 1 s1 else s1
      if boostDue s r.1 then bump BOOST_CNT 1 (modProg b (fun p => { p with boost := true }) s2) else s2
    else s

/-! ## The completion stream (R303, R304) -/

/-- Bytes of Evoest packets sent or received for a request (R207, log 46). -/
def moved (b n : Nat) (s : State) : State := modCnt b (fun c => { c with bytesMoved := min (c.bytesMoved + n) cntMax }) s

/-- The payload of a TOK.STREAM packet. -/
def streamBytes (x : Berth) (first : Nat) (tokens : List Nat) (final : Bool) (st : Nat) : Bytes :=
  toLe 8 x.id.requestId ++ toLe 4 first ++ toLe 2 tokens.length ++ toLe 1 (b2n final) ++ toLe 1 (if final then x.prog.endCause else 0) ++
    toLe 2 st ++ zeros 2 ++ toLe 4 (if first = 0 && !tokens.isEmpty then x.prog.ttftUs else 0xFFFFFFFF) ++ toLe 2 x.cnt.tbtMiss ++
    zeros 6 ++ (tokens.flatMap fun t => toLe 4 t)

/-- Whether a QP can carry a message that the device starts. -/
def qpSends (s : State) (n : Nat) : Bool := match qpOf s n with | some q => q.state = 2 | none => false

/-- Send a TOK.STREAM packet on OWNER_QP, and record its status as the last sent. -/
def tokStream (b first : Nat) (tokens : List Nat) (final : Bool) (st : Nat) (s : State) : State :=
  match berthAt s b with
  | none => s
  | some x =>
    if qpSends s x.id.ownerQp then
      let bytes := streamBytes x first tokens final st
      let t := takeTag s
      moved b (evoBytes bytes.length) (bump TOK_STREAM_CNT 1 (sendMsgOn x.id.ownerQp
        { opcode := 0x40, tag := t.1, mid := midOf s b, flags := 3, payload := bytes } .plain
        (modCnt b (fun c => { c with lastStatus := st }) t.2)))
    else s

/-- Report a status on the completion stream. -/
def streamStatus (b st : Nat) (final : Bool) (s : State) : State :=
  match berthAt s b with
  | none => s
  | some x => tokStream b x.prog.released [] final st s

/-! ## Pins: withy versions and stop sets (R216, R228, R286) -/

/-- The key of a version, and the entry of a held one. -/
def withyKey (wid ver : Nat) : Nat := 4096 * wid + ver
def withyHeld (s : State) (key : Nat) : Option WithyVer := tabGet s.tier.withies key
def modWithy (key : Nat) (f : WithyVer → WithyVer) (s : State) : State := modTier (fun t => { t with withies := tabMod t.withies key f }) s

/-- Every copy of a version is released (R286, R289). -/
def withyFree (key : Nat) (s : State) : State :=
  let lib := match withyHeld s key with | some v => v.libExt | none => []
  let res := (s.tier.wslots.filter fun e => e.2.ver = key).flatMap fun e => e.2.ext
  bump WTH_FREED_CNT 1 (extFree (lib ++ res) (modTier (fun t =>
    { t with withies := tabDel t.withies key, wslots := t.wslots.filter fun e => e.2.ver ≠ key }) s))

/-- One pin is released: a version that is not CURRENT is freed on the cycle its last pin goes (R286). -/
def withyUnpin (key : Nat) (s : State) : State :=
  match withyHeld s key with
  | none => s
  | some v =>
    if v.pins ≤ 1 && v.state ≠ 1 then withyFree key s else modWithy key (fun v => { v with pins := v.pins - 1 }) s

def withyPin (key : Nat) (s : State) : State := modWithy key (fun v => { v with pins := v.pins + 1 }) s

/-- The slot of an identical stop record, or the lowest free one; none when all 1,024 are in use (R216). -/
def stopSlot (s : State) (r : Bytes) : Option Nat :=
  match s.man.stops.find? fun e => e.2.1 = r with
  | some e => some e.1
  | none => tabFree s.man.stops 1024

/-- Take, and release, a reference on a stop set. -/
def stopTake (n : Nat) (r : Bytes) (s : State) : State :=
  modMan (fun m => { m with stops := tabPut m.stops n (r, (tabGetD m.stops n (r, 0)).2 + 1) }) s
def stopDrop (n : Nat) (s : State) : State :=
  modMan (fun m =>
    { m with stops := (match tabGet m.stops n with
                       | some (r, k) => if k ≤ 1 then tabDel m.stops n else tabPut m.stops n (r, k - 1)
                       | none => m.stops) }) s

/-! ## Losses and failures that wait for a boundary (R211, R212) -/

/-- A state loss, or a failure, to take effect; the first of each kind stands. -/
def loseSoon (b st : Nat) (s : State) : State := modBerth b (fun x => { x with lossAt := x.lossAt.or (some st) }) s
def failSoon (b st : Nat) (s : State) : State := modBerth b (fun x => { x with failAt := x.failAt.or (some st) }) s

/-! ## The page table (R236 to R238) -/

def ptGet (t : PageTable) (e : Nat) : PtEntry := tabGetD t.entries e {}
def ptPut (t : PageTable) (e : Nat) (x : PtEntry) : PageTable := { t with entries := tabSet t.entries e x {} }
def modTable (b : Nat) (f : PageTable → PageTable) (s : State) : State := modBerth b (fun x => { x with table := f x.table }) s
def modPt (b e : Nat) (f : PtEntry → PtEntry) (s : State) : State := modTable b (fun t => ptPut t e (f (ptGet t e))) s
def ptIndex (t : PageTable) (i layer : Nat) : Nat := i * t.layers + layer

/-- Table frames that a number of page indices needs (R237). -/
def tableFrames (layers indices : Nat) : Nat := divUp (layers * indices) 4608

/-- Positions per page, from the KV geometry of the stake image (R239): heads and head dimension. -/
def pagePositions (h d : Nat) : Nat := 131072 / (2 * h * d)

/-- The KV geometry of the ACTIVE set's stake image: layers, heads, head dimension. -/
def kvGeometry (s : State) : Option (Nat × Nat × Nat) :=
  match (s.tier.slots.find? fun t => t.state = 3) with
  | none => none
  | some t => (tabGet s.tier.stakes t.stakeId).map fun k => (leAt k.header 32 2, leAt k.header 34 2, leAt k.header 36 2)

/-- Positions per page of the ACTIVE set; 64 stands where no set is ACTIVE and nothing depends on it. -/
def pageP (s : State) : Nat := match kvGeometry s with | some (_, h, d) => pagePositions h d | none => 64
def kvLayers (s : State) : Nat := match kvGeometry s with | some (l, _, _) => l | none => 0

/-- Bytes of an overflow area (R243). -/
def ovfBytes (p : Nat) : Nat := 589824 / max 1 p

/-- A page index that is sent to the holders: of a rebuild, one of its named range (R232, R248). -/
def inRange (x : Berth) (i : Nat) : Bool := match x.range with | some (f, n) => decide (f ≤ i && i < f + n) | none => true

/-- Window start of a request: the first page index held locally (R247). -/
def windowStart (s : State) (x : Berth) : Nat :=
  let w := (classRec s x.id.shareClass).window
  let pos := if s.dev.personality = 1 then x.target - 1 else x.prog.posHeld
  (pos - w) / max 1 (pageP s)

end Sys2Proof.Machine
end

