-- ==== Sys2Proof/Machine/Moves.lean ====
section
/-! DEFINITION. Page moves, drops and mirror messages, and the handoff transfer (R27 to R29, R182, R183, R201, R221, R224,
R247 to R258, R326, R332, R333, R528). -/

namespace Sys2Proof.Machine

/-! ## The bytes of a page -/

/-- The region whose lighter serves region `r`: the backup of a fenced one (R50). -/
def lighterOf (s : State) (r : Nat) : Nat := if (regionSt s r).lighterFenced then r / 8 * 8 + (r + 7) % 8 else r

/-- The region whose lighter and compressor move a frame: no rule fixes it (DESIGN CHOICE, log 48). -/
def frameRegion (s : State) (f : Nat) : Nat :=
  let stack := frameDpa s f / 0xC00000000
  8 * (if stack < 12 then stack / 3 else 0) + f % 8

/-- The stored bytes of a sealed copy, and the raw form of a page. -/
def storedBytes (s : State) (f : Nat) (x : Frame) : Bytes := memRead s (frameDpa s f) (16 * x.storedLen)
def rawPage (s : State) (f : Nat) (x : Frame) : Bytes :=
  if x.coded then (fetchPage s f 0 frameBytes).bytes else memRead s (frameDpa s f) frameBytes

/-- The two halves of a page that R332 transcodes: element payload, block records and side-band of keys, then of values. -/
def pageBlocks (raw : Bytes) (vals : Bool) : List (Bytes × Bytes) :=
  (List.range 2048).map fun b =>
    if vals then (slice raw (32768 + 16 * b) 16, slice raw (71680 + b) 1) else (slice raw (16 * b) 16, slice raw (65536 + 3 * b) 3)

/-- A 4-bit block widened, its scale applied (R82, R83). A block that reads as NaN gives NaN. -/
def widenBlock (esc : Bool) (f side : Nat) (x : Bytes × Bytes) : List Dyad :=
  match blockVals esc f side x.1 x.2 with
  | none => List.replicate 32 .nan
  | some (l, e) => l.map fun x => f32Val (widen (numScale e x)).code

/-- A page in the FP8 form of Evoest 2.3 (R332): payloads, then scales. -/
def toFp8Page (esc : Bool) (raw : Bytes) : Bytes :=
  let part := fun v => (pageBlocks raw v).map fun x => writeBlock esc 0x3 0 (widenBlock esc 0x7 (if v then 0 else 1) x)
  let k := part false
  let v := part true
  (k.flatMap (·.elems)) ++ (v.flatMap (·.elems)) ++ (k.flatMap (·.recd)) ++ (v.flatMap (·.recd))

/-- A page in the FP8 form converted to the device's own (R332). -/
def fromFp8Page (esc : Bool) (b : Bytes) : Bytes :=
  let part := fun v => (List.range 2048).map fun i =>
    writeBlock esc 0x7 (if v then 0 else 1) (widenBlock esc 0x3 0
      (slice b ((if v then 65536 else 0) + 32 * i) 32, slice b ((if v then 133120 else 131072) + i) 1))
  let k := part false
  let v := part true
  (k.flatMap (·.elems)) ++ (v.flatMap (·.elems)) ++ (k.flatMap (·.recd)) ++ (v.flatMap (·.recd))

/-- A sealed page's coded form, when it fits (R182, R201): container, padded to 16 bytes, then the side-band. A fenced compressor lets the
page out raw, and its blocks are counted (R52). -/
def codePage (s : State) (f : Nat) (raw : Bytes) : Option Bytes × State :=
  let region := frameRegion s f
  if (regionSt s region).compFenced then (none, bump (CMP_FENCED_RAW region) (65536 / 4096) s)
  else
    let r := codeObject region 0x7 (raw.take 65536) s
    let c := r.1 ++ zeros (up16 r.1.length - r.1.length)
    if 65536 < c.length then (none, bump (CMP_RAW_OBJECTS region) 1 r.2) else (some (c ++ raw.drop 65536), r.2)

/-- The bytes that a move sends to a partner: stored bytes and CODED; none when a 2.3 partner takes no page (R183, R332,
R333). -/
def moveBytes (s : State) (f : Nat) (x : Frame) (evoest : Nat) : Option (Bytes × Bool) × State :=
  if x.state = 1 then
    (if evoest < 0x300 then (none, s)
     else (some (memRead s (frameDpa s f) frameBytes ++ memRead s x.ovfDpa (ovfBytes (pageP s)), false), s))
  else if evoest < 0x300 then
    (if bit (regGet s CMD_COMPAT) 0 then (some (toFp8Page (escIgnore s) (rawPage s f x), false), bump CMD_XCODE_OUT_CNT 1 s) else (none, s))
  else if x.coded && !(regionSt s (frameRegion s f)).compFenced then (some (storedBytes s f x, true), s)
  else
    let raw := rawPage s f x
    match codePage s f raw with
    | (some b, s1) => (some (b, true), s1)
    | (none, s1) => (some (raw, false), s1)

/-! ## Moves -/

def moveAt (s : State) (m : Nat) : Option Move := tabGet s.man.moves m
def modMove (m : Nat) (f : Move → Move) (s : State) : State := modMan (fun x => { x with moves := tabMod x.moves m f }) s
def modTgt (m h : Nat) (f : MoveTgt → MoveTgt) (s : State) : State :=
  modMove m (fun x => { x with tgts := (List.range x.tgts.length).zip x.tgts |>.map fun t => if t.1 = h then f t.2 else t.2 }) s

/-- The other holder that a PAGE.PUT names as PARTNER (R242, R324). -/
def movePartner (s : State) (x : Move) (h : Nat) : Nat :=
  match x.why with
  | .window =>
    (match (x.tgts.map (·.dev)).filter fun d => d ≠ (x.tgts.getD h noTgt).dev with
     | d :: _ => d
     | [] => 0xFFF)
  | .mirror _ => s.dev.deviceId
  | .handoff => 0xFFF
  | .get => 0xFFF

/-- The frame of a move is MOVING while a target is still to answer, else SEALED (R255). -/
def moveState (m : Nat) (s : State) : State :=
  match moveAt s m with
  | none => s
  | some x =>
    let busy := x.tgts.any fun t => t.st ≤ 2
    modFrame x.frame (fun f => if f.state = 2 || f.state = 3 then { f with state := if busy then 3 else 2 } else f) s

def retryTicks (s : State) : Nat := usTicks (regField s LGT_RETRY 13 0)
def moveTmoTicks (s : State) : Nat := usTicks (regField s LGT_MOVE_TMO 16 0)

/-- A holder's refusal is reported on the completion stream once for each holder and status (R249, log 50). -/
def reportRefusal (b dev st : Nat) (s : State) : State :=
  match berthAt s b with
  | none => s
  | some x =>
    if x.reported.contains (dev, st) then s
    else streamStatus b st false (modBerth b (fun x => { x with reported := (dev, st) :: x.reported }) s)

/-- A target is waiting to be sent the page again (R252). -/
def tgtRetry (m h : Nat) (s : State) : State := moveState m (modTgt m h (fun t => { t with st := 4, at' := s.tick + retryTicks s }) s)

/-- A refusal or a timeout of a target, reported for a page that leaves the window (R249, R252). -/
def tgtRefused (m h st : Nat) (s : State) : State :=
  match moveAt s m with
  | none => s
  | some x =>
    let dev := (x.tgts.getD h noTgt).dev
    let s1 := bump LGT_REFUSED_CNT 1 s
    let s2 := match x.why, x.berth with
      | .window, some b => if st = stTargetDead || st = stTimeout then reportRefusal b dev st s1 else s1
      | _, _ => s1
    if st = stTargetDead then moveState m (modTgt m h (fun t => { t with st := 5 }) s2) else tgtRetry m h s2

/-- What the packets of a move have left: those of a request continue it (R35). -/
def moveBudget (s : State) (x : Move) : Budget := match x.berth with | some b => manBudget s b | none => {}

/-- Send the page of a move to one target: PAGE.PUT as one TC-S message (R250, R324, R528). -/
def sendPut (m h : Nat) (s : State) : State :=
  match moveAt s m with
  | none => s
  | some x =>
    match x.tgts[h]?, frameAt s x.frame with
    | some t, some f =>
      (match chooseQp s t.dev x.comp with
       | .wait => moveState m (modTgt m h (fun t => { t with st := 0 }) s)
       | .failed st => tgtRefused m h st s
       | .qp n =>
         match moveBytes s x.frame f ((qpOf s n).getD {}).evoest with
         | (none, s1) => tgtRefused m h stVersion s1
         | (some (b, coded), s1) =>
           let tg := takeTag s1
           let s2 := sendMsgOn n
             { opcode := 0x30, tag := tg.1, p0 := f.requestId % 2 ^ 32, p1 := f.requestId / 2 ^ 32,
               p2 := f.layer + 256 * movePartner s x h, p3 := f.index, slack := moveBudget s x, payload := b } (.move m h) tg.2
           let s3 := bump (LGT_REG_BYTES_OUT (frameRegion s x.frame)) b.length s2
           let s4 := match x.berth with | some bn => moved bn (evoBytes b.length) s3 | none => s3
           moveState m (modTgt m h (fun t =>
             { t with st := 1, qp := n, tag := tg.1, sent := (coded, crc32c b, b.length / 16) }) s4))
    | _, _ => s

/-- Start a move of a frame to its targets. -/
def startMove (f : Nat) (why : MoveWhy) (berth : Option Nat) (comp : Nat) (dests : List Nat) (s : State) : State :=
  let m := tabGap s.man.moves 0
  let x : Move := { frame := f, why := why, berth := berth, comp := comp, dropped := false,
                    tgts := dests.map fun d => { noTgt with dev := d } }
  let s1 := modMan (fun q => { q with moves := tabPut q.moves m x }) s
  (List.range dests.length).foldl (fun t h => sendPut m h t) s1

/-- The PAGE.SEAL payload of a move (R326). A prompt node names the generation node as the OWNER of a page that it sends to
the cache pair (log 51). -/
def sealBytes (s : State) (x : Move) (f : Frame) (t : MoveTgt) : Bytes :=
  let opn := f.state = 1
  let owner := match x.why, x.berth with
    | .window, some b => (match berthAt s b with | some y => if s.dev.personality = 1 then y.id.genDev else s.dev.deviceId | none => f.owner)
    | .handoff, _ => t.dev
    | _, _ => f.owner
  toLe 8 f.requestId ++ toLe 8 f.pageId ++ toLe 4 f.index ++ toLe 1 f.layer ++
    toLe 1 (b2n t.sent.1 + 2 * b2n opn + 4 * b2n f.global + 16 * (if opn then f.spec else 0)) ++ toLe 2 owner ++
    toLe 2 t.sent.2.2 ++ toLe 2 (if opn then f.committed else 0) ++ toLe 4 t.sent.2.1

/-- The transport has completed the PAGE.PUT message: PAGE.SEAL follows (R250, R355). -/
def sendSeal (m h : Nat) (s : State) : State :=
  match moveAt s m with
  | none => s
  | some x =>
    match x.tgts[h]?, frameAt s x.frame with
    | some t, some f =>
      if t.st ≠ 1 then s
      else
        let tg := takeTag s
        modTgt m h (fun t => { t with st := 2, put := t.tag, tag := tg.1 })
          (sendMsgOn t.qp { opcode := 0x32, tag := tg.1, slack := moveBudget s x, payload := sealBytes s x f t } (.seal m h) tg.2)
    | _, _ => s

/-! ## Drops and mirror messages -/

def dropAt (s : State) (d : Nat) : Option DropJob := tabGet s.man.drops d
def modDrop (d : Nat) (f : DropJob → DropJob) (s : State) : State := modMan (fun x => { x with drops := tabMod x.drops d f }) s

/-- The message of a drop job. -/
def dropMsg (x : DropJob) (tag dev : Nat) (jobV jobS : Nat) : MsgOut :=
  match x.mirror with
  | none =>
    if x.keys.isEmpty then { opcode := 0x34, tag := tag, payload := toLe 8 x.requestId }
    else { opcode := 0x34, tag := tag, p0 := 1,
           payload := x.keys.flatMap fun k => toLe 8 x.requestId ++ toLe 4 k.1 ++ toLe 1 k.2 ++ zeros 3 }
  | some (_, mode, k, m) =>
    { opcode := 0x33, tag := tag, p0 := mode, p1 := (if jobV = 0xFFF then dev else jobV) + 4096 * jobS,
      payload := toLe 8 x.requestId ++ (if mode = 4 then toLe 4 k ++ toLe 1 m ++ zeros 3 else []) }

/-- V and S of a mirror job: a copy runs on V, a close on S (R256). -/
def mirrorPair (s : State) (x : DropJob) : Nat × Nat :=
  match x.mirror with
  | none => (0xFFF, 0)
  | some (j, _, _, _) =>
    match tabGet s.man.mirrors j with
    | some y => if y.close then (y.dead, s.dev.deviceId) else (s.dev.deviceId, y.spare)
    | none => (0xFFF, 0)

/-- Send a drop job's message, or plan it again after LGT_RETRY (R253, R528). -/
def sendDrop (d : Nat) (s : State) : State :=
  match dropAt s d with
  | none => s
  | some x =>
    match chooseQp s x.dest x.comp with
    | .wait => modDrop d (fun x => { x with waits := true, retryAt := none }) s
    | .failed _ => modDrop d (fun x => { x with waits := false, retryAt := some (s.tick + retryTicks s) }) s
    | .qp n =>
      let tg := takeTag s
      let vs := mirrorPair s x
      modDrop d (fun x => { x with tag := tg.1, waits := false, retryAt := none })
        (sendMsgOn n (dropMsg x tg.1 s.dev.deviceId vs.1 vs.2) (.drop d) tg.2)

/-- Start a drop by REQUEST_ID, or of keys, at a holder. A device sends none to itself. -/
def startDrop (dest rid : Nat) (keys : List (Nat × Nat)) (comp : Nat) (s : State) : State :=
  if dest = 0xFFF || dest = s.dev.deviceId then s
  else
    let d := tabGap s.man.drops 0
    sendDrop d (modMan (fun x => { x with drops := tabPut x.drops d ⟨dest, rid, keys, comp, 0, none, none, false⟩ }) s)

/-- Start a PAGE.MIRROR of mode 3 or 4 towards an owner (R256). -/
def startOwed (job owner rid mode k m comp : Nat) (s : State) : State :=
  let d := tabGap s.man.drops 0
  sendDrop d (modMan (fun x => { x with drops := tabPut x.drops d ⟨owner, rid, [], comp, 0, none, some (job, mode, k, m), false⟩ }) s)

/-! ## The handoff transfer (R27 to R29, R221) -/

/-- Every remote page of a manifest has been accepted (R249). -/
def remoteAccepted (s : State) (b : Nat) : Bool :=
  (!s.man.moves.any fun e => e.2.berth = some b && e.2.why = .window) &&
    (match berthAt s b with
     | none => true
     | some x => x.table.entries.all fun e =>
         let i := e.1 / max 1 x.table.layers
         let named := fun d => d = 0xFFF || e.2.holderA = d || e.2.holderB = d
         decide (windowStart s x ≤ i) || !inRange x i || (named x.id.cachePri && named x.id.cacheMir))

/-- The transfer is refused, voided or timed out at the prompt node: the manifest stays in HANDOFF and the status goes on the
stream (R29, R211). Moves of its pages end. -/
def handoffRefused (b st : Nat) (s : State) : State :=
  streamStatus b st false (bump MAN_HANDOFF_REFUSED_CNT 1
    (modMan (fun m => { m with moves := m.moves.filter fun e => !(e.2.berth = some b && e.2.why = .handoff) })
      (modBerth b (fun x => { x with xfer := none, voided := some st }) s)))

/-- The transfer's message: image, stop record, log (R221). -/
def transferBytes (s : State) (x : Berth) (evoest : Nat) : Bytes :=
  let stop := if x.id.stopSet = 0xFFFF then [] else (tabGetD s.man.stops x.id.stopSet ([], 0)).1
  let y := if evoest < 0x300 then
      { x with id := { x.id with specMax := 0 }, prog := { x.prog with specDepth := 0 }, cnt := { x.cnt with drafted := 0, accepted := 0 } }
    else x
  manImage y ++ stop ++ x.log.flatMap fun t => toLe 4 t

/-- Send the transfer to GEN_DEV (R221, R224, R528). Its residence is charged before it leaves (R35). -/
def sendTransfer (b : Nat) (s0 : State) : State :=
  let s := slackUpdate b s0
  match berthAt s b with
  | none => s
  | some x =>
    match chooseQp s x.id.genDev (compOf s x) with
    | .wait => modBerth b (fun x => { x with xfer := some ⟨none, 0, 2 ^ 20⟩ }) s
    | .failed st => handoffRefused b st s
    | .qp n =>
      let bytes := transferBytes s x ((qpOf s n).getD {}).evoest
      if 2 ^ 24 < bytes.length then handoffRefused b stFormat s
      else
        let tg := takeTag s
        moved b (evoBytes bytes.length) (bump MAN_HANDOFF_OUT_CNT 1 (modBerth b (fun x => { x with xfer := some ⟨none, tg.1, n⟩, voided := none })
          (sendMsgOn n
            { opcode := 0x22, tag := tg.1, mid := (match x.restore with | some r => r | none => 0xFFFFFFFF),
              p0 := b2n x.restore.isSome, p1 := midOf s b,
              p2 := (match x.restore, x.range with | some _, some r => r.1 | _, _ => 0),
              p3 := (match x.restore, x.range with | some _, some r => r.2 | _, _ => 0),
              slack := ⟨x.prog.slack, x.prog.slackTick, 0, 0⟩, payload := bytes } (.handoff b) tg.2)))

/-- Send the transfer once the manifest is in HANDOFF, no transfer is outstanding and the remote pages are placed. -/
def transferCheck (b : Nat) (s : State) : State :=
  match berthAt s b with
  | some x => if x.prog.state = 3 && x.xfer.isNone && x.voided.isNone && remoteAccepted s b then sendTransfer b s else s
  | none => s

/-- The local pages of a manifest that the transfer carries: window pages and open pages, by index and layer (R221). -/
def handoffFrames (s : State) (x : Berth) : List Nat :=
  (x.table.entries.filter fun e =>
    e.2.desc ≠ 0xFFFFFFFF && (e.2.state = 1 || e.2.state = 2 || e.2.state = 5) && decide (windowStart s x ≤ e.1 / max 1 x.table.layers)).map
      fun e => e.2.desc

/-- The generation node has answered ST_PENDING: the window and open pages follow (R27, R221, R355). -/
def sendWindow (b : Nat) (s : State) : State :=
  match berthAt s b with
  | none => s
  | some x => (handoffFrames s x).foldl (fun t f => startMove f .handoff (some b) (compOf s x) [x.id.genDev] t) s

/-! ## Acceptance -/

/-- Record a holder in a page-table entry: the first free holder field, unless it is there already (R248). -/
def addHolder (d : Nat) (e : PtEntry) : PtEntry :=
  if e.holderA = d || e.holderB = d then e
  else if e.holderA = 0xFFF then { e with holderA := d }
  else if e.holderB = 0xFFF then { e with holderB := d } else e

/-- The page-table entry of a frame in its manifest's table. -/
def ptOfFrame (x : Berth) (f : Nat) : Option Nat := (x.table.entries.find? fun e => e.2.desc = f).map (·.1)

/-- Remove a move. -/
def moveEnd (m : Nat) (s : State) : State := modMan (fun x => { x with moves := tabDel x.moves m }) s

/-- All targets of a page that left the window have accepted: the local copy is freed, or stays RETAINED (R248, R255). -/
def windowDone (m b f : Nat) (s : State) : State :=
  match berthAt s b, frameAt s f with
  | some x, some fr =>
    let s1 := moveEnd m s
    let s2 := match ptOfFrame x f with
      | some e =>
        if fr.global then modFrame f (fun y => { y with state := 2 }) (modPt b e (fun y => { y with state := 5 }) s1)
        else frameUnref f (modPt b e (fun y => { y with state := 4, desc := 0xFFFFFFFF }) s1)
      | none => frameUnref f s1
    transferCheck b s2
  | _, _ => moveEnd m s


/-- A mirror job has nothing left to copy and no owner left to answer: its final reply (R256). -/
def mirrorFinish (j : Nat) (s : State) : State :=
  match tabGet s.man.mirrors j with
  | none => s
  | some y =>
    let owed := s.man.drops.any fun e => match e.2.mirror with | some (k, _, _, _) => k = j | none => false
    if !y.todo.isEmpty || owed then s
    else answer 0x33 y.pkt y.pkt.mid (if y.deadSpare then stTargetDead else stOk) 0 0 true
      (modMan (fun m => { m with mirrors := tabDel m.mirrors j }) s)

/-- What a mirror job has left to copy. -/
def setTodo (j : Nat) (l : List CopyItem) (s : State) : State :=
  modMan (fun m => { m with mirrors := tabMod m.mirrors j fun y => { y with todo := l } }) s

/-- The first page of a job has been copied: mode 3 follows the last one of a request (R256). -/
def copyDone (j : Nat) (s : State) : State :=
  match tabGet s.man.mirrors j with
  | none => s
  | some y =>
    match y.todo with
    | [] => s
    | c :: t =>
      let s1 := setTodo j t s
      if t.any fun d => d.requestId = c.requestId then s1 else startOwed j c.owner c.requestId 3 0 0 y.comp s1

/-- A request's copy stops at a page that cannot be copied: mode 4 with the verified prefix (R256). -/
def copyStop (j : Nat) (y : MirrorJob) (c : CopyItem) (s : State) : State :=
  startOwed j c.owner c.requestId 4 c.index c.layer y.comp (setTodo j (y.todo.filter fun d => d.requestId ≠ c.requestId) s)

/-- The spare is unreachable: the copy ends there (R256). -/
def copyDead (j : Nat) (s : State) : State :=
  match tabGet s.man.mirrors j with
  | none => s
  | some y =>
    match y.todo with
    | [] => s
    | c :: _ =>
      mirrorFinish j (startOwed j c.owner c.requestId 4 c.index c.layer y.comp
        (modMan (fun m => { m with mirrors := tabMod m.mirrors j fun y => { y with todo := [], deadSpare := true } }) s))

/-- The copy that a job is to send is still held. -/
def copyHeld (s : State) (c : CopyItem) : Bool :=
  match frameAt s c.frame with
  | some f => isSealed f && f.requestId = c.requestId && f.index = c.index && f.layer = c.layer
  | none => false

/-- A page is on its way to a spare for some job, or a fold is in service, which goes first (R258). -/
def copyWaits (s : State) (spare : Nat) : Bool :=
  !s.eng.folds.isEmpty || s.man.moves.any fun e =>
    match e.2.why with
    | .mirror k => (match tabGet s.man.mirrors k with | some z => z.spare = spare | none => false)
    | _ => false

/-- Send a job's next page when its spare is to be sent one; requests whose next page is lost stop, and a job with nothing left
ends (R256, R258). `fuel` bounds the requests. -/
def copyRun (j : Nat) : Nat → State → State
  | 0, s => s
  | fuel + 1, s =>
    match tabGet s.man.mirrors j with
    | none => s
    | some y =>
      match y.todo with
      | [] => mirrorFinish j s
      | c :: _ =>
        if copyWaits s y.spare then s
        else if copyHeld s c then startMove c.frame (.mirror j) none ((frameAt s c.frame).getD {}).comp [y.spare] s
        else copyRun j fuel (copyStop j y c s)

/-- Every copy goes on as far as it can. -/
def copyJobs (s : State) : State := s.man.mirrors.foldl (fun t e => if e.2.close then t else copyRun e.1 (e.2.todo.length + 1) t) s

/-- A holder has accepted a page (R248, R255, R256). -/
def accepted (m h : Nat) (s : State) : State :=
  match moveAt s m with
  | none => s
  | some x =>
    let dev := (x.tgts.getD h noTgt).dev
    let reg := frameRegion s x.frame
    let s1 := bump (LGT_REG_PAGES_OUT reg) 1 (bump LGT_PUT_OUT_CNT 1 (moveState m (modTgt m h (fun t => { t with st := 3 }) s)))
    let all := (List.range x.tgts.length).all fun k => k = h || (x.tgts.getD k noTgt).st = 3
    match x.why with
    | .window =>
      (match x.berth with
       | none => s1
       | some b =>
         let s2 := modBerth b (fun y => { y with reported := y.reported.filter fun r => r.1 ≠ dev }) s1
         let s3 := match berthAt s2 b with
           | some y => (match ptOfFrame y x.frame with | some e => modPt b e (addHolder dev) s2 | none => s2)
           | none => s2
         if all then windowDone m b x.frame s3 else s3)
    | .handoff => if all then moveEnd m s1 else s1
    | .get => if all then moveEnd m s1 else s1
    | .mirror j =>
      copyJobs (copyDone j (bump LGT_MIRROR_CNT 1 (modFrame x.frame (fun f => { f with partner := dev }) (moveEnd m s1))))

/-- The device's own copy is damaged: it is freed, a move of it ends, and the page is reported lost (R252, R255, R256). On the
owner the manifest loses its state; a copy held for another device is missed when its owner asks for it. -/
def ownCopyLost (f : Nat) (s : State) : State :=
  match frameAt s f with
  | none => s
  | some x =>
    let s1 := copyJobs (frameGone f s)
    match berthOfRequest s x.requestId with
    | none => s1
    | some b =>
      match (berthAt s b).bind fun y => ptOfFrame y f with
      | none => s1
      | some e =>
        let y := ptGet ((berthAt s b).getD {}).table e
        if y.holderA = 0xFFF && y.holderB = 0xFFF then
          loseSoon b stStateLost (bump LGT_LOST_CNT 1 (modPt b e (fun y => { y with state := 6, desc := 0xFFFFFFFF }) s1))
        else modPt b e (fun y => { y with state := 4, desc := 0xFFFFFFFF }) s1

/-- The stored bytes of a sealed copy still have the CRC that its descriptor holds. -/
def ownCopyGood (s : State) (f : Nat) : Bool :=
  match frameAt s f with
  | some x => x.state = 1 || crc32c (storedBytes s f x) = x.crc
  | none => false

/-- A target answers ST_CRC: the own copy is checked, and the page is sent again, three times in all (R252). -/
def crcRefused (m h : Nat) (s : State) : State :=
  match moveAt s m with
  | none => s
  | some x =>
    let t := x.tgts.getD h noTgt
    let s1 := bump LGT_CRC_FAIL_CNT 1 s
    if !ownCopyGood s x.frame then ownCopyLost x.frame s1
    else if t.crcs < 2 then sendPut m h (modTgt m h (fun t => { t with crcs := t.crcs + 1 }) s1)
    else
      tgtRefused m h stCrc (record { cause := 0x27, cls := 0, kind := 11, unit := t.dev, c0 := ((frameAt s x.frame).getD {}).pageId }
        (modTgt m h (fun t => { t with crcs := 0 }) s1))

/-- A target's failing answer, or a local failure (R252, R256). -/
def moveRefused (m h st : Nat) (s : State) : State :=
  if st = stCrc then crcRefused m h s
  else
    match moveAt s m with
    | none => s
    | some x =>
      match x.why with
      | .mirror j => if st = stTargetDead then copyJobs (copyDead j (moveEnd m (tgtRefused m h st s))) else tgtRefused m h st s
      | _ => tgtRefused m h st s

/-! ## After a SYS.HELLO (R528) -/

/-- Moves, drops and transfers that waited for a version choose their QP again. -/
def resumeMoves (s : State) : State :=
  let s1 := s.man.moves.foldl (fun t e =>
    (List.range e.2.tgts.length).foldl (fun u h => if ((e.2.tgts.getD h { noTgt with st := 9 }).st = 0) then sendPut e.1 h u else u) t) s
  let s2 := s1.man.drops.foldl (fun t e => if e.2.waits then sendDrop e.1 t else t) s1
  s2.man.berths.foldl (fun t e => match e.2.xfer with | some x => if x.qp = 2 ^ 20 then sendTransfer e.1 t else t | none => t) s2

end Sys2Proof.Machine
end

