-- ==== Sys2Proof/Machine/Ending.lean ====
section
/-! DEFINITION. How a request changes state, ends and is lost, how its log grows, and how a berth is freed (R208 to R212,
R217, R218, R222, R228, R231, R253, R297, R301, R304). -/

namespace Sys2Proof.Machine

/-! ## The log (R217) -/

/-- Tokens of a log page. -/
def logPageTokens : Nat := 18432

/-- Take a page frame of HBM3E for a manifest's log, page table or overflow areas. -/
def takeManFrame (b : Nat) (u : FrameUse) (s : State) : Option (Nat × State) :=
  match berthAt s b with
  | none => none
  | some x => takeFrame (compOf s x) { use := u, requestId := x.id.requestId, state := 1, owner := s.dev.deviceId, refs := 1 } s

/-- Take `n` log pages. -/
def takeLogPages (b : Nat) : Nat → State → Option State
  | 0, s => some s
  | n + 1, s =>
    match takeManFrame b .log s with
    | none => none
    | some (f, s1) =>
      takeLogPages b n (modProg b (fun p => { p with logPage := f })
        (modTable b (fun t => { t with logFrames := t.logFrames ++ [f] }) s1))

/-- Write tokens into log pages from log position `q` on. -/
def logStore (frames : List Nat) : Nat → List Nat → State → State
  | _, [], s => s
  | q, t :: l, s =>
    logStore frames (q + 1) l
      (memStore (frameDpa s (frames.getD (q / logPageTokens) 0) + 4 * (q % logPageTokens)) (toLe 4 t) s)

/-- A row stalls for want of a frame: it leaves the weave, and the stall counts under the HBM cause, on the lowest-numbered cluster
that is present (R217, R246; log 144). -/
def rowStalled (b : Nat) (s : State) : State :=
  let s1 := modBerth b (fun x => { x with stalled := true, wasCand := false }) s
  match (List.range 128).find? fun m => (cluster s m).present with
  | some m => bump (SEQ_STALL_HBM m) 1 s1
  | none => s1

/-- Log pages still to be taken before a log of `len` tokens fits. -/
def logPagesShort (x : Berth) (len : Nat) : Nat := divUp len logPageTokens - x.table.logFrames.length

/-- Append tokens to the log; none when no frame is free for a log page it needs. -/
def logAppend (b : Nat) (tokens : List Nat) (s : State) : Option State :=
  match berthAt s b with
  | none => none
  | some x =>
    (takeLogPages b (logPagesShort x (x.prog.logLen + tokens.length)) s).map fun s1 =>
      let frames := match berthAt s1 b with | some y => y.table.logFrames | none => []
      logStore frames x.prog.logLen tokens (modBerth b (fun y =>
        { y with log := y.log ++ tokens, prog := { y.prog with logLen := y.prog.logLen + tokens.length } }) s1)

/-! ## Freeing (R210, R216, R228, R253) -/

/-- Frames that a manifest's page table names: pages, then log, overflow, root and table frames. -/
def tablePages (x : Berth) : List Nat := (x.table.entries.map fun e => e.2.desc).filter fun f => f ≠ 0xFFFFFFFF
def tableOwn (x : Berth) : List Nat := x.table.logFrames ++ x.table.ovf ++ x.table.tables ++ x.table.root.toList

/-- Free the local page frames of a manifest. -/
def freeFrames (x : Berth) (s : State) : State :=
  (tableOwn x).foldl (fun t f => frameGone f t) ((tablePages x).foldl (fun t f => frameUnref f t) s)

/-- The berth becomes FREE and every local reference is released. A swap that a command asked for and that has not ended is
answered ST_STATE_LOST (log 52). -/
def freeBerth (b : Nat) (s : State) : State :=
  match berthAt s b with
  | none => s
  | some x =>
    let s1 := match x.swapPkt with
      | some p => fail (if x.swapIn then 0x36 else 0x35) p stStateLost s
      | none => s
    let s2 := freeFrames x s1
    let s3 := winFree (.snapshot b) s2
    let s4 := if x.id.stopSet = 0xFFFF then s3 else stopDrop x.id.stopSet s3
    let s5 := if x.pinned then withyUnpin (withyKey x.id.withyId x.id.withyVer) s4 else s4
    modMan (fun m =>
      { m with berths := tabDel m.berths b, moves := m.moves.filter fun e => e.2.berth ≠ some b }) s5

/-- Devices that a manifest's page table names as holders, and those its moves are sent to. -/
def holdersOf (s : State) (b : Nat) (x : Berth) : List Nat :=
  ((x.table.entries.flatMap fun e => [e.2.holderA, e.2.holderB]) ++
    ((s.man.moves.filter fun e => e.2.berth = some b && e.2.why = .window).flatMap fun e => e.2.tgts.map (·.dev))).eraseDups

/-- PAGE.DROP by REQUEST_ID to devices. -/
def dropAt' (x : Berth) (comp : Nat) (l : List Nat) (s : State) : State :=
  l.foldl (fun t d => startDrop d x.id.requestId [] comp t) s

/-! ## Changing state (R211, R297, R305) -/

/-- The waiting draft is discarded with ST_BUSY (R297). -/
def wasteDraft (b : Nat) (s : State) : State :=
  match (berthAt s b).bind (·.draft) with
  | none => s
  | some (p, _) => bump SPEC_STALE_CNT 1 (fail 0x28 p stBusy (modBerth b (fun x => { x with draft := none }) s))

/-- The manifest takes a state: BOOST clears as it changes, a waiting draft goes as it leaves GENERATING, and entries into
REBUILD, FAILED and PREEMPTED are counted. -/
def enterState (b st : Nat) (s : State) : State :=
  match berthAt s b with
  | none => s
  | some x =>
    if x.prog.state = st then s
    else
      let s1 := if x.prog.state = 4 then wasteDraft b s else s
      let s2 := modProg b (fun p => { p with state := st, boost := false }) s1
      if st = 7 then bump MAN_REBUILD_CNT 1 s2
      else if st = 9 then bump MAN_FAILED_CNT 1 s2
      else if st = 5 && x.prog.state = 4 then
        bump MAN_PREEMPT_CNT 1 (modCnt b (fun c => { c with preempt := min (c.preempt + 1) 0xFFFF }) s2)
      else s2

/-- Answer the REQ.CANCELs that wait (R210). -/
def answerCancels (b status : Nat) (s : State) : State :=
  match berthAt s b with
  | none => s
  | some x =>
    x.cancels.foldl (fun t p => if status = stOk then ok 0x24 p 0 t else fail 0x24 p status t)
      (modBerth b (fun x => { x with cancels := [], prog := { x.prog with cancel := false } }) s)

/-- The outstanding transfer is voided with a status (R211, R222). -/
def voidTransfer (b st : Nat) (s : State) : State :=
  match (berthAt s b).bind (·.xfer) with
  | none => s
  | some _ =>
    modMan (fun m => { m with moves := m.moves.filter fun e => !(e.2.berth = some b && e.2.why = .handoff) })
      (modBerth b (fun x => { x with xfer := none, voided := some st }) s)

/-- The manifest ends in DONE (8) or FAILED (9): its slack is brought up to date, tokens never released are counted, the
completion stream carries the final packet with `tokens`, and the cancels that wait are answered. On a prompt node the pages
sent to the cache pair are dropped and a DONE manifest's berth is freed (R209, R210, R225, R253, R301, R304). -/
def manEnd (b st cause status first : Nat) (tokens : List Nat) (s0 : State) : State :=
  let s := slackUpdate b s0
  match berthAt s b with
  | none => s
  | some x =>
    let s1 := modProg b (fun p => { p with endCause := cause }) (enterState b st (voidTransfer b status s))
    let quiet := cause = 6
    let s2 := if quiet then s1 else bump TOK_WITHHELD_CNT (x.prog.logLen - x.id.promptLen - x.prog.released) s1
    let s3 := if quiet then s2 else tokStream b first tokens true status s2
    let s4 := answerCancels b stOk s3
    if s.dev.personality = 1 then
      let s5 := if quiet then s4 else dropAt' x (compOf s x) [x.id.cachePri, x.id.cacheMir] s4
      if st = 8 then freeBerth b s5 else s5
    else s4

/-- A failure (R211): FAILED keeps its pages, log and pins. -/
def manFail (b st : Nat) (s : State) : State :=
  match berthAt s b with
  | none => s
  | some x => if x.prog.state = 9 then s else manEnd b 9 8 st x.prog.released [] (modBerth b (fun y => { y with failAt := none }) s)

/-- A cancel takes effect (R210). -/
def manCancel (b : Nat) (s : State) : State :=
  match berthAt s b with
  | none => s
  | some x => if 8 ≤ x.prog.state then answerCancels b stOk s else manEnd b 8 5 stOk x.prog.released [] s

/-- What a generation node takes back as it enters REBUILD (R231). -/
def truncateLog (x : Berth) : Berth :=
  let n := x.id.promptLen + x.prog.released
  { x with log := x.log.take n, drafts := [],
           prog := { x.prog with logLen := n, posHeld := n - 1, specDepth := 0, stopMatch := 0 } }

/-- SPECULATIVE slots of a manifest's open pages. -/
def specSlots (s : State) (x : Berth) : Nat := ((tablePages x).map fun f => match frameAt s f with | some y => y.spec | none => 0).sum

/-- The speculative slots of a manifest's open pages return to EMPTY (R231, R244). -/
def dropSpec (b : Nat) (s : State) : State :=
  match berthAt s b with
  | none => s
  | some x => (tablePages x).foldl (fun t f => modFrame f (fun y => if y.state = 1 then { y with spec := 0 } else y) t) (bump LGT_ROLLBACK_CNT (specSlots s x) s)

/-- Every speculative position of a manifest rolls back, and the token begins again (R244, R302). -/
def rollBack (b : Nat) (s : State) : State :=
  modBerth b (fun x => { x with drafts := [], prog := { x.prog with specDepth := 0 } }) (dropSpec b s)

/-- A state loss (R211, R231). -/
def manLose (b st : Nat) (s0 : State) : State :=
  let s := modBerth b (fun y => { y with lossAt := none }) s0
  match berthAt s b with
  | none => s
  | some x =>
    if 2 ≤ x.prog.state && x.prog.state ≤ 6 then
      let s1 := enterState b 7 (voidTransfer b st (slackUpdate b s))
      let s2 := if s.dev.personality = 2 then modBerth b truncateLog (dropSpec b s1) else s1
      streamStatus b st false s2
    else s

/-- The handoff is void: the generation node frees the berth and its pages (R222, R304). A cancel that waits meets a FREE
berth (R210). -/
def manVoid (b : Nat) (s : State) : State :=
  freeBerth b (bump MAN_VOID_CNT 1 (modProg b (fun p => { p with endCause := 7 }) (answerCancels b stFormat (wasteDraft b s))))

/-- The events that wait for a step boundary take effect on a manifest, in the order of R212. -/
def settleBerth (b : Nat) (s : State) : State :=
  let s1 := match (berthAt s b).bind (·.failAt) with | some st => manFail b st s | none => s
  let s2 := match (berthAt s1 b).bind (·.lossAt) with | some st => manLose b st s1 | none => s1
  match berthAt s2 b with
  | some x => if x.prog.cancel then manCancel b s2 else s2
  | none => s2

/-- When no step runs there is no boundary to wait for: what waits takes effect at once (log 47). -/
def settle (s : State) : State :=
  if s.eng.step.isSome then s
  else s.man.berths.foldl (fun t e =>
    if e.2.failAt.isSome || e.2.lossAt.isSome || e.2.prog.cancel then settleBerth e.1 t else t) s

/-! ## Stop sequences (R299, R300) -/

/-- Whether a stop record includes the stop in the release; its stop tokens; its stop sequences. -/
def stopInclude (r : Bytes) : Bool := bit (leAt r 2 1) 0
def stopTokens (r : Bytes) : List Nat := (List.range (leAt r 0 1)).map fun i => leAt r (4 + 4 * i) 4
def stopSeqs (r : Bytes) : List (List Nat) :=
  (List.range (leAt r 1 1)).map fun j => (List.range (leAt r (68 + j) 1)).map fun t => leAt r (76 + 64 * j + 4 * t) 4

/-- The longest suffix of `gen` that is a prefix of `q` shorter than `q`. -/
def matchLen (q gen : List Nat) : Nat :=
  ((List.range q.length).filter fun k => k ≤ gen.length && gen.drop (gen.length - k) = q.take k).getLastD 0

/-- The stop record of a manifest. -/
def stopOf (s : State) (x : Berth) : Bytes := if x.id.stopSet = 0xFFFF then [] else (tabGetD s.man.stops x.id.stopSet ([], 0)).1

/-- STOP_MATCH for the generated tokens `gen`. -/
def stopMatchOf (r : Bytes) (gen : List Nat) : Nat :=
  let l := (stopSeqs r).map fun q => matchLen q gen
  ((List.range l.length).map fun j => l.getD j 0 * 16 ^ j).sum

/-- The generated tokens of a log. -/
def generated (x : Berth) : List Nat := x.log.drop x.id.promptLen

/-! ## The log is complete (R211, R218) -/

/-- ADMITTED moves on when the log reaches its target: to PROMPT, or to HANDOFF when no position is to be prefilled. -/
def logComplete (b : Nat) (s : State) : State :=
  match berthAt s b with
  | none => s
  | some x =>
    if x.prog.state = 1 && x.prog.logLen = x.target then
      let s1 := modProg b (fun p => { p with stopMatch := stopMatchOf (stopOf s x) (generated x) }) s
      (if x.target ≤ 1 then transferCheck b (enterState b 3 s1) else enterState b 2 s1)
    else s

end Sys2Proof.Machine
end

