-- ==== Sys2Proof/Machine/Manifests.lean ====
section
/-! DEFINITION. The commands and timers of requests: admission, the log, handoff, cancel, release, drafts and the berth
window (R205 to R235, R266, R287, R294, R297, R299, R325). -/

namespace Sys2Proof.Machine

/-! ## Naming a manifest (R205, R229) -/

/-- A packet of an old epoch acts only on a manifest that was admitted in that epoch (R229). -/
def manEpochOk (s : State) (x : Berth) (p : Pkt) : Bool := p.epoch = s.sched.epoch || x.id.admitEpoch = p.epoch

/-- Act on the manifest that the header names, when the parameters keep their layout. The epoch check of R229 is part of step 9
and comes first. -/
def onManifest (o : Nat) (p : Pkt) (lay : Bool) (act : Nat → Berth → State → State) (s : State) : State :=
  match (berthNamed s p.mid).bind fun b => (berthAt s b).map fun x => (b, x) with
  | none => if lay then fail o p stFormat (bump MAN_STALE_ID_CNT 1 s) else fail o p stFormat s
  | some y =>
    if !manEpochOk s y.2 p then failAt o p stEpochStale 9 s
    else if lay then act y.1 y.2 s
    else fail o p stFormat s

/-- Receive a command that names a manifest and carries at most the parameters given. -/
def receiveMan (r : OpRow) (p : Pkt) (lay : Bool) (act : Nat → Berth → State → State) (s : State) : State :=
  receive r p (onManifest r.code p lay act) s

/-! ## Admission records (R294, R299, R325) -/

/-- The sampling parameters hold no reserved value (R294). -/
def samplingOk (b : Bytes) : Bool :=
  let mode := leAt b 0 1
  let t := leAt b 4 4
  let q := leAt b 8 4
  leAt b 1 1 = 0 && leAt b 12 4 = 0 &&
    ((mode = 0 && t = 0 && q = 0) || (mode = 1 && 0 < t && t ≤ 0x42C80000 && 0 < q && q ≤ 0x3F800000))

/-- A stop record keeps its layout (R299). -/
def stopRecOk (b : Bytes) : Bool :=
  let tc := leAt b 0 1
  let sc := leAt b 1 1
  let len := fun j => leAt b (68 + j) 1
  b.length = 588 && tc ≤ 16 && sc ≤ 8 && (tc ≠ 0 || sc ≠ 0) && leAt b 2 1 ≤ 1 && leAt b 3 1 = 0 &&
    ((List.range 16).all fun i => i < tc || leAt b (4 + 4 * i) 4 = 0) &&
    ((List.range 8).all fun j => if j < sc then 2 ≤ len j && len j ≤ 16 else len j = 0) &&
    ((List.range 8).all fun j => (List.range 16).all fun t => t < len j || leAt b (76 + 64 * j + 4 * t) 4 = 0)

/-- A REQ.ADMIT or REQ.REBUILD payload taken apart (R325). -/
structure AdmRec where
  requestId : Nat
  shareClass : Nat
  specMax : Nat
  hasStop : Nat
  withy : Nat
  ownerQp : Nat
  genDev : Nat
  cachePri : Nat
  cacheMir : Nat
  count : Nat
  promptLen : Nat
  maxNew : Nat
  cycleBudget : Nat
  tbtBudget : Nat
  sampling : Bytes
  seed : Nat
  logTarget : Nat
  rangeFirst : Nat
  rangeCount : Nat
  mode : Nat
  targetId : Nat
  stop : Bytes
  tokens : List Nat
deriving DecidableEq, Repr

/-- Read the record. -/
def admRec (b : Bytes) : AdmRec :=
  let hs := leAt b 10 1
  let off := 128 + (if hs = 1 then 588 else 0)
  let n := leAt b 26 2
  { requestId := leAt b 0 8, shareClass := leAt b 8 1, specMax := leAt b 9 1, hasStop := hs, withy := leAt b 12 4,
    ownerQp := leAt b 16 4, genDev := leAt b 20 2, cachePri := leAt b 22 2, cacheMir := leAt b 24 2, count := n,
    promptLen := leAt b 28 4, maxNew := leAt b 32 4, cycleBudget := leAt b 36 4, tbtBudget := leAt b 40 4,
    sampling := slice b 48 16, seed := leAt b 64 8, logTarget := leAt b 72 4, rangeFirst := leAt b 76 4,
    rangeCount := leAt b 80 4, mode := leAt b 84 1, targetId := leAt b 88 4,
    stop := if hs = 1 then slice b 128 588 else [],
    tokens := (List.range n).map fun i => leAt b (off + 4 * i) 4 }

/-- Tokens that the log is to hold: PROMPT_LEN, or L of a rebuild. -/
def admTarget (rebuild : Bool) (a : AdmRec) : Nat := if rebuild then a.logTarget else a.promptLen

/-- The fields of a rebuild, which an admission leaves at 0 or none (R232, R325). -/
def admRebuildOk (rebuild : Bool) (a : AdmRec) : Bool :=
  if rebuild then
    a.promptLen ≤ a.logTarget && a.logTarget - a.promptLen ≤ a.maxNew && a.mode ≤ 1 && (a.mode = 0 || a.targetId = 0xFFFFFFFF)
  else a.logTarget = 0 && a.rangeFirst = 0 && a.rangeCount = 0 && a.mode = 0 && a.targetId = 0xFFFFFFFF

/-- Check 4 of R213, with R232, R266, R294, R299 and R325. -/
def admFormatOk (s : State) (rebuild : Bool) (b : Bytes) (a : AdmRec) : Bool :=
  128 ≤ b.length && a.hasStop ≤ 1 && b.length = 128 + (if a.hasStop = 1 then 588 else 0) + 4 * a.count &&
    a.requestId ≠ 0 && 1 ≤ a.promptLen && a.promptLen ≤ 2097152 && a.maxNew ≠ 0 && a.promptLen + a.maxNew ≤ 2097152 &&
    a.count ≤ 2048 && a.count ≤ admTarget rebuild a && a.specMax ≤ 8 && leAt b 11 1 = 0 && leAt b 44 4 = 0 && leAt b 85 3 = 0 &&
    leAt b 92 36 = 0 && a.ownerQp < 2 ^ 20 && a.genDev < 4096 && a.cachePri < 4096 && a.cacheMir < 4096 &&
    samplingOk a.sampling && (a.hasStop = 0 || stopRecOk a.stop) && admRebuildOk rebuild a &&
    (a.promptLen + a.maxNew ≤ 262144 || (classRec s a.shareClass).attWindow ≠ 0)

/-- The CURRENT version of a withy. -/
def withyCurrent (s : State) (wid : Nat) : Option Nat :=
  (s.tier.withies.find? fun e => e.1 / 4096 = wid && e.2.state = 1).map fun e => e.1 % 4096

/-- The version that a pin takes, when R287 accepts it; 0 stands for the version of a request that pins nothing. -/
def admWithy (s : State) (rebuild : Bool) (w : Nat) : Option Nat :=
  if w / 4096 = 0xFFFFF then some 0
  else if w % 4096 = 0xFFF then withyCurrent s (w / 4096)
  else
    match withyHeld s w with
    | some v => if v.state = 1 || (rebuild && (v.state = 2 || v.state = 3)) then some (w % 4096) else none
    | none => none

/-- The epoch row of R213: the current epoch of the owning QP's composition, present and not fenced. -/
def admEpochOk (s : State) (a : AdmRec) (p : Pkt) : Bool :=
  let c := compOfQp s a.ownerQp
  p.epoch = s.sched.epoch && (tabGet s.sched.map c).isSome && !s.sched.fenced.contains c

/-- The checks before those of R213's own rows: its epoch row takes the place of step 9. -/
def admChecks (s : State) (r : OpRow) (p : Pkt) : Option (Nat × Nat) :=
  match firstFail s r p with
  | some (st, d) => if d = 9 && admEpochOk s (admRec p.payload) p then none else some (st, d)
  | none => if admEpochOk s (admRec p.payload) p then none else some (stEpochStale, 9)

/-- What identifies an admission when it is repeated: the opcode and the record with its stop record (R214). -/
def admKey (o : Nat) (p : Pkt) : Bytes := toLe 1 o ++ p.payload.take (128 + (if leAt p.payload 10 1 = 1 then 588 else 0))

/-- The manifest that an admission writes (R207, R215). -/
def admBerth (s : State) (rebuild : Bool) (o : Nat) (p : Pkt) (a : AdmRec) (ver stop : Nat) : Berth :=
  { id := { requestId := a.requestId, shareClass := a.shareClass, admitEpoch := p.epoch, withyId := a.withy / 4096, withyVer := ver,
            ownerQp := a.ownerQp, promptDev := s.dev.deviceId, genDev := a.genDev, cachePri := a.cachePri, cacheMir := a.cacheMir,
            seed := a.seed, sampling := a.sampling, specMax := a.specMax, stopSet := stop, maxNew := a.maxNew,
            promptLen := a.promptLen, cycleBudget := a.cycleBudget, ttftBudget := p.slack,
            tbtBudget := if a.tbtBudget = 0 then (classRec s a.shareClass).tbtDefault else a.tbtBudget }
    prog := { state := 1, rebuilt := rebuild, slack := p.slack, ttftUs := 0xFFFFFFFF, slackTick := p.now,
              firstOut := rebuild && decide (a.promptLen < a.logTarget),
              released := if rebuild then a.logTarget - a.promptLen else 0 }
    target := admTarget rebuild a
    restore := if rebuild && a.mode = 0 then some a.targetId else none
    range := if rebuild then some (a.rangeFirst, a.rangeCount) else none
    table := { layers := kvLayers s }
    pinned := a.withy / 4096 ≠ 0xFFFFF
    linkUs := linkUs s p.path
    adm := admKey o p }

/-- Take the root frame and the first log page of an admitted manifest (check 9 of R213). -/
def admFrames (b : Nat) (s : State) : Option State :=
  match takeManFrame b .root s with
  | none => none
  | some (f, s1) =>
    takeLogPages b 1 (modProg b (fun p => { p with pageRoot := frameDpa s f }) (modTable b (fun t => { t with root := some f }) s1))

/-- Admission proper: the manifest is written, its withy and stop set are referenced, and the tokens are logged (R215). -/
def enrol (rebuild : Bool) (o : Nat) (p : Pkt) (a : AdmRec) (ver stop b : Nat) (s : State) : State :=
  let s1 := incarnNext b s
  let s2 := modMan (fun m => { m with berths := tabPut m.berths b (admBerth s rebuild o p a ver stop) }) s1
  match admFrames b s2 with
  | none => failAt o p stNoPage 0x109 s
  | some s3 =>
    match logAppend b a.tokens s3 with
    | none => failAt o p stNoPage 0x109 s
    | some s4 =>
      let s5 := if a.hasStop = 1 then stopTake stop a.stop s4 else s4
      let s6 := if a.withy / 4096 = 0xFFFFF then s5 else withyPin (withyKey (a.withy / 4096) ver) s5
      logComplete b (answer o p (midOf s6 b) stOk 0 a.tokens.length true (bump MAN_ADMIT_CNT 1 s6))

/-- Checks 6 to 9 of R213, then admission. -/
def admChecked (rebuild : Bool) (o : Nat) (p : Pkt) (a : AdmRec) (s : State) : State :=
  let c := compOfQp s a.ownerQp
  match admWithy s rebuild a.withy with
  | none => failAt o p stWithyRetired 0x106 s
  | some ver =>
    match berthFree s with
    | none => failAt o p stNoBerth 0x107 s
    | some b =>
      if !berthAllowed s c then failAt o p stNoBerth 0x107 s
      else
        match (if a.hasStop = 1 then stopSlot s a.stop else some 0xFFFF) with
        | none => failAt o p stBusy 0x108 s
        | some stop => if !framesAllowed s c 2 then failAt o p stNoPage 0x109 s else enrol rebuild o p a ver stop b s

/-- Checks 4 and 5 of R213, with the repeated admission of R214, then the rest. -/
def admAct (rebuild : Bool) (o : Nat) (p : Pkt) (s : State) : State :=
  let a := admRec p.payload
  if !paramsZero p false false false false || !admFormatOk s rebuild p.payload a then failAt o p stFormat 0x104 s
  else
    match berthOfRequest s a.requestId with
    | none => admChecked rebuild o p a s
    | some b =>
      match berthAt s b with
      | none => s
      | some x =>
        if x.adm = admKey o p && x.id.ttftBudget = p.slack then answer o p (midOf s b) stOk 0 x.prog.logLen true s
        else failAt o p stFormat 0x105 s

/-- REQ.ADMIT (R213 to R215). -/
def reqAdmitFx (p : Pkt) (s : State) : State := receiveWith admChecks ⟨0x20, true, false, false, 8908, false⟩ p (admAct false 0x20 p) s
def execReqAdmit (p : Pkt) (s : State) : Host.Outcome State Fault Refusal := .next (reqAdmitFx p s)

/-- REQ.REBUILD (R232). -/
def reqRebuildFx (p : Pkt) (s : State) : State := receiveWith admChecks ⟨0x26, true, false, false, 8908, false⟩ p (admAct true 0x26 p) s
def execReqRebuild (p : Pkt) (s : State) : Host.Outcome State Fault Refusal := .next (reqRebuildFx p s)

/-! ## REQ.APPEND, CANCEL, QUERY, RELEASE (R210, R218) -/

/-- The tokens of a payload. -/
def payloadTokens (b : Bytes) : List Nat := (records 4 b).map leNat

/-- Append tokens to an ADMITTED manifest; its target bounds the log (R218). -/
def appendAct (p : Pkt) (b : Nat) (x : Berth) (s : State) : State :=
  let t := payloadTokens p.payload
  if x.prog.state ≠ 1 || x.target < x.prog.logLen + t.length then fail 0x21 p stFormat s
  else
    match logAppend b t s with
    | none => fail 0x21 p stNoPage s
    | some s1 => logComplete b (ok 0x21 p (x.prog.logLen + t.length) s1)

def reqAppendFx (p : Pkt) (s : State) : State :=
  receiveMan ⟨0x21, true, false, false, 8192, false⟩ p (paramsZero p false false false false && p.payload.length % 4 = 0) (appendAct p) s
def execReqAppend (p : Pkt) (s : State) : Host.Outcome State Fault Refusal := .next (reqAppendFx p s)

/-- REQ.CANCEL by state (R210): a request with rows ends at the next step boundary. -/
def cancelAct (p : Pkt) (b : Nat) (x : Berth) (s : State) : State :=
  let wait := modBerth b (fun y => { y with cancels := y.cancels ++ [p], prog := { y.prog with cancel := true } }) s
  if 8 ≤ x.prog.state then ok 0x24 p 0 s
  else if x.prog.state = 3 && x.xfer.isSome then fail 0x24 p stBusy s
  else if x.prog.state = 2 || x.prog.state = 4 then settle wait
  else manCancel b wait

def reqCancelFx (p : Pkt) (s : State) : State :=
  receiveMan ⟨0x24, true, true, false, 0, false⟩ p (paramsZero p false false false false) (cancelAct p) s
def execReqCancel (p : Pkt) (s : State) : Host.Outcome State Fault Refusal := .next (reqCancelFx p s)

/-- REQ.QUERY returns the manifest's image (R210). -/
def reqQueryFx (p : Pkt) (s : State) : State :=
  receiveMan ⟨0x25, true, true, false, 0, false⟩ p (paramsZero p false false false false) (fun _ x t => respond 0x25 p (manImage x) 0 t) s
def execReqQuery (p : Pkt) (s : State) : Host.Outcome State Fault Refusal := .next (reqQueryFx p s)

/-- REQ.RELEASE frees an ended manifest; the owner drops its remote pages (R210, R253). -/
def releaseAct (p : Pkt) (b : Nat) (x : Berth) (s : State) : State :=
  if x.prog.state < 8 then fail 0x27 p stBusy s
  else
    let s1 := if s.dev.personality = 2 then dropAt' x (compOf s x) (holdersOf s b x) s else s
    ok 0x27 p 0 (freeBerth b s1)

def reqReleaseFx (p : Pkt) (s : State) : State :=
  receiveMan ⟨0x27, true, true, false, 0, false⟩ p (paramsZero p false false false false) (releaseAct p) s
def execReqRelease (p : Pkt) (s : State) : Host.Outcome State Fault Refusal := .next (reqReleaseFx p s)

/-! ## REQ.DRAFT (R297) -/

/-- A draft for a GENERATING manifest waits until the request begins a token; a newer draft takes its place. -/
def draftAct (p : Pkt) (b : Nat) (x : Berth) (s : State) : State :=
  if x.id.specMax ≤ 1 || p.p1 = 0 || x.id.specMax - 1 < p.p1 || p.payload.length ≠ 4 * p.p1 then fail 0x28 p stFormat s
  else if x.prog.state ≠ 4 then fail 0x28 p stBusy s
  else
    let s1 := wasteDraft b s
    if p.p0 < x.prog.logLen then bump SPEC_STALE_CNT 1 (fail 0x28 p stBusy s1)
    else modBerth b (fun y => { y with draft := some (p, payloadTokens p.payload) }) s1

def reqDraftFx (p : Pkt) (s : State) : State :=
  receiveMan ⟨0x28, false, true, false, 8192, false⟩ p (paramsZero p true true false false) (draftAct p) s
def execReqDraft (p : Pkt) (s : State) : Host.Outcome State Fault Refusal := .next (reqDraftFx p s)

/-! ## REQ.HANDOFF: retarget (R210) -/

/-- A retarget replaces GEN_DEV, and sends the transfer of a manifest in HANDOFF. -/
def retargetAct (p : Pkt) (b : Nat) (x : Berth) (s : State) : State :=
  let set := modBerth b (fun y => { y with id := { y.id with genDev := p.p0 } }) s
  if x.prog.state = 2 then ok 0x22 p 0 set
  else if x.prog.state = 3 && x.xfer.isNone then transferCheck b (ok 0x22 p 0 (modBerth b (fun y => { y with voided := none }) set))
  else fail 0x22 p stBusy s

def reqHandoffRetargetFx (p : Pkt) (s : State) : State :=
  receiveMan ⟨0x22, true, true, false, 8389452, false⟩ p
    (p.payload.isEmpty && paramsZero p true false false false && decide (p.p0 < 4096)) (retargetAct p) s
def execReqHandoffRetarget (p : Pkt) (s : State) : Host.Outcome State Fault Refusal := .next (reqHandoffRetargetFx p s)

/-! ## REQ.HANDOFF: an incoming transfer (R221 to R224, R233, R236) -/


/-- The image keeps R207 and R209, and the message its parts (check 4 of R223). -/
def imageOk (b : Bytes) (i : ManId) (q : ManProg) : Bool :=
  256 ≤ b.length && q.state = 3 && i.requestId ≠ 0 && q.endCause ≤ 8 && i.withyVer ≤ 0xFFE && samplingOk i.sampling &&
    q.specDepth ≤ 8 && i.specMax ≤ 8 && (i.stopSet ≤ 1023 || i.stopSet = 0xFFFF) && i.maxNew ≠ 0 && 1 ≤ i.promptLen &&
    i.promptLen ≤ 2097152 && q.ttftMissed ≤ 1 && q.posHeld + 1 = q.logLen && i.promptLen ≤ q.logLen &&
    q.logLen ≤ 2097152 && b.length = 256 + (if i.stopSet = 0xFFFF then 0 else 588) + 4 * q.logLen &&
    (i.stopSet = 0xFFFF || stopRecOk (slice b 256 588))

/-- The parts of a received image; one from a 2.3 partner carries no draft fields (R331). -/
def imageParts (s : State) (p : Pkt) : ManId × ManProg × ManCnt :=
  let b := p.payload
  let old := match p.path with | .fabric qp _ _ => (match qpOf s qp with | some q => decide (q.evoest < 0x300) | none => false) | _ => false
  if old then ({ manIdOf b with specMax := 0 }, { manProgOf b with specDepth := 0 }, { manCntOf b with drafted := 0, accepted := 0 })
  else (manIdOf b, manProgOf b, manCntOf b)

/-- First page index, and open page index, that a transfer carries for POS_HELD positions (R221, R247). -/
def transferPages (s : State) (i : ManId) (q : ManProg) : Nat × Option Nat :=
  if q.posHeld = 0 then (0, none)
  else ((q.posHeld - (classRec s i.shareClass).window) / max 1 (pageP s), some (q.posHeld / max 1 (pageP s)))

/-- Frames that an image implies (check 9 of R223): window, open, overflow and log pages, the root and table frames. -/
def transferNeeds (s : State) (first : Nat) (openIdx : Option Nat) (q : ManProg) : Nat :=
  let n := kvLayers s
  let pages := match openIdx with
    | some o => (o + 1 - first) * n + divUp n (max 1 (pageP s / 8)) + tableFrames n (o + 1)
    | none => 0
  pages + divUp q.logLen logPageTokens + 1

/-- The keys that a transfer carries, as page-table entries. -/
def transferKeys (x : XferIn) : Nat := match x.openIdx with | some o => (o + 1 - x.first) * x.layers | none => 0

/-- Take a page frame of a transfer's reservation; the reservation guarantees room. -/
def takeReserved (b : Nat) (fr : Frame) (s : State) : Option (Nat × State) :=
  match tabGet s.man.xfers b with
  | none => none
  | some x =>
    if x.frames = 0 then none
    else (frameTake s false).map fun n =>
      (n, modMan (fun m =>
        { m with frames := tabPut m.frames n { fr with comp := x.comp }
                 xfers := tabPut m.xfers b { x with frames := x.frames - 1 } }) s)

/-- Take `n` frames of a use from a transfer's reservation. -/
def takeReservedN (b : Nat) (u : FrameUse) (rid : Nat) : Nat → State → List Nat × State
  | 0, s => ([], s)
  | n + 1, s =>
    match takeReserved b { use := u, requestId := rid, state := 1, owner := s.dev.deviceId, refs := 1 } s with
    | none => ([], s)
    | some (f, s1) => let r := takeReservedN b u rid n s1; (f :: r.1, r.2)

/-- A transfer's reference on its stop set is released. -/
def xferStopDrop (x : XferIn) (s : State) : State := if x.stopSet = 0xFFFF then s else stopDrop x.stopSet s

/-- An incoming transfer ends without being accepted: its frames and its berth are freed, and it is answered. -/
def xferEnd (b st : Nat) (s : State) : State :=
  match tabGet s.man.xfers b with
  | none => s
  | some x =>
    let fr := (s.man.frames.filter fun e => e.2.xfer = some b).map (·.1)
    fail 0x22 x.pkt st (xferStopDrop x (modMan (fun m => { m with xfers := tabDel m.xfers b })
      ((fr ++ x.ovf).foldl (fun t f => frameGone f t) s)))

/-- The place of a layer's overflow area among a manifest's overflow frames (R243). -/
def ovfPlace (s : State) (frames : List Nat) (layer : Nat) : Nat :=
  let k := max 1 (pageP s / 8)
  frameDpa s (frames.getD (layer / k) 0) + layer % k * ovfBytes (pageP s)

/-- Page indices that the attention pattern keeps for every row: below GP (R265). -/
def globalPages (s : State) (cls : Nat) : Nat := (classRec s cls).attGlobal / max 1 (pageP s)

/-- The page table of an accepted ordinary transfer (R236). -/
def acceptedTable (s : State) (x : XferIn) (root : Option Nat) (tables logs ovf : List Nat) : PageTable :=
  let gp := globalPages s x.id.shareClass
  let remote := (List.range (x.first * x.layers)).map fun e =>
    (e, ({ holderA := x.id.cachePri, holderB := x.id.cacheMir, state := 4, global := decide (e / max 1 x.layers < gp) } : PtEntry))
  let held := x.placed.map fun k =>
    let f := (frameAt s k.2).getD {}
    (k.1, ({ pageId := f.pageId, state := if f.state = 1 then 1 else 2, desc := k.2,
             global := decide (k.1 / max 1 x.layers < gp) } : PtEntry))
  { layers := x.layers, indices := (match x.openIdx with | some o => o + 1 | none => 0), logIds := [], logFrames := logs, root := root,
    tables := tables, ovf := ovf, entries := (remote ++ held).foldl (fun t e => tabSet t e.1 e.2 {}) [] }

/-- REQ.ACCEPT of an accepted handoff (R222, R528). -/
def sendAccept (b : Nat) (s : State) : State :=
  match berthAt s b with
  | none => s
  | some x =>
    match x.sender with
    | none => s
    | some (mid, dev) =>
      let tg := takeTag s
      let s1 := modBerth b (fun y => { y with acceptAt := none, acceptTag := tg.1 }) tg.2
      match chooseQp s dev (compOf s x) with
      | .qp n => sendMsgOn n { opcode := 0x23, tag := tg.1, mid := mid, p0 := midOf s b, slack := manBudget s b } (.accept b) s1
      | .wait => modFab (fun f => { f with waiting := f.waiting ++ [⟨dev, compOf s x, 0x23, mid, midOf s b, 0, 0, 0, manBudget s b, tg.1, [], .accept b⟩] }) s1
      | .failed _ => s1

/-- Every page of an ordinary transfer is placed: the manifest enters the reserved berth with the reference that check 8 took on
its stop set, and only the fields that R208 lists are rewritten (R208, R222). -/
def acceptNew (b : Nat) (x : XferIn) (s : State) : State :=
  let rid := x.id.requestId
  let r1 := takeReservedN b .root rid 1 s
  let r2 := takeReservedN b .table rid (match x.openIdx with | some o => tableFrames x.layers (o + 1) | none => 0) r1.2
  let r3 := takeReservedN b .log rid (divUp x.prog.logLen logPageTokens) r2.2
  let s5 := if x.id.withyId = 0xFFFFF then r3.2 else withyPin (withyKey x.id.withyId x.id.withyVer) r3.2
  let y : Berth :=
    { id := { x.id with genDev := s.dev.deviceId, stopSet := x.stopSet }
      prog := { x.prog with state := 4, await := true,
                            pageRoot := (match r1.1 with | f :: _ => frameDpa s f | [] => 0), logPage := r3.1.getLastD 0 }
      cnt := x.cnt, log := x.log, table := acceptedTable s5 x r1.1.head? r2.1 r3.1 x.ovf
      sender := some x.sender, missed := x.prog.deficit ≠ 0, pinned := x.id.withyId ≠ 0xFFFFF }
  let s6 := modMan (fun m => { m with berths := tabPut m.berths b y, xfers := tabDel m.xfers b }) s5
  sendAccept b (logStore r3.1 0 x.log s6)

/-- The received pages replace the local pages of a manifest in REBUILD (R233, R236). -/
def restoreTable (s : State) (t : PageTable) (x : XferIn) (first count : Nat) : PageTable :=
  let o := x.openIdx.getD 0
  let above := t.entries.filter fun e => e.1 / max 1 x.layers ≤ o
  let named := above.map fun e =>
    let i := e.1 / max 1 x.layers
    if first ≤ i && i < first + count then
      (e.1, { e.2 with holderA := x.id.cachePri, holderB := x.id.cacheMir, state := if e.2.desc = 0xFFFFFFFF then 4 else e.2.state })
    else e
  let t1 := x.placed.foldl (fun a k =>
    let f := (frameAt s k.2).getD {}
    let e := tabGetD a k.1 {}
    tabSet a k.1 { e with pageId := f.pageId, state := if f.state = 1 then 1 else 2, desc := k.2 } {}) named
  { t with entries := t1, indices := o + 1, ovf := x.ovf }

/-- The frames of a manifest that a restore frees: pages that are replaced, and pages above the received open pages. -/
def restoreFrees (t : PageTable) (x : XferIn) : List Nat :=
  let o := x.openIdx.getD 0
  ((t.entries.filter fun e => e.2.desc ≠ 0xFFFFFFFF && !(x.placed.any fun k => k.2 = e.2.desc) &&
    (decide (o < e.1 / max 1 x.layers) || x.placed.any fun k => k.1 = e.1)).map fun e => e.2.desc) ++
    t.ovf.filter fun f => !x.ovf.contains f

/-- Every page of a restoring transfer is placed: the manifest goes back to GENERATING with its counters and slack (R233). -/
def acceptRestore (b : Nat) (x : XferIn) (first count : Nat) (y : Berth) (s : State) : State :=
  let r := takeReservedN b .table x.id.requestId
    ((match x.openIdx with | some o => tableFrames x.layers (o + 1) | none => 0) - y.table.tables.length) s
  let s1 := (restoreFrees y.table x).foldl (fun t f => frameGone f t) r.2
  let s2 := xferStopDrop x (modMan (fun m => { m with xfers := tabDel m.xfers b }) s1)
  sendAccept b (enterState b 4 (modBerth b (fun y =>
    { y with table := { restoreTable s y.table x first count with tables := y.table.tables ++ r.1 }
             sender := some x.sender, prog := { y.prog with await := true, posHeld := x.prog.posHeld } }) s2))

/-- A frame of a transfer goes, and returns to its reservation (R223). -/
def reservedBack (b f : Nat) (s : State) : State :=
  modMan (fun m => { m with xfers := tabMod m.xfers b fun y => { y with frames := y.frames + 1 } }) (frameGone f s)

/-- The frames in which pages of a transfer are still arriving return to its reservation. -/
def stopArriving (b : Nat) (s : State) : State :=
  ((s.man.frames.filter fun e => e.2.xfer = some b && e.2.state = 4).map (·.1)).foldl (fun t f => reservedBack b f t) s

/-- Once every window page and open page is placed, the transfer is accepted (R222). The reservation ends. -/
def transferDone (b : Nat) (s : State) : State :=
  match tabGet s.man.xfers b with
  | none => s
  | some x =>
    if x.placed.length < transferKeys x then s
    else
      let t := stopArriving b s
      let fin := fun t => ok 0x22 x.pkt 0 (bump MAN_HANDOFF_IN_CNT 1 t)
      let clear := fun t => modMan (fun m => { m with frames := tabMap m.frames fun _ f => if f.xfer = some b then { f with xfer := none } else f }) t
      match x.restore with
      | none => fin (clear (acceptNew b x t))
      | some (bt, first, count) =>
        match berthAt t bt with
        | some y => if y.prog.state = 7 then fin (clear (acceptRestore b x first count y t)) else xferEnd b stFormat t
        | none => xferEnd b stFormat t

/-- Reserve the berth, the stop set and the frames of a transfer that passed its checks, and answer ST_PENDING (R206, R223). The
slack is charged the link's delay on arrival (R35, R208). An earlier transfer of the same request ends (log 53). -/
def transferTake (p : Pkt) (b : Nat) (i : ManId) (q : ManProg) (c : ManCnt) (stop : Option Bytes)
    (restore : Option (Nat × Nat × Nat)) (s0 : State) : State :=
  let s := match s0.man.xfers.find? fun e => e.2.id.requestId = i.requestId with | some e => xferEnd e.1 stTimeout s0 | none => s0
  let s1 := if restore.isNone then incarnNext b s else s
  let r := slackAfter { id := i, prog := q, cnt := c, missed := q.deficit ≠ 0 } (linkUs s p.path)
  let s2 := if restore.isSome then s1
    else if r.2 = 1 then bump MAN_TTFT_MISS_CNT 1 s1 else if r.2 = 2 then bump MAN_TBT_MISS_CNT 1 s1 else s1
  let pg := transferPages s i q
  let off := 256 + (match stop with | some _ => 588 | none => 0)
  let slot := (stop.bind (stopSlot s2)).getD 0xFFFF
  let x : XferIn :=
    { id := i, prog := { r.1.prog with slackTick := p.now }, cnt := r.1.cnt, log := payloadTokens (p.payload.drop off), stop := stop,
      sender := (p.p1, match p.path with | .fabric _ d _ => d | _ => 0xFFF), restore := restore,
      frames := transferNeeds s pg.1 pg.2 q, layers := kvLayers s, first := pg.1, openIdx := pg.2, ovf := [], placed := [],
      at' := s.tick, stopSet := slot, comp := compOfQp s i.ownerQp, pkt := p }
  let s3 := modMan (fun m => { m with xfers := tabPut m.xfers b x }) (if slot = 0xFFFF then s2 else stopTake slot (stop.getD []) s2)
  let o := takeReservedN b .overflow i.requestId (if pg.2.isSome then divUp x.layers (max 1 (pageP s / 8)) else 0) s3
  let s4 := modMan (fun m => { m with xfers := tabMod m.xfers b fun x => { x with ovf := o.1 } }) o.2
  transferDone b (pend 0x22 p s4)

/-- A refused transfer (R223). -/
def transferRefuse (p : Pkt) (st row : Nat) (s : State) : State := failAt 0x22 p st (0x100 + row) (bump MAN_HANDOFF_REFUSED_CNT 1 s)

/-- Checks 6 to 9 of R223, then the reservation. -/
def transferChecked (p : Pkt) (i : ManId) (q : ManProg) (c : ManCnt) (restore : Option (Nat × Nat × Nat)) (s : State) : State :=
  let stop := if i.stopSet = 0xFFFF then none else some (slice p.payload 256 588)
  let comp := compOfQp s i.ownerQp
  let pg := transferPages s i q
  let withyOk := i.withyId = 0xFFFFF || (match withyHeld s (withyKey i.withyId i.withyVer) with
    | some v => v.state = 1 || v.state = 2 || v.state = 3 | none => false)
  let stopOk := match stop with | some r => (stopSlot s r).isSome | none => true
  let berth := match restore with | some r => some r.1 | none => if berthAllowed s comp then berthFree s else none
  if !withyOk then transferRefuse p stWithyRetired 6 s
  else
    match berth with
    | none => transferRefuse p stNoBerth 7 s
    | some b =>
      if !stopOk then transferRefuse p stBusy 8 s
      else if !framesAllowed s comp (transferNeeds s pg.1 pg.2 q) then transferRefuse p stNoPage 9 s
      else transferTake p b i q c stop restore s

/-- Row 3 of R223 for a restore: R229 looks at the manifest that the header names. -/
def restoreStale (s : State) (p : Pkt) : Bool :=
  p.p0 = 1 && (match (berthNamed s p.mid).bind (berthAt s) with | some y => !manEpochOk s y p | none => false)

/-- Checks 3 to 5 of R223. -/
def transferAct (p : Pkt) (s : State) : State :=
  let m := imageParts s p
  if restoreStale s p then failAt 0x22 p stEpochStale 9 (bump MAN_HANDOFF_REFUSED_CNT 1 s)
  else if p.payload.isEmpty || !imageOk p.payload m.1 m.2.1 || !(decide (p.p0 ≤ 1)) || (p.p0 = 0 && (p.p2 ≠ 0 || p.p3 ≠ 0)) then transferRefuse p stFormat 4 s
  else if p.p0 = 0 then transferChecked p m.1 m.2.1 m.2.2 none s
  else
    match berthNamed s p.mid with
    | none => transferRefuse p stFormat 5 (bump MAN_STALE_ID_CNT 1 s)
    | some b =>
      match berthAt s b with
      | none => s
      | some y =>
        if y.prog.state ≠ 7 || y.id.requestId ≠ m.1.requestId || y.prog.logLen ≠ m.2.1.logLen then transferRefuse p stFormat 5 s
        else transferChecked p m.1 m.2.1 m.2.2 (some (b, p.p2, p.p3)) s

/-- The row of a transfer in R324. -/
def transferRow : OpRow := ⟨0x22, false, true, false, 8389452, false⟩

/-- Rows 1 to 3 of R223 are steps 7 to 9 of R312; a transfer that they refuse counts as refused. -/
def transferGate (p : Pkt) (s : State) : State :=
  match firstFail s transferRow p with
  | some (st, d) => failAt 0x22 p st d (bump MAN_HANDOFF_REFUSED_CNT 1 s)
  | none => transferAct p s

/-- An incoming transfer (R223). -/
def reqHandoffTransferFx (p : Pkt) (s : State) : State := receiveWith firstFail6 transferRow p (transferGate p) s
def execReqHandoffTransfer (p : Pkt) (s : State) : Host.Outcome State Fault Refusal := .next (reqHandoffTransferFx p s)

/-! ## REQ.ACCEPT and the answers (R222, R224) -/

/-- REQ.ACCEPT confirms the transfer outstanding towards the device it comes from, once its sending has begun (R28, R222). -/
def acceptAct (p : Pkt) (b : Nat) (x : Berth) (s : State) : State :=
  let src := match p.path with | .fabric _ d _ => d | _ => x.id.genDev
  if x.prog.state = 3 && (x.xfer.bind (·.at')).isSome && src = x.id.genDev then
    manEnd b 8 6 stOk x.prog.released [] (ok 0x23 p 0 (modBerth b (fun y => { y with xfer := none }) s))
  else fail 0x23 p (match x.voided with | some st => st | none => stTimeout) s

def reqAcceptFx (p : Pkt) (s : State) : State :=
  receiveMan ⟨0x23, true, false, false, 0, false⟩ p (paramsZero p true false false false) (acceptAct p) s
def execReqAccept (p : Pkt) (s : State) : Host.Outcome State Fault Refusal := .next (reqAcceptFx p s)

/-- A MANIFEST_ID of an answer that names no manifest of this device (R205). The commands REQ.HANDOFF and REQ.ACCEPT carry the
partner's MANIFEST_ID, and R273 and R277 take the exchanges of remote attention out (log 142). -/
def staleAnswer (s : State) (opcode mid : Nat) : Bool :=
  mid ≠ 0xFFFFFFFF && !([0x22, 0x23, 0x38, 0x39].contains opcode) && (berthNamed s mid).isNone

/-- A reply that answers an outstanding command of the device: RCRC, then the TAG, then the manifest it names, then its status
(R205, R317). -/
def onReply (r : Rep) (known : State → Bool) (act : Nat → State → State) (s0 : State) : State :=
  let s := atTick r.now s0
  if !alive s then s
  else if !r.rcrcOk then bump CMD_HCRC_ERR_CNT 1 s
  else if !known s then bump CMD_DISCARD_CNT 1 s
  else if staleAnswer s r.opcode r.mid then bump MAN_STALE_ID_CNT 1 s
  else if statusListed r.status then act r.status s
  else act stInternal (bump CMD_BAD_STATUS_CNT 1 s)

/-- A reply that ends the wait of a TAG arrives on this tick, and stands in the queue: the reply wins over the timeout (R317). -/
def replyArrives (s : State) (tag : Nat) : Bool :=
  let hit := fun r : Rep => r.tag = tag && r.rcrcOk && r.status ≠ stPending && decide (r.now ≤ s.tick)
  s.pending.any fun i =>
    match i with
    | .replyReceived r | .handoffTransferReply r | .acceptReply r | .pageMoveReply r | .pageDropReply r | .attPartialStatusReply r => hit r
    | .msaForwardReply r _ => hit r
    | _ => false

/-- The berth whose transfer carries a TAG. -/
def berthOfXfer (s : State) (tag : Nat) : Option Nat :=
  (s.man.berths.find? fun e => match e.2.xfer with | some x => x.tag = tag && x.qp ≠ 2 ^ 20 | none => false).map (·.1)

/-- The answer to a transfer: ST_PENDING sends the window and open pages; a failing status refuses it (R29, R221). A final
ST_OK changes nothing: REQ.ACCEPT confirms. -/
def handoffTransferReplyFx (r : Rep) (s : State) : State :=
  onReply r (fun t => (berthOfXfer t r.tag).isSome) (fun st t =>
    match berthOfXfer t r.tag with
    | none => t
    | some b => if st = stPending then sendWindow b t else if st = stOk then t else handoffRefused b st t) s
def execHandoffTransferReply (r : Rep) (s : State) : Host.Outcome State Fault Refusal := .next (handoffTransferReplyFx r s)

/-- The berth whose REQ.ACCEPT carries a TAG. -/
def berthOfAccept (s : State) (tag : Nat) : Option Nat :=
  (s.man.berths.find? fun e => e.2.prog.await && e.2.acceptTag = tag).map (·.1)

/-- The handoff of a berth is void while its manifest is GENERATING or in REBUILD (R211). -/
def voidAwait (b : Nat) (s : State) : State :=
  match berthAt s b with
  | some x => if x.prog.await && (x.prog.state = 4 || x.prog.state = 7) then manVoid b s else s
  | none => s

/-- The answer to REQ.ACCEPT (R211, R222). -/
def acceptReplyFx (r : Rep) (s : State) : State :=
  onReply r (fun t => (berthOfAccept t r.tag).isSome) (fun st t =>
    match berthOfAccept t r.tag with
    | none => t
    | some b => if st = stPending then t else if st = stOk then modProg b (fun p => { p with await := false }) t else voidAwait b t) s
def execAcceptReply (r : Rep) (s : State) : Host.Outcome State Fault Refusal := .next (acceptReplyFx r s)

/-- Ticks of MAN_HANDOFF_TMO. -/
def handoffTmo (s : State) : Nat := msTicks (regField s MAN_HANDOFF_TMO 9 0)

/-- REQ.ACCEPT for a berth arrives on this tick, and waits in the queue: the arrival wins over the timeout (R224). -/
def acceptArrives (s : State) (b : Nat) : Bool :=
  s.pending.any fun i => match i with | .reqAccept p => p.mid = midOf s b && decide (p.now ≤ s.tick) | _ => false

/-- The time of MAN_HANDOFF_TMO from a sending has passed. -/
def handoffLate (s : State) (sent : Option Nat) : Bool := sentBefore sent (handoffTmo s) s.tick

/-- A transfer without REQ.ACCEPT in time counts as refused with ST_TIMEOUT (R224). -/
def handoffTimeoutFx (b now : Nat) (s0 : State) : State :=
  let s := atTick now s0
  match (berthAt s b).bind (·.xfer) with
  | some x =>
    if alive s && handoffLate s x.at' && !acceptArrives s b && !replyArrives s x.tag then handoffRefused b stTimeout (bump MAN_HANDOFF_TMO_CNT 1 s) else s
  | none => s
def execHandoffTimeout (berth now : Nat) (s : State) : Host.Outcome State Fault Refusal := .next (handoffTimeoutFx berth now s)

/-- A generation node whose REQ.ACCEPT is not confirmed in time voids the handoff (R224). -/
def awaitConfirmTimeoutFx (b now : Nat) (s0 : State) : State :=
  let s := atTick now s0
  match berthAt s b with
  | some x =>
    if alive s && x.prog.await && (x.prog.state = 4 || x.prog.state = 7) && handoffLate s x.acceptAt && !replyArrives s x.acceptTag then
      manVoid b (bump MAN_HANDOFF_TMO_CNT 1 s) else s
  | none => s
def execAwaitConfirmTimeout (berth now : Nat) (s : State) : Host.Outcome State Fault Refusal := .next (awaitConfirmTimeoutFx berth now s)

/-- A reserved berth whose pages have not all arrived in time is freed (R224). -/
def reservedBerthTimeoutFx (b now : Nat) (s0 : State) : State :=
  let s := atTick now s0
  match tabGet s.man.xfers b with
  | some x =>
    if alive s && decide (x.at' + handoffTmo s ≤ now) then
      xferEnd b stTimeout (bump MAN_HANDOFF_REFUSED_CNT 1 (bump MAN_HANDOFF_TMO_CNT 1 s)) else s
  | none => s
def execReservedBerthTimeout (berth now : Nat) (s : State) : Host.Outcome State Fault Refusal := .next (reservedBerthTimeoutFx berth now s)

/-! ## The berth window (R235) -/

/-- A write of MAN_BERTH_SEL copies the selected berth's manifest into MAN_BERTH_IMG. -/
def manBerthSelWriteFx (v : Nat) (s : State) : State :=
  if !hostHeard s then s
  else
    let s1 := regSet MAN_BERTH_SEL v s
    let img := match berthAt s1 (regField s1 MAN_BERTH_SEL 13 0) with | some x => manImage x | none => zeros 256
    putWords (MAN_BERTH_IMG 0) img s1
def execManBerthSelWrite (value : Nat) (s : State) : Host.Outcome State Fault Refusal := .next (manBerthSelWriteFx value s)

end Sys2Proof.Machine
end

