-- ==== Sys2Proof/Machine/Pages.lean ====
section
/-! DEFINITION. The page commands and timers: arriving pages, drops, mirroring, demotion and swap (R236 to R263, R324, R326,
R332, R333). -/

namespace Sys2Proof.Machine

/-! ## Arriving pages (R251) -/

/-- A packet comes from a partner that negotiated Evoest 2.3 (R331). -/
def oldPartner (s : State) (p : Pkt) : Bool :=
  match p.path with
  | .fabric qp _ _ => (match qpOf s qp with | some q => decide (q.evoest < 0x300) | none => false)
  | _ => false

/-- A page packet of a 2.3 partner while CMD_COMPAT.TRANSCODE is 0 (R333). -/
def noTranscode (s : State) (p : Pkt) : Bool := oldPartner s p && !bit (regGet s CMD_COMPAT) 0

/-- The device a packet comes from; 0xFFF on a path that is not the fabric. -/
def srcOf (p : Pkt) : Nat := match p.path with | .fabric _ d _ => d | _ => 0xFFF

/-- A packet of a per-packet opcode fails by the opcode's own rule: it is answered once, and the rest of its message, when any is
to come, is discarded (R314). -/
def failMsg (r : OpRow) (p : Pkt) (st : Nat) (s : State) : State :=
  let t := fail r.code p st s
  if t.msgs.any fun m => m.key = msgKey r.code p then startDiscard r p t else t

/-- An ARRIVING frame goes; one of a transfer returns to its reservation (R223, R251). -/
def arrivingGone (f : Nat) (s : State) : State :=
  match frameAt s f with
  | none => s
  | some x =>
    match x.xfer with
    | some b => reservedBack b f s
    | none => frameGone f s

/-- An uncorrected error frees an ARRIVING frame; the PAGE.SEAL of its key is answered ST_CRC (R255). -/
def arrivingLost (f : Nat) (s : State) : State :=
  match frameAt s f with
  | none => s
  | some x => modMan (fun m => { m with arrivalsLost := (m.arrivalsLost ++ [(x.requestId, x.index, x.layer)]).eraseDups }) (arrivingGone f s)

/-- A key's lost arrival is forgotten: its page is sent afresh, or its PAGE.SEAL has been answered. -/
def arrivalAnew (key : Nat × Nat × Nat) (s : State) : State :=
  modMan (fun m => { m with arrivalsLost := m.arrivalsLost.filter (· ≠ key) }) s

/-- The transfer that a key belongs to. -/
def xferOfKey (s : State) (rid index : Nat) : Option Nat :=
  (s.man.xfers.find? fun e => e.2.id.requestId = rid && decide (e.2.first ≤ index) &&
    (match e.2.openIdx with | some o => decide (index ≤ o) | none => false)).map (·.1)

/-- The page-table entry of a key of a transfer, and the frame in which its page has been placed. -/
def xferEntry (y : XferIn) (index layer : Nat) : Nat := index * y.layers + layer
def xferFrame (y : XferIn) (index layer : Nat) : Option Nat := tabGet y.placed (xferEntry y index layer)

/-- A page of a transfer that is sent again when nothing of the reservation is left arrives in the frame that holds it (R223). -/
def retakePlaced (b index layer : Nat) (fr : Frame) (s : State) : Option (Nat × State) :=
  match tabGet s.man.xfers b with
  | none => none
  | some x => (xferFrame x index layer).map fun g =>
      (g, modMan (fun m =>
        { m with frames := tabPut m.frames g { fr with comp := x.comp }
                 xfers := tabPut m.xfers b { x with placed := x.placed.filter fun k => k.1 ≠ xferEntry x index layer } }) s)

/-- Take the ARRIVING frame of a key's first PAGE.PUT: from its transfer's reservation, else HBM3E, else LPDDR5X (R223, R251,
R401, log 45). -/
def takeArriving (p : Pkt) (rid layer index partner : Nat) (s : State) : Option (Nat × State) :=
  let fr : Frame := { requestId := rid, layer := layer, index := index, partner := partner, state := 4, src := srcOf p, refs := 1 }
  match xferOfKey s rid index with
  | some b =>
    let o := match tabGet s.man.xfers b with | some x => ovfPlace s x.ovf layer | none => 0
    let fx := { fr with xfer := some b, ovfDpa := o }
    match takeReserved b fx s with
    | some r => some r
    | none => retakePlaced b index layer fx s
  | none =>
    let c := match berthOfRequest s rid with | some b => compOf s ((berthAt s b).getD {}) | none => arrivalComp s p.path
    match takeFrame c fr s with
    | some r => some r
    | none => takeLpx c fr s

/-! ## Demotion (R254) -/

/-- Whether page `a` is demoted before `b`: the older service, then the lower PAGE_ID. -/
def demoteBefore (a b : Nat × Frame) : Bool :=
  decide (a.2.served < b.2.served) || (a.2.served = b.2.served && decide (a.2.pageId < b.2.pageId))

/-- The sealed HBM3E page to demote next. -/
def demoteNext (s : State) : Option Nat :=
  ((s.man.frames.filter fun e => e.2.use = .page && e.2.state = 2 && !e.2.lpx && e.2.demote.isNone && e.2.requestId ≠ 0).foldl
    (fun m e => match m with | some x => if demoteBefore e x then some e else some x | none => some e) none).map (·.1)

/-- HBM3E page frames that are free or that a demotion in progress will free. -/
def framesSoon (s : State) : Nat := framesFree s + (s.man.frames.filter fun e => e.2.demote.isSome).length

/-- Start demotions until HIGH_PCT of the frames are free or soon free; `fuel` bounds them. -/
def demoteMany : Nat → State → State
  | 0, s => s
  | fuel + 1, s =>
    if regField s LGT_DEMOTE 15 8 * framesInService s ≤ 100 * framesSoon s then s
    else
      match demoteNext s with
      | none => s
      | some f =>
        match takeLpx ((frameAt s f).getD {}).comp { use := .page, state := 4 } s with
        | none => s
        | some (g, s1) => demoteMany fuel (modFrame f (fun x => { x with demote := some g }) s1)

/-- A cache node whose free HBM3E page frames fall below LOW_PCT demotes pages. -/
def demoteCheck (s : State) : State :=
  if s.dev.personality = 3 && decide (100 * framesSoon s < regField s LGT_DEMOTE 7 0 * framesInService s) then
    demoteMany (s.man.frames.length + 1) s
  else s

/-- Write the demoted copy: coded where the coded form fits (R182). -/
def demoteWrite (f g : Nat) (x : Frame) (s : State) : State :=
  let c := if x.coded then (some (storedBytes s f x), s) else codePage s f (rawPage s f x)
  let b := match c.1 with | some b => b | none => rawPage s f x
  let y : Frame := { x with lpx := true, coded := c.1.isSome, crc := crc32c b, storedLen := b.length / 16, demote := none, refs := 1 }
  modMan (fun m => { m with frames := tabPut m.frames g y }) (memStore (frameDpa s g) b c.2)

/-- Moves and copies of a page go on from its new frame. -/
def reframe (f g : Nat) (s : State) : State :=
  modMan (fun m =>
    { m with moves := tabMap m.moves fun _ y => if y.frame = f then { y with frame := g } else y
             mirrors := tabMap m.mirrors fun _ y => { y with todo := y.todo.map fun c => if c.frame = f then { c with frame := g } else c } }) s

/-- A demotion is verified: references move to the LPDDR5X copy and the HBM3E copy is freed; one that fails its check frees
the new frame (R158, R254). -/
def demotionVerifiedFx (f now : Nat) (verified : Bool) (s0 : State) : State :=
  let s := atTick now s0
  if !alive s then s
  else
    match frameAt s f with
    | none => s
    | some x =>
      match x.demote with
      | none => s
      | some g =>
        let s1 := modFrame f (fun y => { y with demote := none }) s
        demoteCheck (if verified then
          bump LGT_DEMOTED_CNT 1 (frameUnref f (modFrame f (fun y => { y with requestId := 0 }) (reframe f g (demoteWrite f g x s1))))
        else modMan (fun m => { m with frames := tabDel m.frames g }) s1)
def execDemotionVerified (frame now : Nat) (verified : Bool) (s : State) : Host.Outcome State Fault Refusal :=
  .next (demotionVerifiedFx frame now verified s)

/-! ## PAGE.PUT (R251, R324) -/

/-- The row of PAGE.PUT in R324. -/
def putRow : OpRow := ⟨0x30, true, true, true, 135168, true⟩

/-- Place the bytes of a packet in its frame; an FP8 page, and what lies beyond the frame, is staged (R332). -/
def putBytes (f off : Nat) (fp8 : Bool) (b : Bytes) (s : State) : State :=
  if fp8 then modFrame f (fun x => { x with stage := placeAt x.stage off b }) s
  else
    let inside := b.take (frameBytes - off)
    let beyond := b.drop (frameBytes - off)
    let s1 := if inside.isEmpty then s else memStore (frameDpa s f + off) inside s
    if beyond.isEmpty then s1 else modFrame f (fun x => { x with stage := placeAt x.stage (max off frameBytes - frameBytes) beyond }) s1

/-- Place a PAGE.PUT packet in the key's ARRIVING frame, taking one for its first packet. The rest of a message whose frame an
uncorrected error has freed is placed nowhere (R255). -/
def putAct (p : Pkt) (s : State) : State :=
  let rid := p.p0 + 2 ^ 32 * p.p1
  let layer := p.p2 % 256
  let partner := p.p2 / 256
  if 2 ^ 20 ≤ p.p2 then failMsg putRow p stFormat s
  else if noTranscode s p then failMsg putRow p stVersion s
  else if s.man.arrivalsLost.contains (rid, p.p3, layer) && p.offset ≠ 0 then ok 0x30 p 0 s
  else
    match (match arrivingOf s rid p.p3 layer with
           | some f => some (f, s)
           | none => takeArriving p rid layer p.p3 partner (arrivalAnew (rid, p.p3, layer) s)) with
    | none => failMsg putRow p stNoPage s
    | some (f, s1) =>
      let s2 := putBytes f p.offset (oldPartner s p) p.payload s1
      let s3 := modFrame f (fun x =>
        { x with partner := partner, src := srcOf p, putAt := s.tick, placed := (p.offset, p.payload.length) :: x.placed }) s2
      demoteCheck (ok 0x30 p 0 (bump (LGT_REG_BYTES_IN (frameRegion s f)) p.payload.length s3))

def pagePutFx (p : Pkt) (s : State) : State := receive putRow p (putAct p) s
def execPagePut (p : Pkt) (s : State) : Host.Outcome State Fault Refusal := .next (pagePutFx p s)

/-! ## PAGE.SEAL (R251, R326) -/

/-- Insert a placed range by its start. -/
def rangeInsert (r : Nat × Nat) : List (Nat × Nat) → List (Nat × Nat)
  | [] => [r]
  | x :: t => if r.1 ≤ x.1 then r :: x :: t else x :: rangeInsert r t

/-- Bytes placed from the start without a gap. -/
def placedTo (l : List (Nat × Nat)) : Nat :=
  (l.foldr rangeInsert []).foldl (fun n r => if r.1 ≤ n then max n (r.1 + r.2) else n) 0

/-- One beyond the last byte placed. -/
def placedEnd (l : List (Nat × Nat)) : Nat := l.foldl (fun n r => max n (r.1 + r.2)) 0

/-- The first `n` bytes of an arriving page, and whether any carries poison. -/
def arrivedBytes (s : State) (f : Nat) (x : Frame) (fp8 : Bool) (n : Nat) : Bytes × Bool :=
  if fp8 then (x.stage.take n, false)
  else (memRead s (frameDpa s f) (min n frameBytes) ++ x.stage.take (n - frameBytes), worst (memTags s (frameDpa s f) (min n frameBytes)) ≠ 0)

/-- The fields of a seal record are in range: the stored length is that of its form (R326, R332). -/
def sealOk (s : State) (fp8 : Bool) (b : Bytes) : Bool :=
  let fl := leAt b 21 1
  let opn := bit fl 1
  let len := leAt b 24 2
  b.length = 32 && !bit fl 3 && decide (leAt b 22 2 < 4096) && !(opn && bit fl 0) && !(fp8 && (bit fl 0 || opn)) &&
    (if opn then leAt b 8 8 = 0 && fl / 16 ≤ 8 && leAt b 26 2 ≤ pageP s + 8 && 16 * len = frameBytes + ovfBytes (pageP s)
     else fl / 16 = 0 && leAt b 26 2 = 0 && (if fp8 then len = 8448 else if bit fl 0 then decide (512 < len) && len ≤ 4608 else len = 4608))

/-- A coded page's container is valid and holds a page's elements (R191). -/
def pageContainerOk (b : Bytes) : Bool :=
  let c := b.take (b.length - 8192)
  ctValid c && ctFormat c = 0x7 && ctSymbols c = 131072

/-- The copy of a verified page takes effect: any earlier copy of the key is freed, and a manifest's entry that named it names
the new one (R251). -/
def sealedIn (f rid index layer : Nat) (s : State) : State :=
  let old := (s.man.frames.filter fun e => e.1 ≠ f && isSealed e.2 && e.2.xfer.isNone && e.2.requestId = rid && e.2.index = index && e.2.layer = layer).map (·.1)
  let s1 := match berthOfRequest s rid with
    | none => s
    | some b =>
      match berthAt s b with
      | none => s
      | some x =>
        let e := ptIndex x.table index layer
        let t := ptGet x.table e
        if old.contains t.desc then modPt b e (fun t => { t with desc := f }) s
        else if t.state = 4 && t.desc = 0xFFFFFFFF && ((frameAt s f).getD {}).xfer.isNone then modPt b e (fun t => { t with state := 5, desc := f }) s
        else s
  old.foldl (fun t g => frameUnref g t) s1

/-- What a verified PAGE.SEAL makes of its frame. -/
def sealFrame (s : State) (p : Pkt) (f : Nat) (x : Frame) (b : Bytes) : State :=
  let q := p.payload
  let fl := leAt q 21 1
  let opn := bit fl 1
  let fp8 := oldPartner s p
  let page := if fp8 then fromFp8Page (escIgnore s) b else b
  let s1 := if fp8 then bump CMD_XCODE_IN_CNT 1 (memStore (frameDpa s f) page s) else s
  let s2 := if opn then memStore x.ovfDpa (b.drop frameBytes) s1 else s1
  let y : Frame :=
    { x with pageId := leAt q 8 8, state := if opn then 1 else 2, coded := bit fl 0, global := bit fl 2, owner := leAt q 22 2,
             crc := if opn then 0 else crc32c page, storedLen := if opn then 4608 else page.length / 16,
             committed := leAt q 26 2, spec := fl / 16, placed := [], stage := [], ovfDpa := if opn then x.ovfDpa else 0 }
  modFrame f (fun _ => y) s2

/-- The key of an arrived page of a transfer is placed; the frame of an earlier copy returns to the reservation (R223, R251). -/
def xferPlaced (f : Nat) (x : Frame) (s : State) : State :=
  match x.xfer with
  | none => s
  | some b =>
    let s1 := match (tabGet s.man.xfers b).bind fun y => xferFrame y x.index x.layer with
      | some g => if g = f then s else reservedBack b g s
      | none => s
    transferDone b (modMan (fun m => { m with xfers := tabMod m.xfers b fun y =>
      let e := xferEntry y x.index x.layer
      { y with placed := (e, f) :: y.placed.filter fun k => k.1 ≠ e } }) s1)

/-- PAGE.SEAL of a key with an ARRIVING frame: complete, then CRC, then the container (R251). -/
def sealArrived (p : Pkt) (f : Nat) (x : Frame) (s : State) : State :=
  let q := p.payload
  let n := 16 * leAt q 24 2
  let fp8 := oldPartner s p
  let b := arrivedBytes s f x fp8 n
  let bad := fun st t => fail 0x32 p st (arrivingGone f t)
  if placedTo x.placed < n || n < placedEnd x.placed then bad stFormat s
  else if bit (leAt q 21 1) 1 && x.xfer.isNone then bad stFormat s
  else if b.2 || crc32c b.1 ≠ leAt q 28 4 then bad stCrc (bump LGT_CRC_FAIL_CNT 1 s)
  else if bit (leAt q 21 1) 0 && !pageContainerOk b.1 then bad stFormat s
  else
    xferPlaced f x (ok 0x32 p 0 (inputArrived (frameDpa s f) frameBytes
      (sealedIn f x.requestId x.index x.layer (bump LGT_PUT_IN_CNT 1 (sealFrame s p f x b.1)))))

/-- PAGE.SEAL. -/
def sealAct (p : Pkt) (s : State) : State :=
  let q := p.payload
  if noTranscode s p then fail 0x32 p stVersion s
  else
    let key := (leAt q 0 8, leAt q 16 4, leAt q 20 1)
    match arrivingOf s key.1 key.2.1 key.2.2 with
    | none =>
      if q.length ≠ 32 then fail 0x32 p stFormat s
      else if s.man.arrivalsLost.contains key then fail 0x32 p stCrc (bump LGT_CRC_FAIL_CNT 1 (arrivalAnew key s))
      else fail 0x32 p stNoPage s
    | some f =>
      match frameAt s f with
      | none => s
      | some x => if sealOk s (oldPartner s p) q then sealArrived p f x s else fail 0x32 p stFormat (arrivingGone f s)

def pageSealFx (p : Pkt) (s : State) : State :=
  receive ⟨0x32, true, true, true, 32, false⟩ p (orFormat (paramsZero p false false false false) 0x32 p (sealAct p)) s
def execPageSeal (p : Pkt) (s : State) : Host.Outcome State Fault Refusal := .next (pageSealFx p s)

/-- An ARRIVING frame whose PAGE.SEAL has not come within LGT_MOVE_TMO of its last packet is freed (R251). -/
def arrivingFrameTimeoutFx (f now : Nat) (s0 : State) : State :=
  let s := atTick now s0
  match frameAt s f with
  | some x => if alive s && x.state = 4 && !x.placed.isEmpty && decide (x.putAt + moveTmoTicks s ≤ now) then arrivingGone f s else s
  | none => s
def execArrivingFrameTimeout (frame now : Nat) (s : State) : Host.Outcome State Fault Refusal := .next (arrivingFrameTimeoutFx frame now s)

/-! ## PAGE.GET (R250) -/

/-- Post a message as a packet entry of a ring's completion ring. -/
def ringPacket (n seq : Nat) (o : MsgOut) (s : State) : State :=
  let pk : TxPkt := { format := 3, minor := 2, opcode := o.opcode, flags := o.flags, tag := o.tag, mid := o.mid, epoch := s.sched.epoch,
                      pd := sqPd s n, offset := 0, p0 := o.p0, p1 := o.p1, p2 := o.p2, p3 := o.p3, slack := budgetLeft o.slack s.tick, seq := seq,
                      payload := o.payload }
  cqPackets (sqCq s n) pk s

/-- Send a held page on a ring as packet entries: PAGE.PUT and PAGE.SEAL. -/
def getOnRing (n f : Nat) (x : Frame) (s : State) : State :=
  let m := moveBytes s f x 0x302
  match m.1 with
  | none => s
  | some (b, coded) =>
    let mv : Move := { frame := f, why := .get, berth := none, comp := x.comp, tgts := [], dropped := false }
    let t1 := takeTag m.2
    let t2 := takeTag t1.2
    ringPacket n 1 { opcode := 0x32, tag := t2.1, payload := sealBytes s mv x { noTgt with sent := (coded, crc32c b, b.length / 16) } }
      (ringPacket n 0 { opcode := 0x30, tag := t1.1, p0 := x.requestId % 2 ^ 32, p1 := x.requestId / 2 ^ 32,
                        p2 := x.layer + 256 * 0xFFF, p3 := x.index, payload := b } t2.2)

/-- The holder answers with the page (R250). -/
def getAct (p : Pkt) (s : State) : State :=
  match copyOf s (p.p0 + 2 ^ 32 * p.p1) p.p3 (p.p2 % 256) with
  | none => fail 0x31 p stNoPage s
  | some f =>
    let x := (frameAt s f).getD {}
    match p.path with
    | .fabric _ d _ => startMove f .get none x.comp [d] (ok 0x31 p 0 s)
    | .ring n => getOnRing n f x (ok 0x31 p 0 s)
    | _ => ok 0x31 p 0 s

def pageGetFx (p : Pkt) (s : State) : State :=
  receive ⟨0x31, true, true, true, 0, false⟩ p (orFormat (decide (p.p2 < 256)) 0x31 p (getAct p)) s
def execPageGet (p : Pkt) (s : State) : Host.Outcome State Fault Refusal := .next (pageGetFx p s)

/-! ## PAGE.DROP (R253) -/

/-- A held copy, or one arriving, that a drop may name: not a manifest's own page, nor one of a transfer. -/
def droppable (s : State) (x : Frame) : Bool :=
  x.use = .page && (isSealed x || x.state = 4) && x.xfer.isNone && (berthOfRequest s x.requestId).isNone && x.requestId ≠ 0

/-- A copy that is MOVING is dropped: its move ends, and the drop goes on to the move's targets. -/
def dropMoves (f : Nat) (x : Frame) (s : State) : State :=
  let ms := s.man.moves.filter fun e => e.2.frame = f
  let s1 := modMan (fun m => { m with moves := m.moves.filter fun e => e.2.frame ≠ f }) s
  let s2 := ms.foldl (fun t e => (e.2.tgts.filter fun g => 1 ≤ g.st && g.st ≤ 3).foldl (fun u g => startDrop g.dev x.requestId [(x.index, x.layer)] e.2.comp u) t) s1
  copyJobs (ms.foldl (fun t e => match e.2.why with | .mirror j => copyDone j t | _ => t) s2)

/-- Drop one copy: its reference goes, and the copy is freed when none is left. -/
def dropCopy (f : Nat) (s : State) : State :=
  match frameAt s f with
  | none => s
  | some x =>
    let moving := fun j => s.man.moves.any fun e => e.2.frame = f && e.2.why = .mirror j
    let s1 := modMan (fun m =>
      { m with mirrors := tabMap m.mirrors fun j y => if moving j then y else { y with todo := y.todo.filter fun d => d.frame ≠ f } }) s
    let s2 := frameUnref f (dropMoves f x s1)
    if (frameAt s2 f).isNone then bump LGT_DROP_CNT 1 s2 else s2

/-- Frames that a PAGE.DROP names. -/
def dropNames (s : State) (p : Pkt) : List Nat :=
  let held := s.man.frames.filter fun e => droppable s e.2
  if p.p0 = 0 then (held.filter fun e => e.2.requestId = leAt p.payload 0 8).map (·.1)
  else
    let keys := (records 16 p.payload).map fun k => (leAt k 0 8, leAt k 8 4, leAt k 12 1)
    (held.filter fun e => keys.contains (e.2.requestId, e.2.index, e.2.layer)).map (·.1)

/-- The layout of a PAGE.DROP (R324). -/
def dropOk (p : Pkt) : Bool :=
  paramsZero p true false false false &&
    (if p.p0 = 0 then p.payload.length = 8
     else p.p0 = 1 && p.payload.length % 16 = 0 && (records 16 p.payload).all fun k => leAt k 13 3 = 0)

def pageDropFx (p : Pkt) (s : State) : State :=
  receive ⟨0x34, true, true, true, 8192, false⟩ p
    (orFormat (dropOk p) 0x34 p fun t => ok 0x34 p 0 ((dropNames t p).foldl (fun u f => dropCopy f u) t)) s
def execPageDrop (p : Pkt) (s : State) : Host.Outcome State Fault Refusal := .next (pageDropFx p s)

/-! ## PAGE.MIRROR (R256 to R258) -/

/-- Copy order: REQUEST_ID, then page index, then layer. -/
def copyBefore (a b : CopyItem) : Bool :=
  decide (a.requestId < b.requestId) || (a.requestId = b.requestId &&
    (decide (a.index < b.index) || (a.index = b.index && decide (a.layer < b.layer))))
def copyInsert (a : CopyItem) : List CopyItem → List CopyItem
  | [] => [a]
  | b :: t => if copyBefore a b then a :: b :: t else b :: copyInsert a t

/-- Held copies that satisfy `q`, in copy order. -/
def copiesBy (s : State) (q : Frame → Bool) : List CopyItem :=
  ((s.man.frames.filter fun e => isSealed e.2 && e.2.requestId ≠ 0 && q e.2).map fun e =>
    ⟨e.2.requestId, e.2.index, e.2.layer, e.1, e.2.owner⟩).foldr copyInsert []

/-- Start a mirror job with its ST_PENDING; a job with nothing to do ends at once. -/
def mirrorStart (p : Pkt) (y : MirrorJob) (after : Nat → State → State) (s : State) : State :=
  let j := tabGap s.man.mirrors 0
  mirrorFinish j (after j (pend 0x33 p (modMan (fun m => { m with mirrors := tabPut m.mirrors j y }) s)))

/-- Mode 0: copy to the spare every page whose PARTNER is the dead holder. -/
def copyAct (p : Pkt) (s : State) : State :=
  let d := p.p1 % 4096
  mirrorStart p { close := false, dead := d, spare := p.p1 / 4096, comp := arrivalComp s p.path, todo := copiesBy s fun f => f.partner = d,
                  deadSpare := false, pkt := p } (fun _ => copyJobs) s

/-- A row of PAGE.MIRROR serves its own mode; a reserved mode is rejected wherever it arrives. -/
def mirrorOk (p : Pkt) (mode : Nat) : Bool := p.p0 = mode && decide (p.p1 < 2 ^ 24) && p.p3 = 0

def pageMirrorCopyFx (p : Pkt) (s : State) : State :=
  receive ⟨0x33, false, false, true, 131104, false⟩ p
    (orFormat (mirrorOk p 0 && p.p2 = 0 && p.payload.isEmpty) 0x33 p (copyAct p)) s
def execPageMirrorCopy (p : Pkt) (s : State) : Host.Outcome State Fault Refusal := .next (pageMirrorCopyFx p s)

/-- The place behind a run of copies that follow one another without a gap, from place `k` on; `top` is the last layer. -/
def runEnd (top : Nat) : List CopyItem → Nat × Nat → Nat × Nat
  | [], k => k
  | c :: t, k => if (c.index, c.layer) = k then runEnd top t (if c.layer = top then (c.index + 1, 0) else (c.index, c.layer + 1)) else k

/-- The verified prefix of a request: the first place in copy order, from the first copy held, that no copy held fills (R256). An
index is whole with the last of the KV layers, and without a set ACTIVE with the highest layer held (log 145). -/
def prefixOf (layers : Nat) (l : List CopyItem) : Nat × Nat :=
  match l with
  | [] => (0, 0)
  | c :: _ => runEnd (if layers = 0 then l.foldl (fun m c => max m c.layer) 0 else layers - 1) l (c.index, c.layer)

/-- The requests of a list of copies, once each. -/
def requestsOf (l : List CopyItem) : List Nat := (l.map (·.requestId)).eraseDups

/-- Mode 1: send each owner a PARTIAL with the verified prefix of what came from the dead survivor. -/
def closeAct (p : Pkt) (s : State) : State :=
  let v := p.p1 % 4096
  let l := copiesBy s fun f => f.src = v
  let c := arrivalComp s p.path
  let tell := fun j t => (requestsOf l).foldl (fun u rid =>
    let mine := l.filter fun x => x.requestId = rid
    let k := prefixOf (kvLayers s) mine
    let owner := match mine with | x :: _ => x.owner | [] => 0xFFF
    startOwed j owner rid 4 k.1 k.2 c u) t
  mirrorStart p { close := true, dead := v, spare := s.dev.deviceId, comp := c, todo := [], deadSpare := false, pkt := p } tell s

def pageMirrorCloseFx (p : Pkt) (s : State) : State :=
  receive ⟨0x33, false, false, true, 131104, false⟩ p
    (orFormat (mirrorOk p 1 && p.p1 / 4096 = 0 && p.p2 = 0 && p.payload.isEmpty) 0x33 p (closeAct p)) s
def execPageMirrorClose (p : Pkt) (s : State) : Host.Outcome State Fault Refusal := .next (pageMirrorCloseFx p s)

/-- An entry without its dead holders: LOST when neither a holder nor a local copy is left, LOCAL when only the copy of a
RETAINED page is. -/
def entryRepaired (dead : List Nat) (e : PtEntry) : PtEntry :=
  let a := if dead.contains e.holderA then 0xFFF else e.holderA
  let b := if dead.contains e.holderB then 0xFFF else e.holderB
  { e with holderA := a, holderB := b,
           state := if a = 0xFFF && b = 0xFFF && (e.state = 4 || e.state = 5) then (if e.desc = 0xFFFFFFFF then 6 else 2) else e.state }

/-- The dead devices leave a manifest's entries; an entry that becomes LOST is counted, and the state is lost (R211, R256). -/
def repairTable (b : Nat) (dead : List Nat) (s : State) : State :=
  match berthAt s b with
  | none => s
  | some x =>
    let es := x.table.entries.map fun e => (e.1, entryRepaired dead e.2)
    let gone := ((es.filter fun e => e.2.state = 6).length) - ((x.table.entries.filter fun e => e.2.state = 6).length)
    let s1 := modTable b (fun t => { t with entries := es.filter fun e => e.2 ≠ {} }) s
    if gone = 0 then s1 else loseSoon b stStateLost (bump LGT_LOST_CNT gone s1)

/-- A window move of a manifest goes to the new pair: a live target that is named again stays as it is. -/
def repairMove (m : Nat) (dests dead : List Nat) (s : State) : State :=
  match moveAt s m with
  | none => s
  | some x =>
    let ts := dests.map fun d =>
      match x.tgts.find? fun t => t.dev = d && t.st ≠ 5 && !dead.contains d with
      | some t => t
      | none => ⟨d, 0, 0, 0, 0, 0, (false, 0, 0), 0, none⟩
    let s1 := modMove m (fun x => { x with tgts := ts }) s
    let s2 := (List.range ts.length).foldl (fun t h => if (ts.getD h ⟨0, 9, 0, 0, 0, 0, (false, 0, 0), 0, none⟩).st = 0 then sendPut m h t else t) s1
    if ts.all fun t => t.st = 3 then (match x.berth with | some b => windowDone m b x.frame s2 | none => s2) else s2

/-- Write the new pair into a named manifest and redirect its moves. -/
def repairPair (b pri mir : Nat) (dead : List Nat) (s : State) : State :=
  let s1 := modBerth b (fun x => { x with id := { x.id with cachePri := pri, cacheMir := mir }, reported := [] }) s
  let ms := (s1.man.moves.filter fun e => e.2.berth = some b && e.2.why = .window).map (·.1)
  ms.foldl (fun t m => repairMove m (if mir = 0xFFF then [pri] else [pri, mir]) dead t) s1

/-- Mode 2: dead devices leave every holder field, and the named manifests take the new pair (log 55). -/
def repairAct (p : Pkt) (s : State) : State :=
  let dead := ((List.range 16).map fun i => leAt p.payload (2 * i) 2).filter fun d => d ≠ 0xFFFF
  let ids := (records 8 (p.payload.drop 32)).map leNat
  let all := s.man.berths.map (·.1)
  let named := (s.man.berths.filter fun e => ids.isEmpty || ids.contains e.2.id.requestId).map (·.1)
  let s1 := all.foldl (fun t b => repairTable b dead t) s
  let s2 := modMan (fun m => { m with drops := m.drops.filter fun e => !(e.2.mirror.isNone && dead.contains e.2.dest) }) s1
  settle (ok 0x33 p 0 (named.foldl (fun t b => repairPair b (p.p1 / 4096) p.p2 dead t) s2))

def pageMirrorRepairFx (p : Pkt) (s : State) : State :=
  receive ⟨0x33, true, true, false, 131104, false⟩ p
    (orFormat (mirrorOk p 2 && decide (p.p2 < 4096) && decide (32 ≤ p.payload.length) && p.payload.length % 8 = 0) 0x33 p (repairAct p)) s
def execPageMirrorRepair (p : Pkt) (s : State) : Host.Outcome State Fault Refusal := .next (pageMirrorRepairFx p s)

/-- The spare becomes a holder of an entry that V holds (R256). -/
def addSpare (v d : Nat) (e : PtEntry) : PtEntry :=
  if e.holderA = d || e.holderB = d then e
  else if e.holderA = 0xFFF then { e with holderA := d }
  else if e.holderB = 0xFFF then { e with holderB := d }
  else if e.holderA = v then { e with holderB := d } else { e with holderA := d }

/-- Add the spare to every entry of a request that V holds and that `below` admits; of a request not held, nothing changes. -/
def spareAct (p : Pkt) (below : Nat → Nat → Bool) (s : State) : State :=
  let v := p.p1 % 4096
  let d := p.p1 / 4096
  match berthOfRequest s (leAt p.payload 0 8) with
  | none => ok 0x33 p 0 s
  | some b => transferCheck b (ok 0x33 p 0 (modTable b (fun t =>
      { t with entries := t.entries.map fun e =>
          if (e.2.holderA = v || e.2.holderB = v) && below (e.1 / max 1 t.layers) (e.1 % max 1 t.layers) then (e.1, addSpare v d e.2) else e }) s))

/-- Mode 3: every entry. -/
def pageMirrorDoneFx (p : Pkt) (s : State) : State :=
  receive ⟨0x33, true, true, false, 131104, false⟩ p
    (orFormat (mirrorOk p 3 && p.p2 = 0 && p.payload.length = 8) 0x33 p (spareAct p fun _ _ => true)) s
def execPageMirrorDone (p : Pkt) (s : State) : Host.Outcome State Fault Refusal := .next (pageMirrorDoneFx p s)

/-- Mode 4: the entries below the verified prefix. -/
def pageMirrorPartialFx (p : Pkt) (s : State) : State :=
  let k := leAt p.payload 8 4
  let m := leAt p.payload 12 1
  receive ⟨0x33, true, true, false, 131104, false⟩ p
    (orFormat (mirrorOk p 4 && p.p2 = 0 && p.payload.length = 16 && leAt p.payload 13 3 = 0) 0x33 p
      (spareAct p fun i l => decide (i < k) || (i = k && decide (l < m)))) s
def execPageMirrorPartial (p : Pkt) (s : State) : Host.Outcome State Fault Refusal := .next (pageMirrorPartialFx p s)

/-! ## Answers and timers of moves and drops (R252, R253) -/

/-- The move and holder that a TAG belongs to. -/
def moveOfTag (s : State) (tag : Nat) : Option (Nat × Nat) :=
  s.man.moves.findSome? fun e =>
    ((List.range e.2.tgts.length).find? fun h =>
      let t := e.2.tgts.getD h ⟨0, 0, 0, 0, 0, 0, (false, 0, 0), 0, none⟩
      (t.st = 1 && t.tag = tag) || (t.st = 2 && (t.tag = tag || t.put = tag))).map fun h => (e.1, h)

/-- A holder's answer: to a packet of PAGE.PUT, or to PAGE.SEAL (R248, R252). -/
def pageMoveReplyFx (r : Rep) (s : State) : State :=
  onReply r (fun t => (moveOfTag t r.tag).isSome) (fun st t =>
    match moveOfTag t r.tag with
    | none => t
    | some (m, h) =>
      let g := (((moveAt t m).map (·.tgts)).getD []).getD h ⟨0, 0, 0, 0, 0, 0, (false, 0, 0), 0, none⟩
      if g.st = 2 && g.tag = r.tag then
        (if st = stOk then accepted m h t else if st = stPending then t else settle (moveRefused m h st t))
      else if st = stOk || st = stPending || g.st = 2 then t
      else settle (moveRefused m h st t)) s
def execPageMoveReply (r : Rep) (s : State) : Host.Outcome State Fault Refusal := .next (pageMoveReplyFx r s)

/-- The drop that a TAG belongs to. -/
def dropOfTag (s : State) (tag : Nat) : Option Nat :=
  (s.man.drops.find? fun e => e.2.tag = tag && e.2.retryAt.isNone && !e.2.waits).map (·.1)

/-- A drop, or a PAGE.MIRROR of mode 3 or 4, is answered (R253, R256). -/
def dropAnswered (d st : Nat) (s : State) : State :=
  match dropAt s d with
  | none => s
  | some x =>
    if st = stOk then
      let s1 := modMan (fun m => { m with drops := tabDel m.drops d }) s
      match x.mirror with | some (j, _, _, _) => mirrorFinish j s1 | none => s1
    else if st = stPending then s
    else modDrop d (fun x => { x with retryAt := some (s.tick + retryTicks s) }) s

def pageDropReplyFx (r : Rep) (s : State) : State :=
  onReply r (fun t => (dropOfTag t r.tag).isSome) (fun st t => match dropOfTag t r.tag with | some d => dropAnswered d st t | none => t) s
def execPageDropReply (r : Rep) (s : State) : Host.Outcome State Fault Refusal := .next (pageDropReplyFx r s)

/-- Holders of a move that satisfy `q`. -/
def tgtsWhere (s : State) (m : Nat) (q : MoveTgt → Bool) : List Nat :=
  match moveAt s m with
  | none => []
  | some x => (List.range x.tgts.length).filter fun h => match x.tgts[h]? with | some t => q t | none => false

/-- A holder that has not answered within LGT_MOVE_TMO of the first PAGE.PUT is retried (R252). -/
def pageMoveTimeoutFx (m now : Nat) (s0 : State) : State :=
  let s := atTick now s0
  if !alive s then s
  else (tgtsWhere s m fun t => (t.st = 1 || t.st = 2) && sentBefore t.sentAt (moveTmoTicks s) now && !replyArrives s t.tag).foldl (fun t h => tgtRefused m h stTimeout t) s
def execPageMoveTimeout (move now : Nat) (s : State) : Host.Outcome State Fault Refusal := .next (pageMoveTimeoutFx move now s)

/-- After LGT_RETRY a fresh move starts to the holders that have not accepted (R252). -/
def pageMoveRetryFx (m now : Nat) (s0 : State) : State :=
  let s := atTick now s0
  if !alive s then s
  else (tgtsWhere s m fun t => t.st = 4 && decide (t.at' ≤ now)).foldl (fun t h => sendPut m h (modTgt m h (fun g => { g with st := 0, sentAt := none }) t)) s
def execPageMoveRetry (move now : Nat) (s : State) : Host.Outcome State Fault Refusal := .next (pageMoveRetryFx move now s)

/-- After LGT_RETRY a drop that was not answered ST_OK is sent again (R253). -/
def pageDropRetryFx (d now : Nat) (s0 : State) : State :=
  let s := atTick now s0
  if !alive s then s
  else
    match dropAt s d with
    | some x => (match x.retryAt with | some t => if t ≤ now then sendDrop d s else s | none => s)
    | none => s
def execPageDropRetry (drop now : Nat) (s : State) : Host.Outcome State Fault Refusal := .next (pageDropRetryFx drop now s)

/-! ## Swap (R259 to R262) -/

/-- Every local page of a manifest in ascending index and layer, with its descriptor, bytes and overflow area. -/
def swapPages (s : State) (x : Berth) : List (Nat × Frame × Bytes × Bytes) :=
  (x.table.entries.filter fun e => e.2.desc ≠ 0xFFFFFFFF).map fun e =>
    let f := (frameAt s e.2.desc).getD {}
    (e.1, f, memRead s (frameDpa s e.2.desc) frameBytes, if f.state = 1 then memRead s f.ovfDpa (ovfBytes (pageP s)) else [])

/-- The root frame's bytes (R237). -/
def rootImage (s : State) (t : PageTable) : Bytes :=
  let b := toLe 4 t.layers ++ toLe 4 t.indices ++ toLe 4 t.logFrames.length ++ zeros 4 ++ (t.logIds.flatMap fun i => toLe 8 i) ++
    zeros (8 * (128 - t.logIds.length)) ++ t.tables.flatMap fun f => toLe 8 (frameDpa s f)
  b ++ zeros (frameBytes - b.length)

/-- A page-table entry's bytes (R238). -/
def entryImage (e : PtEntry) : Bytes :=
  toLe 8 e.pageId ++ toLe 3 (e.holderA + 4096 * e.holderB) ++ toLe 1 (e.state + 16 * b2n e.global) ++ toLe 4 e.desc

/-- An entry as it stands in its table frame: that of a page on its way to its holders is MOVING (R238, R255). -/
def entryShown (s : State) (e : PtEntry) : PtEntry :=
  match frameAt s e.desc with
  | some f => if e.state = 2 && f.state = 3 then { e with state := 3 } else e
  | none => e

/-- The bytes of table frame `n`. -/
def tableImage (s : State) (t : PageTable) (n : Nat) : Bytes := (List.range 4608).flatMap fun i => entryImage (entryShown s (ptGet t (4608 * n + i)))

/-- The bytes of the log pages. -/
def logImage (x : Berth) : Bytes :=
  let b := x.log.flatMap fun t => toLe 4 t
  b ++ zeros (frameBytes * x.table.logFrames.length - b.length)

/-- The snapshot of a manifest (R260). The 64-byte header holds three 64-bit fields in the order named, then zeros (log 56). -/
def snapshotBytes (s : State) (x : Berth) : Bytes :=
  let body := rootImage s x.table ++ ((List.range x.table.tables.length).flatMap fun n => tableImage s x.table n) ++ logImage x ++
    (swapPages s x).flatMap fun p => p.2.2.1 ++ p.2.2.2
  let b := toLe 8 x.id.requestId ++ toLe 8 ((tablePages x).length + (tableOwn x).length) ++ toLe 8 (64 + body.length + 4) ++ zeros 40 ++ body
  b ++ toLe 4 (crc32c b)

/-- Start writing a PREEMPTED manifest's snapshot when a window of use 0 has room; without room it is tried again at each
step boundary (R260). -/
def swapOutTry (b : Nat) (s : State) : State :=
  match berthAt s b with
  | none => s
  | some x =>
    if x.prog.state ≠ 5 || x.swapOut || x.swapIn || x.snap.isSome then s
    else
      let bytes := snapshotBytes s x
      match winFind s 0 bytes.length with
      | none => s
      | some (w, off) =>
        emit (.hostWrite 0 (regGet s (MEM_HOSTWIN_BASE w) + off) bytes) (winPut w off bytes.length (.snapshot b)
          (modBerth b (fun x => { x with swapOut := true, snap := some ⟨w, off, bytes.length, (tablePages x).length + (tableOwn x).length, swapPages s x⟩ }) s))

/-- The manifest is pre-empted: it leaves the weaves and its snapshot begins (R211, R259). -/
def preempt (b : Nat) (s : State) : State := swapOutTry b (enterState b 5 s)

/-- Moves of a manifest's pages that are in progress (R262). -/
def pagesMoving (s : State) (b : Nat) (x : Berth) : Bool := x.swapOut || x.swapIn || s.man.moves.any fun e => e.2.berth = some b

/-- A swap-out that a command asked for takes effect at the next boundary at which SPEC_DEPTH is 0, at once when no step runs
(R259, R262). -/
def swapOutDue (b : Nat) (s : State) : State :=
  match berthAt s b with
  | some x => if x.prog.state = 4 && x.swapPkt.isSome && x.prog.specDepth = 0 then preempt b s else s
  | none => s

def swapOutAct (p : Pkt) (b : Nat) (x : Berth) (s : State) : State :=
  if x.prog.state ≠ 4 || pagesMoving s b x || x.swapPkt.isSome then fail 0x35 p stBusy s
  else
    let s1 := pend 0x35 p (modBerth b (fun y => { y with swapPkt := some p }) s)
    if s.eng.step.isSome then s1 else swapOutDue b s1

def pageSwapOutFx (p : Pkt) (s : State) : State :=
  receiveMan ⟨0x35, false, true, false, 0, false⟩ p (paramsZero p false false false false) (swapOutAct p) s
def execPageSwapOut (p : Pkt) (s : State) : Host.Outcome State Fault Refusal := .next (pageSwapOutFx p s)

/-- Forget a snapshot and free its place in the window. -/
def snapGone (b : Nat) (s : State) : State := winFree (.snapshot b) (modBerth b (fun y => { y with snap := none }) s)

/-- The final reply of a swap that a command asked for. -/
def swapAnswer (b o st : Nat) (s : State) : State :=
  match (berthAt s b).bind (·.swapPkt) with
  | none => s
  | some p =>
    let s1 := modBerth b (fun y => { y with swapPkt := none }) s
    if st = stOk then ok o p 0 s1 else fail o p st s1

/-- A manifest's local frames are freed while its snapshot holds what they held. -/
def swapFree (b : Nat) (x : Berth) (s : State) : State :=
  modTable b (fun t =>
    { t with logFrames := [], root := none, tables := [], ovf := [], entries := t.entries.map fun e => (e.1, { e.2 with desc := 0xFFFFFFFF }) })
    (freeFrames x s)

/-- The snapshot is verified: local frames go and the manifest is SWAPPED. A snapshot that fails its check is freed, and is
written again from the next boundary (R158, R260, log 57). A request that has ended meanwhile keeps no snapshot (R210). -/
def swapOutVerifiedFx (b now : Nat) (verified : Bool) (s0 : State) : State :=
  let s := atTick now s0
  match berthAt s b with
  | none => s
  | some x =>
    if !alive s || !x.swapOut then s
    else
      let s1 := modBerth b (fun y => { y with swapOut := false }) s
      if x.prog.state ≠ 5 then swapAnswer b 0x35 (if x.prog.state = 8 then stOk else stStateLost) (snapGone b s1)
      else if !verified then swapAnswer b 0x35 stCrc (snapGone b s1)
      else
        let n := match x.snap with | some q => q.bytes | none => 0
        swapAnswer b 0x35 stOk (bump LGT_SWAP_BYTES n (bump LGT_SWAPOUT_CNT 1 (enterState b 6 (swapFree b x s1))))
def execSwapOutVerified (berth now : Nat) (verified : Bool) (s : State) : Host.Outcome State Fault Refusal :=
  .next (swapOutVerifiedFx berth now verified s)

/-- Take `n` page frames of a use for a manifest. -/
def takeManFrames (b : Nat) (u : FrameUse) : Nat → State → Option (List Nat × State)
  | 0, s => some ([], s)
  | n + 1, s =>
    match takeManFrame b u s with
    | none => none
    | some (f, s1) => (takeManFrames b u n s1).map fun r => (f :: r.1, r.2)

/-- The frames that a snapshot needs: pages, root, table, log and overflow frames. -/
def swapFrames (s : State) (x : Berth) (q : Snapshot) : List (FrameUse × Nat) :=
  let opens := (q.pages.filter fun p => p.2.1.state = 1).length
  [(.page, q.pages.length), (.root, 1), (.table, tableFrames x.table.layers x.table.indices),
   (.log, max 1 (divUp x.prog.logLen logPageTokens)), (.overflow, divUp opens (max 1 (pageP s / 8)))]

/-- Take the frames of a swap-in and enter PREEMPTED (R211, R261); none when they are not allowed. -/
def swapInTake (b : Nat) (x : Berth) (q : Snapshot) (s : State) : Option State :=
  let n := fun i => ((swapFrames s x q).getD i (.page, 0)).2
  match takeManFrames b .page (n 0) s with
  | none => none
  | some (pages, s1) =>
    match takeManFrames b .root 1 s1 with
    | none => none
    | some (root, s2) =>
      match takeManFrames b .table (n 2) s2 with
      | none => none
      | some (tables, s3) =>
        match takeManFrames b .log (n 3) s3 with
        | none => none
        | some (logs, s4) =>
          (takeManFrames b .overflow (n 4) s4).map fun r =>
            enterState b 5 (modBerth b (fun y =>
              { y with swapIn := true
                       prog := { y.prog with pageRoot := frameDpa s (root.getD 0 0), logPage := logs.getLastD 0 }
                       table := { y.table with
                         logFrames := logs, root := root.head?, tables := tables, ovf := r.1
                         entries := (q.pages.zip pages).foldl (fun t p =>
                           tabSet t p.1.1 { tabGetD t p.1.1 {} with desc := p.2 } {}) y.table.entries } }) r.2)

/-- The open page index of a manifest: that of position POS_HELD. -/
def openIndex (s : State) (x : Berth) : Nat := x.prog.posHeld / max 1 (pageP s)

/-- Pages of the indices `lo` to `hi` that a manifest lacks: layer and index. -/
def pagesMissing (x : Berth) (lo hi : Nat) : List (Nat × Nat) :=
  (List.range x.table.layers).flatMap fun l =>
    ((List.range (hi + 1 - lo)).map (lo + ·)).filterMap fun i => if (ptGet x.table (ptIndex x.table i l)).state = 0 then some (l, i) else none

/-- Frames that a swapped request's next weave takes beyond those of its snapshot: the pages that it appends to, and the table,
overflow and log frames that come with them (R261). -/
def nextWeaveFrames (s : State) (x : Berth) (q : Snapshot) : Nat :=
  let have' := fun i => ((swapFrames s x q).getD i (.page, 0)).2
  let last := (x.prog.posHeld + 1) / max 1 (pageP s)
  (pagesMissing x (openIndex s x) last).length + (tableFrames x.table.layers (last + 1) - have' 2) +
    (divUp (x.prog.logLen + 1) logPageTokens - have' 3) + (divUp x.table.layers (max 1 (pageP s / 8)) - have' 4)

/-- Begin a swap-in when the frames of the snapshot and of the request's next weave are allowed (R261). -/
def swapInBegin (b : Nat) (s : State) : Option State :=
  match berthAt s b with
  | none => none
  | some x =>
    match x.snap with
    | none => none
    | some q =>
      let need := ((swapFrames s x q).map (·.2)).sum + nextWeaveFrames s x q
      if x.prog.state = 6 && !x.swapIn && !x.swapOut && framesAllowed s (compOf s x) need then swapInTake b x q s else none

def swapInAct (p : Pkt) (b : Nat) (x : Berth) (s : State) : State :=
  if x.prog.state ≠ 6 || pagesMoving s b x then fail 0x36 p stBusy s
  else
    match swapInBegin b (modBerth b (fun y => { y with swapPkt := some p }) s) with
    | none => fail 0x36 p stNoPage s
    | some s1 => pend 0x36 p s1

def pageSwapInFx (p : Pkt) (s : State) : State :=
  receiveMan ⟨0x36, false, true, false, 0, false⟩ p (paramsZero p false false false false) (swapInAct p) s
def execPageSwapIn (p : Pkt) (s : State) : Host.Outcome State Fault Refusal := .next (pageSwapInFx p s)

/-- Put one page of a snapshot into its frame, with the descriptor it had and its new place (R261). -/
def swapRestore (b : Nat) (x : Berth) (s : State) (p : Nat × Frame × Bytes × Bytes) : State :=
  let f := (ptGet x.table p.1).desc
  let o := ovfPlace s x.table.ovf (p.1 % max 1 x.table.layers)
  let c := ((frameAt s f).getD {}).comp
  let s1 := modFrame f (fun _ => { p.2.1 with comp := c, lpx := false, refs := 1, ovfDpa := if p.2.1.state = 1 then o else 0 }) s
  let s2 := memStore (frameDpa s f) p.2.2.1 s1
  if p.2.2.2.isEmpty then s2 else memStore o p.2.2.2 (modBerth b (fun y => y) s2)

/-- A swap-in ends: a good snapshot restores the pages and the manifest goes to GENERATING; a poisoned or damaged one loses the
state (R211, R261). -/
def swapInCompleteFx (b now : Nat) (read : SnapRead) (s0 : State) : State :=
  let s := atTick now s0
  match berthAt s b with
  | none => s
  | some x =>
    if !alive s || !x.swapIn then s
    else
      let s1 := modBerth b (fun y => { y with swapIn := false }) s
      let n := match x.snap with | some q => q.bytes | none => 0
      if x.prog.state ≠ 5 then swapAnswer b 0x36 (if x.prog.state = 8 then stOk else stStateLost) (snapGone b (swapFree b x s1))
      else if read ≠ .whole then
        let s2 := if read = .poisoned then hostPoison (.snapshot b) s1 else s1
        settle (swapAnswer b 0x36 stStateLost (loseSoon b stStateLost (snapGone b (swapFree b x s2))))
      else
        let pages := match x.snap with | some q => q.pages | none => []
        let s2 := logStore x.table.logFrames 0 x.log (pages.foldl (swapRestore b x) s1)
        swapAnswer b 0x36 stOk (bump LGT_SWAP_BYTES n (bump LGT_SWAPIN_CNT 1 (snapGone b (enterState b 4 s2))))
def execSwapInComplete (berth now : Nat) (read : SnapRead) (s : State) : Host.Outcome State Fault Refusal :=
  .next (swapInCompleteFx berth now read s)

end Sys2Proof.Machine
end

