-- ==== Sys2Proof/Machine/Attention.lean ====
section
/-! DEFINITION. Attention across pools (chapter 10): the fold, the SEND entry and the exchanges of a sender, the service of a
cache node, and what happens when a holder is slow, dead or lacks a page. -/

namespace Sys2Proof.Machine

/-! ## The messages (R271, R272) -/

/-- Fields of the ATT.PARTIAL descriptor (R271). -/
def apRequest (b : Bytes) : Nat := leAt b 0 8
def apStep (b : Bytes) : Nat := leAt b 8 4
def apLayer (b : Bytes) : Nat := leAt b 12 2
def apRows (b : Bytes) : Nat := leAt b 14 2
def apHeads (b : Bytes) : Nat := leAt b 16 1
def apGroup (b : Bytes) : Nat := leAt b 17 1
def apDim (b : Bytes) : Nat := leAt b 18 2
def apScale (b : Bytes) : Nat := leAt b 20 4
def apFirst (b : Bytes) : Nat := leAt b 24 4
def apCount (b : Bytes) : Nat := leAt b 28 4
def apWindow (b : Bytes) : Nat := leAt b 32 4
def apGlobal (b : Bytes) : Nat := leAt b 36 4
def apHasState (b : Bytes) : Bool := bit (leAt b 40 1) 0

/-- Query heads in all, and the offsets of the sections behind the positions (R271). -/
def apQh (b : Bytes) : Nat := apHeads b * apGroup b
def apElemAt (b : Bytes) : Nat := 64 + 4 * apRows b
def apRecAt (b : Bytes) : Nat := apElemAt b + apRows b * apQh b * apDim b
def apStateAt (b : Bytes) : Nat := apRecAt b + apRows b * apQh b * apDim b / 32

/-- Bytes of a state of `n` rows and heads: statistics and outputs (R272). -/
def stateLen (n d : Nat) : Nat := 8 * n + 2 * n * d

/-- The position of row `r`. -/
def apPos (b : Bytes) (r : Nat) : Nat := leAt b (64 + 4 * r) 4

/-- Positions per page of the message's geometry (R239). -/
def apP (b : Bytes) : Nat := max 1 (pagePositions (apHeads b) (apDim b))

/-- A pattern that R264 allows. -/
def patternOk (s g : Nat) : Bool :=
  if s = 0 then g = 0
  else s % 1024 = 0 && 1024 ≤ s && s ≤ 65536 && g % 1024 = 0 && g ≤ 4096

/-- The geometry of R239: a page holds a power of two of positions, from 16 to 1,024. -/
def geometryOk (h d : Nat) : Bool :=
  h ≠ 0 && d ≠ 0 && d % 32 = 0 && d ≤ 256 && 131072 % (2 * h * d) = 0 && 16 ≤ 131072 / (2 * h * d) && 131072 / (2 * h * d) ≤ 1024

/-- The run lies in one segment (R270, R271). -/
def oneSegment (p first count : Nat) : Bool := first * p / 131072 = (first + count - 1) * p / 131072

/-- Every field keeps R271, every row lies above the pages named (R276), and the message has its declared length. LAYER is bounded by the
256 layers that R239 allows: a cache node has no stake image whose KV_LAYERS it could know (R278). -/
def partialOk (b : Bytes) : Bool :=
  64 ≤ b.length && apLayer b < 256 && 1 ≤ apRows b && apRows b ≤ 1024 && geometryOk (apHeads b) (apDim b) && 1 ≤ apGroup b && apGroup b ≤ 16 &&
    apQh b ≤ 128 && bits (apScale b) 30 23 ≠ 255 && decide (0 < apScale b % 2 ^ 31) && !bit (apScale b) 31 &&
    1 ≤ apCount b && apCount b ≤ 2048 && oneSegment (apP b) (apFirst b) (apCount b) && patternOk (apWindow b) (apGlobal b) &&
    leAt b 40 1 < 2 && (slice b 41 23).all (· = 0) &&
    b.length = apStateAt b + (if apHasState b then stateLen (apRows b * apQh b) (apDim b) else 0) &&
    (List.range (apRows b)).all fun r => decide ((apFirst b + apCount b) * apP b ≤ apPos b r)

/-! ## The fold (R265, R268 to R270) -/

/-- A state, or a page partial: maximum, sum and outputs as FP32 bits (R268), with the FP32 infinities and the BF16 saturations created
on the way, which R94 counts. -/
structure FoldState where
  m : Nat
  l : Nat
  o : List Nat
  sat : Nat
  half : Nat
deriving DecidableEq, Repr

/-- Minus infinity. -/
def negInf : Nat := 0xFF800000

/-- The empty state (R268). -/
def foldEmpty (d : Nat) : FoldState := ⟨negInf, 0, List.replicate d 0, 0, 0⟩

/-- Whether the pattern admits page `i` for a row at position `q` (R265). -/
def pageAdmitted (w g p q i : Nat) : Bool := w = 0 || decide (i < g / p) || decide ((q + 1 - w) / p ≤ i)

/-- Attended positions of page `i` for a row at `q`, as slots of the page (R265). -/
def attendedSlots (w g p q i : Nat) : List Nat :=
  if pageAdmitted w g p q i then (List.range p).filter fun j => decide (i * p + j ≤ q) else []

/-- Block `b` of a page's keys, and of its values (R240). -/
def keyBlock (esc : Bool) (page : Bytes) (b : Nat) : BlockRead := blockVals esc 0x7 1 (slice page (16 * b) 16) (slice page (65536 + 3 * b) 3)
def valBlock (esc : Bool) (page : Bytes) (b : Nat) : BlockRead :=
  blockVals esc 0x7 0 (slice page (32768 + 16 * b) 16) (slice page (71680 + b) 1)

/-- The dot product of R90 over the blocks of one head. -/
def dotBlocks (a b : List BlockRead) : Res := seqSum addRes ⟨0, 0, 0⟩ ((a.zip b).map fun x => partialRes x.2 x.1 0)

/-- Value `t` of a list of blocks, its scale applied, widened to FP32 (R83). -/
def blockElem (l : List BlockRead) (t : Nat) : Res :=
  match l.getD (t / 32) none with
  | none => plainRes 0x7FC00000
  | some (v, e) => widenRes (numScale e (v.getD (t % 32) .nan)) 0

/-- Infinities counted in a list of results. -/
def satSum (l : List Res) : Nat := (l.map (·.sat)).sum

/-- The page partial of one row and head (R268): slots attended, the query's blocks, SCALE, KV head and geometry. -/
def pagePartial (on esc : Bool) (page : Bytes) (slots : List Nat) (query : List BlockRead) (scale g h d : Nat) : FoldState :=
  if slots.isEmpty then foldEmpty d
  else
    let nb := d / 32
    let at' := fun j => (j * h + g) * nb
    let dots := slots.map fun j => dotBlocks query ((List.range nb).map fun k => keyBlock esc page (at' j + k))
    let sc := dots.map fun x => smpOp on f32Mul x (plainRes scale)
    let m := (sc.map (·.bits)).foldl f32Max negInf
    let df := sc.map fun x => smpOp on f32Sub x (plainRes m)
    let e := df.map fun x => flush on (funRes f32Exp { x with sat := 0 })
    let add := fun x y => flush on (addRes x y)
    let l := seqSum add (plainRes 0) (e.map fun x => { x with sat := 0 })
    let v := slots.map fun j => (List.range nb).map fun k => valBlock esc page (at' j + k)
    let r := flush on (funRes f32Rcp { l with sat := 0 })
    let n := (List.range d).map fun t =>
      seqSum add (plainRes 0) ((e.zip v).map fun x =>
        let y := blockElem x.2 t
        let p := smpOp on f32Mul x.1 y
        { p with sat := p.sat + y.sat })
    let o := n.map fun x => smpOp on f32Mul x r
    ⟨m, l.bits, o.map (·.bits), satSum dots + satSum sc + satSum df + satSum e + l.sat + r.sat + satSum n + satSum o, 0⟩

/-- BF16 of FP32 bits, held as FP32 bits, and whether it saturates (R88). -/
def toBf16 (half : Bool) (x : Nat) : Nat × Nat :=
  let c := convert half 0x2 (f32Val x)
  (c.code * 2 ^ 16, b2n c.counted)

/-- Merge a partial into a state (R269). -/
def foldMerge (on half : Bool) (s p : FoldState) : FoldState :=
  if p.m = negInf then { s with sat := s.sat + p.sat, half := s.half + p.half }
  else if s.m = negInf then
    (let o := p.o.map (toBf16 half)
     { p with o := o.map (·.1), sat := s.sat + p.sat, half := s.half + p.half + (o.map (·.2)).sum })
  else
    let mx := f32Max s.m p.m
    let ds := smpOp on f32Sub (plainRes s.m) (plainRes mx)
    let dp := smpOp on f32Sub (plainRes p.m) (plainRes mx)
    let es := flush on (funRes f32Exp { ds with sat := 0 })
    let ep := flush on (funRes f32Exp { dp with sat := 0 })
    let wa := smpOp on f32Mul (plainRes s.l) es
    let wb := smpOp on f32Mul (plainRes p.l) ep
    let l := smpOp on f32Add wa wb
    let r := flush on (funRes f32Rcp { l with sat := 0 })
    let u := s.o.map fun x => smpOp on f32Mul wa (plainRes x)
    let v := (u.zip p.o).map fun x => flush on (fmaRes { wb with sat := 0 } (plainRes x.2) { x.1 with sat := 0 })
    let w := v.map fun x => smpOp on f32Mul x r
    let o := w.map fun x => toBf16 half x.bits
    ⟨mx, l.bits, o.map (·.1), s.sat + p.sat + satSum ([ds, dp, es, ep, wa, wb, l, r] ++ u ++ v ++ w), s.half + p.half + (o.map (·.2)).sum⟩

/-- State `i` in statistics and outputs laid out as in R272, the outputs of `n` states behind their statistics. -/
def stateAt (b : Bytes) (n d i : Nat) : FoldState :=
  ⟨leAt b (8 * i) 4, leAt b (8 * i + 4) 4, (List.range d).map fun t => leAt b (8 * n + 2 * (i * d + t)) 2 * 2 ^ 16, 0, 0⟩

/-- Lay states out as in R272. -/
def stateBytes (l : List FoldState) : Bytes :=
  (l.flatMap fun x => toLe 4 x.m ++ toLe 4 x.l) ++ l.flatMap fun x => x.o.flatMap fun v => toLe 2 (v / 2 ^ 16)

/-- Query blocks of row `r`, head `h` (R271). -/
def apQuery (esc : Bool) (b : Bytes) (r h : Nat) : List BlockRead :=
  let nb := apDim b / 32
  (List.range nb).map fun k =>
    let i := (r * apQh b + h) * nb + k
    blockVals esc 0x3 0 (slice b (apElemAt b + 32 * i) 32) (slice b (apRecAt b + i) 1)

/-- Attended slots of page `i` for row `r` of a message. -/
def apSlots (b : Bytes) (r i : Nat) : List Nat := attendedSlots (apWindow b) (apGlobal b) (apP b) (apPos b r) i

/-- Fold one page into the state of row `r`, head `h` of a message. -/
def foldPage (on esc half : Bool) (b : Bytes) (r h i : Nat) (page : Bytes) (st : FoldState) : FoldState :=
  foldMerge on half st
    (pagePartial on esc page (apSlots b r i) (apQuery esc b r h) (apScale b) (h / max 1 (apGroup b)) (apHeads b) (apDim b))

/-- The states of all rows and heads of a message, in the order of R272. -/
def apStates (b : Bytes) (bytes : Bytes) : List FoldState :=
  let n := apRows b * apQh b
  if bytes.isEmpty then List.replicate n (foldEmpty (apDim b)) else (List.range n).map fun i => stateAt bytes n (apDim b) i

/-- Fold pages, by index and raw form, from an incoming state or the empty one (R270, R278). -/
def foldStates (on esc half : Bool) (b : Bytes) (pages : List (Nat × Bytes)) (incoming : Bytes) : List FoldState :=
  ((List.range (apRows b * apQh b)).zip (apStates b incoming)).map fun x =>
    pages.foldl (fun st y => foldPage on esc half b (x.1 / max 1 (apQh b)) (x.1 % max 1 (apQh b)) y.1 y.2 st) x.2
def foldRun (on esc half : Bool) (b : Bytes) (pages : List (Nat × Bytes)) (incoming : Bytes) : Bytes :=
  stateBytes (foldStates on esc half b pages incoming)

/-- Merge segment states in ascending order, from the empty state (R270). -/
def mergeSegments (on half : Bool) (b : Bytes) (segs : List Bytes) : List FoldState :=
  segs.foldl (fun acc x => (acc.zip (apStates b x)).map fun y => foldMerge on half y.1 y.2) (apStates b [])

/-- A query of the message, or a block that a row attends to in the pages read for it, holds a NaN (R269). -/
def foldNan (esc : Bool) (b : Bytes) (pages : List (Nat × Bytes)) : Bool :=
  let nb := apDim b / 32
  ((List.range (apRows b)).any fun r => (List.range (apQh b)).any fun h => (apQuery esc b r h).any blockNan) ||
    pages.any fun x => (List.range (apP b)).any fun j =>
      ((List.range (apRows b)).any fun r => (apSlots b r x.1).contains j) &&
        (List.range (apHeads b * nb)).any fun k =>
          blockNan (keyBlock esc x.2 (j * apHeads b * nb + k)) || blockNan (valBlock esc x.2 (j * apHeads b * nb + k))

/-- NaN inputs of a fold that firmware runs for another device: one NUMERIC_NAN event for the exchange, and one input on the core's counter.
No rule names the core, and no step ends with it: the unit is a free value, and the count is made at once (R93, R269, log 58). -/
def foldNanEvent (s : State) : State :=
  let x := takeFree 11 s
  let core := x.1 % 1152
  bump (SEQ_CORE_NAN_CNT core) 1
    (record { cause := 0x7, cls := 0, kind := 1, unit := core, c0 := regGet s (SEQ_CORE_NAN_CNT core) } x.2)

/-! ## Pages as a fold reads them (R178, R183, R196, R202) -/

/-- A page's raw form with its tags; a coded one comes through an expander. -/
def foldFetch (s : State) (f : Nat) : Fetched :=
  if ((frameAt s f).getD {}).coded then fetchPage s f 0 frameBytes
  else fetchPlain (memRead s (frameDpa s f) frameBytes, memTags s (frameDpa s f) frameBytes)

/-- The blocks of coded pages pass the expander of cluster `m`. -/
def foldBlocks (m : Nat) (l : List Fetched) (s : State) : State := (l.flatMap (·.blocks)).foldl (fun t b => expanderCounts m b t) s

/-! ## The sender's exchanges (R274 to R281) -/

/-- Layer of an exchange, and whether a holder is passed over for its row group and layer. -/
def exLayer (x : Exchange) : Nat := apLayer x.msg
def passedOver (s : State) (b layer h : Nat) : Bool := s.eng.passed.any fun y => y.1 = b && y.2.1 = layer && y.2.2.1 = h

/-- Pass a holder over, with the page that it reported. -/
def passOver (b layer h : Nat) (page : Option Nat) (s : State) : State := modEng (fun e => { e with passed := (b, layer, h, page) :: e.passed }) s

/-- Some row of a message attends to page `i`. -/
def pageAttended (b : Bytes) (i : Nat) : Bool :=
  (List.range (apRows b)).any fun r => pageAdmitted (apWindow b) (apGlobal b) (apP b) (apPos b r) i

/-- The holders of an entry in the order of R274. -/
def holderOrder (x : Berth) (e : PtEntry) : List Nat :=
  let has := fun h => h ≠ 0xFFF && (e.holderA = h || e.holderB = h)
  let rest := [min e.holderA e.holderB, max e.holderA e.holderB].filter fun h => has h && h ≠ x.id.cachePri && h ≠ x.id.cacheMir
  ([x.id.cachePri, x.id.cacheMir].filter has ++ rest).eraseDups

/-- Where a page is computed. -/
inductive Place where
  /-- The page is attended by no row: it joins the run it stands in. -/
  | any
  | here (frame : Nat)
  | at' (holder : Nat)
  | nowhere
deriving DecidableEq, Repr

/-- The page-table entry of page `i` of an exchange. -/
def exEntry (s : State) (x : Exchange) (i : Nat) : Option (Berth × PtEntry) :=
  (berthAt s x.berth).map fun b => (b, ptGet b.table (ptIndex b.table i (exLayer x)))

/-- The computing place of page `i` of an exchange (R274). A page held locally is folded here, RETAINED ones among them, until a holder has
accepted it; from then on that holder serves it, while the move to the other goes on (R248). -/
def placeOf (s : State) (x : Exchange) (i : Nat) : Place :=
  if !pageAttended x.msg i then .any
  else
    match exEntry s x i with
    | none => .nowhere
    | some (b, e) =>
      let held : Place := if e.desc ≠ 0xFFFFFFFF then .here e.desc else .nowhere
      if e.desc ≠ 0xFFFFFFFF && (e.global || e.state = 5) then held
      else
        match (holderOrder b e).find? fun h => !passedOver s x.berth (exLayer x) h with
        | some h => .at' h
        | none => held

/-- Whether a holder has accepted page `i` of an exchange (R276). -/
def holderHas (s : State) (x : Exchange) (i h : Nat) : Bool :=
  match exEntry s x i with
  | some (_, e) => e.holderA = h || e.holderB = h
  | none => false

/-- Whether page `i` joins a run at a place: one computed there too, or an unattended one that the place holds (R274, R276). -/
def joinsRun (s : State) (x : Exchange) (p : Place) (i : Nat) : Bool :=
  match p, placeOf s x i with
  | .here _, .here _ => true
  | .here _, .any => true
  | .at' h, .at' k => h = k
  | .at' h, .any => holderHas s x i h
  | _, _ => false

/-- How many pages from `i` on join a run, at most `fuel`. -/
def runLength (s : State) (x : Exchange) (p : Place) : Nat → Nat → Nat
  | 0, _ => 0
  | fuel + 1, i => if joinsRun s x p i then runLength s x p fuel (i + 1) + 1 else 0

/-- The next run of an exchange: unattended pages are passed, and the run goes as far as its place does, a remote one to 2,048 pages
(R271, R274). -/
def nextRun (s : State) (x : Exchange) : Option (Place × Nat × Nat) :=
  match ((List.range (x.last - x.first)).map (x.first + ·)).find? fun i => placeOf s x i ≠ .any with
  | none => none
  | some i =>
    let p := placeOf s x i
    let most := match p with | .at' _ => min 2048 (x.last - i) | _ => x.last - i
    some (p, i, runLength s x p most i)

/-- The descriptor of the run that is sent, with the state that it continues (R271, R275). -/
def runMsg (x : Exchange) : Bytes :=
  let b := placeAt (placeAt x.msg 8 (toLe 4 x.stepSeq)) 24 (toLe 4 x.first ++ toLe 4 x.count)
  placeAt (b.take (apStateAt x.msg)) 40 (toLe 1 (b2n (!x.state.isEmpty))) ++ x.state

/-- Write the result of a SEND to its QUERY slot's ADDRESS and note it as read there (R441, log 59). -/
def resultWrite (slot : Nat) (b : Bytes) (tag : Nat) (s : State) : State :=
  match curRun s with
  | none => s
  | some r =>
    let sr := slotRec r.batch slot
    let s1 := modRun (fun r => { r with readNow := r.readNow ++ [⟨slot, 0, b, List.replicate b.length tag, none⟩] }) s
    if sr.tier ≠ 2 && dpaMapped sr.addr && dpaMapped (sr.addr + b.length - 1) then memWrite sr.addr b (List.replicate b.length tag) s1 else s1

/-- The flag that the descriptor binds to a slot advances (R139, R275). -/
def slotFlag (slot : Nat) (s : State) : State :=
  match curRun s with
  | none => s
  | some r => flagArrival (slotRec r.batch slot).flag s

/-- Counts of a fold that a sender runs join those of the first core that the SEND names (R94, log 122). -/
def foldCounts (core : Nat) (l : List FoldState) (s : State) : State :=
  stageSat core (stageSat core s (0, (l.map (·.sat)).sum)) (2, (l.map (·.half)).sum)

/-- A segment of a SEND is folded. With the last of them the result is formed and goes to the slot (R270). -/
def segDone (x : Exchange) (s : State) : State :=
  match tabGet s.eng.groups x.group with
  | none => s
  | some g =>
    let done := tabPut g.done x.seg (x.state, x.tag)
    if done.length < g.segments then modEng (fun e => { e with groups := tabPut e.groups x.group { g with done := done } }) s
    else
      let l := mergeSegments (vecFtz s) (halfIeee s) x.msg (done.map (·.2.1))
      resultWrite x.slot (stateBytes l) (worst (done.map (·.2.2)))
        (foldCounts x.core l (modEng (fun e => { e with groups := tabDel e.groups x.group }) s))

/-- A poisoned empty state for a message's rows, and the flag (R280, R429). What the SEND still awaits is not used any more. -/
def runPoisoned (x : Exchange) (kind : Nat) (s : State) : State :=
  let n := apRows x.msg * apQh x.msg
  slotFlag x.slot (resultWrite x.slot (stateBytes (List.replicate n (foldEmpty (apDim x.msg)))) kind
    (modEng (fun e => { e with groups := tabDel e.groups x.group }) s))

/-- Page `i` has been answered for by every holder of its entry with ST_NO_PAGE or ST_POISON (R280). -/
def pageGone (s : State) (x : Exchange) (i : Nat) : Bool :=
  match exEntry s x i with
  | none => false
  | some (b, e) =>
    let hs := holderOrder b e
    pageAttended x.msg i && e.desc = 0xFFFFFFFF && !hs.isEmpty &&
      hs.all fun h => s.eng.passed.contains (x.berth, exLayer x, h, some i)

/-- An entry that has lost every holder and has no local copy becomes LOST (R280). -/
def entryLost (b e : Nat) (s : State) : State :=
  bump LGT_LOST_CNT 1 (modPt b e (fun y => { y with holderA := 0xFFF, holderB := 0xFFF, state := 6 }) s)

/-- The pages of an exchange that every holder has given up leave their entries, and a failed group's manifest is reported with ST_STATE_LOST
for any such page, with ST_TARGET_DEAD otherwise (R280). -/
def groupStatus (x : Exchange) (s : State) : State :=
  let gone := (List.range (x.last - x.first)).map (x.first + ·) |>.filter (pageGone s x)
  let t := match berthAt s x.berth with | some b => b.table | none => {}
  let s1 := gone.foldl (fun u i => entryLost x.berth (ptIndex t i (exLayer x)) u) s
  let st := if gone.isEmpty then stTargetDead else stStateLost
  let note := fun (r : Run) =>
    if r.lost.any fun y => y.1 = x.mid then { r with lost := r.lost.map fun y => if y.1 = x.mid && st = stStateLost then (y.1, st) else y }
    else { r with lost := r.lost ++ [(x.mid, st)] }
  modRun note s1

/-- The row group of an exchange fails (R280): its manifest goes to REBUILD at the boundary. -/
def groupFailed (x : Exchange) (s : State) : State :=
  let known := match curRun s with | some r => r.lost.any fun y => y.1 = x.mid | none => true
  runPoisoned x 1 (groupStatus x (if known then s else bump ATT_FAIL_CNT 1 s))

/-- Send the run of an exchange to its holder on a QP, under a fresh TAG. -/
def sendPartial (x : Exchange) (qp : Nat) (s : State) : State :=
  let tg := takeTag s
  let b := runMsg x
  let s1 := sendMsgOn qp { opcode := 0x38, tag := tg.1, mid := x.mid, slack := manBudget s x.berth, payload := b } (.attPartial tg.1) tg.2
  let s2 := bump ATT_SENT_CNT 1 (moved x.berth (evoBytes b.length) s1)
  let s3 := if x.again then bump ATT_RETRY_CNT 1 s2 else s2
  modEng (fun e => { e with exch := tabPut e.exch tg.1 { x with qp := qp, sentAt := none, pended := false } }) s3

/-- Wait for the outcome of a SYS.HELLO (R528): the exchange is kept under a TAG of its own. -/
def holdPartial (x : Exchange) (s : State) : State :=
  let tg := takeTag s
  modEng (fun e => { e with exch := tabPut e.exch tg.1 { x with qp := 2 ^ 20 } }) tg.2

/-- The frames of a local run of `n` pages, by index. -/
def localPages (s : State) (x : Exchange) (n : Nat) : List (Nat × Nat) :=
  (List.range n).filterMap fun k => match placeOf s x (x.first + k) with | .here f => some (x.first + k, f) | _ => none

/-- Fold the local pages of a run into the state (R275). The fold is the sending cluster's: its expander decodes coded pages, and its counts
and NaN inputs are those of the first core that the SEND names. -/
def foldLocal (x : Exchange) (n : Nat) (s : State) : Exchange × State :=
  let l := (localPages s x n).map fun y => (y.1, foldFetch s y.2)
  let pages := l.map fun y => (y.1, y.2.bytes)
  let st := foldStates (vecFtz s) (escIgnore s) (halfIeee s) x.msg pages x.state
  let tag := worst (l.map fun y => worst y.2.tags)
  ({ x with state := stateBytes st, first := x.first + n, tag := max x.tag tag },
   foldCounts x.core st (nanEvent x.core (foldNan (escIgnore s) x.msg pages) (foldBlocks x.cluster (l.map (·.2)) s)))

/-- Go on with a segment of a SEND from its first page on: fold what is here, send what is elsewhere, until a result is
awaited or the segment is done (R274, R275). `fuel` bounds the cuts and the holders passed over. -/
def runOn : Nat → Exchange → State → State
  | 0, _, s => s
  | fuel + 1, x, s =>
    if (tabGet s.eng.groups x.group).isNone then s
    else if (List.range (x.last - x.first)).any (fun k => placeOf s x (x.first + k) = .nowhere) then groupFailed x s
    else
      match nextRun s x with
      | none => segDone x s
      | some (.at' h, i, n) =>
        if x.tag ≠ 0 then runPoisoned x x.tag s
        else
          let y := { x with holder := h, first := i, count := n }
          (match chooseQp s h x.comp with
           | .qp q => sendPartial y q s
           | .wait => holdPartial y s
           | .failed _ => runOn fuel x (passOver x.berth (exLayer x) h none s))
      | some (_, i, n) =>
        let y := foldLocal { x with first := i } n s
        runOn fuel { y.1 with again := false } y.2

/-- Cuts and passed holders that one segment can meet. -/
def runFuel (x : Exchange) : Nat := 2 * (x.last - x.first) + 16

/-- Close an exchange. -/
def exClose (tag : Nat) (s : State) : State := modEng (fun e => { e with exch := tabDel e.exch tag }) s

/-- An exchange fails: its holder is passed over and the run goes to the next (R279). A run of a SEND that has failed already may still show
that a page is lost (R280). -/
def exFailed (tag : Nat) (x : Exchange) (page : Option Nat) (s : State) : State :=
  let s1 := passOver x.berth (exLayer x) x.holder none (exClose tag s)
  let s2 := match page with | some i => passOver x.berth (exLayer x) x.holder (some i) s1 | none => s1
  let failed := (tabGet s2.eng.groups x.group).isNone && (match curRun s2 with | some r => r.lost.any fun y => y.1 = x.mid | none => false)
  if failed && (List.range (x.last - x.first)).any (fun k => pageGone s2 x (x.first + k)) then groupStatus x s2
  else runOn (runFuel x) { x with again := true } s2

/-- Exchanges that waited for a version choose their QP again (R528). -/
def resumeExchanges (s : State) : State :=
  (s.eng.exch.filter fun e => e.2.qp = 2 ^ 20).foldl (fun t e => runOn (runFuel e.2) e.2 (exClose e.1 t)) s

/-- A transport failure of a message of an exchange (R279). -/
def exchangeLost (tag : Nat) (s : State) : State :=
  match tabGet s.eng.exch tag with
  | none => s
  | some x => exFailed tag x none s

/-! ## SEND (R132, R138, R182, R183, R270, R274 to R276, R429) -/

/-- Fields of a SEND. -/
def sendLen (e : Bytes) : Nat := leAt e 12 4
def sendDest (e : Bytes) : Nat := leAt e 16 8
def sendCode (e : Bytes) : Bool := bit (leAt e 24 1) 0

/-- The bytes of a SEND with their tags: each named core's in ascending position order, one behind the other (log 60). -/
def sendData (s : State) (m : Nat) (e : Bytes) : Bytes × List Nat :=
  let l := entryCores s m e
  (l.flatMap fun k => cmRead s k (enCm e 8) (sendLen e), l.flatMap fun k => cmTags s k (enCm e 8) (sendLen e))

/-- Route data through the region's compressor when CODE asks for it and the slot is bound to a coded format, as a whole number of 32
symbols; anything else is counted and stays plain (R182, R184). -/
def sendCoded (m : Nat) (e : Bytes) (sr : SlotRec) (b : Bytes) (s : State) : Option (Nat × Bool) × State :=
  if !sendCode e then (none, s)
  else if codable sr.format && !b.isEmpty && b.length % (symBits sr.format * 4) = 0 then
    (some (sr.format, (regionSt s (m / 4)).compFenced), (codeObject (m / 4) sr.format b s).2)
  else (none, bump (CMP_RAW_OBJECTS (m / 4)) 1 s)

/-- A SEND to a QUERY slot that asks for coding: ATT.PARTIAL has no coded form (R271), so that the data leaves plain and is counted
(R182, log 22). -/
def queryPlain (m : Nat) (e : Bytes) (s : State) : State := if sendCode e then bump (CMP_RAW_OBJECTS (m / 4)) 1 s else s

/-- The pages of a message that lie below every row of it (R276). -/
def pagesBelow (b : Bytes) : Nat :=
  ((List.range (apRows b)).map (apPos b)).foldl (fun a q => min a (q / apP b)) (apFirst b + apCount b)

/-- The segments of the pages from `first` to `last`, each with its own part of them (R270). -/
def segmentsOf (p first last : Nat) : List (Nat × Nat) :=
  let per := 131072 / p
  if last ≤ first then []
  else
    (List.range ((last - 1) / per - first / per + 1)).map fun k =>
      let g := first / per + k
      (max first (per * g), min last (per * (g + 1)))

/-- A QUERY SEND leaves as ATT.PARTIAL: its bytes are the descriptor and the queries (log 59). The first run of every segment starts at
once (R138, R270, R275). -/
def sendQuery (m core slot : Nat) (b : Bytes) (tags : List Nat) (s : State) : State :=
  let bn := (berthOfRequest s (apRequest b)).getD (2 ^ 14)
  let comp := match berthAt s bn with | some x => compOf s x | none => 0
  let segs := segmentsOf (apP b) (apFirst b) (pagesBelow b)
  let g := tabGap s.eng.groups 0
  let x : Exchange :=
    { berth := bn, mid := (if bn < 2 ^ 14 then midOf s bn else 0xFFFFFFFF), comp := comp, stepSeq := recStep s, cluster := m, core := core,
      slot := slot, msg := b, state := [], tag := 0, first := 0, count := 0, last := 0, holder := 0xFFF, qp := 0, sentAt := none,
      group := g, seg := 0 }
  let s1 := modEng (fun e => { e with groups := tabPut e.groups g ⟨max 1 segs.length, []⟩ }) s
  if worst tags ≠ 0 then runPoisoned x (worst tags) s1
  else if segs.isEmpty then segDone x s1
  else
    ((List.range segs.length).zip segs).foldl (fun t y =>
      let z := { x with seg := y.1, first := y.2.1, last := y.2.2 }
      runOn (runFuel z) z t) s1

/-- The effect of a SEND by the kind of its destination. A step run for verification sends nothing: the results it reads
come with its inputs (R439, R441). R138 gives SEND the kinds HELD, QUERY and PASS: DESIGN CHOICE, a SEND to an INPUT slot or to an
unbound one has no effect (log 143). -/
def sendFx (m : Nat) (e : Bytes) (s : State) : State :=
  match curRun s, s.eng.step with
  | some r, some st =>
    let slot := refHandle (sendDest e) - 0xF000
    let sr := slotRec r.batch slot
    let d := sendData s m e
    let off := refOff (sendDest e)
    if sr.kind = 1 then
      (let c := sendCoded m e sr d.1 s
       modRun (fun r => { r with heldNow := ⟨slot, off, d.1, d.2, c.1⟩ :: r.heldNow }) c.2)
    else if sr.kind = 3 then
      (let c := sendCoded m e sr d.1 s
       modRun (fun r => { r with passNow := ⟨slot, off, d.1, d.2, c.1⟩ :: r.passNow }) c.2)
    else if sr.kind = 2 then
      (match st.what with
       | .run _ => sendQuery m ((entryCores s m e).headD 0) slot d.1 d.2 (queryPlain m e s)
       | _ => slotFlag slot (queryPlain m e s))
    else s
  | _, _ => s

/-- SEND: the table entry writes to a HELD, QUERY or PASS batch slot. -/
def execSendEntry (m cyc now : Nat) (s0 : State) : Host.Outcome State Fault Refusal :=
  let s := atTick now s0
  match entryOf s m opSend with
  | none => .next s
  | some e => if loadsCome s m e then .next (sendFx m e (issue m cyc e s)) else .next s

/-! ## Results (R272, R273, R279) -/

/-- The parts of an ATT.RESULT (R272). -/
def arStatus (b : Bytes) : Nat := leAt b 24 2
def arBad (b : Bytes) : Nat := leAt b 28 4

/-- A result is well formed for its exchange (R273). -/
def resultOk (x : Exchange) (p : Pkt) : Bool :=
  let b := p.payload
  32 ≤ b.length && p.mid = x.mid && leAt b 0 8 = apRequest x.msg && leAt b 8 4 = x.stepSeq && leAt b 12 2 = exLayer x &&
    leAt b 14 2 = apRows x.msg && leAt b 16 4 = x.first && leAt b 20 4 = x.count &&
    (if arStatus b = stOk then
      b.length = 32 + stateLen (apRows x.msg * apQh x.msg) (apDim x.msg) && arBad b = 0xFFFFFFFF
     else
      (arStatus b = stNoPage || arStatus b = stPoison) && b.length = 32 && x.first ≤ arBad b && decide (arBad b < x.first + x.count))

/-- Ticks since the first packet of an exchange was sent. -/
def exchangeAge (s : State) (x : Exchange) : Nat := s.tick - x.sentAt.getD s.tick

/-- An exchange that closes later than ATT_BUDGET is counted (R279). -/
def budgetCheck (x : Exchange) (s : State) : State :=
  if usTicks (regField s ATT_BUDGET 15 0) < exchangeAge s x then bump ATT_OVER_BUDGET_CNT 1 s else s

/-- A result for its exchange: merged as the state of its run, or a failure of the exchange (R275, R279). -/
def resultFx (tag : Nat) (x : Exchange) (p : Pkt) (s : State) : State :=
  let s1 := budgetCheck x (moved x.berth (evoBytes p.payload.length) s)
  if !resultOk x p then exFailed tag x none s1
  else if arStatus p.payload ≠ stOk then exFailed tag x (some (arBad p.payload)) s1
  else
    let s2 := keepMax ATT_RTT_MAX (exchangeAge s x) (exClose tag s1)
    let y := { x with state := p.payload.drop 32, first := x.first + x.count, again := false }
    runOn (runFuel y) y (slotFlag x.slot s2)

/-- ATT.RESULT meets its exchange by TAG; one for no exchange is late (R273). -/
def attResultAct (p : Pkt) (s : State) : State :=
  match tabGet s.eng.exch p.tag with
  | some x => if x.qp = 2 ^ 20 then bump ATT_LATE_CNT 1 s else resultFx p.tag x p s
  | none => bump ATT_LATE_CNT 1 s

/-- A never-answered packet of a layout that does not hold is discarded and counted (R316). -/
def orDiscard (c : Bool) (act : State → State) (s : State) : State := if c then act s else bump CMD_DISCARD_CNT 1 s

def rowAttResult : OpRow := ⟨0x39, true, true, false, 68157472, false⟩

def attResultFx (p : Pkt) (s : State) : State :=
  receive rowAttResult p (orDiscard (paramsZero p false false false false) (attResultAct p)) s
def execAttResult (p : Pkt) (s : State) : Host.Outcome State Fault Refusal := .next (attResultFx p s)

/-- The status reply of a holder: anything but ST_PENDING fails the exchange (R279). The final ST_OK of R317 that may overtake
the ATT.RESULT is no status reply (log 90). -/
def attReplyAct (tag st : Nat) (s : State) : State :=
  match tabGet s.eng.exch tag with
  | none => s
  | some x =>
    if st = stPending then modEng (fun e => { e with exch := tabMod e.exch tag fun y => { y with pended := true } }) s
    else if st = stOk && x.pended then s
    else exFailed tag x none s

def attPartialStatusReplyFx (r : Rep) (s : State) : State :=
  onReply r (fun s => (tabGet s.eng.exch r.tag).isSome) (attReplyAct r.tag) s
def execAttPartialStatusReply (r : Rep) (s : State) : Host.Outcome State Fault Refusal := .next (attPartialStatusReplyFx r s)

/-- The result of an exchange arrives on this tick, and waits in the queue: the arrival wins over the timeout (R279). -/
def resultArrives (s : State) (tag : Nat) : Bool :=
  s.pending.any fun i => match i with | .attResult p => p.tag = tag && decide (p.now ≤ s.tick) | _ => false

/-- ATT_TMO ends an exchange (R279). -/
def attExchangeTimeoutFx (tag now : Nat) (s0 : State) : State :=
  let s := atTick now s0
  match tabGet s.eng.exch tag with
  | none => s
  | some x =>
    if alive s && x.sentAt.isSome && decide (usTicks (regField s ATT_TMO 13 0) ≤ exchangeAge s x) &&
        !resultArrives s tag && !replyArrives s tag then
      exFailed tag x none (budgetCheck x s)
    else s
def execAttExchangeTimeout (tag now : Nat) (s : State) : Host.Outcome State Fault Refusal := .next (attExchangeTimeoutFx tag now s)

/-! ## Service (R277, R278) -/

/-- The copy of a key that serves, sealed. -/
def servedFrames (s : State) (b : Bytes) : List Nat :=
  (List.range (apCount b)).filterMap fun k => copyOf s (apRequest b) (apFirst b + k) (apLayer b)

/-- The first ATT.PARTIAL of a composition comes into service, and the last one leaves it (R414). -/
def serveBegins (comp : Nat) (s : State) : State :=
  if (tabGet s.sched.serveSince comp).isSome then s else modSched (fun d => { d with serveSince := tabPut d.serveSince comp s.tick }) s

/-- Whole microseconds of a composition's activity. -/
def meterActive (comp us : Nat) (s : State) : State :=
  modSched (fun d =>
    let m := tabGetD d.meters comp {}
    { d with meters := tabSet d.meters comp { m with activeUs := min (m.activeUs + us) cntMax } {} }) s

def serveEnds (comp : Nat) (s : State) : State :=
  if s.eng.folds.any fun e => arrivalComp s e.2.pkt.path = comp then s
  else
    match tabGet s.sched.serveSince comp with
    | none => s
    | some t => modSched (fun d => { d with serveSince := tabDel d.serveSince comp }) (meterActive comp ((s.tick - t) / 100) s)

/-- Accept an ATT.PARTIAL: ST_PENDING, and a reference on every page that is read (R159, R278). -/
def serviceAct (p : Pkt) (s0 : State) : State :=
  if !(paramsZero p false false false false && partialOk p.payload) then failAt 0x38 p stFormat 0x104 s0
  else
    let s := serveBegins (arrivalComp s0 p.path) s0
    let fs := servedFrames s p.payload
    let s1 := fs.foldl (fun t f => modFrame f (fun x => { x with refs := x.refs + 1 }) t) s
    pend 0x38 p (modEng (fun e => { e with folds := tabPut e.folds (tabGap e.folds 0) ⟨p, fs⟩ }) s1)

def rowAttPartial : OpRow := ⟨0x38, false, false, true, 2 ^ 24, false⟩

def attPartialFx (p : Pkt) (s : State) : State := receive rowAttPartial p (serviceAct p) s
def execAttPartial (p : Pkt) (s : State) : Host.Outcome State Fault Refusal := .next (attPartialFx p s)

/-- The pages that a service reads: those named that some row attends to, with index, frame and what a read delivers (R278). -/
def servedReads (s : State) (v : AttService) : List (Nat × Nat × Fetched) :=
  (v.frames.map fun f => (((frameAt s f).getD {}).index, f, foldFetch s f)).filter fun x => pageAttended v.pkt.payload x.1

/-- A page read is poisoned: by an uncorrected error of this read, or in what it delivers. -/
def readPoisoned (poisoned : List Nat) (x : Nat × Nat × Fetched) : Bool := poisoned.contains x.1 || worst x.2.2.tags ≠ 0

/-- The page that a service cannot use: the lowest missing or poisoned, with its status. -/
def servedBad (s : State) (v : AttService) (poisoned : List Nat) : Option (Nat × Nat) :=
  let b := v.pkt.payload
  ((List.range (apCount b)).map (apFirst b + ·)).findSome? fun i =>
    if !(v.frames.any fun f => match frameAt s f with | some x => x.index = i | none => false) then some (i, stNoPage)
    else if (servedReads s v).any fun x => x.1 = i && readPoisoned poisoned x then some (i, stPoison) else none

/-- The raw pages that a service folds. -/
def servedPages (s : State) (v : AttService) : List (Nat × Bytes) := (servedReads s v).map fun x => (x.1, x.2.2.bytes)

/-- The coded pages of a firmware fold pass some cluster's expander: no rule names it, and it is a free value among those in service
(log 58). -/
def servedBlocks (s0 : State) (l : List Fetched) : State :=
  let x := takeFree 7 s0
  if l.all (·.blocks.isEmpty) then s0 else foldBlocks ((clustersIn s0).getD (x.1 % max 1 (clustersIn s0).length) 0) l x.2

/-- The ATT.RESULT descriptor (R272). -/
def resultHead (b : Bytes) (st bad : Nat) : Bytes :=
  slice b 0 16 ++ slice b 24 8 ++ toLe 2 st ++ toLe 2 0 ++ toLe 4 bad

/-- What a packet that the device forwards, or answers with a message of its own, has left: residence, at least 1 microsecond,
and the link delay are taken from it (R35, R36). -/
def slackOut (s : State) (p : Pkt) : Budget := ⟨p.slack, p.now, linkUs s p.path, 1⟩

/-- Send a message of the device's own on the path on which a command arrived (R528). -/
def sendBack (p : Pkt) (o : MsgOut) (s : State) : State :=
  match p.path with
  | .ring n => ringPacket n p.seq o s
  | .fabric qp _ _ => sendMsgOn qp o .plain s
  | _ => s

/-- The fold of a service ends: references go, R179 applies to a poisoned page, ATT.RESULT leaves, and the command's final reply
follows it; mirror copies that gave way to it go on (R258, R272, R278, R317, log 90). -/
def attServiceCompleteFx (service now : Nat) (poisoned : List Nat) (s0 : State) : State :=
  let s := atTick now s0
  match tabGet s.eng.folds service with
  | none => s
  | some v =>
    if !alive s then s
    else
      let b := v.pkt.payload
      let esc := escIgnore s
      let bad := servedBad s v poisoned
      let pages := servedPages s v
      let st := match bad with | some x => x.2 | none => stOk
      let hurt := ((servedReads s v).filter (readPoisoned poisoned)).map (·.2.1)
      let s1 := v.frames.foldl (fun t f => frameUnref f (modFrame f (fun x => { x with served := s.tick }) t))
        (servedBlocks s ((servedReads s v).map (·.2.2)))
      let s2 := hurt.foldl (fun t f => if (frameAt t f).isSome then ownCopyLost f t else t) s1
      let s3 := serveEnds (arrivalComp s v.pkt.path) (modEng (fun e => { e with folds := tabDel e.folds service }) s2)
      let s4 := bump ATT_SERVED_CNT 1 s3
      let incoming := if apHasState b then b.drop (apStateAt b) else []
      let body := if st = stOk then foldRun (vecFtz s) esc (halfIeee s) b pages incoming else []
      let s5 := if st = stOk then bump ATT_REMOTE_PAGES (apCount b) s4 else bump ATT_NO_PAGE_CNT 1 s4
      let s6 := if st = stOk && foldNan esc b pages then foldNanEvent s5 else s5
      copyJobs (ok 0x38 v.pkt 0 (sendBack v.pkt
        { opcode := 0x39, tag := v.pkt.tag, mid := v.pkt.mid, flags := 3, slack := slackOut s v.pkt,
          payload := resultHead b st (match bad with | some x => x.1 | none => 0xFFFFFFFF) ++ body } s6))
def execAttServiceComplete (service now : Nat) (poisoned : List Nat) (s : State) : Host.Outcome State Fault Refusal :=
  .next (attServiceCompleteFx service now poisoned s)

/-! ## ATT_RTT_MAX (R282) -/

/-- A read of a register that clears on reading returns its word and clears it (R22, R24). -/
def readClear (off : Nat) (s : State) : State := regPut off 0 (emit (.readData (toLe 4 (regGet s off)) false) s)

def execAttRttMaxRead (s : State) : Host.Outcome State Fault Refusal := .next (if readable s then readClear ATT_RTT_MAX s else s)

end Sys2Proof.Machine
end

