-- ==== Sys2Proof/Machine/Power.lean ====
section
/-! DEFINITION. Power, temperature and the FATAL class (R421, R457, R512, R516 to R520). -/

namespace Sys2Proof.Machine

/-! ## FATAL events (R421, R494) -/

/-- The device stops: the indication of R494 is set, the record leaves, and nothing is answered from then on. -/
def fatalShutdown (w : RecWords) (s : State) : State :=
  let s1 := irqEvent 1 (modDev (fun d => { d with fatal := true }) s)
  record { w with cls := 2 } (emit .aerInternal s1)

/-- An uncorrected error in an I/O die's control logic, or an overrun of its queues (R420). -/
def ioDieFatalErrorFx (now die : Nat) (s0 : State) : State :=
  let s := atTick now s0
  if alive s && decide (die < 2) then fatalShutdown { cause := 0x48, cls := 2, kind := 10, unit := die, c0 := 1 } s else s
def execIoDieFatalError (now die : Nat) (s : State) : Host.Outcome State Fault Refusal := .next (ioDieFatalErrorFx now die s)

/-- The clock is lost in service: FATAL, on the north I/O die (R457, R520). -/
def clockLost (s : State) : State :=
  fatalShutdown { cause := 0x48, cls := 2, kind := 10, unit := 0, c0 := 2 } (modDev (fun d => { d with lock := setBits d.lock 0 0 0 }) s)

def rootLockLossFx (now : Nat) (s0 : State) : State :=
  let s := atTick now s0
  if alive s then clockLost s else s
def execRootLockLoss (now : Nat) (s : State) : Host.Outcome State Fault Refusal := .next (rootLockLossFx now s)

def ref100LossFx (now : Nat) (s0 : State) : State :=
  let s := atTick now s0
  if alive s then clockLost s else s
def execRef100Loss (now : Nat) (s : State) : Host.Outcome State Fault Refusal := .next (ref100LossFx now s)

/-- A die sensor at 115 °C: the comparator asserts THERMTRIP_N and latches it, with or without firmware (R514, R519). -/
def thermtripFx (now sensor : Nat) (s0 : State) : State :=
  let s := atTick now s0
  if s.dev.thermtrip || decide (10 ≤ sensor) then s
  else
    let s1 := emit (.pin .thermtripN false) (modDev (fun d => { d with thermtrip := true }) s)
    if alive s then fatalShutdown { cause := 0x49, cls := 2 } s1 else s1
def execThermtrip (now sensor : Nat) (s : State) : Host.Outcome State Fault Refusal := .next (thermtripFx now sensor s)

/-! ## Sensors and the issue level (R516 to R518) -/

/-- Sensor `n` of THM_TEMP_n is read: its die stack is present, or its HBM3E stack in service. -/
def sensorRead (s : State) (n : Nat) : Bool :=
  if n < 8 then !s.core.stacksGone.contains (n % 4) else if n < 10 then true else s.tier.hbm.getD (n - 10) 0 = 1

/-- Whether a sensor that is read satisfies `p`. -/
def someSensor (s : State) (l : List Nat) (lo hi : Nat) (p : Nat → Bool) : Bool :=
  (List.range (hi - lo)).any fun i => sensorRead s (lo + i) && p (l.getD (lo + i) 0)

/-- Store the readings. -/
def tempsPut (l : List Nat) (s : State) : State :=
  (List.range 22).foldl (fun t n => regPut (THM_TEMP n) (if sensorRead s n then 2 ^ 31 + l.getD n 0 % 256 else 0) t) s

/-- The estimate is above the cap, or at most 95% of it. -/
def overCap (s : State) : Bool := regField s PWR_CAP 11 0 < regField s PWR_EST_W 12 0
def underCap (s : State) : Bool := 100 * regField s PWR_EST_W 12 0 ≤ 95 * regField s PWR_CAP 11 0

/-- The level after a reading; THROTTLE_IN forces it as long as it is asserted (R517, log 159). -/
def levelAfter (s : State) (l : List Nat) (asked : Bool) : Nat :=
  let n := s.pwr.level
  let hot := someSensor s l 0 10 (fun c => decide (100 ≤ c)) || someSensor s l 10 22 (fun c => decide (95 ≤ c))
  if hot || overCap s || (asked && decide (regField s THM_IN_LEVEL 4 0 < n)) then max 4 (n - 1)
  else if !someSensor s l 0 10 (fun c => decide (98 ≤ c)) && !someSensor s l 10 22 (fun c => decide (93 ≤ c)) && underCap s && !asked
  then min 16 (n + 1) else n

/-- A reading of every sensor. The 100 µs that end here hold 270,000 CLK_CORE cycles, of which (16 − N)/16 were withheld
(R137, R518). THROTTLE_IN is heard on the pin that the feature owns (R469). -/
def thermalSampleFx (now : Nat) (celsius : List Nat) (throttleIn : Bool) (s0 : State) : State :=
  let s := atTick now s0
  if !alive s then s
  else
    let asked := throttleIn && (ownedPin s 2).isSome
    let hot := bitmap 12 fun n => sensorRead s (10 + n) && decide (95 ≤ celsius.getD (10 + n) 0)
    let thermal := decide (hot ≠ 0) || someSensor s celsius 0 10 fun c => decide (100 ≤ c)
    let n := levelAfter s celsius asked
    let s1 := bump PWR_THROTTLE_CYCLES (16875 * (16 - s.pwr.level)) (tempsPut celsius s)
    let s2 := if hot ≠ 0 then bump THM_HBM_HOT_CNT 1 s1 else s1
    let s3 := modPwr (fun p => { p with level := n, forced := asked, thermal := thermal, hotStacks := hot }) s2
    if s.pwr.level = 16 && decide (n < 16) then irqEvent 9 (bump PWR_THROTTLE_EVENTS 1 s3) else s3
def execThermalSample (now : Nat) (celsius : List Nat) (throttleIn : Bool) (s : State) : Host.Outcome State Fault Refusal :=
  .next (thermalSampleFx now celsius throttleIn s)

/-- An estimate of package power, with the measured rails (R515, R516). -/
def powerEstimateFx (now watts : Nat) (railsMv : List Nat) (s0 : State) : State :=
  let s := atTick now s0
  if !alive s then s
  else (List.range 13).foldl (fun t r => regPut (PWR_RAIL_MV r) (railsMv.getD r 0 % 2 ^ 12) t) (regPut PWR_EST_W (min watts (2 ^ 13 - 1)) s)
def execPowerEstimate (now watts : Nat) (railsMv : List Nat) (s : State) : Host.Outcome State Fault Refusal :=
  .next (powerEstimateFx now watts railsMv s)

/-! ## AVSBus (R512) -/

/-- Set a stack's VDD_CMP target: an unacknowledged transaction leaves the last acknowledged one and sets AVS_ERR. -/
def avsSet (stack mv : Nat) (acked : Bool) (s : State) : State :=
  let s1 := emit (.avs stack mv) s
  if acked then regPut (PWR_CMP_MV stack) mv s1 else modPwr (fun p => { p with avsErr := true }) s1

/-- A target moves by 5 mV, at most once in 10 ms and within 0.62 to 0.80 V. -/
def avsAdjustFx (now stack : Nat) (up acked : Bool) (s0 : State) : State :=
  let s := atTick now s0
  let old := regField s (PWR_CMP_MV stack) 9 0
  let mv := if up then old + 5 else old - 5
  let early := match tabGet s.pwr.avsAt stack with | some t => decide (s.tick < t + msTicks 10) | none => false
  if !alive s || decide (4 ≤ stack) || s.core.stacksGone.contains stack || early || decide (mv < 620) || decide (800 < mv) then s
  else avsSet stack mv acked (modPwr (fun p => { p with avsAt := tabPut p.avsAt stack s.tick }) s)
def execAvsAdjust (now stack : Nat) (up acked : Bool) (s : State) : Host.Outcome State Fault Refusal :=
  .next (avsAdjustFx now stack up acked s)

end Sys2Proof.Machine
end

