-- ==== Sys2Proof/Machine/Link.lean ====
section
/-! DEFINITION. Fabric lanes and ports: training, width, keepalives, credits, pause, gates and the start of frames
(R342 to R353, R361, R373, R416). -/

namespace Sys2Proof.Machine

/-! ## Sliding windows (R424) -/

/-- Event times in milliseconds of CLK_MGT. -/
def msNow (s : State) : Nat := s.tick / 100000

/-- Add an event to a history, newest first; the last 256 are enough for every threshold. -/
def histAdd (t : Tab (List Nat)) (k now : Nat) : Tab (List Nat) := tabPut t k ((now :: tabGetD t k []).take 256)

/-- Whether the newest event reaches a threshold of `n` within `win` milliseconds. -/
def histReached (l : List Nat) (n win : Nat) : Bool :=
  match l, l[n - 1]? with
  | t :: _, some old => decide (t - old < win)
  | _, _ => false

/-- Events of a history within the window that ends now. -/
def histCount (l : List Nat) (now win : Nat) : Nat := (l.filter fun t => decide (now - t < win)).length

/-! ## Ports and lanes -/

/-- The width that the locked lanes give (R345): 0 none, 1, 2 or 3 for one, two or four lanes. -/
def widthOf (lanesUp : Nat) : Nat :=
  if lanesUp % 16 = 15 then 3
  else if bit lanesUp 0 && bit lanesUp 1 then 2
  else if bit lanesUp 2 && bit lanesUp 3 then 2
  else if lanesUp % 16 = 0 then 0 else 1

/-- The lanes that a width uses (R345). -/
def lanesUsed (lanesUp : Nat) : List Nat :=
  match widthOf lanesUp with
  | 3 => [0, 1, 2, 3]
  | 2 => if bit lanesUp 0 && bit lanesUp 1 then [0, 1] else [2, 3]
  | 1 => (bitsOf 4 lanesUp).take 1
  | _ => []

/-- Set the state of a lane of a port (FAB_LANE_STATUS.STATE). -/
def laneSet (p l st : Nat) (s : State) : State := modFab (fun f => { f with lanes := listSet f.lanes (4 * p + l) st }) s

/-- Set every lane of a port that is not disabled. -/
def lanesSet (p st : Nat) (s : State) : State :=
  (List.range 4).foldl (fun t l => if bit (portOf t p).lanesDis l then t else laneSet p l st t) s

/-- The counters after a power-up that reaches READY outside restricted mode: each component's security version (R481). -/
def countersRaised (s : State) : List Nat :=
  (List.range 8).map fun i =>
    let v := s.flash.counters.getD i 0
    if 2 ≤ i && i ≤ 4 then max v (Config.fwSecurity (s.flash.fw.getD (3 * bits s.dev.bootSlot (i - 2) (i - 2) + (i - 2)) [])) else v

/-- READY is set (R458, R461, R469). -/
def serviceBegins (s : State) : State :=
  let s1 := modDev (fun d => { d with ready := true, phase := 11 }) (modFab (fun f => { f with belowMin := false }) s)
  let s2 := if restricted s then s1 else modFlash (fun f => { f with counters := countersRaised s }) s1
  let s3 := irqEvent 0 (modEng (fun e => { e with idleSince := some s.tick }) s2)
  match ownedPin s 1 with
  | some n => emit (.pin (.gpio n) true) s3
  | none => s3

/-- After power-up step 10, READY is set once enough ports are UP (R461). BELOW_MIN follows the ports that are UP while the device is in service (R348). -/
def checkMin (s : State) : State :=
  let up := bitmap 8 fun p => (portOf s p).state = 4
  if !s.dev.ready then (if s.dev.phase = 11 && decide (s.dev.portsMin ≤ (portsUp s).length) then serviceBegins s else s)
  else if (portsUp s).length < s.dev.portsMin then
    if s.fab.belowMin then s
    else irqEvent 8 (record { cause := 0x25, cls := 1, c0 := up } (modFab (fun f => { f with belowMin := true }) s))
  else modFab (fun f => { f with belowMin := false }) s

/-- The first TC-L frame of a port waits for credit no longer: the wait counts in cycles of CLK_BASE, 27 to two ticks (R350, R373,
log 61). -/
def creditWaited (p : Nat) (s : State) : State :=
  match (portOf s p).creditSince with
  | some t => bump (FAB_PORT_CREDIT_WAIT p) (27 * (s.tick - t) / 2) (modPort p (fun q => { q with creditSince := none }) s)
  | none => s

/-- The frames that wait at a port move to the ports that are UP (R347). -/
def requeue (p : Nat) (s : State) : State :=
  let l := (portOf s p).tcl ++ (portOf s p).tcs
  l.foldl (fun t f =>
    let dst := if f.tcs then pathPort t (peerOf t f.qp).1 f.path else tclPort t f.qp
    queueFrame dst f t) (creditWaited p (modPort p (fun q => { q with tcl := [], tcs := [] }) s))

/-- A port leaves UP, or starts a new attempt, for state `st`: width, version and plane are no longer agreed. -/
def portTo (p st attempts : Nat) (s : State) : State :=
  checkMin (requeue p (lanesSet p 0 (modPort p (fun q =>
    { q with state := st, attempts := attempts, since := s.tick, lanesUp := 0, width := 0, linkVer := 0, plane := 0, slow := false,
             kaMiss := 0, pauseTcl := none, pauseTcs := none }) s)))

/-- One attempt has failed: the next one, or DOWN at the third (R344). -/
def attemptFailed (p : Nat) (s : State) : State :=
  let a := (portOf s p).attempts
  if 3 ≤ a then portTo p 7 3 s else portTo p 1 (a + 1) s

/-- An UP port trains again: ATTEMPTS 1 and a PORT_RETRAIN record (R344). -/
def portRetrain (p : Nat) (s : State) : State :=
  portTo p 1 1 (record { cause := 0x20, cls := 0, kind := 7, unit := p, c0 := 1, c1 := (portOf s p).lanesUp } (bump (FAB_PORT_RETRAIN p) 1 s))

/-- RETRAIN written (R344): an UP port trains again, MISWIRED and DOWN leave for DETECT, other states stay. -/
def retrainFx (p : Nat) (s : State) : State :=
  match (portOf s p).state with
  | 4 => portRetrain p s
  | 6 => portTo p 1 1 s
  | 7 => portTo p 1 1 s
  | _ => s

/-- A port in state `st` whose time there is over. -/
def portDue (s : State) (p st ms : Nat) : Bool :=
  alive s && decide (p < 8) && (portOf s p).state = st && decide ((portOf s p).since + msTicks ms ≤ s.tick)

/-- A signal on at least one lane (R344). -/
def execPortSignalDetect (port : Nat) (s : State) : Host.Outcome State Fault Refusal :=
  .next (if alive s && port < 8 && (portOf s port).state = 1 then
      lanesSet port 2 (modPort port (fun q => { q with state := 2, since := s.tick, slow := false }) s)
    else s)

def execPortDetectTimeout (port now : Nat) (s0 : State) : Host.Outcome State Fault Refusal :=
  let s := atTick now s0
  .next (if portDue s port 1 50 then attemptFailed port s else s)

/-- At least one lane locks in TRAIN, at the higher rate or at the lower one after its 25 ms (R344, R345). -/
def execPortLaneLock (port : Nat) (lanes : List Nat) (fast : Bool) (s : State) : Host.Outcome State Fault Refusal :=
  let q := portOf s port
  let up := bitmap 4 fun l => lanes.contains l && !bit q.lanesDis l
  .next (if alive s && port < 8 && q.state = 2 && up ≠ 0 && (fast || q.slow) then
      (bitsOf 4 up).foldl (fun t l => laneSet port l 1 t)
        (modPort port (fun q => { q with state := 3, since := s.tick, lanesUp := up, width := widthOf up }) s)
    else s)

/-- R344: after 25 ms without lock at the higher rate, training may lock at the lower one. -/
def execPortRateFallbackTimeout (port now : Nat) (s0 : State) : Host.Outcome State Fault Refusal :=
  let s := atTick now s0
  .next (if portDue s port 2 25 then modPort port (fun q => { q with slow := true }) s else s)

def execPortTrainTimeout (port now : Nat) (s0 : State) : Host.Outcome State Fault Refusal :=
  let s := atTick now s0
  .next (if portDue s port 2 50 then attemptFailed port s else s)

/-- The link protocol versions the device speaks (R343). -/
def linkSpoken (major minor : Nat) : Bool := (major = 2 && minor = 0) || (major = 1 && minor ≤ 3)

/-- The two ends agree a version, and the partner announces its plane (R344). -/
def negotiated (p major minor plane : Nat) (s : State) : State :=
  let v := 16 * major + minor
  if plane = p then
    (let s1 := modPort p (fun q =>
       { q with state := 4, since := s.tick, linkVer := v, plane := plane, kaTx := s.tick, kaRx := s.tick, kaMiss := 0 }) s
     let w := (portOf s p).width
     checkMin (if w < 3 then record { cause := 0x21, cls := 0, kind := 7, unit := p, c0 := w } s1 else s1))
  else
    record { cause := 0x23, cls := 1, kind := 7, unit := p, c0 := plane }
      (modPort p (fun q => { q with state := 6, since := s.tick, linkVer := v, plane := plane }) s)

def execPortNegotiateDone (port now major minor plane : Nat) (s0 : State) : Host.Outcome State Fault Refusal :=
  let s := atTick now s0
  .next (if alive s && port < 8 && (portOf s port).state = 3 then
      (if linkSpoken major minor then negotiated port major minor plane s else attemptFailed port s)
    else s)

def execPortNegotiateTimeout (port now : Nat) (s0 : State) : Host.Outcome State Fault Refusal :=
  let s := atTick now s0
  .next (if portDue s port 3 10 then attemptFailed port s else s)

/-- Whether a lane's retrains reach ERR_TH_LANE (R346, R424). -/
def laneReached (s : State) (lane : Nat) : Bool :=
  histReached (tabGetD s.err.laneHist lane []) (regField s ERR_TH_LANE 7 0) (1000 * regField s ERR_TH_LANE 27 16)

/-- A lane retrain is counted, and disables the lane at the threshold (R346). -/
def laneRetrained (p l : Nat) (s : State) : State :=
  let lane := 4 * p + l
  let s1 := bump (FAB_LANE_RETRAIN_CNT lane) 1 (modErr (fun e => { e with laneHist := histAdd e.laneHist lane (msNow s) }) s)
  if laneReached s1 lane then
    record { cause := 0x22, cls := 0, kind := 8, unit := lane,
             c0 := histCount (tabGetD s1.err.laneHist lane []) (msNow s) (1000 * regField s ERR_TH_LANE 27 16) }
      (laneSet p l 3 (modPort p (fun q => { q with lanesDis := setBits q.lanesDis l l 1 }) s1))
  else laneSet p l 2 s1

/-- What the loss of a lane does to its port (R344): DOWN with every lane disabled, a lower width, or a new training when the
last lane in use is lost. -/
def laneLossPort (p : Nat) (inUse : Bool) (s : State) : State :=
  let q := portOf s p
  if q.lanesDis % 16 = 15 then
    record { cause := 0x24, cls := 1, kind := 7, unit := p, c0 := q.attempts } (portTo p 7 q.attempts s)
  else if q.state = 4 && inUse then
    if q.width ≤ 1 || widthOf q.lanesUp = 0 then portRetrain p s
    else modPort p (fun q => { q with width := widthOf q.lanesUp }) s
  else if q.state = 3 then modPort p (fun q => { q with width := widthOf q.lanesUp }) s
  else s

def execLaneLossOfLock (port lane now : Nat) (s0 : State) : Host.Outcome State Fault Refusal :=
  let s := atTick now s0
  let q := portOf s port
  .next (if alive s && port < 8 && lane < 4 && bit q.lanesUp lane then
      laneLossPort port ((lanesUsed q.lanesUp).contains lane)
        (modPort port (fun q => { q with lanesUp := setBits q.lanesUp lane lane 0 }) (laneRetrained port lane s))
    else s)

/-- A lane retrained in the background locks again; an UP port widens (R344, R345). -/
def execLaneRetrainLock (port lane : Nat) (s : State) : Host.Outcome State Fault Refusal :=
  .next (if alive s && port < 8 && lane < 4 && s.fab.lanes.getD (4 * port + lane) 0 = 2 && 3 ≤ (portOf s port).state && (portOf s port).state ≤ 4 then
      laneSet port lane 1 (modPort port (fun q =>
        { q with lanesUp := setBits q.lanesUp lane lane 1, width := widthOf (setBits q.lanesUp lane lane 1) }) s)
    else s)

/-! ## Link control -/

/-- A port that carries frames. -/
def portUp (s : State) (p : Nat) : Bool := alive s && decide (p < 8) && (portOf s p).state = 4

/-- Every 100 us an UP port sends a KEEPALIVE (R351). -/
def execKeepaliveSend (port now : Nat) (s0 : State) : Host.Outcome State Fault Refusal :=
  let s := atTick now s0
  let q := portOf s port
  .next (if portUp s port && q.kaTx + usTicks 100 ≤ s.tick then
      frameOut (some port) (0, 0) (.keepalive port s.tick q.partnerTick (if q.partnerTick = 0 then 0 else s.tick - q.kaRx))
        (modPort port (fun q => { q with kaTx := s.tick }) s)
    else s)

/-- The one-way delay that a KEEPALIVE measures; one that echoes nothing measures none (R351, log 39). -/
def delayAfter (old tick echo hold : Nat) : Nat := if echo = 0 then old else min ((tick - echo - hold) / 2) 0xFFFFFFFF

def execKeepaliveReceived (port now plane txTick echoTick hold : Nat) (s0 : State) : Host.Outcome State Fault Refusal :=
  let s := atTick now s0
  .next (if portUp s port && plane < 16 then
      bump (FAB_PORT_RX_FRAMES port) 1 (modPort port (fun q =>
        { q with partnerTick := txTick, kaRx := s.tick, kaMiss := 0, delay := delayAfter q.delay s.tick echoTick hold }) s)
    else s)

/-- 100 us more without a KEEPALIVE: a miss, and at the third the partner is suspect and the port trains again (R351). -/
def execKeepaliveMiss (port now : Nat) (s0 : State) : Host.Outcome State Fault Refusal :=
  let s := atTick now s0
  let q := portOf s port
  .next (if portUp s port && q.kaRx + usTicks 100 * (q.kaMiss + 1) ≤ s.tick then
      (let s1 := bump (FAB_PORT_KA_MISS port) 1 (modPort port (fun q => { q with kaMiss := q.kaMiss + 1 }) s)
       if q.kaMiss = 2 then portRetrain port (record { cause := 0x26, cls := 0, kind := 7, unit := port, c0 := 1 } s1) else s1)
    else s)

/-- Credits a frame costs, and those left to a port (R350). -/
def frameCredits (bytes : Nat) : Nat := divUp bytes 256
def creditsLeft (q : Port) : Nat := (q.credGranted + 2 ^ 32 - q.credUsed % 2 ^ 32) % 2 ^ 32

/-- The first TC-L frame of a port lacks credit. -/
def creditShort (s : State) (p : Nat) : Bool :=
  match (portOf s p).tcl with
  | [] => false
  | f :: _ => decide (creditsLeft (portOf s p) < frameCredits f.bytes)

/-- Credit has come: the first TC-L frame's wait for it ends where it is enough. -/
def creditCame (p : Nat) (s : State) : State := if creditShort s p then s else creditWaited p s

/-- A CREDIT frame carries the cumulative credits granted (R349, R350). -/
def execCreditReceived (port credits : Nat) (s : State) : Host.Outcome State Fault Refusal :=
  .next (if portUp s port then
      creditCame port (bump (FAB_PORT_RX_FRAMES port) 1 (modPort port (fun q => { q with credGranted := credits % 2 ^ 32 }) s))
    else s)

/-- A PAUSE frame (R350). -/
def execPauseReceived (port now : Nat) (tcl tcs : Bool) (time : Nat) (s0 : State) : Host.Outcome State Fault Refusal :=
  let s := atTick now s0
  let till := if time = 0 then none else some (s.tick + time)
  .next (if portUp s port then
      bump (FAB_PORT_PAUSE_RX port) 1 (bump (FAB_PORT_RX_FRAMES port) 1 (modPort port (fun q =>
        { q with pauseTcl := if tcl then till else q.pauseTcl, pauseTcs := if tcs then till else q.pauseTcs }) s))
    else s)

/-- A pause that has not run out. -/
def pausedTill (now : Nat) (x : Option Nat) : Option Nat := match x with | some t => if t ≤ now then none else some t | none => none

def execPauseExpire (port now : Nat) (s0 : State) : Host.Outcome State Fault Refusal :=
  let s := atTick now s0
  .next (if portUp s port then
      modPort port (fun q => { q with pauseTcl := pausedTill s.tick q.pauseTcl, pauseTcs := pausedTill s.tick q.pauseTcs }) s
    else s)

/-- A frame that the link layer or the transport throws away (R349, R353). -/
def execLinkFrameInvalid (port : Nat) (otherDevice : Bool) (s : State) : Host.Outcome State Fault Refusal :=
  .next (if portUp s port then
      bump (FAB_PORT_RX_FRAMES port) 1 (if otherDevice then bump FAB_NO_QP 1 s else bump (FAB_PORT_BAD_FRAME port) 1 s)
    else s)

/-! ## Starting frames -/

/-- Payload rate of a port in Gb/s: lanes times 400 at link protocol 2.0, 200 below it (R342). -/
def portRate (q : Port) : Nat := (if q.width = 3 then 4 else q.width) * (if 32 ≤ q.linkVer then 400 else 200)

/-- Enabled gate windows: start and end in CLK_MGT ticks of the cycle (R373). -/
def gateWindows (s : State) : List (Nat × Nat) :=
  (List.range 4).filterMap fun k =>
    let g := regGet s (FAB_GATE_0 + 4 * k)
    if bit g 31 then some (10 * bits g 8 0, 10 * (bits g 8 0 + bits g 24 16)) else none

/-- Whether a TC-S frame may start: no window is open, and its last byte leaves before the next one opens (R373). -/
def gateAllows (s : State) (p bytes : Nat) : Bool :=
  let q := portOf s p
  let pos := (s.tick - q.gateOrigin) % 5000
  let ps := if portRate q = 0 then 0 else divUp (8000 * bytes) (portRate q)
  (gateWindows s).all fun w =>
    !(decide (w.1 ≤ pos) && decide (pos < w.2)) &&
      decide (10000 * pos + ps ≤ 10000 * (if pos < w.1 then w.1 else w.1 + 5000))

/-- A shaper's count brought up to a tick: RATE bytes per microsecond, stopping at BURST (R416). -/
def shaperAt (tick : Nat) (h : Shaper) : Shaper :=
  { h with count100 := min (h.count100 + ((tick - h.countAt) * h.rate : Nat)) ((100 * h.burst : Nat) : Int), countAt := tick }

/-- Slots ahead at which a QP with a negative count enters the timing wheel (R416). -/
def wheelAhead (h : Shaper) : Nat := min 4095 (max 1 (divUp (-h.count100).toNat (max 1 (8 * h.rate))))

/-- Whether a first sending of a QP must wait for tokens. -/
def shapedOut (s : State) (f : TxFrame) : Bool :=
  (shaperOf s f.qp).enabled && !f.retx && decide ((shaperAt s.tick (shaperOf s f.qp)).count100 < 0)

/-- A QP enters the timing wheel, with its first sendings that wait at a port (R416). -/
def enterWheel (p qp : Nat) (s : State) : State :=
  let q := portOf s p
  let mine := fun (f : TxFrame) => f.qp = qp && !f.retx
  let hold := ((q.tcl ++ q.tcs).filter mine).map fun f => (p, f)
  modShaper qp (fun h =>
    let x := shaperAt s.tick h
    { x with slot := some ((s.sched.cursor + wheelAhead x) % 4096), frames := x.frames ++ hold })
    (modPort p (fun q => { q with tcl := q.tcl.filter fun f => !mine f, tcs := q.tcs.filter fun f => !mine f }) s)

/-- Note the last sending of a frame's packet. -/
def markSent (f : TxFrame) (s : State) : State :=
  modQp f.qp (fun q =>
    if f.tcs then { q with tcsOut := q.tcsOut.map fun o =>
      if o.msgId = f.id then { o with open' := o.open'.map fun x => if x.idx = f.idx then { x with sentAt := s.tick } else x } else o }
    else { q with unacked := q.unacked.map fun x => if x.psn = f.id then { x with sentAt := s.tick } else x }) s


/-- What times a message from the start of its first frame: the transfer and the confirmation of R224, the page move of R252, the
exchange of R279, the forwarded operation of R387 and the batch of R396. -/
def sentNow (w : TxWhat) (s : State) : State :=
  let first := fun (x : Option Nat) => match x with | some t => some t | none => some s.tick
  match w with
  | .handoff b =>
    modMan (fun m => { m with berths := tabMod m.berths b fun x => { x with xfer := x.xfer.map fun y => { y with at' := first y.at' } } }) s
  | .accept b => modMan (fun m => { m with berths := tabMod m.berths b fun x => { x with acceptAt := first x.acceptAt } }) s
  | .attPartial t => modEng (fun e => { e with exch := tabMod e.exch t fun x => { x with sentAt := first x.sentAt } }) s
  | .msa t => modMsa (fun m => { m with fwd := tabMod m.fwd t fun x => { x with sentAt := first x.sentAt } }) s
  | .gateway t => modMsa (fun m => { m with gwOut := tabMod m.gwOut t fun x => { x with sentAt := first x.sentAt } }) s
  | .move m h =>
    modMan (fun a => { a with moves := tabMod a.moves m fun x =>
      { x with tgts := listSet x.tgts h (let t := x.tgts.getD h noTgt; { t with sentAt := first t.sentAt }) } }) s
  | _ => s

/-- The message that a frame belongs to. -/
def frameWhat (s : State) (f : TxFrame) : TxWhat :=
  match qpOf s f.qp with
  | none => .plain
  | some q =>
    if f.tcs then (match q.tcsOut.find? fun o => o.msgId = f.id with | some o => o.what | none => .plain)
    else match q.unacked.find? fun x => x.psn = f.id with | some x => x.what | none => .plain

/-- The counter of a sending (R373). -/
def txCnt (f : TxFrame) : Nat :=
  if f.tcs then (if f.retx then FAB_TCS_RETX else FAB_TCS_TX) else (if f.retx then FAB_TCL_RETX else FAB_TCL_TX)

/-- A frame starts: its packet takes the SLACK_US left now, credit and tokens are charged, and the packet counts as sent now
(R36, R350, R416). -/
def startFrame (p : Nat) (f : TxFrame) (s : State) : State :=
  let slack := budgetLeft f.budget s.tick
  let out := if f.tcs then FrameOut.tcs f.qp f.id f.idx f.path f.count f.retx slack else FrameOut.tcl f.qp f.id f.retx slack
  let s1 := sentNow (frameWhat s f) (markSent f (bump (txCnt f) 1 (frameOut (some p) (peerOf s f.qp) out s)))
  let s2 := if f.tcs then s1 else modPort p (fun q => { q with credUsed := (q.credUsed + frameCredits f.bytes) % 2 ^ 32 }) s1
  if (shaperOf s f.qp).enabled && !f.retx then
    modShaper f.qp (fun h => let x := shaperAt s.tick h; { x with count100 := x.count100 - ((100 * f.bytes : Nat) : Int) }) s2
  else s2

/-- Start the first TC-L frame of a port, once QPs out of tokens have left for the wheel; `fuel` bounds those. -/
def startTcl (p : Nat) : Nat → State → State
  | 0, s => s
  | fuel + 1, s =>
    match (portOf s p).tcl with
    | [] => s
    | f :: t =>
      if shapedOut s f then startTcl p fuel (enterWheel p f.qp s)
      else if (portOf s p).pauseTcl.isSome then s
      else if creditShort s p then modPort p (fun q => { q with creditSince := some (q.creditSince.getD s.tick) }) s
      else startFrame p f (creditWaited p (modPort p (fun q => { q with tcl := t }) s))

/-- Whether a TC-L frame could start now: it goes before every TC-S frame (R373). -/
def tclReady (s : State) (p : Nat) : Bool :=
  match (portOf s p).tcl with
  | [] => false
  | f :: _ => !shapedOut s f && (portOf s p).pauseTcl.isNone && decide (frameCredits f.bytes ≤ creditsLeft (portOf s p))

/-- Start the first TC-S frame of a port. -/
def startTcs (p : Nat) : Nat → State → State
  | 0, s => s
  | fuel + 1, s =>
    match (portOf s p).tcs with
    | [] => s
    | f :: t =>
      if shapedOut s f then startTcs p fuel (enterWheel p f.qp s)
      else if (portOf s p).pauseTcs.isSome || tclReady s p || !gateAllows s p f.bytes then s
      else startFrame p f (modPort p (fun q => { q with tcs := t }) s)

def execFrameSendStart (port now : Nat) (tcs : Bool) (s0 : State) : Host.Outcome State Fault Refusal :=
  let s := atTick now s0
  .next (if portUp s port then
      (if tcs then startTcs port ((portOf s port).tcs.length + 1) s else startTcl port ((portOf s port).tcl.length + 1) s)
    else s)

/-- A QP on the wheel is evaluated again: with tokens its frames join their ports' queues, else it enters anew (R416). -/
def wheelEval (qp : Nat) (s : State) : State :=
  let h := shaperAt s.tick (shaperOf s qp)
  if h.count100 < 0 then modShaper qp (fun _ => { h with slot := some ((s.sched.cursor + wheelAhead h) % 4096) }) s
  else h.frames.foldl (fun t x => queueFrame (some x.1) x.2 t) (modShaper qp (fun _ => { h with slot := none, frames := [] }) s)

/-- QPs on slot `k` of the wheel, ascending. -/
def wheelAt (s : State) (k : Nat) : List Nat := (s.sched.shapers.filter fun e => e.2.slot = some k).map (·.1)

/-- The wheel moves on one slot and evaluates its QPs. -/
def wheelStep (s : State) : State :=
  let k := (s.sched.cursor + 1) % 4096
  (wheelAt s k).foldl (fun t qp => wheelEval qp t) (modSched (fun c => { c with cursor := k }) s)

/-- The wheel advances one slot every 8 ticks (R416). -/
def execShaperWheelSlot (now : Nat) (s0 : State) : Host.Outcome State Fault Refusal :=
  let s := atTick now s0
  let n := (s.tick - s.sched.wheelAt) / 8
  .next (if alive s then
      modSched (fun c => { c with wheelAt := s.sched.wheelAt + 8 * n, cursor := (s.sched.cursor + n) % 4096 })
        ((List.range (min n 4096)).foldl (fun t _ => wheelStep t) s)
    else s)

/-- RETRAIN is the one bit of FAB_PORT_CTRL (R344, R373). -/
def execPortRetrainWrite (port : Nat) (s : State) : Host.Outcome State Fault Refusal :=
  .next (if hostHeard s && port < 8 then retrainFx port s else s)

end Sys2Proof.Machine
end

