-- ==== Sys2Proof/Machine/Msa.lean ====
section
/-! DEFINITION. Memory-semantic access and gateways (chapter 14). -/

namespace Sys2Proof.Machine

/-! ## The area (R375) and its keys (R368) -/

/-- DPA of an area offset (R375). -/
def areaDpa (a : Nat) : Nat := if a < 0x100000 then 0x20000700000 + a else 0x20000F00000 + (a - 0x100000)

/-- The I/O die that owns a line: 0 north, 1 south. -/
def lineDie (line : Nat) : Nat := line / 16384

/-- The bytes of a line. -/
def lineRead (s : State) (line : Nat) : Bytes := memRead s (areaDpa (64 * line)) 64
def lineWrite (line off : Nat) (b : Bytes) (s : State) : State := memStore (areaDpa (64 * line) + off) b s

/-- The region of a key: index registered and variant of its registration (R367, R368). -/
def regionOfKey (s : State) (key : Nat) : Option Region :=
  match tabGet s.fab.regions (key / 256) with
  | some r => if tabGetD s.fab.variants (key / 256) 0 = key % 256 then some r else none
  | none => none

/-- The area offset that an access of `len` bytes at an offset of a region reaches, when the key is valid for it: `acc` is the
bit of ACCESS (R368, R376). -/
def keyAddr (s : State) (key pd acc off len : Nat) : Option Nat :=
  match regionOfKey s key with
  | some r => if r.pd = pd && bit r.access acc && r.kind = 0 && decide (off + len ≤ r.len) then some (r.base + off) else none
  | none => none

/-! ## Line queues (R381 to R383) -/

/-- The operations queued for a line, and for a die. -/
def lineQueue (s : State) (line : Nat) : List MsaOp := tabGetD s.msa.lines line []

def isStore (o : MsaOp) : Bool := match o.kind with | .store _ => true | _ => false

/-- Entries of a queue: stores next to one another are one run and take one entry (R383). -/
def queueEntries : Bool → List MsaOp → Nat
  | _, [] => 0
  | inRun, o :: t => (if isStore o && inRun then 0 else 1) + queueEntries (isStore o) t

def lineDepth (s : State) (line : Nat) : Nat := queueEntries false (lineQueue s line)
def dieQueued (s : State) (die : Nat) : Nat := ((s.msa.lines.filter fun e => lineDie e.1 = die).map fun e => queueEntries false e.2).sum

/-- Room in a line's queue and in its die's queues (R382). -/
def lineRoom (s : State) (line : Nat) : Bool := decide (lineDepth s line < 256) && decide (dieQueued s (lineDie line) < 4096)

/-- An operation enters the queue of its line; MSA_LINE_MAX keeps the depth (R381, R397). -/
def lineEnter (line : Nat) (o : MsaOp) (s : State) : State :=
  let q := lineQueue s line ++ [o]
  keepMax MSA_LINE_MAX (queueEntries false q) (modMsa (fun m => { m with lines := tabSet m.lines line q [] }) s)

/-- Waiting operations enter in order, each behind those of its own port, once there is room; the wait is counted in cycles of
CLK_BASE, 27 to two ticks (R382, log 61). -/
def ingressDrain : List MsaWait → List Nat → State → State
  | [], _, s => s
  | w :: t, stuck, s =>
    if stuck.contains w.port || !lineRoom s w.line then ingressDrain t (w.port :: stuck) s
    else
      ingressDrain t stuck (bump MSA_INGRESS_WAIT (27 * (s.tick - w.since) / 2)
        (lineEnter w.line w.op (modMsa (fun m => { m with ingress := m.ingress.erase w }) s)))

/-- An operation arrives: it enters its line's queue, or waits behind its port (R381, R382). -/
def lineArrive (port line : Nat) (o : MsaOp) (s : State) : State :=
  if (s.msa.ingress.any fun w => w.port = port) || !lineRoom s line then
    modMsa (fun m => { m with ingress := m.ingress ++ [⟨port, line, o, s.tick⟩] }) s
  else lineEnter line o s

/-! ## Answers -/

/-- The response message of R318 alone, and the final reply with a status (R384, R387, R389). -/
def respondWith (opcode : Nat) (p : Pkt) (b : Bytes) (st result : Nat) (s : State) : State :=
  if st = stOk then respond opcode p b result s
  else answer opcode p p.mid st 0 result true (respond opcode { p with noReply := true } b result s)

/-- All ones. -/
def ones64 : Nat := 2 ^ 64 - 1
def ones (n : Nat) : Bytes := List.replicate n 255

/-- Layout of the results of a gateway batch (R395). -/
def gatewayBytes (g : GwIn) : Bytes :=
  let st := fun i => match g.done.find? fun x => x.1 = i with | some x => x.2.1 | none => stOk
  let pad := divUp (2 * g.count) 16 * 16 - 2 * g.count
  toLe 2 g.count ++ zeros 14 ++ ((List.range g.count).flatMap fun i => toLe 2 (st i)) ++ zeros pad ++
    ((List.range g.count).flatMap fun i => match g.done.find? fun x => x.1 = i with | some x => x.2.2 | none => [])

/-- A gateway batch whose entries have all been applied is answered (R395). -/
def gatewayCheck (batch : Nat) (s : State) : State :=
  match tabGet s.msa.gwIn batch with
  | none => s
  | some g =>
    if g.done.length < g.count then s
    else bump MSA_GW_SERVED_CNT 1 (respond 0x53 g.pkt (gatewayBytes g) 0 (modMsa (fun m => { m with gwIn := tabDel m.gwIn batch }) s))

/-- The result of a gateway entry. -/
def entryDone (batch i st : Nat) (b : Bytes) (s : State) : State :=
  let s1 := if st = stOk then s else bump MSA_GW_ENTRY_FAIL 1 s
  gatewayCheck batch (modMsa (fun m => { m with gwIn := tabMod m.gwIn batch fun g => { g with done := g.done ++ [(i, st, b)] } }) s1)

/-- Bytes of a failed entry: a LOAD's are 0xFF (R395). -/
def failedBytes : MsaKind → Bytes
  | .load => ones 64
  | _ => []

/-- Answer an operation: a load with its bytes, a store, an atomic with its old value. -/
def msaAnswer (o : MsaOp) (st result : Nat) (b : Bytes) (s : State) : State :=
  match o.from' with
  | .entry batch i => entryDone batch i st b s
  | .pkt opcode p => if opcode = 0x50 then respondWith opcode p b st result s else answer opcode p p.mid st 0 result true s

/-- An operation of an old epoch, or of a fenced composition, is discarded (R391). A discarded load has no bytes. -/
def msaStale (o : MsaOp) (s : State) : State :=
  let s1 := bump MSA_STALE_CNT 1 s
  match o.from' with
  | .entry batch i => entryDone batch i stEpochStale (failedBytes o.kind) s1
  | .pkt opcode p => answer opcode p p.mid stEpochStale 0 0 true s1

/-- Discard every operation, queued or waiting, that `out` names (R391). -/
def msaDiscard (out : MsaOp → Bool) (s : State) : State :=
  let queued := s.msa.lines.flatMap fun e => e.2.filter out
  let waiting := (s.msa.ingress.filter fun w => out w.op).map (·.op)
  let keep := fun (l : List MsaOp) => l.filter fun o => !out o
  let left := (s.msa.lines.map fun e => (e.1, keep e.2)).filter fun e => !e.2.isEmpty
  let s1 := modMsa (fun m => { m with lines := left, ingress := m.ingress.filter fun w => !out w.op }) s
  let s2 := (queued ++ waiting).foldl (fun t o => msaStale o t) s1
  ingressDrain s2.msa.ingress [] s2

/-! ## Applying (R383 to R386, R389) -/

/-- A 64-bit word as two's complement, for SMIN and SMAX. -/
def sless (a b : Nat) : Bool := decide (signed 64 a < signed 64 b)

/-- The new word of an atomic (R385): code, operand, SWAP, multiplicity, old value. -/
def atomicNew (op a b k w : Nat) : Nat :=
  if op = 0 then (w + k * a) % 2 ^ 64
  else if op = 1 then a
  else if op = 2 then (if w = a then b else w)
  else if op = 3 then min w a
  else if op = 4 then max w a
  else if op = 5 then (if sless a w then a else w)
  else if sless w a then a else w

/-- The run of stores at the head of a queue. -/
def storeRun : List MsaOp → List MsaOp
  | [] => []
  | o :: t => if isStore o then o :: storeRun t else []

def linePoisoned (s : State) (line : Nat) : Bool := s.msa.poisoned.contains line

/-- The last store of a run, as bytes. -/
def runValue (l : List MsaOp) : Bytes := match l.getLast? with | some ⟨.store d, _, _, _⟩ => d | _ => []

/-- An operation came over the fabric. -/
def opFabric (o : MsaOp) : Bool :=
  match o.from' with
  | .pkt _ p => (match p.path with | .fabric _ _ _ => true | _ => false)
  | _ => false

/-- Apply a run of stores as one write of its last value; every store is acknowledged and the poison goes (R383, R389). -/
def applyRun (line : Nat) (l : List MsaOp) (s : State) : State :=
  let s1 := modMsa (fun m => { m with poisoned := m.poisoned.filter (· ≠ line) }) (lineWrite line 0 (runValue l) s)
  let s2 := bump MSA_ABSORB_CNT (l.length - 1) (bump MSA_STORE_CNT l.length s1)
  l.foldl (fun t o => if opFabric o then inputArrived (areaDpa (64 * line)) 64 (msaAnswer o stOk 0 [] t) else msaAnswer o stOk 0 [] t) s2

/-- Apply a load (R384, R389). -/
def applyLoad (line : Nat) (o : MsaOp) (s : State) : State :=
  let s1 := bump MSA_LOAD_CNT 1 s
  if linePoisoned s line then bump MSA_POISON_CNT 1 (msaAnswer o stPoison 0 (ones 64) s1)
  else msaAnswer o stOk 0 (lineRead s line) s1

/-- Apply an atomic: RESULT is the old value; on a poisoned line it is not applied (R385, R386, R389). -/
def applyAtomic (line op a b off k : Nat) (o : MsaOp) (s : State) : State :=
  if linePoisoned s line then bump MSA_POISON_CNT 1 (msaAnswer o stTargetDead ones64 [] s)
  else
    let w := leNat (slice (lineRead s line) off 8)
    let s1 := lineWrite line off (toLe 8 (atomicNew op a b k w)) s
    msaAnswer o stOk w [] (bump MSA_MULT_SUM k (bump MSA_ATOMIC_CNT 1 s1))

/-- MSA_LINE_APPLY: the head of a line's queue is applied. -/
def msaLineApplyFx (line now : Nat) (s0 : State) : State :=
  let s := atTick now s0
  if !alive s then s
  else
    match lineQueue s line with
    | [] => s
    | o :: t =>
      let run := storeRun (o :: t)
      let left := if run.isEmpty then t else (o :: t).drop run.length
      let s1 := modMsa (fun m => { m with lines := tabSet m.lines line left [] }) s
      let s2 := match o.kind with
        | .load => applyLoad line o s1
        | .store _ => applyRun line run s1
        | .atomic op a b off k => applyAtomic line op a b off k o s1
      ingressDrain s2.msa.ingress [] s2
def execMsaLineApply (line now : Nat) (s : State) : Host.Outcome State Fault Refusal := .next (msaLineApplyFx line now s)

/-! ## Issue (R378 to R380) -/

/-- The forwarding register of a ring. -/
def fwdValid (s : State) (n : Nat) : Bool := bit (regGet s (MSA_SQ_QP n)) 31
def fwdQp (s : State) (n : Nat) : Nat := regField s (MSA_SQ_QP n) 19 0

/-- Basin of a device ID (R57). -/
def basinOf (dev : Nat) : Nat := dev / 256

/-- Checks 1 and 2 of R379, and 3 and 4. -/
def fwdCheck (s : State) (n : Nat) : Option Nat :=
  match qpOf s (fwdQp s n) with
  | none => some stQpError
  | some q => if q.type ≠ 0 || q.state ≠ 2 then some stQpError else if q.pd ≠ sqPd s n then some stPd else none
def fwdNear (s : State) (n opcode : Nat) (p : Pkt) : Bool :=
  basinOf ((qpOf s (fwdQp s n)).getD {}).peerDev = basinOf s.dev.deviceId && (opcode ≠ 0x52 || p.p3 / 65536 = 1)

/-- Forward a command on a QP under a TAG of the device's own (R378). The forwarded packet asks for its reply (log 62). -/
def forward (opcode qp : Nat) (p : Pkt) (note : Nat → State → State) (what : Nat → TxWhat) (s : State) : State :=
  let tg := takeTag s
  note tg.1 (sendMsgOn qp { opcode := opcode, tag := tg.1, mid := p.mid, p0 := p.p0, p1 := p.p1, p2 := p.p2, p3 := p.p3, slack := slackOut s p,
                            payload := p.payload } (what tg.1) tg.2)

/-- Offset of a MEM packet (R324). -/
def memOff (p : Pkt) : Nat := p.p1 + 2 ^ 32 * p.p2

/-- Parameters and payload of a MEM packet as an operation; none when they break R377, R385 or R386. -/
def memKind (opcode : Nat) (p : Pkt) : Option MsaKind :=
  if opcode = 0x50 then (if memOff p % 64 = 0 && p.p3 = 0 && p.payload.isEmpty then some .load else none)
  else if opcode = 0x51 then (if memOff p % 64 = 0 && p.p3 = 0 && p.payload.length = 64 then some (.store p.payload) else none)
  else
    let op := p.p3 % 16
    let k := p.p3 / 65536
    let sw := leAt p.payload 8 8
    if memOff p % 8 = 0 && bits p.p3 15 4 = 0 && op ≤ 6 && k ≠ 0 && p.payload.length = 16 && (op = 2 || sw = 0) then
      some (.atomic op (leAt p.payload 0 8) sw (memOff p % 64) k)
    else none

/-- Forward a MEM packet of a ring (R378, R379). The issuer's own checks come before the layout, which the home would answer alike
(log 157). While 4,096 are outstanding no further one starts (R380): the ring has not handed it over. -/
def memForward (opcode n : Nat) (p : Pkt) (s : State) : State :=
  match fwdCheck s n with
  | some st => fail opcode p st s
  | none =>
    if !fwdNear s n opcode p || (memKind opcode p).isNone then fail opcode p stFormat s
    else
      let qp := fwdQp s n
      let home := ((qpOf s qp).getD {}).peerDev
      bump MSA_ISSUED_CNT 1 (forward opcode qp p
        (fun tag t => modMsa (fun m => { m with fwd := tabPut m.fwd tag ⟨opcode, p, qp, home, none⟩ }) t) .msa s)

/-! ## At the home -/

/-- The ACCESS bit of an operation (R367). -/
def memAccess : MsaKind → Nat
  | .load => 0
  | .store _ => 1
  | .atomic _ _ _ _ _ => 2

/-- Bytes of an access. -/
def memLen : MsaKind → Nat
  | .atomic _ _ _ _ _ => 8
  | _ => 64

/-- The port of arrival in the order of R381: fabric ports, then host rings. -/
def arrivalPort (path : Path) : Nat := match path with | .fabric _ _ port => port | .ring n => 8 + n | _ => 2 ^ 20

/-- A packet from another basin (R379). -/
def farSource (s : State) (path : Path) : Bool := match path with | .fabric _ d _ => basinOf d ≠ basinOf s.dev.deviceId | _ => false

/-- Whether a packet is forwarded. -/
def forwards (s : State) (p : Pkt) : Option Nat := match p.path with | .ring n => if fwdValid s n then some n else none | _ => none

/-- A MEM packet at its home, or at its issuer (R376 to R381). -/
def memAct (opcode : Nat) (p : Pkt) (s : State) : State :=
  match forwards s p, memKind opcode p with
  | some n, _ => memForward opcode n p s
  | none, none => fail opcode p stFormat s
  | none, some k =>
    if farSource s p.path then fail opcode p stPd s
    else
      match keyAddr s p.p0 p.pd (memAccess k) (memOff p) (memLen k) with
      | none => fail opcode p stKey s
      | some a => lineArrive (arrivalPort p.path) (a / 64) ⟨k, p.epoch, arrivalComp s p.path, .pkt opcode p⟩ s

/-- A home counts an operation that it answers ST_EPOCH_STALE (R390). -/
def memStale (r : OpRow) (p : Pkt) (s : State) : Bool :=
  alive s && (forwards s p).isNone && !discarding s r.code p && firstFail s r p = some (stEpochStale, 9)

def memReceive (r : OpRow) (p : Pkt) (s : State) : State :=
  let t := receive r p (memAct r.code p) s
  if memStale r p (atTick p.now s) then bump MSA_STALE_CNT 1 t else t

def memLoadFx (p : Pkt) (s : State) : State := memReceive ⟨0x50, true, true, true, 0, false⟩ p s
def execMemLoad (p : Pkt) (s : State) : Host.Outcome State Fault Refusal := .next (memLoadFx p s)

def memStoreFx (p : Pkt) (s : State) : State := memReceive ⟨0x51, true, true, true, 64, false⟩ p s
def execMemStore (p : Pkt) (s : State) : Host.Outcome State Fault Refusal := .next (memStoreFx p s)

def memAtomicFx (p : Pkt) (s : State) : State := memReceive ⟨0x52, true, true, true, 16, false⟩ p s
def execMemAtomic (p : Pkt) (s : State) : Host.Outcome State Fault Refusal := .next (memAtomicFx p s)

/-! ## Forwarded operations end (R378, R387) -/

/-- The issuer completes an operation with ST_TARGET_DEAD and reports its home, at most once in 1 ms (R387, R422). -/
def suspectHome (home : Nat) (s : State) : State :=
  let soon := match s.err.rate.find? fun x => x.cause = 0x26 && x.unitKind = 11 && x.unit = home with
    | some x => decide (s.tick < x.lastTick + msTicks 1)
    | none => false
  if soon then s else record { cause := 0x26, cls := 0, kind := 11, unit := home, c0 := 4 } s

def msaDead (tag : Nat) (s : State) : State :=
  match tabGet s.msa.fwd tag with
  | none => s
  | some f =>
    let s1 := modMsa (fun m => { m with fwd := tabDel m.fwd tag, lastDead := some f.home }) s
    let s2 := suspectHome f.home (bump MSA_DEAD_CNT 1 s1)
    if f.opcode = 0x50 then respondWith f.opcode f.pkt (ones 64) stTargetDead 0 s2
    else answer f.opcode f.pkt f.pkt.mid stTargetDead 0 (if f.opcode = 0x52 then ones64 else 0) true s2

def msaOpTimeoutFx (tag now : Nat) (s0 : State) : State :=
  let s := atTick now s0
  match tabGet s.msa.fwd tag with
  | none => s
  | some f => if alive s && sentBefore f.sentAt (10 * regField s MSA_TMO 6 0) s.tick && !replyArrives s tag then msaDead tag s else s
def execMsaOpTimeout (tag now : Nat) (s : State) : Host.Outcome State Fault Refusal := .next (msaOpTimeoutFx tag now s)

/-- A gateway batch ends without its reply (R396). -/
def gatewayEnd (tag st : Nat) (s : State) : State :=
  match tabGet s.msa.gwOut tag with
  | none => s
  | some g =>
    let s1 := modMsa (fun m => { m with gwOut := tabDel m.gwOut tag }) s
    fail 0x53 g.pkt st (if st = stTimeout then bump MSA_GW_TMO_CNT 1 s1 else s1)

def msaGwTimeoutFx (tag now : Nat) (s0 : State) : State :=
  let s := atTick now s0
  match tabGet s.msa.gwOut tag with
  | none => s
  | some g => if alive s && sentBefore g.sentAt (msTicks (regField s MSA_GW_TMO 9 0)) s.tick && !replyArrives s tag then gatewayEnd tag stTimeout s else s
def execMsaGwTimeout (tag now : Nat) (s : State) : Host.Outcome State Fault Refusal := .next (msaGwTimeoutFx tag now s)

/-- Return a home's status, RESULT and response to the ring, under the original TAG; a failing status keeps its DETAIL. -/
def passBack (opcode : Nat) (p : Pkt) (r : Rep) (st : Nat) (response : Bytes) (s : State) : State :=
  let s1 := if response.isEmpty then s else respond opcode { p with noReply := true } response 0 s
  answer opcode p p.mid st r.detail r.result true s1

/-- The response message that has been placed for a TAG; without one, what arrived with the reply. -/
def respFor (s : State) (tag : Nat) (given : Bytes) : Bytes :=
  match s.fab.resps.find? fun x => x.tag = tag with
  | some x => x.placed.foldl (fun b e => placeAt b e.1 e.2) []
  | none => given

def respDrop (tag : Nat) (s : State) : State := modFab (fun f => { f with resps := f.resps.filter fun x => x.tag ≠ tag }) s

/-- The home's final reply (R378). -/
def forwardReplyAct (r : Rep) (response : Bytes) (st : Nat) (s : State) : State :=
  match tabGet s.msa.fwd r.tag, tabGet s.msa.gwOut r.tag with
  | some f, _ => passBack f.opcode f.pkt r st response (modMsa (fun m => { m with fwd := tabDel m.fwd r.tag }) s)
  | none, some g => passBack 0x53 g.pkt r st response (modMsa (fun m => { m with gwOut := tabDel m.gwOut r.tag }) s)
  | none, none => s

/-- A reply to a forwarded operation. One whose operation has been completed is late (R387). -/
def msaForwardReplyFx (r : Rep) (response : Bytes) (s0 : State) : State :=
  let s := atTick r.now s0
  if alive s && r.rcrcOk && (tabGet s.msa.fwd r.tag).isNone && (tabGet s.msa.gwOut r.tag).isNone then bump MSA_LATE_CNT 1 s
  else if alive s && r.rcrcOk && !r.final then s
  else onReply r (fun _ => true) (fun st t => respDrop r.tag (forwardReplyAct r (respFor t r.tag response) st t)) s
def execMsaForwardReply (r : Rep) (response : Bytes) (s : State) : Host.Outcome State Fault Refusal := .next (msaForwardReplyFx r response s)

/-! ## MEM.GATEWAY (R392 to R396) -/

/-- Gateway reassembly share of a die, in bytes (R394, R397). -/
def gwShare (s : State) (die : Nat) : Nat := 1024 * (if die = 0 then regField s MSA_GW_CAP 9 0 else regField s MSA_GW_CAP 25 16)

/-- Bytes of a die's share in use. -/
def gwUsed (s : State) (die : Nat) : Nat :=
  ((s.msa.gwIn.filter fun e => e.2.die = die).map fun e => e.2.pkt.payload.length).sum +
    ((s.msa.gwBuf.filter fun e => e.2.2.1 = die).map fun e => e.2.2.2).sum

/-- The I/O die of a fabric port: ports 0 to 3 north, 4 to 7 south. -/
def portDie (port : Nat) : Nat := port / 4

/-- The entries of a batch: an entry record and, for a STORE, its data; none when the layout breaks (R393). -/
def gwEntries : Nat → Bytes → Option (List (Bytes × Bytes))
  | 0, b => if b.isEmpty then some [] else none
  | n + 1, b =>
    let e := b.take 16
    let op := leAt e 0 1
    if b.length < 16 || 1 < op || leAt e 1 3 ≠ 0 || (op = 1 && decide (b.length < 80)) then none
    else
      (gwEntries n (b.drop (if op = 1 then 80 else 16))).map fun l => (e, if op = 1 then slice b 16 64 else []) :: l

/-- A batch that keeps the layout of R393. -/
def gwBatch (b : Bytes) : Option (List (Bytes × Bytes)) :=
  if b.length < 16 || leAt b 0 2 = 0 || 256 < leAt b 0 2 || (slice b 2 14).any (· ≠ 0) then none else gwEntries (leAt b 0 2) (b.drop 16)

/-- One entry of a batch: its key is checked and it enters its line's queue (R394). -/
def gwEntry (batch : Nat) (p : Pkt) (comp : Nat) (s : State) (x : Nat × Bytes × Bytes) : State :=
  let e := x.2.1
  let k : MsaKind := if leAt e 0 1 = 1 then .store x.2.2 else .load
  if leAt e 8 8 % 64 ≠ 0 then entryDone batch x.1 stFormat (failedBytes k) s
  else
    match keyAddr s (leAt e 4 4) p.pd (memAccess k) (leAt e 8 8) 64 with
    | none => entryDone batch x.1 stKey (failedBytes k) s
    | some a => lineArrive (arrivalPort p.path) (a / 64) ⟨k, p.epoch, comp, .entry batch x.1⟩ s

/-- A batch at its home (R394). -/
def gwHome (p : Pkt) (l : List (Bytes × Bytes)) (qp port : Nat) (s : State) : State :=
  let die := portDie port
  let held := s.msa.gwBuf.any fun x => x.1 = qp && x.2.1 = p.tag
  if !held && gwShare s die < gwUsed s die + p.payload.length then
    sendNak qp ((qpOf s qp).getD {}).expPsn .noContext (bump MSA_GW_NOROOM_CNT 1 s)
  else
    let batch := tabGap s.msa.gwIn 0
    let s1 := modMsa (fun m =>
      { m with gwIn := tabPut m.gwIn batch ⟨p, die, [], l.length⟩
               gwBuf := m.gwBuf.filter fun x => !(x.1 = qp && x.2.1 = p.tag) }) s
    ((List.range l.length).zip l).foldl (gwEntry batch p (arrivalComp s p.path)) s1

/-- A batch at its issuer (R392). -/
def gwIssue (n : Nat) (p : Pkt) (s : State) : State :=
  if !fwdValid s n then fail 0x53 p stFormat s
  else
    match qpOf s (fwdQp s n), fwdCheck s n with
    | none, _ => fail 0x53 p stQpError s
    | some _, some st => fail 0x53 p st s
    | some q, none =>
      if q.peerDev ≠ p.p0 then fail 0x53 p stFormat s
      else
        bump MSA_GW_SENT_CNT 1 (forward 0x53 (fwdQp s n) p
          (fun tag t => modMsa (fun m => { m with gwOut := tabPut m.gwOut tag ⟨p, fwdQp s n, none⟩ }) t) .gateway s)

/-- MEM.GATEWAY after the checks of R312: a device without a reassembly share refuses it; issuer or home by the path. -/
def gatewayAct (p : Pkt) (s : State) : State :=
  if gwShare s 0 = 0 && gwShare s 1 = 0 then fail 0x53 p stResource s
  else if !(paramsZero p true false false false && decide (p.p0 < 4096)) then fail 0x53 p stFormat s
  else
    match gwBatch p.payload, p.path with
    | none, _ => fail 0x53 p stFormat s
    | some _, .ring n => gwIssue n p s
    | some l, .fabric qp _ port => gwHome p l qp port s
    | some _, _ => fail 0x53 p stFormat s

def memGatewayFx (p : Pkt) (s : State) : State := receive ⟨0x53, true, true, true, 20496, false⟩ p (gatewayAct p) s
def execMemGateway (p : Pkt) (s : State) : Host.Outcome State Fault Refusal := .next (memGatewayFx p s)

/-! ## Poison and the deepest queue (R389, R397) -/

/-- An uncorrected error in a line poisons it (R389). -/
def linePoison (line : Nat) (s : State) : State :=
  modMsa (fun m => { m with poisoned := if m.poisoned.contains line then m.poisoned else line :: m.poisoned }) s

def execMsaLineMaxRead (s : State) : Host.Outcome State Fault Refusal := .next (if readable s then readClear MSA_LINE_MAX s else s)

end Sys2Proof.Machine
end

