-- ==== Sys2Proof/Machine/Outcome.lean ====
section
/-! DEFINITION. What becomes of the messages that the device sends, and queue pairs entering ERROR (R29, R211, R252, R328,
R359, R363, R366, R369, R528). -/

namespace Sys2Proof.Machine

/-! ## The outcome of a message -/

/-- The transport has completed a message (R355). -/
def txDone (w : TxWhat) (s : State) : State :=
  match w with
  | .move m h => sendSeal m h s
  | _ => s

/-- A message has failed in the transport, or for want of a QP, with a status (R359, R363, R366, R528). -/
def txFail (w : TxWhat) (st : Nat) (s : State) : State :=
  match w with
  | .move m h => (match (moveAt s m).bind (·.tgts[h]?) with | some t => if t.st = 1 then moveRefused m h st s else s | none => s)
  | .seal m h => (match (moveAt s m).bind (·.tgts[h]?) with | some t => if t.st = 2 then moveRefused m h st s else s | none => s)
  | .drop d => dropAnswered d st s
  | .handoff b => (match (berthAt s b).bind (·.xfer) with | some _ => handoffRefused b st s | none => s)
  | .attPartial x => exchangeLost x s
  | .msa tag => msaDead tag s
  | .gateway tag => gatewayEnd tag stTargetDead s
  | _ => s

/-! ## After a SYS.HELLO (R528) -/

/-- A message that waited for the outcome of a SYS.HELLO chooses its QP again. -/
def resumeWait (w : WaitMsg) (s : State) : State :=
  match chooseQp s w.dest w.comp with
  | .qp n => sendMsgOn n { opcode := w.opcode, tag := w.tag, mid := w.mid, p0 := w.p0, p1 := w.p1, p2 := w.p2, p3 := w.p3, slack := w.slack,
                           payload := w.payload } w.what s
  | .wait => modFab (fun f => { f with waiting := f.waiting ++ [w] }) s
  | .failed st => txFail w.what st s

/-- The outcome of a SYS.HELLO is known: what waited for one is looked at again. -/
def afterHello (s : State) : State :=
  let l := s.fab.waiting
  resumeExchanges (resumeMoves (l.foldl (fun t w => resumeWait w t) (modFab (fun f => { f with waiting := [] }) s)))

/-! ## Completed buffers (R369) -/

/-- A posted buffer completes: a header-only packet entry on its completion ring. No rule gives its SEQ: a free value. -/
def bufferDone (n : Nat) (b : Posted) (tag imm placed st : Nat) (s : State) : State :=
  let x := takeFree 32 s
  let pk : TxPkt := { format := 3, minor := 2, opcode := 0x4F, flags := 3, tag := tag, mid := 0xFFFFFFFF, epoch := s.sched.epoch,
                      pd := ((qpOf s n).getD {}).pd, offset := 0, p0 := imm, p1 := placed, p2 := n, p3 := st, slack := 0xFFFFFFFF,
                      seq := x.1, payload := [] }
  cqPost b.cq (packetSlots pk) x.2

/-- A buffer that no message reached completes: no sender gives its TAG and immediate value, which are free values. -/
def bufferFlushed (n : Nat) (st : Nat) (s : State) (b : Posted) : State :=
  let a := takeFree 32 s
  let i := takeFree 32 a.2
  bufferDone n b a.1 i.1 0 st i.2

/-! ## NAKs -/

/-! ## Flush and ERROR (R366) -/

/-- The frames of a QP leave the ports' queues and the timing wheel. -/
def framesGone (n : Nat) (s : State) : State :=
  let drop := fun (l : List TxFrame) => l.filter fun f => f.qp ≠ n
  modShaper n (fun h => { h with slot := none, frames := [] })
    (modFab (fun f => { f with ports := f.ports.map fun p => { p with tcl := drop p.tcl, tcs := drop p.tcs } }) s)

/-- What a QP has outstanding, each message once. -/
def qpWork (q : Qp) : List TxWhat := (q.unacked.map (·.what) ++ q.queued.map (·.2.1) ++ q.tcsOut.map (·.what)).eraseDups

/-- Every posted buffer, and every buffer bound to a message that has not completed. -/
def qpBuffers (q : Qp) : List Posted := q.posted ++ q.tcsIn.filterMap (·.buffer) ++ q.bound.filterMap (·.2)

/-- Forwarded operations and batches of a QP end with ST_TARGET_DEAD (R387, R396). -/
def forwardsDead (n : Nat) (s : State) : State :=
  let s1 := (s.msa.fwd.filter fun e => e.2.qp = n).foldl (fun t e => msaDead e.1 t) s
  (s1.msa.gwOut.filter fun e => e.2.qp = n).foldl (fun t e => gatewayEnd e.1 stTargetDead t) s1

/-- Nothing is outstanding on a QP any more. -/
def qpCleared (q : Qp) : Qp :=
  { q with unacked := [], queued := [], tcsOut := [], tcsIn := [], posted := [], bound := [], parked := [], resend := none, ackOwed := 0,
           nakSent := false, helloTag := none, retry := 0 }

/-- Flush: every message and every posted buffer completes with ST_QP_ERROR, and the peer is told once (R366). -/
def qpFlush (n : Nat) (s : State) : State :=
  match qpOf s n with
  | none => s
  | some q =>
    let s1 := framesGone n (modMsa (fun m => { m with gwBuf := m.gwBuf.filter fun x => x.1 ≠ n }) (modQp n qpCleared s))
    let s2 := if q.type = 0 then sendNak n q.expPsn .qpError s1 else s1
    let s3 := (qpBuffers q).foldl (bufferFlushed n stQpError) s2
    forwardsDead n ((qpWork q).foldl (fun t w => txFail w stQpError t) s3)

/-- The manifests that a QP owns go to FAILED (R211). -/
def ownedFail (n : Nat) (s : State) : State :=
  settle ((s.man.berths.filter fun e => e.2.id.ownerQp = n).foldl (fun t e => failSoon e.1 stQpError t) s)

/-- A QP enters ERROR with a cause of QPC_CTX, flushing its work from INIT and RTS (R366, R374). -/
def qpError (n cause : Nat) (s : State) : State :=
  match qpOf s n with
  | none => s
  | some q =>
    if q.state = 3 then s
    else
      let s1 := bump QPC_ERROR_CNT 1 (modQp n (fun q => { q with state := 3, errCause := cause, errStatus := stQpError }) s)
      let s2 := if q.state = 0 then s1 else qpFlush n s1
      ownedFail n (if q.helloTag.isSome then afterHello s2 else s2)

/-! ## Resending (R357, R359, R363) -/

/-- A frame still waits to start. -/
def frameWaits (s : State) (n : Nat) (tcs : Bool) (id idx : Nat) : Bool :=
  let mine := fun (f : TxFrame) => f.qp = n && f.tcs = tcs && f.id = id && f.idx = idx
  (s.fab.ports.any fun p => p.tcl.any mine || p.tcs.any mine) || (shaperOf s n).frames.any fun x => mine x.2

/-- Resend the TC-L packets of a QP from a PSN on. -/
def tclResend (n psn : Nat) (s : State) : State :=
  match qpOf s n with
  | none => s
  | some q =>
    let l := q.unacked.dropWhile fun x => x.psn ≠ psn
    l.foldl (fun t x =>
      if frameWaits t n false x.psn 0 then t
      else queueFrame (tclPort t n) ⟨n, false, x.psn, 0, x.bytes, true, t.tick, x.budget, 0, 0⟩ t)
      (modQp n (fun q => { q with unacked := q.unacked.map fun x => if l.contains x then { x with sentAt := s.tick } else x }) s)

/-- The retry limit. -/
def retryLimit (s : State) : Nat := regField s FAB_TMO 28 26

/-- A destination is reported as suspect: 2 TC-S, 3 TC-L (R357, R363, R422). -/
def suspectDev (dev c0 : Nat) (s : State) : State := record { cause := 0x26, cls := 0, kind := 11, unit := dev, c0 := c0 } s

/-- The oldest TC-L message fails with ST_TARGET_DEAD, and the QP enters ERROR (R363). -/
def tclExhausted (n : Nat) (q : Qp) (s : State) : State :=
  let s1 := suspectDev q.peerDev 3 (bump FAB_RETRY_EXHAUST 1 s)
  match q.unacked with
  | [] => qpError n 1 s1
  | x :: _ =>
    let s2 := qpError n 1 (modQp n (fun q => { q with unacked := q.unacked.filter fun y => y.what ≠ x.what, queued := q.queued.filter fun y => y.2.1 ≠ x.what }) s1)
    txFail x.what stTargetDead s2

/-- Every port that is UP has been left out for a destination. -/
def allExcluded (s : State) (dest : Nat) : Bool :=
  !(portsUp s).isEmpty && (portsUp s).all fun p => s.fab.excluded.any fun x => x.1 = p && x.2.1 = dest

/-- Every message of a QP fails with ST_TARGET_DEAD, and the QP enters ERROR: no port reaches its peer (R357, R359). -/
def qpLost (n : Nat) (q : Qp) (s : State) : State :=
  let s1 := modQp n (fun q => { q with unacked := [], queued := [], tcsOut := [] }) (bump FAB_RETRY_EXHAUST (qpWork q).length s)
  (qpWork q).foldl (fun t w => txFail w stTargetDead t) (qpError n (if q.tcsOut.isEmpty then 1 else 2) s1)

/-- Each message to a destination that no port reaches fails, and the destination is reported once (R357, log 160). -/
def destinationLost (dest : Nat) (s : State) : State :=
  let l := s.fab.qps.filter fun e => e.2.peerDev = dest && e.2.type = 0 && !(qpWork e.2).isEmpty
  l.foldl (fun t e => qpLost e.1 e.2 t) (suspectDev dest 2 s)

/-- A failure of the TC-L side: another retry from a PSN, or the end, also while no port is left for the peer (R357, R363). -/
def tclRetry (n psn : Nat) (s : State) : State :=
  match qpOf s n with
  | none => s
  | some q =>
    if allExcluded s q.peerDev then destinationLost q.peerDev s
    else if retryLimit s ≤ q.retry then tclExhausted n q s
    else tclResend n psn (modQp n (fun q => { q with retry := q.retry + 1 }) s)

/-- A TC-S message fails with ST_TARGET_DEAD, and the QP enters ERROR (R359). -/
def tcsExhausted (n msgId : Nat) (s : State) : State :=
  match qpOf s n with
  | none => s
  | some q =>
    match q.tcsOut.find? fun o => o.msgId = msgId with
    | none => s
    | some o =>
      let s1 := bump FAB_RETRY_EXHAUST 1 (modQp n (fun q => { q with tcsOut := q.tcsOut.filter fun o => o.msgId ≠ msgId }) s)
      txFail o.what stTargetDead (qpError n 2 s1)

end Sys2Proof.Machine
end

