-- ==== Sys2Proof/Machine/Fabric.lean ====
section
/-! DEFINITION. The transport's rows: TC-L and TC-S data, acknowledgements and their timers, ports left out, and resident
contexts (R352 to R364, R370 to R374, R450). -/

namespace Sys2Proof.Machine

/-! ## Control frames that the receiver sends -/

/-- A cumulative ACK for everything accepted (R362). -/
def sendAck (n : Nat) (s : State) : State :=
  let psn := (((qpOf s n).getD {}).expPsn + 2 ^ 24 - 1) % 2 ^ 24
  sendControl n (.ack n psn) (modQp n (fun q => { q with ackOwed := 0 }) s)

/-- A SACK for a message: COMPLETE, NO_BUFFER, and the bitmap (R352, R358). A SACK holds 256 bits, so that a longer bitmap
takes one for each block of 256 indices with a packet placed; COMPLETE and NO_BUFFER take one alone. -/
def sendSack (n msgId : Nat) (complete noBuffer : Bool) (covered : List Nat) (s : State) : State :=
  let blocks := ((List.range 8).map fun k => 256 * k).filter fun b => covered.any fun i => decide (b ≤ i) && decide (i < b + 256)
  let sent := if complete || noBuffer then (match blocks with | [] => [0] | b :: _ => [b]) else blocks
  sent.foldl (fun t base =>
    sendControl n (.sack n msgId base complete noBuffer (covered.filter fun i => decide (base ≤ i) && decide (i < base + 256))) t) s

/-! ## What a data frame meets first (R353, R366, R371, R372, R450) -/

/-- A packet of a command message that the control plane takes (R450): not an answer, not an ATT.RESULT of an exchange, not
memory-semantic service. -/
def commandPacket (f : Fab) : Bool := !f.answer && f.opcode ≠ 0x39 && !(0x50 ≤ f.opcode && f.opcode ≤ 0x52)

/-- A frame is discarded, with a NAK on TC-L. -/
def turnAway (tcs : Bool) (n psn : Nat) (code : NakCode) (s : State) : State := if tcs then s else sendNak n psn code s

/-- A frame for a QP number that the device does not hold is counted, and answered with NAK NO_QP on TC-L, back to its sender
(R366). -/
def noSuchQp (tcs : Bool) (f : Fab) (s : State) : State :=
  let s1 := bump FAB_NO_QP 1 s
  if tcs then s1
  else bump FAB_TCL_NAK_TX 1 (frameOut (tclPort s1 f.dstQp) (f.srcDev, f.srcQp) (.nak f.dstQp f.psn .noQp) s1)

/-- Bytes of a DATA frame with its packet: 40 of framing, the header, and a payload with its CRC (R309, R349). -/
def dataFrameLen (f : Fab) : Nat := 104 + (if f.len = 0 then 0 else f.len + 4)

/-- Parking share of a die's mooring buffer, and bytes parked there (R372). -/
def moorCap (s : State) (die : Nat) : Nat := 1024 * regField s (if die = 0 then QPC_MOOR_N else QPC_MOOR_S) 9 0
def moorUsed (s : State) (die : Nat) : Nat :=
  (s.fab.qps.map fun e => ((e.2.parked.filter fun x => x.die = die).map fun x => dataFrameLen x.frame).sum).sum

/-- Park a frame until its context arrives, or turn it away when it does not fit (R372). -/
def parkFrame (tcs : Bool) (f : Fab) (s : State) : State :=
  let die := f.port / 4
  if moorCap s die < moorUsed s die + dataFrameLen f then
    turnAway tcs f.dstQp f.psn .noContext (bump QPC_MOOR_FULL_CNT 1 s)
  else bump QPC_PARK_CNT 1 (modQp f.dstQp (fun q => { q with parked := q.parked ++ [⟨f, tcs, die⟩] }) s)

/-- The batch of a gateway packet finds room in the reassembly share, or none (R394). -/
def gwRoom (s : State) (f : Fab) : Bool :=
  f.opcode ≠ 0x53 || f.answer || (gwShare s 0 = 0 && gwShare s 1 = 0) ||
    decide (gwUsed s (portDie f.port) + f.len ≤ gwShare s (portDie f.port))

/-- Note a gateway packet's bytes in the share. -/
def gwNote (f : Fab) (s : State) : State :=
  if f.opcode = 0x53 && !f.answer && !(gwShare s 0 = 0 && gwShare s 1 = 0) then
    modMsa (fun m =>
      let old := match m.gwBuf.find? fun x => x.1 = f.dstQp && x.2.1 = f.tag with | some x => x.2.2.2 | none => 0
      { m with gwBuf := (f.dstQp, f.tag, portDie f.port, old + f.len) :: m.gwBuf.filter fun x => !(x.1 = f.dstQp && x.2.1 = f.tag) }) s
  else s

/-! ## TC-L (R362) -/

/-- A TC-L packet on a resident context: accepted in PSN order, or discarded with an ACK or one NAK SEQ. A message follows in
a row of its own when it is complete. -/
def tclAccept (f : Fab) (s : State) : State :=
  let n := f.dstQp
  match qpOf s n with
  | none => s
  | some q =>
    let d := (f.psn + 2 ^ 24 - q.expPsn) % 2 ^ 24
    if d ≠ 0 && 2 ^ 23 ≤ d then sendAck n s
    else if d ≠ 0 then (if q.nakSent then s else sendNak n q.expPsn .seq (modQp n (fun q => { q with nakSent := true }) s))
    else if s.err.restarting && commandPacket f then sendNak n q.expPsn .noContext s
    else if !gwRoom s f then sendNak n q.expPsn .noContext (if f.offset = 0 then bump MSA_GW_NOROOM_CNT 1 s else s)
    else
      let s1 := gwNote f (modQp n (fun q =>
        { q with expPsn := (q.expPsn + 1) % 2 ^ 24, nakSent := false, lastUse := s.tick, ackOwed := q.ackOwed + 1
                 ackSince := if q.ackOwed = 0 then s.tick else q.ackSince }) s)
      if 8 ≤ q.ackOwed + 1 then sendAck n s1 else s1

/-! ## TC-S (R356, R358) -/

/-- Tracking entries of a die (R358). -/
def dieTracks (s : State) (die : Nat) : Nat := ((s.fab.qps.filter fun e => e.1 % 2 = die).map fun e => e.2.tcsIn.length).sum

/-- A packet keeps the rules of R356 and the reserved values of R352. -/
def tcsShape (f : Fab) (e : Option TcsIn) : Bool :=
  decide (f.pktIdx < 2048) && f.offset = 8192 * f.pktIdx && (f.last || f.len = 8192) &&
    f.pktCount = (if f.last then f.pktIdx + 1 else 0) &&
    (match e with | some t => (match t.expect with | some k => decide (f.pktIdx < k) | none => true) | none => true)

/-- A message number is treated as completed: the lowest incomplete number moves past it (R358). -/
def msgClosed (id : Nat) (q : Qp) : Qp :=
  let done := id :: q.tcsDone
  let rec ahead : Nat → Nat → List Nat → Nat × List Nat
    | 0, b, l => (b, l)
    | k + 1, b, l => if l.contains b then ahead k ((b + 1) % 2 ^ 32) (l.filter (· ≠ b)) else (b, l)
  let r := ahead 4097 q.tcsBase done
  { q with tcsBase := r.1, tcsDone := r.2 }

/-- The message of an entry completes: SACK COMPLETE, and a SEND keeps the buffer it is bound to (R358, R369). -/
def tcsComplete (n : Nat) (t : TcsIn) (s : State) : State :=
  let bind := fun (q : Qp) => if t.opcode = 0x4F then { q with bound := q.bound ++ [(t.tag, t.buffer)] } else q
  sendSack n t.msgId true false t.placed
    (modQp n (fun q => bind (msgClosed t.msgId { q with tcsIn := q.tcsIn.filter fun x => x.msgId ≠ t.msgId })) s)

/-- Place a packet in its entry; the message completes when every index below its count is placed (R358). -/
def tcsPlace (n : Nat) (f : Fab) (t : TcsIn) (s : State) : State :=
  let expect := if f.last then some (f.pktIdx + 1) else t.expect
  let t1 := { t with placed := f.pktIdx :: t.placed, expect := expect, fresh := true }
  let s1 := modQp n (fun q => { q with lastUse := s.tick, tcsIn := t1 :: q.tcsIn.filter fun x => x.msgId ≠ t.msgId }) s
  match expect with
  | some k => if (List.range k).all t1.placed.contains then tcsComplete n t1 s1 else s1
  | none => s1

/-- Open the entry of a message: within the window and the die's entries; a SEND binds the next posted buffer, and finds none
with NO_BUFFER; so does a command message during a restart (R358, R369, R450). -/
def tcsOpen (n : Nat) (f : Fab) (q : Qp) (s : State) : State :=
  if 4095 < (f.msgId + 2 ^ 32 - q.tcsBase) % 2 ^ 32 || 4096 ≤ dieTracks s (n % 2) then bump (FAB_PORT_TCS_DROP f.port) 1 s
  else if s.err.restarting && commandPacket f then sendSack n f.msgId false true [] s
  else
    let t : TcsIn := { msgId := f.msgId, placed := [], expect := none, firstAt := s.tick, sackAt := s.tick + usTicks 8, fresh := false,
                       opcode := f.opcode, tag := f.tag, src := f.srcDev, buffer := none }
    if f.opcode = 0x4F then
      match q.posted with
      | [] => sendSack n f.msgId false true [] s
      | b :: l => tcsPlace n f { t with buffer := some b } (modQp n (fun q => { q with posted := l }) s)
    else tcsPlace n f t s

/-- A TC-S packet on a resident context. -/
def tcsAccept (f : Fab) (s : State) : State :=
  let n := f.dstQp
  match qpOf s n with
  | none => s
  | some q =>
    let e := q.tcsIn.find? fun t => t.msgId = f.msgId
    if !tcsShape f e then bump (FAB_PORT_BAD_FRAME f.port) 1 s
    else if q.tcsLate.contains f.msgId then bump FAB_LATE_DISCARD 1 s
    else if q.tcsDone.contains f.msgId || 2 ^ 31 ≤ (f.msgId + 2 ^ 32 - q.tcsBase) % 2 ^ 32 then
      sendSack n f.msgId true false [] (bump FAB_TCS_DUP 1 s)
    else
      match e with
      | some t => if t.placed.contains f.pktIdx then bump FAB_TCS_DUP 1 s else tcsPlace n f t s
      | none => tcsOpen n f q s

/-! ## Data frames -/

/-- A frame for the context: a resident one takes it, one being evicted stays, and an evicted one is fetched while the frame
parks (R371). -/
def toContext (tcs : Bool) (f : Fab) (s : State) : State :=
  let s1 := wakeQp f.dstQp s
  match qpOf s1 f.dstQp with
  | none => s1
  | some q => if q.loc = 0 then (if tcs then tcsAccept f s1 else tclAccept f s1) else parkFrame tcs f s1

/-- A DATA frame by the device it names, the QP, and the QP's state (R353, R366). -/
def dataFx (tcs : Bool) (f : Fab) (s0 : State) : State :=
  let s := atTick f.now s0
  if !portUp s f.port then s
  else
    let s1 := bump (FAB_PORT_RX_FRAMES f.port) 1 s
    if f.dstDev ≠ s.dev.deviceId then bump FAB_NO_QP 1 s1
    else
      match qpOf s1 f.dstQp with
      | none => noSuchQp tcs f s1
      | some q =>
        if q.state = 0 then turnAway tcs f.dstQp f.psn .qpError (bump FAB_NO_QP 1 s1)
        else if q.state = 3 then bump FAB_NO_QP 1 s1
        else toContext tcs f s1

def execTclDataReceived (f : Fab) (s : State) : Host.Outcome State Fault Refusal := .next (dataFx false f s)
def execTcsDataReceived (f : Fab) (s : State) : Host.Outcome State Fault Refusal := .next (dataFx true f s)

/-! ## Acknowledgements (R359, R361, R363) -/

/-- Packets that waited for the window of 1,024 are sent (R361). -/
def windowRefill (n : Nat) (s : State) : State :=
  match qpOf s n with
  | none => s
  | some q => q.queued.foldl (fun t x => tclSend n x.1 x.2.1 x.2.2 t) (modQp n (fun q => { q with queued := [] }) s)

/-- Messages of `a` with no packet in `b`. -/
def doneWork (a b : List TxWhat) : List TxWhat := (a.filter fun w => !b.contains w).eraseDups

/-- A frame for a QP that is absent, in RESET or in ERROR counts in FAB_NO_QP (R366, R373); one that answers a message which its
timer has ended counts in FAB_LATE_DISCARD instead: the QP is in ERROR with cause `late` (R364, log 132). -/
def strayFrame (n late : Nat) (s : State) : State :=
  match qpOf s n with
  | none => bump FAB_NO_QP 1 s
  | some q => if q.state = 3 && q.errCause = late then bump FAB_LATE_DISCARD 1 s
              else if q.state = 0 || q.state = 3 then bump FAB_NO_QP 1 s else s

/-- A control frame that an UP port receives. -/
def controlIn (port n late : Nat) (s : State) : State := strayFrame n late (bump (FAB_PORT_RX_FRAMES port) 1 s)

/-- An ACK releases every packet up to its PSN (R363). -/
def ackFx (n psn : Nat) (s : State) : State :=
  match qpOf s n with
  | none => s
  | some q =>
    let k := (psn + 2 ^ 24 - q.ackedPsn) % 2 ^ 24
    if q.state = 0 || q.state = 3 || q.unacked.length ≤ k then s
    else
      let rest := q.unacked.drop (k + 1)
      let s1 := modQp n (fun q => { q with unacked := rest, ackedPsn := (psn + 1) % 2 ^ 24, retry := 0, lastUse := s.tick }) s
      let done := doneWork ((q.unacked.take (k + 1)).map (·.what)) (rest.map (·.what) ++ q.queued.map (·.2.1))
      windowRefill n (done.foldl (fun t w => txDone w t) s1)

def ackReceivedFx (qp port psn now : Nat) (s0 : State) : State :=
  let s := atTick now s0
  if portUp s port then ackFx qp psn (controlIn port qp 1 s) else s
def execAckReceived (qp port psn now : Nat) (s : State) : Host.Outcome State Fault Refusal := .next (ackReceivedFx qp port psn now s)

/-- A port is left out for a destination for 1 ms; when none is left its messages fail (R357). -/
def leaveOut (n port : Nat) (s : State) : State :=
  match qpOf s n with
  | none => s
  | some q =>
    let s1 := modFab (fun f =>
      { f with excluded := (port, q.peerDev, s.tick + msTicks 1) :: f.excluded.filter fun x => !(x.1 = port && x.2.1 = q.peerDev) }) s
    if allExcluded s1 q.peerDev then destinationLost q.peerDev s1 else s1

/-- A NAK by its code (R363). -/
def nakFx (n port psn : Nat) (code : NakCode) (s : State) : State :=
  match qpOf s n with
  | none => s
  | some q =>
    if q.state = 3 || q.state = 0 then s
    else
      match code with
      | .seq => tclRetry n psn s
      | .noContext => modQp n (fun q => { q with resend := some (s.tick + usTicks 5, psn) }) s
      | .noQp => qpError n 3 s
      | .qpError => qpError n 3 s
      | .unreachable => leaveOut n port s

def nakReceivedFx (qp port psn now : Nat) (code : NakCode) (s0 : State) : State :=
  let s := atTick now s0
  if portUp s port then nakFx qp port psn code (bump FAB_TCL_NAK_RX 1 (controlIn port qp 1 s)) else s
def execNakReceived (qp port psn now : Nat) (code : NakCode) (s : State) : Host.Outcome State Fault Refusal :=
  .next (nakReceivedFx qp port psn now code s)

/-- A SACK: the message completes, fails with ST_BUSY, or has packets covered; bit `i` of the bitmap covers index base + i
(R352, R359). -/
def sackFx (n msgId base : Nat) (complete noBuffer : Bool) (bitmap : List Nat) (s : State) : State :=
  match (qpOf s n).bind fun q => q.tcsOut.find? fun o => o.msgId = msgId with
  | none => s
  | some o =>
    let gone := modQp n (fun q => { q with tcsOut := q.tcsOut.filter fun x => x.msgId ≠ msgId, lastUse := s.tick }) s
    if complete then txDone o.what gone
    else if noBuffer then txFail o.what stBusy gone
    else
      modQp n (fun q =>
        { q with tcsOut := q.tcsOut.map fun x =>
            if x.msgId = msgId then { x with open' := x.open'.filter fun p => !(bitmap.any fun i => base + i = p.idx) } else x }) s

def sackReceivedFx (qp port msgId base now : Nat) (complete noBuffer : Bool) (bitmap : List Nat) (s0 : State) : State :=
  let s := atTick now s0
  if portUp s port then sackFx qp msgId base complete noBuffer bitmap (controlIn port qp 2 s) else s
def execSackReceived (qp port msgId base now : Nat) (complete noBuffer : Bool) (bitmap : List Nat) (s : State) :
    Host.Outcome State Fault Refusal := .next (sackReceivedFx qp port msgId base now complete noBuffer bitmap s)

/-! ## Timers (R359 to R363) -/

/-- The oldest unacknowledged packet has waited FAB_TMO.TCL_US since its last sending. -/
def tclDue (s : State) (n : Nat) (q : Qp) : Option Nat :=
  match q.unacked with
  | [] => none
  | x :: _ =>
    if x.sentAt + usTicks (regField s FAB_TMO 9 0) ≤ s.tick && !frameWaits s n false x.psn 0 then some x.psn else none

/-- An ACK for the oldest unacknowledged packet arrives on this tick, and stands in the queue: the arrival wins (R364). -/
def ackArrives (s : State) (qp : Nat) (q : Qp) : Bool :=
  s.pending.any fun i =>
    match i with
    | .ackReceived n _ psn now => n = qp && decide (now ≤ s.tick) && decide ((psn + 2 ^ 24 - q.ackedPsn) % 2 ^ 24 < q.unacked.length)
    | _ => false

def tclAckTimeoutFx (qp now : Nat) (s0 : State) : State :=
  let s := atTick now s0
  match qpOf s qp with
  | none => s
  | some q => match tclDue s qp q with | some psn => if alive s && !ackArrives s qp q then tclRetry qp psn s else s | none => s
def execTclAckTimeout (qp now : Nat) (s : State) : Host.Outcome State Fault Refusal := .next (tclAckTimeoutFx qp now s)

/-- 2 us after an accepted packet without its ACK (R362). -/
def tclAckDelayExpireFx (qp now : Nat) (s0 : State) : State :=
  let s := atTick now s0
  match qpOf s qp with
  | none => s
  | some q => if alive s && q.ackOwed ≠ 0 && decide (q.ackSince + usTicks 2 ≤ s.tick) then sendAck qp s else s
def execTclAckDelayExpire (qp now : Nat) (s : State) : Host.Outcome State Fault Refusal := .next (tclAckDelayExpireFx qp now s)

/-- 5 us after NAK NO_CONTEXT; this resend is no retry (R363). -/
def tclNoContextResendFx (qp now : Nat) (s0 : State) : State :=
  let s := atTick now s0
  match (qpOf s qp).bind (·.resend) with
  | none => s
  | some r => if alive s && decide (r.1 ≤ s.tick) then tclResend qp r.2 (modQp qp (fun q => { q with resend := none }) s) else s
def execTclNoContextResend (qp now : Nat) (s : State) : Host.Outcome State Fault Refusal := .next (tclNoContextResendFx qp now s)

/-- Resend one TC-S packet on its next path, or fail the message (R357, R359). -/
def tcsResend (n msgId idx : Nat) (q : Qp) (x : TcsPkt) (s : State) : State :=
  if allExcluded s q.peerDev then destinationLost q.peerDev s
  else if retryLimit s ≤ x.retries then tcsExhausted n msgId s
  else
    let upd := fun (p : TcsPkt) => if p.idx = idx then { p with retries := p.retries + 1, sentAt := s.tick } else p
    let s1 := modQp n (fun q => { q with tcsOut := q.tcsOut.map fun o => if o.msgId = msgId then { o with open' := o.open'.map upd } else o }) s
    let o := q.tcsOut.find? fun o => o.msgId = msgId
    let path := sprayPath s1 q idx (x.retries + 1)
    queueFrame (pathPort s1 q.peerDev path)
      ⟨n, true, msgId, idx, x.bytes, true, s.tick, (o.map (·.budget)).getD {}, path, pktCountOf idx ((o.map (·.count)).getD 0)⟩ s1

/-- A SACK for a packet arrives on this tick, and stands in the queue: the arrival wins over the packet's timer (R364). -/
def sackArrives (s : State) (qp msgId pktIdx : Nat) : Bool :=
  s.pending.any fun i =>
    match i with
    | .sackReceived q _ m base now complete noBuffer bitmap =>
      q = qp && m = msgId && decide (now ≤ s.tick) && (complete || noBuffer || bitmap.any fun k => base + k = pktIdx)
    | _ => false

def tcsRetransmitTimeoutFx (qp msgId pktIdx now : Nat) (s0 : State) : State :=
  let s := atTick now s0
  match qpOf s qp with
  | none => s
  | some q =>
    match (q.tcsOut.find? fun o => o.msgId = msgId).bind fun o => o.open'.find? fun p => p.idx = pktIdx with
    | none => s
    | some x =>
      if alive s && decide (x.sentAt + usTicks (regField s FAB_TMO 25 16) ≤ s.tick) && !frameWaits s qp true msgId pktIdx &&
          !sackArrives s qp msgId pktIdx then
        tcsResend qp msgId pktIdx q x s
      else s
def execTcsRetransmitTimeout (qp msgId pktIdx now : Nat) (s : State) : Host.Outcome State Fault Refusal :=
  .next (tcsRetransmitTimeoutFx qp msgId pktIdx now s)

/-- Every 8 us while packets keep arriving a SACK shows the bitmap (R358). -/
def tcsSackTimerFx (qp msgId now : Nat) (s0 : State) : State :=
  let s := atTick now s0
  match (qpOf s qp).bind fun q => q.tcsIn.find? fun t => t.msgId = msgId with
  | none => s
  | some t =>
    if alive s && decide (t.sackAt ≤ s.tick) then
      (let s1 := modQp qp (fun q =>
         { q with tcsIn := q.tcsIn.map fun x => if x.msgId = msgId then { x with sackAt := t.sackAt + usTicks 8, fresh := false } else x }) s
       if t.fresh then sendSack qp msgId false false t.placed s1 else s1)
    else s
def execTcsSackTimer (qp msgId now : Nat) (s : State) : Host.Outcome State Fault Refusal := .next (tcsSackTimerFx qp msgId now s)

/-- The packets that a message still lacks arrive on this tick, and stand in the queue: the arrival wins over its timer (R364). -/
def asmArrives (s : State) (qp : Nat) (t : TcsIn) : Bool :=
  let now := s.pending.filterMap fun i =>
    match i with
    | .tcsDataReceived f => if f.dstQp = qp && f.msgId = t.msgId && decide (f.now ≤ s.tick) then some f else none
    | _ => none
  match (now.find? (·.last)).map (·.pktIdx + 1) <|> t.expect with
  | some k => (List.range k).all fun i => t.placed.contains i || now.any fun f => f.pktIdx = i
  | none => false

/-- The assembly timer closes an entry: its buffer completes with ST_TIMEOUT, and its number counts as completed (R360). -/
def tcsAssemblyTimeoutFx (qp msgId now : Nat) (s0 : State) : State :=
  let s := atTick now s0
  match (qpOf s qp).bind fun q => q.tcsIn.find? fun t => t.msgId = msgId with
  | none => s
  | some t =>
    if alive s && decide (t.firstAt + usTicks (regField s FAB_ASM_TMO 13 0) ≤ s.tick) && !asmArrives s qp t then
      (let s1 := bump FAB_ASM_TMO_CNT 1 (modQp qp (fun q =>
         msgClosed msgId { q with tcsIn := q.tcsIn.filter fun x => x.msgId ≠ msgId, tcsLate := msgId :: q.tcsLate }) (msgClose qp t.src t.opcode t.tag s))
       match t.buffer with
       | some b => (let i := takeFree 32 s1; bufferDone qp b t.tag i.1 0 stTimeout i.2)
       | none => s1)
    else s
def execTcsAssemblyTimeout (qp msgId now : Nat) (s : State) : Host.Outcome State Fault Refusal := .next (tcsAssemblyTimeoutFx qp msgId now s)

/-- After 1 ms a port counts again for a destination (R357). -/
def portExclusionExpireFx (port dest now : Nat) (s0 : State) : State :=
  let s := atTick now s0
  if alive s then
    modFab (fun f => { f with excluded := f.excluded.filter fun x => !(x.1 = port && x.2.1 = dest && decide (x.2.2 ≤ s.tick)) }) s
  else s
def execPortExclusionExpire (port dest now : Nat) (s : State) : Host.Outcome State Fault Refusal := .next (portExclusionExpireFx port dest now s)

/-! ## Contexts (R370 to R372) -/

/-- The written context is verified: its slot frees, and the oldest need of the die takes it (R370). -/
def qpcEvictVerifiedFx (n : Nat) (s : State) : State :=
  match qpOf s n with
  | none => s
  | some q =>
    if alive s && q.loc = 3 then slotFreed (n % 2) (bump QPC_EVICT_CNT 1 (modQp n (fun q => { q with loc := 1 }) s)) else s
def execQpcEvictVerified (qp : Nat) (s : State) : Host.Outcome State Fault Refusal := .next (qpcEvictVerifiedFx qp s)

/-- The context that parked packets await is fetched on this tick: the arrival wins over their timer (R364). -/
def fetchArrives (s : State) (n : Nat) : Bool :=
  s.pending.any fun i => match i with | .qpcFetchComplete q now => q = n && decide (now ≤ s.tick) | _ => false

/-- Packets parked past QPC_HOLD_TMO are discarded (R364, R372). -/
def qpcHoldTimeoutFx (n now : Nat) (s0 : State) : State :=
  let s := atTick now s0
  match qpOf s n with
  | none => s
  | some q =>
    let late := q.parked.filter fun x => decide (x.frame.now + usTicks (regField s QPC_HOLD_TMO 7 0) ≤ s.tick)
    if !alive s || fetchArrives s n then s
    else
      late.foldl (fun t x => turnAway x.tcs n x.frame.psn .noContext (bump QPC_HOLD_EXP_CNT 1 t))
        (modQp n (fun q => { q with parked := q.parked.filter fun x => !late.contains x }) s)
def execQpcHoldTimeout (qp now : Nat) (s : State) : Host.Outcome State Fault Refusal := .next (qpcHoldTimeoutFx qp now s)

/-- The visible context of a QP, 64 bytes (R374). An evicted QP shows LOC alone (R371). -/
def qpContext (n : Nat) (q : Qp) : Bytes :=
  if q.loc = 1 then toLe 4 (2 ^ 28) ++ zeros 60
  else
    toLe 4 (n + 2 ^ 20 * q.state + 2 ^ 24 * q.type + 2 ^ 26 * b2n q.pin + 2 ^ 27 * b2n q.shaped + 2 ^ 28 * q.loc) ++
      toLe 4 (q.pd + 2 ^ 12 * q.peerDev + 2 ^ 24 * q.spray) ++ toLe 4 (q.peerQp + 2 ^ 20 * q.comp) ++ toLe 2 q.evoest ++
      toLe 2 q.posted.length ++ toLe 4 (q.sendPsn + 2 ^ 24 * q.retry) ++ toLe 4 q.ackedPsn ++ toLe 4 q.expPsn ++ toLe 4 q.tcsSend ++
      toLe 4 q.tcsBase ++ toLe 4 (q.errCause + 2 ^ 16 * q.errStatus) ++ toLe 8 q.lastUse ++ zeros 16

/-- A write to QPC_SEL copies the QP's visible context into QPC_CTX (R374). -/
def qpcSelWriteFx (v : Nat) (s : State) : State :=
  let s1 := regSet QPC_SEL v s
  let n := regField s1 QPC_SEL 19 0
  putWords (QPC_CTX 0) (match qpOf s1 n with | some q => qpContext n q | none => zeros 64) s1

def execQpcSelWrite (value : Nat) (s : State) : Host.Outcome State Fault Refusal := .next (if hostHeard s then qpcSelWriteFx value s else s)

def execQpcFetchMaxRead (s : State) : Host.Outcome State Fault Refusal := .next (if readable s then readClear QPC_FETCH_MAX s else s)

end Sys2Proof.Machine
end

