-- ==== Sys2Proof/Machine/Qps.lean ====
section
/-! DEFINITION. Queue pairs, protection domains, regions and receive buffers, traffic shapers, SYS.HELLO and SYS.CAPS
(R324, R327 to R330, R365 to R371, R376, R415, R417). -/

namespace Sys2Proof.Machine

/-! ## SYS.HELLO (R328) -/

/-- The versions that the device speaks, highest first. -/
def versions : List Nat := [0x302, 0x301, 0x300, 0x203]

/-- The highest version that the device speaks within an offered range. -/
def helloChoice (range : Nat) : Option Nat :=
  versions.find? fun v => decide (range % 65536 ≤ v) && decide (v ≤ range / 65536)

/-- Parameters of a SYS.HELLO that the device sends. -/
def helloMsg (s : State) (tag : Nat) : MsgOut :=
  { opcode := 1, tag := tag, p0 := 0x03020203, p1 := s.dev.deviceId, p2 := 0x840 + 0xA1 * 2 ^ 16 }

/-- The device sends SYS.HELLO on a QP that has entered RTS. -/
def selfHello (n : Nat) (s : State) : State :=
  let t := takeTag s
  sendMsgOn n (helloMsg t.2 t.1) .hello (modQp n (fun q => { q with helloTag := some t.1 }) t.2)

/-- RESULT of a SYS.HELLO answered with a version. -/
def helloResult (s : State) (v : Nat) : Nat := v + 2 ^ 16 * s.dev.deviceId + 2 ^ 32 * 0x840 + 2 ^ 48 * 0xA1

/-- The version that a SYS.HELLO on a negotiated QP keeps, when its range still holds it. -/
def helloKeeps (range v : Nat) : Bool := decide (range % 65536 ≤ v) && decide (v ≤ range / 65536)

/-- A SYS.HELLO on a fabric QP: the first choice completes the negotiation; a negotiated QP keeps its choice or enters ERROR. -/
def helloOnQp (n : Nat) (p : Pkt) (s : State) : State :=
  match qpOf s n with
  | none => s
  | some q =>
    if q.evoest ≠ 0 then
      (if helloKeeps p.p0 q.evoest then ok 0x01 p (helloResult s q.evoest) s
       else qpError n 4 (fail 0x01 p stQpError s))
    else
      match helloChoice p.p0 with
      | some v => afterHello (ok 0x01 p (helloResult s v) (modQp n (fun q => { q with evoest := v }) s))
      | none => afterHello (fail 0x01 p stVersion (modQp n (fun q => { q with noCommon := true }) s))

/-- SYS.HELLO by its path: the paths other than the fabric are fixed at 3.2 (R329). -/
def helloAct (p : Pkt) (s : State) : State :=
  match p.path with
  | .fabric qp _ _ => helloOnQp qp p s
  | _ => match helloChoice p.p0 with
         | some v => ok 0x01 p (helloResult s v) s
         | none => fail 0x01 p stVersion s

def rowHello : OpRow := ⟨0x01, true, true, true, 0, false⟩
def sysHelloFx (p : Pkt) (s : State) : State :=
  receive rowHello p (orFormat (paramsZero p true true true false && decide (p.p1 < 4096) && decide (p.p2 < 2 ^ 24)) 0x01 p (helloAct p)) s

def execSysHello (p : Pkt) (s : State) : Host.Outcome State Fault Refusal := .next (sysHelloFx p s)

/-! ## SYS.CAPS (R327) -/

/-- Cores that run under a logical ID: SERVING and COVERING slots. -/
def coresServing (s : State) : Nat := (s.core.slots.filter fun e => e.2.state = 1 || e.2.state = 3).length

/-- The capabilities record. -/
def capsRecord (s : State) : Bytes :=
  toLe 2 0x840 ++ toLe 1 0xA1 ++ toLe 1 s.dev.personality ++ toLe 1 s.dev.grade ++
    toLe 1 (b2n (restricted s) + 2 * b2n (bit s.dev.grants 5) + 4 * b2n (bit s.dev.grants 3) + 8 * b2n (bit s.dev.grants 4)) ++
    toLe 1 s.dev.portsMin ++ toLe 1 s.dev.portsMax ++ toLe 2 s.dev.deviceId ++ toLe 2 0x302 ++ toLe 4 s.dev.modes ++
    toLe 4 (3 * 2 ^ 16) ++ toLe 1 (absentStack s) ++ zeros 1 ++ toLe 2 (coresServing s) ++
    ((List.range 4).flatMap fun k => toLe 1 (absentCluster s k)) ++ zeros 4 ++
    toLe 16 (bitmap 128 fun m => (cluster s m).seven) ++ zeros 16 ++
    ((List.range 1152).flatMap fun n => toLe 2 (match (coreSlot s n).lid with | some l => 2 ^ 15 + l | none => 0))

def rowCaps : OpRow := ⟨0x02, true, true, true, 0, false⟩
def sysCapsFx (p : Pkt) (s : State) : State :=
  receive rowCaps p (orFormat (paramsZero p false false false false) 0x02 p fun t => respond 0x02 p (capsRecord t) 0 t) s

def execSysCaps (p : Pkt) (s : State) : Host.Outcome State Fault Refusal := .next (sysCapsFx p s)

/-! ## Protection domains (R367) -/

def rowPdCreate : OpRow := ⟨0x4B, true, true, true, 0, false⟩
def pdCreateAct (p : Pkt) (s : State) : State :=
  if s.fab.pds.contains p.p0 then fail 0x4B p stBusy s else ok 0x4B p 0 (modFab (fun f => { f with pds := p.p0 :: f.pds }) s)
def pdCreateFx (p : Pkt) (s : State) : State :=
  receive rowPdCreate p (orFormat (paramsZero p true false false false && decide (p.p0 < 4096)) 0x4B p (pdCreateAct p)) s

def execPdCreate (p : Pkt) (s : State) : Host.Outcome State Fault Refusal := .next (pdCreateFx p s)

/-! ## Regions (R367, R368, R376) -/

/-- The region that a descriptor describes. -/
def regionRec (pd : Nat) (b : Bytes) : Region := ⟨leAt b 0 8, leAt b 8 8, leAt b 16 1, leAt b 17 1, pd⟩

/-- A descriptor keeps its table. -/
def regionOk (b : Bytes) : Bool :=
  let r := regionRec 0 b
  b.length = 32 && r.len % 64 = 0 && decide (64 ≤ r.len) && decide (r.len ≤ 2 ^ 40) && decide (r.kind < 2) && decide (r.access < 16) &&
    leAt b 18 14 = 0 && (r.kind = 0 || r.access % 8 = 0) && (r.kind = 1 || decide (r.base + r.len ≤ 0x200000))

/-- Register a region at an index under its next variant (R367). -/
def regionPut (i : Nat) (r : Region) (s : State) : State :=
  modFab (fun f => { f with regions := tabPut f.regions i r, variants := tabSet f.variants i ((tabGetD f.variants i 0 + 1) % 256) 0 }) s

/-- The key of an index. -/
def regionKey (s : State) (i : Nat) : Nat := 256 * i + tabGetD s.fab.variants i 0

def rowRegister : OpRow := ⟨0x4C, true, true, true, 32, false⟩
def registerAct (p : Pkt) (s : State) : State :=
  if !s.fab.pds.contains p.p0 then fail 0x4C p stPd s
  else
    match tabFree s.fab.regions 262144 with
    | none => fail 0x4C p stBusy s
    | some i =>
      let s1 := regionPut i (regionRec p.p0 p.payload) s
      ok 0x4C p (regionKey s1 i) s1
def regionRegisterFx (p : Pkt) (s : State) : State :=
  receive rowRegister p
    (orFormat (paramsZero p true false false false && decide (p.p0 < 4096) && regionOk p.payload) 0x4C p (registerAct p)) s

def execRegionRegister (p : Pkt) (s : State) : Host.Outcome State Fault Refusal := .next (regionRegisterFx p s)

def rowDeregister : OpRow := ⟨0x4D, true, true, true, 0, false⟩

/-- The region that a key names (R367). -/
def deregisterAct (p : Pkt) (s : State) : State :=
  match regionOfKey s p.p0 with
  | some _ => ok 0x4D p 0 (modFab (fun f => { f with regions := tabDel f.regions (p.p0 / 256) }) s)
  | none => fail 0x4D p stKey s
def regionDeregisterFx (p : Pkt) (s : State) : State :=
  receive rowDeregister p (orFormat (paramsZero p true false false false) 0x4D p (deregisterAct p)) s

def execRegionDeregister (p : Pkt) (s : State) : Host.Outcome State Fault Refusal := .next (regionDeregisterFx p s)

/-! ## Queue pairs (R365, R366) -/

def recTarget (b : Bytes) : Nat := leAt b 0 1
def recSpray (b : Bytes) : Nat := leAt b 1 1
def recFlags (b : Bytes) : Nat := leAt b 2 1
def recPeerQp (b : Bytes) : Nat := leAt b 4 4
def recPeerDev (b : Bytes) : Nat := leAt b 8 2
def recComp (b : Bytes) : Nat := leAt b 10 2
def recInitPsn (b : Bytes) : Nat := leAt b 12 4
def recExpPsn (b : Bytes) : Nat := leAt b 16 4

/-- The record keeps its table. -/
def recOk (b : Bytes) : Bool :=
  b.length = 32 && decide (recTarget b < 4) && decide (recSpray b < 17) && decide (recFlags b < 4) && leAt b 3 1 = 0 &&
    decide (recPeerQp b < 2 ^ 20) && decide (recPeerDev b < 4096) && decide (recComp b < 4096) && decide (recInitPsn b < 2 ^ 24) &&
    decide (recExpPsn b < 2 ^ 24) && leAt b 20 12 = 0

/-- P3 and the record name the same peer. -/
def recAgrees (type p3 : Nat) (b : Bytes) : Bool :=
  if type = 0 then p3 = recPeerDev b else decide (p3 < 1024) && recPeerQp b = p3 && recPeerDev b = 0

/-- The fields that QP.CREATE and every QP.MODIFY take. -/
def recFields (b : Bytes) (q : Qp) : Qp := { q with spray := recSpray b, shaped := bit (recFlags b) 0, pin := bit (recFlags b) 1, comp := recComp b }

/-- The fields taken only on the way from RESET to INIT, and by QP.CREATE. -/
def recPeer (b : Bytes) (q : Qp) : Qp :=
  { q with peerQp := recPeerQp b, peerDev := recPeerDev b, initPsn := recInitPsn b, initExp := recExpPsn b, sendPsn := recInitPsn b,
           ackedPsn := recInitPsn b, expPsn := recExpPsn b, retry := 0, nakSent := false, ackOwed := 0 }

/-- QPs of a die that are never evicted. -/
def diePinned (s : State) (die : Nat) : Nat := (s.fab.qps.filter fun e => e.1 % 2 = die && qpPinned e.2).length

/-- The QP leaves the wheel with a count of 0, and what it held back rejoins the ports (R417). -/
def shaperReset (n : Nat) (f : Shaper → Shaper) (s : State) : State :=
  let h := shaperOf s n
  h.frames.foldl (fun t x => queueFrame (some x.1) x.2 t)
    (modShaper n (fun h => f { h with count100 := 0, countAt := s.tick, slot := none, frames := [] }) s)

/-- The SHAPED bit of a QP. -/
def setShaped (n : Nat) (on : Bool) (s : State) : State := shaperReset n (fun h => { h with enabled := on }) s

/-- A QP enters RTS: its TC-S message numbers start at 0, and a fabric QP sends SYS.HELLO (R328, R365). -/
def enterRts (n : Nat) (s : State) : State :=
  let s1 := modQp n (fun q => { q with state := 2, tcsSend := 0, tcsBase := 0, tcsDone := [], tcsLate := [] }) s
  match qpOf s1 n with
  | some q => if q.type = 0 then selfHello n s1 else s1
  | none => s1

/-- A QP enters RESET and loses its negotiated version; from RTS its outstanding work is flushed (R366). -/
def enterReset (n : Nat) (s : State) : State :=
  match qpOf s n with
  | none => s
  | some q =>
    let s1 := if q.state = 2 then qpFlush n s else framesGone n (modQp n (fun q => { q with unacked := [], queued := [], resend := none, ackOwed := 0 }) s)
    let s2 := modQp n (fun q => { q with state := 0, evoest := 0, noCommon := false, helloTag := none }) s1
    if q.helloTag.isSome then afterHello s2 else s2

/-- The row of R366 for a QP.MODIFY; none where the table rejects it with ST_BUSY. -/
def qpMove (n t : Nat) (b : Bytes) (q : Qp) (s : State) : Option State :=
  match q.state, t with
  | 0, 0 => some s
  | 0, 1 => some (modQp n (fun q => recPeer b { q with state := 1 }) s)
  | 0, 3 => some (qpError n 6 s)
  | 1, 0 => some (enterReset n s)
  | 1, 1 => some s
  | 1, 2 => some (enterRts n s)
  | 1, 3 => some (qpError n 6 s)
  | 2, 0 => some (enterReset n s)
  | 2, 2 => some s
  | 2, 3 => some (qpError n 6 s)
  | 3, 0 => some (enterReset n s)
  | 3, 3 => some s
  | _, _ => none

/-- Take the fields that every QP.MODIFY takes; a change of SHAPED starts the shaper afresh (R417). -/
def modifyFields (n : Nat) (b : Bytes) (q : Qp) (s : State) : State :=
  let s1 := modQp n (recFields b) s
  if bit (recFlags b) 0 = q.shaped then s1 else setShaped n (bit (recFlags b) 0) s1

/-- QP.MODIFY on a resident context. -/
def modifyNow (p : Pkt) (s : State) : State :=
  match qpOf s p.p0 with
  | none => fail 0x49 p stFormat s
  | some q =>
    if !qpPinned q && bit (recFlags p.payload) 1 && decide (2048 ≤ diePinned s (p.p0 % 2)) then fail 0x49 p stBusy s
    else
      match qpMove p.p0 (recTarget p.payload) p.payload q (modifyFields p.p0 p.payload q s) with
      | none => fail 0x49 p stBusy s
      | some s1 => ok 0x49 p 0 s1

/-- SCH.SHAPER's record keeps its layout (R415). -/
def shaperOk (b : Bytes) : Bool :=
  b.length = 16 && decide (leAt b 8 1 < 2) && leAt b 9 7 = 0 &&
    (leAt b 8 1 = 0 || (decide (1 ≤ leAt b 0 4) && decide (leAt b 0 4 ≤ 200000) && decide (1024 ≤ leAt b 4 4) && decide (leAt b 4 4 ≤ 16777215)))

/-- SCH.SHAPER on a resident context: the settings, the SHAPED bit, and a count of 0 (R415, R417). -/
def shaperNow (p : Pkt) (s : State) : State :=
  match qpOf s p.p0 with
  | none => fail 0x59 p stFormat s
  | some _ =>
    let on := leAt p.payload 8 1 = 1
    ok 0x59 p 0 (shaperReset p.p0 (fun h =>
      if on then { h with enabled := true, rate := leAt p.payload 0 4, burst := leAt p.payload 4 4 } else { h with enabled := false })
      (modQp p.p0 (fun q => { q with shaped := on }) s))

/-- A command on a context, by its OPCODE. -/
def contextCmd (x : Nat × Pkt) (s : State) : State := if x.1 = 0x49 then modifyNow x.2 s else shaperNow x.2 s

/-- A command that needs the context acts on a resident one; an evicted one is fetched first (R371). -/
def onContext (x : Nat × Pkt) (s : State) : State :=
  let s1 := wakeQp x.2.p0 s
  match qpOf s1 x.2.p0 with
  | none => fail x.1 x.2 stFormat s1
  | some q => if q.loc = 0 then contextCmd x s1 else modQp x.2.p0 (fun q => { q with waitCmds := q.waitCmds ++ [x] }) s1

def rowCreate : OpRow := ⟨0x48, true, true, true, 32, false⟩

/-- A new QP: its context takes a resident slot of its die, or waits for one (R370). -/
def createAct (p : Pkt) (s : State) : State :=
  let b := p.payload
  if !s.fab.pds.contains p.p1 then fail 0x48 p stPd s
  else if (qpOf s p.p0).isSome then fail 0x48 p stBusy s
  else if (p.p2 = 1 || bit (recFlags b) 1) && decide (2048 ≤ diePinned s (p.p0 % 2)) then fail 0x48 p stBusy s
  else
    let q : Qp := recPeer b (recFields b { state := 1, type := p.p2, pd := p.p1, loc := 1, lastUse := s.tick })
    let s1 := needSlot p.p0 (modFab (fun f => { f with qps := tabPut f.qps p.p0 q }) s)
    let s2 := if bit (recFlags b) 0 then setShaped p.p0 true s1 else s1
    ok 0x48 p 0 (if recTarget b = 2 then enterRts p.p0 s2 else s2)

def createOk (p : Pkt) : Bool :=
  decide (p.p0 < 2 ^ 20) && decide (p.p1 < 4096) && decide (p.p2 < 2) && recOk p.payload && (recTarget p.payload = 1 || recTarget p.payload = 2) &&
    recAgrees p.p2 p.p3 p.payload

def qpCreateFx (p : Pkt) (s : State) : State := receive rowCreate p (orFormat (createOk p) 0x48 p (createAct p)) s

def execQpCreate (p : Pkt) (s : State) : Host.Outcome State Fault Refusal := .next (qpCreateFx p s)

def rowModify : OpRow := ⟨0x49, true, true, true, 32, false⟩
def qpModifyFx (p : Pkt) (s : State) : State :=
  receive rowModify p
    (orFormat (paramsZero p true false false false && decide (p.p0 < 2 ^ 20) && recOk p.payload) 0x49 p (onContext (0x49, p))) s

def execQpModify (p : Pkt) (s : State) : Host.Outcome State Fault Refusal := .next (qpModifyFx p s)

def rowShaper : OpRow := ⟨0x59, true, true, true, 16, false⟩
def schShaperFx (p : Pkt) (s : State) : State :=
  receive rowShaper p
    (orFormat (paramsZero p true false false false && decide (p.p0 < 2 ^ 20) && shaperOk p.payload) 0x59 p (onContext (0x59, p))) s

def execSchShaper (p : Pkt) (s : State) : Host.Outcome State Fault Refusal := .next (schShaperFx p s)

def rowDestroy : OpRow := ⟨0x4A, true, true, true, 0, false⟩

/-- A QP is freed, with its object in a host window, its shaper and its resident slot (R366, R371). -/
def qpGone (n : Nat) (q : Qp) (s : State) : State :=
  let s1 := if q.state = 2 then qpFlush n s else s
  let s2 := framesGone n (winFree (.qpContext n) s1)
  let s3 := modFab (fun f => { f with qps := tabDel f.qps n }) (modSched (fun c => { c with shapers := tabDel c.shapers n }) s2)
  let s4 := q.waitCmds.foldl (fun t x => fail x.1 x.2 stFormat t) (slotFreed (n % 2) s3)
  if q.helloTag.isSome then afterHello s4 else s4

def destroyAct (p : Pkt) (s : State) : State :=
  match qpOf s p.p0 with
  | none => fail 0x4A p stFormat s
  | some q => ok 0x4A p 0 (qpGone p.p0 q s)
def qpDestroyFx (p : Pkt) (s : State) : State :=
  receive rowDestroy p (orFormat (paramsZero p true false false false && decide (p.p0 < 2 ^ 20)) 0x4A p (destroyAct p)) s

def execQpDestroy (p : Pkt) (s : State) : Host.Outcome State Fault Refusal := .next (qpDestroyFx p s)

/-! ## Receive buffers (R369) -/

/-- A buffer descriptor of RECV.POST. -/
def bufferRec (b : Bytes) : Posted := { key := leAt b 0 4, len := leAt b 4 4, off := leAt b 8 6, cq := leAt b 14 2 }

/-- A descriptor keeps its layout. -/
def bufferOk (x : Posted) : Bool := decide (1 ≤ x.len) && decide (x.len ≤ 2 ^ 24) && decide (x.cq < 1024)

/-- The key of a buffer is valid for `n` received bytes (R368). -/
def bufferKey (s : State) (pd : Nat) (x : Posted) (n : Nat) : Option Region :=
  match regionOfKey s x.key with
  | some r => if r.pd = pd && bit r.access 3 && decide (x.off + n ≤ r.len) then some r else none
  | none => none

def rowRecv : OpRow := ⟨0x4E, true, true, true, 4096, false⟩
def recvAct (p : Pkt) (s : State) : State :=
  let l := (records 16 p.payload).map bufferRec
  match qpOf s p.p0 with
  | none => fail 0x4E p stQpError s
  | some q =>
    if q.state = 0 || q.state = 3 then fail 0x4E p stQpError s
    else if decide (256 < q.posted.length + l.length) then fail 0x4E p stFormat s
    else if l.all fun x => (bufferKey s q.pd x x.len).isSome then
      ok 0x4E p 0 (modQp p.p0 (fun q => { q with posted := q.posted ++ l }) (wakeQp p.p0 s))
    else fail 0x4E p stKey s
def recvPostFx (p : Pkt) (s : State) : State :=
  receive rowRecv p
    (orFormat (paramsZero p true false false false && decide (p.p0 < 2 ^ 20) && p.payload.length % 16 = 0 &&
        ((records 16 p.payload).map bufferRec).all bufferOk) 0x4E p (recvAct p)) s

def execRecvPost (p : Pkt) (s : State) : Host.Outcome State Fault Refusal := .next (recvPostFx p s)

/-- Write area bytes across the two dies (R375). -/
def areaWrite (a : Nat) (b : Bytes) (s : State) : State :=
  let k := 0x100000 - a
  memStore (areaDpa (a + min k b.length)) (b.drop k) (memStore (areaDpa a) (b.take k) s)

/-- Place a message in its buffer: in the memory-semantic area, or in host memory (R367). -/
def bufferPlace (x : Posted) (r : Region) (b : Bytes) (s : State) : State :=
  if r.kind = 0 then inputArrived (areaDpa (r.base + x.off)) b.length (areaWrite (r.base + x.off) b s)
  else emit (.hostWrite (ringOwner s x.cq) (r.base + x.off) b) s

/-- The buffer bound to a SEND message of a QP. -/
def boundOf (q : Qp) (tag : Nat) : Option Posted := (q.bound.find? fun x => x.1 = tag).bind (·.2)

/-- The buffer bound to a message is consumed with a status. -/
def boundDone (n : Nat) (p : Pkt) (placed st : Nat) (s : State) : State :=
  match (qpOf s n).bind fun q => boundOf q p.tag with
  | none => s
  | some x => bufferDone n x p.tag p.p0 placed st (modQp n (fun q => { q with bound := q.bound.eraseP fun y => y.1 = p.tag }) s)

/-- A SEND message reaches the buffer that its first packet bound; both ends learn the outcome (R368, R369). -/
def sendAct (p : Pkt) (s : State) : State :=
  match p.path with
  | .fabric n _ _ =>
    (match (qpOf s n).bind fun q => (boundOf q p.tag).map fun x => (q, x) with
     | none => fail 0x4F p stBusy s
     | some (q, x) =>
       if decide (x.len < p.payload.length) then boundDone n p 0 stFormat (fail 0x4F p stFormat s)
       else
         match bufferKey s q.pd x p.payload.length with
         | none => boundDone n p 0 stKey (fail 0x4F p stKey s)
         | some r => boundDone n p p.payload.length stOk (ok 0x4F p 0 (bufferPlace x r p.payload s)))
  | _ => fail 0x4F p stBusy s

def rowSend : OpRow := ⟨0x4F, true, true, true, 2 ^ 24, false⟩

/-- A SEND that the checks of R312 reject has bound its buffer, which completes with the same status (log 63). -/
def sendMsgFx (p : Pkt) (s : State) : State :=
  let good := paramsZero p true false false false
  let s1 := receive rowSend p (orFormat good 0x4F p (sendAct p)) s
  if !alive s || s.err.restarting then s1
  else
    match p.path, firstFail (atTick p.now s) rowSend p with
    | .fabric n _ _, some (st, _) => boundDone n p 0 st s1
    | .fabric n _ _, none => if good then s1 else boundDone n p 0 stFormat s1
    | _, _ => s1

def execSendMsg (p : Pkt) (s : State) : Host.Outcome State Fault Refusal := .next (sendMsgFx p s)

/-! ## Context fetches (R371) -/

/-- A parked frame is processed, in the QP's present state. -/
def parkedRun (n : Nat) (s : State) (x : ParkedPkt) : State :=
  match qpOf s n with
  | some q => if q.state = 1 || q.state = 2 then (if x.tcs then tcsAccept x.frame s else tclAccept x.frame s) else s
  | none => s

/-- The commands that waited for the context act on it. -/
def waitedRun (n : Nat) (q : Qp) (s : State) : State := q.waitCmds.foldl (fun t x => contextCmd x t) (modQp n (fun q => { q with waitCmds := [] }) s)

/-- The context is placed; the host object is freed; what waited follows in arrival order (R371). A fetch that arrives after it
has failed is discarded and counted (R364, R374). -/
def qpcFetchCompleteFx (n now : Nat) (s0 : State) : State :=
  let s := atTick now s0
  match qpOf s n with
  | none => s
  | some q =>
    if !alive s then s
    else if q.loc ≠ 2 then (if q.state = 3 && q.errCause = 5 then bump QPC_HOLD_EXP_CNT 1 s else s)
    else
      let s1 := keepMax QPC_FETCH_MAX (s.tick - q.fetchAt) (bump QPC_FETCH_CNT 1 (winFree (.qpContext n) s))
      let s2 := modQp n (fun q => { q with loc := 0, parked := [] }) s1
      q.parked.foldl (parkedRun n) (waitedRun n q s2)
def execQpcFetchComplete (qp now : Nat) (s : State) : Host.Outcome State Fault Refusal := .next (qpcFetchCompleteFx qp now s)

/-- A fetch fails: the QP enters ERROR with cause 5 and its parked packets are discarded (R371). While the window still holds the
object, the failure is a poisoned completion or a completion error (R176). -/
def qpcFetchFailFx (n now : Nat) (s0 : State) : State :=
  let s := atTick now s0
  match qpOf s n with
  | none => s
  | some q =>
    if !alive s || q.loc ≠ 2 then s
    else
      let s1 := bump QPC_FETCH_FAIL_CNT 1 (winFree (.qpContext n) (hostPoison (.qpContext n) s))
      let s2 := modQp n (fun q => { q with loc := 0, parked := [] }) s1
      waitedRun n q (qpError n 5 s2)
def execQpcFetchFail (qp now : Nat) (s : State) : Host.Outcome State Fault Refusal := .next (qpcFetchFailFx qp now s)

end Sys2Proof.Machine
end

