-- ==== Sys2Proof/Machine/StepOps.lean ====
section
/-! DEFINITION. What a step accumulates and how it is charged, discarded and started afresh (R66, R95, R137, R174, R281,
R408, R413), and the fencing of cores, clusters and die stacks (R46 to R71, R117 to R122). -/

namespace Sys2Proof.Machine

/-! ## Charging a step (R407, R413) -/

/-- Whether a row is live: neither padding nor turned into padding. -/
def rowLive (r : RowRec) : Bool := r.kind ≠ 3 && !r.turned

/-- Positions of the live rows of a batch. -/
def liveIdx (b : Batch) : List Nat := (List.range b.rows.length).filter fun i => match b.rows[i]? with | some r => rowLive r | none => false

/-- The charge of each live row of a step of `c` core-cycles: an equal share, and the remainder to the first. -/
def rowCharges (b : Batch) (c : Nat) : List (Nat × Nat) :=
  let l := liveIdx b
  (List.range l.length).map fun k =>
    (((b.rows[l.getD k 0]?).map (·.mid)).getD 0, c / l.length + (if k = 0 then c % l.length else 0))

/-- Manifests of a batch's live rows, each once. -/
def rowMids (b : Batch) : List Nat := ((b.rows.filter rowLive).map (·.mid)).eraseDups

/-- The weight of a manifest under a record of its class (R406). -/
def weightOf (k : ClassRec) (x : Berth) : Nat := max 1 (if x.prog.boost then k.weight * k.boostMult else k.weight)

/-- Account `a` core-cycles to a manifest: ENGINE_CYCLES, its class, and its tag T (R410, R413). -/
def chargeMan (s : State) (e : Nat × Nat) : State :=
  match berthNamed s e.1 with
  | none => s
  | some b =>
    match berthAt s b with
    | none => s
    | some x =>
      let s1 := modCnt b (fun c => { c with engineCycles := min (c.engineCycles + e.2) cntMax }) s
      bump (SCH_CLS_CYCLES x.id.shareClass) e.2 (modBerth b (fun y => { y with tagT := y.tagT + 256 * e.2 / weightOf (wovenClass s x.id.shareClass) x }) s1)

/-- The charges of a batch summed by manifest. -/
def manCharges (b : Batch) (c : Nat) : List (Nat × Nat) :=
  (rowMids b).map fun m => (m, (((rowCharges b c).filter fun e => e.1 = m).map (·.2)).sum)

/-- Account a step that ran `cycles`: the meter of its composition, its class and its manifests; and the credit, whose
debit of PLAN_CYCLES is replaced by the cycles run (R407). Rows of a replay service or a local re-run name no manifest that
the step serves, so those are charged to the composition alone (R438, R439). -/
def chargeStep (r : StepRun) (cycles : Nat) (s : State) : State :=
  let c := cycles * coresServing s
  let s1 := modSched (fun d =>
    { d with credit := tabSet d.credit r.comp (tabGetD d.credit r.comp 0 + (r.plan : Int) - (cycles : Int)) 0,
             meters := tabSet d.meters r.comp { tabGetD d.meters r.comp {} with coreCycles := min ((tabGetD d.meters r.comp {}).coreCycles + c) cntMax } {} }) s
  match r.what with
  | .run k => match tabGet s.eng.runs k with | some x => (manCharges x.batch c).foldl chargeMan s1 | none => s1
  | _ => s1

/-! ## Discarding a step (R66, R95, R281) -/

/-- The stager restarts from the first entry of the step to come, whatever it is, and what the slice holds stays for the entries that
name it (R174). -/
def stagerRestart (c : Cluster) : Cluster :=
  { c with reach := 0, pastEnd := false, staged := c.staged.map fun t => { t with entry := 2 ^ 18 },
           staging := c.staging.map fun t => { t with entry := 2 ^ 18 } }

/-- A cluster's sequencer, expander and tile buffers before the first entry of a step; the stager restarts at it and
keeps what the slice holds (R174). -/
def clusterRestart (c : Cluster) : Cluster :=
  stagerRestart { c with pc := 0, finished := false, flags := [], signals := [], barrier := none, fellBack := false, switched := false,
                         direct := none, carry := [], expander := [], issuedAt := none, stalledTo := 0, unfetched := false, engine := [],
                         loaded := [] }

/-- Clear what a run's step has written, read and chosen; `suspect` says whether the step to come is suspect. -/
def runRestart (suspect : Bool) (r : Run) : Run :=
  { r with heldNow := [], passNow := [], readNow := [], samples := [], suspectNow := suspect, drift := none, lost := [], replay := true }

/-- Close every exchange of the running step; a result that arrives later finds none (R281). -/
def closeExchanges (s : State) : State :=
  modFab (fun f => { f with waiting := f.waiting.filter fun w => match w.what with | .attPartial _ => false | _ => true })
    (modEng (fun e => { e with exch := [], groups := [], passed := [] }) s)

/-- Discard every effect of the running step (R66). -/
def stepDiscard (suspect : Bool) (s0 : State) : State :=
  let s := closeExchanges (modRun (runRestart suspect) s0)
  let s1 := modCore (fun c => { c with clusters := tabMap c.clusters fun _ => clusterRestart }) s
  modEng (fun e => { e with step := none }) { s1 with satNow := [], nanNow := [] }

/-- The whole microseconds of a step that are still to be metered (R414). -/
def meterStep (r : StepRun) (s : State) : State := meterActive r.comp ((s.tick - r.metered) / 100) s

/-- The cycles that the engine of a position has waited for its next tile up to a step cycle (R112). -/
def feedWaitTo (cycles m : Nat) (s : State) (x : Nat × Nat) : State :=
  bump (SEQ_CORE_FEEDWAIT x.2) (cycles - tabGetD (cluster s m).engine x.1 0) s

/-- Count what cluster `m` has waited at its next entry when its step ends at `cycles` without that entry (R112, R141). -/
def waitsCounted (cycles : Nat) (s : State) (m : Nat) : State :=
  match curEntry s m with
  | none => s
  | some e =>
    let s1 := if enOp e = opMma && !mmaReady s m e then (namedCores s m e).foldl (feedWaitTo cycles m) s else s
    if (cluster s m).unfetched || !inputReady s m e then stallTo m e cycles (stallCause s m e) s1 else s1

/-- Abort the running step at `cycles`: what its clusters waited is counted, it is charged what it ran, and the same weave follows
(R66, R141, R408). -/
def stepAbort (cycles : Nat) (s : State) : State :=
  match s.eng.step with
  | none => s
  | some r => stepDiscard false (meterStep r (chargeStep r cycles ((clustersIn s).foldl (waitsCounted cycles) s)))

/-- Cycles that a step ran up to now, for an event that brings no step cycle: 27 CLK_CORE cycles to a tick, of which N in
16 counted (R36, R137, R518). -/
def cyclesSoFar (s : State) : Nat :=
  match s.eng.step with
  | none => 0
  | some r => 27 * (s.tick - r.since) * s.pwr.level / 16

/-- A run in progress ends without a result: the speculative positions of its manifests roll back (log 82). -/
def runsEnd (s : State) : State :=
  let live := s.eng.runs.filter fun e => !e.2.ended
  let s1 := (live.flatMap fun e => rowMids e.2.batch).foldl (fun x m => match berthNamed x m with | some b => rollBack b x | none => x) s
  modEng (fun e => { e with runs := e.runs.filter fun r => r.2.ended, next := none }) s1

/-! ## Shape (R54, R58 to R65) -/

/-- Degraded mode is permitted: by the grade record's grade of 768 cores, or by a licence (R8, R62, R472). -/
def degradedOk (s : State) : Bool := s.dev.grade = 1 || bit s.dev.grants 5

/-- The table set in ACTIVE covers the shape: every step of every program has a variant for each cluster in service. -/
def setCovers (s : State) (img : Bytes) : Bool :=
  (List.range (tblPrograms img)).all fun i =>
    let r := tblDirRec img i
    (List.range (dirSteps r)).all fun j => (clustersIn s).all fun m => (tblVariant img (dirProgram r) j (shapeKey s m)).isSome

/-- Check the shape (R62): with an active set that covers a permitted shape, the shape is no cause of restricted mode. -/
def shapeCheck (s : State) : State :=
  if 2 ≤ s.core.stacksGone.length || (s.core.stacksGone.length = 1 && !degradedOk s) then restrictEnter 1 s
  else
    match activeSlot s with
    | none => s
    | some n => if setCovers s (tblSlot s n).image then restrictLeave 1 s else restrictEnter 1 s

/-- A change of shape: the stagers restart, and the shape is checked (R62, R174). -/
def shapeChanged (s : State) : State := shapeCheck (modCore (fun c => { c with clusters := tabMap c.clusters fun _ => stagerRestart }) s)

end Sys2Proof.Machine
end

