-- ==== Sys2Proof/Machine/Trust.lean ====
section
/-! DEFINITION. Signed objects, the configuration record, licences, firmware update and attestation (R462 to R482). -/

namespace Sys2Proof.Machine

/-! ## Signatures (R474) -/

/-- The parts of the trailer behind an object of `n` bytes. -/
def sigLen (img : Bytes) (n : Nat) : Nat := leAt img n 4
def sigKey (img : Bytes) (n : Nat) : Bytes := slice img (n + 4) 60
def sigBytes (img : Bytes) (n : Nat) : Bytes := slice img (n + 64) (sigLen img n)

/-- Bytes of an object with its trailer. -/
def signedLen (img : Bytes) (n : Nat) : Nat := n + 64 + sigLen img n

/-- An object of `n` bytes is followed by a trailer of at most 64 KiB whose signature, by a key that satisfies `keyOk`, covers it. -/
def signedBy (keyOk : Bytes → Bool) (img : Bytes) (n : Nat) : Bool :=
  decide (n + 64 ≤ img.length) && decide (signedLen img n ≤ img.length) && decide (64 + sigLen img n ≤ 65536) &&
    keyOk (sigKey img n) && Config.hssVerify (sigKey img n) (img.take n) (sigBytes img n)

/-- Signed with the firmware key. -/
def firmwareSigned (img : Bytes) (n : Nat) : Bool := signedBy (fun k => sha256 k = Config.firmwareKeyHash) img n

/-- Signed with an operator key that an installed licence names. -/
def operatorSigned (s : State) (img : Bytes) (n : Nat) : Bool := signedBy (fun k => s.dev.contentKeys.contains (sha256 k)) img n

/-- A package is bound to an identity digest (R471, R472). -/
def boundHere (s : State) (d : Bytes) : Bool := s.dev.idValid && d = identityDigest s

/-! ## The configuration record (R465 to R468) -/

/-- The factory defaults, with SEQUENCE 0 and the check word computed. -/
def cfgDefaults : Bytes :=
  let b := toLe 4 0x47464E43 ++ toLe 2 1 ++ zeros 10 ++ zeros 2 ++ toLe 2 0xFFF ++ zeros 4 ++ toLe 1 0xFF ++ toLe 1 0xFF ++ toLe 2 0xFF ++
    toLe 2 0xFF ++ zeros 2 ++ toLe 2 384 ++ toLe 2 384 ++ toLe 4 0xE7 ++ List.replicate 33 255 ++ zeros 3 ++ toLe 2 60 ++ toLe 2 24 ++
    zeros 4012
  b ++ toLe 4 (crc32c b)

/-- The kind of resource that a feature uses: 0 GPIO, 1 timer, 2 UART; its default resource; its precedence (R469). -/
def featureUse (f : Nat) : Nat × Nat × Nat :=
  match f with
  | 0 => (0, 0, 1)
  | 1 => (0, 1, 1)
  | 2 => (0, 2, 1)
  | 3 => (0, 3, 1)
  | 4 => (0, 2, 2)
  | 5 => (1, 0, 1)
  | 6 => (1, 1, 1)
  | 7 => (2, 0, 1)
  | _ => (2, 0, 2)

/-- An owner code names no feature, leaves the claim open, or names a feature of the resource's kind. -/
def ownerOk (kind v : Nat) : Bool := v = 0 || v = 0xFF || (decide (v ≤ 9) && (featureUse (v - 1)).1 = kind)

/-- A field of the record: its offset, its bytes, and the values within its range. -/
structure CfgField where
  off : Nat
  len : Nat
  good : Nat → Bool

/-- The fields of R465 that R467 governs. -/
def cfgFields : List CfgField :=
  [⟨6, 2, fun v => v = 0⟩, ⟨16, 1, fun v => decide (v < 4)⟩, ⟨17, 1, fun v => v = 0⟩, ⟨18, 2, fun v => decide (v < 4096)⟩,
   ⟨30, 2, fun v => v = 0⟩, ⟨32, 2, fun v => decide (v ≤ 512)⟩, ⟨34, 2, fun v => decide (v ≤ 512)⟩, ⟨36, 4, fun v => decide (v < 512)⟩] ++
  ((List.range 16).map fun n => ⟨40 + n, 1, ownerOk 0⟩) ++ ((List.range 16).map fun n => ⟨56 + n, 1, ownerOk 1⟩) ++
  [⟨72, 1, ownerOk 2⟩, ⟨73, 3, fun v => v = 0⟩, ⟨76, 2, fun v => decide (1 ≤ v) && decide (v ≤ 3600)⟩,
   ⟨78, 2, fun v => decide (1 ≤ v) && decide (v ≤ 720)⟩, ⟨96, 1, fun v => decide (v ≤ 128)⟩, ⟨97, 3, fun v => v = 0⟩] ++
  ((List.range 4).map fun n => ⟨118 + 20 * n, 2, fun v => decide (v < 2)⟩) ++ [⟨180, 3912, fun v => v = 0⟩]

/-- The fields of a record that hold a value outside their range. -/
def cfgBad (b : Bytes) : List CfgField := cfgFields.filter fun f => !f.good (leAt b f.off f.len)

/-- A record with the factory default in place of each such field (R467). -/
def cfgApplied (b : Bytes) : Bytes := (cfgBad b).foldl (fun r f => placeAt r f.off (slice cfgDefaults f.off f.len)) b

/-- An area size lies within its range of R161, or names the default. -/
def sizeOk (max v : Nat) : Bool := decide (v ≤ max) || v = 0xFF


/-- A submitted record keeps R465, its SEQUENCE and CHECK left aside (log 68). -/
def cfgWriteOk (b : Bytes) : Bool :=
  b.length = 4096 && leAt b 0 4 = 0x47464E43 && leAt b 4 2 = 1 && (cfgBad b).isEmpty && sizeOk 40 (leAt b 24 1) && sizeOk 40 (leAt b 25 1) &&
    sizeOk 256 (leAt b 26 2) && sizeOk 256 (leAt b 28 2) &&
    (List.range 4).all fun n => leAt b (118 + 20 * n) 2 = 0 || collectorValid b n

def cfgSeq (b : Bytes) : Nat := leAt b 8 8

/-- The check word of a copy holds. -/
def cfgCheck (b : Bytes) : Bool := b.length = 4096 && leAt b 4092 4 = crc32c (b.take 4092)

/-- A copy is valid (R466). -/
def cfgValid (b : Bytes) : Bool :=
  leAt b 0 4 = 0x47464E43 && leAt b 4 2 = 1 && cfgSeq b ≠ 0 && cfgSeq b ≠ 2 ^ 64 - 1 && cfgCheck b

/-- The copy that step 5 would use: 1 A, 2 B, 0 neither (R466). -/
def cfgPick (f : FlashSt) : Nat :=
  if cfgValid f.cfgA && cfgValid f.cfgB then (if cfgSeq f.cfgA < cfgSeq f.cfgB then 2 else 1)
  else if cfgValid f.cfgA then 1 else if cfgValid f.cfgB then 2 else 0

/-- The highest valid SEQUENCE in flash, 0 when none is valid. -/
def cfgTop (f : FlashSt) : Nat :=
  max (if cfgValid f.cfgA then cfgSeq f.cfgA else 0) (if cfgValid f.cfgB then cfgSeq f.cfgB else 0)

/-- Bytes of a flash sector, erased where nothing has been programmed. -/
def sector (b : Bytes) : Bytes := b ++ List.replicate (4096 - b.length) 255

/-- The record that CFG.READ returns (R466). -/
def cfgCopy (s : State) (n : Nat) : Bytes :=
  if n = 0 then s.dev.cfgRaw else if n = 1 then sector s.flash.cfgA else sector s.flash.cfgB

def rowCfgRead : OpRow := ⟨0x08, true, true, true, 0, false⟩
def cfgReadFx (p : Pkt) (s : State) : State :=
  receive rowCfgRead p (orFormat (paramsZero p true false false false && decide (p.p0 < 3)) 0x08 p fun t =>
    respond 0x08 p (cfgCopy t p.p0) (b2n (cfgCheck (cfgCopy t p.p0))) t) s

def execCfgRead (p : Pkt) (s : State) : Host.Outcome State Fault Refusal := .next (cfgReadFx p s)

/-- A command takes the flash until its final reply (R464). -/
def flashTake (j : FlashJob) (p : Pkt) (s : State) : State := modFlash (fun f => { f with holder := some j, holderPkt := some p }) s

/-- The flash is free again. -/
def flashFree (s : State) : State := modFlash (fun f => { f with holder := none, holderPkt := none }) s

/-- The record that a CFG.WRITE programs: SEQUENCE one above the highest valid one, and CHECK over the final contents. -/
def cfgFinal (f : FlashSt) (b : Bytes) : Bytes :=
  let c := b.take 8 ++ toLe 8 (cfgTop f + 1) ++ slice b 16 4076
  c ++ toLe 4 (crc32c c)

/-- The write begins with the erasure of the copy that would not be picked (R468). -/
def cfgWriteAct (p : Pkt) (s : State) : State :=
  if s.flash.holder.isSome then fail 0x09 p stBusy s
  else if cfgTop s.flash + 1 = 2 ^ 64 - 1 then fail 0x09 p stBusy s
  else
    let toB := cfgPick s.flash = 1
    let rec' := cfgFinal s.flash p.payload
    modFlash (fun f => if toB then { f with cfgB := [] } else { f with cfgA := [] }) (flashTake (.cfg toB rec' false) p s)

def rowCfgWrite : OpRow := ⟨0x09, true, true, true, 4096, false⟩
def cfgWriteFx (p : Pkt) (s : State) : State :=
  receive rowCfgWrite p (orFormat (paramsZero p false false false false && cfgWriteOk p.payload) 0x09 p (cfgWriteAct p)) s

def execCfgWrite (p : Pkt) (s : State) : Host.Outcome State Fault Refusal := .next (cfgWriteFx p s)

/-! ## Licences (R472, R473) -/

def licId (b : Bytes) : Nat := leAt b 8 4
def licGrants (b : Bytes) : Nat := leAt b 28 4
def licMin (b : Bytes) : Nat := leAt b 32 1
def licMax (b : Bytes) : Nat := leAt b 33 1

/-- A licence keeps the layout of R472. -/
def licLayout (b : Bytes) : Bool :=
  decide (176 ≤ b.length) && leAt b 0 4 = 0x43494C50 && leAt b 4 2 = 1 && leAt b 6 2 = 0 && licId b ≠ 0 && decide (licGrants b < 64) &&
    decide (licMax b ≤ 8) && decide (licMin b ≤ licMax b) && leAt b 34 14 = 0

/-- A licence is valid on this package. -/
def licValid (s : State) (b : Bytes) : Bool := licLayout b && firmwareSigned b 176 && boundHere s (slice b 12 16)

/-- The content keys that a licence names. -/
def licKeys (b : Bytes) : List Bytes := ((List.range 4).map fun k => slice b (48 + 32 * k) 32).filter fun k => leNat k ≠ 0

/-- The slot that a licence goes to: that of its LICENCE_ID, or the lowest free one. -/
def licSlot (f : FlashSt) (id : Nat) : Option Nat :=
  ((List.range 4).find? fun n => !(f.lic.getD n []).isEmpty && licId (f.lic.getD n []) = id).or
    ((List.range 4).find? fun n => (f.lic.getD n []).isEmpty)

def rowLic : OpRow := ⟨0x0A, true, true, true, 16384, false⟩
def licAct (p : Pkt) (s : State) : State :=
  if s.flash.holder.isSome then fail 0x0A p stBusy s
  else if !licLayout p.payload then fail 0x0A p stFormat s
  else if !licValid s p.payload then fail 0x0A p stKey s
  else match licSlot s.flash (licId p.payload) with
    | none => fail 0x0A p stBusy s
    | some n => flashTake (.lic n p.payload) p s
def licInstallFx (p : Pkt) (s : State) : State := receive rowLic p (orFormat (paramsZero p false false false false) 0x0A p (licAct p)) s

def execLicInstall (p : Pkt) (s : State) : Host.Outcome State Fault Refusal := .next (licInstallFx p s)

/-! ## Firmware (R479 to R481) -/

/-- The flash image of a component in slot A (0) or B (1). -/
def fwImage (f : FlashSt) (slot c : Nat) : Bytes := f.fw.getD (3 * slot + c) []
def fwPut (slot c : Nat) (b : Bytes) (f : FlashSt) : FlashSt := { f with fw := listSet f.fw (3 * slot + c) b }

/-- The slot that the boot-control record names for a component, and the other one. -/
def bootSlotOf (f : FlashSt) (c : Nat) : Nat := bits f.bootSlot c c
def otherSlot (f : FlashSt) (c : Nat) : Nat := 1 - bootSlotOf f c

/-- A component's image carries a good signature. -/
def fwSigned (b : Bytes) : Bool := firmwareSigned b (Config.fwLength b)

/-- Its security version reaches the component's counter, and it lists the stepping (R463, R481). -/
def fwFits (f : FlashSt) (c : Nat) (b : Bytes) : Bool := decide (f.counters.getD (2 + c) 0 ≤ Config.fwSecurity b) && Config.fwStepping b

/-- The pieces laid one over the other, later ones on top. -/
def assemble (l : List (Nat × Bytes)) : Bytes := l.foldl (fun b x => placeAt b x.1 x.2) []

/-- Whether pieces cover every byte below `n`. -/
def covers (l : List (Nat × Bytes)) (n : Nat) : Bool := rangesCover (l.map fun x => (x.1, x.2.length)) n

def rowStage : OpRow := ⟨0x0B, true, true, true, 2 ^ 24, true⟩

/-- A packet of an FW.STAGE message places its bytes; the one that completes the message is answered ST_PENDING (R316, R480). -/
def stagePlace (c : Nat) (placed : List (Nat × Bytes)) (len : Option Nat) (first p : Pkt) (s : State) : State :=
  let l := placed ++ [(p.offset, p.payload)]
  let n := if p.last then some (p.offset + p.payload.length) else len
  match n with
  | some k =>
    if covers l k then pend 0x0B p (flashTake (.stage c (l.map id) n true) p s) else ok 0x0B p 0 (flashTake (.stage c l n false) first s)
  | none => ok 0x0B p 0 (flashTake (.stage c l n false) first s)

/-- The first packet of a message takes the flash, and the component loses its staged image and its pending mark. -/
def stageAct (p : Pkt) (s : State) : State :=
  if !(paramsZero p true false false false) || decide (3 ≤ p.p0) then failMsg rowStage p stFormat s
  else
    match s.flash.holder, s.flash.holderPkt with
    | some (.stage c l n false), some q =>
      if msgKey 0x0B q = msgKey 0x0B p && c = p.p0 then stagePlace c l n q p s else failMsg rowStage p stBusy s
    | some _, _ => failMsg rowStage p stBusy s
    | none, _ =>
      let c := p.p0
      stagePlace c [] none p p (modFlash (fun f =>
        { fwPut (otherSlot f c) c [] f with staged := setBits f.staged c c 0, pending := setBits f.pending c c 0 }) s)

/-- The message that holds the flash has failed a check of R312, and lets go of it. -/
def stageDrop (p : Pkt) (s0 s : State) : State :=
  match s0.flash.holder, s0.flash.holderPkt with
  | some (.stage _ _ _ false), some q =>
    if msgKey 0x0B q = msgKey 0x0B p && ((firstFail s0 rowStage p).isSome || !(paramsZero p true false false false) || decide (3 ≤ p.p0)) &&
        alive s0 && !s0.err.restarting then flashFree s else s
  | _, _ => s

/-- In ROM recovery only component 0 is taken, over I3C (R480). -/
def recoveryTakes (s : State) (p : Pkt) : Bool := s.dev.recovery && p.path = .i3c && p.p0 = 0 && p.crcOk && p.flagsRsvd = 0 && p.rsvd = 0

def fwStageFx (p : Pkt) (s : State) : State :=
  if recoveryTakes s p then stageAct p (atTick p.now s) else stageDrop p s (receive rowStage p (stageAct p) s)

def execFwStage (p : Pkt) (s : State) : Host.Outcome State Fault Refusal := .next (fwStageFx p s)

def rowCommit : OpRow := ⟨0x0C, true, true, true, 0, false⟩

/-- Components that a FW.COMMIT marks. -/
def commitComps (s : State) (c : Nat) : List Nat := (bitsOf 3 s.flash.staged).filter fun k => c = 15 || k = c

def commitAct (p : Pkt) (s : State) : State :=
  let l := commitComps s p.p0
  if s.flash.holder.isSome then fail 0x0C p stBusy s
  else if l.isEmpty then fail 0x0C p stBusy s
  else if l.all fun c => fwSigned (fwImage s.flash (otherSlot s.flash c) c) then flashTake (.commit l) p s
  else fail 0x0C p stKey s
def commitOk (p : Pkt) : Bool := paramsZero p true false false false && (decide (p.p0 < 3) || p.p0 = 15)
def fwCommitFx (p : Pkt) (s : State) : State :=
  if recoveryTakes s p then orFormat (commitOk p) 0x0C p (commitAct p) (atTick p.now s)
  else receive rowCommit p (orFormat (commitOk p) 0x0C p (commitAct p)) s

def execFwCommit (p : Pkt) (s : State) : Host.Outcome State Fault Refusal := .next (fwCommitFx p s)

/-! ## The end of a flash write (R464, R468, R473, R480) -/

/-- A CFG.WRITE is verified, is repeated once, or fails. -/
def cfgDone (toB : Bool) (b : Bytes) (again verified : Bool) (p : Pkt) (s : State) : State :=
  if verified then ok 0x09 p 0 (flashFree (modFlash (fun f => if toB then { f with cfgB := b } else { f with cfgA := b }) s))
  else if again then fail 0x09 p stInternal (flashFree s)
  else flashTake (.cfg toB b true) p s

/-- A licence stands in its slot, effective at the next power-up. -/
def licDone (n : Nat) (b : Bytes) (verified : Bool) (p : Pkt) (s : State) : State :=
  if verified then
    ok 0x0A p 0 (flashFree (modDev (fun d => { d with licPending := if d.licPending.contains n then d.licPending else d.licPending ++ [n] })
      (modFlash (fun f => { f with lic := listSet f.lic n b }) s)))
  else fail 0x0A p stInternal (flashFree s)

/-- A staged image is verified: its signature as read back, its security version and its stepping. -/
def stageDone (c : Nat) (b : Bytes) (verified : Bool) (p : Pkt) (s : State) : State :=
  let s1 := flashFree (modFlash (fun f => fwPut (otherSlot f c) c b f) s)
  if !verified || !fwSigned b then fail 0x0B p stKey s1
  else if !fwFits s.flash c b then fail 0x0B p stVersion s1
  else ok 0x0B p 0 (modFlash (fun f => { f with staged := setBits f.staged c c 1 }) s1)

/-- The boot-control record names the components pending. -/
def commitDone (l : List Nat) (verified : Bool) (p : Pkt) (s : State) : State :=
  if verified then
    ok 0x0C p 0 (flashFree (modFlash (fun f => { f with pending := l.foldl (fun v c => setBits v c c 1) f.pending }) s))
  else fail 0x0C p stInternal (flashFree s)

/-- The holder's write ends. -/
def flashDone (verified : Bool) (s : State) : State :=
  match s.flash.holder, s.flash.holderPkt with
  | some (.cfg toB b again), some p => cfgDone toB b again verified p s
  | some (.lic n b), some p => licDone n b verified p s
  | some (.stage c l _ true), some p => stageDone c (assemble l) verified p s
  | some (.commit l), some p => commitDone l verified p s
  | _, _ => s

def flashWriteCompleteFx (now : Nat) (verified : Bool) (s0 : State) : State :=
  let s := atTick now s0
  if alive s || s.dev.recovery then flashDone verified s else s
def execFlashWriteComplete (now : Nat) (verified : Bool) (s : State) : Host.Outcome State Fault Refusal :=
  .next (flashWriteCompleteFx now verified s)

/-! ## Attestation (R476 to R478) -/

/-- A final failing status with a reason in RESULT. -/
def failReason (opcode : Nat) (p : Pkt) (status reason : Nat) (s : State) : State :=
  let x := takeFree 16 s
  answer opcode p p.mid status x.1 reason true x.2

/-- Signatures released within the second before `tick`. -/
def sigRecent (d : DevSt) (tick : Nat) : List Nat := d.sigTicks.filter fun t => decide (tick < t + 100000000)

/-- The bytes of a licence and its trailer. -/
def licWhole (b : Bytes) : Bytes := b.take (signedLen b 176)

/-- Bytes 0 to 339 of the report, signed with index `q`. -/
def attestBody (s : State) (q : Nat) (nonce : Bytes) : Bytes :=
  let table := match activeSlot s with | some n => sha256 (tblSlot s n).image | none => zeros 32
  let hash := fun c => sha256 (s.dev.fwRunning.getD c [])
  toLe 4 0x54535441 ++ toLe 2 1 ++ zeros 2 ++ nonce ++ toLe 2 s.dev.deviceId ++ toLe 1 s.dev.personality ++ toLe 1 s.dev.grade ++
    toLe 4 s.dev.fwGen ++ toLe 4 q ++ toLe 4 (s.flash.counters.getD 1 0) ++ toLe 8 s.tick ++ hash 0 ++ hash 1 ++ hash 2 ++
    sha256 s.dev.cfgRaw ++ sha256 (s.dev.licValid.flatMap fun n => licWhole (s.flash.lic.getD n [])) ++ table ++ identityDigest s ++
    toLe 4 (b2n (restricted s) + 2 * b2n s.dev.cfgDefaulted + 4 * b2n s.dev.fieldDefaulted + 8 * b2n (s.dev.fellback ≠ 0)) ++
    toLe 4 5396 ++ (s.dev.idKey ++ zeros 60).take 60

/-- The report with its signature. -/
def attestReport (s : State) (q : Nat) (nonce : Bytes) : Bytes :=
  let b := attestBody s q nonce
  b ++ (Config.identitySign q b ++ zeros 5396).take 5396

/-- Sign with the next index and answer: the counter moves on before the signature is released (R476). -/
def attestSign (p : Pkt) (s : State) : State :=
  let q := s.flash.counters.getD 0 0
  let s1 := modFlash (fun f => { f with counters := listSet f.counters 0 (q + 1) }) s
  let s2 := bump SEC_SIG_CNT 1 (modDev (fun d => { d with sigTicks := s.tick :: sigRecent d s.tick }) s1)
  respond 0x0D p (attestReport s2 q (p.payload.take 32)) 0 s2

/-- Leave the rest of a bottom tree, and start to generate the next one. -/
def attestTree (p : Pkt) (t : Nat) (s : State) : State :=
  let q := (t + 1) * 2 ^ 15
  let s1 := modFlash (fun f => { f with counters := listSet f.counters 0 q }) (regPut SEC_SIG_ABANDONED (min (regGet s SEC_SIG_ABANDONED + 1) (2 ^ 32 - 1)) s)
  if 2 ^ 30 ≤ q then failReason 0x0D p stBusy 3 s1
  else modDev (fun d => { d with keygen := true, attest := some p }) s1

def attestAct (p : Pkt) (s : State) : State :=
  let q := s.flash.counters.getD 0 0
  if !s.dev.idValid then failReason 0x0D p stBusy 4 s
  else if 2 ^ 30 ≤ q then failReason 0x0D p stBusy 3 s
  else if s.dev.keygen then failReason 0x0D p stBusy 2 s
  else if 100 ≤ (sigRecent s.dev s.tick).length then failReason 0x0D p stBusy 1 (bump SEC_RATE_REFUSED 1 s)
  else if s.flash.idTree = some (q / 2 ^ 15) then attestSign p s
  else attestTree p (q / 2 ^ 15) s

def rowAttest : OpRow := ⟨0x0D, true, true, true, 32, false⟩
def secAttestFx (p : Pkt) (s : State) : State :=
  receive rowAttest p (orFormat (paramsZero p false false false false && p.payload.length = 32) 0x0D p (attestAct p)) s

def execSecAttest (p : Pkt) (s : State) : Host.Outcome State Fault Refusal := .next (secAttestFx p s)

/-- The bottom tree stands and the state record is written; the signature that waited for it follows (R476). -/
def bottomTreeGeneratedFx (now : Nat) (s0 : State) : State :=
  let s := atTick now s0
  if !alive s || !s.dev.keygen then s
  else
    let t := s.flash.counters.getD 0 0 / 2 ^ 15
    let s1 := modDev (fun d => { d with keygen := false, attest := none }) (modFlash (fun f => { f with idTree := some t }) s)
    match s.dev.attest with
    | some p => attestSign p s1
    | none => s1
def execBottomTreeGenerated (now : Nat) (s : State) : Host.Outcome State Fault Refusal := .next (bottomTreeGeneratedFx now s)

/-! ## Features with a timer (R469) -/

/-- A feature runs. -/
def featureOn (s : State) (f : Nat) : Bool := bit s.dev.featuresOn f

def telemetryTickFx (now : Nat) (s0 : State) : State :=
  let s := atTick now s0
  if !alive s || !featureOn s 5 || decide (s.tick < s.dev.telemetryDue) then s
  else
    (collectors s).foldl (fun t n => emit (.telemetry n) t)
      (modDev (fun d => { d with telemetryDue := d.telemetryDue + 100000000 * leAt d.cfg 76 2 }) s)
def execTelemetryTick (now : Nat) (s : State) : Host.Outcome State Fault Refusal := .next (telemetryTickFx now s)

/-- The scrub reads and verifies; no rule gives a result of it any effect. -/
def flashScrubTickFx (now : Nat) (s0 : State) : State :=
  let s := atTick now s0
  if !alive s || !featureOn s 6 || decide (s.tick < s.dev.scrubDue) then s
  else modDev (fun d => { d with scrubDue := d.scrubDue + 360000000000 * leAt d.cfg 78 2 }) s
def execFlashScrubTick (now : Nat) (s : State) : Host.Outcome State Fault Refusal := .next (flashScrubTickFx now s)

end Sys2Proof.Machine
end

