-- ==== Sys2Proof/Machine/Stakes.lean ====
section
/-! DEFINITION. Image loads (R311) and stake images: their checks, their placement, their copies, and the damage and repair
of loaded objects (R164, R165, R179, R197, R525 to R527). -/

namespace Sys2Proof.Machine

/-! ## Image loads (R311) -/

def loadOf (s : State) (n : LoadName) : Option ImgLoad := s.tier.loads.find? fun l => l.name = n
def loadDel (n : LoadName) (s : State) : State := modTier (fun t => { t with loads := t.loads.filter fun l => l.name ≠ n }) s
def loadPut (l : ImgLoad) (s : State) : State :=
  modTier (fun t => { t with loads := l :: t.loads.filter fun k => k.name ≠ l.name }) s

/-- A load ends: what it placed is discarded and its extents are free. -/
def loadEnd (n : LoadName) (s : State) : State :=
  match loadOf s n with
  | none => s
  | some l => extFree l.extents (loadDel n s)

/-- What a load has placed, with offsets in the image. -/
def loadPieces (l : ImgLoad) : List (Nat × Bytes) := l.segs.map fun x => (x.off, x.bytes)

/-- The bytes that the packets of a message placed are discarded with it. -/
def segDrop (k : MsgKey) (s : State) : State :=
  modTier (fun t => { t with loads := t.loads.map fun l => { l with segs := l.segs.filter fun x => x.key ≠ k } }) s

/-- Image offset of a packet's payload. -/
def segAt (p : Pkt) : Nat := 2 ^ 24 * p.p3 + p.offset

/-- Place a packet's bytes. -/
def loadPlace (o : Nat) (p : Pkt) (l : ImgLoad) : ImgLoad := { l with segs := l.segs ++ [⟨msgKey o p, segAt p, p.payload⟩] }

/-- The image with its trailer has been placed whole: `n` is the length that its header gives. -/
def loadWhole (l : ImgLoad) (n : Nat) : Bool :=
  let b := loadPieces l
  covers b (n + 64) && covers b (signedLen (assemble b) n)

/-- Receive a packet of a load: one that a check of R312 turns away takes with it what its message had placed. -/
def loadReceive (r : OpRow) (p : Pkt) (act : State → State) (s : State) : State :=
  let gone := alive s && !s.err.restarting && (firstFail (atTick p.now s) r p).isSome
  receive r p act (if gone then segDrop (msgKey r.code p) s else s)

/-- A packet of a load fails by the opcode's own rule: its message is discarded with what it placed. -/
def loadFail (r : OpRow) (p : Pkt) (st : Nat) (s : State) : State := failMsg r p st (segDrop (msgKey r.code p) s)

/-- Whether `n` bytes at `off` are zero. -/
def zeroAt (b : Bytes) (off n : Nat) : Bool := leAt b off n = 0

/-! ## Stake images: the checks (R525, R526) -/

/-- The largest image without its trailer. -/
def stkMax : Nat := 2 ^ 40

/-- MAGIC, the length and the name (R311). -/
def stkHead (h : Bytes) (id : Nat) : Bool := leAt h 0 4 = 0x4B415453 && decide (stkLen h ≤ stkMax) && leAt h 8 4 = id

/-- The KV geometry (R239). -/
def stkGeometry (h : Bytes) : Bool :=
  let d := stkDim h
  let p := 131072 / (2 * stkHeads h * d)
  decide (1 ≤ stkLayers h) && decide (stkLayers h ≤ 256) && decide (1 ≤ stkHeads h) && decide (stkHeads h ≤ 128) &&
    d % 32 = 0 && decide (32 ≤ d) && decide (d ≤ 256) && 131072 % (2 * stkHeads h * d) = 0 && [16, 32, 64, 128, 256, 512, 1024].contains p

/-- A projection's widths: both 0, or multiples of 32. -/
def stkProjOk (h : Bytes) (p : Nat) : Bool :=
  let ok := fun x => x % 32 = 0 && decide (32 ≤ x) && decide (x ≤ 1048576)
  (stkProjN h p = 0 && stkProjM h p = 0) || (ok (stkProjN h p) && ok (stkProjM h p))

/-- The rest of the header. -/
def stkHeaderOk (h : Bytes) : Bool :=
  leAt h 4 2 = 1 && zeroAt h 6 2 && zeroAt h 38 2 && zeroAt h 96 32 && decide (1 ≤ stkTensors h) && decide (stkTensors h ≤ 61440) &&
    stkDirOff h % 64 = 0 && decide (128 ≤ stkDirOff h) && decide (stkDirOff h + 64 * stkTensors h ≤ stkLen h) && stkGeometry h &&
    (List.range 7).all (stkProjOk h)

/-- Bytes of an entry's metadata array. -/
def teMetaLen (e : Bytes) : Nat := teBlocks e * recBytes (teFormat e) (teSide e)

/-- A tolerance: 0, or positive and finite on a narrow format (R96). -/
def teTolOk (e : Bytes) : Bool :=
  teTol e = 0 || ([5, 6, 7, 9, 10].contains (teFormat e) && decide (teTol e < 0x7C00))

/-- The container of a coded entry (R184, R191, R525). -/
def teContainerOk (img e : Bytes) : Bool :=
  let c := slice img (teData e) (teStored e)
  !teCoded e || (codable (teFormat e) && ctValid c && ctFormat c = teFormat e && ctSymbols c = 32 * teBlocks e)

/-- Lengths, formats and side-band of an entry. -/
def teFields (e : Bytes) : Bool :=
  let f := teFormat e
  fmtValid f && !bit (leAt e 40 1) 7 && zeroAt e 44 20 && teData e % 16 = 0 && decide (1 ≤ teRaw e) && decide (teRaw e ≤ 2 ^ 36) &&
    decide (teHome e ≤ 5) && (teCoded e || teStored e = teRaw e) &&
    (if fmtBlock f then
      teRaw e = teBlocks e * blockBytes f && teSide e ≠ 3 && (teSide e = 0 || [7, 9, 10].contains f)
     else teMeta e = 0 && teBlocks e = 0 && teSide e = 0) && teTolOk e

/-- A directory entry keeps R525 and names no absent die stack (R164, R526). -/
def teOk (s : State) (img e : Bytes) : Bool :=
  teFields e && decide (teData e + teStored e ≤ stkLen img) && decide (teMeta e + teMetaLen e ≤ stkLen img) && teContainerOk img e &&
    (decide (4 ≤ teHome e) || !s.core.stacksGone.contains (teHome e))

/-- The directory entries of an image. -/
def stkDir (img : Bytes) : List Bytes := (List.range (stkTensors img)).map fun i => slice img (stkDirOff img + 64 * i) 64

/-! ## Placement (R527) -/

/-- The STAKE areas: of a stack, and of an LPDDR5X set. -/
def stakeArea (s : State) (stack : Nat) : Nat × Nat := (hbmStakeBase stack, hbmWithyBase s stack)
def stakeLpx (s : State) (set : Nat) : Nat × Nat := (lpxBase set, lpxWithyBase s set)

/-- Die stacks that are present. -/
def stacksHere (s : State) : List Nat := (List.range 4).filter fun t => !s.core.stacksGone.contains t

/-- Take one extent from each area of a list, in order. -/
def takeEach : List (Nat × Nat) → State → Option (List Nat × State)
  | [], s => some ([], s)
  | a :: l, s =>
    match extTake [a] 1 s with
    | none => none
    | some (e, s1) => (takeEach l s1).map fun r => (e ++ r.1, r.2)

/-- The areas of an entry's extents: extent `j` lies in stack 3s + (j mod 3), or in its LPDDR5X set. -/
def entryAreas (s : State) (e : Bytes) : List (Nat × Nat) :=
  (List.range (divUp (teStored e) extBytes + divUp (teMetaLen e) extBytes)).map fun j =>
    if teHome e < 4 then stakeArea s (3 * teHome e + j % 3) else stakeLpx s (teHome e - 4)

/-- Place an entry's stored bytes and metadata: its extents; none when an area lacks room. -/
def placeEntry (img e : Bytes) (s : State) : Option (List Nat × State) :=
  (takeEach (entryAreas s e) s).map fun r =>
    let k := divUp (teStored e) extBytes
    (r.1, extWrite (r.1.drop k) (slice img (teMeta e) (teMetaLen e)) (extWrite (r.1.take k) (slice img (teData e) (teStored e)) r.2))

/-- Place every entry, numbered from `i`. -/
def placeEntries (img : Bytes) : Nat → List Bytes → State → Option (Tab (List Nat) × State)
  | _, [], s => some ([], s)
  | i, e :: l, s =>
    (placeEntry img e s).bind fun x => (placeEntries img (i + 1) l x.2).map fun r => ((i, x.1) :: r.1, r.2)

/-- Place the header and directory in the STAKE area of stack 3s of every present die stack. -/
def placeDir (img : Bytes) : List Nat → State → Option (List (Nat × Nat) × State)
  | [], s => some ([], s)
  | t :: l, s =>
    (extTake [stakeArea s (3 * t)] (divUp (stkDirOff img + 64 * stkTensors img) extBytes) s).bind fun x =>
      (placeDir img l (extWrite x.1 (img.take (stkDirOff img + 64 * stkTensors img)) x.2)).map fun r => (x.1.map (fun e => (t, e)) ++ r.1, r.2)

/-- Place an image: the stake that the device then holds. -/
def placeStake (img : Bytes) (s : State) : Option (Stake × State) :=
  match placeDir img (stacksHere s) s with
  | none => none
  | some (d, s1) =>
    (placeEntries img 0 (stkDir img) s1).map fun r =>
      ({ header := img.take 128, directory := slice img (stkDirOff img) (64 * stkTensors img), len := stkLen img,
         crc := crc32c (img.take (stkLen img)), dirExt := d, ext := r.1, refs := 0, damaged := [] }, r.2)

/-- Restricted mode for damage ends once every damaged stake image without a copy has been reloaded and the active set's images are
whole (R179, R197, log 73). -/
def damageEnds (s : State) : State :=
  if s.tier.reload.isEmpty && !(s.tier.slots.any fun t => t.state = 3 && !t.damaged.isEmpty) then restrictLeave 5 s else s

/-- Stake image `id` has been loaded: the waits of R65 and of R179 for it end (log 73). -/
def stakeLoaded (id : Nat) (s : State) : State :=
  damageEnds (modTier (fun t => { t with reload := t.reload.filter (· ≠ id) })
    (modCore (fun c => { c with waitStakes := c.waitStakes.filter (· ≠ id) }) s))

/-- A damaged stake image that no copy can repair: serving opcodes answer ST_RESTRICTED until it is reloaded (R179, R197). -/
def stakeLost (id : Nat) (s : State) : State := restrictEnter 5 (modTier (fun t => { t with reload := (t.reload ++ [id]).eraseDups }) s)

/-! ## STK.LOAD and STK.RETIRE (R526, R527) -/

def rowStkLoad : OpRow := ⟨0x14, true, true, false, 2 ^ 24, true⟩

/-- The status of the first check that a completed image fails: 1 the header, 3 the signature, 4 the contents. -/
def stkCheck (s : State) (id : Nat) (img : Bytes) : Nat :=
  if !(stkHead img id) || leAt img 4 2 ≠ 1 || decide (65536 < 64 + sigLen img (stkLen img)) then stFormat
  else if !operatorSigned s img (stkLen img) then stKey
  else if !stkHeaderOk img || !(stkDir img).all (teOk s img) then stFormat
  else stOk

/-- Every part homed in an LPDDR5X set finds that set in service (R169). -/
def stkHomesServe (s : State) (img : Bytes) : Bool := (stkDir img).all fun e => decide (teHome e < 4) || lpxServes s (teHome e - 4)

/-- Place a checked image and answer the load: `failed` frees what the load took, `done` ends it (R527). -/
def stkPlace (p : Pkt) (id : Nat) (img : Bytes) (failed done : State → State) (s : State) : State :=
  if !stkHomesServe s img then fail 0x14 p stNoPage (failed s)
  else
    match placeStake img s with
    | none => fail 0x14 p stBusy (failed s)
    | some (k, s1) =>
      ok 0x14 p 0 (stakeLoaded id (refsNow (done (modTier (fun t => { t with stakes := tabPut t.stakes id k }) s1))))

/-- Keep the received image as the copy of R165; an earlier copy of the stake goes. -/
def copyKeep (id : Nat) (ext : List Nat) (img : Bytes) (s : State) : State :=
  let old := match tabGet s.tier.copies id with | some c => c.ext | none => []
  modTier (fun t => { t with copies := tabPut t.copies id ⟨ext, img, 0⟩ }) (extWrite ext img (extFree old s))

/-- A complete image: its checks, its placement, its copy. -/
def stkComplete (p : Pkt) (id : Nat) (l : ImgLoad) (s0 : State) : State :=
  let img := assemble (loadPieces l)
  let s := pend 0x14 p s0
  let st := stkCheck s id img
  if st ≠ stOk then fail 0x14 p st (loadEnd l.name s)
  else
    stkPlace p id img (loadEnd l.name) (fun t => if bit l.arg 0 then copyKeep id l.extents img (loadDel l.name t) else loadEnd l.name t) s

/-- The receive extents of a load, taken as its header has been placed: the status when they cannot be had. -/
def stkReceive (keep : Bool) (n : Nat) (s : State) : Nat × List Nat × State :=
  if keep then
    (match (if lpxServes s 0 then some 0 else if lpxServes s 1 then some 1 else none) with
     | none => (stNoPage, [], s)
     | some k => match extTake [stakeLpx s k] n s with | some (x, s1) => (stOk, x, s1) | none => (stBusy, [], s))
  else
    match extTake (((List.range 12).filter (hbmServes s)).map (stakeArea s)) n s with
    | some (x, s1) => (stOk, x, s1)
    | none => (stBusy, [], s)

/-- The load after a packet's bytes have been placed: the header check, completion, or ST_OK. -/
def stkAfter (p : Pkt) (l : ImgLoad) (s : State) : State :=
  let b := loadPieces l
  if !l.header && covers b 128 then
    (let h := assemble b
     if !stkHead h p.p0 then failMsg rowStkLoad p stFormat (loadEnd l.name s)
     else
      match stkReceive (bit l.arg 0) (divUp (stkLen h + 65536) extBytes) s with
      | (st, x, s1) =>
        if st ≠ stOk then failMsg rowStkLoad p st (loadEnd l.name s)
        else
          let l1 := { l with header := true, extents := x }
          if loadWhole l1 (stkLen h) then stkComplete p p.p0 l1 (loadPut l1 s1) else ok 0x14 p 0 (loadPut l1 s1))
  else if l.header && loadWhole l (stkLen (assemble b)) then stkComplete p p.p0 l (loadPut l s)
  else ok 0x14 p 0 (loadPut l s)

/-- Read a copy: a read in flight holds a reference on it (R159, R165). -/
def copyRead (id : Nat) (act : State → State) (s : State) : State :=
  let hold := fun (f : Nat → Nat) (t : State) => modTier (fun x => { x with copies := tabMod x.copies id fun c => { c with refs := f c.refs } }) t
  hold (· - 1) (act (hold (· + 1) s))

/-- Place the parts from a held copy, in place of host data (R165). -/
def stkFromCopy (p : Pkt) (s : State) : State :=
  match tabGet s.tier.copies p.p0 with
  | none => fail 0x14 p stFormat s
  | some c =>
    let s1 := pend 0x14 p s
    let st := stkCheck s1 p.p0 c.image
    if st ≠ stOk then fail 0x14 p st s1 else copyRead p.p0 (stkPlace p p.p0 c.image id id) s1

def stkLoadAct (p : Pkt) (s : State) : State :=
  let n := LoadName.stake p.p0
  let l := (loadOf s n).getD ⟨n, p.p1, [], false, [], arrivalComp s p.path⟩
  if !paramsZero p true true false true || decide (4 ≤ p.p1) || p.p0 = 0 || decide (2 ^ 32 ≤ p.p0) then loadFail rowStkLoad p stFormat s
  else if (tabGet s.tier.stakes p.p0).isSome then loadFail rowStkLoad p stBusy s
  else if l.arg ≠ p.p1 then loadFail rowStkLoad p stFormat s
  else if bit p.p1 1 then (if p.payload.isEmpty then stkFromCopy p s else loadFail rowStkLoad p stFormat s)
  else if decide (stkMax + 65536 < segAt p + p.payload.length) then loadFail rowStkLoad p stFormat s
  else stkAfter p (loadPlace 0x14 p l) s

def stkLoadFx (p : Pkt) (s : State) : State := loadReceive rowStkLoad p (stkLoadAct p) s
def execStkLoad (p : Pkt) (s : State) : Host.Outcome State Fault Refusal := .next (stkLoadFx p s)

def rowStkRetire : OpRow := ⟨0x15, true, true, false, 0, false⟩

/-- A held table set names a stake image. -/
def setNames (s : State) (id : Nat) : Bool := s.tier.slots.any fun t => decide (2 ≤ t.state) && t.stakeId = id

/-- STK.RETIRE: the image is gone, and its space is free on the cycle its last reference goes (R159, R527). -/
def stkRetireAct (p : Pkt) (s : State) : State :=
  if (loadOf s (.stake p.p0)).isSome then ok 0x15 p 0 (loadEnd (.stake p.p0) s)
  else
    match tabGet s.tier.stakes p.p0 with
    | none => ok 0x15 p 0 s
    | some k =>
      if setNames s p.p0 then fail 0x15 p stBusy s
      else ok 0x15 p 0 (refsNow (modTier (fun t => { t with stakes := tabDel t.stakes p.p0, dying := t.dying ++ [(p.p0, k)] }) s))

def stkRetireFx (p : Pkt) (s : State) : State := receive rowStkRetire p (orFormat (paramsZero p true false false false) 0x15 p (stkRetireAct p)) s
def execStkRetire (p : Pkt) (s : State) : Host.Outcome State Fault Refusal := .next (stkRetireFx p s)

/-! ## Damage to loaded objects, and its repair (R179, R197) -/

/-- An extent of a stake image is damaged: a copy repairs it at the next boundary, and without one the device stops serving. -/
def stakeDamage (id a : Nat) (s : State) : State :=
  match tabGet s.tier.stakes id with
  | none => s
  | some k =>
    let mark := fun (k : Stake) => { k with damaged := (k.damaged ++ [extentOf a]).eraseDups }
    let s1 := modTier (fun t => { t with stakes := tabPut t.stakes id (mark k) }) s
    if (tabGet s.tier.copies id).isSome then s1 else stakeLost id s1

/-- What one extent of a stake image holds: its area, the range of the image, and the directory entry of which it is extent `j`; none
for the header and directory. -/
structure StakePart where
  area : Nat × Nat
  off : Nat
  len : Nat
  entry : Option (Nat × Nat)
deriving DecidableEq, Repr

/-- The part that extent `a` of a stake image holds (R527). -/
def stakePart (s : State) (k : Stake) (a : Nat) : Option StakePart :=
  let size := fun (total j : Nat) => min extBytes (total - extBytes * j)
  match k.dirExt.find? fun d => d.2 = a with
  | some (t, _) =>
    let j := ((k.dirExt.filter fun d => d.1 = t).map (·.2)).idxOf a
    some ⟨stakeArea s (3 * t), extBytes * j, size (stkDirOff k.header + 64 * stkTensors k.header) j, none⟩
  | none =>
    (k.ext.find? fun x => x.2.contains a).map fun x =>
      let e := stkEntry k x.1
      let j := x.2.idxOf a
      let n := divUp (teStored e) extBytes
      let area := (entryAreas s e).getD j (0, 0)
      if j < n then ⟨area, teData e + extBytes * j, size (teStored e) j, some (x.1, j)⟩
      else ⟨area, teMeta e + extBytes * (j - n), size (teMetaLen e) (j - n), some (x.1, j)⟩

/-- The blocks of a coded entry that touch its extent `j` decode without a mismatch (R197). -/
def extentDecodes (img e : Bytes) (j : Nat) : Bool :=
  let c := slice img (teData e) (teStored e)
  !teCoded e || decide (divUp (teStored e) extBytes ≤ j) || (List.range (ctBlocks c)).all fun b =>
    decide (ctStart c (b + 1) ≤ extBytes * j) || decide (extBytes * (j + 1) ≤ ctStart c b) || (ctBlock c b).2.2.isNone

/-- The copy delivers a range of the image: it stands as loaded and no word of it is poisoned (R158, R165, R179). -/
def copyGood (s : State) (k : Stake) (c : StakeCopy) (off len : Nat) : Bool :=
  crc32c ((extRead s c.ext 0 k.len).1) = k.crc && !((extRead s c.ext off len).2.any fun t => t = 2)

/-- A rewritten extent takes the place of the damaged one, which is freed (R179). -/
def extentRepaired (id a g : Nat) (s : State) : State :=
  let sw := fun n => if n = a then g else n
  extFree [a] (modTier (fun t =>
    { t with stakes := tabMod t.stakes id fun k =>
        { k with dirExt := k.dirExt.map fun d => (d.1, sw d.2), ext := tabMap k.ext fun _ l => l.map sw, damaged := k.damaged.filter (· ≠ a) } }) s)

/-- Rewrite one damaged extent into fresh space from the copy and switch the references; an extent that still mismatches, or that the
copy cannot give, is handled as one without a copy, and one for which there is no space waits (R179, R197). -/
def stakeRepair (id : Nat) (s : State) (a : Nat) : State :=
  match tabGet s.tier.stakes id, tabGet s.tier.copies id with
  | some k, some c =>
    (match stakePart s k a with
     | none => s
     | some x =>
       if !copyGood s k c x.off x.len || !(x.entry.all fun e => extentDecodes c.image (stkEntry k e.1) e.2) then stakeLost id s
       else match extTake [x.area] 1 s with
         | some ([g], s1) => copyRead id (fun t => extentRepaired id a g (memStore g (slice c.image x.off x.len) t)) s1
         | _ => s)
  | _, _ => s

/-- A version is damaged: every request that pinned it fails, and an unpinned one is freed (R179, R286). A version that is
still loading is freed, and its load ends (R286). -/
def withyDamage (key : Nat) (s : State) : State :=
  match withyHeld s key with
  | none => s
  | some v =>
    if v.state = 0 then s
    else
      let hit := s.man.berths.filter fun e => e.2.pinned && withyKey e.2.id.withyId e.2.id.withyVer = key
      let s1 := hit.foldl (fun t e => failSoon e.1 stStateLost t) (modWithy key (fun v => { v with state := 4 }) s)
      if v.pins = 0 then withyFree key s1 else s1

/-- First byte of a slot's copy in the TABLE area of a die stack (R161, R163). -/
def tableDpa (stack slot : Nat) : Nat := hbmBase (3 * stack) + gib * (1 + slot)

/-- The TABLE copy of a die stack is damaged at a DPA: the extent is fetched again from another present stack's copy, and without one
the device stops serving (R179). -/
def tableDamage (slot stack a : Nat) (s : State) : State :=
  let bad := (tblSlot s slot).damaged
  let off := (a - tableDpa stack slot) / extBytes * extBytes
  if (stacksHere s).any fun t => t ≠ stack && !bad.contains t then
    memStore (tableDpa stack slot + off) (slice (tblSlot s slot).image off (min extBytes ((tblSlot s slot).image.length - off))) s
  else restrictEnter 5 (modTier (fun t => { t with slots := listSet t.slots slot { tblSlot s slot with damaged := stack :: bad } }) s)

/-- A placed page of a transfer is lost: its key is to be placed again, and its frame returns to the reservation (R223). -/
def placedLost (b f : Nat) (s : State) : State :=
  reservedBack b f (modMan (fun m => { m with xfers := tabMod m.xfers b fun y => { y with placed := y.placed.filter fun k => k.2 ≠ f } }) s)

/-- A page frame is damaged, by its use: a sealed copy is lost, an arriving one is freed, and an open page, a log page or a page-table
frame takes its manifest's state with it (R179, R255, log 72). -/
def frameDamaged (f : Nat) (s : State) : State :=
  match frameAt s f with
  | none => s
  | some x =>
    if x.state ≠ 4 && x.xfer.isSome then placedLost (x.xfer.getD 0) f s
    else if isSealed x then ownCopyLost f s
    else if x.state = 4 then arrivingLost f s
    else match berthOfRequest s x.requestId with
      | none => s
      | some b => loseSoon b stStateLost s

/-- The object whose extent or frame holds a DPA is damaged (R197). -/
def damageAt (s : State) (a : Nat) : State :=
  match frameNo s a with
  | some f => frameDamaged f s
  | none =>
    match s.tier.stakes.find? fun k => extHolds a (stakeExtents k.2) with
    | some (id, _) => stakeDamage id a s
    | none =>
      match s.tier.wslots.find? fun w => extHolds a w.2.ext with
      | some w => withyDamage w.2.ver s
      | none => match s.tier.withies.find? fun w => extHolds a w.2.libExt with
        | some w => withyDamage w.1 s
        | none => s

/-- The repairs of a step boundary: blocks that mismatched damage their objects, and damaged stake entries are rewritten
from their copies (R179, R197). -/
def repairAll (s0 : State) : State :=
  let s := modTier (fun t => { t with mismatched := [] }) (s0.tier.mismatched.foldl damageAt s0)
  s.tier.stakes.foldl (fun t e => if t.tier.reload.contains e.1 then t else e.2.damaged.foldl (stakeRepair e.1) t) s

/-- With no step running there is no boundary to wait for. -/
def repairNow (s : State) : State := if s.eng.step.isNone then settle (repairAll s) else s

end Sys2Proof.Machine
end

