-- ==== Sys2Proof/Machine/Tables.lean ====
section
/-! DEFINITION. Table sets: the checks of an image, and the loading, activation and retirement of a set (R126 to R134, R150
to R152). -/

namespace Sys2Proof.Machine

/-! ## Entries (R92, R105, R129 to R135) -/

/-- A ROWS field has one of its three forms (R133). -/
def rowsForm (x : Nat) : Bool := (decide (1 ≤ x) && decide (x ≤ 0x1000)) || x = 0x8000 || (decide (0x8100 ≤ x) && decide (x ≤ 0x8108))

/-- The most rows that a ROWS field can resolve to in a program of `bucket` rows (log 74). -/
def rowsMost (bucket x : Nat) : Nat := if x < 0x8000 then x else bucket

/-- A core-memory operand of `n` bytes: bits 31:20 are 0, and it ends within 1 MiB (R105, R132). -/
def cmOk (e : Bytes) (off n : Nat) : Bool := decide (leAt e off 4 + n ≤ 2 ^ 20) && decide (leAt e off 4 < 2 ^ 20)

/-- Elements that a VEC writes: one for each row of a row sum or maximum (R135). -/
def vecOutCount (e : Bytes) : Nat :=
  if vecVop e = 0x0A || vecVop e = 0x0B then (if vecRow e = 0 then 0 else vecCount e / vecRow e) else vecCount e

/-- Bytes that a VEC reads at A and B, and writes at DST; a range that indices choose is not known here. -/
def vecReach (e : Bytes) : Nat × Nat × Nat :=
  let n := vecCount e
  let rows := if vecRow e = 0 then 0 else n / vecRow e
  let v := vecVop e
  let operand :=
    if v = 0x0D || v = 0x0E then 2 * rows
    else if v = 0x10 then vecBytes (vecSrc e) rows
    else if v ≤ 4 || v = 0x0C then vecBytes (vecSrc e) n else 0
  (if v = 0x0D then 0 else vecBytes (vecSrc e) n,
   if fmtBlock (vecSrc e) then max (divUp n 32) operand else operand,
   if v = 0x0E then 0 else vecBytes (vecDst e) (vecOutCount e))

/-- Bytes 8 to 31 of an entry by its opcode (R132, R133, R135), in a program of `bucket` rows. -/
def entryOperands (bucket : Nat) (e : Bytes) : Bool :=
  let z := zeroAt e
  match enOp e with
  | 0 => cmOk e 16 (leAt e 20 4) && decide (1 ≤ leAt e 20 4) && z 24 8
  | 1 => fmtValid (leAt e 16 1) && decide (leAt e 17 1 ≤ 1) && z 18 14
  | 2 =>
    let r := rowsMost bucket (leAt e 16 2)
    let w := leAt e 18 1 % 16
    let a := leAt e 18 1 / 16
    rowsForm (leAt e 16 2) && pairOk w a && decide (leAt e 19 1 ≤ 3) && z 28 4 && cmOk e 12 (256 * r) &&
      (if fmtBlock w then cmOk e 8 (r * (tileBlocks w a * blockBytes a)) && cmOk e 24 (r * tileBlocks w a)
       else cmOk e 8 (16 * r) && cmOk e 24 0)
  | 3 =>
    let x := vecReach e
    decide (vecVop e ≤ 0x10) && fmtValid (vecSrc e) && fmtValid (vecDst e) && cmOk e 8 x.1 && cmOk e 12 x.2.1 && cmOk e 16 x.2.2 &&
      cmOk e 28 (if fmtBlock (vecDst e) then divUp (vecOutCount e) 32 else 0)
  | 4 => rowsForm (leAt e 16 2) && z 18 2 && z 24 8 && cmOk e 8 (4 * leAt e 20 4 * rowsMost bucket (leAt e 16 2)) &&
      cmOk e 12 (4 * rowsMost bucket (leAt e 16 2))
  | 5 => cmOk e 8 (leAt e 12 4) && decide (0xF000 ≤ leAt e 22 2) && decide (leAt e 24 1 ≤ 1) && z 25 7
  | 6 => decide (leAt e 8 1 ≤ 63) && z 9 7 && z 18 14
  | 7 => decide (leAt e 8 1 ≤ 47) && z 9 1 && decide (leAt e 10 2 ≤ 127) && z 12 20
  | 8 => decide (leAt e 8 1 ≤ 2) && decide (leAt e 9 1 ≤ 15) && z 10 22
  | 9 => rowsForm (leAt e 28 2) && cmOk e 16 0 && cmOk e 20 (256 * rowsMost bucket (leAt e 28 2) * (leAt e 26 2 + 1)) && z 30 2
  | 10 => z 8 24
  | _ => false

/-- A fallback code is valid on its opcode (R134). -/
def fallbackOk (op f : Nat) : Bool := f = 0 || (f = 1 && (op ≤ 1 || op = opSentinel)) || ((f = 2 || f = 3) && op = opSentinel)

/-- An entry keeps R129, R131, R132 and R134 in a table of `plan` cycles. -/
def entryOk (bucket plan : Nat) (seven : Bool) (e : Bytes) : Bool :=
  decide (leAt e 0 1 ≤ 10) && decide (leAt e 1 1 < 16) && zeroAt e 3 1 && fallbackOk (enOp e) (enFallback e) &&
    (!([opWait, opSignal, opBarrier, opEnd].contains (enOp e)) || zeroAt e 2 1) && !(seven && bit (leAt e 2 1) 7) &&
    (decide (enDeadline e ≤ plan) || enDeadline e = 0xFFFFFFFF) && entryOperands bucket e

/-! ## MMA chains (R150) -/

/-- Chains of one core: ACC, the place that the next MMA must take in quarters of a block, and the group of 64 blocks. -/
abbrev Chains := List (Nat × Nat × Nat)

/-- Add an MMA to the chains of one core. -/
def chainStep (l : Chains) (e : Bytes) : Option Chains :=
  let acc := leAt e 12 4
  let kb := leAt e 20 4
  let w := leAt e 18 1 % 16
  let half := !fmtBlock w
  let n := if half then 1 else 4 * tileBlocks w (leAt e 18 1 / 16)
  let prev := l.find? fun x => x.1 = acc
  let start := match bit (leAt e 19 1) 1, prev with
    | true, none => if kb % 64 = 0 then some (4 * kb) else none
    | true, some (_, q, _) => if kb % 64 = 0 && q % 4 = 0 then some (4 * kb) else none
    | false, none => none
    | false, some (_, q, g) => if kb = q / 4 && kb / 64 = g && (half || q % 4 = 0) then some q else none
  match start with
  | none => none
  | some q => if q + n ≤ 256 * (kb / 64 + 1) then some ((acc, q + n, kb / 64) :: l.filter fun x => x.1 ≠ acc) else none

/-- The MMAs of a table keep R150 on logical position `i`. -/
def chainsOk (entries : List Bytes) (i : Nat) : Bool :=
  match (entries.filter fun e => enOp e = opMma && bit (leAt e 2 1) i).foldl
      (fun (o : Option Chains) e => o.bind fun l => chainStep l e) (some []) with
  | some l => l.all fun x => x.2.1 % 4 = 0
  | none => false

/-! ## Table-set images (R126 to R130) -/

def tblHead (h : Bytes) (id : Nat) : Bool := leAt h 0 4 = 0x45444954 && decide (tblLen h ≤ 2 ^ 30) && tblSetId h = id

/-- The key of a variant (R128). -/
def keyOk (k : Nat) : Bool :=
  let a := bits k 8 3
  let t := bits k 2 0
  decide (k < 2 ^ 17) && (decide (a < 32) || a = 63) && (decide (t < 4) || t = 7)

/-- The entries of a variant's table. -/
def varList (img v : Bytes) : List Bytes := (List.range (varEntries v)).map (varEntry img v)

/-- A table ends with its only END, and keeps R105, R129 to R134 and R150. -/
def tableOk (img : Bytes) (bucket : Nat) (v : Bytes) : Bool :=
  let l := varList img v
  let isEnd := fun (e : Bytes) => decide (enOp e = opEnd)
  decide (32 * leAt v 12 4 + 32 * varEntries v ≤ tblLen img) && l.all (entryOk bucket (varPlan v) (bit (varKey v) 9)) &&
    (l.getLast?.map isEnd = some true) && !(l.dropLast.any isEnd) && (List.range 8).all (chainsOk l)

/-- A variant record of a program (R126, R130). -/
def variantOk (img r v : Bytes) : Bool :=
  decide (varStep v < dirSteps r) && zeroAt v 1 1 && keyOk (varKey v) && decide (varPlan v ≤ 5400000) &&
    tableOk img (bucketRows (dirBucket r)) v

/-- A program's directory record (R126, R130). -/
def programOk (img r : Bytes) : Bool :=
  decide (dirBucket r ≤ 6) && decide (1 ≤ dirSteps r) && decide (dirSteps r ≤ 16) &&
    decide (dirVarOff r + 16 * dirVariants r ≤ tblLen img) && (dirRecs img r).all (variantOk img r) &&
    decide ((dirRecs img r).map fun v => (varStep v, varKey v)).Nodup

/-- The directory of a set. -/
def tblDir (img : Bytes) : List Bytes := (List.range (tblPrograms img)).map (tblDirRec img)

/-- The contents of a set but for the tensor indices. -/
def tblContents (img : Bytes) : Bool :=
  zeroAt img 18 2 && tblSetId img ≠ 0 && decide (1 ≤ tblPrograms img) && decide (tblPrograms img ≤ 256) &&
    decide (tblDirOff img + 16 * tblPrograms img ≤ tblLen img) && decide ((tblDir img).map dirProgram).Nodup && (tblDir img).all (programOk img)

/-- Tensor indices that an entry names. -/
def entryTensors (e : Bytes) : List Nat :=
  let src := if (enOp e ≤ 1 || enOp e = opSentinel) && !refIsSlot (leAt e 8 8) then [refHandle (leAt e 8 8)] else []
  if enOp e = opSentinel then leAt e 24 2 :: src else src

/-- The activations of a SENTINEL end within 1 MiB: 4 x K bytes a row, where K is the contraction of the reference tile, 64 columns to
the end of its tensor (R105, log 31). A tile in a batch slot has its length in the batch descriptor alone. -/
def sentinelReach (bucket : Nat) (k : Stake) (e : Bytes) : Bool :=
  enOp e ≠ opSentinel || refIsSlot (enRef e) ||
    cmOk e 16 (4 * ((teRaw (stkEntry k (refHandle (enRef e))) - refOff (enRef e)) / 64) * rowsMost bucket (leAt e 28 2))

/-- What the stake image decides of the entries: each names its tensors, and a SENTINEL's activations lie in core memory (R105, R130,
R152). -/
def tensorsOk (img : Bytes) (k : Stake) : Bool :=
  (tblDir img).all fun r => (dirRecs img r).all fun v => (varList img v).all fun e =>
    (entryTensors e).all (fun h => decide (h < stkTensors k.header)) && sentinelReach (bucketRows (dirBucket r)) k e

/-- The status of the first check that a completed image fails: header, format version, signature, contents (R130, R311). -/
def tblCheck (s : State) (id : Nat) (img : Bytes) : Nat :=
  if !(tblHead img id) || decide (65536 < 64 + sigLen img (tblLen img)) then stFormat
  else if leAt img 4 2 ≠ 3 || leAt img 6 2 ≠ 0 then stVersion
  else if !operatorSigned s img (tblLen img) then stKey
  else if !tblContents img then stFormat
  else match tabGet s.tier.stakes (tblStakeId img) with
    | some k => if tensorsOk img k then stOk else stFormat
    | none => stOk

/-! ## Slots (R151, R153) -/

def modTbl (n : Nat) (f : TblSlot → TblSlot) (s : State) : State :=
  modTier (fun t => { t with slots := listSet t.slots n (f (t.slots.getD n {})) }) s

/-- The slot that holds a set, and the lowest EMPTY slot. -/
def slotOfSet (s : State) (id : Nat) : Option Nat := (List.range 4).find? fun n => decide ((tblSlot s n).state ≠ 0) && (tblSlot s n).setId = id
def slotEmpty (s : State) : Option Nat := (List.range 4).find? fun n => (tblSlot s n).state = 0

/-- SEQ_TBL_STATUS.LAST_ERR of a failed load. -/
def tblErr (st : Nat) : Nat := if st = stFormat then 1 else if st = stKey then 2 else if st = stVersion then 3 else 0

/-- A slot becomes EMPTY; after a failed load it keeps the cause. -/
def slotClear (n st : Nat) (s : State) : State :=
  let id := (tblSlot s n).setId
  refsNow (modTbl n (fun t => { lastErr := if st = stOk then t.lastErr else tblErr st }) (loadEnd (.table id) s))


/-- A complete image: LOADED with a copy in each present die stack, or EMPTY. -/
def tblComplete (p : Pkt) (n : Nat) (l : ImgLoad) (s0 : State) : State :=
  let img := assemble (loadPieces l)
  let s := pend 0x10 p s0
  let st := tblCheck s p.p0 img
  if st ≠ stOk then fail 0x10 p st (slotClear n st s)
  else
    let body := img.take (tblLen img)
    let held := (tabGet s.tier.stakes (tblStakeId img)).isSome
    let s1 := (stacksHere s).foldl (fun t k => memStore (tableDpa k n) body t) (loadDel l.name s)
    ok 0x10 p 0 (damageEnds (refsNow
      (modTbl n (fun t => { t with state := 2, image := body, stakeId := tblStakeId img, stakeRef := held, damaged := [] }) s1)))

def rowTblLoad : OpRow := ⟨0x10, true, true, false, 2 ^ 24, true⟩

/-- The load after a packet's bytes have been placed in slot `n`. -/
def tblAfter (p : Pkt) (n : Nat) (l : ImgLoad) (s0 : State) : State :=
  let b := loadPieces l
  let s := modTbl n (fun t => { t with state := 1, setId := p.p0, bytes := t.bytes + p.payload.length }) (loadPut l s0)
  if !l.header && covers b 32 then
    (let h := assemble b
     if !tblHead h p.p0 then failMsg rowTblLoad p stFormat (slotClear n stFormat s)
     else
      let l1 := { l with header := true }
      let s1 := modTbl n (fun t => { t with fmt := leAt h 4 1 * 256 + leAt h 6 1 }) (loadPut l1 s)
      if loadWhole l1 (tblLen h) then tblComplete p n l1 s1 else ok 0x10 p 0 s1)
  else if l.header && loadWhole l (tblLen (assemble b)) then tblComplete p n l s
  else ok 0x10 p 0 s

def tblLoadAct (p : Pkt) (s : State) : State :=
  let n := LoadName.table p.p0
  let l := (loadOf s n).getD ⟨n, 0, [], false, [], arrivalComp s p.path⟩
  if !paramsZero p true false false true || p.p0 = 0 || decide (2 ^ 32 ≤ p.p0) then loadFail rowTblLoad p stFormat s
  else if decide (2 ^ 30 + 65536 < segAt p + p.payload.length) then loadFail rowTblLoad p stFormat s
  else match slotOfSet s p.p0 with
    | some k => if (tblSlot s k).state = 1 then tblAfter p k (loadPlace 0x10 p l) s else loadFail rowTblLoad p stBusy s
    | none => match slotEmpty s with
      | some k => tblAfter p k (loadPlace 0x10 p l) (modTbl k (fun t => { lastErr := t.lastErr }) s)
      | none => loadFail rowTblLoad p stBusy s

def tblLoadFx (p : Pkt) (s : State) : State := loadReceive rowTblLoad p (tblLoadAct p) s
def execTblLoad (p : Pkt) (s : State) : Host.Outcome State Fault Refusal := .next (tblLoadFx p s)

/-! ## Activation and retirement (R151, R152) -/

/-- A run is in progress: it has steps to run (R408). -/
def runsOn (s : State) : Bool := s.eng.runs.any fun e => !e.2.ended

/-- Release every staged tile of a cluster and restart its stager (R174). -/
def stageDropAll (c : Cluster) : Cluster := { c with staged := [], staging := none, reach := 0, pastEnd := false }

/-- A table set has been reloaded and activated: it ends the wait of R65, and a damaged table image stops nothing more. -/
def tableLoaded (s : State) : State := damageEnds (modCore (fun c => { c with waitTable := false }) s)

/-- The pending set becomes ACTIVE, the ACTIVE set LOADED (R151). -/
def activateSwap (s : State) : State :=
  match s.tier.pendAct with
  | none => s
  | some (n, _) =>
    let s1 := match activeSlot s with | some k => modTbl k (fun t => { t with state := 2 }) s | none => s
    refsNow (modTbl n (fun t => { t with state := 3, stakeRef := true }) s1)

/-- The new set is checked against the shape, and every command that waits for it is answered (R62, R152). -/
def activateEnd (s : State) : State :=
  match s.tier.pendAct with
  | none => s
  | some (_, l) =>
    let s1 := modTier (fun t => { t with pendAct := none }) s
    let s2 := refsNow (modCore (fun c => { c with clusters := tabMap c.clusters fun _ => stageDropAll }) s1)
    l.foldl (fun t p => ok 0x11 p 0 t) (shapeCheck (tableLoaded s2))

def activateNow (s : State) : State := activateEnd (activateSwap s)

/-- Runs in progress whose next step no table set in force can run: the shape has put the package in restricted mode, and no step
runs. No rule says what becomes of them; a set made pending then ends them without a result, so that R63 can be met (DESIGN
CHOICE, log 136). -/
def runsBlocked (s : State) : Bool := s.eng.step.isNone && s.dev.causes.contains 1

/-- An activation that waits for runs which the shape has stopped takes effect at once (log 136). -/
def activateBlocked (s : State) : State :=
  if s.tier.pendAct.isSome && runsBlocked s then activateNow (runsEnd s) else s

/-- With no step and no run, the activation has no boundary to wait for. -/
def activateSoon (s : State) : State := if s.eng.step.isNone && !runsOn s then activateNow s else activateBlocked s

def rowActivate : OpRow := ⟨0x11, true, true, false, 0, false⟩

def activateAct (p : Pkt) (s : State) : State :=
  match s.tier.pendAct, slotOfSet s p.p0 with
  | some (k, l), some n =>
    if k = n then pend 0x11 p (modTier (fun x => { x with pendAct := some (k, l ++ [p]) }) s) else fail 0x11 p stBusy s
  | some _, none => fail 0x11 p stBusy s
  | none, none => fail 0x11 p stFormat s
  | none, some n =>
    let t := tblSlot s n
    if t.state = 1 then fail 0x11 p stBusy s
    else match tabGet s.tier.stakes t.stakeId with
      | none => fail 0x11 p stFormat s
      | some k =>
        if !tensorsOk t.image k then fail 0x11 p stFormat s
        else if t.state = 3 then ok 0x11 p 0 (shapeCheck (tableLoaded s))
        else activateSoon (pend 0x11 p (modTier (fun x => { x with pendAct := some (n, [p]) }) s))

def tblActivateFx (p : Pkt) (s : State) : State :=
  receive rowActivate p (orFormat (paramsZero p true false false false && decide (p.p0 ≠ 0)) 0x11 p (activateAct p)) s
def execTblActivate (p : Pkt) (s : State) : Host.Outcome State Fault Refusal := .next (tblActivateFx p s)

def rowTblRetire : OpRow := ⟨0x12, true, true, false, 0, false⟩

def tblRetireAct (p : Pkt) (s : State) : State :=
  match slotOfSet s p.p0 with
  | none => fail 0x12 p stFormat s
  | some n =>
    let pending := match s.tier.pendAct with | some (k, _) => decide (k = n) | none => false
    if (tblSlot s n).state = 3 || pending then fail 0x12 p stBusy s else ok 0x12 p 0 (slotClear n stOk s)

def tblRetireFx (p : Pkt) (s : State) : State :=
  receive rowTblRetire p (orFormat (paramsZero p true false false false) 0x12 p (tblRetireAct p)) s
def execTblRetire (p : Pkt) (s : State) : Host.Outcome State Fault Refusal := .next (tblRetireFx p s)

end Sys2Proof.Machine
end

