-- ==== Sys2Proof/Machine/Withies.lean ====
section
/-! DEFINITION. Withies: the checks of an image, its load, the states of versions and of resident slots, queries and
promotions (R283 to R291, R306). -/

namespace Sys2Proof.Machine

/-! ## Images (R284, R285) -/

/-- Fields of a withy header. -/
def wthLen (h : Bytes) : Nat := leAt h 24 8
def wthRank (h : Bytes) : Nat := leAt h 10 1
def wthProj (h : Bytes) : Nat := leAt h 11 1
def wthStake (h : Bytes) : Nat := leAt h 12 4
def wthAlpha (h : Bytes) : Nat := leAt h 16 4

/-- MAGIC, the length and the name (R311). -/
def wthHead (h : Bytes) (key : Nat) : Bool :=
  leAt h 0 4 = 0x59485457 && decide (wthLen h ≤ 2 ^ 40) && bits (leAt h 4 4) 19 0 = key / 4096 && bits (leAt h 8 2) 11 0 = key % 4096

/-- The rest of the header. -/
def wthHeaderOk (h : Bytes) : Bool :=
  bits (leAt h 4 4) 31 20 = 0 && bits (leAt h 8 2) 15 12 = 0 && decide (wthRank h ≤ 4) && decide (1 ≤ wthProj h) && decide (wthProj h < 128) &&
    decide (bits (wthAlpha h) 30 23 ≠ 255) && zeroAt h 20 4

/-- Elements without a NaN, row scales without 0xFF, zero bytes. -/
def noNan (b : Bytes) : Bool := b.all fun x => x ≠ 0x7F && x ≠ 0xFF
def noFf (b : Bytes) : Bool := b.all fun x => x ≠ 0xFF
def allZero (b : Bytes) : Bool := b.all fun x => x = 0

/-- The record of a projection of widths `n` and `m`, at `at'`. -/
def wthRecOk (img : Bytes) (r n m at' : Nat) : Bool :=
  noNan (slice img at' (r * n)) && noFf (slice img (at' + r * n) r) && noNan (slice img (at' + r * n + r) (m * r)) &&
    noFf (slice img (at' + r * n + r + m * r) m) &&
    allZero (slice img (at' + withyRecLen r n m) (withyRecPad r n m - withyRecLen r n m))

/-- Bytes of the records of one layer. -/
def wthLayerLen (sh : Bytes) (proj r : Nat) : Nat :=
  ((bitsOf 7 proj).map fun p => withyRecPad r (stkProjN sh p) (stkProjM sh p)).sum

/-- The records of an image against the header of its stake image. -/
def wthRecords (sh img : Bytes) : Bool :=
  let r := withyRank (wthRank img)
  ((bitsOf 7 (wthProj img)).all fun p => decide (stkProjN sh p ≠ 0)) &&
    wthLen img = 32 + stkLayers sh * wthLayerLen sh (wthProj img) r &&
    (List.range (stkLayers sh)).all fun l => (bitsOf 7 (wthProj img)).all fun p =>
      match withyRecAt sh (wthProj img) r l p with
      | some a => wthRecOk img r (stkProjN sh p) (stkProjM sh p) a
      | none => false

/-- The contents of an image. -/
def wthContents (s : State) (img : Bytes) : Bool :=
  wthHeaderOk img &&
    match tabGet s.tier.stakes (wthStake img) with
    | some k => wthRecords k.header img
    | none => false

/-- The status of the first check that a completed image fails (R311). -/
def wthCheck (s : State) (key : Nat) (img : Bytes) : Nat :=
  if !(wthHead img key) || decide (wthLen img < 32) || decide (65536 < 64 + sigLen img (wthLen img)) then stFormat
  else if !operatorSigned s img (wthLen img) then stKey
  else if !wthContents s img then stFormat
  else stOk

/-! ## Slots and library entries (R288, R289) -/

/-- What WTH_SLOT_INFO shows of a version. -/
def wthInfo (key : Nat) (v : WithyVer) (slotState : Nat) : Nat :=
  2 ^ 44 * (key / 4096) + 2 ^ 32 * (key % 4096) + 2 ^ 17 * v.pins + 2 ^ 10 * v.proj + 2 ^ 7 * v.rank + 16 * v.state + 8 * b2n v.lib.isSome + slotState

/-- The number under which a slot that a load fills names its version, so that the version's own copies stay apart. -/
def fillKey (key : Nat) : Nat := key + 2 ^ 32

/-- The resident slot of a version, or the one that its load fills. -/
def wslotOf (s : State) (key : Nat) : Option (Nat × WSlot) :=
  match s.tier.wslots.find? fun e => e.2.ver = key with
  | some e => some e
  | none => s.tier.wslots.find? fun e => e.2.ver = fillKey key

/-- The WITHY areas that serve. -/
def withyAreas (s : State) : List (Nat × Nat) :=
  ((List.range 12).filter (hbmServes s)).map fun t => (hbmWithyBase s t, hbmPageBase s t)
def libAreas (s : State) : List (Nat × Nat) :=
  ((List.range 2).filter (lpxServes s)).map fun k => (lpxWithyBase s k, lpxPageBase s k)

/-- Where a load's placement puts copies: a resident slot, a library entry. -/
def wthResident (arg : Nat) : Bool := arg % 16 ≠ 1
def wthLibrary (arg : Nat) : Bool := arg % 16 ≠ 0

/-- Library entries in use: of held versions, and of loads. -/
def libUsed (s : State) : Nat :=
  (s.tier.withies.filter fun e => e.2.lib.isSome).length +
    (s.tier.loads.filter fun l => match l.name with | .withy _ _ => wthLibrary l.arg && decide (l.arg < 16) | _ => false).length

/-- The lowest library entry that no held version has. -/
def libFree (s : State) : Nat := (firstFrom (fun n => !s.tier.withies.any fun e => e.2.lib = some n) 8192 0).getD 0

def wslotPut (n : Nat) (w : WSlot) (s : State) : State := modTier (fun t => { t with wslots := tabPut t.wslots n w }) s
def modWslot (n : Nat) (f : WSlot → WSlot) (s : State) : State := modTier (fun t => { t with wslots := tabMod t.wslots n f }) s

/-- A slot becomes EMPTY. -/
def wslotClear (n : Nat) (s : State) : State :=
  match tabGet s.tier.wslots n with
  | none => s
  | some w => extFree w.ext (modTier (fun t => { t with wslots := tabDel t.wslots n }) s)

/-- What the first packet of a load takes (R288): the status when it cannot be had. -/
def wthTake (comp key arg : Nat) (s : State) : Nat × State :=
  if wthLibrary arg && !(lpxServes s 0 || lpxServes s 1) then (stNoPage, s)
  else if wthLibrary arg && decide (8192 ≤ libUsed s) then (stBusy, s)
  else if !wthResident arg then (stOk, s)
  else if !slotAllowed s comp then (stBusy, s)
  else match tabFree s.tier.wslots 1024 with
    | some n => (stOk, wslotPut n { state := 1, ver := fillKey key, comp := comp } s)
    | none => (stBusy, s)

/-- What a version that is loading shows. -/
def wthLoading : WithyVer :=
  { state := 0, rank := 0, proj := 0, stakeId := 0, alpha := 0, len := 0, crc := 0, image := [], widths := [], lib := none, libExt := [], pins := 0, born := 0 }

/-- A load ends without a version: its slot, its library entry and its extents go, and a LOADING version is freed (R286). -/
def wthEnd (key : Nat) (s : State) : State :=
  let s1 := loadEnd (.withy (key / 4096) (key % 4096)) s
  let s2 := modTier (fun t => { t with wslots := t.wslots.filter fun e => e.2.ver ≠ fillKey key }) s1
  match withyHeld s2 key with
  | some v => if v.state = 0 then withyFree key s2 else s2
  | none => s2

/-! ## WTH.LOAD (R285 to R288) -/

def rowWthLoad : OpRow := ⟨0x18, true, true, false, 2 ^ 24, true⟩

/-- A version becomes CURRENT: an older CURRENT version of the withy is superseded, and freed when nothing pins it. -/
def supersede (key : Nat) (s : State) : State :=
  (s.tier.withies.filter fun e => e.1 / 4096 = key / 4096 && e.1 ≠ key && e.2.state = 1).foldl
    (fun t e => if e.2.pins = 0 then withyFree e.1 t else modWithy e.1 (fun v => { v with state := 2 }) t) s

/-- A valid image becomes a CURRENT version, with its copies; a resident copy ends the wait of R65 for that version (log 73). -/
def wthBecome (key : Nat) (l : ImgLoad) (img : Bytes) (s : State) : State :=
  let n := if wthResident l.arg then divUp (wthLen img) extBytes else 0
  let body := img.take (wthLen img)
  let v : WithyVer :=
    { state := 1, rank := wthRank img, proj := wthProj img, stakeId := wthStake img, alpha := wthAlpha img, len := wthLen img,
      crc := crc32c body, image := body, widths := match tabGet s.tier.stakes (wthStake img) with | some k => k.header | none => [], lib := if wthLibrary l.arg then some (libFree s) else none, libExt := l.extents.drop n, pins := 0,
      born := s.tier.wborn }
  let ready := fun (w : WSlot) => if w.ver = fillKey key then { w with state := 2, ver := key, ext := l.extents.take n } else w
  let s1 := modTier (fun t =>
    { t with withies := tabPut t.withies key v, wborn := t.wborn + 1, wslots := tabMap t.wslots fun _ => ready }) (loadDel l.name s)
  let s2 := extWrite (l.extents.drop n) body (extWrite (l.extents.take n) body s1)
  let reloaded := modCore (fun c => { c with waitWithies := if n = 0 then c.waitWithies else c.waitWithies.filter (· ≠ key) }) s2
  bump WTH_LOAD_CNT 1 (supersede key reloaded)

/-- A complete image: its checks, the held-version rule, and the version. -/
def wthComplete (p : Pkt) (key : Nat) (l : ImgLoad) (s : State) : State :=
  let img := assemble (loadPieces l)
  let st := wthCheck s key img
  if st ≠ stOk then fail 0x18 p st (wthEnd key s)
  else match withyHeld s key with
    | some v =>
      if v.state = 0 then ok 0x18 p 0 (wthBecome key l img s)
      else if v.state = 4 then fail 0x18 p stBusy (wthEnd key s)
      else if v.len = wthLen img && v.crc = crc32c (img.take (wthLen img)) then ok 0x18 p 0 (wthEnd key s)
      else fail 0x18 p stFormat (wthEnd key s)
    | none => ok 0x18 p 0 (wthBecome key l img s)

/-- Take `n` extents from the first of the areas that has room for them all: an object in one LPDDR5X set never spans into the other
(R168). -/
def extTakeOne (areas : List (Nat × Nat)) (n : Nat) (s : State) : Option (List Nat × State) := areas.findSome? fun a => extTake [a] n s

/-- The extents of a load's copies, resident first, taken as its header has been placed (log 76). -/
def wthSpace (arg n : Nat) (s : State) : Option (List Nat × State) :=
  match (if wthResident arg then extTake (withyAreas s) n s else some ([], s)) with
  | none => none
  | some (a, s1) => if wthLibrary arg then (extTakeOne (libAreas s1) n s1).map fun r => (a ++ r.1, r.2) else some (a, s1)

/-- The load after a packet's bytes have been placed. -/
def wthAfter (p : Pkt) (key : Nat) (l : ImgLoad) (s : State) : State :=
  let b := loadPieces l
  if !l.header && covers b 32 then
    (let h := assemble b
     if !wthHead h key then failMsg rowWthLoad p stFormat (wthEnd key s)
     else
      match wthSpace l.arg (divUp (wthLen h) extBytes) s with
      | none => failMsg rowWthLoad p stBusy (wthEnd key s)
      | some (x, s1) =>
        let l1 := { l with header := true, extents := x }
        if loadWhole l1 (wthLen h) then wthComplete p key l1 (loadPut l1 s1) else ok 0x18 p 0 (loadPut l1 s1))
  else if l.header && loadWhole l (wthLen (assemble b)) then wthComplete p key l (loadPut l s)
  else ok 0x18 p 0 (loadPut l s)

/-- The first packet of a load takes a slot and an entry; a version that is not held yet is LOADING. -/
def wthBegin (p : Pkt) (key : Nat) (l : ImgLoad) (s : State) : State :=
  match wthTake l.comp key l.arg s with
  | (st, s1) =>
    if st ≠ stOk then loadFail rowWthLoad p st s
    else
      let s2 := loadPut l s1
      wthAfter p key (loadPlace 0x18 p l)
        (if (withyHeld s2 key).isNone then modTier (fun t => { t with withies := tabPut t.withies key wthLoading }) s2 else s2)

def wthLoadAct (p : Pkt) (s : State) : State :=
  let key := p.p1
  let n := LoadName.withy (key / 4096) (key % 4096)
  if !paramsZero p true true false true || decide (3 ≤ p.p0) || decide (2 ^ 32 ≤ key) || key / 4096 = 0xFFFFF || key % 4096 = 0xFFF then
    loadFail rowWthLoad p stFormat s
  else if decide (2 ^ 40 + 65536 < segAt p + p.payload.length) then loadFail rowWthLoad p stFormat s
  else match loadOf s n with
    | some l =>
      if 16 ≤ l.arg then loadFail rowWthLoad p stPoison (loadEnd n s)
      else if l.arg ≠ p.p0 then loadFail rowWthLoad p stFormat s
      else wthAfter p key (loadPlace 0x18 p l) s
    | none => wthBegin p key ⟨n, p.p0, [], false, [], arrivalComp s p.path⟩ s

def wthLoadFx (p : Pkt) (s : State) : State := loadReceive rowWthLoad p (wthLoadAct p) s
def execWthLoad (p : Pkt) (s : State) : Host.Outcome State Fault Refusal := .next (wthLoadFx p s)

/-- An uncorrected error strikes a version that is loading: it is freed, and the load's next packet is answered ST_POISON
(R286). -/
def wthLoadHit (key : Nat) (s : State) : State :=
  match loadOf s (.withy (key / 4096) (key % 4096)) with
  | none => s
  | some l => if 16 ≤ l.arg then s else loadPut { l with arg := l.arg + 16, segs := [], extents := [], header := false } (wthEnd key s)

/-! ## WTH.RETIRE and WTH.QUERY (R286, R291) -/

def rowWthRetire : OpRow := ⟨0x19, true, true, false, 0, false⟩

/-- Keys of the held versions that a WITHY_ID and a VERSION name, ascending. -/
def wthNamed (s : State) (x : Nat) : List Nat :=
  (s.tier.withies.filter fun e => e.1 / 4096 = x / 4096 && (x % 4096 = 0xFFF || e.1 = x)).map (·.1)

/-- Retire one version. -/
def retireOne (s : State) (key : Nat) : State :=
  match withyHeld s key with
  | none => s
  | some v =>
    if v.state = 0 then wthEnd key s
    else if v.state = 1 || v.state = 2 then
      (if v.pins = 0 then withyFree key s else modWithy key (fun v => { v with state := 3 }) s)
    else s

/-- Layout of the names of WTH.RETIRE and WTH.QUERY. -/
def wthNameOk (p : Pkt) : Bool := paramsZero p false true false false && decide (p.p1 < 2 ^ 32) && decide (p.p1 / 4096 ≠ 0xFFFFF)

def wthRetireFx (p : Pkt) (s : State) : State :=
  receive rowWthRetire p (orFormat (wthNameOk p) 0x19 p fun t => ok 0x19 p 0 ((wthNamed t p.p1).foldl retireOne t)) s
def execWthRetire (p : Pkt) (s : State) : Host.Outcome State Fault Refusal := .next (wthRetireFx p s)

def rowWthQuery : OpRow := ⟨0x1A, true, true, false, 0, false⟩

/-- The record of one version. -/
def wthRecord (s : State) (key : Nat) : Bytes :=
  match withyHeld s key with
  | none => []
  | some v =>
    let w := wslotOf s key
    toLe 8 (wthInfo key v ((w.map (·.2.state)).getD 0)) ++ toLe 4 ((w.map (·.1)).getD 0xFFFFFFFF) ++ zeros 4

def wthQueryFx (p : Pkt) (s : State) : State :=
  receive rowWthQuery p (orFormat (wthNameOk p) 0x1A p fun t => respond 0x1A p ((wthNamed t p.p1).flatMap (wthRecord t)) 0 t) s
def execWthQuery (p : Pkt) (s : State) : Host.Outcome State Fault Refusal := .next (wthQueryFx p s)

/-! ## The slot window (R306) -/

/-- The description of a resident slot. -/
def wslotInfo (s : State) (n : Nat) : Nat :=
  match tabGet s.tier.wslots n with
  | none => 0
  | some w => wthInfo (w.ver % 2 ^ 32) ((withyHeld s (w.ver % 2 ^ 32)).getD wthLoading) w.state

def wthSlotSelWriteFx (v : Nat) (s : State) : State :=
  if !hostHeard s then s
  else
    let s1 := regSet WTH_SLOT_SEL v s
    regPut WTH_SLOT_INFO (wslotInfo s1 (regField s1 WTH_SLOT_SEL 9 0)) s1
def execWthSlotSelWrite (value : Nat) (s : State) : Host.Outcome State Fault Refusal := .next (wthSlotSelWriteFx value s)

/-! ## Promotions (R289, R290) -/

/-- The promotion of a slot is verified: READY, or EMPTY when it failed. -/
def promotionVerifiedFx (n : Nat) (verified : Bool) (s : State) : State :=
  match tabGet s.tier.wslots n with
  | none => s
  | some w =>
    if !alive s || w.state ≠ 1 || !w.promo then s
    else if verified then
      bump WTH_PROMOTE_CNT 1 (modWslot n (fun w => { w with state := 2, promo := false })
        (extWrite w.ext (match withyHeld s w.ver with | some v => v.image | none => []) s))
    else wslotClear n s
def execPromotionVerified (slot : Nat) (verified : Bool) (s : State) : Host.Outcome State Fault Refusal := .next (promotionVerifiedFx slot verified s)

/-- The running step, or the published next weave, names a resident slot (R290). -/
def wslotWoven (s : State) (n : Nat) : Bool :=
  let names := fun (r : Option Run) => r.any fun r => r.batch.withies.contains n
  names (curRun s) || names (s.eng.next.bind fun c => tabGet s.eng.runs c)

/-- The READY copy woven least recently that may go, the lower slot number first. -/
def evictSlot (s : State) : Option Nat :=
  let may := s.tier.wslots.filter fun e =>
    e.2.state = 2 && !wslotWoven s e.1 && (match withyHeld s e.2.ver with | some v => v.lib.isSome | none => false)
  may.foldl (fun (b : Option Nat) e =>
    match b with
    | none => some e.1
    | some k => if e.2.woven < (tabGetD s.tier.wslots k {}).woven then some e.1 else b) none

/-- Start to promote a version that has only a library copy, for a row of a composition; nothing when no slot can be had. -/
def promote (comp key : Nat) (s : State) : State :=
  match withyHeld s key with
  | none => s
  | some v =>
    if v.lib.isNone || (s.tier.wslots.any fun e => e.2.ver = key) then s
    else
      let s1 :=
        if (tabFree s.tier.wslots 1024).isSome then s
        else match evictSlot s with | some k => bump WTH_EVICT_CNT 1 (wslotClear k s) | none => s
      match tabFree s1.tier.wslots 1024, extTake (withyAreas s1) (divUp v.len extBytes) s1 with
      | some n, some (x, s2) =>
        if slotAllowed s1 comp then wslotPut n { state := 1, ver := key, promo := true, comp := comp, ext := x } s2 else s
      | _, _ => s

end Sys2Proof.Machine
end

