-- ==== Sys2Proof/Machine/Tiers.lean ====
section
/-! DEFINITION. Errors of the memory tiers: corrected errors and row retirement, objects moved off a retired row,
uncorrected errors, context SRAM; and host windows (R170, R171, R176 to R179). -/

namespace Sys2Proof.Machine

/-! ## Rows and the defect map (R177, R471) -/

/-- The HBM3E stack and the pseudo-channel of a DPA, and the first byte of its row (log 70). -/
def stackOf (a : Nat) : Nat := a / 0xC00000000
def channelOf (a : Nat) : Nat := a / 256 % 32
def rowBase (a : Nat) : Nat := a / 32768 * 32768 + 256 * channelOf a

/-- The four pieces of a row. -/
def rowPieces (a : Nat) : List Nat := (List.range 4).map fun j => rowBase a + 8192 * j

/-- Append an entry to the field section of the defect map; a full section takes nothing more (R471). -/
def defectAppend (kind value : Nat) (s : State) : State :=
  if 8192 ≤ s.flash.field.length then modFlash (fun f => { f with defectFull := true }) s
  else
    let b := toLe 4 kind ++ toLe 8 value
    modFlash (fun f => { f with field := f.field ++ [b ++ toLe 4 (crc32c b)] }) s

/-- Remap rows left in a row's pseudo-channel, of 128, and in a stack, of 4,096. -/
def remapsLeft (s : State) (a : Nat) : Nat :=
  128 - (s.tier.remaps.filter fun r => stackOf r.row = stackOf a && channelOf r.row = channelOf a).length
def stackRemapsLeft (s : State) (stack : Nat) : Nat := 4096 - (s.tier.remaps.filter fun r => stackOf r.row = stack).length

/-! ## Moving objects off a row (R178) -/

/-- Replace a frame number in a page table. -/
def tableSwap (f g : Nat) (t : PageTable) : PageTable :=
  let sw := fun n => if n = f then g else n
  { t with logFrames := t.logFrames.map sw, root := t.root.map sw, tables := t.tables.map sw, ovf := t.ovf.map sw,
           entries := tabMap t.entries fun _ e => { e with desc := sw e.desc } }

/-- Replace a frame in everything that names it: page tables, moves, demotions, transfers, services and mirror jobs. -/
def framesSwap (a b f g : Nat) (m : ManSt) : ManSt :=
  let sw := fun n => if n = f then g else n
  let berth := fun (x : Berth) =>
    let p := { x.prog with logPage := if x.prog.logPage = f && x.table.logFrames.contains f then g else x.prog.logPage,
                           pageRoot := if x.table.root = some f then b else x.prog.pageRoot }
    { x with table := tableSwap f g x.table, prog := p }
  let frame := fun (x : Frame) =>
    { x with ovfDpa := if a ≤ x.ovfDpa && x.ovfDpa < a + frameBytes then b + (x.ovfDpa - a) else x.ovfDpa, demote := x.demote.map sw }
  { m with berths := tabMap m.berths fun _ => berth, frames := tabMap m.frames fun _ => frame,
           moves := tabMap m.moves fun _ v => { v with frame := sw v.frame },
           xfers := tabMap m.xfers fun _ v => { v with ovf := v.ovf.map sw, placed := v.placed.map fun e => (e.1, sw e.2) },
           mirrors := tabMap m.mirrors fun _ v => { v with todo := v.todo.map fun c => { c with frame := sw c.frame } } }

/-- Move the contents of frame `f` to frame `g`, which stands ready, and switch every reference. -/
def frameRelocate (f g : Nat) (s : State) : State :=
  match frameAt s f with
  | none => modMan (fun m => { m with frames := tabDel m.frames g }) s
  | some x =>
    let a := frameDpa s f
    let b := frameDpa s g
    let s1 := memWrite b (memRead s a frameBytes) (memTags s a frameBytes) s
    let s2 := modMan (fun m => framesSwap a b f g { m with frames := tabPut (tabDel m.frames f) g x }) s1
    modEng (fun e => { e with folds := tabMap e.folds fun _ v => { v with frames := v.frames.map fun n => if n = f then g else n } }) s2

/-- Move at a boundary the frames whose contents still change; one for which there is no room stays. -/
def moveOpenNow (s : State) : State :=
  s.tier.moveOpen.foldl (fun t f =>
    match frameAt t f with
    | none => t
    | some x => match frameTake t x.lpx with | some g => frameRelocate f g t | none => t)
    (modTier (fun t => { t with moveOpen := [] }) s)

/-- Start to move a frame that touches a withdrawn row: a sealed copy is written anew and verified, one whose contents
change waits for the next boundary. The new frame is charged to the composition of the old one. -/
def moveFrameOff (f : Nat) (x : Frame) (s : State) : State × Nat :=
  let moving := fun (v : ObjMove) => match v.obj with | .page g => decide (g = f) || v.granules.any fun x => x.2 = f | _ => false
  if s.tier.objMoves.any moving || s.tier.moveOpen.contains f then (s, 0)
  else if !isSealed x then (modTier (fun t => { t with moveOpen := t.moveOpen ++ [f] }) s, 1)
  else match frameTake s x.lpx with
    | none => (s, 0)
    | some g =>
      (modTier (fun t => { t with objMoves := t.objMoves ++ [⟨.page f, [(f, g)]⟩] })
        (modMan (fun m => { m with frames := tabPut m.frames g { use := .page, state := 4, lpx := x.lpx, comp := x.comp } }) s), 1)

/-- Replace an extent in everything that names it. -/
def extentSwap (e g : Nat) (t : MemSt) : MemSt :=
  let sw := fun n => if n = e then g else n
  { t with stakes := tabMap t.stakes fun _ k =>
             { k with dirExt := k.dirExt.map fun d => (d.1, sw d.2), ext := tabMap k.ext fun _ l => l.map sw, damaged := k.damaged.map sw },
           copies := tabMap t.copies fun _ c => { c with ext := c.ext.map sw },
           withies := tabMap t.withies fun _ v => { v with libExt := v.libExt.map sw },
           wslots := tabMap t.wslots fun _ w => { w with ext := w.ext.map sw },
           loads := t.loads.map fun l => { l with extents := l.extents.map sw } }

/-- The area in which an HBM3E extent lies. -/
def areaOf (s : State) (e : Nat) : Nat × Nat :=
  let k := stackOf e
  if e < hbmWithyBase s k then (hbmStakeBase k, hbmWithyBase s k) else (hbmWithyBase s k, hbmPageBase s k)

/-- Take the place of an extent: its bytes stand in the new one, and everything names that. -/
def extentMove (s : State) (x : Nat × Nat) : State :=
  extFree [x.1] (modTier (extentSwap x.1 x.2) (memWrite x.2 (memRead s x.1 extBytes) (memTags s x.1 extBytes) s))

/-- The immutable object that an HBM3E extent belongs to, with all its extents. -/
def objectOf (s : State) (e : Nat) : Option (MovedObject × List Nat) :=
  match s.tier.stakes.find? fun k => (stakeExtents k.2).contains e with
  | some k => some (.stake k.1, stakeExtents k.2)
  | none => (s.tier.wslots.find? fun w => w.2.state = 2 && w.2.ext.contains e).map fun w => (.withy (w.2.ver / 4096) (w.2.ver % 4096), w.2.ext)

/-- Start to move what holds an extent off a withdrawn row, within the areas that it lies in; it stays while they have no room. An
immutable object is copied whole, and its references wait for the check of the copy. An extent that a load still fills is no immutable
object, and moves at once (log 78). -/
def moveExtentOff (e : Nat) (s : State) : State × Nat :=
  match objectOf s e with
  | some (o, l) =>
    if s.tier.objMoves.any fun v => v.obj = o then (s, 0)
    else match takeEach (l.map (areaOf s)) s with
      | none => (s, 0)
      | some (g, s1) => (modTier (fun t => { t with objMoves := t.objMoves ++ [⟨o, l.zip g⟩] }) s1, 1)
  | none =>
    match extTake [areaOf s e] 1 s with
    | some ([g], s1) => (extentMove s1 (e, g), 1)
    | _ => (s, 0)

/-- Move what a piece of a withdrawn row touches; `r.2` counts the objects moved. -/
def movePiece (r : State × Nat) (a : Nat) : State × Nat :=
  let s := r.1
  let q :=
    match frameNo s a with
    | some f => (match frameAt s f with | some x => moveFrameOff f x s | none => (s, 0))
    | none => match s.tier.extents.find? fun e => e ≤ a && a < e + extBytes with
      | some e => moveExtentOff e s
      | none => (s, 0)
  (q.1, r.2 + q.2)

/-! ## Corrected errors (R176 to R178) -/

/-- Retire a row into a remap row, whose copy starts. -/
def rowRemap (a : Nat) (s : State) : State :=
  let row := rowBase a
  let s1 := defectAppend 2 row (modTier (fun t => { t with remaps := t.remaps ++ [⟨row, true⟩] }) s)
  let s2 := regPut MEM_RETIRE_LAST row (bump (MEM_HBM_RETIRED (stackOf a)) 1 s1)
  record { cause := 0x13, cls := 0, kind := 5, unit := stackOf a, addr := row, c0 := remapsLeft s2 a } s2

/-- Withdraw a row whose pseudo-channel has no remap row left, and move the objects that touch it. -/
def rowWithdraw (a : Nat) (s : State) : State :=
  let l := rowPieces a
  let s1 := modTier (fun t => { t with withdrawn := l.filter (fun w => !t.withdrawn.contains w) ++ t.withdrawn }) s
  let r := l.foldl movePiece (s1, 0)
  let s2 := demoteCheck (record { cause := 0x13, cls := 0, kind := 5, unit := stackOf a, addr := rowBase a, c0 := 0, c1 := r.2 } r.1)
  if s2.eng.step.isNone then moveOpenNow s2 else s2

/-- A corrected HBM3E error is counted per stack and row; the row goes at its threshold. The history of a row that a remap
row replaces starts again. -/
def hbmCorrectedErrorFx (stack a now : Nat) (s0 : State) : State :=
  let s := atTick now s0
  if !readable s || stackOf a ≠ stack || !hbmServes s stack then s
  else
    let row := rowBase a
    let s1 := record { cause := 0x12, cls := 0, kind := 5, unit := stack, addr := a } (bump (MEM_HBM_CE_CNT stack) 1 s)
    let s2 := modErr (fun e => { e with rowHist := histAdd e.rowHist row (msNow s) }) s1
    if !histReached (tabGetD s2.err.rowHist row []) (regField s ERR_TH_HBM_ROW 7 0) (3600000 * regField s ERR_TH_HBM_ROW 23 16) then s2
    else if remapsLeft s2 a = 0 then rowWithdraw a s2
    else rowRemap a (modErr (fun e => { e with rowHist := tabDel e.rowHist row }) s2)
def execHbmCorrectedError (stack dpa now : Nat) (s : State) : Host.Outcome State Fault Refusal := .next (hbmCorrectedErrorFx stack dpa now s)

/-- The copy to a remap row ends, and the accesses that waited proceed. -/
def hbmRowCopyDoneFx (a now : Nat) (s0 : State) : State :=
  let s := atTick now s0
  modTier (fun t => { t with remaps := t.remaps.map fun r => if r.row = rowBase a then { r with copying := false } else r }) s
def execHbmRowCopyDone (dpa now : Nat) (s : State) : Host.Outcome State Fault Refusal := .next (hbmRowCopyDoneFx dpa now s)

/-- The granules in which an object lies now. -/
def objectGranules (s : State) (o : MovedObject) : List Nat :=
  match o with
  | .page f => (match frameAt s f with | some x => if isSealed x then [f] else [] | none => [])
  | .stake id => (match tabGet s.tier.stakes id with | some k => stakeExtents k | none => [])
  | .withy w v => (match s.tier.wslots.find? fun x => x.2.state = 2 && x.2.ver = withyKey w v with | some x => x.2.ext | none => [])

/-- Free a granule that a move had taken. -/
def granuleFree (o : MovedObject) (g : Nat) (s : State) : State :=
  match o with
  | .page _ => modMan (fun m => { m with frames := tabDel m.frames g }) s
  | _ => extFree [g] s

/-- Switch one granule of an object to its new copy. -/
def granuleMove (o : MovedObject) (s : State) (x : Nat × Nat) : State :=
  match o with
  | .page _ => frameRelocate x.1 x.2 s
  | _ => extentMove s x

/-- A move ends: with its copy verified the references of the granules that the object still has are switched and the old ones are freed;
otherwise the new granules are freed, and the object stays where it is (R158, R178). -/
def moveEnds (v : ObjMove) (verified : Bool) (s : State) : State :=
  let held := objectGranules s v.obj
  v.granules.foldl (fun t x => if verified && held.contains x.1 then granuleMove v.obj t x else granuleFree v.obj x.2 t) s

/-- OBJECT_MOVE_COMPLETE. -/
def objectMoveCompleteFx (o : MovedObject) (now : Nat) (verified : Bool) (s0 : State) : State :=
  let s := atTick now s0
  match s.tier.objMoves.find? fun v => v.obj = o with
  | none => s
  | some v => if alive s then moveEnds v verified (modTier (fun t => { t with objMoves := t.objMoves.filter fun v => v.obj ≠ o }) s) else s
def execObjectMoveComplete (object : MovedObject) (now : Nat) (verified : Bool) (s : State) : Host.Outcome State Fault Refusal :=
  .next (objectMoveCompleteFx object now verified s)

/-- The LPDDR5X device of a DPA: bits 14:12, plus 8 in the south set (R168). -/
def lpxDeviceOf (a : Nat) : Nat := (if a < lpxBase 1 then 0 else 8) + a / 4096 % 8

/-- The LPDDR5X set of a device serves. -/
def lpxDeviceServes (s : State) (d : Nat) : Bool := decide (d < 16) && lpxServes s (d / 8)

def lpxCorrectedErrorFx (d a now : Nat) (s0 : State) : State :=
  let s := atTick now s0
  if !readable s || !lpxDeviceServes s d || !(lpxBase (d / 8) ≤ a && a < lpxBase (d / 8 + 1)) || lpxDeviceOf a ≠ d then s
  else record { cause := 0x15, cls := 0, kind := 6, unit := d, addr := a } (bump (MEM_LPX_CE_CNT d) 1 s)
def execLpxCorrectedError (device dpa now : Nat) (s : State) : Host.Outcome State Fault Refusal := .next (lpxCorrectedErrorFx device dpa now s)

/-- A DPA of the context SRAM of an I/O die, 0 north and 1 south (R167). -/
def inContext (die a : Nat) : Bool := decide (0x20000000000 + 0x800000 * die ≤ a) && decide (a < 0x20000800000 + 0x800000 * die)

/-- A corrected SRAM error: of a word of a layer-store slice, which has no DPA to name (R155, R445), or of an I/O die's context SRAM. -/
def sramCorrectedErrorFx (slice' : Bool) (unit' address now : Nat) (s0 : State) : State :=
  let s := atTick now s0
  if !readable s then s
  else if slice' then
    (if (cluster s unit').present then record { cause := 0x10, cls := 0, kind := 2, unit := unit' } (bump MEM_SLICE_CE_CNT 1 s) else s)
  else if decide (unit' < 2) && inContext unit' address then record { cause := 0x10, cls := 0, kind := 10, unit := unit', addr := address } s
  else s
def execSramCorrectedError (slice' : Bool) (unit' address now : Nat) (s : State) : Host.Outcome State Fault Refusal :=
  .next (sramCorrectedErrorFx slice' unit' address now s)

/-! ## Uncorrected errors (R176, R179, R389) -/

/-- Whether an object holds a DPA. -/
def objectHolds (s : State) (a : Nat) (o : DamagedObject) : Bool :=
  match o with
  | .sealedPage f => frameNo s a = some f && (match frameAt s f with | some x => isSealed x | none => false)
  | .openPage f => frameNo s a = some f && (match frameAt s f with | some x => !isSealed x | none => false)
  | .stakeExtent id =>
    (match tabGet s.tier.stakes id with | some k => extHolds a (stakeExtents k) | none => false) ||
      (match tabGet s.tier.copies id with | some c => extHolds a c.ext | none => false)
  | .withy w v =>
    let key := withyKey w v
    (match withyHeld s key with | some x => extHolds a x.libExt | none => false) ||
      (match wslotOf s key with | some x => extHolds a x.2.ext | none => false) ||
      (match loadOf s (.withy w v) with | some l => extHolds a l.extents | none => false)
  | .tableImage slot stack => decide (tableDpa stack slot ≤ a) && decide (a < tableDpa stack slot + gib) && decide (2 ≤ (tblSlot s slot).state)

/-- C0 of the records of R422. -/
def objectCode : DamagedObject → Nat
  | .sealedPage _ => 1
  | .stakeExtent _ => 2
  | .withy _ _ => 3
  | .tableImage _ _ => 4
  | .openPage _ => 5

/-- What the damage of an object at a DPA does. A word of a stake copy that is lost damages no image: it repairs nothing any more. While
a version is loaded again, an error in a held copy damages the held version, and one in what the load has placed ends the load (R286). -/
def objectDamage (a : Nat) (o : DamagedObject) (s : State) : State :=
  match o with
  | .sealedPage f => frameDamaged f s
  | .openPage f => frameDamaged f s
  | .stakeExtent id =>
    (match tabGet s.tier.stakes id with
     | some k => if extHolds a (stakeExtents k) then stakeDamage id a s else s
     | none => s)
  | .withy w v =>
    let key := withyKey w v
    let arriving := match loadOf s (.withy w v) with | some l => extHolds a l.extents | none => false
    if arriving then wthLoadHit key s else withyDamage key s
  | .tableImage slot stack => tableDamage slot stack a s

/-- An uncorrected error met by a read: the word carries poison, the error is counted and reported, and the object that
holds it is handled by its kind. -/
def memoryUeFx (now a : Nat) (lpx : Bool) (o : DamagedObject) (s0 : State) : State :=
  let s := atTick now s0
  let serves := if lpx then decide (lpxBase 0 ≤ a) && decide (a < lpxBase 2) && lpxServes s (if a < lpxBase 1 then 0 else 1)
                else hbmServes s (stackOf a)
  if !alive s || !serves || !objectHolds s a o then s
  else
    let s1 := { s with memPoison := tabPut s.memPoison (a / 8) 2 }
    let s2 :=
      if lpx then record { cause := 0x16, cls := 1, kind := 6, unit := lpxDeviceOf a, addr := a, c0 := objectCode o } (bump (MEM_LPX_UE_CNT (lpxDeviceOf a)) 1 s1)
      else record { cause := 0x14, cls := 1, kind := 5, unit := stackOf a, addr := a, c0 := objectCode o } (bump (MEM_HBM_UE_CNT (stackOf a)) 1 s1)
    repairNow (objectDamage a o s2)
def execMemoryUe (now dpa : Nat) (lpx : Bool) (obj : DamagedObject) (s : State) : Host.Outcome State Fault Refusal :=
  .next (memoryUeFx now dpa lpx obj s)

/-- The I/O die whose context SRAM holds a berth: 0 to 8,191 north, 8,192 to 16,383 south (R156). -/
def berthDie (b : Nat) : Nat := b / 8192

/-- Whether a word of context SRAM can be what its owner holds: a berth's lies on the berth's die, and a QP context's where the QP's die
keeps resident ones (R156, R370). -/
def sramHolds (s : State) (a : Nat) (o : SramOwner) : Bool :=
  match o with
  | .berth b => (berthAt s b).isSome && inContext (berthDie b) a
  | .qp n => (match qpOf s n with | some q => q.loc ≠ 1 | none => false) && inContext (n % 2) a
  | .msaLine l => decide (l < 2 ^ 15)

/-- An uncorrected context-SRAM error: the berth or QP that holds the word fails, or a memory-semantic line is poisoned;
the record of a line names it by its area offset in ADDRESS (R389, log 77). -/
def sramUeFx (now address : Nat) (owner : SramOwner) (s0 : State) : State :=
  let s := atTick now s0
  if !alive s || !sramHolds s address owner then s
  else match owner with
    | .berth b => settle (failSoon b stStateLost (record { cause := 0x11, cls := 1, kind := 12, unit := b, addr := address } s))
    | .qp n => qpError n 5 (record { cause := 0x11, cls := 1, kind := 13, unit := n, addr := address } s)
    | .msaLine l => linePoison l (record { cause := 0x11, cls := 1, kind := 10, unit := lineDie l, addr := 64 * l } s)
def execSramUe (now address : Nat) (owner : SramOwner) (s : State) : Host.Outcome State Fault Refusal := .next (sramUeFx now address owner s)

/-! ## Host windows (R170, R171) -/

/-- A 32-bit write at a BAR0 offset: to a 32-bit register, or to either half of a 64-bit one. -/
def wordWrite (off v : Nat) (s : State) : State :=
  match regRow? off with
  | some d => if d.width = 64 then regSet off (regGet s off / 2 ^ 32 * 2 ^ 32 + v % 2 ^ 32) s else regSet off (v % 2 ^ 32) s
  | none =>
    match (if 4 ≤ off then regRow? (off - 4) else none) with
    | some d => if d.width = 64 then regSet (off - 4) (regGet s (off - 4) % 2 ^ 32 + 2 ^ 32 * (v % 2 ^ 32)) s else s
    | none => s

def winErrSet (s : State) : State := modTier (fun t => { t with winErr := true }) s

/-- A window is enabled, and holds a live object. -/
def winEnabled (s : State) (n : Nat) : Bool := regField s (MEM_HOSTWIN_CTRL n) 0 0 = 1
def winInUse (s : State) (n : Nat) : Bool := s.tier.winUse.any fun u => u.win = n

/-- Base and length keep the alignment of R170. -/
def winAligned (s : State) (n : Nat) : Bool := regGet s (MEM_HOSTWIN_BASE n) % 65536 = 0 && regGet s (MEM_HOSTWIN_LEN n) % 65536 = 0

/-- A write of MEM_HOSTWIN_CTRL. While ENABLE is 1 a change of USE is ignored and flagged, and so is a write of 0 to ENABLE
while the window holds an object; ENABLE rises only over an aligned window. -/
def winCtrlWrite (n v : Nat) (s : State) : State :=
  let off := MEM_HOSTWIN_CTRL n
  if winEnabled s n then
    let s1 := if bits v 2 1 ≠ regField s off 2 1 then winErrSet s else s
    if bit v 0 then s1 else if winInUse s n then winErrSet s1 else regPut off (setBits (regGet s1 off) 0 0 0) s1
  else
    let s1 := regSet off (setBits v 0 0 0) s
    if !bit v 0 then s1 else if winAligned s1 n then regPut off (setBits (regGet s1 off) 0 0 1) s1 else winErrSet s1

/-- The window, and the register within it, at a BAR0 offset. -/
def winOf (off : Nat) : Option Nat := if 0x400600 ≤ off && off < 0x400800 then some ((off - 0x400600) / 0x20) else none

/-- A write to a register of a host window: base and length stand still while the window is enabled. -/
def winFieldWrite (off v : Nat) (s : State) : State :=
  match winOf off with
  | none => s
  | some n =>
    if off % 0x20 < 4 then winCtrlWrite n v s
    else if off % 0x20 < 8 || 0x18 ≤ off % 0x20 then s
    else if winEnabled s n then winErrSet s else wordWrite off v s

/-- A write that enables a window. -/
def hostwinEnableWriteFx (n v : Nat) (s : State) : State := if hostHeard s && decide (n < 16) then winCtrlWrite n v s else s
def execHostwinEnableWrite (n value : Nat) (s : State) : Host.Outcome State Fault Refusal := .next (hostwinEnableWriteFx n value s)

def hostwinFieldWriteFx (off v : Nat) (s : State) : State := if hostHeard s then winFieldWrite off v s else s
def execHostwinFieldWrite (offset value : Nat) (s : State) : Host.Outcome State Fault Refusal := .next (hostwinFieldWriteFx offset value s)

end Sys2Proof.Machine
end

