-- ==== Sys2Proof/Machine/Cores.lean ====
section
/-! DEFINITION. Fencing of cores, clusters, lighters, compressors and die stacks, and sentinel tests (R46 to R71, R107,
R116 to R122, R424 to R427). Core slot `n` is slot `n % 9` of cluster `n / 9`. -/

namespace Sys2Proof.Machine

/-! ## Slots of a cluster -/

def clusterSlots (m : Nat) : List Nat := (List.range 9).map fun k => 9 * m + k

/-- A slot that runs under a logical ID. -/
def runsId (s : State) (n : Nat) : Bool := (coreSlot s n).lid.isSome

/-- The slot that covers slot `n` under test, and the slot under test that slot `n` covers. -/
def coverOf (s : State) (n : Nat) : Option Nat :=
  (clusterSlots (n / 9)).find? fun k =>
    (coreSlot s k).state = 3 && (coreSlot s k).coverTest && (coreSlot s n).home.isSome && (coreSlot s k).lid = (coreSlot s n).home
def testedBy (s : State) (n : Nat) : Option Nat :=
  (clusterSlots (n / 9)).find? fun k => (coreSlot s k).state = 4 && (coreSlot s k).home.isSome && (coreSlot s k).home = (coreSlot s n).lid

/-! ## Answers of a test (R118) -/

/-- The test of a slot ends with a result: recorded, and every request that waits is answered. -/
def testAnswer (n res : Nat) (s : State) : State :=
  let c := coreSlot s n
  let s1 := modSlot n (fun c => { c with lastResult := res, waiting := [], counted := false, testState := 0, deferSteps := 0 }) s
  let s2 := record { cause := 5, cls := if res = 2 then 1 else 0, kind := 1, unit := n, c0 := res } s1
  c.waiting.foldl (fun t p => ok 0x60 p res t) s2

/-- A running test is abandoned. One that the counting windows asked for stays due, and waits for a spare (R70). -/
def testAbandon (n : Nat) (s : State) : State :=
  let counted := (coreSlot s n).counted
  let s1 := testAnswer n 3 s
  if counted then modSlot n (fun c => { c with counted := true, testState := 2 }) s1 else s1

/-- A test that has not ended, of a slot that leaves service: not run when it had not started, else abandoned. -/
def testDropped (n : Nat) (s : State) : State :=
  let t := (coreSlot s n).testState
  if t = 0 then s else testAnswer n (if t ≤ 2 then 4 else 3) s

/-- A slot under test resumes its own ID; its cover is idle again. A test that has not passed is abandoned. -/
def testedResumes (n : Nat) (s : State) : State :=
  let c := coreSlot s n
  let s1 := match coverOf s n with
    | some k => modSlot k (fun x => { x with state := 2, lid := none, coverTest := false }) s
    | none => s
  let s2 := modCluster (n / 9) (fun x => { x with loading := false })
    (modSlot n (fun x => { x with state := 1, lid := c.home, home := none, ended := none }) s1)
  if c.ended = some true then s2 else testAbandon n s2

/-- A spare under test in place is idle again, its test abandoned. -/
def spareFreed (n : Nat) (s : State) : State := testAbandon n (modSlot n (fun x => { x with state := 2 }) s)

/-! ## Fencing a core (R46, R66, R117) -/

/-- The cluster's spare for a fenced ID: idle, under test in place, or covering a slot under test. It is idle afterwards. -/
def spareFor (m : Nat) (s : State) : Option (Nat × State) :=
  match (clusterSlots m).find? fun k => (coreSlot s k).state = 2 with
  | some k => some (k, s)
  | none =>
    match (clusterSlots m).find? fun k => (coreSlot s k).state = 4 && (coreSlot s k).home.isNone with
    | some k => some (k, spareFreed k s)
    | none =>
      match (clusterSlots m).find? fun k => (coreSlot s k).state = 3 && (coreSlot s k).coverTest with
      | some k => match testedBy s k with | some t => some (k, testedResumes t s) | none => none
      | none => none

/-- Cores in service of a cluster. -/
def coresIn (s : State) (m : Nat) : Nat := ((clusterSlots m).filter (runsId s)).length

/-- Slots that leave service with their cluster or die stack; one that is NOT_PRESENT stays as it is (R117). -/
def slotAbsent (n : Nat) (s : State) : State :=
  if (coreSlot s n).state = 0 then s
  else
    modSlot n (fun c => { c with state := 0, lid := none, home := none, cause := 6, coverTest := false, ended := none, fenceDue := false })
      (testDropped n s)

/-- A fenced die stack's share of memory: its HBM3E stacks are fenced, and the frames, extents and objects that lay there are
gone (R65, log 71). -/
def stackMemoryGone (t : Nat) (s : State) : State × Nat :=
  let lost := fun (a : Nat) => stackOf a / 3 = t
  let frames := (s.man.frames.filter fun e => !e.2.lpx && lost (frameDpa s e.1))
  let pages := (frames.filter fun e => e.2.use = .page && 1 ≤ e.2.state && e.2.state ≤ 3).length
  let s1 := frames.foldl (fun x e => if e.2.state = 4 then arrivingGone e.1 x else frameDamaged e.1 x) s
  let s2 := (s1.tier.loads.filter fun l => l.extents.any lost).foldl (fun x l =>
    match l.name with
    | .withy w v => wthEnd (withyKey w v) x
    | n => loadEnd n x) s1
  let gone := fun (k : Stake) => k.ext.any fun e => e.2.any lost
  let s3 := modTier (fun m =>
    { m with hbm := (List.range 12).map fun k => if k / 3 = t && m.hbm.getD k 0 = 1 then 3 else m.hbm.getD k 0,
             stakes := tabMap (m.stakes.filter fun e => !gone e.2) fun _ k => { k with dirExt := k.dirExt.filter fun d => d.1 ≠ t } }) s2
  let s4 := (s3.tier.wslots.filter fun e => e.2.ext.any lost).foldl (fun x e =>
    match withyHeld x e.2.ver with
    | some v => if v.lib.isSome then wslotClear e.1 x else withyDamage e.2.ver x
    | none => wslotClear e.1 x) s3
  let left := fun (l : List Nat) => l.filter fun e => !lost e
  let swept := fun (m : MemSt) =>
    { m with extents := left m.extents, slots := m.slots.map fun x => { x with stakeRef := x.stakeRef && (tabGet m.stakes x.stakeId).isSome } }
  (modTier swept s4, pages)

/-- Serving waits until the stake images and the resident withies that the fence of die stack `t` has taken are loaded again, and
until a table set is activated where one was ACTIVE (R65, log 71). -/
def reloadsDue (t : Nat) (s : State) : State :=
  let lost := fun (a : Nat) => stackOf a / 3 = t
  let stakes := (s.tier.stakes.filter fun e => e.2.ext.any fun x => x.2.any lost).map (·.1)
  let withies := (s.tier.wslots.filter fun e => e.2.state = 2 && e.2.ext.any lost).map (·.2.ver)
  modCore (fun c =>
    { c with waitStakes := (c.waitStakes ++ stakes).eraseDups, waitWithies := (c.waitWithies ++ withies).eraseDups,
             waitTable := c.waitTable || s.tier.slots.any fun x => x.state = 3 }) s

/-- A die stack is fenced (R54, R65): all steps stop, its pages are reported lost, its clusters and slots are absent, and
serving waits for the three reloads. -/
def stackGone (t cause : Nat) (s : State) : State :=
  if s.core.stacksGone.contains t || decide (4 ≤ t) then s
  else
    let s1 := runsEnd (stepAbort (cyclesSoFar s) s)
    let s2 := ((List.range 288).map fun k => 288 * t + k).foldl
      (fun x n => modSlot n (fun c => { c with testsRun := 0, deferSteps := 0 }) (slotAbsent n x)) s1
    let s3 := modCore (fun c => { c with stacksGone := c.stacksGone ++ [t], clusters := c.clusters.filter fun e => e.1 / 32 ≠ t }) (reloadsDue t s2)
    match stackMemoryGone t s3 with
    | (s4, pages) =>
      demoteCheck (settle (shapeChanged (record { cause := 0xE, cls := 1, flags := 2, kind := 4, unit := t, c0 := cause, c1 := pages } s4)))

/-- A cluster is absent (R49): its slots leave service, its slice is discarded, and a second absent cluster takes the die
stack (R54). -/
def clusterGone (m c0 : Nat) (s : State) : State :=
  if !(cluster s m).present then s
  else
    let s1 := (clusterSlots m).foldl (fun x n => slotAbsent n x) (record { cause := 0xB, cls := 1, flags := 2, kind := 2, unit := m, c0 := c0 } s)
    let s2 := modCore (fun c => { c with clusters := tabDel c.clusters m }) s1
    if 2 ≤ ((List.range 32).filter fun i => !(cluster s2 (m / 32 * 32 + i)).present).length then stackGone (m / 32) 4 s2
    else shapeChanged s2

/-- The ID of a fenced slot goes to a spare, whose microcode is sent, or becomes vacant. -/
def idMoves (m lid : Nat) (s : State) : State :=
  match spareFor m s with
  | some (k, s1) =>
    modCluster m (fun c => { c with loading := true })
      (modSlot k (fun x => { x with state := 3, lid := some lid, coverTest := false, ended := none }) s1)
  | none =>
    if coresIn s m < 7 then clusterGone m 4 s else shapeChanged (modCluster m (fun c => { c with cores := 7, seven := true }) s)

/-- Fence one slot for a cause of SEQ_CORE_STATUS. -/
def fenceOne (n cause : Nat) (s : State) : State :=
  let c := coreSlot s n
  if c.state = 0 || c.state = 5 || decide (1152 ≤ n) then s
  else
    let s0 := if c.state = 3 then modCluster (n / 9) (fun x => { x with loading := false }) (testDropped n s) else testDropped n s
    let s1 := modSlot n (fun x => { x with state := 5, lid := none, home := none, cause := cause, coverTest := false, ended := none, fenceDue := false }) s0
    let s2 := defectAppend 1 n (record { cause := 6, cls := 1, flags := 2, kind := 1, unit := n, c0 := cause, c1 := c.lid.getD 0xFFFFFFFF } s1)
    if c.state = 4 then
      (match coverOf s n with | some k => modSlot k (fun x => { x with coverTest := false }) s2 | none => s2)
    else match c.lid with
      | none => s2
      | some l =>
        if c.coverTest then
          (match testedBy s n with | some t => testedResumes t s2 | none => idMoves (n / 9) l s2)
        else idMoves (n / 9) l s2

/-! ## Tests at a boundary (R119 to R122, R426, R427) -/

/-- Cores fenced for their corrected errors or for deferral are fenced at the boundary, in slot order. -/
def fencesDue (s : State) : State := (s.core.slots.filter fun e => e.2.fenceDue).foldl (fun t e => fenceOne e.1 3 t) s

/-- Tests that have passed take effect: the slot serves again, and its cover drops its microcode. -/
def testsPassed (s : State) : State :=
  (s.core.slots.filter fun e => e.2.ended.isSome).foldl (fun t e => testedResumes e.1 t) s

/-- Running tests, and whether a cluster runs one. -/
def testsRunning (s : State) : Nat := (s.core.slots.filter fun e => e.2.state = 4).length
def clusterTests (s : State) (m : Nat) : Bool := (clusterSlots m).any fun k => (coreSlot s k).state = 4

/-- A due test waits for a spare. A step boundary at which it waits counts; at the limit it is answered not run, and a
counter-triggered one fences its core (R122, R427). -/
def testWaits (boundary : Bool) (n : Nat) (s : State) : State :=
  let s1 := modSlot n (fun c => { c with testState := 2, deferSteps := min 255 (c.deferSteps + b2n boundary) }) s
  if boundary && (coreSlot s1 n).deferSteps = regField s ERR_TH_TEST_DEFER 7 0 then
    (if (coreSlot s1 n).counted then fenceOne n 3 (testAnswer n 4 s1) else testAnswer n 4 s1)
  else s1

/-- Start the due test of one slot, when the limits and the spare allow it. -/
def testStart (boundary : Bool) (n : Nat) (s : State) : State :=
  let c := coreSlot s n
  let room := decide (testsRunning s < 16) && !clusterTests s (n / 9)
  if c.state = 0 || c.state = 5 then testAnswer n 4 s
  else if c.state = 4 then s
  else if c.state = 2 then
    (if room then modSlot n (fun x => { x with state := 4, testState := 4, deferSteps := 0, testAt := s.tick }) s else s)
  else if c.state = 3 then testWaits boundary n s
  else match (clusterSlots (n / 9)).find? fun k => (coreSlot s k).state = 2 with
    | none => testWaits boundary n s
    | some k =>
      if !room then s
      else
        let s1 := modSlot k (fun x => { x with state := 3, lid := c.lid, coverTest := true }) s
        modCluster (n / 9) (fun x => { x with loading := true })
          (modSlot n (fun x => { x with state := 4, home := c.lid, lid := none, testState := 3, deferSteps := 0 }) s1)

/-- Start due tests in slot order. -/
def testsStart (boundary : Bool) (s : State) : State :=
  (s.core.slots.filter fun e => e.2.testState = 1 || e.2.testState = 2).foldl (fun t e => testStart boundary e.1 t) s

/-- What a step boundary does to cores and their tests; `boundary` is false when no step runs whose boundary could be waited
for (log 134). -/
def coreBoundary (boundary : Bool) (s : State) : State := testsStart boundary (fencesDue (testsPassed s))

/-- With no step running there is no boundary to wait for, and none at which a waiting test counts (log 134). -/
def coresNow (s : State) : State := if s.eng.step.isNone then coreBoundary false s else s

/-- A die stack is fenced; the abort of a running step is a boundary (R119). -/
def stackFence (t cause : Nat) (s : State) : State :=
  if s.eng.step.isSome then
    (let s1 := stackGone t cause s
     if s1.eng.step.isNone then settle (coreBoundary true s1) else s1)
  else stackGone t cause s

/-! ## Core errors (R46, R66, R69, R107, R424) -/

/-- Abort the running step for a fence; the abort counts as a boundary, and what mismatched is repaired at it (R197). -/
def fenceAbort (cyc : Nat) (s : State) : State :=
  if s.eng.step.isNone then s else repairAll (bump SEQ_ABORT_FENCE_CNT 1 (stepAbort cyc s))

/-- Uncorrected errors of one cycle, in ascending slot order: one abort when a struck slot runs step work. -/
def coreUncorrectedErrorFx (now cyc : Nat) (slots : List Nat) (s0 : State) : State :=
  let s := atTick now s0
  let l := (List.range 1152).filter fun n => slots.contains n && (coreSlot s n).state ≠ 0 && (coreSlot s n).state ≠ 5
  if !alive s || l.isEmpty then s
  else
    let s1 := l.foldl (fun t n => record { cause := 2, cls := 1, flags := 2, kind := 1, unit := n, c0 := cyc } t) s
    let s2 := if l.any fun n => runsId s n then testsPassed (fenceAbort cyc s1) else s1
    let s3 := l.foldl (fun t n => fenceOne n 2 t) s2
    if s2.eng.step.isNone then settle (activateBlocked (testsStart s.eng.step.isSome (fencesDue s3))) else s3
def execCoreUncorrectedError (now cyc : Nat) (slots : List Nat) (s : State) : Host.Outcome State Fault Refusal :=
  .next (coreUncorrectedErrorFx now cyc slots s)

/-- A test becomes due on a slot, or the request joins the one that is. -/
def testDue (n : Nat) (counted : Bool) (s : State) : State :=
  modSlot n (fun c => { c with testState := if c.testState = 0 then 1 else c.testState, counted := c.counted || counted }) s

/-- A corrected error of a core: the suspect threshold counts those since its last passed test, the fence threshold all
(R424 to R426). -/
def coreCorrectedErrorFx (n now : Nat) (s0 : State) : State :=
  let s := atTick now s0
  let c := coreSlot s n
  if !alive s || decide (1152 ≤ n) || c.state = 0 || c.state = 5 then s
  else
    let s1 := bump (SEQ_CORE_CE_CNT n) 1 s
    let s2 := record { cause := 1, cls := 0, kind := 1, unit := n, c0 := regGet s1 (SEQ_CORE_CE_CNT n) } s1
    let s3 := modErr (fun e => { e with coreHist := histAdd e.coreHist n (msNow s), coreSince := histAdd e.coreSince n (msNow s) }) s2
    let since := tabGetD s3.err.coreSince n []
    let win := 1000 * regField s ERR_TH_CORE_SUSPECT 27 16
    let s4 :=
      if histReached since (regField s ERR_TH_CORE_SUSPECT 7 0) win then
        testDue n true (record { cause := 4, cls := 0, kind := 1, unit := n, c0 := histCount since (msNow s) win } s3)
      else s3
    let s5 :=
      if histReached (tabGetD s3.err.coreHist n []) (regField s ERR_TH_CORE_FENCE 7 0) (1000 * regField s ERR_TH_CORE_FENCE 27 16) then
        modSlot n (fun x => { x with fenceDue := true }) s4
      else s4
    coresNow s5
def execCoreCorrectedError (slot now : Nat) (s : State) : Host.Outcome State Fault Refusal := .next (coreCorrectedErrorFx slot now s)

/-- A spare's checksum matches: what waits for it may start; an image that differs is sent again (log 81). -/
def spareLoadCompleteFx (m now : Nat) (good : Bool) (s0 : State) : State :=
  let s := atTick now s0
  if !alive s || !good || !(cluster s m).loading then s
  else
    (clusterSlots m).foldl (fun t n => if (coreSlot t n).testState = 3 then modSlot n (fun x => { x with testState := 4, testAt := s.tick }) t else t)
      (modCluster m (fun c => { c with loading := false }) s)
def execSpareLoadComplete (m now : Nat) (checksumMatches : Bool) (s : State) : Host.Outcome State Fault Refusal :=
  .next (spareLoadCompleteFx m now checksumMatches s)

/-- Ticks that the test program runs: 6.0 ms (R121). -/
def testTicks : Nat := usTicks 6000

/-- A test program ends, 6.0 ms after its start (R117, R121). A slot that passed under cover serves again at the next boundary.
Core memory stays as it was: no rule says what the march leaves in it (log 135). -/
def sentinelTestEndFx (n now : Nat) (passed : Bool) (s0 : State) : State :=
  let s := atTick now s0
  let c := coreSlot s n
  if !alive s || c.state ≠ 4 || c.testState ≠ 4 || c.ended.isSome || decide (s.tick < c.testAt + testTicks) then s
  else
    let s1 := testAnswer n (if passed then 1 else 2) (modSlot n (fun x => { x with testsRun := min 255 (x.testsRun + 1) }) s)
    if !passed then fenceOne n 4 s1
    else
      let s2 := modErr (fun e => { e with coreSince := tabDel e.coreSince n }) s1
      if c.home.isNone then modSlot n (fun x => { x with state := 2 }) s2
      else coresNow (modSlot n (fun x => { x with ended := some true }) s2)
def execSentinelTestEnd (slot now : Nat) (passed : Bool) (s : State) : Host.Outcome State Fault Refusal := .next (sentinelTestEndFx slot now passed s)

/-! ## Clusters, lighters, compressors, regions, die stacks (R49 to R54) -/

/-- An uncorrected error in a cluster's sequencer, expander or slice. -/
def clusterUe (m c0 : Nat) (s : State) : State :=
  if !(cluster s m).present then s
  else
    let s1 := clusterGone m c0 (fenceAbort (cyclesSoFar s) s)
    settle (activateBlocked (if s.eng.step.isSome then coreBoundary true s1 else s1))

def partCode : ClusterPart → Nat
  | .sequencer => 1
  | .expander => 2
  | .slice => 3

def clusterUeFx (m now : Nat) (part : ClusterPart) (s0 : State) : State :=
  let s := atTick now s0
  if alive s then clusterUe m (partCode part) s else s
def execClusterUe (m now : Nat) (part : ClusterPart) (s : State) : Host.Outcome State Fault Refusal := .next (clusterUeFx m now part s)

/-- The region whose lighter is the backup of region `r`. -/
def backupOf (r : Nat) : Nat := r / 8 * 8 + (r + 7) % 8

/-- A region without a lighter (R51). -/
def noLighter (s : State) (r : Nat) : Bool := (regionSt s r).lighterFenced && (regionSt s (backupOf r)).lighterFenced

/-- The PAGE.PUT messages in flight whose pages the lighter of region `r` moves: move and target. -/
def lighterPuts (s : State) (r : Nat) : List (Nat × Nat) :=
  s.man.moves.flatMap fun e =>
    if lighterOf s (frameRegion s e.2.frame) = r then
      ((List.range e.2.tgts.length).filter fun h => match e.2.tgts[h]? with | some t => t.st = 1 | none => false).map fun h => (e.1, h)
    else []

/-- What the transport still has of a PAGE.PUT is given up: its message has no open packet, and its frames leave the queues. -/
def putAbandon (m h : Nat) (s : State) : State :=
  match (moveAt s m).bind (·.tgts[h]?) with
  | none => s
  | some t =>
    match (qpOf s t.qp).bind fun q => q.tcsOut.find? fun o => o.what = .move m h with
    | none => s
    | some o =>
      let keep := fun (f : TxFrame) => !(f.qp = t.qp && f.tcs && f.id = o.msgId)
      let s1 := modFab (fun b => { b with ports := b.ports.map fun p => { p with tcs := p.tcs.filter keep } }) s
      let s2 := modShaper t.qp (fun x => { x with frames := x.frames.filter fun f => keep f.2 }) s1
      modQp t.qp (fun q => { q with tcsOut := q.tcsOut.filter fun x => x.msgId ≠ o.msgId }) s2

/-- A page transfer in flight on a fenced lighter starts again, whole, on the backup (R50). -/
def putRestart (e : Nat × Nat) (s : State) : State :=
  sendPut e.1 e.2 (modTgt e.1 e.2 (fun t => { t with st := 0 }) (putAbandon e.1 e.2 s))

/-- A lighter is fenced: its backup takes its queues and starts the transfers in flight again, or regions are lost (R50, R51). -/
def lighterUe (r : Nat) (s : State) : State :=
  if (regionSt s r).lighterFenced || decide (32 ≤ r) then s
  else
    let s1 := modRegion r (fun x => { x with lighterFenced := true }) s
    let s2 := record { cause := 0xC, cls := 1, flags := 2, kind := 3, unit := r, c0 := if noLighter s1 r then 0xFF else backupOf r } s1
    if (List.range 8).any fun g => noLighter s2 (r / 8 * 8 + g) then
      stackFence (r / 8) 2 (modCore (fun c => { c with regions := tabMap c.regions fun k x => if noLighter s2 k then { x with lost := true } else x }) s2)
    else (lighterPuts s r).foldl (fun t e => putRestart e t) s2
def lighterUeFx (region now : Nat) (s0 : State) : State :=
  let s := atTick now s0
  if alive s then lighterUe region s else s
def execLighterUe (region now : Nat) (s : State) : Host.Outcome State Fault Refusal := .next (lighterUeFx region now s)

/-- A compressor is fenced: its region sends raw blocks (R52). -/
def compressorUe (r : Nat) (s : State) : State :=
  if (regionSt s r).compFenced || decide (32 ≤ r) then s
  else record { cause := 0xD, cls := 1, flags := 2, kind := 3, unit := r } (modRegion r (fun x => { x with compFenced := true }) s)
def compressorUeFx (region now : Nat) (s0 : State) : State :=
  let s := atTick now s0
  if alive s then compressorUe region s else s
def execCompressorUe (region now : Nat) (s : State) : Host.Outcome State Fault Refusal := .next (compressorUeFx region now s)

/-- A region's base-network stop fails: the region is lost, and its die stack with it (R53). -/
def regionStopFailFx (region now : Nat) (s0 : State) : State :=
  let s := atTick now s0
  if alive s && decide (region < 32) && !(regionSt s region).lost then
    stackFence (region / 8) 2 (modRegion region (fun x => { x with lost := true }) s)
  else s
def execRegionStopFail (region now : Nat) (s : State) : Host.Outcome State Fault Refusal := .next (regionStopFailFx region now s)

def dieStackFenceFx (stack now : Nat) (cause : StackCause) (s0 : State) : State :=
  let s := atTick now s0
  if alive s then stackFence stack (match cause with | .baseNetwork => 1 | .hbmStack => 3) s else s
def execDieStackFence (stack now : Nat) (cause : StackCause) (s : State) : Host.Outcome State Fault Refusal :=
  .next (dieStackFenceFx stack now cause s)

/-! ## TEST.SENTINEL and TEST.KAT (R118, R324) -/

def rowSentinel : OpRow := ⟨0x60, true, true, false, 0, false⟩

/-- The slot that P0 names: a physical slot, or the one that runs under a logical ID. -/
def sentinelSlot (s : State) (p0 : Nat) : Option Nat :=
  if bit p0 31 then (if bits p0 10 0 < 1152 then some (bits p0 10 0) else none) else slotOfId s (bits p0 10 0)

def sentinelAct (p : Pkt) (s : State) : State :=
  match sentinelSlot s p.p0 with
  | none => fail 0x60 p stFormat s
  | some n =>
    if (coreSlot s n).state = 0 || (coreSlot s n).state = 5 then fail 0x60 p stFormat s
    else coresNow (testDue n false (modSlot n (fun c => { c with waiting := c.waiting ++ [p] }) (pend 0x60 p s)))

def testSentinelFx (p : Pkt) (s : State) : State :=
  receive rowSentinel p (orFormat (paramsZero p true false false false && bits p.p0 30 11 = 0 && decide (p.p0 < 2 ^ 32)) 0x60 p (sentinelAct p)) s
def execTestSentinel (p : Pkt) (s : State) : Host.Outcome State Fault Refusal := .next (testSentinelFx p s)

def rowKat : OpRow := ⟨0x61, true, true, false, 0, false⟩

/-- TEST.KAT: one runs at a time (log 80). A cluster out of service is answered ST_FORMAT. -/
def katAct (p : Pkt) (s : State) : State :=
  if !s.core.kats.isEmpty then fail 0x61 p stBusy s
  else pend 0x61 p (modCore (fun c => { c with kats := [p] }) s)

def testKatFx (p : Pkt) (s : State) : State :=
  receive rowKat p (fun t =>
    orFormat (paramsZero p true false false false && decide (p.p0 < 128) && (p.p0 = 127 || (cluster t p.p0).present)) 0x61 p (katAct p) t) s
def execTestKat (p : Pkt) (s : State) : Host.Outcome State Fault Refusal := .next (testKatFx p s)

end Sys2Proof.Machine
end

