-- ==== Sys2Proof/Machine/Seals.lean ====
section
/-! DEFINITION. Open pages at a step boundary: taking them, tagging their slots, sealing them and log pages, and moving what
leaves the window (R217, R237, R241 to R248). -/

namespace Sys2Proof.Machine

/-! ## Open pages (R237, R243) -/

/-- Slots of page `i` below POS_HELD, overflow slots included (R244). -/
def slotsBelow (s : State) (x : Berth) (i : Nat) : Nat := min (pageP s + 8) (x.prog.posHeld - i * pageP s)

/-- Overflow frames that a manifest's layers need, and its table frames for `n` page indices. -/
def ovfNeed (s : State) (x : Berth) : Nat := divUp x.table.layers (max 1 (pageP s / 8)) - x.table.ovf.length
def tableNeed (x : Berth) (n : Nat) : Nat := tableFrames x.table.layers n - x.table.tables.length

/-- Take the overflow frames and the table frames of a manifest whose page indices are to reach `n`. -/
def growTable (b n : Nat) (s : State) : Option State :=
  match berthAt s b with
  | none => none
  | some x =>
    match takeManFrames b .overflow (ovfNeed s x) s with
    | none => none
    | some (o, s1) =>
      (takeManFrames b .table (tableNeed x n) s1).map fun r =>
        modTable b (fun t => { t with ovf := t.ovf ++ o, tables := t.tables ++ r.1, indices := max t.indices n }) r.2

/-- Copy the overflow slots of a layer, in the four sections of R240, to the first slots of a page, and clear the area (R245). -/
def takeOverflow (area page : Nat) (s : State) : State :=
  let p := max 1 (pageP s)
  let move := fun (t : State) (x : Nat × Nat × Nat) =>
    let n := 8 * x.2.2 / p
    memWrite (page + x.2.1) (memRead t (area + x.1) n) (memTags t (area + x.1) n) t
  memStore area (zeros (ovfBytes p))
    ([(0, 0, 32768), (8 * 32768 / p, 32768, 32768), (8 * 65536 / p, 65536, 6144), (8 * 71680 / p, 71680, 2048)].foldl move s)

/-- The page before index `i` of a layer has been sealed: the overflow slots are those of the new open page. -/
def followsSeal (x : Berth) (i layer : Nat) : Bool := decide (0 < i) && decide (2 ≤ (ptGet x.table (ptIndex x.table (i - 1) layer)).state)

/-- Take the open page of index `i` of a layer, empty but for the overflow slots already in use; none when no frame may be taken. -/
def openNew (b i layer : Nat) (s : State) : Option State :=
  match berthAt s b with
  | none => none
  | some x =>
    let area := ovfPlace s x.table.ovf layer
    let gl := decide (i < globalPages s x.id.shareClass)
    let fr : Frame :=
      { requestId := x.id.requestId, layer := layer, index := i, state := 1, refs := 1, storedLen := 4608, owner := s.dev.deviceId,
        ovfDpa := area, committed := slotsBelow s x i, global := gl }
    (takeFrame (compOf s x) fr s).map fun r =>
      let s1 := modPt b (ptIndex x.table i layer) (fun e => { e with state := 1, desc := r.1, global := gl }) (memStore (frameDpa s r.1) (zeros frameBytes) r.2)
      if 0 < slotsBelow s x i || followsSeal x i layer then takeOverflow area (frameDpa s r.1) s1 else s1

def openAll (b : Nat) : List (Nat × Nat) → State → Option State
  | [], s => some s
  | (l, i) :: t, s => match openNew b i l s with | none => none | some s1 => openAll b t s1

/-- Take the open pages from the one of POS_HELD to the one of position `q`, which a weave's appends reach (log 85). -/
def openReach (b q : Nat) (s : State) : Option State :=
  match berthAt s b with
  | none => none
  | some x =>
    match growTable b (q / max 1 (pageP s) + 1) s with
    | none => none
    | some s1 => openAll b (pagesMissing x (openIndex s x) (q / max 1 (pageP s))) s1

/-- A row that stalled for want of a frame goes on once its open pages, and a log page, can be had (R217, R246). -/
def unstall (b : Nat) (s : State) : State :=
  match berthAt s b with
  | none => s
  | some x =>
    if !x.stalled then s
    else
      match openReach b x.prog.posHeld s with
      | none => s
      | some s1 =>
        if logPagesShort x (x.prog.logLen + 1) = 0 || framesAllowed s1 (compOf s x) 1 then modBerth b (fun y => { y with stalled := false }) s1 else s1

/-! ## Tags (R244) -/

/-- After a commit every slot below POS_HELD is COMMITTED and the slots above it are EMPTY. -/
def commitSlots (b : Nat) (s : State) : State :=
  match berthAt s b with
  | none => s
  | some x =>
    (tablePages x).foldl (fun t f =>
      match frameAt t f with
      | none => t
      | some y =>
        if y.state ≠ 1 then t
        else
          let c := slotsBelow s x y.index
          bump LGT_ROLLBACK_CNT (y.spec - (c - y.committed)) (modFrame f (fun y => { y with committed := c, spec := 0 }) t)) s

/-- Whether bytes at a DPA fall into an open page or its overflow area. -/
def writeMeets (s : State) (f a n : Nat) (y : Frame) : Bool :=
  (decide (a < frameDpa s f + frameBytes) && decide (frameDpa s f < a + n)) ||
    (decide (a < y.ovfDpa + ovfBytes (pageP s)) && decide (y.ovfDpa < a + n))

/-- The open pages of a manifest that a step appended to hold `n` SPECULATIVE slots. -/
def specSlotsSet (b n : Nat) (writes : List (Nat × Nat)) (s : State) : State :=
  match berthAt s b with
  | none => s
  | some x =>
    (tablePages x).foldl (fun t f =>
      modFrame f (fun y => if y.state = 1 && (writes.any fun w => writeMeets s f w.1 w.2 y) then { y with spec := n } else y) t) s

/-! ## Sealing (R241, R245, R246) -/

/-- The ID of the next page to seal. -/
def pageIdNow (s : State) : Nat := 2 ^ 52 * s.dev.deviceId + 2 ^ 44 * s.man.gen + s.man.serial

/-- A seal takes its serial; none once serials have run out, which stops every later seal. -/
def takeSerial (s : State) : Option State :=
  if s.man.sealStop || decide (0xFFFFFFFFFFF < s.man.serial) then none else some (modMan (fun m => { m with serial := m.serial + 1 }) s)

def serialsOut (s : State) : State :=
  if s.man.sealStop then s else restrictEnter 4 (modMan (fun m => { m with sealStop := true }) s)

/-- Seal a frame under the next ID. -/
def sealAs (f : Nat) (s : State) : Option State :=
  (takeSerial s).map fun s1 =>
    bump LGT_SEALED_CNT 1 (modFrame f (fun y =>
      { y with pageId := pageIdNow s, state := 2, crc := crc32c (memRead s (frameDpa s f) frameBytes), storedLen := 4608, committed := 0, spec := 0, ovfDpa := 0 }) s1)

/-- Seal one open page and open the next of its layer; without a frame the rows stall. -/
def sealOne (b e f : Nat) (s : State) : State :=
  match sealAs f s with
  | none => serialsOut s
  | some s1 =>
    let s2 := modPt b e (fun t => { t with state := 2, pageId := pageIdNow s }) s1
    match berthAt s2 b with
    | none => s2
    | some x =>
      let l := e % max 1 x.table.layers
      let i := e / max 1 x.table.layers + 1
      if (ptGet x.table (ptIndex x.table i l)).state ≠ 0 then s2
      else
        match (growTable b (i + 1) s2).bind (openNew b i l) with
        | some s3 => s3
        | none => rowStalled b s2

/-- Open pages of a manifest whose slots 0 to P - 1 are all COMMITTED, by layer and index: page-table entry and frame. -/
def sealsDue (s : State) (x : Berth) : List (Nat × Nat) :=
  (List.range x.table.layers).flatMap fun l =>
    (x.table.entries.filter fun e => e.1 % max 1 x.table.layers = l && e.2.state = 1 &&
      (match frameAt s e.2.desc with | some y => decide (pageP s ≤ y.committed) | none => false)).map fun e => (e.1, e.2.desc)

/-- Full log pages that have not been sealed. -/
def logSeals (x : Berth) : List Nat := (x.table.logFrames.take (x.prog.logLen / logPageTokens)).drop x.table.logIds.length

/-- Seal what is due of one manifest: KV pages, then its log page. -/
def sealBerth (b : Nat) (s : State) : State :=
  match berthAt s b with
  | none => s
  | some x =>
    let s1 := (sealsDue s x).foldl (fun t e => sealOne b e.1 e.2 t) s
    (logSeals x).foldl (fun t f =>
      match sealAs f t with
      | none => serialsOut t
      | some u => modTable b (fun y => { y with logIds := y.logIds ++ [pageIdNow t] }) u) s1

/-- Every seal of a boundary, in ascending berth number. -/
def sealAll (s : State) : State := s.man.berths.foldl (fun t e => sealBerth e.1 t) s

/-! ## Leaving the window (R248) -/

/-- Frames of the pages that are to move to the holders: sealed, below the window start, and within the range of a rebuild. -/
def windowDue (s : State) (x : Berth) : List Nat :=
  (x.table.entries.filter fun e =>
    let i := e.1 / max 1 x.table.layers
    e.2.state = 2 && decide (i < windowStart s x) && !(s.man.moves.any fun m => m.2.frame = e.2.desc) &&
      inRange x i).map fun e => e.2.desc

/-- Start the moves of one manifest. -/
def windowBerth (b : Nat) (s : State) : State :=
  match berthAt s b with
  | none => s
  | some x =>
    if 2 ≤ x.prog.state && x.prog.state ≤ 4 then
      (windowDue s x).foldl (fun t f =>
        startMove f .window (some b) (compOf s x) (if x.id.cacheMir = 0xFFF then [x.id.cachePri] else [x.id.cachePri, x.id.cacheMir]) t) s
    else s

def windowAll (s : State) : State := s.man.berths.foldl (fun t e => windowBerth e.1 t) s

end Sys2Proof.Machine
end

