-- ==== Sys2Proof/Machine/Weaves.lean ====
section
/-! DEFINITION. Weaves: candidates, their tags, which rows a weave takes, pre-emption for frames, and the published batch
descriptor (R147, R148, R259, R290, R292, R297, R408 to R412). -/

namespace Sys2Proof.Machine

/-! ## Candidates (R409, R410) -/

/-- Positions of a prompt still to be prefilled. -/
def prefillLeft (x : Berth) : Nat := x.target - 1 - x.prog.posHeld

/-- A manifest has live rows in a run in progress, or in one that awaits its verdicts. -/
def inRun (s : State) (mid : Nat) : Bool := s.eng.runs.any fun e => e.2.batch.rows.any fun r => rowLive r && r.mid = mid

/-- The pinned version has a READY resident copy, or the request has no withy. -/
def withyReady (s : State) (x : Berth) : Bool :=
  x.id.withyId = 0xFFFFF || s.tier.wslots.any fun e => e.2.state = 2 && e.2.ver = withyKey x.id.withyId x.id.withyVer

/-- The conditions of R409 but for the withy and for frames. -/
def mayWeave (s : State) (b : Nat) (x : Berth) : Bool :=
  !x.prog.fenced && !x.prog.cancel && !inRun s (midOf s b) &&
    (if s.dev.personality = 1 then x.prog.state = 2 && 0 < prefillLeft x else s.dev.personality = 2 && x.prog.state = 4)

/-- The conditions of R409 but for frames: a row that stalled counts in what the next weave needs (R217, R259). -/
def wantsWeave (s : State) (b : Nat) (x : Berth) : Bool := mayWeave s b x && withyReady s x

def isCandidate (s : State) (b : Nat) (x : Berth) : Bool := wantsWeave s b x && !x.stalled

/-- A manifest that becomes a candidate takes at least the smallest tag of its composition's last weave (R410). -/
def tagCandidates (s : State) : State :=
  s.man.berths.foldl (fun t e =>
    let c := isCandidate s e.1 e.2
    modBerth e.1 (fun x =>
      { x with wasCand := c, candAt := if c then some (x.candAt.getD s.tick) else none, tagT := if c && !x.wasCand then max x.tagT (tabGetD s.eng.lastMin (compOf s x) 0) else x.tagT }) t) s

/-- A promotion that a row waits for starts. -/
def promoteBerth (s : State) (e : Nat × Berth) : State :=
  promote (compOf s e.2) (withyKey e.2.id.withyId e.2.id.withyVer) s

def tagBefore (a b : Nat × Berth) : Bool := decide (a.2.tagT < b.2.tagT) || (a.2.tagT = b.2.tagT && decide (a.1 < b.1))

def tagInsert (a : Nat × Berth) : List (Nat × Berth) → List (Nat × Berth)
  | [] => [a]
  | b :: t => if tagBefore a b then a :: b :: t else b :: tagInsert a t

/-- Berths in ascending T, then ascending number. -/
def byTag (l : List (Nat × Berth)) : List (Nat × Berth) := l.foldl (fun t a => tagInsert a t) []

/-- Every promotion that some row waits for starts, in the order of the rows' tags (R290). -/
def promoteRows (s : State) : State :=
  (byTag (s.man.berths.filter fun e => mayWeave s e.1 e.2 && !withyReady s e.2)).foldl promoteBerth s

/-- At a boundary, one at which a row's version still waits for a slot is counted (R290). -/
def promoteAll (s : State) : State :=
  let s1 := promoteRows s
  let waits := fun (e : Nat × Berth) => mayWeave s e.1 e.2 && !withyReady s e.2 &&
    !(s1.tier.wslots.any fun w => w.2.ver = withyKey e.2.id.withyId e.2.id.withyVer)
  if s.man.berths.any waits then bump WTH_PROMOTE_WAIT 1 s1 else s1

/-- Candidates of a composition, in the order in which a weave considers them. -/
def candidates (s : State) (comp : Nat) : List (Nat × Berth) :=
  byTag (s.man.berths.filter fun e => compOf s e.2 = comp && isCandidate s e.1 e.2)

/-! ## Which rows a weave takes (R147, R410) -/

/-- What a weave takes of a candidate: its rows, padding positions of a chunk included; the live ones among them; and whether
its waiting draft is applied, or is cut for want of rows. -/
structure Pick where
  berth : Nat
  rows : Nat
  live : Nat
  draft : Bool
  cut : Bool
deriving DecidableEq, Repr

/-- The waiting draft of a request whose token is to begin applies when its BASE is LOG_LEN (R297). -/
def draftNow (x : Berth) : Option (List Nat) :=
  match x.draft with
  | some (p, l) => if p.p0 = x.prog.logLen then some l else none
  | none => none

/-- The chunk that a prompt of `r` positions contributes. -/
def chunkOf (r : Nat) : Nat := if r ≤ 256 then 256 else if r ≤ 512 then 512 else 1024

/-- The largest row bucket of a set, in rows. -/
def largestBucket (img : Bytes) : Nat := ((List.range (tblPrograms img)).map fun i => bucketRows (dirBucket (tblDirRec img i))).foldl max 0

/-- The program of the smallest row bucket that holds `n` rows. -/
def programFor (img : Bytes) (n : Nat) : Option Bytes :=
  (((List.range (tblPrograms img)).map (tblDirRec img)).filter fun r => decide (n ≤ bucketRows (dirBucket r))).foldl
    (fun (b : Option Bytes) r => match b with | none => some r | some q => if dirBucket r < dirBucket q then some r else b) none

/-- A weave as it is being filled. -/
structure Filling where
  picks : List Pick := []
  tokens : Nat := 0
  live : Nat := 0
  vers : List Nat := []
deriving DecidableEq, Repr

/-- The version that a row needs, none without a withy. -/
def versOf (x : Berth) : List Nat := if x.id.withyId = 0xFFFFF then [] else [withyKey x.id.withyId x.id.withyVer]

/-- Take a candidate unless it would break a limit. -/
def fill (s : State) (cap : Nat) (w : Filling) (e : Nat × Berth) : Filling :=
  let vers := (w.vers ++ versOf e.2).eraseDups
  let fits := fun tok n => decide (w.tokens + tok ≤ 1024) && decide (w.live + n ≤ min 4096 cap) && decide (vers.length ≤ 64)
  let add := fun (k : Pick) tok => { w with picks := w.picks ++ [k], tokens := w.tokens + tok, live := w.live + k.rows, vers := vers }
  if s.dev.personality = 1 then
    let n := chunkOf (prefillLeft e.2)
    if fits 0 n then add ⟨e.1, n, min n (prefillLeft e.2), false, false⟩ 0 else w
  else
    match draftNow e.2 with
    | some d =>
      if fits (1 + d.length) (1 + d.length) then add ⟨e.1, 1 + d.length, 1 + d.length, true, false⟩ (1 + d.length)
      else if fits 1 1 then add ⟨e.1, 1, 1, false, true⟩ 1 else w
    | none => if fits 1 1 then add ⟨e.1, 1, 1, false, false⟩ 1 else w

/-- The rows that a weave filled from a list of requests takes. -/
def picksFrom (s : State) (l : List (Nat × Berth)) : List Pick :=
  match activeSlot s with
  | none => []
  | some n => (l.foldl (fill s (largestBucket (tblSlot s n).image)) {}).picks

/-- The rows that the next weave of a composition would take. -/
def weavePicks (s : State) (comp : Nat) : List Pick := picksFrom s (candidates s comp)

/-- The rows that the next weave of a composition would take if no row stalled for want of a frame. -/
def weaveWants (s : State) (comp : Nat) : List Pick :=
  picksFrom s (byTag (s.man.berths.filter fun e => compOf s e.2 = comp && wantsWeave s e.1 e.2))

/-! ## Pre-emption (R259) -/

/-- The last position that a pick's rows append. -/
def lastPos (x : Berth) (k : Pick) : Nat := x.prog.posHeld + (k.live - 1)

/-- Frames that a pick may need before its results are sealed: missing pages, the pages that open at its seals, table and
overflow frames, and a log page. -/
def pickNeed (s : State) (k : Pick) : Nat :=
  match berthAt s k.berth with
  | none => 0
  | some x =>
    let p := max 1 (pageP s)
    let last := (lastPos x k + 1) / p
    (pagesMissing x (openIndex s x) last).length + tableNeed x (last + 1) + ovfNeed s x +
      (if s.dev.personality = 2 then logPagesShort x (x.prog.logLen + k.live) else 0)

/-- Frames that swap-outs in progress will free. -/
def framesComing (s : State) : Nat :=
  (s.man.berths.map fun e => if e.2.swapOut then (match e.2.snap with | some q => q.frames | none => 0) else 0).sum

/-- Share weight and local frames by which R259 takes requests. -/
def preemptBefore (s : State) (a b : Nat × Berth) : Bool :=
  let wa := weightOf (classRec s a.2.id.shareClass) a.2
  let wb := weightOf (classRec s b.2.id.shareClass) b.2
  let fa := (tablePages a.2).length + (tableOwn a.2).length
  let fb := (tablePages b.2).length + (tableOwn b.2).length
  decide (wa < wb) || (wa = wb && (decide (fb < fa) || (fa = fb && decide (b.1 < a.1))))

/-- The manifest to pre-empt next for a weave of a composition (R259, R401). -/
def preemptNext (s : State) (comp : Nat) : Option Nat :=
  ((s.man.berths.filter fun e =>
    e.2.prog.state = 4 && e.2.prog.specDepth = 0 && !inRun s (midOf s e.1) &&
      (compOf s e.2 = comp || decide ((compRec s (compOf s e.2)).frameRsv < framesHeld s (compOf s e.2)))).foldl
    (fun (b : Option (Nat × Berth)) e => match b with | none => some e | some q => if preemptBefore s e q then some e else b) none).map (·.1)

/-- Pre-empt until the weave, stalled rows included, fits the frames that are free or coming; `fuel` bounds the manifests. -/
def preemptFor (comp : Nat) : Nat → State → State
  | 0, s => s
  | fuel + 1, s =>
    if ((weaveWants s comp).map (pickNeed s)).sum ≤ framesFree s + framesComing s then s
    else match preemptNext s comp with | none => s | some b => preemptFor comp fuel (preempt b s)

/-! ## Rows (R148, R265, R267, R412) -/

/-- Positions of pages that a row at `q` attends to and that the device folds for it in one layer. -/
def localSpan (s : State) (x : Berth) (q layer : Nat) : Nat :=
  let p := max 1 (pageP s)
  let c := classRec s x.id.shareClass
  (((List.range (q / p + 1)).filter fun i =>
    pageAdmitted c.attWindow c.attGlobal p q i &&
      (decide (openIndex s x ≤ i) || (ptGet x.table (ptIndex x.table i layer)).desc ≠ 0xFFFFFFFF)).map
    fun i => if i = q / p then q % p + 1 else p).sum

/-- Context bucket of a row: the smallest that holds its local positions, of the layer with the most (log 83). -/
def ctxOf (s : State) (x : Berth) (q : Nat) : Nat :=
  let n := ((List.range x.table.layers).map (localSpan s x q)).foldl max 0
  ((List.range 9).find? fun k => decide (n ≤ 1024 * 2 ^ k)).getD 8

/-- Row records of a pick, padding positions left out. -/
def pickRows (s : State) (k : Pick) : List RowRec :=
  match berthAt s k.berth with
  | none => []
  | some x =>
    let q := x.prog.posHeld
    if s.dev.personality = 1 then
      let c := ctxOf s x (q + (k.live - 1))
      (List.range k.live).map fun j => ⟨midOf s k.berth, q + j, x.log.getD (q + j) 0, 2, c, false⟩
    else
      let d := if k.draft then (draftNow x).getD [] else []
      (List.range k.live).map fun j =>
        ⟨midOf s k.berth, q + j, if j = 0 then x.log.getD q 0 else d.getD (j - 1) 0, if j = 0 then 0 else 1, ctxOf s x (q + j), false⟩

def rowBefore (a b : RowRec) : Bool := decide (a.ctx < b.ctx) || (a.ctx = b.ctx && decide (a.mid < b.mid))

def rowInsert (a : RowRec) : List RowRec → List RowRec
  | [] => [a]
  | b :: t => if rowBefore a b then a :: b :: t else b :: rowInsert a t

/-- Rows in ascending context bucket, then MANIFEST_ID, a manifest's rows in ascending position (R148). -/
def orderRows (l : List RowRec) : List RowRec := l.foldl (fun t a => rowInsert a t) []

def padRow : RowRec := ⟨0xFFFFFFFF, 0, 0, 3, 0, false⟩

/-! ## The withy part (R292) -/

/-- Version of a row, and its resident slot. -/
def rowVersion (s : State) (r : RowRec) : Option Nat :=
  if r.kind = 3 then none else ((berthNamed s r.mid).bind (berthAt s)).bind fun x => (versOf x).head?

def versionSlot (s : State) (key : Nat) : Nat :=
  match s.tier.wslots.find? fun e => e.2.state = 2 && e.2.ver = key with | some e => e.1 | none => 0xFFFF

/-- The segments of a weave whose rows need the versions `vs`: for each version its list entry, key and rows. -/
def segments (vs : List (Option Nat)) : List (Nat × Nat × List Nat) :=
  let keys := ((vs.filterMap id).eraseDups).foldl (fun l k => (l.filter (· < k)) ++ [k] ++ l.filter (k < ·)) []
  (List.range keys.length).map fun i =>
    (i, keys.getD i 0, (List.range vs.length).filter fun j => vs.getD j none = some (keys.getD i 0))

structure WithyPart where
  slots : List Nat
  fwd : List Nat
  inv : List Nat
  bind : List Nat
  alpha : List Nat
deriving DecidableEq, Repr

/-- Lay the segments out, each from a multiple of 64. -/
def withyPart (s : State) (vs : List (Option Nat)) : WithyPart :=
  let c := vs.length + 4032
  let seg := segments vs
  let pad := fun (l : List (Option Nat)) => l ++ List.replicate (divUp l.length 64 * 64 - l.length) none
  let gathered : List (Option Nat) := seg.flatMap fun g => pad (g.2.2.map some)
  let tiles := seg.flatMap fun g => List.replicate (divUp g.2.2.length 64) g
  let alphaOf := fun (key : Nat) => match withyHeld s key with | some v => v.alpha | none => 0
  { slots := seg.map fun g => versionSlot s g.2.1
    fwd := (List.range c).map fun k => ((gathered[k]?).getD none).getD 0
    inv := (List.range vs.length).map fun i => ((List.range gathered.length).find? fun k => gathered[k]? = some (some i)).getD c
    bind := (List.range (c / 64)).map fun t => match tiles[t]? with | some g => g.1 | none => 0xFF
    alpha := (List.range (c / 64)).map fun t => match tiles[t]? with | some g => alphaOf g.2.1 | none => 0 }

/-! ## Building and publishing (R408, R409, R412) -/

/-- Slot records as the harbourmaster binds them (log 27). -/
def slotsBound (program stepSeq : Nat) (mids : List Nat) : List SlotRec :=
  (Config.slotRecs program stepSeq mids).map fun x => ⟨x.1, x.2.1, x.2.2.1, x.2.2.2.1, x.2.2.2.2.1, x.2.2.2.2.2⟩

/-- The frames of a pick are taken; a pick that cannot have them stalls (R217, R246). -/
def prepare (s : State) (k : Pick) : State :=
  match berthAt s k.berth with
  | none => s
  | some x =>
    match openReach k.berth (if s.dev.personality = 1 then lastPos x k else x.prog.posHeld) s with
    | some s1 => s1
    | none => rowStalled k.berth s

/-- A draft is applied, or discarded for want of rows; a token without a draft makes one position speculative while it runs
(R219, R297, R410). -/
def beginToken (s : State) (k : Pick) : State :=
  match berthAt s k.berth with
  | none => s
  | some x =>
    if s.dev.personality = 1 then s
    else
      let set := fun (d : List Nat) => modBerth k.berth fun y => { y with drafts := d, prog := { y.prog with specDepth := d.length + 1 } }
      if k.draft then
        match x.draft with
        | none => s
        | some (p, l) =>
          let s1 := set l (modBerth k.berth (fun y => { y with draft := none }) s)
          ok 0x28 p 0 (bump SPEC_DRAFTED_CNT l.length
            (modCnt k.berth (fun c => { c with drafted := min (c.drafted + l.length) 0xFFFFFFFF }) s1))
      else if k.cut then set [] (bump SCH_DRAFT_CUT_CNT 1 (wasteDraft k.berth s))
      else set [] s

/-- Count the rows that a weave takes by share class. -/
def countRows (s : State) (k : Pick) : State :=
  match berthAt s k.berth with | some x => bump (SCH_CLS_ROWS x.id.shareClass) k.rows s | none => s

/-- Publish a weave of the picks (R412). -/
def publish (comp slot : Nat) (picks : List Pick) (s : State) : State :=
  let img := (tblSlot s slot).image
  let live := (picks.map (·.rows)).sum
  match programFor img live with
  | none => s
  | some r =>
    let rows := orderRows (picks.flatMap (pickRows s))
    let all := rows ++ List.replicate (bucketRows (dirBucket r) - rows.length) padRow
    let w := withyPart s (all.map (rowVersion s))
    let bt : Batch :=
      { stepSeq := s.eng.seq, programId := dirProgram r, steps := dirSteps r, bucket := dirBucket r, liveRows := live,
        tokenRows := (rows.filter fun x => x.kind ≤ 1).length, comp := comp, setSlot := slot, rows := all,
        slots := slotsBound (dirProgram r) s.eng.seq ((rows.map (·.mid)).eraseDups),
        withies := w.slots, fwd := w.fwd, inv := w.inv, bind := w.bind, alpha := w.alpha }
    let tags := picks.map fun k => match berthAt s k.berth with | some x => x.tagT | none => 0
    let low := tags.foldl min (tags.headD 0)
    let run : Run :=
      { batch := bt, step := 0, held := [], heldNow := [], pass := [], passNow := [], readNow := [], samples := [], lost := [],
        suspectNow := false, drift := none, suspects := [], allSuspect := false, losses := 0, wdogOnce := false, poisons := 0,
        replay := false, ended := false, minTag := low }
    let s1 := picks.foldl countRows (picks.foldl beginToken s)
    let s2 := w.slots.foldl (fun t n => modWslot n (fun x => { x with woven := s.eng.weaves + 1 }) t) s1
    bump SCH_WEAVES_CNT 1 (modSched (fun d => { d with classesWoven := d.classes }) (modEng (fun e =>
      { e with seq := (e.seq + dirSteps r) % 2 ^ 32, weaves := e.weaves + 1, runs := tabPut e.runs comp run,
               lastMin := tabSet e.lastMin comp low 0 }) s2))

/-- Runs in progress. -/
def runsLive (s : State) : Nat := (s.eng.runs.filter fun e => !e.2.ended).length

/-- Whether a composition may start a run (R402, R405, R407, R408). -/
def compServed (s : State) (comp : Nat) : Bool := (tabGet s.sched.map comp).isSome && !s.sched.fenced.contains comp

def mayStartRun (s : State) (comp : Nat) : Bool :=
  compServed s comp && (tabGet s.eng.runs comp).isNone && decide (runsLive s < 16) && s.tier.pendAct.isNone && (activeSlot s).isSome

/-- Build the next weave of a composition that has no run in progress. -/
def buildWeave (comp : Nat) (s : State) : State :=
  if !mayStartRun s comp then s
  else
    let s1 := if s.dev.personality = 2 then preemptFor comp (s.man.berths.length + 1) s else s
    let picks := weavePicks s1 comp
    let s2 := picks.foldl prepare s1
    let kept := picks.filter fun k => match berthAt s2 k.berth with | some x => !x.stalled | none => false
    match kept, activeSlot s2 with
    | _ :: _, some n => publish comp n kept s2
    | _, _ => s2

/-- A composition whose every row stalls has no weave to build; what its rows need still pre-empts (R217, R259). -/
def preemptStalled (s : State) : State :=
  (s.sched.map.map (·.1)).foldl (fun t c =>
    if t.dev.personality = 2 && mayStartRun t c && (weavePicks t c).isEmpty then preemptFor c (t.man.berths.length + 1) t else t) s

/-! ## The choice of a composition (R407) -/

/-- A manifest of a run's last step will have rows to weave after it. -/
def rejoins (s : State) (r : Run) (mid : Nat) : Bool :=
  match (berthNamed s mid).bind (berthAt s) with
  | none => false
  | some x =>
    !x.prog.fenced && !x.prog.cancel &&
      (if s.dev.personality = 1 then
         x.prog.state = 2 && decide ((r.batch.rows.filter fun y => rowLive y && y.mid = mid).length < prefillLeft x)
       else x.prog.state = 4)

/-- The step of a composition's run is the one that is running. -/
def isRunning (s : State) (comp : Nat) : Bool := match s.eng.step with | some x => x.what = .run comp | none => false

/-- A composition has a ready step: the next step of its run, or a weave to begin, which follows a running last step with the
manifests that are expected to go on (log 86). -/
def hasReady (s : State) (comp : Nat) : Bool :=
  compServed s comp &&
    (match tabGet s.eng.runs comp with
     | some r =>
       if isRunning s comp then
         decide (r.step + 1 < r.batch.steps) ||
           (s.tier.pendAct.isNone && ((rowMids r.batch).any (rejoins s r) || !(weavePicks s comp).isEmpty))
       else decide (r.step < r.batch.steps)
     | none => mayStartRun s comp && !(weavePicks s comp).isEmpty)

def creditOf (s : State) (comp : Nat) : Int := tabGetD s.sched.credit comp 0
def setCredit (comp : Nat) (v : Int) (s : State) : State := modSched (fun d => { d with credit := tabSet d.credit comp v 0 }) s

/-- Cycles of one slice of a composition. -/
def quantum (s : State) (comp : Nat) : Int := (1350000 * tabGetD s.sched.map comp 0 : Nat)

/-- Compositions that a turn can meet: those with a ready step, and those that hold credit. -/
def turnsOf (s : State) (ready : List Nat) : List Nat :=
  ((s.sched.credit.filter fun e => 0 < e.2).map (·.1) ++ ready).eraseDups

/-- The numbers of a list that follow `c` in ring order, nearest first. -/
def ringAfter (c : Nat) (l : List Nat) : List Nat :=
  let key := fun k => (k + 4096 - (c + 1)) % 4096
  l.foldl (fun t a => (t.takeWhile fun b => decide (key b < key a)) ++ [a] ++ t.dropWhile fun b => decide (key b < key a)) []

/-- One turn: the composition takes its quantum and is chosen, or is passed over. -/
def turn (ready : List Nat) (r : Option Nat × State) (k : Nat) : Option Nat × State :=
  match r.1 with
  | some _ => r
  | none =>
    if !ready.contains k then (none, if 0 < creditOf r.2 k then setCredit k 0 r.2 else r.2)
    else
      let v := creditOf r.2 k + quantum r.2 k
      let s1 := setCredit k v r.2
      if 0 < v then (some k, s1) else (none, bump SCH_SKIP_TURNS_CNT 1 s1)

/-- Whole rounds of the ring; `fuel` bounds them. -/
def turns (ready order : List Nat) : Nat → Option Nat × State → Option Nat × State
  | 0, r => r
  | fuel + 1, r => match r.1 with | some _ => r | none => turns ready order fuel (order.foldl (turn ready) r)

/-- Rounds after which some ready composition has credit: a quantum is at least 1,350,000 cycles. -/
def roundsFor (s : State) (ready : List Nat) : Nat := ((ready.map fun k => (0 - creditOf s k).toNat / 1350000 + 2).foldl max 1)

/-- Choose the composition that follows `c`, among those that are ready. -/
def chooseNext (c : Nat) (ready : List Nat) (s : State) : Option Nat × State :=
  if ready.contains c && decide (0 < creditOf s c) then (some c, s)
  else if ready.isEmpty then (none, s)
  else turns ready (ringAfter c (turnsOf s ready)) (roundsFor s ready) (none, s)

/-- Compositions with a ready step. -/
def readyComps (s : State) : List Nat := (s.sched.map.map (·.1)).filter (hasReady s)

end Sys2Proof.Machine
end

