-- ==== Sys2Proof/Machine/Commit.lean ====
section
/-! DEFINITION. What a run's results do: HELD writes, acceptance of drafts, stop conditions, the log, release, and the end of a
prefill chunk (R138, R219, R220, R226, R227, R244, R298 to R304, R411). -/

namespace Sys2Proof.Machine

/-! ## HELD writes (R138, R411, R412) -/

/-- A write without the bytes from `lo` to `hi`. -/
def cutRange (lo hi : Nat) (d : SlotData) : List SlotData :=
  let e := d.off + d.bytes.length
  let piece := fun (a b : Nat) =>
    if a < b then [({ d with off := a, bytes := (d.bytes.drop (a - d.off)).take (b - a), tags := (d.tags.drop (a - d.off)).take (b - a) } : SlotData)] else []
  if hi ≤ d.off || e ≤ lo then [d] else piece d.off (min e lo) ++ piece (max d.off hi) e

/-- A coded write whose bytes from `lo` to `hi` are discarded: zeros stand for them in its container (log 22). -/
def blankRange (lo hi : Nat) (d : SlotData) : SlotData :=
  let out := fun (i : Nat) => decide (lo ≤ d.off + i) && decide (d.off + i < hi)
  let clear := fun {α : Type} (z : α) (l : List α) => ((List.range l.length).zip l).map fun x => if out x.1 then z else x.2
  { d with bytes := clear 0 d.bytes, tags := clear 0 d.tags }

/-- Slot data without the shares of some rows of the weave. -/
def withoutRows (bt : Batch) (rows : List Nat) (l : List SlotData) : List SlotData :=
  rows.foldl (fun t i => t.flatMap fun d =>
    let sh := Config.rowShare (slotRec bt d.slot).len bt.bucket i
    if d.coded.isSome then [blankRange sh.1 (sh.1 + sh.2) d] else cutRange sh.1 (sh.1 + sh.2) d) l

/-- Rows whose outputs are discarded: the padding of the bucket and the rows turned into padding (R102, R411). -/
def silentRows (bt : Batch) : List Nat := (List.range bt.rows.length).filter fun i => match bt.rows[i]? with | some r => !rowLive r | none => false

/-- Write HELD data to what its slot is bound to, a SEND's coded data as its container (R182). An offset of TIER 2 counts from the base
of the lowest enabled host window (log 87). -/
def heldWrite (bt : Batch) (s : State) (d : SlotData) : State :=
  let sr := slotRec bt d.slot
  let b := slotContainer d
  let a := sr.addr + d.off
  if sr.tier = 2 then
    (match (List.range 16).find? fun n => winEnabled s n with
     | some n =>
       if a + b.length ≤ regGet s (MEM_HOSTWIN_LEN n) then emit (.hostWrite 0 (regGet s (MEM_HOSTWIN_BASE n) + a) b) s else s
     | none => s)
  else if dpaMapped a && dpaMapped (a + b.length - 1) then
    let apart := fun (e : Nat × Nat) => decide (e.1 + e.2 ≤ a) || decide (a + b.length ≤ e.1)
    let kept := fun (l : Tab Nat) => l.filter apart
    modTier (fun t => { t with coded := if d.coded.isSome then tabPut (kept t.coded) a b.length else kept t.coded })
      (memWrite a b (if d.coded.isSome then containerTags b d.tags else d.tags) s)
  else s

/-- Release HELD writes, oldest first, without the outputs of padding rows. -/
def heldRelease (bt : Batch) (l : List SlotData) (s : State) : State := (withoutRows bt (silentRows bt) l.reverse).foldl (heldWrite bt) s

/-- DPAs and lengths of HELD writes. -/
def heldPlaces (bt : Batch) (l : List SlotData) : List (Nat × Nat) :=
  l.filterMap fun d => let sr := slotRec bt d.slot; if sr.tier = 2 then none else some (sr.addr + d.off, d.bytes.length)

/-- The open pages that HELD writes append to hold the SPECULATIVE slots of their requests (R244). -/
def markSpec (bt : Batch) (l : List SlotData) (s : State) : State :=
  (rowMids bt).foldl (fun t m =>
    match berthNamed t m with
    | none => t
    | some b =>
      match berthAt t b with
      | some x => if x.prog.state = 4 then specSlotsSet b x.prog.specDepth (heldPlaces bt l) t else t
      | none => t) s

/-! ## Rows that leave (R411) -/

/-- A manifest's rows stay in its run. -/
def rowStays (s : State) (mid : Nat) : Bool :=
  match (berthNamed s mid).bind (berthAt s) with
  | none => false
  | some x => !x.prog.fenced && (x.prog.state = 2 || x.prog.state = 4)

/-- Rows of a batch whose manifests have left. -/
def rowsLeaving (s : State) (bt : Batch) : List Nat :=
  (liveIdx bt).filter fun i => match bt.rows[i]? with | some r => !rowStays s r.mid | none => false

def turnBatch (l : List Nat) (bt : Batch) : Batch :=
  { bt with rows := (List.range bt.rows.length).map fun i => let r := bt.rows.getD i padRow; if l.contains i then { r with turned := true } else r }

/-- Turn the rows of every manifest that has left its run into padding; one that stays GENERATING begins its token again. -/
def turnRun (k : Nat) (s : State) : State :=
  match tabGet s.eng.runs k with
  | none => s
  | some r =>
    let l := rowsLeaving s r.batch
    if l.isEmpty then s
    else
      let mids := (l.filterMap fun i => (r.batch.rows[i]?).map (·.mid)).eraseDups
      let s1 := bump SCH_PAD_ROWS l.length (modEng (fun e => { e with runs := tabMod e.runs k fun r => { r with batch := turnBatch l r.batch } }) s)
      mids.foldl (fun t m =>
        match berthNamed t m with
        | some b => if ((berthAt t b).getD {}).prog.state = 4 then rollBack b t else t
        | none => t) s1

def turnRows (s : State) : State := s.eng.runs.foldl (fun t e => turnRun e.1 t) s

/-! ## Release (R37, R226, R227, R304) -/

/-- Bin of the interval `i` against the TBT budget `b`. -/
def tbtBin (i b : Nat) : Nat := ((List.range 7).find? fun k => if k = 6 then decide (i ≤ 2 * b) else decide (4 * i ≤ b * (k + 1))).getD 7

/-- What the release of a manifest's next tokens records: its first token's time or an interval, and the slack that restarts. -/
def afterRelease (now upto : Nat) (x : Berth) : Berth :=
  let p := x.prog
  let ttft := if p.firstOut || x.id.ttftBudget = noDeadline then p.ttftUs else min (x.id.ttftBudget + p.deficit - p.slack) 0xFFFFFFFE
  let bin := tbtBin (x.id.tbtBudget + p.deficit - p.slack) x.id.tbtBudget
  let hist :=
    if p.firstOut && x.id.tbtBudget ≠ noDeadline then listSet x.cnt.tbtHist bin (min (x.cnt.tbtHist.getD bin 0 + 1) 0xFFFF) else x.cnt.tbtHist
  { x with
    missed := false
    prog := { p with released := upto, firstOut := true, boost := false, ttftUs := ttft, slack := x.id.tbtBudget, slackTick := now, deficit := 0 }
    cnt := { x.cnt with tbtHist := hist, maxDeficit := max x.cnt.maxDeficit p.deficit } }

/-- Release a manifest's generated tokens below index `upto`: the tokens, and the state after. -/
def releaseTo (b upto : Nat) (s0 : State) : List Nat × State :=
  let s := slackUpdate b s0
  match berthAt s b with
  | none => ([], s)
  | some x =>
    let l := ((generated x).take upto).drop x.prog.released
    if l.isEmpty then ([], s)
    else (l, bump TOK_RELEASED_CNT l.length (modBerth b (afterRelease s.tick (x.prog.released + l.length)) s))

/-! ## Stop conditions (R300, R301) -/

/-- Length of the longest stop sequence that the generated tokens `g` complete; 0 for none. -/
def seqDone (r : Bytes) (g : List Nat) : Nat :=
  ((stopSeqs r).filter fun q => q.length ≤ g.length && g.drop (g.length - q.length) = q).foldl (fun n q => max n q.length) 0

/-- Take committed tokens one at a time: those logged, and the END_CAUSE they lead to, 0 for none. -/
def commitScan (r : Bytes) (maxNew : Nat) : List Nat → List Nat → List Nat × Nat
  | _, [] => ([], 0)
  | g, t :: l =>
    let g1 := g ++ [t]
    if (stopTokens r).contains t then ([t], 1)
    else if 0 < seqDone r g1 then ([t], 2)
    else if maxNew ≤ g1.length then ([t], 3)
    else
      let x := commitScan r maxNew g1 l
      (t :: x.1, x.2)

/-- Generated tokens that are released when the request ends with a cause, or goes on, out of the generated tokens `g`. -/
def releaseUpto (r : Bytes) (cause : Nat) (g : List Nat) : Nat :=
  if cause = 1 then (if stopInclude r then g.length else g.length - 1)
  else if cause = 2 then (if stopInclude r then g.length else g.length - seqDone r g)
  else if cause = 0 then g.length - ((stopSeqs r).map fun q => matchLen q g).foldl max 0
  else g.length

/-! ## Commit of a token (R219, R298, R302) -/

/-- Drafts accepted: those that equal the samples before the first that does not. -/
def acceptCount : List Nat → List Nat → Nat
  | d :: ds, t :: ts => if d = t then 1 + acceptCount ds ts else 0
  | _, _ => 0

/-- The samples of a manifest's live rows, in ascending position. -/
def samplesOf (r : Run) (mid : Nat) : List RowSample :=
  (liveIdx r.batch).filterMap fun i =>
    match r.batch.rows[i]? with
    | some x => if x.mid = mid then r.samples.find? fun y => y.row = i else none
    | none => none

/-- Rows of a manifest that are live. -/
def liveOf (r : Run) (mid : Nat) : Nat := (r.batch.rows.filter fun x => rowLive x && x.mid = mid).length

/-- A draft that LOG_LEN has passed is discarded (R297). -/
def staleDraft (b : Nat) (s : State) : State :=
  match berthAt s b with
  | some x => (match x.draft with | some (p, _) => if p.p0 < x.prog.logLen then wasteDraft b s else s | none => s)
  | none => s

/-- The cycle budget is used up (R220). -/
def overBudget (x : Berth) : Bool := x.id.cycleBudget ≠ 0 && decide (2 ^ 20 * x.id.cycleBudget ≤ x.cnt.engineCycles)

/-- The QP that carries a manifest's tokens does not exist, or is in ERROR (R304). -/
def ownerDead (s : State) (x : Berth) : Bool := match qpOf s x.id.ownerQp with | some q => q.state = 3 | none => true

/-- Commit `tokens` of a request, which took `accepted` drafts: log, position, stop conditions, release and end. A release for which no
owning QP exists fails the request, and nothing of it is logged (R301, R304). -/
def commitTokens (b accepted : Nat) (tokens : List Nat) (cause : Nat) (nans degen : Nat) (s : State) : State :=
  match logAppend b tokens s with
  | none => rollBack b (rowStalled b s)
  | some s1 =>
    match berthAt s1 b with
    | none => s1
    | some x =>
      let g := generated x
      let r := stopOf s1 x
      let cause := if cause = 0 && overBudget x then 4 else cause
      let s2 := modBerth b (fun y =>
        { y with
          drafts := []
          prog := { y.prog with posHeld := y.prog.logLen - 1, specDepth := 0, stopMatch := stopMatchOf r g }
          cnt := { y.cnt with accepted := min (y.cnt.accepted + accepted) 0xFFFFFFFF } }) s1
      let s3 := bump SMP_DEGENERATE_CNT degen (bump SMP_NAN_ROWS nans (bump SPEC_ACCEPTED_CNT accepted (bump SMP_TOKENS_CNT tokens.length s2)))
      let s4 := staleDraft b (commitSlots b s3)
      let rel := releaseTo b (releaseUpto r cause g) s4
      if !rel.1.isEmpty && ownerDead s x then manFail b stQpError (rollBack b s)
      else if cause ≠ 0 then manEnd b 8 cause stOk x.prog.released rel.1 rel.2
      else if rel.1.isEmpty then rel.2
      else tokStream b x.prog.released rel.1 false stOk rel.2

/-- A generation node's rows of one manifest at the end of their run. -/
def commitGen (b mid : Nat) (r : Run) (s : State) : State :=
  match berthAt s b with
  | none => s
  | some x =>
    let l := samplesOf r mid
    if x.prog.state ≠ 4 then s
    else if x.prog.await || x.prog.fenced || l.isEmpty || l.length < liveOf r mid then rollBack b s
    else
      let a := acceptCount x.drafts (l.map (·.token))
      let y := commitScan (stopOf s x) x.id.maxNew (generated x) ((l.map (·.token)).take (a + 1))
      let used := l.take y.1.length
      commitTokens b a y.1 y.2 (used.filter (·.nan)).length (used.filter (·.degenerate)).length s

/-- A prompt node's chunk of one manifest: its positions are COMMITTED, and with the last one prefill is complete (R211, R219,
R245). -/
def commitPrompt (b mid : Nat) (r : Run) (s : State) : State :=
  match berthAt s b with
  | none => s
  | some x =>
    if x.prog.state ≠ 2 || x.prog.fenced then s
    else
      let s1 := commitSlots b (modProg b (fun p => { p with posHeld := p.posHeld + liveOf r mid }) s)
      if prefillLeft x ≤ liveOf r mid then enterState b 3 s1 else s1

/-- Manifests of a run's live rows with their berths, in ascending berth number. -/
def runBerths (s : State) (r : Run) : List (Nat × Nat) :=
  ((rowMids r.batch).filterMap fun m => (berthNamed s m).map fun b => (b, m)).foldl
    (fun l a => (l.filter fun x => x.1 < a.1) ++ [a] ++ l.filter fun x => a.1 < x.1) []

/-- A run's results take effect. -/
def commitRun (r : Run) (s : State) : State :=
  (runBerths s r).foldl (fun t e => if s.dev.personality = 1 then commitPrompt e.1 e.2 r t else commitGen e.1 e.2 r t) s

/-- The cycle budget ends a request at the boundary at which it is reached, whether or not a token committed there: every logged
token is released, but none before a transfer's confirmation (R220, R222, R301, log 130). -/
def budgetEnd (b : Nat) (s : State) : State :=
  match berthAt s b with
  | none => s
  | some x =>
    if x.prog.state = 4 && overBudget x then
      let rel := if x.prog.await then ([], s) else releaseTo b (generated x).length s
      manEnd b 8 4 stOk x.prog.released rel.1 rel.2
    else s

def budgetAll (s : State) : State := s.man.berths.foldl (fun t e => budgetEnd e.1 t) s

/-- Transfers that may be sent now that prefill is complete and remote pages are accepted (R221, R249). -/
def transfersNow (s : State) : State :=
  if s.dev.personality = 1 then s.man.berths.foldl (fun t e => transferCheck e.1 t) s else s

/-- Seals, moves out of the window, and transfers, after a commit (R221, R245, R248). -/
def afterCommit (s : State) : State := transfersNow (windowAll (sealAll s))

end Sys2Proof.Machine
end

