-- ==== Sys2Proof/Machine/Verify.lean ====
section
/-! DEFINITION. Replay verification: digests, rounds with replay partners, verdicts, losses, local re-runs, and the replays that
the device runs for others (R433 to R442). -/

namespace Sys2Proof.Machine

/-! ## The digest (R434) -/

/-- What a step writes for a row: its share of each PASS and HELD slot written, then its logits and token. -/
def digestRow (r : Run) (row : Nat) : Bytes :=
  let w := r.passNow ++ r.heldNow
  let slots := ((w.map (·.slot)).eraseDups).foldl (fun l n => (l.filter (· < n)) ++ [n] ++ l.filter (n < ·)) []
  (slots.flatMap fun n =>
    let sh := Config.rowShare (slotRec r.batch n).len r.batch.bucket row
    (List.range sh.2).filterMap fun i => (slotByte w n (sh.1 + i)).map (·.1)) ++
  (match r.samples.find? fun x => x.row = row with | some x => x.logits ++ toLe 4 x.token | none => [])

def stepDigest (r : Run) (sample : List Nat) : Bytes := sha256 (sample.flatMap (digestRow r))

/-- The replay sample: the live rows of the tile that a drift sentinel checked, else the first 64 live rows. -/
def replaySample (r : Run) : List Nat :=
  match r.drift with
  | some t => (liveIdx r.batch).filter fun i => i / 64 = t
  | none => (liveIdx r.batch).take 64

/-! ## Runs with suspect steps -/

/-- The run that has a suspect step, by its step sequence number. -/
def suspectRun (s : State) (seq : Nat) : Option (Nat × Run) := s.eng.runs.find? fun e => e.2.suspects.any fun x => x.stepSeq = seq

def suspectOf (s : State) (seq : Nat) : Option Suspect := (suspectRun s seq).bind fun e => e.2.suspects.find? fun x => x.stepSeq = seq

def modSuspect (seq : Nat) (f : Suspect → Suspect) (s : State) : State :=
  match suspectRun s seq with
  | none => s
  | some e => modEng (fun g => { g with runs := tabMod g.runs e.1 fun r => { r with suspects := r.suspects.map fun x => if x.stepSeq = seq then f x else x } }) s

/-- A run gives back what it would have done: the tokens of its requests begin again (R302). -/
def runDropped (k : Nat) (s : State) : State :=
  match tabGet s.eng.runs k with
  | none => s
  | some r =>
    let s1 := modEng (fun g => { g with runs := tabDel g.runs k }) s
    (rowMids r.batch).foldl (fun t m => match berthNamed t m with
      | some b => if ((berthAt t b).getD {}).prog.state = 4 then rollBack b t else t
      | none => t) s1

/-- A run as it starts again from its first step, every step suspect (R437). -/
def runAgain (r : Run) : Run :=
  { r with step := 0, held := [], heldNow := [], pass := [], passNow := [], readNow := [], samples := [], lost := [], suspectNow := true,
           drift := none, suspects := [], allSuspect := true, poisons := 0, replay := false, ended := false, again := false }

/-- Runs that are to start again take their composition's place as it is free. -/
def restartOne (s : State) (e : Nat × Run) : State :=
  if !e.2.again then s
  else if 2 ≤ e.2.losses then runDropped e.1 s
  else
    let c := e.2.batch.comp
    if e.1 = c then modEng (fun g => { g with runs := tabMod g.runs c runAgain }) s
    else if (tabGet s.eng.runs c).isSome || 16 ≤ runsLive s then s
    else modEng (fun g => { g with runs := tabPut (tabDel g.runs e.1) c (runAgain e.2) }) s

def restartRuns (s : State) : State := s.eng.runs.foldl restartOne s

/-- Runs whose every suspect step has been agreed on commit (R219, R302). -/
def commitOne (s : State) (e : Nat × Run) : State :=
  if !e.2.ended || e.2.again || !e.2.suspects.isEmpty then s
  else
    let s1 := bump PERF_VERIFY_WAIT_US ((s.tick - e.2.endedAt) / 100) (modEng (fun g => { g with runs := tabDel g.runs e.1 }) s)
    commitRun e.2 (heldRelease e.2.batch e.2.held s1)

def commitAwaited (s : State) : State := s.eng.runs.foldl commitOne s

/-- With no step running there is no boundary to wait for: what a verdict decides takes effect at once (log 47). -/
def verdictNow (s : State) : State := if s.eng.step.isSome then s else settle (restartRuns (afterCommit (commitAwaited s)))

/-! ## Verdicts (R436, R437) -/

/-- A suspect step is agreed on. -/
def agreed (seq : Nat) (s : State) : State :=
  match suspectRun s seq with
  | none => s
  | some e =>
    verdictNow (bump PERF_REPLAY_AGREE_CNT 1
      (modEng (fun g => { g with runs := tabMod g.runs e.1 fun r => { r with suspects := r.suspects.filter fun x => x.stepSeq ≠ seq } }) s))

/-- Every core in service is to be tested, as TEST.SENTINEL would ask; no command waits for the answer. -/
def testAll (s : State) : State := coresNow (((List.range 1152).filter (runsId s)).foldl (fun t n => testDue n false t) s)

/-- This device loses: class 1 as a requester, 0 as a replayer. -/
def lossNoted (cls dev round : Nat) (s : State) : State :=
  testAll (bump PERF_REPLAY_LOST_CNT 1 (record { cause := 0x31, cls := cls, kind := 11, unit := dev, c0 := s.dev.deviceId, c1 := round } s))

/-- A local loss: every effect of the run goes, and its weave runs again; a second loss ends it in restricted mode. -/
def localLoss (seq dev round : Nat) (s0 : State) : State :=
  match suspectRun s0 seq with
  | none => s0
  | some e =>
    let s := lossNoted 1 dev round s0
    if 1 ≤ e.2.losses then
      (let s1 := restrictEnter 6 s
       if isRunning s1 e.1 then modEng (fun g => { g with runs := tabMod g.runs e.1 fun r => { r with losses := 2, again := true, suspects := [] } }) s1
       else runDropped e.1 s1)
    else
      verdictNow (modEng (fun g => { g with runs := tabMod g.runs e.1 fun r => { r with losses := 1, again := true, suspects := [] } }) s)

/-! ## Rounds (R435, R440, R441) -/

/-- The entries of ERR_REPLAY_PEER_n that are valid: set, over a QP in RTS. -/
def peerQpn (s : State) (n : Nat) : Nat := regField s (ERR_REPLAY_PEER n) 19 0
def validPeers (s : State) : List Nat := (List.range 4).filter fun n => regField s (ERR_REPLAY_PEER n) 31 31 = 1 && qpSends s (peerQpn s n)
def peerDevice (s : State) (n : Nat) : Nat := match qpOf s (peerQpn s n) with | some q => q.peerDev | none => 0xFFF

/-- The next valid entry after `n`, wrapping, that is not `skip`. -/
def nextPeer (s : State) (n : Nat) (skip : Option Nat) : Option Nat :=
  let l := validPeers s
  (l.filter (n < ·) ++ l.filter (· ≤ n)).find? fun k => some k ≠ skip

/-- A row record (R412). -/
def rowBytes (r : RowRec) : Bytes := toLe 4 r.mid ++ toLe 4 r.position ++ toLe 4 r.token ++ toLe 1 r.kind ++ toLe 1 r.ctx ++ zeros 2

/-- The withy pin of a row's request. -/
def pinOf (s : State) (mid : Nat) : Nat :=
  match (berthNamed s mid).bind (berthAt s) with | some x => withyKey x.id.withyId x.id.withyVer | none => 0xFFFFF000

/-- A slot section: its header and the data read (R441). -/
def sectionBytes (bt : Batch) (d : SlotData) : Bytes :=
  toLe 2 d.slot ++ toLe 1 (slotRec bt d.slot).kind ++ zeros 1 ++ toLe 4 d.bytes.length ++ toLe 8 d.off ++ d.bytes

/-- Sections gathered into parts of at most 16 MiB, the header's 64 bytes left free; none is cut. -/
def packParts (first : Bytes) : List Bytes → List Bytes
  | [] => [first]
  | x :: l => if first.length + x.length + 64 ≤ 2 ^ 24 then packParts (first ++ x) l else first :: packParts x l

/-- The parts of a round: rows, pins and sections, each behind the header of R440. -/
def replayParts (s : State) (r : Run) (x : Suspect) (round : Nat) : List Bytes :=
  let rows := x.sample.filterMap fun i => r.batch.rows[i]?
  let first := (rows.flatMap rowBytes) ++ rows.flatMap fun y => toLe 4 (pinOf s y.mid)
  let parts := packParts first (x.inputs.map (sectionBytes r.batch))
  let t := tblSlot s r.batch.setSlot
  (List.range parts.length).map fun k =>
    toLe 4 x.stepSeq ++ toLe 2 r.batch.programId ++ toLe 1 x.step ++ toLe 1 round ++ toLe 4 t.setId ++ toLe 4 t.stakeId ++
      toLe 2 rows.length ++ toLe 1 k ++ toLe 1 parts.length ++ toLe 4 s.dev.modes ++ toLe 4 (3 * 2 ^ 16) ++ toLe 4 s.dev.fwGen ++
      toLe 1 s.dev.personality ++ zeros 31 ++ parts.getD k []

/-- Send one part of a round, a message with a TAG of its own (R310, R441). -/
def sendPart (qp seq : Nat) (r : List Nat × State) (b : Bytes) : List Nat × State :=
  let t := takeTag r.2
  (r.1 ++ [t.1], sendMsgOn qp { opcode := 0x69, tag := t.1, p0 := seq, payload := b } .plain t.2)

/-- Send a round to a peer. -/
def sendRound (seq n round : Nat) (s : State) : State :=
  match suspectRun s seq, suspectOf s seq with
  | some e, some x =>
    let r := (replayParts s e.2 x round).foldl (sendPart (peerQpn s n) seq) ([], s)
    let s2 := modSuspect seq (fun y => { y with round := round, peer := some (n, r.1, s.tick) }) r.2
    bump PERF_REPLAY_SENT_CNT 1 (if round = 2 then bump PERF_REPLAY_TIEBREAK_CNT 1 s2 else s2)
  | _, _ => s

/-- Verify by a local re-run (R438). -/
def goLocal (seq : Nat) (s : State) : State := modSuspect seq (fun y => { y with round := 3, peer := none }) s

/-- Begin to verify a suspect step: round 1 with peer STEP_SEQ mod k, or a local re-run. -/
def beginVerify (seq : Nat) (s : State) : State :=
  let l := validPeers s
  if !replayGranted s || l.isEmpty then goLocal seq s else sendRound seq (l.getD (seq % l.length) 0) 1 s

/-- A round fails: it is reported and repeated with the next valid peer (R435). A round 2 that has only round 1's peer left is not
run, which is a local loss (R436). -/
def roundFailed (seq : Nat) (s : State) : State :=
  match suspectOf s seq with
  | none => s
  | some x =>
    match x.peer with
    | none => s
    | some (n, _, _) =>
      let s1 := bump PERF_REPLAY_TMO_CNT 1 (record { cause := 0x32, cls := 0, kind := 11, unit := peerDevice s n, c0 := x.round } s)
      match nextPeer s1 n (x.first.map (·.1)) with
      | some k => sendRound seq k x.round s1
      | none => if x.first.isSome && !(validPeers s1).isEmpty then localLoss seq (peerDevice s1 n) 2 s1 else goLocal seq s1

/-- The QP of arrival. -/
def arrivalQp (p : Pkt) : Option Nat := match p.path with | .fabric n _ _ => some n | _ => none

/-- The result of a replay round arrives on this tick, and stands in the queue: it wins over the timeout (R435). -/
def roundArrives (s : State) (stepSeq n round : Nat) : Bool :=
  s.pending.any fun i =>
    match i with
    | .verifyResult p => leAt p.payload 0 4 = stepSeq && leAt p.payload 4 1 = 0 && leAt p.payload 5 1 = round &&
        arrivalQp p = some (peerQpn s n) && decide (p.now ≤ s.tick)
    | _ => false

/-- REPLAY_ROUND_TIMEOUT. -/
def replayRoundTimeoutFx (stepSeq now : Nat) (s0 : State) : State :=
  let s := atTick now s0
  match suspectOf s stepSeq with
  | none => s
  | some x =>
    match x.peer with
    | none => s
    | some (n, _, at') =>
      if alive s && at' + msTicks (regField s ERR_REPLAY_TMO 9 0) ≤ s.tick && !roundArrives s stepSeq n x.round then roundFailed stepSeq s
      else s
def execReplayRoundTimeout (stepSeq now : Nat) (s : State) : Host.Outcome State Fault Refusal := .next (replayRoundTimeoutFx stepSeq now s)

/-! ## VERIFY.RESULT (R436, R442) -/

/-- The payload of VERIFY.RESULT. -/
def resultBytes (seq kind round status : Nat) (digest : Bytes) : Bytes :=
  toLe 4 seq ++ toLe 1 kind ++ toLe 1 round ++ toLe 2 status ++ zeros 24 ++ (if digest.isEmpty then zeros 32 else digest)

/-- A command of the device that nothing times, whose reply is awaited (R317). -/
def awaitTag (tag : Nat) (s : State) : State := modFab (fun f => { f with openTags := tag :: f.openTags }) s

/-- Tell a peer a verdict: 1 WON, 2 LOST. -/
def sendVerdict (n seq kind round : Nat) (s : State) : State :=
  let t := takeTag s
  awaitTag t.1 (sendMsgOn (peerQpn s n) { opcode := 0x6A, tag := t.1, p0 := seq, payload := resultBytes seq kind round stOk [] } .plain t.2)

/-- A digest has come for the round in progress. -/
def digestIn (seq : Nat) (digest : Bytes) (s : State) : State :=
  match suspectOf s seq with
  | none => s
  | some x =>
    match x.peer, x.first with
    | some (n, _, _), none =>
      if digest = x.digest then agreed seq s
      else
        (match nextPeer s n (some n) with
         | some k => sendRound seq k 2 (modSuspect seq (fun y => { y with first := some (n, digest) }) s)
         | none => localLoss seq (peerDevice s n) 1 s)
    | some (n, _, _), some (m, d) =>
      if digest = x.digest then agreed seq (sendVerdict n seq 1 2 (sendVerdict m seq 2 1 s))
      else if digest = d then localLoss seq (peerDevice s n) 2 (sendVerdict n seq 1 2 (sendVerdict m seq 1 1 s))
      else localLoss seq (peerDevice s n) 2 s
    | none, _ => s

/-- A result meets the round that awaits it, or comes late. -/
def resultAct (p : Pkt) (s : State) : State :=
  let b := p.payload
  let seq := leAt b 0 4
  let open' := match suspectOf s seq with
    | some x => (match x.peer with | some (n, _, _) => x.round = leAt b 5 1 && arrivalQp p = some (peerQpn s n) | none => false)
    | none => false
  if leAt b 4 1 = 0 then
    (if !open' then bump PERF_REPLAY_LATE_CNT 1 s
     else if leAt b 6 2 = stOk then digestIn seq (slice b 32 32) s else roundFailed seq s)
  else if leAt b 4 1 = 2 then lossNoted 0 (srcOf p) (leAt b 5 1) s
  else s

def rowVerifyResult : OpRow := ⟨0x6A, true, true, false, 64, false⟩

/-- The layout of VERIFY.RESULT. -/
def resultLayout (p : Pkt) : Bool :=
  let b := p.payload
  paramsZero p true false false false && b.length = 64 && leAt b 0 4 = p.p0 && decide (leAt b 4 1 ≤ 2) && (b.drop 8).take 24 = zeros 24

def verifyResultFx (p : Pkt) (s : State) : State :=
  receive rowVerifyResult p (orFormat (resultLayout p) 0x6A p fun t => resultAct p (ok 0x6A p 0 t)) s
def execVerifyResult (p : Pkt) (s : State) : Host.Outcome State Fault Refusal := .next (verifyResultFx p s)

/-! ## VERIFY.REPLAY: serving another device (R439 to R441) -/

/-- Walk slot sections; none when one does not fit its header. `fuel` bounds them. -/
def readSections : Nat → Bytes → Option (List SlotData)
  | _, [] => some []
  | 0, _ => none
  | fuel + 1, b =>
    let n := leAt b 4 4
    let k := leAt b 2 1
    if b.length < 16 + n || leAt b 3 1 ≠ 0 || k = 1 || 3 < k || 4096 ≤ leAt b 0 2 then none
    else
      let d := (b.drop 16).take n
      (readSections fuel (b.drop (16 + n))).map fun l => ⟨leAt b 0 2, leAt b 8 8, d, clean d, none⟩ :: l

/-- What part 0 carries before its sections, and the sections of a part. -/
def partHead (b : Bytes) : Nat := if leAt b 18 1 = 0 then 20 * leAt b 16 2 else 0
def partSections (b : Bytes) : Option (List SlotData) :=
  if b.length < 64 + partHead b then none else readSections b.length (b.drop (64 + partHead b))

/-- The row records of part 0 hold no value that R412 never writes (R441). -/
def partRowsOk (b : Bytes) : Bool :=
  leAt b 18 1 ≠ 0 || (records 16 ((b.drop 64).take (16 * leAt b 16 2))).all fun x =>
    decide (leAt x 12 1 ≤ 3) && decide (leAt x 13 1 ≤ 8) && leAt x 14 2 = 0

/-- Check 1 of R439. -/
def replayLayout (s : State) (p : Pkt) : Bool :=
  let b := p.payload
  paramsZero p true false false false && decide (64 ≤ b.length) && leAt b 0 4 = p.p0 && leAt b 32 1 = s.dev.personality &&
    (b.drop 33).take 31 = zeros 31 && (leAt b 7 1 = 1 || leAt b 7 1 = 2) && decide (1 ≤ leAt b 16 2) && decide (leAt b 16 2 ≤ 64) &&
    decide (leAt b 18 1 < leAt b 19 1) && leAt b 20 4 = s.dev.modes && leAt b 24 4 = 3 * 2 ^ 16 && (partSections b).isSome &&
    partRowsOk b

/-- The slot that holds a table set, LOADED or ACTIVE. -/
def replaySet (s : State) (setId stakeId : Nat) : Option Nat :=
  (List.range 4).find? fun n => 2 ≤ (tblSlot s n).state && (tblSlot s n).setId = setId && (tblSlot s n).stakeId = stakeId

/-- The pins of part 0. -/
def partPins (b : Bytes) : List Nat :=
  if leAt b 18 1 = 0 then (records 4 ((b.drop (64 + 16 * leAt b 16 2)).take (4 * leAt b 16 2))).map leNat else []

/-- Check 3 of R439. -/
def replayHolds (s : State) (b : Bytes) : Bool :=
  (replaySet s (leAt b 8 4) (leAt b 12 4)).isSome && (tabGet s.tier.stakes (leAt b 12 4)).isSome &&
    (partPins b).all fun w => (admWithy s true w).isSome

/-- The QP, ring or association of a path; the port of a frame does not tell messages apart. -/
def pathOf : Path → Nat × Nat
  | .fabric n _ _ => (0, n)
  | .ring n => (1, n)
  | .mgmt n => (2, n)
  | .i3c => (3, 0)
  | .mbox => (4, 0)

/-- The replay that a message belongs to. -/
def replayFind (s : State) (p : Pkt) : Option (Nat × ReplaySvc) :=
  s.eng.services.find? fun e =>
    e.2.last.isNone && pathOf e.2.path = pathOf p.path && e.2.stepSeq = p.p0 && e.2.round = leAt p.payload 7 1

/-- Replays in service. -/
def servicesBusy (s : State) : Nat := (s.eng.services.filter fun e => e.2.last.isSome).length

/-- A part is kept; the one that completes the replay puts it into service. -/
def replayTake (p : Pkt) (s : State) : State :=
  let b := p.payload
  let e : Nat × ReplaySvc := match replayFind s p with
    | some e => e
    | none =>
      (tabGap s.eng.services 0,
        { path := p.path, stepSeq := p.p0, round := leAt b 7 1, programId := leAt b 4 2, step := leAt b 6 1, setId := leAt b 8 4,
          rows := leAt b 16 2, parts := [], count := leAt b 19 1, comp := arrivalComp s p.path, since := s.tick, last := none })
  let v : ReplaySvc := { e.2 with parts := tabPut e.2.parts (leAt b 18 1) b }
  let put := fun (v : ReplaySvc) => modEng (fun g => { g with services := tabPut g.services e.1 v }) s
  if v.count ≤ v.parts.length then pend 0x69 p (put { v with last := some p }) else ok 0x69 p 0 (put v)

def replayAct (p : Pkt) (s : State) : State :=
  if !replayLayout s p then failAt 0x69 p stFormat 0x101 s
  else if leAt p.payload 28 4 ≠ s.dev.fwGen then failAt 0x69 p stVersion 0x102 s
  else if !replayHolds s p.payload then failAt 0x69 p stBusy 0x103 s
  else if 4 ≤ servicesBusy s then failAt 0x69 p stBusy 0x104 s
  else replayTake p s

def rowVerifyReplay : OpRow := ⟨0x69, true, true, false, 2 ^ 24, false⟩

def verifyReplayFx (p : Pkt) (s : State) : State := receive rowVerifyReplay p (replayAct p) s
def execVerifyReplay (p : Pkt) (s : State) : Host.Outcome State Fault Refusal := .next (verifyReplayFx p s)

/-- REPLAY_PARTS_TIMEOUT: the incomplete parts of a replay are discarded. -/
def replayPartsTimeoutFx (qp stepSeq now : Nat) (s0 : State) : State :=
  let s := atTick now s0
  if !alive s then s
  else
    modEng (fun g =>
      { g with services := tabKeep g.services fun _ v =>
          !(v.last.isNone && decide (pathOf v.path = (0, qp)) && v.stepSeq = stepSeq &&
            decide (v.since + msTicks (regField s ERR_REPLAY_TMO 9 0) ≤ s.tick)) }) s
def execReplayPartsTimeout (qp stepSeq now : Nat) (s : State) : Host.Outcome State Fault Refusal := .next (replayPartsTimeoutFx qp stepSeq now s)

/-! ## Running a step for verification (R438, R439) -/

/-- A row record as received. -/
def rowOf (b : Bytes) : RowRec := ⟨leAt b 0 4, leAt b 4 4, leAt b 8 4, leAt b 12 1 % 4, leAt b 13 1, false⟩

/-- A one-step run over sample rows, in the smallest row bucket that holds them, that reads recorded inputs (log 88). -/
def verifyRun (s : State) (setSlot stepSeq step comp : Nat) (rows : List RowRec) (pins : List (Option Nat)) (inputs : List SlotData) :
    Option Run :=
  match programFor (tblSlot s setSlot).image rows.length with
  | none => none
  | some r =>
    let pad := bucketRows (dirBucket r) - rows.length
    let w := withyPart s (pins ++ List.replicate pad none)
    some
      { batch :=
          { stepSeq := (stepSeq + 2 ^ 32 - step) % 2 ^ 32, programId := dirProgram r, steps := step + 1, bucket := dirBucket r, liveRows := rows.length,
            tokenRows := (rows.filter fun x => x.kind ≤ 1).length, comp := comp, setSlot := setSlot, rows := rows ++ List.replicate pad padRow,
            slots := slotsBound (dirProgram r) stepSeq ((rows.map (·.mid)).eraseDups),
            withies := w.slots, fwd := w.fwd, inv := w.inv, bind := w.bind, alpha := w.alpha }
        step := step, held := [], heldNow := [], pass := inputs, passNow := [], readNow := [], samples := [], lost := [],
        suspectNow := false, drift := none, suspects := [], allSuspect := false, losses := 0, wdogOnce := false, poisons := 0,
        replay := false, ended := false, minTag := 0 }

/-- The run of a replay in service. -/
def serviceRun (s : State) (v : ReplaySvc) : Option Run :=
  let head := tabGetD v.parts 0 []
  let rows := (records 16 ((head.drop 64).take (16 * v.rows))).map rowOf
  let pins := (partPins head).map fun w => if w / 4096 = 0xFFFFF then none else some w
  match replaySet s v.setId (leAt head 12 4) with
  | none => none
  | some n => verifyRun s n v.stepSeq v.step v.comp rows pins (v.parts.flatMap fun e => (partSections e.2).getD [])

/-- The run of a local re-run: the same rows over the inputs recorded, with the slots as they are bound. -/
def localRun (s : State) (r : Run) (x : Suspect) : Option Run :=
  let rows := x.sample.filterMap fun i => r.batch.rows[i]?
  (verifyRun s r.batch.setSlot x.stepSeq x.step r.batch.comp rows (rows.map (rowVersion s)) x.inputs).map fun a =>
    { a with batch := { a.batch with slots := r.batch.slots } }

/-- The digest of a step run for verification: its rows are the sample. -/
def auxDigest (r : Run) : Bytes := stepDigest r (liveIdx r.batch)

/-- A replay has run: the digest and the final reply go out. -/
def serviceDone (id : Nat) (r : Run) (s : State) : State :=
  match tabGet s.eng.services id with
  | none => modEng (fun g => { g with aux := none }) s
  | some v =>
    let s1 := modEng (fun g => { g with services := tabDel g.services id, aux := none }) s
    match v.last with
    | none => s1
    | some p =>
      let t := takeTag s1
      let msg : MsgOut := { opcode := 0x6A, tag := t.1, p0 := v.stepSeq, payload := resultBytes v.stepSeq 0 v.round stOk (auxDigest r) }
      ok 0x69 p 0 (awaitTag t.1 (sendBack p msg (bump PERF_REPLAY_SERVED_CNT 1 t.2)))

/-- A replay that cannot be run to its end: the status that prevented it goes out. -/
def serviceFailed (id st : Nat) (s : State) : State :=
  match tabGet s.eng.services id with
  | none => modEng (fun g => { g with aux := none }) s
  | some v =>
    let s1 := modEng (fun g => { g with services := tabDel g.services id, aux := none }) s
    match v.last with
    | none => s1
    | some p =>
      let t := takeTag s1
      let msg : MsgOut := { opcode := 0x6A, tag := t.1, p0 := v.stepSeq, payload := resultBytes v.stepSeq 0 v.round st [] }
      fail 0x69 p st (awaitTag t.1 (sendBack p msg t.2))

/-- A local re-run has ended. -/
def localDone (seq : Nat) (r : Run) (s : State) : State :=
  let s1 := modEng (fun g => { g with aux := none }) s
  match suspectOf s1 seq with
  | none => s1
  | some x => if auxDigest r = x.digest then agreed seq s1 else localLoss seq s.dev.deviceId 3 s1

end Sys2Proof.Machine
end

