-- ==== Sys2Proof/Machine/Steps.lean ====
section
/-! DEFINITION. The step: its start, its boundary, its overrun and its watchdog (R66 to R68, R137, R143 to R146, R174, R407, R408,
R430, R431, R433, R452). -/

namespace Sys2Proof.Machine

/-! ## Starting a step (R137, R174, R407) -/

/-- What may start next: a replay, a replay in service, a local re-run, the step chosen, or none (R68, R407, R438, R439). -/
inductive StartKind where
  /-- The run, or the step run for verification, that is to be replayed. -/
  | replay (what : Running)
  /-- A step of another kind than the chosen one, ahead of the choice. -/
  | ahead (what : Running) (run : Run)
  /-- The composition's next step. -/
  | chosen (comp : Nat)
  | none
deriving DecidableEq, Repr

/-- The suspect step that waits for a local re-run, with its run. -/
def localWaits (s : State) : Option (Nat × Run × Suspect) :=
  s.eng.runs.findSome? fun e => (e.2.suspects.find? fun x => x.round = 3).map fun x => (e.1, e.2, x)

/-- The replay in service that waits to run. -/
def serviceWaits (s : State) : Option (Nat × ReplaySvc) := s.eng.services.find? fun e => e.2.last.isSome

/-- What the step run for verification is. -/
def auxWhat (s : State) : Running :=
  match serviceWaits s, localWaits s with
  | some e, _ => .service e.1
  | none, some e => .local' e.1 e.2.2.stepSeq
  | none, none => .service 0

/-- A step that is to go ahead of the choice. -/
def aheadOf (s : State) : StartKind :=
  match (s.eng.runs.find? fun e => !e.2.ended && e.2.replay).map (·.1) with
  | some c => .replay (.run c)
  | none =>
    if (match s.eng.aux with | some r => r.replay | none => false) then .replay (auxWhat s)
    else
      match serviceWaits s with
      | some e => (match serviceRun s e.2 with | some r => .ahead (.service e.1) r | none => .none)
      | none =>
        match localWaits s with
        | some e => (match localRun s e.2.1 e.2.2 with | some r => .ahead (.local' e.1 e.2.2.stepSeq) r | none => .none)
        | none => .none

/-- A step may start: the device serves, its table set covers its shape, no step runs, and no cluster waits for a spare or a
reset (R66, R144, R452). -/
def mayStart (s : State) : Bool :=
  alive s && !restricted s && !recovering s && !s.err.restarting && s.eng.step.isNone && !(clustersIn s).isEmpty &&
    (clustersIn s).all fun m => !(cluster s m).resetting && !(cluster s m).loading

/-- PLAN_CYCLES of a step: the largest of its variants in service. -/
def planOf (s : State) (r : Run) : Nat :=
  let img := (tblSlot s r.batch.setSlot).image
  ((clustersIn s).map fun m => match tblVariant img r.batch.programId r.step (shapeKey s m) with | some v => varPlan v | none => 0).foldl max 0

/-- The stager at the start of a step. `reached` says that this is the step it ran on into. A tile that an abort, a watchdog or a change of
shape left in the slice stays where the step's table names it, which `named` says (R174). -/
def stagerStart (reached : Bool) (named : StagedTile → Bool) (c : Cluster) : Cluster :=
  let past := fun (t : StagedTile) => decide (2 ^ 17 ≤ t.entry) && decide (t.entry < 2 ^ 18)
  let next := fun (t : StagedTile) =>
    if past t then (if reached && c.pastEnd then some { t with entry := t.entry - 2 ^ 17, since := 0 } else none)
    else if 2 ^ 18 ≤ t.entry && named t then some { t with since := 0 } else none
  { c with staged := c.staged.filterMap next, staging := c.staging.bind next,
           reach := if reached && c.pastEnd then c.reach else 0, pastEnd := false }

/-- A cluster at step cycle 0. A tile in a buffer is as ready as it was. -/
def clusterStart (reached : Bool) (named : StagedTile → Bool) (c : Cluster) : Cluster :=
  let d := stagerStart reached named c
  { d with pc := 0, finished := false, flags := [], signals := [], barrier := none, fellBack := false, switched := false,
           direct := none, carry := [], expander := [], issuedAt := none, stalledTo := 0, unfetched := false, engine := [], loaded := [],
           bufs := tabMap d.bufs fun _ t => { t with readyAt := 0 } }

/-- Whether a step of a run names a tile in its table for cluster `m`. -/
def stepNames (s : State) (r : Run) (m : Nat) (t : StagedTile) : Bool :=
  let img := (tblSlot s r.batch.setSlot).image
  match tblVariant img r.batch.programId r.step (shapeKey s m) with
  | some v => namesTile s r img v t 0
  | none => false

/-- Flags of the slots whose recorded inputs a step run for verification reads: each has arrived once (log 88). -/
def inputFlags (r : Run) (s : State) : State :=
  (((r.pass.map (·.slot)).eraseDups).filter fun n => (slotRec r.batch n).kind = 0).foldl (fun t n => flagArrival (slotRec r.batch n).flag t) s

/-- Whole microseconds in which no step was ready (R419). -/
def idleEnds (s : State) : State :=
  match s.eng.idleSince with
  | none => s
  | some t => bump SCH_IDLE_US ((s.tick - t) / 100) (modEng (fun e => { e with idleSince := none }) s)

/-- Start a step of a run that stands in the state. -/
def startStep (what : Running) (r : Run) (reached : Bool) (s0 : State) : State :=
  let s := idleEnds s0
  let comp := r.batch.comp
  let seq := (r.batch.stepSeq + r.step) % 2 ^ 32
  let plan := planOf s r
  let restage := !reached && (clustersIn s).any fun m => (cluster s m).pastEnd
  let s1 := modCore (fun c => { c with clusters := tabMap c.clusters fun m => clusterStart reached (stepNames s r m) }) s
  let s2 := if restage then bump SCH_RESTAGE_CNT 1 s1 else s1
  let s3 := setCredit comp (creditOf s comp - (plan : Int)) s2
  let step : StepRun := { what := what, stepSeq := seq, since := s.tick, comp := comp, plan := plan, overrun := false, metered := s.tick }
  refsNow (modEng (fun e => { e with step := some step }) { s3 with satNow := [], nanNow := [] })

/-- Start a replay: the stager reuses what the slice holds, and nothing new is chosen (R174, R408). -/
def startReplay (what : Running) (s : State) : State :=
  match what with
  | .run c =>
    (match tabGet s.eng.runs c with
     | some r => startStep what r false (modEng (fun e => { e with runs := tabMod e.runs c fun r => { r with replay := false } }) s)
     | none => s)
  | _ =>
    (match s.eng.aux with
     | some r => inputFlags r (startStep what r false (modEng (fun e => { e with aux := e.aux.map fun r => { r with replay := false } }) s))
     | none => s)

/-- Start the chosen composition's step, and choose the one that follows it. -/
def startChosen (c : Nat) (s : State) : State :=
  match tabGet s.eng.runs c with
  | none => s
  | some r =>
    let s1 := startStep (.run c) r (s.eng.next = some c) s
    let x := chooseNext c (readyComps s1) s1
    modSched (fun d => { d with lastComp := c }) (modEng (fun e => { e with next := x.1 }) x.2)

/-- Swap-outs that fall due, retries of snapshots, and swap-ins that frames allow (R259 to R261). -/
def swapsNow (s : State) : State :=
  s.man.berths.foldl (fun t e => let u := swapOutTry e.1 (swapOutDue e.1 t)
                                 match swapInBegin e.1 u with | some v => v | none => u) s

/-- Stalls end as frames have come free, and swaps go on (R217, R246, R259 to R261). -/
def framesCome (s : State) : State := swapsNow (s.man.berths.foldl (fun t e => unstall e.1 t) s)

/-- What an idle engine takes up, with no boundary to wait for: stalls that end, pre-emption for rows that stay stalled, swaps,
promotions and new candidates (R246, R259, R261, R290, R410). -/
def idleTakesUp (s : State) : State := tagCandidates (promoteRows (framesCome (preemptStalled (framesCome s))))

/-- Choose for an idle engine, with the composition of the last step run as the starting one, and begin its run (R407). -/
def idleChoice (s0 : State) : Option Nat × State :=
  let s := idleTakesUp s0
  let x := chooseNext s.sched.lastComp (readyComps s) s
  match x.1 with
  | none => x
  | some c => (some c, if (tabGet x.2.eng.runs c).isSome then x.2 else buildWeave c x.2)

/-- A composition's run has a step to start. -/
def stepReady (s : State) (c : Nat) : Bool :=
  compServed s c && (match tabGet s.eng.runs c with | some r => !r.ended && decide (r.step < r.batch.steps) | none => false)

def stepStartFx (now : Nat) (s0 : State) : State :=
  let s := atTick now s0
  if !mayStart s then s
  else
    match aheadOf s with
    | .replay w => startReplay w s
    | .ahead w r => inputFlags r (startStep w r false (modEng (fun e => { e with aux := some r }) s))
    | _ =>
      match s.eng.next with
      | some c => if stepReady s c then startChosen c s else
        (let x := idleChoice (modEng (fun e => { e with next := none }) s)
         match x.1 with | some k => if stepReady x.2 k then startChosen k x.2 else x.2 | none => x.2)
      | none =>
        (let x := idleChoice s
         match x.1 with | some k => if stepReady x.2 k then startChosen k x.2 else x.2 | none => x.2)
/-- STEP_START. -/
def execStepStart (now : Nat) (s : State) : Host.Outcome State Fault Refusal := .next (stepStartFx now s)

/-! ## The boundary (R137, R430, R433) -/

/-- Manifests that go to REBUILD or FAILED at this boundary. -/
def leavesNow (s : State) (r : Run) (mid : Nat) : Bool :=
  r.lost.any (fun x => x.1 = mid) ||
    (match (berthNamed s mid).bind (berthAt s) with | some x => x.failAt.isSome || x.lossAt.isSome | none => true)

/-- The step's HELD and PASS writes carry hardware poison, rows that leave apart. -/
def stepPoisoned (s : State) (r : Run) (own : Bool) : Bool :=
  let out := silentRows r.batch ++
    (if own then (liveIdx r.batch).filter fun i => match r.batch.rows[i]? with | some x => leavesNow s r x.mid | none => false else [])
  (withoutRows r.batch out (r.heldNow ++ r.passNow)).any fun d => d.tags.any fun t => t = 2

/-- Staged counts join the counters of the cores (R95). -/
def commitCounts (s : State) : State :=
  let s1 := s.satNow.foldl (fun t e => bump (SEQ_CORE_SAT_CNT (e.1 / 16) (e.1 % 16)) e.2 t) s
  let s2 := s.nanNow.foldl (fun t e => bump (SEQ_CORE_NAN_CNT e.1) e.2 t) s1
  { s2 with satNow := [], nanNow := [] }

/-- What a completed step counts (R153). A step whose effects are discarded at its boundary is no completed one (log 129). -/
def countDone (stepSeq cycles : Nat) (s : State) : State :=
  bump SEQ_STEPS_DONE 1 (keepMax SEQ_STEP_MAX cycles (regPut SEQ_STEP_CYCLES cycles (modEng (fun e => { e with lastSeq := stepSeq }) s)))

/-- Slack of every manifest is brought up to date (R225). -/
def slackAll (s : State) : State := s.man.berths.foldl (fun t e => slackUpdate e.1 t) s

/-- FENCED clears as a composition comes back (R230). -/
def unfence (s : State) : State :=
  s.man.berths.foldl (fun t e =>
    if e.2.prog.fenced && compServed t (compOf t e.2) then modProg e.1 (fun p => { p with fenced := false }) t else t) s

/-- What follows the running step's own results at a boundary: manifests' events, rows that leave, moves, repairs, core fences and
tests, and an activation, which the changed shape is checked against (R117, R151, R152, R178, R179, R212, R411). -/
def boundaryTail (s0 : State) : State :=
  let s1 := unfence (turnRows (settle s0))
  let s2 := afterCommit (turnRows (budgetAll (restartRuns (commitAwaited s1))))
  let s4 := repairAll (moveOpenNow (framesCome s2))
  settle (activateBlocked (if runsOn s4 then coreBoundary true s4 else activateEnd (coreBoundary true (activateSwap s4))))

/-- The next weave is built and published at the boundary that precedes its first step, and the engine is idle when nothing is
ready (R409, R410). -/
def weaveNext (s0 : State) : State :=
  let s := promoteAll (tagCandidates s0)
  let ahead : Bool := match aheadOf s with | .none => false | _ => true
  let s1 := match s.eng.next with
    | some c => if ahead || (tabGet s.eng.runs c).isSome || restricted s then s else buildWeave c s
    | none => s
  let busy := ahead || (match s1.eng.next with | some c => stepReady s1 c | none => false)
  if busy then s1 else modEng (fun e => { e with idleSince := some s1.tick }) s1

/-- A poisoned step: its effects go, the damage is repaired, and the same step runs again, suspect; the eighth time in a row it
does not (R430, R431). -/
def poisonRerun (r : Run) (s : State) : State :=
  let n := r.poisons + 1
  let s1 := modRun (fun x => { x with poisons := n }) (record { cause := 0x30, cls := 0, c0 := n } s)
  if 8 ≤ n then
    (let what : Option Running := s1.eng.step.map fun x => x.what
     let s2 := restrictEnter 7 (stepDiscard true s1)
     match what with
     | some (.run c) => runDropped c s2
     | some (.service id) => serviceFailed id stPoison s2
     | _ => modEng (fun e => { e with aux := none }) s2)
  else
    let what : Option Running := s1.eng.step.map fun x => x.what
    let s2 := bump PERF_RERUN_POISON_CNT 1 (stepDiscard true s1)
    match what with
    | some (.run c) => modEng (fun e => { e with runs := tabMod e.runs c fun x => { x with drift := r.drift } }) s2
    | _ => s2

/-- The suspect record of a step that ends suspect (R433, R434). -/
def suspectRecord (r : Run) : Suspect :=
  let l := replaySample r
  { step := r.step, stepSeq := (r.batch.stepSeq + r.step) % 2 ^ 32, sample := l, digest := stepDigest r l, inputs := r.readNow, round := 0,
    peer := none, first := none }

/-- A run after one of its steps has completed. -/
def runStepped (now : Nat) (r : Run) : Run :=
  let sus := r.suspectNow || r.allSuspect
  { r with step := r.step + 1, held := r.heldNow ++ r.held, heldNow := [], pass := r.passNow ++ r.pass, passNow := [], readNow := [],
           samples := if r.step + 1 = r.batch.steps then r.samples else [], lost := [], suspectNow := false, drift := none, poisons := 0,
           wdogOnce := false,
           suspects := if sus then r.suspects ++ [suspectRecord r] else r.suspects, ended := decide (r.step + 1 = r.batch.steps), endedAt := now }

/-- What a completed step adds to the manifests of its rows. -/
def countRowsRun (r : Run) (s : State) : State :=
  let sus := r.suspectNow || r.allSuspect
  let s1 := if sus then bump PERF_SUSPECT_CNT 1 s else s
  (runBerths s r).foldl (fun t e => modCnt e.1 (fun c =>
    { c with steps := min (c.steps + 1) 0xFFFFFFFF, suspect := min (c.suspect + b2n sus) 0xFFFF }) t) s1

/-- HELD writes of a run without a suspect step are released at each boundary (R138, R433). -/
def releaseRun (c : Nat) (s : State) : State :=
  match tabGet s.eng.runs c with
  | none => s
  | some r =>
    if r.suspects.isEmpty then
      modEng (fun e => { e with runs := tabMod e.runs c fun x => { x with held := [] } })
        (markSpec r.batch r.held (heldRelease r.batch r.held s))
    else s

/-- A run whose last step has completed commits, or awaits its verdicts under a key of its own (R302, R433). -/
def runEnds (c : Nat) (s : State) : State :=
  match tabGet s.eng.runs c with
  | none => s
  | some r =>
    if !r.ended || r.again then s
    else
      let s1 := modEng (fun e => { e with runs := tabDel e.runs c }) s
      if r.suspects.isEmpty then commitRun r s1
      else modEng (fun e => { e with runs := tabPut e.runs (4096 + r.batch.stepSeq) r }) s1

/-- Verification of the steps that have just become suspect begins (R435, R438). -/
def verifyNew (s : State) : State :=
  (s.eng.runs.flatMap fun e => (e.2.suspects.filter fun x => x.round = 0).map (·.stepSeq)).foldl (fun t q => beginVerify q t) s

/-- The boundary of a step of a composition's run. -/
def runBoundary (c : Nat) (r : Run) (s0 : State) : State :=
  let s := countRowsRun r (commitCounts s0)
  let s1 := r.lost.foldl (fun t x => match berthNamed t x.1 with | some b => loseSoon b x.2 t | none => t) s
  let s2 := modEng (fun e => { e with step := none, runs := tabMod e.runs c (runStepped s.tick) }) s1
  let s3 := turnRows (settle s2)
  verifyNew (runEnds c (releaseRun c s3))

/-- The boundary's effects (R137). -/
def boundaryFx (cycles : Nat) (s0 : State) : State :=
  match s0.eng.step, curRun s0 with
  | some st, some r =>
    let s := slackAll (meterStep st (chargeStep st cycles s0))
    let own : Bool := match st.what with | .run _ => true | _ => false
    let s1 :=
      if stepPoisoned s r own then poisonRerun r s
      else
        let s1 := countDone st.stepSeq cycles s
        match st.what with
        | .run c => runBoundary c r s1
        | .service id => serviceDone id r (modEng (fun e => { e with step := none }) (commitCounts s1))
        | .local' _ q => localDone q r (modEng (fun e => { e with step := none }) (commitCounts s1))
    weaveNext (boundaryTail (closeExchanges s1))
  | _, _ => s0

/-- Every cluster in service has finished the step. -/
def allFinished (s : State) : Bool := (clustersIn s).all fun m => (cluster s m).finished

/-- STEP_BOUNDARY. During a control-plane restart the boundary's effects wait for its end (R452). -/
def stepBoundaryFx (now cycles : Nat) (s0 : State) : State :=
  let s := atTick now s0
  match s.eng.step with
  | none => s
  | some st =>
    if !alive s || st.held.isSome || !allFinished s then s
    else if s.err.restarting then modEng (fun e => { e with step := some { st with held := some cycles } }) s
    else boundaryFx cycles s
def execStepBoundary (now cycles : Nat) (s : State) : Host.Outcome State Fault Refusal := .next (stepBoundaryFx now cycles s)

/-! ## Overrun and watchdog (R143 to R146) -/

/-- STEP_OVERRUN: the step passes step cycle 5,400,000. -/
def stepOverrunFx (s : State) : State :=
  match s.eng.step with
  | none => s
  | some st =>
    if !alive s || st.overrun || st.held.isSome then s
    else bump SEQ_OVERRUN_CNT 1 (modEng (fun e => { e with step := some { st with overrun := true } }) s)
def execStepOverrun (s : State) : Host.Outcome State Fault Refusal := .next (stepOverrunFx s)

/-- Reset a cluster that had not finished: its tile buffers are cleared with the rest, and it is back within 20 us. -/
def clusterReset (s : State) (m : Nat) : State :=
  bump (SEQ_CLU_WDOG_CNT m) 1 (modCluster m (fun c => { c with resetting := true, bufs := [] }) s)

/-- What becomes of the weave: one replay, then its requests fail (R144, R145). -/
def watchdogEnds (what : Running) (s : State) : State :=
  match what with
  | .run c =>
    (match tabGet s.eng.runs c with
     | none => s
     | some r =>
       if r.wdogOnce then
         (let s1 := (runBerths s r).foldl (fun t e => failSoon e.1 stTimeout t) s
          modEng (fun e => { e with runs := tabDel e.runs c }) s1)
       else modEng (fun e => { e with runs := tabMod e.runs c fun r => { r with wdogOnce := true } }) s)
  | .service id =>
    (match s.eng.aux with
     | some r => if r.wdogOnce then serviceFailed id stTimeout s else modEng (fun e => { e with aux := some { r with wdogOnce := true } }) s
     | none => s)
  | .local' _ q =>
    (match s.eng.aux with
     | some r =>
       if r.wdogOnce then localLoss q s.dev.deviceId 3 (modEng (fun e => { e with aux := none }) s)
       else modEng (fun e => { e with aux := some { r with wdogOnce := true } }) s
     | none => s)

/-- The step cycle of the watchdog (R143). -/
def watchdogCycle : Nat := 10800000

/-- The last ENDs of the step come on the cycle of the watchdog (R146): each cluster that has not finished is at its END, which stands
among the events to come with that cycle. -/
def endsAtWatchdog (s : State) : Bool :=
  (clustersIn s).all fun m =>
    (cluster s m).finished ||
      ((curEntry s m).any (fun e => enOp e = opEnd) &&
        s.pending.any fun i => match i with | .endEntry k cyc => k = m && cyc = watchdogCycle | _ => false)

/-- A fence on the tick of the watchdog aborts the step (R66, R146). -/
def fenceAtWatchdog (s : State) : Bool :=
  s.pending.any fun i =>
    match i with
    | .coreUncorrectedError now cyc slots =>
      decide (now ≤ s.tick) && decide (cyc ≤ watchdogCycle) && slots.any fun n => decide (n < 1152) && runsId s n
    | .clusterUe m now _ => decide (now ≤ s.tick) && (cluster s m).present
    | .dieStackFence t now _ => decide (now ≤ s.tick) && decide (t < 4) && !s.core.stacksGone.contains t
    | _ => false

/-- STEP_WATCHDOG: step cycle 10,800,000 without a boundary. Where the step's last ENDs or a fence abort come on the same cycle, they
govern, and the watchdog has no effect (R146). -/
def stepWatchdogFx (now : Nat) (s0 : State) : State :=
  let s := atTick now s0
  match s.eng.step with
  | none => s
  | some st =>
    if !alive s || st.held.isSome || endsAtWatchdog s || fenceAtWatchdog s then s
    else
      let l := (clustersIn s).filter fun m => !(cluster s m).finished
      let s1 := stepAbort watchdogCycle s
      let s2 := bump SEQ_WDOG_CNT 1 (l.foldl clusterReset s1)
      let map := fun (k : Nat) => bitmap 64 fun i => l.contains (64 * k + i)
      let s3 := record { cause := 9, cls := 1, c0 := map 0, c1 := map 1 } s2
      let s4 := watchdogEnds st.what s3
      if s.err.restarting then s4 else weaveNext (boundaryTail s4)
def execStepWatchdog (now : Nat) (s : State) : Host.Outcome State Fault Refusal := .next (stepWatchdogFx now s)

/-- CLUSTER_RESET_COMPLETE: the cluster is back in service. -/
def clusterResetCompleteFx (m : Nat) (s : State) : State := if alive s then modCluster m (fun c => { c with resetting := false }) s else s
def execClusterResetComplete (m : Nat) (s : State) : Host.Outcome State Fault Refusal := .next (clusterResetCompleteFx m s)

end Sys2Proof.Machine
end

