-- ==== Sys2Proof/Machine/Sched.lean ====
section
/-! DEFINITION. Compositions, epochs and fences, share classes, metering and queue sampling (R398 to R406, R414, R416, R418,
R419). -/

namespace Sys2Proof.Machine

/-! ## Share classes (R264, R406) -/

/-- The class that a record describes. -/
def classOf (b : Bytes) : ClassRec :=
  { weight := leAt b 0 1, boostMult := leAt b 1 1, boostUs := leAt b 4 4, tbtDefault := leAt b 8 4, window := leAt b 12 4,
    attWindow := leAt b 16 4, attGlobal := leAt b 20 4 }

/-- A class record keeps its table and its pattern. -/
def classOk (b : Bytes) : Bool :=
  let r := classOf b
  b.length = 32 && decide (1 ≤ r.weight) && decide (1 ≤ r.boostMult) && decide (r.boostMult ≤ 16) && leAt b 2 2 = 0 &&
    decide (1 ≤ r.tbtDefault) && r.window % 1024 = 0 && decide (1024 ≤ r.window) && decide (r.window ≤ 16384) &&
    patternOk r.attWindow r.attGlobal && leAt b 24 8 = 0

/-- Manifests of a class held on the device. -/
def classHeld (s : State) (k : Nat) : Nat := (s.man.berths.filter fun e => e.2.id.shareClass = k).length

def rowShares : OpRow := ⟨0x58, true, true, true, 32, false⟩
def sharesAct (p : Pkt) (s : State) : State :=
  let r := classOf p.payload
  let o := classRec s p.p0
  if (r.window ≠ o.window || r.attWindow ≠ o.attWindow || r.attGlobal ≠ o.attGlobal) && classHeld s p.p0 ≠ 0 then fail 0x58 p stBusy s
  else ok 0x58 p 0 (modSched (fun d => { d with classes := tabSet d.classes p.p0 r {} }) s)

/-- SCH.SHARES. -/
def schSharesFx (p : Pkt) (s : State) : State :=
  receive rowShares p (orFormat (paramsZero p true false false false && decide (p.p0 < 256) && classOk p.payload) 0x58 p (sharesAct p)) s
def execSchShares (p : Pkt) (s : State) : Host.Outcome State Fault Refusal := .next (schSharesFx p s)

/-! ## Reservations (R399, R400) -/

/-- The reservations that a record describes. -/
def compOfBytes (b : Bytes) : CompRec :=
  { berthRsv := leAt b 0 2, berthLim := leAt b 2 2, frameRsv := leAt b 4 4, frameLim := leAt b 8 4, withyRsv := leAt b 12 2,
    withyLim := leAt b 14 2 }

/-- A record keeps its table: a reservation does not exceed a limit that is set. One above the range of its field exceeds the
sums of R400, which give its status. -/
def compOk (b : Bytes) : Bool :=
  let r := compOfBytes b
  b.length = 32 && leAt b 16 16 = 0 && (r.berthLim = 0 || decide (r.berthRsv ≤ r.berthLim)) &&
    (r.frameLim = 0 || decide (r.frameRsv ≤ r.frameLim)) && (r.withyLim = 0 || decide (r.withyRsv ≤ r.withyLim))

/-- The sum of a reservation over all compositions, with a new record for one of them. -/
def rsvSum (s : State) (c : Nat) (r : CompRec) (f : CompRec → Nat) : Nat :=
  f r + ((s.sched.comps.filter fun e => e.1 ≠ c).map fun e => f e.2).sum

def rowCompCreate : OpRow := ⟨0x5A, true, true, true, 32, false⟩
def compCreateAct (p : Pkt) (s : State) : State :=
  let r := compOfBytes p.payload
  if 16384 < rsvSum s p.p0 r CompRec.berthRsv then fail 0x5A p stNoBerth s
  else if framesInService s < rsvSum s p.p0 r CompRec.frameRsv then fail 0x5A p stNoPage s
  else if 1024 < rsvSum s p.p0 r CompRec.withyRsv then fail 0x5A p stBusy s
  else ok 0x5A p 0 (modSched (fun d => { d with comps := tabSet d.comps p.p0 r {} }) s)

/-- COMP.CREATE. -/
def compCreateFx (p : Pkt) (s : State) : State :=
  receive rowCompCreate p
    (orFormat (paramsZero p true false false false && decide (p.p0 < 4096) && compOk p.payload) 0x5A p (compCreateAct p)) s
def execCompCreate (p : Pkt) (s : State) : Host.Outcome State Fault Refusal := .next (compCreateFx p s)

/-! ## Metering (R414) -/

def meterOf (s : State) (c : Nat) : Meter := tabGetD s.sched.meters c {}

/-- Bring a composition's activity up to the present tick, in whole microseconds: its running step, and its ATT.PARTIAL
messages in service. -/
def meterNow (c : Nat) (s : State) : State :=
  let s1 :=
    match s.eng.step with
    | some r =>
      if r.comp = c then
        (let us := (s.tick - r.metered) / 100
         modEng (fun e => { e with step := some { r with metered := r.metered + 100 * us } }) (meterActive c us s))
      else s
    | none => s
  match tabGet s1.sched.serveSince c with
  | some t =>
    (let us := (s1.tick - t) / 100
     modSched (fun d => { d with serveSince := tabPut d.serveSince c (t + 100 * us) }) (meterActive c us s1))
  | none => s1

/-- The meter record. -/
def meterBytes (c : Nat) (m : Meter) (tick : Nat) : Bytes :=
  toLe 2 c ++ toLe 6 0 ++ toLe 8 m.activeUs ++ toLe 8 m.coreCycles ++ toLe 8 m.bytesOut ++ toLe 8 m.bytesIn ++ toLe 8 m.pageMs ++
    toLe 8 tick ++ toLe 8 0

def rowMeter : OpRow := ⟨0x5B, true, true, true, 0, false⟩
def compMeterAct (p : Pkt) (s0 : State) : State :=
  let s := meterNow p.p0 s0
  let b := meterBytes p.p0 (meterOf s p.p0) s.tick
  let s1 := if p.p1 = 1 then modSched (fun d => { d with meters := tabDel d.meters p.p0 }) s else s
  respond 0x5B p b 0 s1

/-- COMP.METER: the record is read, and with CLEAR zeroed, on one cycle. -/
def compMeterFx (p : Pkt) (s : State) : State :=
  receive rowMeter p
    (orFormat (paramsZero p true true false false && decide (p.p0 < 4096) && decide (p.p1 < 2)) 0x5B p (compMeterAct p)) s
def execCompMeter (p : Pkt) (s : State) : Host.Outcome State Fault Refusal := .next (compMeterFx p s)

/-- METER_PAGE_MS_TICK: each millisecond of CLK_MGT adds the page frames charged to each composition. -/
def meterPageMsTickFx (now : Nat) (s0 : State) : State :=
  let s := atTick now s0
  if !alive s || s.tick / msTicks 1 ≤ s.sched.pageMsAt / msTicks 1 then s
  else
    let add := fun (t : Tab Meter) (e : Nat × Frame) =>
      let m := tabGetD t e.2.comp {}
      tabSet t e.2.comp { m with pageMs := min (m.pageMs + 1) cntMax } {}
    modSched (fun d => { d with pageMsAt := s.tick, meters := s.man.frames.foldl add d.meters }) s
def execMeterPageMsTick (now : Nat) (s : State) : Host.Outcome State Fault Refusal := .next (meterPageMsTickFx now s)

/-! ## Epochs and fences (R17, R230, R391, R402 to R405) -/

/-- What a fence, or an end of a window, does to the weaves: at the next boundary the rows that leave become padding; with no
step running they do at once (log 47). -/
def leaveWeaves (s : State) : State := if s.eng.step.isSome then s else turnRows (settle s)

/-- The shaped QPs of a composition leave the timing wheel; what they hold back waits until the fence is lifted. -/
def wheelLeave (c : Nat) (s : State) : State :=
  s.sched.shapers.foldl (fun t e =>
    if e.2.slot.isSome && compOfQp t e.1 = c then modShaper e.1 (fun h => { h with slot := none }) t else t) s

/-- QPs with frames held back that stand on no slot, once their composition is fenced no longer. -/
def wheelReturn (s : State) : State :=
  s.sched.shapers.foldl (fun t e =>
    if e.2.slot.isNone && !e.2.frames.isEmpty && !t.sched.fenced.contains (compOfQp t e.1) then wheelEval e.1 t else t) s

/-- Fence a composition (R405). -/
def fenceComp (c : Nat) (s : State) : State :=
  let s1 := modSched (fun d => { d with fenced := if d.fenced.contains c then d.fenced else c :: d.fenced }) s
  let s2 := s1.man.berths.foldl (fun t e => if compOf t e.2 = c then modProg e.1 (fun q => { q with fenced := true }) t else t) s1
  leaveWeaves (wheelLeave c (msaDiscard (fun o => o.comp = c) s2))

def rowFence : OpRow := ⟨3, true, true, true, 0, false⟩

/-- SYS.FENCE. -/
def sysFenceFx (p : Pkt) (s : State) : State :=
  receive rowFence p (orFormat (paramsZero p true false false false && decide (p.p0 < 4096)) 3 p
    (fun t => ok 3 p 0 (bump SCH_FENCE_CNT 1 (fenceComp p.p0 t)))) s
def execSysFence (p : Pkt) (s : State) : Host.Outcome State Fault Refusal := .next (sysFenceFx p s)

/-- A manifest that fails when the drain window ends without its composition: not FREE, DONE or FAILED (R230). -/
def endsAbsent (s : State) (x : Berth) : Bool :=
  (tabGet s.sched.map (compOf s x)).isNone && x.prog.state ≠ 0 && x.prog.state ≠ 8 && x.prog.state ≠ 9

/-- The end of the drain window (R230, R391, R404). -/
def drainEnds (s : State) : State :=
  let s1 := modSched (fun d => { d with drainEnd := none }) s
  let s2 := s1.man.berths.foldl (fun t e => if endsAbsent t e.2 then failSoon e.1 stEpochStale t else t) s1
  leaveWeaves (msaDiscard (fun o => o.epoch ≠ s.sched.epoch || (tabGet s.sched.map o.comp).isNone) s2)

/-- DRAIN_WINDOW_END. -/
def drainWindowEndFx (now : Nat) (s0 : State) : State :=
  let s := atTick now s0
  match s.sched.drainEnd with
  | some t => if alive s && decide (t ≤ s.tick) then drainEnds s else s
  | none => s
def execDrainWindowEnd (now : Nat) (s : State) : Host.Outcome State Fault Refusal := .next (drainWindowEndFx now s)

/-- One entry of a composition map keeps its layout. -/
def mapEntryOk (b : Bytes) : Bool :=
  leAt b 0 1 < 2 && (if leAt b 0 1 = 1 then leAt b 1 1 ≠ 0 else leAt b 1 1 = 0) && leAt b 2 14 = 0

/-- The entries of a map payload from composition `c` on. -/
def mapEntries : Nat → Nat → Bytes → List (Nat × Bytes)
  | 0, _, _ => []
  | n + 1, c, b => (c, b.take 16) :: mapEntries n (c + 1) (b.drop 16)

/-- A payload of SYS.EPOCH keeps R402. -/
def mapOk (b : Bytes) : Bool := b.length = 65536 && (mapEntries 4096 0 b).all fun e => mapEntryOk e.2

/-- WEIGHT of each composition that a map lists as PRESENT. -/
def mapOf (b : Bytes) : Tab Nat :=
  (mapEntries 4096 0 b).filterMap fun e => if leAt e.2 0 1 = 1 then some (e.1, leAt e.2 1 1) else none

/-- The six effects of an accepted SYS.EPOCH, in order (R403). -/
def epochNext (e ms : Nat) (map : Tab Nat) (s : State) : State :=
  let s1 := if s.sched.drainEnd.isSome then drainEnds s else s
  let s2 := if ms = 0 then s1 else regPut SCH_DRAIN ms s1
  let s3 := modSched (fun d =>
    { d with prev := d.epoch, prevMap := d.map, epoch := e, map := map,
             fenced := d.fenced.filter fun c => (tabGet map c).isNone,
             drainEnd := some (s2.tick + msTicks (regField s2 SCH_DRAIN 9 0)) }) s2
  let s4 := wheelReturn s3
  if s4.eng.step.isSome then s4 else unfence s4

def rowEpoch : OpRow := ⟨4, true, true, true, 65536, false⟩
def epochAct (p : Pkt) (s : State) : State :=
  if p.p0 ≤ s.sched.epoch then fail 4 p stEpochStale s
  else if !(mapOk p.payload && decide (p.p1 ≤ 1000)) then fail 4 p stFormat s
  else ok 4 p 0 (bump SCH_EPOCH_CNT 1 (epochNext p.p0 p.p1 (mapOf p.payload) s))

/-- SYS.EPOCH. -/
def sysEpochFx (p : Pkt) (s : State) : State := receive rowEpoch p (orFormat (paramsZero p true true false false) 4 p (epochAct p)) s
def execSysEpoch (p : Pkt) (s : State) : Host.Outcome State Fault Refusal := .next (sysEpochFx p s)

/-! ## Queue sampling (R418) -/

/-- The bin of a value. -/
def histBin (v : Nat) : Nat := if v = 0 then 0 else if 16384 ≤ v then 15 else Nat.log2 v + 1

/-- Add 1 to a 32-bit bin, which stops at its largest value. -/
def binUp (off : Nat) (s : State) : State := regPut off (min (regGet s off + 1) 0xFFFFFFFF) s

/-- Age of an item in units of 100 ns. -/
def ageOf (s : State) (t : Option Nat) : Nat := match t with | some t => (s.tick - t) / 10 | none => 0

/-- Depth and sojourn of a port's queue. -/
def portSample (s : State) (l : List TxFrame) : Nat × Nat := (l.length, ageOf s (l.head?.map (·.since)))

/-- Rows that a candidate would bring to a weave. -/
def readyRows (s : State) (x : Berth) : Nat :=
  if s.dev.personality = 1 then min (prefillLeft x) (chunkOf (prefillLeft x))
  else 1 + (match draftNow x with | some l => l.length | none => 0)

/-- A candidate is ready from the boundary, or the sample, that first finds it so (log 89). -/
def markReady (s : State) : State :=
  s.man.berths.foldl (fun t e =>
    let c := if isCandidate s e.1 e.2 then some (e.2.candAt.getD s.tick) else none
    if c = e.2.candAt then t else modBerth e.1 (fun x => { x with candAt := c }) t) s

/-- Depth and sojourn of the ready rows. -/
def readySample (s : State) : Nat × Nat :=
  let l := s.man.berths.filter fun e => isCandidate s e.1 e.2
  ((l.map fun e => readyRows s e.2).sum, (l.map fun e => ageOf s e.2.candAt).foldl max 0)

/-- Depth and sojourn of queue `q`. -/
def queueSample (s : State) (q : Nat) : Nat × Nat :=
  if q < 8 then portSample s (portOf s q).tcl else if q < 16 then portSample s (portOf s (q - 8)).tcs else readySample s

/-- QUEUE_SAMPLE_TICK: one sample of the 17 queues. -/
def queueSampleTickFx (now : Nat) (s0 : State) : State :=
  let s := atTick now s0
  if !alive s || s.tick / 100 ≤ s.sched.sampleAt / 100 then s
  else
    let s1 := markReady s
    let add := fun (t : State) (q : Nat) =>
      let v := queueSample s1 q
      binUp (SCH_HIST_SOJ q (histBin v.2)) (binUp (SCH_HIST_DEPTH q (histBin v.1)) t)
    (List.range 17).foldl add (modSched (fun d => { d with sampleAt := s.tick }) s1)
def execQueueSampleTick (now : Nat) (s : State) : Host.Outcome State Fault Refusal := .next (queueSampleTickFx now s)

/-- SCH_HIST_CLEAR: every bin is zeroed, and a sample on this tick is not counted. -/
def schHistClearFx (s : State) : State :=
  if !hostHeard s then s
  else
    let clear := fun (t : State) (i : Nat) => regPut (SCH_HIST_SOJ (i / 16) (i % 16)) 0 (regPut (SCH_HIST_DEPTH (i / 16) (i % 16)) 0 t)
    (List.range 272).foldl clear (modSched (fun d => { d with sampleAt := max d.sampleAt s.tick }) s)
def execSchHistClear (s : State) : Host.Outcome State Fault Refusal := .next (schHistClearFx s)

/-! ## The shaper window (R419) -/

/-- SCH_SHAPE_SEL_WRITE: the selected QP's shaper is copied into SCH_SHAPE_INFO and SCH_SHAPE_TOKENS. -/
def schShapeSelWriteFx (v : Nat) (s : State) : State :=
  if !hostHeard s then s
  else
    let s1 := regSet SCH_SHAPE_SEL v s
    let h := shaperAt s1.tick (shaperOf s1 (regField s1 SCH_SHAPE_SEL 19 0))
    let count : Nat := ((h.count100 / 100) % (2 ^ 25 : Int)).toNat
    regPut SCH_SHAPE_TOKENS count
      (regPut SCH_SHAPE_INFO (h.rate * 2 ^ 32 + b2n h.enabled * 2 ^ 31 + b2n h.slot.isSome * 2 ^ 30 + h.burst) s1)
def execSchShapeSelWrite (value : Nat) (s : State) : Host.Outcome State Fault Refusal := .next (schShapeSelWriteFx value s)

end Sys2Proof.Machine
end

