-- ==== Sys2Proof/Machine/Faults.lean ====
section
/-! DEFINITION. Internal FIFOs, the restarts of the control plane and of the management controller, and the replies and response
messages that answer commands of the device (R317, R318, R328, R432, R449 to R453). -/

namespace Sys2Proof.Machine

/-! ## Internal FIFOs (R432) -/

/-- Unit kind and unit of a FIFO's place (R422). -/
def fifoKind : FifoPlace → Nat
  | .cluster _ => 2
  | .lighter _ => 3
  | .compressor _ => 3
  | .ioDie _ => 10
def fifoUnit : FifoPlace → Nat
  | .cluster m => m
  | .lighter r => r
  | .compressor r => r
  | .ioDie d => d

/-- The place exists. -/
def fifoThere : FifoPlace → Bool
  | .cluster m => decide (m < 128)
  | .lighter r => decide (r < 32)
  | .compressor r => decide (r < 32)
  | .ioDie d => decide (d < 2)

/-- A word of a running step is damaged inside a cluster: where it is delivered is free (log 91). -/
def fifoDamage (p : FifoPlace) (s : State) : State :=
  match p with
  | .cluster m =>
    if s.eng.step.isNone then s
    else
      let x := takeFree 32 s
      let a := (9 * m + x.1 / 2 ^ 17 % 9) * 2 ^ 20 + 8 * (x.1 % 2 ^ 17)
      { x.2 with corePoison := tabSet x.2.corePoison (a / 8) 2 0 }
  | _ => s

/-- FIFO_PARITY_ERROR. -/
def fifoParityErrorFx (p : FifoPlace) (index now : Nat) (s0 : State) : State :=
  let s := atTick now s0
  if !alive s || !fifoThere p then s
  else
    fifoDamage p (record { cause := 0x38, cls := 1, kind := fifoKind p, unit := fifoUnit p, c0 := index }
      (bump ERR_POISON_CNT 1 (bump ERR_FIFO_PAR_CNT 1 s)))
def execFifoParityError (place : FifoPlace) (index now : Nat) (s : State) : Host.Outcome State Fault Refusal :=
  .next (fifoParityErrorFx place index now s)

/-- The unit in which a FIFO overruns has an uncorrected error; on an I/O die the device stops as FATAL. -/
def fifoUnitFails (p : FifoPlace) (now index : Nat) (s : State) : State :=
  match p with
  | .cluster m => clusterUeFx m now .sequencer s
  | .lighter r => lighterUeFx r now s
  | .compressor r => compressorUeFx r now s
  | .ioDie d => fatalShutdown { cause := 0x39, cls := 2, kind := 10, unit := d, c0 := index } s

/-- FIFO_OVERRUN: the write is ignored, and the FIFO's overrun bit is set. -/
def fifoOverrunFx (p : FifoPlace) (index now : Nat) (s0 : State) : State :=
  let s := atTick now s0
  if !alive s || !fifoThere p then s
  else
    let s1 := modErr (fun e => { e with fifoOvr := if e.fifoOvr.contains (p, index) then e.fifoOvr else (p, index) :: e.fifoOvr })
      (bump ERR_FIFO_OVR_CNT 1 s)
    let s2 := match p with
      | .ioDie _ => s1
      | _ => record { cause := 0x39, cls := 1, kind := fifoKind p, unit := fifoUnit p, c0 := index } s1
    fifoUnitFails p now index s2
def execFifoOverrun (place : FifoPlace) (index now : Nat) (s : State) : Host.Outcome State Fault Refusal :=
  .next (fifoOverrunFx place index now s)

/-! ## The control-plane warm restart (R449 to R452) -/

/-- Commands that have received ST_PENDING and do not continue through a restart (R452). -/
def pendingEnds (s : State) : List (Nat × Pkt) :=
  (s.eng.folds.map fun e => (0x38, e.2.pkt)) ++ (s.man.mirrors.map fun e => (0x33, e.2.pkt)) ++
    (s.eng.services.filterMap fun e => e.2.last.map fun p => (0x69, p)) ++
    (match s.flash.holder, s.flash.holderPkt with
     | some (.stage _ _ _ true), some p => [(0x0B, p)]
     | _, _ => [])

/-- Folds in service end: their references go. -/
def foldsEnd (s : State) : State :=
  s.eng.folds.foldl (fun t e =>
    let t1 := e.2.frames.foldl (fun u f => frameUnref f u) t
    serveEnds (arrivalComp t1 e.2.pkt.path) (modEng (fun g => { g with folds := tabDel g.folds e.1 }) t1)) s

/-- A replay in service ends, and so does the wait of one that is to run; a step that is already running goes on to its
boundary. -/
def servicesEnd (s : State) : State :=
  modEng (fun g => { g with services := g.services.filter fun e => e.2.last.isNone }) s

/-- A staged component that waits for its verification lets go of the flash. -/
def stageEnds (s : State) : State :=
  match s.flash.holder with
  | some (.stage _ _ _ true) => flashFree s
  | _ => s

/-- Loads of table sets and withies end, and fills of resident slots with them (R151, R286, R289). -/
def loadsEnd (s : State) : State :=
  let s1 := s.tier.loads.foldl (fun t l => match l.name with | .withy w v => wthEnd (4096 * w + v) t | .table _ => loadEnd l.name t | _ => t) s
  let s2 := modTier (fun t => { t with slots := t.slots.map fun x => if x.state = 1 then { lastErr := x.lastErr } else x }) s1
  let s3 := (s2.tier.wslots.filter fun e => e.2.state = 1).foldl (fun t e => wslotClear e.1 t) s2
  { s3 with msgs := s3.msgs.filter fun m => m.key.opcode ≠ 0x10 && m.key.opcode ≠ 0x18,
            discards := s3.discards.filter fun m => m.key.opcode ≠ 0x10 && m.key.opcode ≠ 0x18 }

/-- A warm restart starts; a further cause joins it. Cause 1 watchdog, 2 SYS.RESTART, 3 host. -/
def restartStart (cause : Nat) (s : State) : State :=
  if s.err.restarting then s
  else
    let l := pendingEnds s
    let s1 := loadsEnd (stageEnds (servicesEnd (foldsEnd s)))
    let s2 := modMan (fun m => { m with mirrors := [] }) s1
    let s3 := resetRegs (fun d _ => d = .cp) s2
    modErr (fun e => { e with restarting := true, restartCause := cause, restartAt := s.tick, owed := l }) s3

/-- CP_WATCHDOG_EXPIRE. -/
def cpWatchdogExpireFx (cp now : Nat) (s0 : State) : State :=
  let s := atTick now s0
  if !alive s || decide (8 ≤ cp) then s
  else
    let s1 := bump ERR_CP_WDOG_CNT 1 (modErr (fun e => { e with cpHung := setBits e.cpHung cp cp 1 }) s)
    restartStart 1 (record { cause := 0x40, cls := 1, kind := 9, unit := cp, c0 := regField s1 ERR_CP_WDOG 9 0 } s1)
def execCpWatchdogExpire (cp now : Nat) (s : State) : Host.Outcome State Fault Refusal := .next (cpWatchdogExpireFx cp now s)

/-- The effects of a boundary that a restart held back (R452). -/
def heldBoundary (s : State) : State :=
  match s.eng.step with
  | some st => (match st.held with | some c => boundaryFx c s | none => s)
  | none => weaveNext (boundaryTail s)

/-- CP_RESTART_COMPLETE. -/
def cpRestartCompleteFx (now : Nat) (s0 : State) : State :=
  let s := atTick now s0
  if !alive s || !s.err.restarting then s
  else
    let s1 := modErr (fun e => { e with restarting := false, owed := [] }) s
    let s2 := s.err.owed.foldl (fun t x => fail x.1 x.2 stBusy t) s1
    let s3 := irqEvent 4 (bump ERR_CP_RESTART_CNT 1 (heldBoundary s2))
    record { cause := 0x41, cls := 0, c0 := s.err.restartCause, c1 := (s.tick - s.err.restartAt) / 100 } s3
def execCpRestartComplete (now : Nat) (s : State) : Host.Outcome State Fault Refusal := .next (cpRestartCompleteFx now s)

/-! ## The management controller (R453) -/

/-- MGT_WATCHDOG_EXPIRE: the management controller alone restarts. -/
def mgtWatchdogExpireFx (now : Nat) (s0 : State) : State :=
  let s := atTick now s0
  if alive s then modErr (fun e => { e with mgtDown := true }) s else s
def execMgtWatchdogExpire (now : Nat) (s : State) : Host.Outcome State Fault Refusal := .next (mgtWatchdogExpireFx now s)

/-! ## Replies and responses to commands of the device (R317, R318, R328) -/

/-- The QP whose SYS.HELLO carries a TAG. -/
def helloOf (s : State) (tag : Nat) : Option Nat := (s.fab.qps.find? fun e => e.2.helloTag = some tag).map (·.1)

/-- SYS.HELLO of the device is answered: the first choice in either direction stands (R328). -/
def helloAnswered (n st result : Nat) (s : State) : State :=
  let v := result % 2 ^ 16
  let f := fun (q : Qp) =>
    if st = stOk && versions.contains v then { q with helloTag := none, evoest := if q.evoest = 0 then v else q.evoest }
    else { q with helloTag := none, noCommon := q.noCommon || st = stVersion }
  afterHello (modQp n f s)

/-- The round of a suspect step whose VERIFY.REPLAY carries a TAG. -/
def roundTag (s : State) (tag : Nat) : Bool :=
  s.eng.runs.any fun e => e.2.suspects.any fun x => match x.peer with | some (_, l, _) => l.contains tag | none => false

/-- TAGs whose replies come as commands of their own: transfers, REQ.ACCEPT, moves, drops, exchanges and forwarded operations
(log 44). -/
def ownTag (s : State) (tag : Nat) : Bool :=
  (berthOfXfer s tag).isSome || (s.man.berths.any fun e => e.2.prog.await && e.2.acceptTag = tag) ||
    (s.man.moves.any fun e => e.2.tgts.any fun t => t.tag = tag) || (tabGet s.eng.exch tag).isSome ||
    (tabGet s.msa.fwd tag).isSome || (tabGet s.msa.gwOut tag).isSome ||
    (match dropOfTag s tag with | some d => (match dropAt s d with | some x => x.mirror.isNone | none => false) | none => false)

/-- REPLY_RECEIVED. -/
def replyAct (r : Rep) (st : Nat) (s : State) : State :=
  match helloOf s r.tag with
  | some n => helloAnswered n st r.result s
  | none =>
    match dropOfTag s r.tag with
    | some d => if ownTag s r.tag then s else dropAnswered d st s
    | none =>
      if s.fab.openTags.contains r.tag then
        (if r.final then modFab (fun f => { f with openTags := f.openTags.filter fun t => t ≠ r.tag }) s else s)
      else s

def replyReceivedFx (r : Rep) (s : State) : State :=
  onReply r (fun t => (helloOf t r.tag).isSome || (dropOfTag t r.tag).isSome || t.fab.openTags.contains r.tag || roundTag t r.tag || ownTag t r.tag)
    (replyAct r) s
def execReplyReceived (r : Rep) (s : State) : Host.Outcome State Fault Refusal := .next (replyReceivedFx r s)

/-- Place a packet of a response message. -/
def respPlace (qp tag opcode offset : Nat) (last : Bool) (b : Bytes) (l : List RespIn) : List RespIn :=
  match l.find? fun x => x.tag = tag with
  | none => ⟨qp, tag, opcode, [(offset, b)], last⟩ :: l
  | some _ => l.map fun x => if x.tag = tag then { x with placed := x.placed ++ [(offset, b)], whole := x.whole || last } else x

/-- RESPONSE_PACKET_RECEIVED: the packet of a command that is outstanding on its QP is placed by OFFSET; another is discarded and
counted, and so is one that names a manifest which is gone (R205, R318). -/
def responsePacketReceivedFx (qp now : Nat) (name : RespName) (opcode offset : Nat) (last : Bool) (b : Bytes) (s0 : State) : State :=
  let s := atTick now s0
  if !alive s then s
  else
    let known : Bool :=
      (match tabGet s.msa.fwd name.tag with | some f => f.qp = qp && f.opcode = opcode | none => false) ||
        (match tabGet s.msa.gwOut name.tag with | some g => g.qp = qp && opcode = 0x53 | none => false)
    if !known then bump CMD_DISCARD_CNT 1 s
    else if staleAnswer s opcode name.mid then bump MAN_STALE_ID_CNT 1 s
    else modFab (fun f => { f with resps := respPlace qp name.tag opcode offset last b f.resps }) s
def execResponsePacketReceived (qp now : Nat) (name : RespName) (opcode offset : Nat) (last : Bool) (payload : Bytes) (s : State) :
    Host.Outcome State Fault Refusal := .next (responsePacketReceivedFx qp now name opcode offset last payload s)

end Sys2Proof.Machine
end

