-- ==== Sys2Proof/Machine/Bringup.lean ====
section
/-! DEFINITION. The package reset, power-up and the device reset (R24, R41, R46, R48, R54, R58, R99, R161, R162, R169, R177, R348,
R449, R456 to R482, R512, R514, R515). -/

namespace Sys2Proof.Machine

/-! ## Resets (R24, R458, R515) -/

/-- A device reset: every DEV, CP and FN register and everything held on the package is lost; the flash, what host software and
pins hold outside it, and PWR registers stand. Power-up runs again from step 2. -/
def deviceReset (s : State) : State :=
  let d : DevSt := { held := false, perst := s.dev.perst, thermtrip := s.dev.thermtrip }
  let m : MgmtSt := { tap := s.mgmt.tap }
  let s1 := match ownedPin s 1 with
    | some n => if s.dev.ready then emit (.pin (.gpio n) false) s else s
    | none => s
  { State.reset with
    pending := s.pending, free := s.free, out := s1.out, dev := d, mgmt := m, man := { gen := s.man.gen },
    flash := { s.flash with holder := none, holderPkt := none, defectFull := false },
    regs := (resetRegs (fun d _ => d ≠ .pwr) s).regs }

/-- Package power has been removed and returned: only the configuration flash keeps what it held, and every register, those of
the PWR domain among them, is at its reset value (R5, R24). The latch of THERMTRIP_N ends with the power (R519). -/
def powerLoss (s : State) : State :=
  { State.reset with
    pending := s.pending, free := s.free, out := s.out,
    flash := { s.flash with holder := none, holderPkt := none, defectFull := false } }

/-- PKG_RESET_RELEASE: power-up begins with every rail in its window; otherwise the ROM stays as after a third failed lock.
A package whose power the board removed meanwhile begins without what it held (R5). -/
def pkgResetReleaseFx (power : PowerOn) (s : State) : State :=
  if !s.dev.held then s
  else
    let s1 := if power.powerLost then powerLoss s else s
    if power.railsGood then modDev (fun d => { d with held := false }) s1
    else modDev (fun d => { d with held := false, inRom := true, rootTries := 2 }) s1
def execPkgResetRelease (power : PowerOn) (s : State) : Host.Outcome State Fault Refusal :=
  .next (pkgResetReleaseFx power s)

/-- PKG_RESET_ASSERT: a device reset at once, with no record and no reply. -/
def pkgResetAssertFx (s : State) : State := modDev (fun d => { d with held := true }) (deviceReset s)
def execPkgResetAssert (s : State) : Host.Outcome State Fault Refusal := .next (pkgResetAssertFx s)

def rowRestart : OpRow := ⟨5, true, true, true, 0, false⟩

/-- SYS.RESTART: the reply is sent before the restart (R449, R458). -/
def restartAct (p : Pkt) (s : State) : State := if p.p0 = 0 then restartStart 2 (ok 5 p 0 s) else deviceReset (ok 5 p 0 s)
def sysRestart (p : Pkt) (s : State) : State :=
  receive rowRestart p (orFormat (paramsZero p true false false false && decide (p.p0 < 2)) 5 p (restartAct p)) s

def sysRestartWarmFx (p : Pkt) (s : State) : State := sysRestart p s
def execSysRestartWarm (p : Pkt) (s : State) : Host.Outcome State Fault Refusal := .next (sysRestartWarmFx p s)

def sysRestartDeviceResetFx (p : Pkt) (s : State) : State := sysRestart p s
def execSysRestartDeviceReset (p : Pkt) (s : State) : Host.Outcome State Fault Refusal := .next (sysRestartDeviceResetFx p s)

/-- A write of DEV_RESET: without its KEY a reserved one; DEVICE prevails over CP_RESTART (R507). After FATAL only a request for
a device reset is heard (R494). -/
def devResetWrite (v : Nat) (s : State) : State :=
  if !readable s || (s.dev.fatal && !(bits v 31 16 = 0x0840 && bit v 1)) then s
  else if bits v 31 16 ≠ 0x0840 then reservedWritten DEV_RESET v s
  else if bit v 1 then deviceReset s
  else if bit v 0 then restartStart 3 s
  else s

def devResetDeviceFx (v : Nat) (s : State) : State := devResetWrite v s
def execDevResetDevice (value : Nat) (s : State) : Host.Outcome State Fault Refusal := .next (devResetDeviceFx value s)
def devResetCpRestartFx (v : Nat) (s : State) : State := devResetWrite v s
def execDevResetCpRestart (value : Nat) (s : State) : Host.Outcome State Fault Refusal := .next (devResetCpRestartFx value s)

/-! ## Step 2: the root synthesizer (R457) -/

/-- Power-up stands at step 2. -/
def atStep2 (s : State) : Bool := !s.dev.held && !s.dev.inRom && !s.dev.recovery && s.dev.phase = 0

/-- ROOT_LOCK_TIMEOUT: 1 ms without lock; after the third failure the package stays in ROM. -/
def rootLockTimeoutFx (s : State) : State :=
  if !atStep2 s then s
  else if s.dev.rootTries < 2 then modDev (fun d => { d with rootTries := d.rootTries + 1 }) s
  else modDev (fun d => { d with inRom := true }) s
def execRootLockTimeout (s : State) : Host.Outcome State Fault Refusal := .next (rootLockTimeoutFx s)

/-! ## Steps 3 and 4: identity and firmware (R463, R475, R479, R480) -/

/-- The identity is reconstructed, and the power-up counter advances. -/
def identityStep (pufGood : Bool) (s : State) : State :=
  let n := (s.flash.counters.getD 1 0 + 1) % 2 ^ 32
  modMan (fun m => { m with gen := n % 256 })
    (modFlash (fun f => { f with counters := listSet f.counters 1 n })
      (modDev (fun d => { d with idValid := pufGood, idKey := if pufGood then Config.identityKey s.flash.helper else [] }) s))

/-- A component's image verifies in a slot: its signature, and its security version (R463). -/
def fwBoots (f : FlashSt) (slot c : Nat) : Bool :=
  fwSigned (fwImage f slot c) && decide (f.counters.getD (2 + c) 0 ≤ Config.fwSecurity (fwImage f slot c))

/-- The slot that a component boots from, and whether it fell back: a pending one boots from its other slot, and a component
whose slot fails boots from the other one (log 65). -/
def fwChoice (f : FlashSt) (c : Nat) : Option (Nat × Bool) :=
  let a := bootSlotOf f c
  let first := if bit f.pending c then 1 - a else a
  if fwBoots f first c then some (first, false)
  else if fwBoots f (1 - first) c then some (1 - first, true)
  else none

/-- Boot one component. The pending mark clears either way. -/
def fwBootOne (c : Nat) (s : State) : State :=
  let x := fwChoice s.flash c
  let slot := match x with | some y => y.1 | none => bootSlotOf s.flash c
  let img := match x with | some y => fwImage s.flash y.1 c | none => []
  let fell : Nat := match x with | some y => b2n y.2 | none => 0
  let staged := if bit s.flash.pending c then setBits s.flash.staged c c 0 else s.flash.staged
  let s1 := modFlash (fun f => { f with pending := setBits f.pending c c 0, bootSlot := setBits f.bootSlot c c slot, staged := staged }) s
  modDev (fun d =>
    { d with bootSlot := setBits d.bootSlot c c slot, fellback := setBits d.fellback c c fell,
             fwVer := listSet d.fwVer c (if x.isSome then Config.fwVersion img else 0),
             fwRunning := listSet d.fwRunning c (img.take (Config.fwLength img)) }) s1

/-- The generation whose pairing entry matches what has booted, 0 when none does. -/
def fwGenOf (s : State) (mgt : Bytes) : Nat :=
  match (Config.fwPairing mgt).find? fun e => e.2 = s.dev.fwVer ++ [3, 0, 0xA1] with
  | some e => e.1
  | none => 0

/-- Step 4. Without a management component the package stays in ROM recovery. -/
def firmwareStep (s : State) : State :=
  let all := [0, 1, 2].all fun c => (fwChoice s.flash c).isSome
  let mgt := (fwChoice s.flash 0).isSome
  let s1 := [0, 1, 2].foldl (fun t c => fwBootOne c t) s
  if !mgt then modDev (fun d => { d with recovery := true }) s1
  else
    let g := fwGenOf s1 (fwImage s1.flash (bootSlotOf s1.flash 0) 0)
    let s2 := modDev (fun d => { d with fwGen := if all then g else 0 }) s1
    if all && g ≠ 0 then s2 else restrictEnter 3 s2

/-! ## Step 5: configuration, grade, licences, features and areas (R161, R162, R466, R467, R469 to R473) -/

/-- The configuration record is selected. Its parking shares divide each die's mooring buffer (R372, R470): QPC_MOOR_N and
QPC_MOOR_S report them, and MSA_GW_CAP reports the rest (R394). -/
def configStep (s : State) : State :=
  let k := cfgPick s.flash
  let raw := if k = 1 then s.flash.cfgA else if k = 2 then s.flash.cfgB else cfgDefaults
  let bad := cfgBad raw
  let s1 := modDev (fun d =>
    { d with cfgSource := k, cfgDefaulted := k = 0, cfgRaw := raw, cfg := cfgApplied raw, fieldDefaulted := !bad.isEmpty,
             fieldLast := match bad with | f :: t => (t.map (·.off)).foldl min f.off | [] => 0 }) s
  let b := cfgApplied raw
  let s2 := modDev (fun d => { d with modes := leAt b 20 4, deviceId := leAt b 18 2 % 4096 }) s1
  let s3 := regPut QPC_MOOR_S (leAt b 34 2) (regPut QPC_MOOR_N (leAt b 32 2)
    (regPut MSA_GW_CAP ((512 - leAt b 34 2) * 2 ^ 16 + (512 - leAt b 32 2)) s2))
  if k = 0 then record { cause := 0x17, cls := 0, c0 := 3 } s3 else s3

/-- The grade record is signed, bound here and laid out as R471 gives. -/
def gradeOk (s : State) : Bool :=
  let b := s.flash.grade
  leAt b 0 4 = 0x45445247 && firmwareSigned b 64 && boundHere s (slice b 4 16) && leAt b 22 42 = 0 && decide (64 ≤ b.length) &&
    ((leAt b 20 1 = 0 && leAt b 21 1 = 7) || (leAt b 20 1 = 1 && decide (leAt b 21 1 < 4)))

/-- An entry of the defect map: its kind and value, when its layout holds. -/
def defectEntry (b : Bytes) : Option (Nat × Nat) :=
  let k := leAt b 0 1
  if leAt b 1 3 = 0 && ((k = 1 && decide (leAt b 4 8 < 1152)) || k = 2) then some (k, leAt b 4 8) else none

/-- Entries of the factory section (log 92), and its layout. -/
def factoryCount (b : Bytes) : Nat := leAt b 4 4
def factoryEntries (b : Bytes) : List (Option (Nat × Nat)) :=
  (List.range (min (factoryCount b) 8191)).map fun i => defectEntry (slice b (16 + 16 * i) 16)
def factoryOk (b : Bytes) : Bool :=
  leAt b 0 4 = 0x50464544 && leAt b 8 8 = 0 && decide (factoryCount b ≤ 8191) && firmwareSigned b (16 + 16 * factoryCount b) &&
    (factoryEntries b).all (·.isSome)

/-- Valid entries of the field section: those whose CRC holds. -/
def fieldEntries (f : FlashSt) : List (Nat × Nat) :=
  f.field.filterMap fun b => if leAt b 12 4 = crc32c (b.take 12) then defectEntry b else none

/-- The defect map in force. -/
def defects (f : FlashSt) : List (Nat × Nat) :=
  (if factoryOk f.factory then (factoryEntries f.factory).filterMap id else []) ++ fieldEntries f

/-- The grade record and the factory section are read. -/
def gradeStep (s : State) : State :=
  let good := gradeOk s
  let s1 := modDev (fun d =>
    { d with gradeValid := good, grade := if good then leAt s.flash.grade 20 1 else 0,
             gradeAbsent := if good then leAt s.flash.grade 21 1 else 0 }) s
  let s2 := modCore (fun c => { c with stacksGone := if good && leAt s.flash.grade 20 1 = 1 then [leAt s.flash.grade 21 1] else [] }) s1
  if good && factoryOk s.flash.factory then s2 else restrictEnter 2 s2

/-- The valid licences are combined (R473), and the personality that the record names runs when one grants it (R10). -/
def licenceStep (s : State) : State :=
  let l := (List.range 4).filter fun n => licValid s (s.flash.lic.getD n [])
  let bodies := l.map fun n => s.flash.lic.getD n []
  let g := (bodies.map licGrants).foldl (fun a b => a ||| b) 0
  let top := (bodies.map licMax).foldl max 0
  let want := leAt s.dev.cfg 16 1
  let runs := want ≠ 0 && decide (want ≤ 3) && bit g (want - 1)
  let s1 := modDev (fun d =>
    { d with licValid := l, licPending := [], grants := g, portsMax := top, portsMin := min top ((bodies.map licMin).foldl max 0),
             contentKeys := (bodies.flatMap licKeys).eraseDups, personality := if runs then want else 0 }) s
  let s2 := if runs then s1 else restrictEnter 2 s1
  if s.dev.deviceId = 0xFFF then restrictEnter 8 s2 else s2

/-- The owner field of resource `n` of a kind. -/
def ownerField (cfg : Bytes) (kind n : Nat) : Nat := leAt cfg (if kind = 0 then 40 + n else if kind = 1 then 56 + n else 72) 1

/-- Resources of a kind. -/
def kindSize (kind : Nat) : Nat := if kind = 2 then 1 else 16

def featEnabled (cfg : Bytes) (f : Nat) : Bool := bit (leAt cfg 36 4) f

/-- The resource that names a feature explicitly. -/
def explicitOf (cfg : Bytes) (f : Nat) : Option Nat :=
  (List.range (kindSize (featureUse f).1)).find? fun n => ownerField cfg (featureUse f).1 n = f + 1

/-- The resource that an enabled feature owns, by name or by default claim (R469). -/
def featOwns (cfg : Bytes) (f : Nat) : Option Nat :=
  let u := featureUse f
  if !featEnabled cfg f then none
  else
    match explicitOf cfg f with
    | some n => some n
    | none =>
      let rival := fun g => featEnabled cfg g && (explicitOf cfg g).isNone && (featureUse g).1 = u.1 && (featureUse g).2.1 = u.2.1 &&
        decide ((featureUse g).2.2 < u.2.2)
      if ownerField cfg u.1 u.2.1 = 0xFF && !((List.range 9).any rival) then some u.2.1 else none

/-- Features take their resources (R469, R470). -/
def featureStep (s : State) : State :=
  let own := (List.range 9).filterMap fun f => (featOwns s.dev.cfg f).map fun n => (f, n)
  let on := bitmap 9 fun f => (featOwns s.dev.cfg f).isSome
  modDev (fun d =>
    { d with owns := own, featuresOn := on, conflict := bitmap 9 fun f => featEnabled d.cfg f && !bit on f,
             telemetryDue := s.tick + 100000000 * leAt d.cfg 76 2, scrubDue := s.tick + 360000000000 * leAt d.cfg 78 2 }) s

/-- Default sizes of a personality: HBM3E STAKE and WITHY, LPDDR5X STAKE and WITHY (R161). -/
def areaDefaults (p : Nat) : Nat × Nat × Nat × Nat :=
  if p = 1 then (8, 4, 40, 120) else if p = 3 then (0, 0, 0, 0) else (8, 12, 40, 120)

/-- A size of the memory plan: 0xFF names the default. -/
def areaSize (v dflt : Nat) : Nat := if v = 0xFF then dflt else v

/-- The areas are laid out; a tier whose plan cannot stand takes its defaults (R161, R162). -/
def areaStep (s : State) : State :=
  let b := s.dev.cfg
  let d := areaDefaults (if s.dev.personality ≠ 0 then s.dev.personality else leAt b 16 1)
  let hs := areaSize (leAt b 24 1) d.1
  let hw := areaSize (leAt b 25 1) d.2.1
  let ls := areaSize (leAt b 26 2) d.2.2.1
  let lw := areaSize (leAt b 28 2) d.2.2.2
  let hBad := !sizeOk 40 (leAt b 24 1) || !sizeOk 40 (leAt b 25 1) || decide (48 < hs + hw + 5)
  let lBad := !sizeOk 256 (leAt b 26 2) || !sizeOk 256 (leAt b 28 2) || decide (256 < ls + lw)
  let s1 := modTier (fun t =>
    { t with hbmStake := if hBad then d.1 else hs, hbmWithy := if hBad then d.2.1 else hw,
             lpxStake := if lBad then d.2.2.1 else ls, lpxWithy := if lBad then d.2.2.2 else lw, areaDef := hBad || lBad }) s
  if hBad || lBad then record { cause := 0x17, cls := 0, c0 := b2n hBad + 2 * b2n lBad } s1 else s1

/-- ROOT_SYNTH_LOCK: the root locks, and steps 3 to 5 run. -/
def rootSynthLockFx (us : Nat) (pufGood : Bool) (s0 : State) : State :=
  if !atStep2 s0 then s0
  else
    let s := modDev (fun d => { d with lock := 31, lockUs := us % 2 ^ 32 }) (atTick (usTicks us) s0)
    let s1 := firmwareStep (identityStep pufGood s)
    if s1.dev.recovery then s1
    else modDev (fun d => { d with phase := 6 }) (areaStep (featureStep (licenceStep (gradeStep (configStep s1)))))
def execRootSynthLock (us : Nat) (pufGood : Bool) (s : State) : Host.Outcome State Fault Refusal := .next (rootSynthLockFx us pufGood s)

/-! ## Step 6: memory training (R54, R169, R177, R512) -/

/-- A die stack is fenced at power-up. -/
def stackFails (t cause : Nat) (s : State) : State :=
  if s.core.stacksGone.contains t then s
  else
    record { cause := 0xE, cls := 1, flags := 2, kind := 4, unit := t, c0 := cause }
      (modCore (fun c => { c with stacksGone := c.stacksGone ++ [t], clusters := c.clusters.filter fun e => e.1 / 32 ≠ t }) s)

/-- HBM3E stacks after training: failed ones take their die stack with them. -/
def hbmTrained (failed : List Nat) (s : State) : State :=
  let s1 := ((List.range 12).filter fun k => failed.contains k).foldl (fun t k => stackFails (k / 3) 3 t) s
  let there := fun k => !s.core.stacksGone.contains (k / 3)
  let f := fun k => if !there k then 0 else if failed.contains k then 2 else if s1.core.stacksGone.contains (k / 3) then 0 else 1
  modTier (fun m => { m with hbm := (List.range 12).map f }) s1

/-- LPDDR5X devices after training: a device that failed takes its set out of service. -/
def lpxTrained (failed : List Nat) (s : State) : State :=
  let lost := fun set => (List.range 8).any fun d => failed.contains (8 * set + d)
  let f := fun d => if !bit s.dev.grants 3 then 0 else if failed.contains d then 2 else if lost (d / 8) then 3 else 1
  modTier (fun m => { m with lpx := (List.range 16).map f }) s

/-- The listed remaps are applied again, 128 to a pseudo-channel. -/
def remapsApplied (s : State) : State :=
  let rows := (((defects s.flash).filter fun e => e.1 = 2).map fun e => rowBase e.2).eraseDups
  rows.foldl (fun t a => if hbmServes t (stackOf a) && remapsLeft t a ≠ 0 then modTier (fun m => { m with remaps := m.remaps ++ [⟨a, false⟩] }) t else t) s

/-- MEMORY_TRAINING_DONE: step 6 ends. -/
def memoryTrainingDoneFx (hbmFailed lpxFailed cmpTargets : List Nat) (s : State) : State :=
  if !alive s || s.dev.phase ≠ 6 then s
  else
    let s1 := remapsApplied (lpxTrained lpxFailed (hbmTrained hbmFailed s))
    let set := fun (t : State) (k : Nat) =>
      match cmpTargets[k]? with
      | some mv => if !t.core.stacksGone.contains k && decide (620 ≤ mv) && decide (mv ≤ 800) then avsSet k mv true t else t
      | none => t
    modDev (fun d => { d with phase := 7 }) ([0, 1, 2, 3].foldl set s1)
def execMemoryTrainingDone (hbmFailed lpxFailed : List Nat) (cmpTargets : List Nat) (s : State) : Host.Outcome State Fault Refusal :=
  .next (memoryTrainingDoneFx hbmFailed lpxFailed cmpTargets s)

/-! ## Steps 7 and 8: known-answer tests and numbering (R46, R48, R58) -/

/-- A slot is present, and the defect map lists it. -/
def slotListed (s : State) (n : Nat) : Bool := (defects s.flash).any fun e => e = (1, n)

/-- A slot whose test failed is fenced: it stands NOT_PRESENT (R46, R116). -/
def katFailed (s : State) (e : Nat × Nat) : State :=
  if decide (1152 ≤ e.1) || s.core.stacksGone.contains (e.1 / 288) || slotListed s e.1 || (coreSlot s e.1).cause ≠ 0 then s
  else
    let s1 := record { cause := 3, cls := 1, flags := 2, kind := 1, unit := e.1, c0 := e.2 } s
    let s2 := record { cause := 6, cls := 1, flags := 2, kind := 1, unit := e.1, c0 := 1, c1 := 0xFFFFFFFF } s1
    defectAppend 1 e.1 (modSlot e.1 (fun c => { c with state := 0, cause := 1 }) s2)

/-- Slots that the defect map lists stand NOT_PRESENT, untested (R48, R116). -/
def listedFenced (l : List (Nat × Nat)) (s : State) : State :=
  (l.filter fun e => e.1 = 1 && decide (e.2 < 1152) && !s.core.stacksGone.contains (e.2 / 288)).foldl
    (fun t e => modSlot e.2 (fun c => { c with state := 0, cause := 5 }) t) s

/-- Sort the slots of a cluster (R48): the eight lowest that passed serve, and the ninth is the spare. Absent with fewer than
seven. -/
def clusterSorted (m : Nat) (s : State) : State :=
  let good := (clusterSlots m).filter fun n => (coreSlot s n).cause = 0
  if good.length < 7 then
    good.foldl (fun t n => modSlot n (fun c => { c with state := 0, cause := 6 }) t)
      (record { cause := 0xB, cls := 1, flags := 2, kind := 2, unit := m, c0 := 4 } s)
  else
    let k := min good.length 8
    let s1 := (good.take k).foldl (fun t n => modSlot n (fun c => { c with state := 1 }) t) s
    let s2 := (good.drop k).foldl (fun t n => modSlot n (fun c => { c with state := 2 }) t) s1
    let c : Cluster := { present := true, cores := k, seven := k = 7 }
    modCore (fun x => { x with clusters := tabPut x.clusters m c }) s2

/-- Slots of an absent die stack. -/
def stackSlots (t : Nat) (s : State) : State :=
  ((List.range 288).map fun k => 288 * t + k).foldl (fun x n =>
    modSlot n (fun c => { c with state := 0, lid := none, cause := 6 }) x) s

/-- A die stack with a second absent cluster is fenced (R54). -/
def stackSecond (s : State) (t : Nat) : State :=
  let gone := ((List.range 32).filter fun i => !(cluster s (32 * t + i)).present).length
  if 2 ≤ gone && !s.core.stacksGone.contains t then
    modTier (fun m => { m with hbm := (List.range 12).map fun k => if k / 3 = t && m.hbm.getD k 0 = 1 then 0 else m.hbm.getD k 0 })
      (stackSlots t (stackFails t 4 s))
  else s

/-- Number the clusters in service and their serving slots (R58). -/
def numbered (s : State) : State :=
  let l := clustersIn s
  (List.range l.length).foldl (fun t i =>
    let m := l.getD i 0
    let serve := (clusterSlots m).filter fun n => (coreSlot t n).state = 1
    let t1 := modCluster m (fun c => { c with logical := i }) t
    (List.range serve.length).foldl (fun u j => modSlot (serve.getD j 0) (fun c => { c with lid := some (8 * i + j) }) u) t1) s

/-- The tests of power-up end, and the cores are numbered. -/
def katPowerUp (failed : List (Nat × Nat)) (s : State) : State :=
  let here := (List.range 4).filter fun t => !s.core.stacksGone.contains t
  let gone := (List.range 4).filter fun t => s.core.stacksGone.contains t
  let listed := defects s.flash
  let s1 := gone.foldl (fun t k => stackSlots k t) (listedFenced listed s)
  let s2 := failed.foldl katFailed s1
  let s3 := (here.flatMap fun t => (List.range 32).map fun i => 32 * t + i).foldl (fun t m => clusterSorted m t) s2
  let s4 := numbered (here.foldl stackSecond s3)
  modDev (fun d => { d with phase := 9 }) (shapeCheck s4)

/-- KAT_COMPLETE: the tests of power-up, or those that TEST.KAT asked for, have ended (log 80). -/
def katCompleteFx (failed : List (Nat × Nat)) (s : State) : State :=
  if !alive s then s
  else if s.dev.phase = 7 then katPowerUp failed s
  else s.core.kats.foldl (fun t p => ok 0x61 p 0 t) (modCore (fun c => { c with kats := [] }) s)
def execKatComplete (failed : List (Nat × Nat)) (s : State) : Host.Outcome State Fault Refusal := .next (katCompleteFx failed s)

/-! ## Steps 9 to 11: microcode, ports, READY (R348, R460, R461) -/

/-- MICROCODE_BROADCAST_DONE: a core that still differs is fenced, and the licensed ports start to train. -/
def microcodeBroadcastDoneFx (stillDiffer : List Nat) (s : State) : State :=
  if !alive s || s.dev.phase ≠ 9 then s
  else
    let s1 := (stillDiffer.filter fun n => (coreSlot s n).state = 1).foldl (fun t n => fenceOne n 1 t) s
    (List.range (min s1.dev.portsMax 8)).foldl (fun t p => portTo p 1 1 t) (modDev (fun d => { d with phase := 10 }) s1)
def execMicrocodeBroadcastDone (stillDiffer : List Nat) (s : State) : Host.Outcome State Fault Refusal :=
  .next (microcodeBroadcastDoneFx stillDiffer s)

/-- PORT_TRAINING_STEP_END: every licensed port is UP, MISWIRED or DOWN. -/
def portTrainingStepEndFx (now : Nat) (s0 : State) : State :=
  let s := atTick now s0
  let ended := (List.range (min s.dev.portsMax 8)).all fun p => (portOf s p).state = 4 || (portOf s p).state = 6 || (portOf s p).state = 7
  if !alive s || s.dev.phase ≠ 10 || !ended then s
  else
    let s1 := modDev (fun d => { d with phase := 11 }) s
    if s1.dev.portsMin ≤ (portsUp s1).length then serviceBegins s1
    else irqEvent 8 (record { cause := 0x25, cls := 1, c0 := bitmap 8 fun p => (portOf s1 p).state = 4 }
      (modFab (fun f => { f with belowMin := true }) s1))
def execPortTrainingStepEnd (now : Nat) (s : State) : Host.Outcome State Fault Refusal := .next (portTrainingStepEndFx now s)

end Sys2Proof.Machine
end

