-- ==== Sys2Proof/Machine/Rings.lean ====
section
/-! DEFINITION. Host rings and doorbells, NOP, and packets that are discarded on arrival (R313, R316, R334 to R341,
R492, R498). -/

namespace Sys2Proof.Machine

/-! ## Operations on rings -/

/-- A ring report: OPCODE 0x00, TAG 0xFFFF_FFFF, with a status and DETAIL (R320, R339, R340). It copies no command, so
its SEQ is a free value; FORMAT and MINOR are the ring's 3.2 and MANIFEST_ID names none (log 36). -/
def ringReport (n status detail : Nat) (s : State) : State :=
  let x := takeFree 32 s
  cqPost (sqCq s n) (replyEntry n (sqRing s n).head
    { format := 3, minor := 2, opcode := 0, final := true, tag := 0xFFFFFFFF, mid := 0xFFFFFFFF, status := status,
      detail := detail, result := 0, seq := x.1 }) x.2

/-- The ring goes to ERROR at a slot: a report with DETAIL 1, and the slot in CMD_SQ_ERRINFO (R340). -/
def ringError (n slot status : Nat) (s : State) : State :=
  irqEvent 5 (ringReport n status 1 (regPut (CMD_SQ_ERRINFO n) (slot % 65536 * 65536 + status) (modSq n (fun q => { q with state := 2 }) s)))

/-- Whether a tail is discarded: it is not below the ring size. A tail below it never lies behind HEAD by more than the
ring allows, counted around the ring (log 34). -/
def tailBad (s : State) (n tail : Nat) : Bool := sqSlots s n ≤ tail

/-- A doorbell write of `value` that enters the FIFO, is discarded, or meets a full FIFO (R338, R339). -/
def doorbellFx (n value : Nat) (good : Bool) (s : State) : State :=
  let q := sqRing s n
  if q.fifo.length = 32 then
    ringReport n stBusy 1 (irqEvent 7 (bump CMD_DB_OVR_CNT 1 (modSq n (fun q => { q with dbOvr := true }) s)))
  else if tailBad s n value then irqEvent 7 (modSq n (fun q => { q with dbErr := true }) s)
  else if value = q.tail then s
  else modSq n (fun q => { q with tail := value, fifo := q.fifo ++ [(value, good)] }) s

/-- Slots between HEAD and the last tail read (R335). -/
def slotsCovered (s : State) (n : Nat) : Nat :=
  ((sqRing s n).reach + sqSlots s n - (sqRing s n).head) % sqSlots s n

/-- Whether a packet of a ring cannot start: its completion ring holds entries (R337), or it is a memory-semantic packet to
forward while 4,096 are outstanding (R380). -/
def ringWaits (s : State) (n opcode : Nat) : Bool :=
  !(cqRing s (sqCq s n)).held.isEmpty ||
    (0x50 ≤ opcode && opcode ≤ 0x52 && decide (4096 ≤ s.msa.fwd.length))

/-- Read and start the packets that the tail covers, each moving HEAD past itself (R335); their effects are the rows of
their opcodes. A failed header or a poisoned read ends in ERROR (R340). -/
def consume (n : Nat) : List SqRead → State → State
  | [], s => s
  | .packet k op :: t, s =>
    if ringWaits s n op || slotsCovered s n < k then s
    else consume n t (modSq n (fun q => { q with head := (q.head + k) % sqSlots s n }) s)
  | .hcrcFail :: _, s => if slotsCovered s n = 0 then s else ringError n (sqRing s n).head stCrc (bump CMD_HCRC_ERR_CNT 1 s)
  | .poison :: _, s => if slotsCovered s n = 0 then s else ringError n (sqRing s n).head stPoison s

/-- Take the next tail from the FIFO, when there is one: a tail whose parity fails is not acted on, and it is the current
tail no longer, so that host software can rewrite it (R335, R339, log 34). -/
def takeTail (n : Nat) (s : State) : State :=
  match (sqRing s n).fifo with
  | [] => s
  | (t, true) :: l => modSq n (fun q => { q with fifo := l, reach := t }) s
  | (_, false) :: l =>
    ringReport n stBusy 2 (irqEvent 7 (bump CMD_DB_PAR_CNT 1 (modSq n (fun q =>
      { q with fifo := l, dbPar := true, tail := if l.isEmpty then q.reach else q.tail }) s)))

/-- The ring goes to DISABLED and its doorbell FIFO is emptied (R340). -/
def sqDisableFx (n : Nat) (s : State) : State := modSq n (fun q => { q with state := 0, fifo := [], reach := q.head }) s

/-- A completion ring goes to DISABLED: what it held is dropped and counted (R340). -/
def cqDisableFx (n : Nat) (s : State) : State :=
  bump CMD_DISCARD_CNT (cqRing s n).held.length (modCq n (fun q => { q with state := 0, held := [], stalled := false, coal := 0 }) s)

/-- Write a ring's control register. While ENABLE is 1 a write of its other listed fields is ignored (R341). -/
def sqCtrlSet (n v : Nat) (s : State) : State :=
  if bit (regGet s (CMD_SQ_CTRL n)) 31 then regPut (CMD_SQ_CTRL n) (setBits (regGet s (CMD_SQ_CTRL n)) 31 31 (bits v 31 31)) s
  else regSet (CMD_SQ_CTRL n) v s

/-- Write a completion ring's control register: SIZE keeps its value while ENABLE is 1 (R341), and a VF's ring takes
vectors 0 to 63 only (R488). -/
def cqCtrlSet (n v : Nat) (s : State) : State :=
  let old := regGet s (CMD_CQ_CTRL n)
  let v1 := if bit old 31 then setBits v 27 24 (bits old 27 24) else v
  if ringOwner s n ≠ 0 && 63 < bits v 21 11 then
    reservedWritten (CMD_CQ_CTRL n) v (regSet (CMD_CQ_CTRL n) (setBits v1 21 11 (bits old 21 11)) s)
  else regSet (CMD_CQ_CTRL n) v1 s

/-- The effect of a write to CMD_SQ_CTRL on the ring's state (R334, R340). -/
def sqCtrlFx (n v : Nat) (s : State) : State :=
  if bit v 31 then
    (let s1 := sqCtrlSet n v s
     if (sqRing s n).state = 0 then modSq n (fun q => { q with state := 1 }) s1 else s1)
  else sqDisableFx n (sqCtrlSet n v s)

/-- The effect of a write to CMD_CQ_CTRL on the ring's state (R336, R340). -/
def cqCtrlFx (n v : Nat) (s : State) : State :=
  if bit v 31 then
    (let s1 := cqCtrlSet n v s
     if (cqRing s n).state = 0 then modCq n (fun q => { q with state := 1 }) s1 else s1)
  else cqDisableFx n (cqCtrlSet n v s)

/-- Whether a write by a function to a window of ring `n` is heard (R489, R494). -/
def windowHeard (s : State) (fn n : Nat) : Bool := hostHeard s && decide (n < 1024) && ringOwner s n = fn

/-! ## The rows -/

/-- R324: NOP is 0x00. -/
def rowNop : OpRow := ⟨0x00, true, true, true, 0, false⟩

/-- NOP is answered ST_OK (R324). -/
def execNop (p : Pkt) (s : State) : Host.Outcome State Fault Refusal :=
  .next (receive rowNop p (orFormat (paramsZero p false false false false) 0x00 p (ok 0x00 p 0)) s)

/-- TOK.STREAM is served by no personality: discarded and counted (R316, R324). -/
def rowTok : OpRow := ⟨0x40, false, false, false, 2 ^ 32, false⟩

def execTokStreamReceived (p : Pkt) (s : State) : Host.Outcome State Fault Refusal :=
  .next (receive rowTok p (bump CMD_DISCARD_CNT 1) s)

/-- ERR.RECORD is served by no personality: discarded and counted (R316, R324). -/
def rowErr : OpRow := ⟨0x68, false, false, false, 2 ^ 32, false⟩

def execErrRecordReceived (p : Pkt) (s : State) : Host.Outcome State Fault Refusal :=
  .next (receive rowErr p (bump CMD_DISCARD_CNT 1) s)

/-- R313: on the fabric and the management port the packet is discarded and counted; a host ring goes to ERROR. The I3C
target and the mailbox locate their packets by their own framing, and discard it too (log 37). -/
def hcrcFx (path : Path) (slot : Nat) (s : State) : State :=
  match path with
  | .ring n => if (sqRing s n).state = 1 then ringError n slot stCrc (bump CMD_HCRC_ERR_CNT 1 s) else s
  | _ => bump CMD_HCRC_ERR_CNT 1 s

def execEvoestHcrcFail (path : Path) (slot : Nat) (s : State) : Host.Outcome State Fault Refusal :=
  .next (if alive s then hcrcFx path slot s else s)

/-- R338, R339, R498: only the owner's doorbell is heard, and only on a ring that is not DISABLED (log 35). -/
def execSqDoorbellWrite (fn ring value : Nat) (parityGood : Bool) (s : State) : Host.Outcome State Fault Refusal :=
  .next (if windowHeard s fn ring && (sqRing s ring).state ≠ 0 then doorbellFx ring value parityGood s else s)

/-- R335: while the control plane restarts no packet is read (R450). -/
def execSqTailConsume (ring : Nat) (reads : List SqRead) (s : State) : Host.Outcome State Fault Refusal :=
  .next (if alive s && (sqRing s ring).state = 1 then
      (let s1 := takeTail ring s
       if s.err.restarting then s1 else consume ring reads s1)
    else s)

/-- Host software returns slots up to a new head (R336 to R338): a head beyond CQ_TAIL is discarded. -/
def cqHeadFx (n value : Nat) (s : State) : State :=
  let q := cqRing s n
  let k := (value + cqSlots s n - q.head) % cqSlots s n
  if cqSlots s n ≤ value || q.used < k then irqEvent 7 (modCq n (fun q => { q with dbErr := true }) s)
  else cqDrain n q.held.length (modCq n (fun q => { q with head := value, used := q.used - k }) s)

/-- R338: a head equal to the tail returns every slot, also when the ring is full. -/
def cqHeadAll (n value : Nat) (s : State) : State :=
  if value = (cqRing s n).tail then
    cqDrain n (cqRing s n).held.length (modCq n (fun q => { q with head := value, used := 0 }) s)
  else cqHeadFx n value s

def execCqHeadDoorbellWrite (fn ring value : Nat) (s : State) : Host.Outcome State Fault Refusal :=
  .next (if windowHeard s fn ring && (cqRing s ring).state = 1 then cqHeadAll ring value s else s)

/-- An entry has waited CMD_CQ_STALL_TMO: STALLED is set and the vector raised, and the ring goes on waiting (R337). -/
def execCqStallTimeout (ring now : Nat) (s0 : State) : Host.Outcome State Fault Refusal :=
  let s := atTick now s0
  .next (match (cqRing s ring).held with
    | [] => s
    | e :: _ =>
      if alive s && !(cqRing s ring).stalled && e.since + msTicks (regField s CMD_CQ_STALL_TMO 13 0) ≤ s.tick then
        irqEvent 6 (msixRaise (ringOwner s ring) (regField s (CMD_CQ_CTRL ring) 21 11) (modCq ring (fun q => { q with stalled := true }) s))
      else s)

/-- The coalescing delay ends with entries pending: the interrupt is raised (R336). A delay of 0 means none. -/
def execCqCoalTimeout (ring now : Nat) (s0 : State) : Host.Outcome State Fault Refusal :=
  let s := atTick now s0
  let us := regField s (CMD_CQ_COAL ring) 15 0
  .next (if alive s && (cqRing s ring).coal ≠ 0 && us ≠ 0 && (cqRing s ring).coalSince + usTicks us ≤ s.tick then cqIrq ring s else s)

/-- R334: `value` is the word written to CMD_SQ_CTRL, with ENABLE 1. -/
def execSqEnable (fn ring value : Nat) (s : State) : Host.Outcome State Fault Refusal :=
  .next (if windowHeard s fn ring then sqCtrlFx ring (setBits value 31 31 1) s else s)

/-- R340: `value` is the word written to CMD_SQ_CTRL, with ENABLE 0. -/
def execSqDisable (fn ring value : Nat) (s : State) : Host.Outcome State Fault Refusal :=
  .next (if windowHeard s fn ring then sqCtrlFx ring (setBits value 31 31 0) s else s)

/-- R336: `value` is the word written to CMD_CQ_CTRL, with ENABLE 1. -/
def execCqEnable (fn ring value : Nat) (s : State) : Host.Outcome State Fault Refusal :=
  .next (if windowHeard s fn ring then cqCtrlFx ring (setBits value 31 31 1) s else s)

/-- R340: `value` is the word written to CMD_CQ_CTRL, with ENABLE 0. -/
def execCqDisable (fn ring value : Nat) (s : State) : Host.Outcome State Fault Refusal :=
  .next (if windowHeard s fn ring then cqCtrlFx ring (setBits value 31 31 0) s else s)

end Sys2Proof.Machine
end

