-- ==== Sys2Proof/Machine/Host.lean ====
section
/-! DEFINITION. PCIe functions, their resets and the link (R487 to R492), and the management paths that carry no Evoest
packet: IPv6 on the management port, I3C, the debug UART, JTAG and the debug trigger (R469, R501 to R506). -/

namespace Sys2Proof.Machine

/-! ## Rings and functions -/

/-- The ring that a register of the FN domain belongs to (R341, R397). -/
def regRing (off : Nat) : Option Nat :=
  match windowRing off with
  | some n => some n
  | none => if 0x810000 ≤ off && off < 0x811000 then some ((off - 0x810000) / 4) else none

/-! ### The configuration header and the SR-IOV capability (R484, R490) -/

/-- The values that the configuration header of a function holds (R484). -/
structure PciHeader where
  vendorId : Nat := 0x6E1D
  deviceId : Nat
  revisionId : Nat := 0xA1
  classCode : Nat := 0x120000
  subsystemVendorId : Nat := 0x6E1D
  subsystemId : Nat
deriving DecidableEq, Repr

/-- The values that the SR-IOV capability of PF0 holds; its page sizes are a bit map in units of 4 KiB (R484). -/
structure SriovCap where
  totalVfs : Nat := 31
  firstVfOffset : Nat := 1
  vfStride : Nat := 1
  pageSizes : Nat := 1
deriving DecidableEq, Repr

def pciHeader (fn : Nat) : PciHeader :=
  if fn = 0 then { deviceId := 0x0840, subsystemId := 0x0840 } else { deviceId := 0x0841, subsystemId := 0x0841 }
def sriovCap : SriovCap := {}

/-- The routing number of a function beside PF0's: First VF Offset and VF Stride place the VFs. -/
def routingOf (fn : Nat) : Nat := if fn = 0 then 0 else sriovCap.firstVfOffset + sriovCap.vfStride * (fn - 1)

/-- A function that exists: PF0, and the VFs that are enabled. -/
def fnExists (s : State) (fn : Nat) : Bool := fn = 0 || (s.pcie.vfEnable && decide (fn ≤ s.pcie.numVfs) && decide (fn ≤ sriovCap.totalVfs))

/-- What a configuration request to the function with a routing number meets: the header, or Request Retry Status (none) while a
function-level reset goes on (R484, R490). No row carries such a request. -/
def configHeader (s : State) (routing : Nat) : Option PciHeader :=
  ((List.range (sriovCap.totalVfs + 1)).find? fun fn => routingOf fn = routing && fnExists s fn && !s.pcie.inFlr.contains fn).map pciHeader

/-- Rings leave for DISABLED with their doorbell FIFOs emptied, and stand as at reset (R488, R490). -/
def ringsReset (p : Nat → Bool) (s : State) : State :=
  let s1 := ((s.sq.map (·.1)).filter p).foldl (fun t n => sqDisableFx n t) s
  let s2 := ((s.cq.map (·.1)).filter p).foldl (fun t n => cqDisableFx n t) s1
  { s2 with sq := tabKeep s2.sq fun n _ => !p n, cq := tabKeep s2.cq fun n _ => !p n }

/-- Return the registers of the rings that `p` names to reset. -/
def ringRegsReset (p : Nat → Bool) (s : State) : State :=
  resetRegs (fun d off => d = .fn && match regRing off with | some n => p n | none => false) s

/-- Change VF Enable and NumVFs: every ring whose owner changes is disabled and reset (R488). -/
def vfSet (on : Bool) (num : Nat) (s : State) : State :=
  let t := modPcie (fun x => { x with vfEnable := on, numVfs := num }) s
  let p := fun n => decide (ringOwner s n ≠ ringOwner t n)
  ringRegsReset p (ringsReset p t)

/-- QPs of TYPE 1 whose completion ring belongs to a function. -/
def fnQps (s : State) (fn : Nat) : List Nat :=
  s.fab.qps.filterMap fun e => if e.2.type = 1 && ringOwner s e.2.peerQp = fn then some e.1 else none

/-- An object in a host window is lost: a snapshot takes its manifest's state with it, a context its QP (R171, R371). A
snapshot still being written leaves the manifest its pages. -/
def windowObjectLost (s : State) (u : WinUse) : State :=
  match u.obj with
  | .snapshot b =>
    match berthAt s b with
    | none => winFree u.obj s
    | some x =>
      if x.swapIn then swapInCompleteFx b s.tick .damaged s
      else
        let s1 := snapGone b (modBerth b (fun y => { y with swapOut := false }) s)
        if x.swapOut then swapAnswer b 0x35 (if x.prog.state = 8 then stOk else stStateLost) s1
        else if x.prog.state = 6 then loseSoon b stStateLost s1 else s1
  | .qpContext n =>
    match qpOf s n with
    | none => winFree u.obj s
    | some q =>
      if q.loc = 2 then qpcFetchFailFx n s.tick s
      else if q.loc = 3 then evictAbandon n s
      else qpError n 5 (winFree u.obj s)

/-- The effects of a function-level reset (R490). The cause that a flushed QP shows is none of R374's: no error
happened on it. -/
def flrFx (fn : Nat) (s : State) : State :=
  let s0 := if fn = 0 then settle (s.tier.winUse.foldl windowObjectLost (vfSet false s.pcie.numVfs s)) else s
  let mine := fun n => decide (ringOwner s0 n = fn)
  let qps := fnQps s0 fn
  let s1 := ringRegsReset mine (ringsReset mine s0)
  let s2 := if fn = 0 then resetRegs (fun d off => d = .fn && (regRing off).isNone) s1 else s1
  let s3 := qps.foldl (fun t n => qpError n 0 t) s2
  settle (modPcie (fun x =>
    { x with msix := tabKeep x.msix fun k _ => decide (k / 2048 ≠ fn), fnMasked := x.fnMasked.filter fun g => g ≠ fn,
             inFlr := fn :: x.inFlr.filter fun g => g ≠ fn }) s3)


def functionLevelResetFx (fn now : Nat) (s0 : State) : State :=
  let s := atTick now s0
  if readable s && fnExists s fn then flrFx fn s else s
def execFunctionLevelReset (fn now : Nat) (s : State) : Host.Outcome State Fault Refusal := .next (functionLevelResetFx fn now s)

/-- The function leaves its reset, within 1 ms (R490). -/
def flrCompleteFx (fn : Nat) (s : State) : State :=
  if s.pcie.inFlr.contains fn then
    bump DEV_FLR_CNT 1 (modPcie (fun x => { x with inFlr := x.inFlr.filter fun g => g ≠ fn }) s)
  else s
def execFlrComplete (fn : Nat) (s : State) : Host.Outcome State Fault Refusal := .next (flrCompleteFx fn s)

def vfEnableChangeFx (enable : Bool) (numVfs : Nat) (s : State) : State :=
  if readable s && decide (numVfs ≤ sriovCap.totalVfs) then vfSet enable numVfs s else s
def execVfEnableChange (enable : Bool) (numVfs : Nat) (s : State) : Host.Outcome State Fault Refusal :=
  .next (vfEnableChangeFx enable numVfs s)

/-- A vector is unmasked: one message goes for its pending bit (R492). -/
def msixUnmaskFx (fn vector : Nat) (s : State) : State :=
  if !(readable s && fnExists s fn && decide (vector < (if fn = 0 then 2048 else 64))) then s
  else
    let v := msixVec s fn vector
    let on := fun (p : Bool) => modPcie (fun x => { x with msix := tabSet x.msix (2048 * fn + vector) { v with masked := false, pending := p } {} }) s
    if v.pending && !s.pcie.fnMasked.contains fn then msixRaise fn vector (on false) else on v.pending
def execMsixUnmask (fn vector : Nat) (s : State) : Host.Outcome State Fault Refusal := .next (msixUnmaskFx fn vector s)

/-! ## PERST# and the link (R459, R491) -/

def linkSet (up flit : Bool) (width speed : Nat) (s : State) : State :=
  modPcie (fun x => { x with up := up, flit := flit, width := width, speed := speed }) s

/-- PERST# falls: the link goes and PF0 is reset, while fabric work goes on (R491). -/
def perstAssertFx (now : Nat) (s0 : State) : State :=
  let s := atTick now s0
  let s1 := modDev (fun d => { d with perst := true }) s
  if readable s && !s.dev.perst then flrFx 0 (linkSet false false 0 0 s1) else s1
def execPerstAssert (now : Nat) (s : State) : Host.Outcome State Fault Refusal := .next (perstAssertFx now s)

/-- Deliver the completion entries that fit now on every ring. -/
def drainAll (s : State) : State := (s.cq.map fun e => (e.1, e.2.held.length)).foldl (fun t e => cqDrain e.1 e.2 t) s

/-- PERST# rises and the link trains (R459, R491); before power-up it only rises. -/
def perstDeassertFx (flit : Bool) (width speed : Nat) (s : State) : State :=
  let s1 := modDev (fun d => { d with perst := false }) s
  if readable s then drainAll (linkSet true flit (width % 64) (speed % 16) s1) else s1
def execPerstDeassert (flit : Bool) (width speed : Nat) (s : State) : Host.Outcome State Fault Refusal :=
  .next (perstDeassertFx flit width speed s)

def pcieHotResetFx (now : Nat) (s0 : State) : State :=
  let s := atTick now s0
  if readable s then flrFx 0 s else s
def execPcieHotReset (now : Nat) (s : State) : Host.Outcome State Fault Refusal := .next (pcieHotResetFx now s)

/-- A loss of the link without a reset: counted, and completion entries wait (R491). -/
def pcieLinkDownFx (s : State) : State :=
  if readable s && s.pcie.up then bump DEV_LINK_DOWN_CNT 1 (linkSet false false 0 0 s) else s
def execPcieLinkDown (s : State) : Host.Outcome State Fault Refusal := .next (pcieLinkDownFx s)

def pcieLinkUpFx (flit : Bool) (width speed : Nat) (s : State) : State :=
  if readable s && !s.dev.perst then drainAll (linkSet true flit (width % 64) (speed % 16) s) else s
def execPcieLinkUp (flit : Bool) (width speed : Nat) (s : State) : Host.Outcome State Fault Refusal :=
  .next (pcieLinkUpFx flit width speed s)

/-! ## I3C (R503) -/

/-- The Provisional ID: manufacturer code, 0, 0x0840, instance 0, DEVICE_ID. -/
def i3cId (s : State) : Nat := Config.mipiCode % 2 ^ 15 * 2 ^ 33 + 0x0840 * 2 ^ 16 + s.dev.deviceId

/-- The target gives its Provisional ID, highest byte first, and takes a dynamic address. -/
def i3cEntdaaFx (address : Nat) (s : State) : State :=
  if s.dev.held || decide (128 ≤ address) then s
  else modMgmt (fun m => { m with i3cAddr := some address }) (emit (.mctp (toLe 6 (i3cId s)).reverse) s)
def execI3cEntdaa (address : Nat) (s : State) : Host.Outcome State Fault Refusal := .next (i3cEntdaaFx address s)

/-- Management firmware runs: not in ROM, and not restarting (R453, R503). -/
def mgtRuns (s : State) : Bool := readable s && !s.dev.recovery && !s.err.mgtDown

/-- DSP0233 gives the answer to a control message (log 69); in ROM there is none. -/
def mctpControlMessageFx (body : Bytes) (s : State) : State :=
  match s.mgmt.i3cAddr with
  | some a => if mgtRuns s then emit (.mctp (Config.mctpAnswer a body)) s else s
  | none => s
def execMctpControlMessage (body : Bytes) (s : State) : Host.Outcome State Fault Refusal := .next (mctpControlMessageFx body s)

/-- The word of CLK_STATUS (R482). -/
def clkStatus (s : State) : Nat := s.dev.rootTries * 256 + s.dev.lock

/-- A vendor message of KIND 1, answered even in ROM (R457, R503). -/
def i3cClkStatusReadFx (s : State) : State := if s.dev.held then s else emit (.mctp (toLe 4 (clkStatus s))) s
def execI3cClkStatusRead (s : State) : Host.Outcome State Fault Refusal := .next (i3cClkStatusReadFx s)

/-! ## UART, JTAG and the debug trigger (R469, R505, R506) -/

/-- Input reaches CP_SHELL when that feature owns the UART. What the shell makes of it is not described. -/
def uartRxFx (b : Bytes) (s : State) : State :=
  if alive s && featureOn s 8 then modMgmt (fun m => { m with shell := m.shell ++ b }) s else s
def execUartRx (bytes : Bytes) (s : State) : Host.Outcome State Fault Refusal := .next (uartRxFx bytes s)

/-- The instruction that the TAP loads: the boundary instructions only while the package reset is held. -/
def tapLoads (held : Bool) (i : JtagInstr) : JtagInstr :=
  match i with
  | .bypass => .bypass
  | .idcode => .idcode
  | .samplePreload => .samplePreload
  | .unknown => .bypass
  | .extest => if held then .extest else .bypass
  | .extestPulse => if held then .extestPulse else .bypass
  | .extestTrain => if held then .extestTrain else .bypass
  | .clamp => if held then .clamp else .bypass
  | .highz => if held then .highz else .bypass

def jtagInstructionFx (i : JtagInstr) (s : State) : State :=
  emit (.jtag (tapLoads s.dev.held i)) (modMgmt (fun m => { m with tap := tapLoads s.dev.held i }) s)
def execJtagInstruction (instr : JtagInstr) (s : State) : Host.Outcome State Fault Refusal := .next (jtagInstructionFx instr s)

/-- An edge on the pin that TRACE_TRIG owns is the debug trigger. What it triggers is not described. -/
def traceTrigInputFx (pin : Nat) (rising : Bool) (s : State) : State :=
  if alive s && ownedPin s 4 = some pin then modMgmt (fun m => { m with trigger := some rising }) s else s
def execTraceTrigInput (pin : Nat) (rising : Bool) (s : State) : Host.Outcome State Fault Refusal := .next (traceTrigInputFx pin rising s)

/-! ## IPv6 on the management port (R501) -/

/-- The interface identifier of the link-local address: from the identity digest, or from DEVICE_ID. -/
def interfaceId (s : State) : Bytes :=
  if s.dev.idValid then (identityDigest s).take 8 else (toLe 8 (0x6E1D084000000000 + s.dev.deviceId)).reverse

/-- The addresses of the management port: link-local fe80::/64, and MGT_ADDR unless it is all zeros. -/
def mgtAddresses (s : State) : List Bytes :=
  let a := slice s.dev.cfg 80 16
  [toLe 8 0x80FE ++ interfaceId s] ++ (if leNat a = 0 then [] else [a])

/-- An echo request for one of the device's addresses is answered with its identifier, sequence number and data. -/
def icmpv6EchoRequestFx (src : Nat) (dst body : Bytes) (s : State) : State :=
  if mgtRuns s && (mgtAddresses s).contains dst then emit (.icmp src body) s else s
def execIcmpv6EchoRequest (src : Nat) (dst body : Bytes) (s : State) : Host.Outcome State Fault Refusal :=
  .next (icmpv6EchoRequestFx src dst body s)

/-- Neighbour discovery for one of the device's addresses (log 69). -/
def neighbourDiscoveryMessageFx (src : Nat) (target body : Bytes) (s : State) : State :=
  if mgtRuns s && (mgtAddresses s).contains target then emit (.icmp src (Config.ndAnswer target body)) s else s
def execNeighbourDiscoveryMessage (src : Nat) (target body : Bytes) (s : State) : Host.Outcome State Fault Refusal :=
  .next (neighbourDiscoveryMessageFx src target body s)

end Sys2Proof.Machine
end

