-- ==== Sys2Proof/Machine/Views.lean ====
section
/-! DEFINITION. What a read of a BAR0 register returns (R22, R124): the stored word, with the RO fields that mirror state held
elsewhere laid over it, and WO fields as 0.

Each view follows the register's table; the block's rule stands in its heading. -/

namespace Sys2Proof.Machine

/-- The index of the register of a family at an offset. -/
def famIdx (base stride off : Nat) : Nat := (off - base) / stride

/-- Whether an offset is that of field `o` of one of `count` windows of a family. -/
def inFam (base stride count o off : Nat) : Bool :=
  decide (base + o ≤ off) && (off - base - o) % stride = 0 && decide ((off - base - o) / stride < count)

/-! ## GLB (R507) -/

def viewGlb (s : State) (off : Nat) : Nat :=
  if off = DEV_ID then 0x0840 * 2 ^ 16 + 0xA1 * 2 ^ 8 + s.dev.grade
  else if off = DEV_STATUS then
    s.dev.deviceId * 2 ^ 16 + s.dev.phase * 2 ^ 12 + s.dev.personality * 2 ^ 8 + 16 * b2n s.fab.belowMin + 8 * b2n s.err.restarting +
      4 * b2n s.dev.fatal + 2 * b2n (restricted s) + b2n s.dev.ready
  else if off = DEV_FN_STATUS then 256 * b2n s.pcie.vfEnable + s.pcie.numVfs
  else if off = DEV_LINK_STATUS then
    2 ^ 15 * b2n s.pcie.up + 2 ^ 12 * b2n s.pcie.flit + 16 * s.pcie.width + s.pcie.speed
  else 0

/-! ## CMD (R341) -/

def viewSq (s : State) (n o : Nat) : Nat :=
  let q := sqRing s n
  if o = 0x10 then q.head * 2 ^ 16 + q.fifo.length * 32 + 16 * b2n q.dbErr + 8 * b2n q.dbPar + 4 * b2n q.dbOvr + q.state
  else if o = 0x14 then q.tail
  else 0

def viewCq (s : State) (n o : Nat) : Nat :=
  let q := cqRing s n
  if o = 0x18 then q.tail * 2 ^ 16 + 8 * b2n q.dbErr + 4 * b2n q.stalled + q.state
  else if o = 0x1C then q.head
  else 0

def viewCmd (s : State) (off : Nat) : Nat :=
  if off = CMD_STATUS then
    4 * b2n (s.cq.any fun e => e.2.stalled) + 2 * b2n (s.sq.any fun e => e.2.dbErr || e.2.dbPar || e.2.dbOvr) +
      b2n (s.sq.any fun e => e.2.state = 2)
  else if 0x110000 ≤ off && off < 0x120000 then viewSq s (famIdx 0x110000 0x40 off) (off % 0x40)
  else if 0x120000 ≤ off && off < 0x130000 then viewCq s (famIdx 0x120000 0x40 off) (off % 0x40)
  else 0

/-! ## MAN (R235) -/

/-- Berths whose manifest is in a state; reserved berths count under FREE. -/
def stateCnt (s : State) (st : Nat) : Nat :=
  if st = 0 then 16384 - (s.man.berths.filter fun e => e.2.prog.state ≠ 0).length
  else (s.man.berths.filter fun e => e.2.prog.state = st).length

def viewMan (s : State) (off : Nat) : Nat :=
  if off = MAN_STATUS then (1024 - s.man.stops.length) * 2 ^ 16 + berthsFree s
  else if inFam 0x200010 4 10 0 off then stateCnt s (famIdx 0x200010 4 off)
  else 0

/-! ## SEQ (R125, R153) -/

def viewStep (s : State) : Nat :=
  let act := activeSlot s
  (match s.tier.pendAct with | some x => x.1 * 2 ^ 10 + 2 ^ 9 | none => 0) +
    (match act with | some n => 2 ^ 8 + 16 * n | none => 0) + b2n s.eng.step.isSome

def viewTbl (s : State) (n o : Nat) : Nat :=
  let t := tblSlot s n
  if o = 0 then (t.fmt / 2 ^ 8 % 2 ^ 8) * 2 ^ 16 + (t.fmt % 2 ^ 8) * 2 ^ 8 + t.lastErr * 16 + t.state
  else if o = 4 then t.setId
  else if o = 8 then t.bytes
  else 0

def viewCore (s : State) (n o : Nat) : Nat :=
  let c := coreSlot s n
  if o = 0 then
    (match c.lid with | some l => 2 ^ 20 + l * 2 ^ 10 | none => 0) + c.cause * 16 + 8 * b2n c.coverTest + c.state
  else if o = 4 then c.deferSteps * 2 ^ 16 + c.testsRun * 2 ^ 8 + c.lastResult * 16 + c.testState
  else 0

/-- The slot of a cluster that satisfies `p`, 0xF for none. -/
def clusterSlotOf (s : State) (m : Nat) (p : CoreSlot → Bool) : Nat :=
  ((List.range 9).find? fun k => p (coreSlot s (9 * m + k))).getD 15

/-- SPARE_SLOT: a slot in SPARE or COVERING, or in TESTING in place. -/
def isSpareSlot (c : CoreSlot) : Bool := c.state = 2 || c.state = 3 || (c.state = 4 && c.home.isNone)

def viewClu (s : State) (m o : Nat) : Nat :=
  let c := cluster s m
  if o = 0 then
    (if c.present then 2 ^ 23 + c.logical * 2 ^ 16 else 0) + clusterSlotOf s m isSpareSlot * 2 ^ 12 +
      clusterSlotOf s m (fun x => x.state = 4) * 2 ^ 8 + c.cores * 16 + b2n c.seven
  else if o = 4 then bitmap 9 fun k => (coreSlot s (9 * m + k)).testState = 1 || (coreSlot s (9 * m + k)).testState = 2
  else 0

def viewSeq (s : State) (off : Nat) : Nat :=
  if off = SEQ_STEP_STATUS then viewStep s
  else if off = SEQ_STEP_SEQ then (match s.eng.step with | some r => r.stepSeq | none => s.eng.lastSeq)
  else if 0x300100 ≤ off && off < 0x300140 then viewTbl s (famIdx 0x300100 0x10 off) (off % 0x10)
  else if 0x380000 ≤ off && off < 0x3C8000 then viewCore s (famIdx 0x380000 0x100 off) (off % 0x100)
  else if 0x3D0000 ≤ off && off < 0x3D2000 then viewClu s (famIdx 0x3D0000 0x40 off) (off % 0x40)
  else 0

/-! ## MEM (R180) -/

/-- Whether any LPDDR5X set serves. -/
def lpxAny (s : State) : Bool := lpxServes s 0 || lpxServes s 1

/-- Extents of the STAKE and WITHY areas of a tier that nothing holds; withdrawn ones are no free space (R178). -/
def extentsLeft (s : State) (lpx : Bool) : Nat :=
  let inArea := fun (e : Nat) => let k := stackOf e; decide (hbmServes s k) && decide (hbmStakeBase k ≤ e) && decide (e < hbmPageBase s k)
  let lost := if lpx then [] else ((s.tier.withdrawn.map extentOf).eraseDups.filter fun e => inArea e && !s.tier.extents.contains e)
  let all := if lpx then 512 * (s.tier.lpxStake + s.tier.lpxWithy) * ((List.range 2).filter (lpxServes s)).length
             else 512 * (s.tier.hbmStake + s.tier.hbmWithy) * ((List.range 12).filter (hbmServes s)).length
  all - (s.tier.extents.filter fun a => decide (lpxBase 0 ≤ a) = lpx).length - lost.length

def viewMem (s : State) (off : Nat) : Nat :=
  if off = MEM_STATUS then
    (bitmap 12 (hbmServes s)) * 2 ^ 8 + 16 * b2n s.tier.winErr + 8 * b2n s.tier.areaDef + 4 * b2n (bit s.dev.grants 3) +
      2 * b2n (lpxServes s 1) + b2n (lpxServes s 0)
  else if off = MEM_AREA_HBM then s.tier.hbmStake * 2 ^ 8 + s.tier.hbmWithy
  else if off = MEM_AREA_LPX then (if lpxAny s then s.tier.lpxWithy * 2 ^ 9 + s.tier.lpxStake else 0)
  else if inFam 0x400100 0x20 12 0 off then
    (let n := famIdx 0x400100 0x20 off
     (if hbmServes s n then stackRemapsLeft s n * 2 ^ 16 else 0) + s.tier.hbm.getD n 0)
  else if inFam 0x400300 0x20 16 0 off then s.tier.lpx.getD (famIdx 0x400300 0x20 off) 0
  else if inFam 0x400600 0x20 16 0 off then 8 * b2n (winInUse s (famIdx 0x400600 0x20 off))
  else if inFam 0x400600 0x20 16 0x18 off then
    ((s.tier.winUse.filter fun u => u.win = famIdx 0x400600 0x20 off).map fun u => u.len).sum
  else if off = MEM_FREE_PAGE_HBM then pagesLeft s false
  else if off = MEM_FREE_PAGE_LPX then (if lpxAny s then pagesLeft s true else 0)
  else if off = MEM_FREE_EXT_HBM then extentsLeft s false
  else if off = MEM_FREE_EXT_LPX then (if lpxAny s then extentsLeft s true else 0)
  else 0

/-! ## LGT and the expander and compressor windows (R202, R263) -/

/-- The region whose queues the lighter of region `r` takes over as backup. -/
def neighbourOf (r : Nat) : Nat := r / 8 * 8 + (r + 1) % 8

/-- The lighter of a region also serves its neighbour. -/
def servesNeighbour (s : State) (r : Nat) : Bool :=
  !s.core.stacksGone.contains (r / 8) && !(regionSt s r).lighterFenced && (regionSt s (neighbourOf r)).lighterFenced

/-- A lighter, or a compressor, is fenced, in a die stack that is present. -/
def regionShows (s : State) (r : Nat) (f : RegionSt → Bool) : Bool := !s.core.stacksGone.contains (r / 8) && f (regionSt s r)

/-- Pages queued for a region's moves, of which 1,023 show. -/
def moveQueue (s : State) (r : Nat) : Nat :=
  if s.core.stacksGone.contains (r / 8) then 0
  else min 1023 (s.man.moves.filter fun e => frameRegion s e.2.frame = r).length

def viewLgt (s : State) (off : Nat) : Nat :=
  if off = LGT_STATUS then bitmap 32 fun r => regionShows s r (·.lighterFenced)
  else if off = LGT_BACKUP then bitmap 32 (servesNeighbour s)
  else if off = LGT_PAGE_GEN then s.man.gen
  else if off = LGT_DESC_BASE then Config.descBase % 2 ^ 48
  else if off = LGT_PAGE_SERIAL then s.man.serial
  else if inFam 0x510000 0x40 32 0 off then
    (let r := famIdx 0x510000 0x40 off
     moveQueue s r * 2 ^ 8 + 2 * b2n (servesNeighbour s r) + b2n (regionShows s r (·.lighterFenced)))
  else if inFam 0x580000 0x40 128 0 off then b2n (!(cluster s (famIdx 0x580000 0x40 off)).expander.isEmpty)
  else if inFam 0x5C0000 0x40 32 0 off then
    (let r := famIdx 0x5C0000 0x40 off
     2 * b2n (regionShows s r (·.compFenced)) + b2n (regionShows s r fun x => !x.coding.isEmpty))
  else 0

/-! ## FAB, QPC and MSA (R373, R374, R397) -/

def viewPort (q : Port) : Nat :=
  q.attempts * 2 ^ 28 + q.lanesUp * 2 ^ 24 + q.lanesDis * 2 ^ 20 + q.plane * 2 ^ 16 + q.linkVer * 2 ^ 8 + q.width * 16 + q.state

def viewLane (s : State) (l : Nat) : Nat :=
  min 255 (histCount (tabGetD s.err.laneHist l []) (msNow s) (1000 * regField s ERR_TH_LANE 27 16)) * 2 ^ 8 + s.fab.lanes.getD l 0

def viewFab (s : State) (off : Nat) : Nat :=
  if off = FAB_STATUS then 2 ^ 12 * b2n s.fab.belowMin + s.dev.portsMin * 2 ^ 8 + bitmap 8 fun p => (portOf s p).state = 4
  else if inFam 0x601000 0x100 8 0 off then viewPort (portOf s (famIdx 0x601000 0x100 off))
  else if inFam 0x601000 0x100 8 8 off then (portOf s (famIdx 0x601000 0x100 off)).delay
  else if inFam 0x602000 0x20 32 0 off then viewLane s (famIdx 0x602000 0x20 off)
  else 0

/-- Contexts that stand on the die: resident ones, and ones that are still being written out. -/
def residentCnt (s : State) : Nat := (s.fab.qps.filter fun e => e.2.loc = 0 || e.2.loc = 3).length

def viewQpc (s : State) (off : Nat) : Nat :=
  if off = QPC_STATUS then (diePinned s 0 + diePinned s 1) * 2 ^ 16 + residentCnt s
  else if off = QPC_MOOR_N then divUp (moorUsed s 0) 1024 * 2 ^ 16
  else if off = QPC_MOOR_S then divUp (moorUsed s 1) 1024 * 2 ^ 16
  else 0

def viewMsa (s : State) (off : Nat) : Nat :=
  if off = MSA_STATUS then s.msa.poisoned.length * 2 ^ 16 + b2n (gwShare s 0 ≠ 0 || gwShare s 1 ≠ 0)
  else if off = MSA_LAST_DEAD then (match s.msa.lastDead with | some d => 2 ^ 31 + d | none => 0)
  else 0

/-! ## SCH and WTH (R306, R419) -/

/-- The run of the running step. -/
def runningRun (s : State) : Option Run :=
  match s.eng.step with
  | none => none
  | some st =>
    match st.what with
    | .run c => tabGet s.eng.runs c
    | .service _ => s.eng.aux
    | .local' _ _ => s.eng.aux

/-- SCH_WEAVE. -/
def viewWeave (s : State) : Nat :=
  match runningRun s with
  | none => 0
  | some r =>
    let b := r.batch
    b.programId * 2 ^ 48 + b.comp * 2 ^ 36 + b.bucket * 2 ^ 33 + 2 ^ 32 + b.liveRows * 2 ^ 19 + b.tokenRows * 2 ^ 8 + b.withies.length

def viewClass (s : State) (k : Nat) : Nat :=
  let c := classRec s k
  classHeld s k * 2 ^ 16 + c.boostMult * 2 ^ 8 + c.weight

def viewComp (s : State) (c o : Nat) : Nat :=
  if o = 0 then
    berthsHeld s c * 2 ^ 16 + tabGetD s.sched.map c 0 * 2 ^ 8 + 4 * b2n (s.sched.fenced.contains c) +
      2 * b2n (tabGet s.sched.prevMap c).isSome + b2n (tabGet s.sched.map c).isSome
  else if o = 8 then unsigned 64 (tabGetD s.sched.credit c 0)
  else if o = 0x10 then framesHeld s c
  else if o = 0x14 then slotsHeld s c
  else 0

/-- Runs in progress; those that await verdicts stand above 4,095. -/
def runsNow (s : State) : Nat := (s.eng.runs.filter fun e => decide (e.1 < 4096)).length

def viewSch (s : State) (off : Nat) : Nat :=
  if off = SCH_STATUS then
    2 ^ 31 * b2n s.sched.drainEnd.isSome + (match s.eng.step with | some st => 2 ^ 30 + st.comp * 2 ^ 16 | none => 0) + runsNow s
  else if off = SCH_EPOCH then s.sched.epoch
  else if off = SCH_EPOCH_PREV then s.sched.prev
  else if off = SCH_DRAIN_LEFT then (match s.sched.drainEnd with | some t => (t - s.tick) / 100 | none => 0)
  else if off = SCH_WHEEL then (s.sched.shapers.filter fun e => e.2.slot.isSome).length * 2 ^ 16 + s.sched.cursor
  else if off = SCH_WEAVE then viewWeave s
  else if inFam 0x920000 0x20 256 0 off then viewClass s (famIdx 0x920000 0x20 off)
  else if 0x940000 ≤ off && off < 0x980000 then viewComp s (famIdx 0x940000 0x40 off) (off % 0x40)
  else if off = WTH_STATUS then (if lpxAny s then (8192 - libUsed s) * 2 ^ 16 else 0) + slotsFree s
  else 0

/-! ## ERR and PERF (R454, R455) -/

def viewErr (s : State) (off : Nat) : Nat :=
  if off = ERR_STATUS then
    s.err.cpHung * 2 ^ 8 + 8 * b2n s.dev.fatal + 4 * b2n s.err.restarting + 2 * b2n s.err.wrap + b2n s.err.rsvdWr
  else if off = ERR_LOG_HEAD then s.err.head
  else 0

def viewPerf (s : State) (off : Nat) : Nat :=
  if off = PERF_VERIFY_STATUS then servicesBusy s * 2 ^ 8 + (s.eng.runs.filter fun e => decide (4096 ≤ e.1)).length else 0

/-! ## CFG, LIC and SEC (R482) -/

def viewCfg (s : State) (off : Nat) : Nat :=
  if off = CFG_STATUS then
    s.dev.restrict * 2 ^ 8 + 2 ^ 7 * b2n (restricted s) + 2 ^ 6 * b2n s.flash.holder.isSome + 2 ^ 5 * b2n s.flash.defectFull +
      2 ^ 4 * b2n s.dev.fieldDefaulted + 8 * b2n s.dev.cfgDefaulted + s.dev.cfgSource
  else if off = CFG_SEQ then cfgSeq s.dev.cfgRaw
  else if off = CFG_FIELD_LAST then s.dev.fieldLast
  else if off = CFG_CONFLICT then s.dev.conflict
  else if off = CFG_FEATURES_ON then s.dev.featuresOn
  else if off = CFG_FW_GEN then s.dev.fwGen
  else if off = CFG_BOOT then s.dev.fellback * 2 ^ 8 + s.flash.pending * 16 + s.dev.bootSlot
  else if inFam 0xC00030 4 3 0 off then s.dev.fwVer.getD (famIdx 0xC00030 4 off) 0
  else if off = CFG_DEFECTS then
    (fieldEntries s.flash).length * 2 ^ 16 + (if factoryOk s.flash.factory then factoryCount s.flash.factory else 0)
  else 0

def viewLic (s : State) (off : Nat) : Nat :=
  let b := fun (n : Nat) => s.flash.lic.getD n []
  if off = LIC_GRANTS then s.dev.portsMax * 2 ^ 24 + s.dev.portsMin * 2 ^ 16 + s.dev.grants
  else if off = LIC_GRADE then
    (if s.dev.gradeValid then 2 ^ 31 + s.dev.gradeAbsent * 2 ^ 8 + s.dev.grade else 0)
  else if inFam 0xC10010 8 4 0 off then
    (let n := famIdx 0xC10010 8 off
     if (b n).isEmpty then 0 else licId (b n))
  else if inFam 0xC10010 8 4 4 off then
    (let n := famIdx 0xC10010 8 off
     2 ^ 31 * b2n (s.dev.licValid.contains n) + 2 ^ 30 * b2n (s.dev.licPending.contains n) +
       (if (b n).isEmpty then 0 else licGrants (b n) % 64))
  else 0

def viewSec (s : State) (off : Nat) : Nat :=
  if off = SEC_STATUS then
    4 * b2n (decide (2 ^ 30 ≤ s.flash.counters.getD 0 0)) + 2 * b2n s.dev.keygen + b2n s.dev.idValid
  else if off = SEC_SIG_NEXT then s.flash.counters.getD 0 0
  else if off = SEC_POWERUP then s.flash.counters.getD 1 0
  else if inFam 0xC20010 4 4 0 off then
    (if s.dev.idValid then leAt (identityDigest s) (4 * famIdx 0xC20010 4 off) 4 else 0)
  else 0

/-! ## CLK and PWR (R482, R524) -/

def viewPwr (s : State) (off : Nat) : Nat :=
  if off = CLK_STATUS then clkStatus s
  else if off = CLK_MGT_COUNT then s.tick
  else if off = CLK_ROOT_LOCK_US then s.dev.lockUs
  else if off = PWR_STATUS then
    s.pwr.level * 2 ^ 16 + 8 * b2n s.pwr.avsErr + 4 * b2n s.pwr.forced + 2 * b2n (overCap s) + b2n s.pwr.thermal
  else 0

/-! ## The MGT mailbox (R507) -/

/-- GO reads as BUSY. -/
def viewMbox (s : State) (off : Nat) : Nat := if off = MGT_MBOX_CTRL then regField s MGT_MBOX_STATUS 0 0 else 0

/-! ## Reading -/

/-- The fields of a register that mirror state. -/
def viewBits (s : State) (off : Nat) : Nat :=
  match off / 2 ^ 20 with
  | 0x0 => viewGlb s off
  | 0x1 => viewCmd s off
  | 0x2 => viewMan s off
  | 0x3 => viewSeq s off
  | 0x4 => viewMem s off
  | 0x5 => viewLgt s off
  | 0x6 => viewFab s off
  | 0x7 => viewQpc s off
  | 0x8 => viewMsa s off
  | 0x9 => viewSch s off
  | 0xA => viewErr s off
  | 0xB => viewPerf s off
  | 0xC => viewCfg s off + viewLic s off + viewSec s off
  | 0xD => viewPwr s off
  | 0xE => viewMbox s off
  | _ => 0

/-- Windows that read 0 because their unit is absent (R153, R180, R202, R263). A fenced or failed stack, and a device that is
out of service, shows its STATE and no count (log 94). -/
def readsZero (s : State) (off : Nat) : Bool :=
  if 0x310000 ≤ off && off < 0x312000 then !(cluster s (famIdx 0x310000 0x40 off)).present
  else if 0x380000 ≤ off && off < 0x3C8000 then 8 ≤ off % 0x100 && s.core.stacksGone.contains (famIdx 0x380000 0x100 off / 288)
  else if 0x3D0000 ≤ off && off < 0x3D2000 then 8 ≤ off % 0x40 && s.core.stacksGone.contains (famIdx 0x3D0000 0x40 off / 32)
  else if 0x400100 ≤ off && off < 0x400280 then off % 0x20 ≠ 0 && s.tier.hbm.getD (famIdx 0x400100 0x20 off) 0 ≠ 1
  else if 0x400300 ≤ off && off < 0x400500 then off % 0x20 ≠ 0 && s.tier.lpx.getD (famIdx 0x400300 0x20 off) 0 ≠ 1
  else if 0x510000 ≤ off && off < 0x510800 then s.core.stacksGone.contains (famIdx 0x510000 0x40 off / 8)
  else if 0x580000 ≤ off && off < 0x582000 then !(cluster s (famIdx 0x580000 0x40 off)).present
  else if 0x5C0000 ≤ off && off < 0x5C0800 then s.core.stacksGone.contains (famIdx 0x5C0000 0x40 off / 8)
  else false

/-- The stored word with WO fields as 0 (R22). -/
def readStored (s : State) (off : Nat) : Nat :=
  (fieldsOf off).foldl (fun w f => if f.acc = .wo then setBits w f.hi f.lo 0 else w) (regGet s off)

/-- What a read of the whole register at its first offset returns (R22). An address that no table lists reads 0. -/
def readReg (s : State) (off : Nat) : Nat :=
  if (regRow? off).isNone || readsZero s off then 0 else readStored s off + viewBits s off

/-- What a 4-byte read at an offset returns: a register of 32 bits, or half of one of 64; the upper half comes from the latch
of R124 when the lower half was read last. -/
def readWord (s : State) (off : Nat) : Nat :=
  match regRow? off with
  | some _ => readReg s off % 2 ^ 32
  | none =>
    match (if 4 ≤ off then regRow? (off - 4) else none) with
    | some d =>
      if d.width = 64 then
        (match s.pcie.latch with
         | some (o, v) => if o = off - 4 then v else readReg s (off - 4) / 2 ^ 32
         | none => readReg s (off - 4) / 2 ^ 32)
      else 0
    | none => 0

end Sys2Proof.Machine
end

