-- ==== Sys2Proof/Machine/HostRegs.lean ====
section
/-! DEFINITION. Host software at the registers: writes and reads of BAR0 that have an effect (R22, R23, R124, R341, R373, R397,
R423, R454, R469, R488, R489, R493 to R497, R507), the MGT mailbox (R453, R504) and the BAR4 window (R499, R500). -/

namespace Sys2Proof.Machine

/-! ## Device events (R493) -/

/-- A write of DEV_IRQ_STATUS clears the bits written 1; an event that falls on the same cycle sets its bit again, and sends its
message. -/
def irqStatusWrite (v eventsNow : Nat) (s : State) : State :=
  (bitsOf 10 eventsNow).foldl (fun t b => irqEvent b t) (regSet DEV_IRQ_STATUS v s)

/-- A write of DEV_IRQ_ENABLE: a bit that goes to 1 over a status bit that is already 1 sends one message. -/
def irqEnableWrite (v : Nat) (s : State) : State :=
  let old := regGet s DEV_IRQ_ENABLE
  let s1 := regSet DEV_IRQ_ENABLE v s
  let fresh := (bitsOf 10 v).filter fun b => !bit old b && bit (regGet s DEV_IRQ_STATUS) b
  fresh.foldl (fun t _ => msixRaise 0 (regField t DEV_IRQ_VECTOR 10 0) t) s1

def devIrqStatusWriteFx (v eventsNow : Nat) (s : State) : State := if hostHeard s then irqStatusWrite v eventsNow s else s
def execDevIrqStatusWrite (value eventsNow : Nat) (s : State) : Host.Outcome State Fault Refusal :=
  .next (devIrqStatusWriteFx value eventsNow s)

def devIrqEnableWriteFx (v : Nat) (s : State) : State := if hostHeard s then irqEnableWrite v s else s
def execDevIrqEnableWrite (value : Nat) (s : State) : Host.Outcome State Fault Refusal := .next (devIrqEnableWriteFx value s)

/-! ## The log window (R445, R446, R454) -/

/-- ERR_LOG_SEL: the entry is copied into ERR_LOG_DATA; one never written reads 0. -/
def logSelWrite (v : Nat) (s : State) : State :=
  let s1 := regSet ERR_LOG_SEL v s
  let b := match tabGet s.err.log (regField s1 ERR_LOG_SEL 9 0) with | some r => vendorBytes r | none => zeros 64
  putWords (ERR_LOG_DATA 0) b s1

def errLogSelWriteFx (v : Nat) (s : State) : State := if hostHeard s then logSelWrite v s else s
def execErrLogSelWrite (value : Nat) (s : State) : Host.Outcome State Fault Refusal := .next (errLogSelWriteFx value s)

/-! ## Writes (R22, R23, R341, R373, R423) -/

/-- Whether a write to a ring's register is ignored because the ring's ENABLE is 1 (R341, R397). -/
def ringHolds (s : State) (off : Nat) : Bool :=
  let sq := fun n => bit (regGet s (CMD_SQ_CTRL n)) 31
  if 0x110000 ≤ off && off < 0x120000 then sq (famIdx 0x110000 0x40 off) && (decide (off % 0x40 < 8) || off % 0x40 = 0xC)
  else if 0x120000 ≤ off && off < 0x130000 then bit (regGet s (CMD_CQ_CTRL (famIdx 0x120000 0x40 off))) 31 && decide (off % 0x40 < 0x10)
  else if 0x810000 ≤ off && off < 0x811000 then sq (famIdx 0x810000 4 off)
  else false

/-- START, and the first unit behind it, of a gate window. -/
def gateSpan (v : Nat) : Nat × Nat := (bits v 8 0, bits v 8 0 + bits v 24 16)

/-- A gate window would reach beyond 500, or an enabled one would overlap another. -/
def gateBad (s : State) (n v : Nat) : Bool :=
  let a := gateSpan v
  let meets := fun k =>
    let w := regGet s (0x600010 + 4 * k)
    let b := gateSpan w
    k ≠ n && bit w 31 && decide (a.1 < b.2) && decide (b.1 < a.2)
  decide (499 < a.1) || (bit v 31 && (decide (500 < a.2) || (List.range 4).any meets))

/-- The two percentages of LGT_DEMOTE do not stand in order, or HIGH exceeds 50. -/
def demoteBad (v : Nat) : Bool := !(bits v 7 0 < bits v 15 8 && bits v 15 8 ≤ 50)

/-- Writes to the registers of a ring's window whose fields mirror the ring's state. -/
def sqWordWrite (n o off v : Nat) (s : State) : State :=
  if o = 8 then sqCtrlFx n v s
  else if o = 0x10 then modSq n (fun q => { q with dbErr := q.dbErr && !bit v 4, dbPar := q.dbPar && !bit v 3, dbOvr := q.dbOvr && !bit v 2 }) s
  else if ringHolds s off then s
  else wordWrite off v s

def cqWordWrite (n o off v : Nat) (s : State) : State :=
  if o = 0x10 then cqCtrlFx n v s
  else if o = 0x18 then modCq n (fun q => { q with dbErr := q.dbErr && !bit v 3 }) s
  else if ringHolds s off then s
  else wordWrite off v s

/-- RW1C fields that mirror state, and registers whose value one field alone cannot judge. -/
def mirrorWrite (off v : Nat) (s : State) : Option State :=
  if off = MEM_STATUS then some (modTier (fun t => { t with winErr := t.winErr && !bit v 4 }) s)
  else if off = ERR_STATUS then
    some (modErr (fun e => { e with cpHung := e.cpHung - Nat.land e.cpHung (bits v 15 8), wrap := e.wrap && !bit v 1, rsvdWr := e.rsvdWr && !bit v 0 }) s)
  else if off = PWR_STATUS then some (modPwr (fun p => { p with avsErr := p.avsErr && !bit v 3 }) s)
  else if off = LGT_DEMOTE then some (if demoteBad v then reservedWritten off v s else demoteCheck (regSet off v s))
  else if inFam 0x600010 4 4 0 off then
    some (if gateBad s (famIdx 0x600010 4 off) v then reservedWritten off v s else regSet off v s)
  else if inFam 0x810000 4 1024 0 off then some (if ringHolds s off then s else regSet off v s)
  else if 0xE01000 ≤ off && off < 0xE04000 then some (regPut off (v % 2 ^ 32) s)
  else none

/-- Registers whose write is an act. MGT_MBOX_CTRL.GO brings a packet with it and is a row of its own. -/
def actWrite (off v : Nat) (s : State) : Option State :=
  if off = DEV_RESET then some (devResetWrite v s)
  else if off = DEV_IRQ_STATUS then some (irqStatusWrite v 0 s)
  else if off = DEV_IRQ_ENABLE then some (irqEnableWrite v s)
  else if off = MGT_MBOX_CTRL then some s
  else if off = MAN_BERTH_SEL then some (manBerthSelWriteFx v s)
  else if off = WTH_SLOT_SEL then some (wthSlotSelWriteFx v s)
  else if off = QPC_SEL then some (qpcSelWriteFx v s)
  else if off = SCH_SHAPE_SEL then some (schShapeSelWriteFx v s)
  else if off = ERR_LOG_SEL then some (logSelWrite v s)
  else if off = SCH_CTRL then some (if bit v 0 then schHistClearFx s else s)
  else if inFam 0x601000 0x100 8 4 off then some (if bit v 0 then retrainFx (famIdx 0x601000 0x100 off) s else s)
  else if 0x400600 ≤ off && off < 0x400800 then some (winFieldWrite off v s)
  else none

/-- A 4-byte write at a PF0 offset. -/
def writeWord (off v : Nat) (s : State) : State :=
  if 0x110000 ≤ off && off < 0x120000 then sqWordWrite (famIdx 0x110000 0x40 off) (off % 0x40) off v s
  else if 0x120000 ≤ off && off < 0x130000 then cqWordWrite (famIdx 0x120000 0x40 off) (off % 0x40) off v s
  else
    match actWrite off v s with
    | some t => t
    | none => match mirrorWrite off v s with | some t => t | none => wordWrite off v s

/-- An 8-byte write: to a 64-bit register at once, to two 32-bit registers one after the other, low address first (R496). -/
def writeLong (off v : Nat) (s : State) : State :=
  match regRow? off with
  | some d =>
    if d.width = 64 then
      (if ringHolds s off then s
       else match winOf off with
         | some n => if winEnabled s n && decide (off % 0x20 < 0x18) then winErrSet s else regSet off v s
         | none => regSet off v s)
    else writeWord (off + 4) (v / 2 ^ 32) (writeWord off (v % 2 ^ 32) s)
  | none => writeWord (off + 4) (v / 2 ^ 32) (writeWord off (v % 2 ^ 32) s)

/-- A BAR0 access of a size or alignment that R496 does not accept. -/
def badAccess (offset size : Nat) : Bool := !((size = 4 || size = 8) && offset % size = 0)

/-- A function exists and is not in its reset. -/
def fnAnswers (s : State) (fn : Nat) : Bool := fnExists s fn && !s.pcie.inFlr.contains fn

/-- Whether a write is heard: after FATAL, a request for a device reset alone (R494). -/
def writeHeard (s : State) (fn offset v : Nat) : Bool :=
  fnAnswers s fn && (hostHeard s || (readable s && fn = 0 && offset = DEV_RESET && bits v 31 16 = 0x0840 && bit v 1))

/-- REG_WRITE, of 4 or 8 bytes, by a function. -/
def regWriteFx (fn offset size v : Nat) (s : State) : State :=
  if !writeHeard s fn offset v then s
  else if badAccess offset size then bump DEV_ACC_ERR_CNT 1 s
  else
    match pfOffset fn offset with
    | none => s
    | some off => if mayWrite s fn off then (if size = 8 then writeLong off v s else writeWord off (v % 2 ^ 32) s) else s
def execRegWrite (fn offset size value : Nat) (s : State) : Host.Outcome State Fault Refusal := .next (regWriteFx fn offset size value s)

/-- REG_RESERVED_WRITE: the same write, whose value a field's table reserves (R23, R423). -/
def regReservedWriteFx (fn offset v : Nat) (s : State) : State := regWriteFx fn offset 4 v s
def execRegReservedWrite (fn offset value : Nat) (s : State) : Host.Outcome State Fault Refusal :=
  .next (regReservedWriteFx fn offset value s)

/-! ## Reads (R22, R124, R153, R469, R496) -/

/-- REG64_LOW_HALF_READ: the upper half is latched for the read that follows. -/
def reg64LowHalfReadFx (offset : Nat) (s : State) : State :=
  match regRow? offset with
  | some d =>
    if readable s && d.width = 64 then
      (let v := readReg s offset
       emit (.readData (toLe 4 (v % 2 ^ 32)) false) (modPcie (fun x => { x with latch := some (offset, v / 2 ^ 32 % 2 ^ 32) }) s))
    else s
  | none => s
def execReg64LowHalfRead (offset : Nat) (s : State) : Host.Outcome State Fault Refusal := .next (reg64LowHalfReadFx offset s)

def seqStepMaxReadFx (s : State) : State := if readable s then readClear SEQ_STEP_MAX s else s
def execSeqStepMaxRead (s : State) : Host.Outcome State Fault Refusal := .next (seqStepMaxReadFx s)

/-- ERR_STATUS_READ: FAULT_OUT returns high (R469). -/
def errStatusReadFx (s : State) : State :=
  if !readable s then s
  else
    let s1 := emit (.readData (toLe 4 (readReg s ERR_STATUS)) false) s
    if !s.dev.faultLow then s1
    else
      let s2 := modDev (fun d => { d with faultLow := false }) s1
      match ownedPin s 0 with
      | some p => emit (.pin (.gpio p) true) s2
      | none => s2
def execErrStatusRead (s : State) : Host.Outcome State Fault Refusal := .next (errStatusReadFx s)

/-- BAR0_BAD_ACCESS: a read returns all ones, a write is discarded; either is counted. A write after FATAL is ignored (R494). -/
def bar0BadAccessFx (write : Bool) (offset size : Nat) (s : State) : State :=
  if !readable s || !badAccess offset size || (write && !hostHeard s) then s
  else
    let s1 := bump DEV_ACC_ERR_CNT 1 s
    if write then s1 else emit (.readData (ones size) false) s1
def execBar0BadAccess (write : Bool) (offset size : Nat) (s : State) : Host.Outcome State Fault Refusal :=
  .next (bar0BadAccessFx write offset size s)

/-! ## The MGT mailbox (R453, R504, R507) -/

/-- What the mailbox does with an opcode that it accepts; any other is answered ST_PD. -/
def mboxAct (opcode : Nat) (p : Pkt) (s : State) : State :=
  if opcode = 0x00 then receive rowNop p (orFormat (paramsZero p false false false false) 0x00 p (ok 0x00 p 0)) s
  else if opcode = 0x02 then sysCapsFx p s
  else if opcode = 0x05 then sysRestart p s
  else if opcode = 0x08 then cfgReadFx p s
  else if opcode = 0x0D then secAttestFx p s
  else fail opcode p stPd (bump CMD_RX_CNT 1 s)

/-- The management controller handles the mailbox packet, a warm restart of the control plane or not: a restart that it asks for
joins one that is in progress (R449). -/
def mboxRun (opcode : Nat) (p0 : Pkt) (s : State) : State :=
  let p := { p0 with path := .mbox }
  if !s.err.restarting then mboxAct opcode p s
  else
    let t := mboxAct opcode p (modErr (fun e => { e with restarting := false }) s)
    if !readable t then t
    else modErr (fun e =>
      { e with restarting := true, restartCause := s.err.restartCause, restartAt := s.err.restartAt, owed := s.err.owed }) t

/-- MGT_MBOX_GO: ignored while BUSY and after FATAL; while the management controller restarts the packet waits for it. -/
def mgtMboxGoFx (opcode : Nat) (p : Pkt) (s0 : State) : State :=
  let s := atTick p.now s0
  if !hostHeard s || regField s MGT_MBOX_STATUS 0 0 = 1 then s
  else
    let s1 := regPut MGT_MBOX_STATUS (setBits (regGet s MGT_MBOX_STATUS) 0 0 1) s
    if s.err.mgtDown then modMgmt (fun m => { m with mboxWait := some (opcode, p) }) s1 else mboxRun opcode p s1
def execMgtMboxGo (opcode : Nat) (p : Pkt) (s : State) : Host.Outcome State Fault Refusal := .next (mgtMboxGoFx opcode p s)

/-- MGT_RESTART_COMPLETE: the records held back leave, MGT_RESTART follows them, and a mailbox packet that waited is handled. -/
def mgtRestartCompleteFx (now : Nat) (s0 : State) : State :=
  let s := atTick now s0
  if !alive s || !s.err.mgtDown then s
  else
    let s1 := modMgmt (fun m => { m with mboxWait := none }) (modErr (fun e => { e with mgtDown := false, heldRecs := [] }) s)
    let s2 := record { cause := 0x42, cls := 1, kind := 10 } (s.err.heldRecs.foldl (fun t r => recSend r t) s1)
    match s.mgmt.mboxWait with
    | some x => mboxRun x.1 x.2 s2
    | none => s2
def execMgtRestartComplete (now : Nat) (s : State) : Host.Outcome State Fault Refusal := .next (mgtRestartCompleteFx now s)

/-! ## The debug window, BAR4 (R155, R167, R499, R500) -/

/-- First DPA of the window. -/
def bar4Base (s : State) : Nat := 2 ^ 28 * regField s DEV_BAR4_CTRL 31 12
def bar4Open (s : State) : Bool := regField s DEV_BAR4_CTRL 0 0 = 1

/-- The DPAs that the window reaches: HBM3E stacks in service, and context SRAM. -/
def bar4Reaches (s : State) (a : Nat) : Bool :=
  if a < hbmBase 12 then hbmServes s (stackOf a) else 0x20000000000 ≤ a && a < 0x20001000000

/-- Whether a DPA of context SRAM lies in the memory-semantic area (R375). -/
def inMsaArea (a : Nat) : Bool := 0x700000 ≤ a % 0x800000

/-- The place of a DPA in an object held in extents. -/
def extOffset (l : List Nat) (a : Nat) : Option Nat :=
  (List.range l.length).findSome? fun i =>
    let e := l.getD i 0
    if e ≤ a && a < e + extBytes then some (extBytes * i + (a - e)) else none

/-- The withy version whose resident copy holds a DPA, and the place in its image. -/
def residentAt (s : State) (a : Nat) : Option (Nat × Nat) :=
  s.tier.wslots.findSome? fun w => if w.2.state = 2 then (extOffset w.2.ext a).map fun o => (w.2.ver, o) else none

/-- The table slot and the place in its image at a DPA of the TABLE area. -/
def tableAt (a : Nat) : Option (Nat × Nat) :=
  let o := a - hbmBase (stackOf a)
  if stackOf a % 3 = 0 && gib ≤ o && o < 5 * gib then some (o / gib - 1, o % gib) else none

/-- Frames whose bytes the model holds in another form: page-table roots and table frames. -/
def frameOpaque (s : State) (a : Nat) : Bool :=
  match frameNo s a with
  | none => false
  | some f => match frameAt s f with | some x => x.use = .root || x.use = .table | none => false

/-- The byte at a DPA of a page-table root or a table frame (R237, R238). -/
def pageTableByte (s : State) (a : Nat) : Option Byte :=
  (frameNo s a).bind fun f =>
    let o := a - frameDpa s f
    s.man.berths.findSome? fun e =>
      let t := e.2.table
      if t.root = some f then (rootImage s t)[o]?
      else (t.tables.idxOf? f).bind fun n => (entryImage (entryShown s (ptGet t (4608 * n + o / 16))))[o % 16]?

/-- The descriptor of a page frame that is held (R242). -/
def descImage (s : State) (f : Nat) (x : Frame) : Bytes :=
  toLe 8 x.pageId ++ toLe 8 x.requestId ++ toLe 6 (frameDpa s f) ++ toLe 1 x.layer ++ toLe 1 (x.state + 8 * b2n x.coded + 16 * b2n x.lpx) ++
    toLe 4 x.index ++ toLe 4 x.crc ++ toLe 2 x.storedLen ++ toLe 2 x.owner ++ toLe 2 x.committed ++ toLe 1 x.spec ++ toLe 1 0 ++
    toLe 6 x.ovfDpa ++ toLe 2 x.partner ++ zeros 16

/-- The byte at a DPA of the descriptor array. Of a FREE frame's descriptor the table gives only DPA, STATE and TIER (R242). -/
def descByte (s : State) (a : Nat) : Option Byte :=
  let d := Config.descBase % 2 ^ 48
  let f := (a - d) / 64
  let o := (a - d) % 64
  let frames := ((pageAreas s).map (·.2)).sum
  if a < d || frames ≤ f then none
  else
    match frameAt s f with
    | some x => (descImage s f x)[o]?
    | none => if (16 ≤ o && o < 22) || o = 23 then (descImage s f { lpx := !decide (frameDpa s f < hbmBase 12) })[o]? else none

/-- The byte at a DPA that the window reaches: page tables and frame descriptors as R237, R238 and R242 lay them out; none where no
rule says what stands there (log 95). -/
def bar4Byte (s : State) (a : Nat) : Option Byte :=
  if hbmBase 12 ≤ a then (if inMsaArea a then some (cellRead s.mem a) else none)
  else if a - hbmBase (stackOf a) < gib then descByte s a
  else if frameOpaque s a then pageTableByte s a
  else
    match tableAt a with
    | some (n, o) =>
      if 2 ≤ (tblSlot s n).state && !(tblSlot s n).damaged.contains (stackOf a / 3) then (tblSlot s n).image[o]? else none
    | none =>
      match residentAt s a with
      | some (key, o) => (match withyHeld s key with | some w => w.image[o]? | none => none)
      | none =>
        if s.tier.loads.any fun l => (extOffset l.extents a).isSome then none else some (cellRead s.mem a)

/-- Read the bytes from `a` on, a free value for each that is open. -/
def bar4Bytes (a : Nat) : Nat → State → Bytes × State
  | 0, s => ([], s)
  | n + 1, s =>
    match bar4Byte s a with
    | some b => let r := bar4Bytes (a + 1) n s; (b :: r.1, r.2)
    | none =>
      let x := takeFree 8 s
      let r := bar4Bytes (a + 1) n x.2
      (BitVec.ofNat 8 x.1 :: r.1, r.2)

/-- C0 of the records of R422 for the object that holds a DPA; 0 where none does. -/
def objectCodeAt (s : State) (a : Nat) : Nat :=
  match frameNo s a with
  | some f => (match frameAt s f with | some x => if isSealed x then 1 else 5 | none => 0)
  | none =>
    if (tableAt a).isSome then 4
    else if (residentAt s a).isSome then 3
    else if s.tier.stakes.any fun k => extHolds a (stakeExtents k.2) then 2
    else 0

/-- An uncorrected error that a read of the window meets (R176, R179, R389). -/
def bar4Ue (a : Nat) (s : State) : State :=
  let s1 := { s with memPoison := tabPut s.memPoison (a / 8) 2 }
  if a < hbmBase 12 then
    let s2 := record { cause := 0x14, cls := 1, kind := 5, unit := stackOf a, addr := a, c0 := objectCodeAt s a }
      (bump (MEM_HBM_UE_CNT (stackOf a)) 1 s1)
    match tableAt a with
    | some (n, _) => repairNow (if 2 ≤ (tblSlot s n).state then tableDamage n (stackOf a / 3) a s2 else s2)
    | none => repairNow (damageAt s2 a)
  else
    let die := a % 0x1000000 / 0x800000
    let area := a % 0x800000 - 0x700000 + 0x100000 * die
    if inMsaArea a then sramUeFx s.tick a (.msaLine (area / 64)) s
    else record { cause := 0x11, cls := 1, kind := 10, unit := die, addr := a } s1

/-- BAR4_READ. -/
def bar4ReadFx (offset len : Nat) (uncorrected : Bool) (s : State) : State :=
  let a := bar4Base s + offset
  if !readable s || 2 ^ 28 < offset + len || len = 0 then s
  else if !bar4Open s || (List.range len).any fun i => !bar4Reaches s (a + i) then emit (.readData (ones len) false) s
  else
    let r := bar4Bytes a len s
    let poisoned := uncorrected || (memTags s a len).any fun t => t ≠ 0
    let s1 := emit (.readData r.1 poisoned) r.2
    if uncorrected && alive s then bar4Ue a s1 else s1
def execBar4Read (offset len : Nat) (uncorrected : Bool) (s : State) : Host.Outcome State Fault Refusal :=
  .next (bar4ReadFx offset len uncorrected s)

/-- Apply one byte of a write: the word gets fresh check bits, and no descriptor, count or CRC changes. A table copy that it
changes no longer matches the image, and a byte of a page table or of the SYS area, which the model holds in another form, is not
kept (log 95). -/
def bar4Put (a : Nat) (b : Byte) (s : State) : State :=
  if !bar4Reaches s a then s
  else if hbmBase 12 ≤ a then (if inMsaArea a then memStore a [b] s else s)
  else
    match tableAt a with
    | some (n, o) =>
      if (tblSlot s n).image[o]? = some b || (tblSlot s n).state < 2 then s
      else modTbl n (fun t => { t with damaged := (stackOf a / 3 :: t.damaged).eraseDups }) s
    | none =>
      match residentAt s a with
      | some (key, o) => modWithy key (fun w => { w with image := listSet w.image o b }) s
      | none =>
        if a - hbmBase (stackOf a) < gib || frameOpaque s a then s
        else
          let t := memStore a [b] s
          { t with memPoison := tabDel t.memPoison (a / 8) }

/-- The bytes of a write whose enables are set. -/
def bar4Puts (a : Nat) : List (Option Byte) → State → State
  | [], s => s
  | none :: l, s => bar4Puts (a + 1) l s
  | some b :: l, s => bar4Puts (a + 1) l (bar4Put a b s)

/-- BAR4_WRITE: applied only with ENABLE and WRITE set in restricted mode; any other is discarded and counted. -/
def bar4WriteFx (offset : Nat) (bytes : List (Option Byte)) (s : State) : State :=
  if !hostHeard s || 2 ^ 28 < offset + bytes.length then s
  else if bar4Open s && regField s DEV_BAR4_CTRL 1 1 = 1 && restricted s then bar4Puts (bar4Base s + offset) bytes s
  else bump DEV_BAR4_DISCARD_CNT 1 s
def execBar4Write (offset : Nat) (bytes : List (Option Byte)) (s : State) : Host.Outcome State Fault Refusal :=
  .next (bar4WriteFx offset bytes s)

end Sys2Proof.Machine
end

