-- ==== Sys2Proof/Machine/Dispatch.lean ====
section
/-! DEFINITION. One arm per command or event: a direct call of its meaning. -/

namespace Sys2Proof.Machine

/-- The effect of one command or event on everything but the queue. -/
def exec (i : Instr) (s : State) : Host.Outcome State Fault Refusal :=
  match i with
  | .nop p => Sys2Proof.Machine.execNop p s
  | .sysHello p => Sys2Proof.Machine.execSysHello p s
  | .sysCaps p => Sys2Proof.Machine.execSysCaps p s
  | .sysFence p => Sys2Proof.Machine.execSysFence p s
  | .sysEpoch p => Sys2Proof.Machine.execSysEpoch p s
  | .sysRestartWarm p => Sys2Proof.Machine.execSysRestartWarm p s
  | .sysRestartDeviceReset p => Sys2Proof.Machine.execSysRestartDeviceReset p s
  | .cfgRead p => Sys2Proof.Machine.execCfgRead p s
  | .cfgWrite p => Sys2Proof.Machine.execCfgWrite p s
  | .licInstall p => Sys2Proof.Machine.execLicInstall p s
  | .fwStage p => Sys2Proof.Machine.execFwStage p s
  | .fwCommit p => Sys2Proof.Machine.execFwCommit p s
  | .secAttest p => Sys2Proof.Machine.execSecAttest p s
  | .tblLoad p => Sys2Proof.Machine.execTblLoad p s
  | .tblActivate p => Sys2Proof.Machine.execTblActivate p s
  | .tblRetire p => Sys2Proof.Machine.execTblRetire p s
  | .stkLoad p => Sys2Proof.Machine.execStkLoad p s
  | .stkRetire p => Sys2Proof.Machine.execStkRetire p s
  | .wthLoad p => Sys2Proof.Machine.execWthLoad p s
  | .wthRetire p => Sys2Proof.Machine.execWthRetire p s
  | .wthQuery p => Sys2Proof.Machine.execWthQuery p s
  | .reqAdmit p => Sys2Proof.Machine.execReqAdmit p s
  | .reqAppend p => Sys2Proof.Machine.execReqAppend p s
  | .reqHandoffRetarget p => Sys2Proof.Machine.execReqHandoffRetarget p s
  | .reqHandoffTransfer p => Sys2Proof.Machine.execReqHandoffTransfer p s
  | .reqAccept p => Sys2Proof.Machine.execReqAccept p s
  | .reqCancel p => Sys2Proof.Machine.execReqCancel p s
  | .reqQuery p => Sys2Proof.Machine.execReqQuery p s
  | .reqRebuild p => Sys2Proof.Machine.execReqRebuild p s
  | .reqRelease p => Sys2Proof.Machine.execReqRelease p s
  | .reqDraft p => Sys2Proof.Machine.execReqDraft p s
  | .pagePut p => Sys2Proof.Machine.execPagePut p s
  | .pageGet p => Sys2Proof.Machine.execPageGet p s
  | .pageSeal p => Sys2Proof.Machine.execPageSeal p s
  | .pageMirrorCopy p => Sys2Proof.Machine.execPageMirrorCopy p s
  | .pageMirrorClose p => Sys2Proof.Machine.execPageMirrorClose p s
  | .pageMirrorRepair p => Sys2Proof.Machine.execPageMirrorRepair p s
  | .pageMirrorDone p => Sys2Proof.Machine.execPageMirrorDone p s
  | .pageMirrorPartial p => Sys2Proof.Machine.execPageMirrorPartial p s
  | .pageDrop p => Sys2Proof.Machine.execPageDrop p s
  | .pageSwapOut p => Sys2Proof.Machine.execPageSwapOut p s
  | .pageSwapIn p => Sys2Proof.Machine.execPageSwapIn p s
  | .attPartial p => Sys2Proof.Machine.execAttPartial p s
  | .attResult p => Sys2Proof.Machine.execAttResult p s
  | .tokStreamReceived p => Sys2Proof.Machine.execTokStreamReceived p s
  | .qpCreate p => Sys2Proof.Machine.execQpCreate p s
  | .qpModify p => Sys2Proof.Machine.execQpModify p s
  | .qpDestroy p => Sys2Proof.Machine.execQpDestroy p s
  | .pdCreate p => Sys2Proof.Machine.execPdCreate p s
  | .regionRegister p => Sys2Proof.Machine.execRegionRegister p s
  | .regionDeregister p => Sys2Proof.Machine.execRegionDeregister p s
  | .recvPost p => Sys2Proof.Machine.execRecvPost p s
  | .sendMsg p => Sys2Proof.Machine.execSendMsg p s
  | .memLoad p => Sys2Proof.Machine.execMemLoad p s
  | .memStore p => Sys2Proof.Machine.execMemStore p s
  | .memAtomic p => Sys2Proof.Machine.execMemAtomic p s
  | .memGateway p => Sys2Proof.Machine.execMemGateway p s
  | .schShares p => Sys2Proof.Machine.execSchShares p s
  | .schShaper p => Sys2Proof.Machine.execSchShaper p s
  | .compCreate p => Sys2Proof.Machine.execCompCreate p s
  | .compMeter p => Sys2Proof.Machine.execCompMeter p s
  | .testSentinel p => Sys2Proof.Machine.execTestSentinel p s
  | .testKat p => Sys2Proof.Machine.execTestKat p s
  | .errRecordReceived p => Sys2Proof.Machine.execErrRecordReceived p s
  | .verifyReplay p => Sys2Proof.Machine.execVerifyReplay p s
  | .verifyResult p => Sys2Proof.Machine.execVerifyResult p s
  | .evoestHcrcFail path slot => Sys2Proof.Machine.execEvoestHcrcFail path slot s
  | .replyReceived r => Sys2Proof.Machine.execReplyReceived r s
  | .responsePacketReceived qp now name opcode offset last payload => Sys2Proof.Machine.execResponsePacketReceived qp now name opcode offset last payload s
  | .handoffTransferReply r => Sys2Proof.Machine.execHandoffTransferReply r s
  | .acceptReply r => Sys2Proof.Machine.execAcceptReply r s
  | .pageMoveReply r => Sys2Proof.Machine.execPageMoveReply r s
  | .pageDropReply r => Sys2Proof.Machine.execPageDropReply r s
  | .attPartialStatusReply r => Sys2Proof.Machine.execAttPartialStatusReply r s
  | .msaForwardReply r response => Sys2Proof.Machine.execMsaForwardReply r response s
  | .sqDoorbellWrite fn ring value parityGood => Sys2Proof.Machine.execSqDoorbellWrite fn ring value parityGood s
  | .sqTailConsume ring reads => Sys2Proof.Machine.execSqTailConsume ring reads s
  | .cqHeadDoorbellWrite fn ring value => Sys2Proof.Machine.execCqHeadDoorbellWrite fn ring value s
  | .cqStallTimeout ring now => Sys2Proof.Machine.execCqStallTimeout ring now s
  | .cqCoalTimeout ring now => Sys2Proof.Machine.execCqCoalTimeout ring now s
  | .sqEnable fn ring value => Sys2Proof.Machine.execSqEnable fn ring value s
  | .sqDisable fn ring value => Sys2Proof.Machine.execSqDisable fn ring value s
  | .cqEnable fn ring value => Sys2Proof.Machine.execCqEnable fn ring value s
  | .cqDisable fn ring value => Sys2Proof.Machine.execCqDisable fn ring value s
  | .hostwinEnableWrite n value => Sys2Proof.Machine.execHostwinEnableWrite n value s
  | .hostwinFieldWrite offset value => Sys2Proof.Machine.execHostwinFieldWrite offset value s
  | .manBerthSelWrite value => Sys2Proof.Machine.execManBerthSelWrite value s
  | .wthSlotSelWrite value => Sys2Proof.Machine.execWthSlotSelWrite value s
  | .qpcSelWrite value => Sys2Proof.Machine.execQpcSelWrite value s
  | .schShapeSelWrite value => Sys2Proof.Machine.execSchShapeSelWrite value s
  | .errLogSelWrite value => Sys2Proof.Machine.execErrLogSelWrite value s
  | .portRetrainWrite port => Sys2Proof.Machine.execPortRetrainWrite port s
  | .schHistClear => Sys2Proof.Machine.execSchHistClear s
  | .devResetDevice value => Sys2Proof.Machine.execDevResetDevice value s
  | .devResetCpRestart value => Sys2Proof.Machine.execDevResetCpRestart value s
  | .devIrqStatusWrite value eventsNow => Sys2Proof.Machine.execDevIrqStatusWrite value eventsNow s
  | .devIrqEnableWrite value => Sys2Proof.Machine.execDevIrqEnableWrite value s
  | .mgtMboxGo opcode p => Sys2Proof.Machine.execMgtMboxGo opcode p s
  | .bar4Read offset len uncorrected => Sys2Proof.Machine.execBar4Read offset len uncorrected s
  | .bar4Write offset bytes => Sys2Proof.Machine.execBar4Write offset bytes s
  | .bar0BadAccess write offset size => Sys2Proof.Machine.execBar0BadAccess write offset size s
  | .regReservedWrite fn offset value => Sys2Proof.Machine.execRegReservedWrite fn offset value s
  | .regWrite fn offset size value => Sys2Proof.Machine.execRegWrite fn offset size value s
  | .reg64LowHalfRead offset => Sys2Proof.Machine.execReg64LowHalfRead offset s
  | .seqStepMaxRead => Sys2Proof.Machine.execSeqStepMaxRead s
  | .attRttMaxRead => Sys2Proof.Machine.execAttRttMaxRead s
  | .qpcFetchMaxRead => Sys2Proof.Machine.execQpcFetchMaxRead s
  | .msaLineMaxRead => Sys2Proof.Machine.execMsaLineMaxRead s
  | .functionLevelReset fn now => Sys2Proof.Machine.execFunctionLevelReset fn now s
  | .flrComplete fn => Sys2Proof.Machine.execFlrComplete fn s
  | .vfEnableChange enable numVfs => Sys2Proof.Machine.execVfEnableChange enable numVfs s
  | .msixUnmask fn vector => Sys2Proof.Machine.execMsixUnmask fn vector s
  | .perstAssert now => Sys2Proof.Machine.execPerstAssert now s
  | .perstDeassert flit width speed => Sys2Proof.Machine.execPerstDeassert flit width speed s
  | .pcieHotReset now => Sys2Proof.Machine.execPcieHotReset now s
  | .pcieLinkDown => Sys2Proof.Machine.execPcieLinkDown s
  | .pcieLinkUp flit width speed => Sys2Proof.Machine.execPcieLinkUp flit width speed s
  | .i3cEntdaa address => Sys2Proof.Machine.execI3cEntdaa address s
  | .mctpControlMessage body => Sys2Proof.Machine.execMctpControlMessage body s
  | .i3cClkStatusRead => Sys2Proof.Machine.execI3cClkStatusRead s
  | .uartRx bytes => Sys2Proof.Machine.execUartRx bytes s
  | .jtagInstruction instr => Sys2Proof.Machine.execJtagInstruction instr s
  | .pkgResetRelease power => Sys2Proof.Machine.execPkgResetRelease power s
  | .pkgResetAssert => Sys2Proof.Machine.execPkgResetAssert s
  | .rootSynthLock us pufGood => Sys2Proof.Machine.execRootSynthLock us pufGood s
  | .rootLockTimeout => Sys2Proof.Machine.execRootLockTimeout s
  | .rootLockLoss now => Sys2Proof.Machine.execRootLockLoss now s
  | .ref100Loss now => Sys2Proof.Machine.execRef100Loss now s
  | .memoryTrainingDone hbmFailed lpxFailed cmpTargets => Sys2Proof.Machine.execMemoryTrainingDone hbmFailed lpxFailed cmpTargets s
  | .katComplete failed => Sys2Proof.Machine.execKatComplete failed s
  | .microcodeBroadcastDone stillDiffer => Sys2Proof.Machine.execMicrocodeBroadcastDone stillDiffer s
  | .portTrainingStepEnd now => Sys2Proof.Machine.execPortTrainingStepEnd now s
  | .thermalSample now celsius throttleIn => Sys2Proof.Machine.execThermalSample now celsius throttleIn s
  | .powerEstimate now watts railsMv => Sys2Proof.Machine.execPowerEstimate now watts railsMv s
  | .avsAdjust now stack up acked => Sys2Proof.Machine.execAvsAdjust now stack up acked s
  | .thermtrip now sensor => Sys2Proof.Machine.execThermtrip now sensor s
  | .ioDieFatalError now die => Sys2Proof.Machine.execIoDieFatalError now die s
  | .portSignalDetect port => Sys2Proof.Machine.execPortSignalDetect port s
  | .portDetectTimeout port now => Sys2Proof.Machine.execPortDetectTimeout port now s
  | .portLaneLock port lanes fast => Sys2Proof.Machine.execPortLaneLock port lanes fast s
  | .portRateFallbackTimeout port now => Sys2Proof.Machine.execPortRateFallbackTimeout port now s
  | .portTrainTimeout port now => Sys2Proof.Machine.execPortTrainTimeout port now s
  | .portNegotiateDone port now major minor plane => Sys2Proof.Machine.execPortNegotiateDone port now major minor plane s
  | .portNegotiateTimeout port now => Sys2Proof.Machine.execPortNegotiateTimeout port now s
  | .laneLossOfLock port lane now => Sys2Proof.Machine.execLaneLossOfLock port lane now s
  | .laneRetrainLock port lane => Sys2Proof.Machine.execLaneRetrainLock port lane s
  | .keepaliveSend port now => Sys2Proof.Machine.execKeepaliveSend port now s
  | .keepaliveReceived port now plane txTick echoTick hold => Sys2Proof.Machine.execKeepaliveReceived port now plane txTick echoTick hold s
  | .keepaliveMiss port now => Sys2Proof.Machine.execKeepaliveMiss port now s
  | .creditReceived port credits => Sys2Proof.Machine.execCreditReceived port credits s
  | .pauseReceived port now tcl tcs time => Sys2Proof.Machine.execPauseReceived port now tcl tcs time s
  | .pauseExpire port now => Sys2Proof.Machine.execPauseExpire port now s
  | .frameSendStart port now tcs => Sys2Proof.Machine.execFrameSendStart port now tcs s
  | .linkFrameInvalid port otherDevice => Sys2Proof.Machine.execLinkFrameInvalid port otherDevice s
  | .tclDataReceived f => Sys2Proof.Machine.execTclDataReceived f s
  | .tcsDataReceived f => Sys2Proof.Machine.execTcsDataReceived f s
  | .ackReceived qp port psn now => Sys2Proof.Machine.execAckReceived qp port psn now s
  | .nakReceived qp port psn now code => Sys2Proof.Machine.execNakReceived qp port psn now code s
  | .sackReceived qp port msgId base now complete noBuffer bitmap => Sys2Proof.Machine.execSackReceived qp port msgId base now complete noBuffer bitmap s
  | .tclAckTimeout qp now => Sys2Proof.Machine.execTclAckTimeout qp now s
  | .tclAckDelayExpire qp now => Sys2Proof.Machine.execTclAckDelayExpire qp now s
  | .tclNoContextResend qp now => Sys2Proof.Machine.execTclNoContextResend qp now s
  | .tcsRetransmitTimeout qp msgId pktIdx now => Sys2Proof.Machine.execTcsRetransmitTimeout qp msgId pktIdx now s
  | .tcsSackTimer qp msgId now => Sys2Proof.Machine.execTcsSackTimer qp msgId now s
  | .tcsAssemblyTimeout qp msgId now => Sys2Proof.Machine.execTcsAssemblyTimeout qp msgId now s
  | .portExclusionExpire port dest now => Sys2Proof.Machine.execPortExclusionExpire port dest now s
  | .qpcEvictVerified qp => Sys2Proof.Machine.execQpcEvictVerified qp s
  | .qpcFetchComplete qp now => Sys2Proof.Machine.execQpcFetchComplete qp now s
  | .qpcFetchFail qp now => Sys2Proof.Machine.execQpcFetchFail qp now s
  | .qpcHoldTimeout qp now => Sys2Proof.Machine.execQpcHoldTimeout qp now s
  | .shaperWheelSlot now => Sys2Proof.Machine.execShaperWheelSlot now s
  | .queueSampleTick now => Sys2Proof.Machine.execQueueSampleTick now s
  | .msaLineApply line now => Sys2Proof.Machine.execMsaLineApply line now s
  | .msaOpTimeout tag now => Sys2Proof.Machine.execMsaOpTimeout tag now s
  | .msaGwTimeout tag now => Sys2Proof.Machine.execMsaGwTimeout tag now s
  | .stepStart now => Sys2Proof.Machine.execStepStart now s
  | .stepBoundary now cycles => Sys2Proof.Machine.execStepBoundary now cycles s
  | .stepOverrun => Sys2Proof.Machine.execStepOverrun s
  | .stepWatchdog now => Sys2Proof.Machine.execStepWatchdog now s
  | .clusterResetComplete m => Sys2Proof.Machine.execClusterResetComplete m s
  | .drainWindowEnd now => Sys2Proof.Machine.execDrainWindowEnd now s
  | .loadTile m cyc => Sys2Proof.Machine.execLoadTile m cyc s
  | .expandTile m cyc => Sys2Proof.Machine.execExpandTile m cyc s
  | .mma m cyc => Sys2Proof.Machine.execMma m cyc s
  | .vec m cyc => Sys2Proof.Machine.execVec m cyc s
  | .sampleEntry m cyc => Sys2Proof.Machine.execSampleEntry m cyc s
  | .sendEntry m cyc now => Sys2Proof.Machine.execSendEntry m cyc now s
  | .waitEntry m cyc => Sys2Proof.Machine.execWaitEntry m cyc s
  | .signalEntry m cyc => Sys2Proof.Machine.execSignalEntry m cyc s
  | .signalDelivered target flag cyc => Sys2Proof.Machine.execSignalDelivered target flag cyc s
  | .barrierEntry m cyc => Sys2Proof.Machine.execBarrierEntry m cyc s
  | .sentinelEntry m cyc => Sys2Proof.Machine.execSentinelEntry m cyc s
  | .endEntry m cyc => Sys2Proof.Machine.execEndEntry m cyc s
  | .entryDeadline m cyc delivered onCycle => Sys2Proof.Machine.execEntryDeadline m cyc delivered onCycle s
  | .hostArrivalComplete slot => Sys2Proof.Machine.execHostArrivalComplete slot s
  | .stagerTileStart m => Sys2Proof.Machine.execStagerTileStart m s
  | .stagingComplete c => Sys2Proof.Machine.execStagingComplete c s
  | .directPathComplete c => Sys2Proof.Machine.execDirectPathComplete c s
  | .expanderBlockDone c => Sys2Proof.Machine.execExpanderBlockDone c s
  | .compressorObjectReady region => Sys2Proof.Machine.execCompressorObjectReady region s
  | .coreUncorrectedError now cyc slots => Sys2Proof.Machine.execCoreUncorrectedError now cyc slots s
  | .coreCorrectedError slot now => Sys2Proof.Machine.execCoreCorrectedError slot now s
  | .spareLoadComplete m now checksumMatches => Sys2Proof.Machine.execSpareLoadComplete m now checksumMatches s
  | .sentinelTestEnd slot now passed => Sys2Proof.Machine.execSentinelTestEnd slot now passed s
  | .clusterUe m now part => Sys2Proof.Machine.execClusterUe m now part s
  | .lighterUe region now => Sys2Proof.Machine.execLighterUe region now s
  | .compressorUe region now => Sys2Proof.Machine.execCompressorUe region now s
  | .regionStopFail region now => Sys2Proof.Machine.execRegionStopFail region now s
  | .dieStackFence stack now cause => Sys2Proof.Machine.execDieStackFence stack now cause s
  | .hbmCorrectedError stack dpa now => Sys2Proof.Machine.execHbmCorrectedError stack dpa now s
  | .hbmRowCopyDone dpa now => Sys2Proof.Machine.execHbmRowCopyDone dpa now s
  | .objectMoveComplete object now verified => Sys2Proof.Machine.execObjectMoveComplete object now verified s
  | .memoryUe now dpa lpx obj => Sys2Proof.Machine.execMemoryUe now dpa lpx obj s
  | .lpxCorrectedError device dpa now => Sys2Proof.Machine.execLpxCorrectedError device dpa now s
  | .sramCorrectedError slice unit address now => Sys2Proof.Machine.execSramCorrectedError slice unit address now s
  | .sramUe now address owner => Sys2Proof.Machine.execSramUe now address owner s
  | .fifoParityError place index now => Sys2Proof.Machine.execFifoParityError place index now s
  | .fifoOverrun place index now => Sys2Proof.Machine.execFifoOverrun place index now s
  | .cpWatchdogExpire cp now => Sys2Proof.Machine.execCpWatchdogExpire cp now s
  | .cpRestartComplete now => Sys2Proof.Machine.execCpRestartComplete now s
  | .mgtWatchdogExpire now => Sys2Proof.Machine.execMgtWatchdogExpire now s
  | .mgtRestartComplete now => Sys2Proof.Machine.execMgtRestartComplete now s
  | .replayRoundTimeout stepSeq now => Sys2Proof.Machine.execReplayRoundTimeout stepSeq now s
  | .replayPartsTimeout qp stepSeq now => Sys2Proof.Machine.execReplayPartsTimeout qp stepSeq now s
  | .pageMoveTimeout move now => Sys2Proof.Machine.execPageMoveTimeout move now s
  | .pageMoveRetry move now => Sys2Proof.Machine.execPageMoveRetry move now s
  | .pageDropRetry drop now => Sys2Proof.Machine.execPageDropRetry drop now s
  | .arrivingFrameTimeout frame now => Sys2Proof.Machine.execArrivingFrameTimeout frame now s
  | .demotionVerified frame now verified => Sys2Proof.Machine.execDemotionVerified frame now verified s
  | .swapOutVerified berth now verified => Sys2Proof.Machine.execSwapOutVerified berth now verified s
  | .swapInComplete berth now read => Sys2Proof.Machine.execSwapInComplete berth now read s
  | .handoffTimeout berth now => Sys2Proof.Machine.execHandoffTimeout berth now s
  | .awaitConfirmTimeout berth now => Sys2Proof.Machine.execAwaitConfirmTimeout berth now s
  | .reservedBerthTimeout berth now => Sys2Proof.Machine.execReservedBerthTimeout berth now s
  | .promotionVerified slot verified => Sys2Proof.Machine.execPromotionVerified slot verified s
  | .attExchangeTimeout tag now => Sys2Proof.Machine.execAttExchangeTimeout tag now s
  | .attServiceComplete service now poisoned => Sys2Proof.Machine.execAttServiceComplete service now poisoned s
  | .flashWriteComplete now verified => Sys2Proof.Machine.execFlashWriteComplete now verified s
  | .bottomTreeGenerated now => Sys2Proof.Machine.execBottomTreeGenerated now s
  | .telemetryTick now => Sys2Proof.Machine.execTelemetryTick now s
  | .flashScrubTick now => Sys2Proof.Machine.execFlashScrubTick now s
  | .meterPageMsTick now => Sys2Proof.Machine.execMeterPageMsTick now s
  | .errStatusRead => Sys2Proof.Machine.execErrStatusRead s
  | .icmpv6EchoRequest src dst body => Sys2Proof.Machine.execIcmpv6EchoRequest src dst body s
  | .neighbourDiscoveryMessage src target body => Sys2Proof.Machine.execNeighbourDiscoveryMessage src target body s
  | .traceTrigInput pin rising => Sys2Proof.Machine.execTraceTrigInput pin rising s

end Sys2Proof.Machine
end

