-- ==== Sys2Proof/Safety.lean ====
section
/-! DEFINITION. The terms in which claims are stated: what holds in every state that the machine passes through, when the
device takes a command, and what a command leaves alone. -/

namespace Sys2Proof.Machine

/-- What no step breaks: both memories in their canonical form, the issue level of R517 from 4 to 16, a personality of R10 or
none, the head of the error log below its 1,024 entries (R446), and 32-bit TAGs (R307). -/
structure Good (s : State) : Prop where
  mem : Memory.wf s.mem = true
  coreMem : Memory.wf s.coreMem = true
  level : 4 ≤ s.pwr.level ∧ s.pwr.level ≤ 16
  mode : s.dev.personality ≤ 3
  log : s.err.head < 1024
  tag : s.fab.nextTag < 2 ^ 32

/-- The state in which the checks of R312 look at a packet: its arrival is counted and metered. -/
def arrived (p : Pkt) (s : State) : State := endDiscards p (meterRx p (bump CMD_RX_CNT (packetsOf p) (atTick p.now s)))

/-- The state that a packet's own effect starts from: a message of a per-packet opcode is noted as in progress (R310). -/
def taken (r : OpRow) (p : Pkt) (s : State) : State := noteMsg r p (arrived p s)

/-- The device takes a packet: it is alive, its control plane serves, the packet is a command of a message that is not being
discarded, the checks `chk` pass (R312), and no message in progress has its TAG (R310). -/
structure AcceptedBy (chk : State → OpRow → Pkt → Option (Nat × Nat)) (r : OpRow) (s : State) (p : Pkt) : Prop where
  alive : alive s = true
  serves : s.err.restarting = false ∨ passesRestart r.code p = true
  fresh : discarding (arrived p s) r.code p = false
  command : p.resp = false
  checks : chk (arrived p s) r p = none
  alone : tagClash (arrived p s) r.code p = false

/-- Accepted under all the steps of R312. -/
abbrev Accepted : OpRow → State → Pkt → Prop := AcceptedBy firstFail

/-- The parts of the state, one for each field of `State`. -/
inductive Part where
  | pending | tick | free | out | regs | dev | flash | err | sq | cq | msgs | discards | pcie | mgmt | pwr | fab | msa | sched | man | tier | core | eng | mem | memPoison | coreMem | corePoison | satNow | nanNow
deriving DecidableEq, Repr

/-- A part is the same in both states. -/
def Part.same (s t : State) : Part → Prop
  | .pending => t.pending = s.pending
  | .tick => t.tick = s.tick
  | .free => t.free = s.free
  | .out => t.out = s.out
  | .regs => t.regs = s.regs
  | .dev => t.dev = s.dev
  | .flash => t.flash = s.flash
  | .err => t.err = s.err
  | .sq => t.sq = s.sq
  | .cq => t.cq = s.cq
  | .msgs => t.msgs = s.msgs
  | .discards => t.discards = s.discards
  | .pcie => t.pcie = s.pcie
  | .mgmt => t.mgmt = s.mgmt
  | .pwr => t.pwr = s.pwr
  | .fab => t.fab = s.fab
  | .msa => t.msa = s.msa
  | .sched => t.sched = s.sched
  | .man => t.man = s.man
  | .tier => t.tier = s.tier
  | .core => t.core = s.core
  | .eng => t.eng = s.eng
  | .mem => t.mem = s.mem
  | .memPoison => t.memPoison = s.memPoison
  | .coreMem => t.coreMem = s.coreMem
  | .corePoison => t.corePoison = s.corePoison
  | .satNow => t.satNow = s.satNow
  | .nanNow => t.nanNow = s.nanNow

/-- Every part of the state but those named is as it was. -/
def OnlyParts (l : List Part) (s t : State) : Prop := ∀ p : Part, p ∉ l → p.same s t

end Sys2Proof.Machine
end

