-- ==== Sys2Proof/Certificates/Slice0/Obligations.lean ====
section
/-! DEFINITION. What is stated of the model, for the provers: each statement names the rules that it rests on. A command's statement
gives the whole state that it leaves, as an equation, so that everything the right-hand side does not update is as it was. -/

open Sys2Proof Sys2Proof.Machine

/-- A step takes the command at the front of the queue and is its `exec` on the state whose queue is the rest. Rules: R312. -/
def Obligations.StepRunsFront : Prop :=
  ∀ (s : State) (c : Instr) (rest : List Instr), step (s.withPending (c :: rest)) = exec c (s.withPending rest)

/-- On an empty queue the block idles for one CLK_MGT tick, which changes nothing but its counter (the model's choice, log 1). Rules: R41.
-/
def Obligations.EmptyQueueIdles : Prop :=
  ∀ s : State, s.pending = [] → ∃ t, step s = .next t ∧ t.tick = s.tick + 1 ∧ OnlyParts [.tick] s t

/-- Reset: the package reset is held, no command waits, no personality runs, the issue level is 16, nothing is in the memories, every
register reads its reset value (R22, R24), and the device answers nothing. -/
def Obligations.ResetLeaves : Prop :=
  State.reset.pending = [] ∧ State.reset.dev.held = true ∧ State.reset.dev.ready = false ∧ State.reset.dev.personality = 0 ∧
    State.reset.pwr.level = 16 ∧ State.reset.mem = [] ∧ State.reset.coreMem = [] ∧ alive State.reset = false ∧
    ∀ off, regGet State.reset off = regReset off

/-- The invariant holds right after reset. Rules: R517. -/
def Obligations.GoodAtReset : Prop := Good State.reset

/-- Every step keeps the invariant: canonical memories, a legal issue level and personality, the log's head and the next TAG in range.
Rules: R9, R446, R517. -/
def Obligations.StepKeepsGood : Prop :=
  ∀ s t : State, Good s → step s = .next t → Good t

/-- No command adds to or takes from the queue of waiting commands. Rules: R312. -/
def Obligations.ExecLeavesQueue : Prop :=
  ∀ (c : Instr) (s t : State), exec c s = .next t → t.pending = s.pending

/-- No command of the table is refused, and every one but the four table entries that meet a reserved DPA answers a next state from every
state. Rules: R167, R320, R324. -/
def Obligations.OnlyEntriesStop : Prop :=
  ∀ (c : Instr) (s : State),
    (∃ t, exec c s = .next t) ∨
      (∃ a, exec c s = .fault (.reservedDpa a)) ∧
        ((∃ m k, c = .loadTile m k) ∨ (∃ m k, c = .expandTile m k) ∨ (∃ m k, c = .sentinelEntry m k) ∨ ∃ x, c = .directPathComplete x)

/-- A VN-840 that receives TOK.STREAM or ERR.RECORD discards it without a reply and counts it in CMD_DISCARD_CNT (R316), whether its
checks hold or not; a failed payload CRC is counted as well. Completes (exec answers next): tokStreamReceived, errRecordReceived. -/
def Obligations.StreamAndRecordPacketsAreDiscarded : Prop :=
  ∀ (s : State) (p : Pkt), alive s = true → s.err.restarting = false → p.resp = false →
    (discarding (arrived p s) 0x40 p = false →
      ∃ t, exec (.tokStreamReceived p) s = .next t ∧ t.out = s.out ∧
        regGet t CMD_DISCARD_CNT = min (regGet s CMD_DISCARD_CNT + 1) cntMax ∧
        OnlyParts [.tick, .regs, .msgs, .discards, .man, .sched, .free] s t) ∧
    (discarding (arrived p s) 0x68 p = false →
      ∃ t, exec (.errRecordReceived p) s = .next t ∧ t.out = s.out ∧
        regGet t CMD_DISCARD_CNT = min (regGet s CMD_DISCARD_CNT + 1) cntMax ∧
        OnlyParts [.tick, .regs, .msgs, .discards, .man, .sched, .free] s t)

/-- Host software, in a function whose window holds ring `n`, writes its control register: ENABLE 1 stores the word and takes a DISABLED
ring to ACTIVE; ENABLE 0 takes a submission ring to DISABLED and empties its doorbell FIFO, and a completion ring to DISABLED, dropping
and counting what it held. Rules: R334, R336, R340, R341. Completes (exec answers next): sqEnable, sqDisable, cqEnable, cqDisable. -/
def Obligations.RingsAreEnabledAndDisabled : Prop :=
  ∀ (s : State) (fn n v : Nat), windowHeard s fn n = true →
    (bit (regGet s (CMD_SQ_CTRL n)) 31 = false → (sqRing s n).state = 0 →
      exec (.sqEnable fn n v) s = .next (modSq n (fun q => { q with state := 1 }) (regSet (CMD_SQ_CTRL n) (setBits v 31 31 1) s))) ∧
    exec (.sqDisable fn n v) s =
      .next (modSq n (fun q => { q with state := 0, fifo := [], reach := q.head }) (sqCtrlSet n (setBits v 31 31 0) s)) ∧
    (bit (regGet s (CMD_CQ_CTRL n)) 31 = false → (cqRing s n).state = 0 → fn = 0 ∨ bits (setBits v 31 31 1) 21 11 ≤ 63 →
      exec (.cqEnable fn n v) s = .next (modCq n (fun q => { q with state := 1 }) (regSet (CMD_CQ_CTRL n) (setBits v 31 31 1) s))) ∧
    ∃ t, exec (.cqDisable fn n v) s = .next (bump CMD_DISCARD_CNT (cqRing t n).held.length
        (modCq n (fun q => { q with state := 0, held := [], stalled := false, coal := 0 }) t)) ∧ t = cqCtrlSet n (setBits v 31 31 0) s

/-- A valid new tail enters a doorbell FIFO that has room. The device takes the oldest tail of an ACTIVE ring, and each packet that it
covers moves HEAD past its slots, unless the completion ring holds entries or 4,096 memory-semantic packets are outstanding. A head
doorbell equal to CQ_TAIL returns every slot. Rules: R335, R337, R338, R380. Completes (exec answers next): sqDoorbellWrite,
sqTailConsume, cqHeadDoorbellWrite. -/
def Obligations.DoorbellsAreHeard : Prop :=
  (∀ (s : State) (fn n v : Nat) (good : Bool), windowHeard s fn n = true → (sqRing s n).state ≠ 0 → (sqRing s n).fifo.length < 32 →
    v < sqSlots s n → v ≠ (sqRing s n).tail → exec (.sqDoorbellWrite fn n v good) s =
      .next (modSq n (fun q => { q with tail := v, fifo := q.fifo ++ [(v, good)] }) s)) ∧
  (∀ (s : State) (n v k op : Nat) (l : List (Nat × Bool)), alive s = true → s.err.restarting = false → (sqRing s n).state = 1 →
    (sqRing s n).fifo = (v, true) :: l → (0x50 ≤ op → op ≤ 0x52 → s.msa.fwd.length < 4096) → (cqRing s (sqCq s n)).held = [] →
    k ≤ (v + sqSlots s n - (sqRing s n).head) % sqSlots s n → exec (.sqTailConsume n [.packet k op]) s =
      .next (modSq n (fun q => { q with head := (q.head + k) % sqSlots s n }) (modSq n (fun q => { q with fifo := l, reach := v }) s))) ∧
  (∀ (s : State) (fn n : Nat), windowHeard s fn n = true → (cqRing s n).state = 1 → (cqRing s n).held = [] →
    exec (.cqHeadDoorbellWrite fn n (cqRing s n).tail) s = .next (modCq n (fun q => { q with head := q.tail, used := 0 }) s))

/-- An entry that has waited CMD_CQ_STALL_TMO marks its completion ring STALLED and raises its vector and the device event 6; a coalescing
delay that ends with entries pending raises the ring's interrupt. A failed HCRC is counted; on a path other than a host ring nothing else
changes, and an ACTIVE host ring goes to ERROR with the slot and ST_CRC in CMD_SQ_ERRINFO. Rules: R313, R336, R337, R340. Completes (exec
answers next): cqStallTimeout, cqCoalTimeout, evoestHcrcFail. -/
def Obligations.RingTimesAndHeaderChecks : Prop :=
  (∀ (s : State) (n now : Nat), alive s = true →
    (∀ e l, (cqRing s n).held = e :: l → (cqRing s n).stalled = false →
      e.since + msTicks (regField s CMD_CQ_STALL_TMO 13 0) ≤ max s.tick now →
      exec (.cqStallTimeout n now) s = .next (irqEvent 6 (msixRaise (ringOwner s n) (regField s (CMD_CQ_CTRL n) 21 11)
        (modCq n (fun q => { q with stalled := true }) (atTick now s))))) ∧
    ((cqRing s n).coal ≠ 0 → regField s (CMD_CQ_COAL n) 15 0 ≠ 0 →
      (cqRing s n).coalSince + usTicks (regField s (CMD_CQ_COAL n) 15 0) ≤ max s.tick now →
      exec (.cqCoalTimeout n now) s = .next (cqIrq n (atTick now s)))) ∧
  (∀ (s : State) (path : Path) (slot : Nat), alive s = true →
    ((∀ n, path ≠ .ring n) → exec (.evoestHcrcFail path slot) s = .next (bump CMD_HCRC_ERR_CNT 1 s)) ∧
    (∀ n, path = .ring n → (sqRing s n).state = 1 →
      exec (.evoestHcrcFail path slot) s = .next (irqEvent 5 (ringReport n stCrc 1 (regPut (CMD_SQ_ERRINFO n) (slot % 65536 * 65536 + stCrc)
        (modSq n (fun q => { q with state := 2 }) (bump CMD_HCRC_ERR_CNT 1 s)))))))

/-- The commands of an attention sender. SEND, the entry at which the cluster stands, once the loads that it depends on have come, holds
its bytes for a HELD slot and moves the cluster on. An ATT.RESULT that ends the segment of its exchange closes the exchange, keeps the
largest round trip, advances the slot's flag, and leaves the state as the segment's. ST_PENDING is noted; a passed ATT_TMO passes the
holder over. Rules: R138, R182, R273, R275, R279. Completes (exec answers next): sendEntry, attResult, attPartialStatusReply,
attExchangeTimeout. -/
def Obligations.AttentionSenderRuns : Prop :=
  (∀ (s : State) (m c now : Nat) (e : Bytes) (r : Run) (w : StepRun) (u : State), u = atTick now s → entryOf u m opSend = some e → loadsCome u m e = true →
    curRun u = some r → s.eng.step = some w → (slotRec r.batch (refHandle (sendDest e) - 0xF000)).kind = 1 → sendCode e = false →
    exec (.sendEntry m c now) s = .next (modRun (fun r =>
      { r with heldNow := ⟨refHandle (sendDest e) - 0xF000, refOff (sendDest e), (sendData (issue m c e u) m e).1,
                           (sendData (issue m c e u) m e).2, none⟩ :: r.heldNow }) (issue m c e u))) ∧
  (∀ (s : State) (p : Pkt) (x : Exchange) (u : State), u = taken rowAttResult p s → Accepted rowAttResult s p → paramsZero p false false false false = true →
    tabGet u.eng.exch p.tag = some x → x.qp ≠ 2 ^ 20 → resultOk x p = true → arStatus p.payload = stOk →
    x.last ≤ x.first + x.count → tabGet u.eng.groups x.group ≠ none →
    exec (.attResult p) s = .next (segDone { x with state := p.payload.drop 32, first := x.first + x.count, again := false } (slotFlag x.slot
      (keepMax ATT_RTT_MAX (exchangeAge u x) (exClose p.tag (budgetCheck x (moved x.berth (evoBytes p.payload.length) u))))))) ∧
  (∀ (s : State) (r : Rep) (x : Exchange), alive s = true → r.rcrcOk = true → r.status = stPending → tabGet s.eng.exch r.tag = some x →
    staleAnswer s r.opcode r.mid = false → exec (.attPartialStatusReply r) s =
      .next (modEng (fun e => { e with exch := tabMod e.exch r.tag fun y => { y with pended := true } }) (atTick r.now s))) ∧
  (∀ (s : State) (tag now : Nat) (x : Exchange) (u : State), u = atTick now s → alive s = true → tabGet s.eng.exch tag = some x → x.sentAt ≠ none →
    usTicks (regField s ATT_TMO 13 0) ≤ exchangeAge u x → resultArrives u tag = false → replyArrives u tag = false →
    exec (.attExchangeTimeout tag now) s = .next (exFailed tag x none (budgetCheck x u)))

/-- The commands of a cache node. A well-formed ATT.PARTIAL is answered ST_PENDING, and holds a reference on every page that it reads. A
service whose pages are here, clean and not coded sends an ATT.RESULT with ST_OK and the fold of the pages, gives the references back, and
ends with the command's final reply; mirror copies that gave way to it go on. A read of ATT_RTT_MAX returns it and clears it. Rules: R272,
R277, R278, R282, R317. Completes (exec answers next): attPartial, attServiceComplete, attRttMaxRead. -/
def Obligations.AttentionIsServed : Prop :=
  (∀ (s : State) (p : Pkt), Accepted rowAttPartial s p → paramsZero p false false false false = true → partialOk p.payload = true →
    let t := serveBegins (arrivalComp (taken rowAttPartial p s) p.path) (taken rowAttPartial p s)
    let fs := servedFrames t p.payload
    let u := fs.foldl (fun t f => modFrame f (fun x => { x with refs := x.refs + 1 }) t) t
    exec (.attPartial p) s = .next (pend 0x38 p (modEng (fun e => { e with folds := tabPut e.folds (tabGap e.folds 0) ⟨p, fs⟩ }) u))) ∧
  (∀ (s : State) (n now : Nat) (v : AttService), alive s = true → tabGet s.eng.folds n = some v →
    servedBad (atTick now s) v [] = none → (∀ x ∈ servedReads s v, worst x.2.2.tags = 0 ∧ x.2.2.blocks = []) →
    foldNan (escIgnore s) v.pkt.payload (servedPages (atTick now s) v) = false →
    let t := v.frames.foldl (fun t f => frameUnref f (modFrame f (fun x => { x with served := (atTick now s).tick }) t)) (atTick now s)
    let u := serveEnds (arrivalComp (atTick now s) v.pkt.path) (modEng (fun e => { e with folds := tabDel e.folds n }) t)
    let held := if apHasState v.pkt.payload then v.pkt.payload.drop (apStateAt v.pkt.payload) else []
    exec (.attServiceComplete n now []) s = .next (copyJobs (ok 0x38 v.pkt 0 (sendBack v.pkt
      { opcode := 0x39, tag := v.pkt.tag, mid := v.pkt.mid, flags := 3, slack := slackOut (atTick now s) v.pkt,
        payload := resultHead v.pkt.payload stOk 0xFFFFFFFF ++
          foldRun (vecFtz s) (escIgnore s) (halfIeee s) v.pkt.payload (servedPages (atTick now s) v) held }
      (bump ATT_REMOTE_PAGES (apCount v.pkt.payload) (bump ATT_SERVED_CNT 1 u)))))) ∧
  (∀ s : State, readable s = true → exec .attRttMaxRead s =
    .next (regPut ATT_RTT_MAX 0 (emit (.readData (toLe 4 (regGet s ATT_RTT_MAX)) false) s)))

/-- A device reset, however it is asked for: by PKG_RESET_N, by DEV_RESET with its KEY and DEVICE set, or by SYS.RESTART with P0 1, which
is answered first. Every PWR register keeps its value, the page-ID generation that LGT_PAGE_GEN shows among them, and every other register
takes its reset value; the memories, the manifests, the fabric and the cores are as after reset; the flash keeps its images, records and
counters; power-up begins again, held while PKG_RESET_N is low. Rules: R24, R458, R507, R514. Completes (exec answers next):
pkgResetAssert, devResetDevice, sysRestartDeviceReset. -/
def Obligations.DeviceResetLeaves : Prop :=
  ∀ s : State,
    let after := fun (u t : State) =>
      (∀ off d, regRow? off = some d → d.dom = .pwr → regGet t off = regGet u off) ∧
      (∀ off, (∀ d, regRow? off = some d → d.dom ≠ .pwr) → regGet t off = regReset off) ∧
      t.mem = [] ∧ t.coreMem = [] ∧ t.memPoison = [] ∧ t.man = { gen := u.man.gen } ∧ t.fab = {} ∧ t.core = {} ∧ t.eng = {} ∧ t.sched = {} ∧ t.tier = {} ∧
      t.err = {} ∧ t.sq = [] ∧ t.cq = [] ∧ t.flash.fw = u.flash.fw ∧ t.flash.lic = u.flash.lic ∧ t.flash.counters = u.flash.counters ∧
      t.flash.cfgA = u.flash.cfgA ∧ t.flash.cfgB = u.flash.cfgB ∧ t.dev.phase = 0 ∧ t.dev.ready = false ∧ t.dev.personality = 0 ∧
      t.pending = u.pending
    (∃ t, exec .pkgResetAssert s = .next t ∧ after s t ∧ t.dev.held = true) ∧
    (∀ v, readable s = true → bits v 31 16 = 0x0840 → bit v 1 = true →
      ∃ t, exec (.devResetDevice v) s = .next t ∧ after s t ∧ t.dev.held = false) ∧
    (∀ p, Accepted rowRestart s p → p.p0 = 1 → p.p1 = 0 → p.p2 = 0 → p.p3 = 0 →
      ∃ t, exec (.sysRestartDeviceReset p) s = .next t ∧ after (ok 5 p 0 (taken rowRestart p s)) t ∧ t.dev.held = false)

/-- DEV_RESET.CP_RESTART, SYS.RESTART with P0 0, which is answered first, and a hung command processor start a restart of the control
plane, with its cause and its tick; its end answers what waited with ST_BUSY, lets a held boundary take effect and leaves a record. A hung
management controller restarts alone. Rules: R422, R449, R450, R452, R453. Completes (exec answers next): devResetCpRestart,
sysRestartWarm, cpWatchdogExpire, cpRestartComplete, mgtWatchdogExpire. -/
def Obligations.ControlPlaneRestarts : Prop :=
  (∀ (s : State) (v : Nat), readable s = true → s.dev.fatal = false → s.err.restarting = false → bits v 31 16 = 0x0840 → bit v 1 = false →
    bit v 0 = true → ∃ t, exec (.devResetCpRestart v) s = .next t ∧ t.err.restarting = true ∧ t.err.restartCause = 3 ∧
      t.err.restartAt = s.tick) ∧
  (∀ (s : State) (p : Pkt), Accepted rowRestart s p → s.err.restarting = false → p.p0 = 0 → p.p1 = 0 → p.p2 = 0 → p.p3 = 0 →
    exec (.sysRestartWarm p) s = .next (restartStart 2 (ok 5 p 0 (taken rowRestart p s)))) ∧
  (∀ (s : State) (cp now : Nat), alive s = true → cp < 8 →
    exec (.cpWatchdogExpire cp now) s = .next (restartStart 1 (record { cause := 0x40, cls := 1, kind := 9, unit := cp, c0 := regField s ERR_CP_WDOG 9 0 }
      (bump ERR_CP_WDOG_CNT 1 (modErr (fun e => { e with cpHung := setBits e.cpHung cp cp 1 }) (atTick now s)))))) ∧
  (∀ (s : State) (now : Nat), alive s = true → s.err.restarting = true →
    exec (.cpRestartComplete now) s = .next (record { cause := 0x41, cls := 0, c0 := s.err.restartCause, c1 := (max s.tick now - s.err.restartAt) / 100 }
      (irqEvent 4 (bump ERR_CP_RESTART_CNT 1 (heldBoundary (s.err.owed.foldl (fun t x => fail x.1 x.2 stBusy t)
        (modErr (fun e => { e with restarting := false, owed := [] }) (atTick now s)))))))) ∧
  (∀ (s : State) (now : Nat), alive s = true → exec (.mgtWatchdogExpire now) s = .next (modErr (fun e => { e with mgtDown := true }) (atTick now s)))

/-- Power-up: PKG_RESET_N rises with its rails good, after a loss of the package's power with every register at reset and the flash kept;
a root that does not lock is tried three times; with a management component in flash the lock takes the device to step 6, without one to
ROM recovery; the end of memory training, of the known-answer tests, of the microcode broadcast and of port training each take the device
one step on, and with enough ports UP service begins. Rules: R5, R456, R457, R458, R459, R460, R461, R514. Completes (exec answers next):
pkgResetRelease, rootLockTimeout, rootSynthLock, memoryTrainingDone, katComplete, microcodeBroadcastDone, portTrainingStepEnd. -/
def Obligations.PowerUpProceeds : Prop :=
  ∀ s : State,
    (∀ good lost u, s.dev.held = true → u = (if lost then powerLoss s else s) → exec (.pkgResetRelease ⟨good, lost⟩) s =
      .next (modDev (fun d => { d with held := false, inRom := d.inRom || !good, rootTries := if good then d.rootTries else 2 }) u)) ∧
    (powerLoss s).regs = [] ∧ (powerLoss s).flash.fw = s.flash.fw ∧ (powerLoss s).flash.lic = s.flash.lic ∧ (powerLoss s).flash.cfgA = s.flash.cfgA ∧
    (powerLoss s).flash.cfgB = s.flash.cfgB ∧ (powerLoss s).flash.counters = s.flash.counters ∧ (powerLoss s).man = {} ∧ (powerLoss s).core = {} ∧
    (atStep2 s = true → exec .rootLockTimeout s = .next (modDev (fun d =>
      if d.rootTries < 2 then { d with rootTries := d.rootTries + 1 } else { d with inRom := true }) s)) ∧
    (∀ us puf, atStep2 s = true → ∃ t, exec (.rootSynthLock us puf) s = .next t ∧ t.dev.lock = 31 ∧
      t.dev.recovery = (fwChoice s.flash 0).isNone ∧ t.dev.phase = if (fwChoice s.flash 0).isSome then 6 else 0) ∧
    (∀ hbm lpx mv, alive s = true → s.dev.phase = 6 → ∃ t, exec (.memoryTrainingDone hbm lpx mv) s = .next t ∧ t.dev.phase = 7) ∧
    (∀ l, alive s = true → s.dev.phase = 7 → exec (.katComplete l) s = .next (katPowerUp l s)) ∧
    (∀ l, alive s = true → s.dev.phase ≠ 7 → exec (.katComplete l) s =
      .next (s.core.kats.foldl (fun t p => ok 0x61 p 0 t) (modCore (fun c => { c with kats := [] }) s))) ∧
    (∀ l, alive s = true → s.dev.phase = 9 → ∃ t, exec (.microcodeBroadcastDone l) s =
      .next ((List.range (min t.dev.portsMax 8)).foldl (fun t p => portTo p 1 1 t) (modDev (fun d => { d with phase := 10 }) t)) ∧
      t = (l.filter fun n => (coreSlot s n).state = 1).foldl (fun t n => fenceOne n 1 t) s) ∧
    (∀ now, alive s = true → s.dev.phase = 10 →
      (∀ p, p < min s.dev.portsMax 8 → (portOf s p).state = 4 ∨ (portOf s p).state = 6 ∨ (portOf s p).state = 7) →
      s.dev.portsMin ≤ (portsUp s).length →
      exec (.portTrainingStepEnd now) s = .next (serviceBegins (modDev (fun d => { d with phase := 11 }) (atTick now s))))

/-- A parity error in a FIFO is counted and recorded, and damages a word only inside a cluster; an overrun sets the FIFO's bit and is
counted, and its unit fails. A reply to a SYS.HELLO of this device settles its version, a final reply to another open command closes its
TAG, and a packet of a response is placed for the command it answers. Rules: R317, R432, R370, R528. Completes (exec answers next):
fifoParityError, fifoOverrun, replyReceived, responsePacketReceived. -/
def Obligations.FaultsAndAnswersAreTaken : Prop :=
  ∀ (s : State) (now : Nat), alive s = true →
    (∀ p i, fifoThere p = true → (∀ m, p ≠ .cluster m) → exec (.fifoParityError p i now) s =
      .next (record { cause := 0x38, cls := 1, kind := fifoKind p, unit := fifoUnit p, c0 := i }
        (bump ERR_POISON_CNT 1 (bump ERR_FIFO_PAR_CNT 1 (atTick now s))))) ∧
    (∀ p i, fifoThere p = true → (∀ d, p ≠ .ioDie d) → s.err.fifoOvr.contains (p, i) = false → exec (.fifoOverrun p i now) s =
      .next (fifoUnitFails p now i (record { cause := 0x39, cls := 1, kind := fifoKind p, unit := fifoUnit p, c0 := i }
        (modErr (fun e => { e with fifoOvr := (p, i) :: e.fifoOvr }) (bump ERR_FIFO_OVR_CNT 1 (atTick now s)))))) ∧
    (∀ r : Rep, r.rcrcOk = true → statusListed r.status = true → r.now = now → staleAnswer s r.opcode r.mid = false →
      (∀ n, helloOf s r.tag = some n → exec (.replyReceived r) s = .next (helloAnswered n r.status r.result (atTick now s))) ∧
      (helloOf s r.tag = none → dropOfTag s r.tag = none → s.fab.openTags.contains r.tag = true → r.final = true →
        exec (.replyReceived r) s =
          .next (modFab (fun f => { f with openTags := f.openTags.filter fun t => t ≠ r.tag }) (atTick now s)))) ∧
    (∀ qp tag mid off last b x, tabGet s.msa.fwd tag = some x → x.qp = qp → staleAnswer s x.opcode mid = false →
      exec (.responsePacketReceived qp now ⟨tag, mid⟩ x.opcode off last b) s = .next (modFab (fun f => { f with resps := respPlace qp tag x.opcode off last b f.resps }) (atTick now s)))

/-- An uncorrected error of a core is recorded, aborts a running step that the core works for, and fences the core. A corrected error is
counted, recorded and kept in the core's histories; below both thresholds nothing more follows. Errors of a cluster, a lighter, a
compressor, a region stop and a die stack take their unit out. Rules: R53, R422, R424, R425, R426, R428, R431. Completes (exec answers
next): coreUncorrectedError, coreCorrectedError, clusterUe, lighterUe, compressorUe, regionStopFail, dieStackFence. -/
def Obligations.UnitErrorsAreContained : Prop :=
  ∀ (s : State) (now : Nat), alive s = true →
    (∀ n cyc u v, n < 1152 → (coreSlot s n).state ≠ 0 → (coreSlot s n).state ≠ 5 →
      u = record { cause := 2, cls := 1, flags := 2, kind := 1, unit := n, c0 := cyc } (atTick now s) →
      v = (if runsId s n then testsPassed (fenceAbort cyc u) else u) → exec (.coreUncorrectedError now cyc [n]) s =
        .next (if v.eng.step.isNone then settle (activateBlocked (testsStart s.eng.step.isSome (fencesDue (fenceOne n 2 v)))) else fenceOne n 2 v)) ∧
    (∀ n, n < 1152 → (coreSlot s n).state ≠ 0 → (coreSlot s n).state ≠ 5 →
      let t := bump (SEQ_CORE_CE_CNT n) 1 (atTick now s)
      let u := modErr (fun e => { e with coreHist := histAdd e.coreHist n (msNow (atTick now s)), coreSince := histAdd e.coreSince n (msNow (atTick now s)) })
        (record { cause := 1, cls := 0, kind := 1, unit := n, c0 := regGet t (SEQ_CORE_CE_CNT n) } t)
      histReached (tabGetD u.err.coreSince n []) (regField s ERR_TH_CORE_SUSPECT 7 0) (1000 * regField s ERR_TH_CORE_SUSPECT 27 16) = false →
      histReached (tabGetD u.err.coreHist n []) (regField s ERR_TH_CORE_FENCE 7 0) (1000 * regField s ERR_TH_CORE_FENCE 27 16) = false →
      exec (.coreCorrectedError n now) s = .next (coresNow u)) ∧
    (∀ m part, exec (.clusterUe m now part) s = .next (clusterUe m (partCode part) (atTick now s))) ∧
    (∀ r, exec (.lighterUe r now) s = .next (lighterUe r (atTick now s))) ∧
    (∀ r, exec (.compressorUe r now) s = .next (compressorUe r (atTick now s))) ∧
    (∀ r, r < 32 → (regionSt s r).lost = false →
      exec (.regionStopFail r now) s = .next (stackFence (r / 8) 2 (modRegion r (fun x => { x with lost := true }) (atTick now s)))) ∧
    (∀ k cause, exec (.dieStackFence k now cause) s =
      .next (stackFence k (match cause with | .baseNetwork => 1 | .hbmStack => 3) (atTick now s)))

/-- TEST.SENTINEL, for a slot in service, and TEST.KAT, while none runs, are answered ST_PENDING and start their test. A spare whose
checksum matches may start its test; a test program that ends, 6.0 ms after its start, answers what waited, and fences a core that failed
or returns an idle one that passed. Rules: R117, R118, R121, R324. Completes (exec answers next): testSentinel, testKat,
spareLoadComplete, sentinelTestEnd. -/
def Obligations.CoreTestsRun : Prop :=
  (∀ (s : State) (p : Pkt) (n : Nat), Accepted rowSentinel s p → paramsZero p true false false false = true → bits p.p0 30 11 = 0 → p.p0 < 2 ^ 32 →
    sentinelSlot (taken rowSentinel p s) p.p0 = some n → (coreSlot (taken rowSentinel p s) n).state ≠ 0 →
    (coreSlot (taken rowSentinel p s) n).state ≠ 5 → exec (.testSentinel p) s =
      .next (coresNow (testDue n false (modSlot n (fun c => { c with waiting := c.waiting ++ [p] }) (pend 0x60 p (taken rowSentinel p s)))))) ∧
  (∀ (s : State) (p : Pkt), Accepted rowKat s p → paramsZero p true false false false = true → p.p0 < 128 →
    p.p0 = 127 ∨ (cluster (taken rowKat p s) p.p0).present = true → (taken rowKat p s).core.kats = [] →
    exec (.testKat p) s = .next (pend 0x61 p (modCore (fun c => { c with kats := [p] }) (taken rowKat p s)))) ∧
  (∀ (s : State) (m now : Nat), alive s = true → (cluster s m).loading = true → exec (.spareLoadComplete m now true) s =
    .next ((clusterSlots m).foldl (fun t n => if (coreSlot t n).testState = 3 then modSlot n (fun x => { x with testState := 4, testAt := max s.tick now }) t else t)
      (modCluster m (fun c => { c with loading := false }) (atTick now s)))) ∧
  (∀ (s : State) (n now : Nat), alive s = true → (coreSlot s n).state = 4 → (coreSlot s n).testState = 4 → (coreSlot s n).ended = none →
    (coreSlot s n).testAt + testTicks ≤ max s.tick now →
    exec (.sentinelTestEnd n now false) s =
      .next (fenceOne n 4 (testAnswer n 2 (modSlot n (fun x => { x with testsRun := min 255 (x.testsRun + 1) }) (atTick now s)))) ∧
    ((coreSlot s n).home = none → exec (.sentinelTestEnd n now true) s =
      .next (modSlot n (fun x => { x with state := 2 }) (modErr (fun e => { e with coreSince := tabDel e.coreSince n })
        (testAnswer n 1 (modSlot n (fun x => { x with testsRun := min 255 (x.testsRun + 1) }) (atTick now s)))))))

/-- The entry at which a cluster stands, the loads that it depends on come and its tile at hand, issues and takes effect: LOAD_TILE puts
the source's bytes into core memory; EXPAND queues its blocks for the named tile buffer of each named core; MMA, its tiles whole and its
engines free, streams its rows through the tile on each named core, and without rows does nothing; VEC and SAMPLE run on each named core;
a SENTINEL without rows or tolerance does nothing, and one whose tiles agree within the tolerance marks nothing. Rules: R94, R96, R102,
R127, R131, R133, R136, R142, R172, R173. Completes (exec answers next): loadTile, expandTile, mma, vec, sampleEntry, sentinelEntry. -/
def Obligations.TableEntriesTakeEffect : Prop :=
  ∀ (s : State) (m c : Nat) (e : Bytes) (v : State), v = issue m c e s →
    (∀ f, entryOf s m opLoadTile = some e → (cluster s m).switched = false → tileReady s m e = true → loadsCome s m e = true →
      fetchRef s (enRef e) (leAt e 20 4) = some f → exec (.loadTile m c) s = .next (releaseTile m (cluster s m).pc (freeNext
        (countPoison f.tags (queueBlocks m (loadBlocks (enCores e) f.blocks) (logRead (enRef e) f (loadInto v m e f))))))) ∧
    (∀ f l, entryOf s m opExpand = some e → (cluster s m).switched = false → tileReady s m e = true → loadsCome s m e = true →
      fetchRef s (enRef e) (enTileLen s e) = some f →
      l = (if f.blocks = [] then [⟨refOff (enRef e), false, plainSyms (refFmt v (enRef e)).1 f.bytes.length, none, expandBufs v m e, 0⟩]
           else f.blocks.map fun b => { b with bufs := expandBufs v m e }) →
      exec (.expandTile m c) s = .next (releaseTile m (cluster s m).pc (freeNext (countPoison f.tags (queueBlocks m l
        (modCluster m (fun c => { c with
          bufs := (expandBufs v m e).foldl (fun b k => tabPut b k (expandTileOf v e f l.length false)) c.bufs }) v)))))) ∧
    (entryOf s m opMma = some e → mmaRows s e = 0 → exec (.mma m c) s = .next v) ∧
    (entryOf s m opMma = some e → mmaReady s m e = true → enginesFree s m c e = true → 0 < mmaRows s e →
      exec (.mma m c) s = .next ((namedCores s m e).foldl (mmaCore m c e (mmaRows s e)) v)) ∧
    (entryOf s m opVec = some e → loadsCome s m e = true → exec (.vec m c) s = .next ((entryCores s m e).foldl (vecCore e) v)) ∧
    (∀ r, entryOf s m opSample = some e → loadsCome s m e = true → curRun s = some r → exec (.sampleEntry m c) s =
      .next ((entryCores s m e).foldl (sampleCore e (resolveRows r.batch (leAt e 16 2))) v)) ∧
    (entryOf s m opSentinel = some e → sentIdle s e = true →
      exec (.sentinelEntry m c) s = .next (releaseTile m (cluster s m).pc v)) ∧
    (∀ f r k x l, entryOf s m opSentinel = some e → sentIdle s e = false → (cluster s m).switched = false → tileReady s m e = true →
      loadsCome s m e = true → fetchRef s (enRef e) (enTileLen s e) = some f → sentIdle v e = false → curRun v = some r → curStake v = some k →
      entryCores v m e = x :: l →
      let n := resolveRows r.batch (leAt e 28 2)
      let q := sentTiles v x e r f.bytes (fetchRecords v k (refHandle (enRef e)) (refOff (enRef e) / 32) (f.bytes.length / 32)).1 n (recStep v % divUp n 64)
      let d := driftSums q.narrow q.ref
      driftFails (teTol (stkEntry k (leAt e 24 2))) d.1.bits d.2.bits = false →
      exec (.sentinelEntry m c) s = .next (releaseTile m (cluster s m).pc (freeNext (queueBlocks m (loadBlocks (enCores e) f.blocks)
        ((q.sats ++ [(0, d.1.sat + d.2.sat)]).foldl (stageSat x) v)))))

/-- WAIT issues once its flag is at least COUNT. SIGNAL is on its way to a cluster in service for 40 cycles, or 160 to another die stack,
and then advances the flag; so does an arrival for a batch slot with a host flag. A BARRIER sets the cluster waiting, and every barrier
whose scope is complete issues. A passed deadline with the input not ready counts the stall and applies the fallback once; with the input
ready the entry only waits for its own fetch. END finishes the cluster once its earlier entries are done. Rules: R134, R135, R136, R137,
R138, R139, R140. Completes (exec answers next): waitEntry, signalEntry, signalDelivered, barrierEntry, entryDeadline,
hostArrivalComplete, endEntry. -/
def Obligations.EntriesMeetEachOther : Prop :=
  ∀ (s : State) (m c : Nat) (e : Bytes),
    (entryOf s m opWait = some e → leAt e 16 2 ≤ flagOf s m (leAt e 8 1) → exec (.waitEntry m c) s = .next (issue m c e s)) ∧
    (entryOf s m opSignal = some e → (cluster s (leAt e 10 2)).present = true → exec (.signalEntry m c) s = .next (issue m c e
      (modCluster m (fun x => { x with signals := x.signals ++
        [⟨leAt e 10 2, leAt e 8 1, c + if m / 32 = leAt e 10 2 / 32 then 40 else 160⟩] }) s))) ∧
    (entryOf s m opSignal = some e → (cluster s (leAt e 10 2)).present = false → exec (.signalEntry m c) s = .next (issue m c e s)) ∧
    (∀ k f u, (List.range 128).find? (fun m => hasSignal ⟨k, f, c⟩ (cluster s m)) = some m →
      u = modCluster m (fun x => { x with signals := x.signals.erase ⟨k, f, c⟩ }) s →
      exec (.signalDelivered k f c) s = .next (if (cluster u k).present = true then flagUp k f u else u)) ∧
    (entryOf s m opBarrier = some e → ∃ t, exec (.barrierEntry m c) s = .next (((List.range 128).filter (barrierMet t c)).foldl (fun t k => advance k c t) t) ∧
      t = modCluster m (fun x => { x with barrier := some (leAt e 8 1, leAt e 9 1) }) s) ∧
    (curEntry s m = some e → enDeadline e ≠ 0xFFFFFFFF → enDeadline e ≤ c → ∃ t, t = stallTo m e c (stallCause s m e) s ∧ exec (.entryDeadline m c false false) s =
      .next (if inputReady s m e = true then modCluster m (fun x => { x with unfetched := true }) t
             else if (cluster s m).fellBack then t else fallback m c e t)) ∧
    (∀ r k, curRun s = some r → 56 ≤ (slotRec r.batch k).flag → (slotRec r.batch k).flag ≤ 63 → exec (.hostArrivalComplete k) s =
      .next ((clustersIn s).foldl (fun t m => flagUp m (slotRec r.batch k).flag t) s)) ∧
    (entryOf s m opEnd = some e → entriesDone s m c = true → exec (.endEntry m c) s =
      .next (modCluster m (fun x => { x with finished := true }) (stallTo m e (min c (dataCame s m c e).1) (dataCame s m c e).2 s)))

/-- The stager starts the next tile that fits the slice, and ends staging it; the direct path delivers the tile of a switched entry, here
a LOAD_TILE, and counts the bytes read. A block of the expander is counted, at 256 coded or 512 raw symbols a cycle, and a region's
compressor ends its oldest object. Rules: R114, R115, R172, R173, R180, R182, R194, R196. Completes (exec answers next): stagerTileStart,
stagingComplete, directPathComplete, expanderBlockDone, compressorObjectReady. -/
def Obligations.TilesAreStaged : Prop :=
  ∀ (s : State) (m : Nat),
    (∀ r img v i e, (cluster s m).present = true → (cluster s m).staging = none → stageVariant s m = some (r, img, v) →
      stageNext s r img v (varEntries v) (cluster s m).reach = some (i, e) →
      inSlice (cluster s m) (tileName s r (enRef e)) (tileLenIn s r e) = none →
      sliceUsed (cluster s m) + refStored s r (enRef e) (tileLenIn s r e) ≤ 24 * 2 ^ 20 →
      exec (.stagerTileStart m) s = .next (modCluster m (fun c => { c with
        reach := i + 1, staging := some ⟨stageNo c i, (tileName s r (enRef e)).1, (tileName s r (enRef e)).2, tileLenIn s r e,
                                         refStored s r (enRef e) (tileLenIn s r e), refTierIn s r (enRef e), 0⟩ }) s)) ∧
    (∀ c t, (cluster s m).staging = some t → exec (.stagingComplete ⟨m, c⟩) s =
      .next (stagedCount t (modCluster m (fun x => { x with
        staging := none, staged := x.staged ++ if servesLater s m t then [{ t with since := c }] else [] }) s))) ∧
    (∀ c e f, directEntry s m = some e → enOp e = opLoadTile → fetchRef s (enRef e) (enTileLen s e) = some f →
      exec (.directPathComplete ⟨m, c⟩) s = .next (directNext m c (loadedAt m c 2 (enCores e) (bump (SEQ_CLU_DIRECT_BYTES m) f.stored
        (freeNext (countPoison f.tags (queueBlocks m (loadBlocks (enCores e) f.blocks) (logRead (enRef e) f (loadInto s m e f))))))))) ∧
    (∀ c b l, (cluster s m).expander = b :: l → b.mismatch = none → exec (.expanderBlockDone ⟨m, c⟩) s =
      .next (loadedAt m c 1 b.cores (bump (EXP_BUSY_CYCLES m) (divUp b.syms (if b.coded then 256 else 512))
        (bump (if b.coded then EXP_CODED_SYMS m else EXP_RAW_SYMS m) b.syms (modCluster m (fun x => blockDelivered b c { x with expander := l }) s))))) ∧
    (∀ x y z l, (regionSt s m).coding = (x, y, z) :: l → exec (.compressorObjectReady m) s =
      .next (bump (CMP_RAW_BLOCKS m) z (bump (CMP_OUT_BYTES m) y (bump (CMP_IN_SYMS m) x (modRegion m (fun r => { r with coding := l }) s)))))

/-- The only stop of the machine: a table entry whose source lies at a DPA for which R167 gives no target. -/
def Obligations.ReservedSourcesStop : Prop :=
  ∀ (s : State) (m c : Nat) (e : Bytes), (cluster s m).switched = false → tileReady s m e = true → loadsCome s m e = true →
    (entryOf s m opLoadTile = some e → fetchRef s (enRef e) (leAt e 20 4) = none →
      exec (.loadTile m c) s = .fault (.reservedDpa (refOff (enRef e)))) ∧
    (entryOf s m opExpand = some e → fetchRef s (enRef e) (enTileLen s e) = none →
      exec (.expandTile m c) s = .fault (.reservedDpa (refOff (enRef e)))) ∧
    (entryOf s m opSentinel = some e → sentIdle s e = false → fetchRef s (enRef e) (enTileLen s e) = none →
      exec (.sentinelEntry m c) s = .fault (.reservedDpa (refOff (enRef e))))

/-- Frames for a resident QP in INIT or RTS that an UP port receives. A TC-L packet with the expected PSN is accepted, and an ACK is owed;
one ahead of it is discarded with one NAK SEQ. A TC-S packet goes to its message's entry. An ACK releases every packet up to its PSN; a
NAK SEQ is a failure to retry, a NAK NO_CONTEXT plans a resend 5 us later, and a NAK NO_QP or QP_ERROR takes the QP to ERROR. A SACK
completes its message, or takes the covered packets off what is outstanding. Rules: R352, R353, R358, R359, R362, R363, R366, R369.
Completes (exec answers next): tclDataReceived, tcsDataReceived, ackReceived, nakReceived, sackReceived. -/
def Obligations.FramesAreTaken : Prop :=
  (∀ (s : State) (f : Fab) (q : Qp), portUp s f.port = true → f.dstDev = s.dev.deviceId → qpOf s f.dstQp = some q → q.state = 1 ∨ q.state = 2 →
    q.loc = 0 →
    (f.psn = q.expPsn → s.err.restarting = false → f.opcode ≠ 0x53 → q.ackOwed < 7 → exec (.tclDataReceived f) s = .next (modQp f.dstQp (fun q => { q with
      expPsn := (q.expPsn + 1) % 2 ^ 24, nakSent := false, lastUse := max s.tick f.now, ackOwed := q.ackOwed + 1,
      ackSince := if q.ackOwed = 0 then max s.tick f.now else q.ackSince }) (bump (FAB_PORT_RX_FRAMES f.port) 1 (atTick f.now s)))) ∧
    (1 ≤ (f.psn + 2 ^ 24 - q.expPsn) % 2 ^ 24 → (f.psn + 2 ^ 24 - q.expPsn) % 2 ^ 24 < 2 ^ 23 → q.nakSent = false →
      exec (.tclDataReceived f) s = .next (sendNak f.dstQp q.expPsn .seq (modQp f.dstQp (fun q => { q with nakSent := true })
        (bump (FAB_PORT_RX_FRAMES f.port) 1 (atTick f.now s))))) ∧
    exec (.tcsDataReceived f) s = .next (tcsAccept f (bump (FAB_PORT_RX_FRAMES f.port) 1 (atTick f.now s)))) ∧
  (∀ (s : State) (n port now : Nat) (q : Qp), portUp s port = true → qpOf s n = some q → q.state = 1 ∨ q.state = 2 →
    let t := bump (FAB_PORT_RX_FRAMES port) 1 (atTick now s)
    (∀ k, k < q.unacked.length → q.ackedPsn < 2 ^ 24 → k < 2 ^ 24 → exec (.ackReceived n port ((q.ackedPsn + k) % 2 ^ 24) now) s =
      .next (windowRefill n ((doneWork ((q.unacked.take (k + 1)).map (·.what)) ((q.unacked.drop (k + 1)).map (·.what) ++ q.queued.map (·.2.1))).foldl
        (fun t w => txDone w t) (modQp n (fun p => { p with unacked := q.unacked.drop (k + 1), ackedPsn := ((q.ackedPsn + k) % 2 ^ 24 + 1) % 2 ^ 24,
                                                            retry := 0, lastUse := max s.tick now }) t)))) ∧
    (∀ psn, exec (.nakReceived n port psn now .seq) s = .next (tclRetry n psn (bump FAB_TCL_NAK_RX 1 t))) ∧
    (∀ psn, exec (.nakReceived n port psn now .noContext) s =
      .next (modQp n (fun q => { q with resend := some (max s.tick now + usTicks 5, psn) }) (bump FAB_TCL_NAK_RX 1 t))) ∧
    (∀ psn, exec (.nakReceived n port psn now .noQp) s = .next (qpError n 3 (bump FAB_TCL_NAK_RX 1 t))) ∧
    (∀ psn, exec (.nakReceived n port psn now .qpError) s = .next (qpError n 3 (bump FAB_TCL_NAK_RX 1 t))) ∧
    (∀ psn, exec (.nakReceived n port psn now .unreachable) s = .next (leaveOut n port (bump FAB_TCL_NAK_RX 1 t))) ∧
    (∀ o base busy l, q.tcsOut.find? (fun x => x.msgId = o.msgId) = some o → exec (.sackReceived n port o.msgId base now true busy l) s =
      .next (txDone o.what (modQp n (fun q => { q with tcsOut := q.tcsOut.filter fun x => x.msgId ≠ o.msgId, lastUse := max s.tick now }) t))) ∧
    (∀ o base l, q.tcsOut.find? (fun x => x.msgId = o.msgId) = some o → exec (.sackReceived n port o.msgId base now false false l) s =
      .next (modQp n (fun q => { q with tcsOut := q.tcsOut.map fun x =>
        if x.msgId = o.msgId then { x with open' := x.open'.filter fun p => !(l.any fun i => base + i = p.idx) } else x }) t)))

/-- The oldest unacknowledged TC-L packet that is due is retried; an owed ACK leaves after 2 us; a planned resend happens once, 5 us after
its NAK; a TC-S packet that is due is resent on its next path while a retry and a port are left; a SACK shows the bitmap every 8 us; a
message that is not whole in time is closed. A packet that arrives on the tick of its timer, and waits in the queue, wins over the timer;
a port left out counts again. Rules: R357, R358, R359, R360, R362, R363. Completes (exec answers next): tclAckTimeout, tclAckDelayExpire,
tclNoContextResend, tcsRetransmitTimeout, tcsSackTimer, tcsAssemblyTimeout, portExclusionExpire. -/
def Obligations.TransportTimersAct : Prop :=
  ∀ (s : State) (n now : Nat), alive s = true →
    (∀ q psn, qpOf s n = some q → tclDue (atTick now s) n q = some psn → ackArrives (atTick now s) n q = false →
      exec (.tclAckTimeout n now) s = .next (tclRetry n psn (atTick now s))) ∧
    (∀ q, qpOf s n = some q → q.ackOwed ≠ 0 → q.ackSince + usTicks 2 ≤ max s.tick now →
      exec (.tclAckDelayExpire n now) s = .next (sendAck n (atTick now s))) ∧
    (∀ q at' psn, qpOf s n = some q → q.resend = some (at', psn) → at' ≤ max s.tick now → exec (.tclNoContextResend n now) s =
      .next (tclResend n psn (modQp n (fun q => { q with resend := none }) (atTick now s)))) ∧
    (∀ q id i o x, qpOf s n = some q → q.tcsOut.find? (fun o => o.msgId = id) = some o → o.open'.find? (fun p => p.idx = i) = some x →
      x.sentAt + usTicks (regField s FAB_TMO 25 16) ≤ max s.tick now → frameWaits s n true id i = false →
      sackArrives (atTick now s) n id i = false → x.retries < retryLimit s → allExcluded s q.peerDev = false →
      ∃ t, exec (.tcsRetransmitTimeout n id i now) s = .next (queueFrame (pathPort t q.peerDev (sprayPath t q i (x.retries + 1)))
          ⟨n, true, id, i, x.bytes, true, max s.tick now, o.budget, sprayPath t q i (x.retries + 1), pktCountOf i o.count⟩ t) ∧
        t = modQp n (fun q => { q with tcsOut := q.tcsOut.map fun o => if o.msgId = id then { o with open' := o.open'.map fun p =>
          if p.idx = i then { p with retries := p.retries + 1, sentAt := max s.tick now } else p } else o }) (atTick now s)) ∧
    (∀ q id t, qpOf s n = some q → q.tcsIn.find? (fun t => t.msgId = id) = some t → t.fresh = true → t.sackAt ≤ max s.tick now →
      exec (.tcsSackTimer n id now) s = .next (sendSack n id false false t.placed (modQp n (fun q => { q with tcsIn := q.tcsIn.map fun x =>
        if x.msgId = id then { x with sackAt := t.sackAt + usTicks 8, fresh := false } else x }) (atTick now s)))) ∧
    (∀ q id t, qpOf s n = some q → q.tcsIn.find? (fun t => t.msgId = id) = some t → t.buffer = none →
      t.firstAt + usTicks (regField s FAB_ASM_TMO 13 0) ≤ max s.tick now → asmArrives (atTick now s) n t = false →
      exec (.tcsAssemblyTimeout n id now) s =
      .next (bump FAB_ASM_TMO_CNT 1 (modQp n (fun q => msgClosed id { q with tcsIn := q.tcsIn.filter fun x => x.msgId ≠ id, tcsLate := id :: q.tcsLate })
        (msgClose n t.src t.opcode t.tag (atTick now s))))) ∧
    (∀ port dest, exec (.portExclusionExpire port dest now) s = 
      .next (modFab (fun f => { f with
        excluded := f.excluded.filter fun x => !(x.1 = port && x.2.1 = dest && decide (x.2.2 ≤ max s.tick now)) }) (atTick now s)))

/-- A written context that is verified leaves its slot to the oldest need of its die; a packet parked too long is discarded, with a NAK on
TC-L; a write to QPC_SEL copies the visible context of a QP into QPC_CTX, and a read of QPC_FETCH_MAX returns it and clears it. Rules:
R22, R24, R364, R370, R371, R372, R374. Completes (exec answers next): qpcEvictVerified, qpcHoldTimeout, qpcSelWrite, qpcFetchMaxRead. -/
def Obligations.ContextsComeAndGo : Prop :=
  ∀ (s : State) (n now : Nat), alive s = true →
    (∀ q, qpOf s n = some q → q.loc = 3 →
      exec (.qpcEvictVerified n) s = .next (slotFreed (n % 2) (bump QPC_EVICT_CNT 1 (modQp n (fun q => { q with loc := 1 }) s)))) ∧
    (∀ q x, qpOf s n = some q → q.parked = [x] → x.frame.now + usTicks (regField s QPC_HOLD_TMO 7 0) ≤ max s.tick now →
      exec (.qpcHoldTimeout n now) s =
        .next (turnAway x.tcs n x.frame.psn .noContext (bump QPC_HOLD_EXP_CNT 1 (modQp n (fun q => { q with parked := [] }) (atTick now s))))) ∧
    (∀ v, ∃ t, exec (.qpcSelWrite v) s = .next (putWords (QPC_CTX 0)
      (match qpOf s (regField t QPC_SEL 19 0) with | some q => qpContext (regField t QPC_SEL 19 0) q | none => zeros 64) t) ∧ t = regSet QPC_SEL v s) ∧
    exec .qpcFetchMaxRead s = .next (regPut QPC_FETCH_MAX 0 (emit (.readData (toLe 4 (regGet s QPC_FETCH_MAX)) false) s))

/-- A function-level reset of a VF without queue pairs resets its rings and its vectors and puts it into reset, and one of PF0, by a hot
reset or PERST# too, is the same operation; a reset ends and is counted. VF Enable sets who owns the rings. A vector that is unmasked
sends its pending message. The link comes up with its width and speed and delivers what waits, and its loss is counted. Rules: R459, R488,
R490, R491, R492. Completes (exec answers next): functionLevelReset, pcieHotReset, perstAssert, flrComplete, vfEnableChange, msixUnmask,
perstDeassert, pcieLinkUp, pcieLinkDown. -/
def Obligations.LinkAndFunctions : Prop :=
  ∀ (s : State) (now : Nat), readable s = true →
    (∀ fn, fnExists s fn = true → fn ≠ 0 → fnQps s fn = [] → exec (.functionLevelReset fn now) s =
      .next (settle (modPcie (fun x => { x with msix := tabKeep x.msix fun k _ => decide (k / 2048 ≠ fn),
                                                fnMasked := x.fnMasked.filter fun g => g ≠ fn, inFlr := fn :: x.inFlr.filter fun g => g ≠ fn })
        (ringRegsReset (fun n => decide (ringOwner s n = fn)) (ringsReset (fun n => decide (ringOwner s n = fn)) (atTick now s)))))) ∧
    exec (.functionLevelReset 0 now) s = .next (flrFx 0 (atTick now s)) ∧
    exec (.pcieHotReset now) s = .next (flrFx 0 (atTick now s)) ∧
    (s.dev.perst = false → exec (.perstAssert now) s =
      .next (flrFx 0 (linkSet false false 0 0 (modDev (fun d => { d with perst := true }) (atTick now s))))) ∧
    (∀ fn, s.pcie.inFlr.contains fn = true → exec (.flrComplete fn) s =
      .next (bump DEV_FLR_CNT 1 (modPcie (fun x => { x with inFlr := x.inFlr.filter fun g => g ≠ fn }) s))) ∧
    (∀ on k, k < 32 → ∃ t, exec (.vfEnableChange on k) s = .next (ringRegsReset (fun n => decide (ringOwner s n ≠ ringOwner t n))
      (ringsReset (fun n => decide (ringOwner s n ≠ ringOwner t n)) t)) ∧ t = modPcie (fun x => { x with vfEnable := on, numVfs := k }) s) ∧
    (∀ fn v, fnExists s fn = true → v < (if fn = 0 then 2048 else 64) → s.pcie.fnMasked.contains fn = false →
      exec (.msixUnmask fn v) s = .next ((if (msixVec s fn v).pending then msixRaise fn v else id)
        (modPcie (fun x => { x with msix := tabSet x.msix (2048 * fn + v) { msixVec s fn v with masked := false, pending := false } {} }) s))) ∧
    (∀ flit w v, exec (.perstDeassert flit w v) s = .next (drainAll (linkSet true flit (w % 64) (v % 16) (modDev (fun d => { d with perst := false }) s)))) ∧
    (∀ flit w v, s.dev.perst = false → exec (.pcieLinkUp flit w v) s = .next (drainAll (linkSet true flit (w % 64) (v % 16) s))) ∧
    (s.pcie.up = true → exec .pcieLinkDown s = .next (bump DEV_LINK_DOWN_CNT 1 (linkSet false false 0 0 s)))

/-- The I3C target gives its Provisional ID and takes its address, and answers a read of CLK_STATUS even in ROM; control messages, echo
requests and neighbour discovery for an address of the device are answered while the management controller runs; a character on the UART
reaches CP_SHELL, the TAP loads its instruction, and an edge on the owned pin is the debug trigger. Rules: R457, R469, R501, R503, R505,
R506. Completes (exec answers next): i3cEntdaa, i3cClkStatusRead, mctpControlMessage, icmpv6EchoRequest, neighbourDiscoveryMessage,
uartRx, jtagInstruction, traceTrigInput. -/
def Obligations.ManagementPathsAnswer : Prop :=
  ∀ s : State,
    (∀ a, s.dev.held = false → a < 128 →
      exec (.i3cEntdaa a) s = .next (modMgmt (fun m => { m with i3cAddr := some a }) (emit (.mctp (toLe 6 (i3cId s)).reverse) s))) ∧
    (s.dev.held = false → exec .i3cClkStatusRead s = .next (emit (.mctp (toLe 4 (clkStatus s))) s)) ∧
    (∀ a b, mgtRuns s = true → s.mgmt.i3cAddr = some a → exec (.mctpControlMessage b) s = .next (emit (.mctp (Config.mctpAnswer a b)) s)) ∧
    (∀ src dst b, mgtRuns s = true → dst ∈ mgtAddresses s → exec (.icmpv6EchoRequest src dst b) s = .next (emit (.icmp src b) s) ∧
      exec (.neighbourDiscoveryMessage src dst b) s = .next (emit (.icmp src (Config.ndAnswer dst b)) s)) ∧
    (∀ b, alive s = true → featureOn s 8 = true → exec (.uartRx b) s = .next (modMgmt (fun m => { m with shell := m.shell ++ b }) s)) ∧
    (∀ i, exec (.jtagInstruction i) s =
      .next (emit (.jtag (tapLoads s.dev.held i)) (modMgmt (fun m => { m with tap := tapLoads s.dev.held i }) s))) ∧
    (∀ pin up, alive s = true → ownedPin s 4 = some pin → exec (.traceTrigInput pin up) s = .next (modMgmt (fun m => { m with trigger := some up }) s))

/-- Host software while the device is heard. A write of DEV_IRQ_STATUS clears the bits written 1, but for events of the same cycle; one of
DEV_IRQ_ENABLE sends one message for each bit that goes to 1 over a pending event; ERR_LOG_SEL shows an entry of the log; a word that is
written to a register whose write is no act of its own changes its fields by their access codes, also with a reserved value; the lower
half of a 64-bit register latches the upper; SEQ_STEP_MAX clears on reading; a read of ERR_STATUS lets FAULT_OUT rise; an access of a bad
size or alignment is counted. Rules: R22, R23, R124, R423, R454, R469, R493, R496. Completes (exec answers next): devIrqStatusWrite,
devIrqEnableWrite, errLogSelWrite, regWrite, regReservedWrite, reg64LowHalfRead, seqStepMaxRead, errStatusRead, bar0BadAccess. -/
def Obligations.HostReachesRegisters : Prop :=
  ∀ s : State, hostHeard s = true →
    (∀ v now, exec (.devIrqStatusWrite v now) s = .next ((bitsOf 10 now).foldl (fun t b => irqEvent b t) (regSet DEV_IRQ_STATUS v s))) ∧
    (∀ v, exec (.devIrqEnableWrite v) s = .next (((bitsOf 10 v).filter fun b => !bit (regGet s DEV_IRQ_ENABLE) b && bit (regGet s DEV_IRQ_STATUS) b).foldl
      (fun t _ => msixRaise 0 (regField t DEV_IRQ_VECTOR 10 0) t) (regSet DEV_IRQ_ENABLE v s))) ∧
    (∀ v, ∃ t, exec (.errLogSelWrite v) s = .next (putWords (ERR_LOG_DATA 0)
      (match tabGet s.err.log (regField t ERR_LOG_SEL 9 0) with | some r => vendorBytes r | none => zeros 64) t) ∧ t = regSet ERR_LOG_SEL v s) ∧
    (∀ off v d, regRow? off = some d → d.width = 32 → off % 4 = 0 → v < 2 ^ 32 → s.pcie.inFlr.contains 0 = false →
      (off < 0x110000 ∨ 0x130000 ≤ off) → actWrite off v s = none → mirrorWrite off v s = none →
      exec (.regWrite 0 off 4 v) s = .next (regSet off v s) ∧ exec (.regReservedWrite 0 off v) s = .next (regSet off v s)) ∧
    (∀ off d, regRow? off = some d → d.width = 64 → exec (.reg64LowHalfRead off) s =
      .next (emit (.readData (toLe 4 (readReg s off % 2 ^ 32)) false)
        (modPcie (fun x => { x with latch := some (off, readReg s off / 2 ^ 32 % 2 ^ 32) }) s))) ∧
    exec .seqStepMaxRead s = .next (regPut SEQ_STEP_MAX 0 (emit (.readData (toLe 4 (regGet s SEQ_STEP_MAX)) false) s)) ∧
    (∃ t, exec .errStatusRead s = .next t ∧ t.dev.faultLow = false ∧
      (s.dev.faultLow = false → t = emit (.readData (toLe 4 (readReg s ERR_STATUS)) false) s)) ∧
    (∀ off size, badAccess off size = true → exec (.bar0BadAccess true off size) s = .next (bump DEV_ACC_ERR_CNT 1 s) ∧
      exec (.bar0BadAccess false off size) s = .next (emit (.readData (ones size) false) (bump DEV_ACC_ERR_CNT 1 s)))

/-- A mailbox packet sets BUSY and is handled, or waits while the management controller restarts; its restart ends with the records it
held back, an MGT_RESTART record, and the packet that waited. A BAR4 read returns the bytes at its DPA, poisoned where they are; a write
is applied in restricted mode with ENABLE and WRITE set, and is otherwise discarded and counted. Rules: R453, R499, R500, R504, R507.
Completes (exec answers next): mgtMboxGo, mgtRestartComplete, bar4Read, bar4Write. -/
def Obligations.MailboxAndWindow : Prop :=
  ∀ s : State, hostHeard s = true →
    (∀ op p, regField s MGT_MBOX_STATUS 0 0 = 0 → ∃ t, t = regPut MGT_MBOX_STATUS (setBits (regGet s MGT_MBOX_STATUS) 0 0 1) (atTick p.now s) ∧
      exec (.mgtMboxGo op p) s = .next (if s.err.mgtDown then modMgmt (fun m => { m with mboxWait := some (op, p) }) t else mboxRun op p t)) ∧
    (∀ now, s.err.mgtDown = true → s.mgmt.mboxWait = none → exec (.mgtRestartComplete now) s =
      .next (record { cause := 0x42, cls := 1, kind := 10 } (s.err.heldRecs.foldl (fun t r => recSend r t)
        (modMgmt (fun m => { m with mboxWait := none }) (modErr (fun e => { e with mgtDown := false, heldRecs := [] }) (atTick now s)))))) ∧
    (∀ off len, len ≠ 0 → off + len ≤ 2 ^ 28 → bar4Open s = true → (∀ i, i < len → bar4Reaches s (bar4Base s + off + i) = true) →
      exec (.bar4Read off len false) s = .next (emit (.readData (bar4Bytes (bar4Base s + off) len s).1
        ((memTags s (bar4Base s + off) len).any fun t => t ≠ 0)) (bar4Bytes (bar4Base s + off) len s).2)) ∧
    (∀ off l, off + l.length ≤ 2 ^ 28 → exec (.bar4Write off l) s =
      .next (if bar4Open s = true ∧ regField s DEV_BAR4_CTRL 1 1 = 1 ∧ restricted s = true then bar4Puts (bar4Base s + off) l s
             else bump DEV_BAR4_DISCARD_CNT 1 s))

/-- Training of port `p`: a signal takes it from DETECT to TRAIN, locked lanes to NEGOTIATE with the width that R345 gives, and an agreed
version with the right plane to UP; the higher rate is given up after 25 ms, and an attempt that is too long, or that agrees no version,
fails. A lane that loses lock is retrained and leaves the port's lanes; one that locks again joins them. RETRAIN starts training again.
Completes (exec answers next): portSignalDetect, portLaneLock, portNegotiateDone, portRateFallbackTimeout, portDetectTimeout,
portTrainTimeout, portNegotiateTimeout, laneLossOfLock, laneRetrainLock, portRetrainWrite. -/
def Obligations.PortsTrain : Prop :=
  ∀ (s : State) (p now : Nat), alive s = true → p < 8 →
    ((portOf s p).state = 1 → exec (.portSignalDetect p) s =
      .next (lanesSet p 2 (modPort p (fun q => { q with state := 2, since := s.tick, slow := false }) s))) ∧
    (∀ lanes fast up, up = bitmap 4 (fun l => lanes.contains l && !bit (portOf s p).lanesDis l) → (portOf s p).state = 2 → up ≠ 0 →
      fast = true ∨ (portOf s p).slow = true → exec (.portLaneLock p lanes fast) s = .next ((bitsOf 4 up).foldl (fun t l => laneSet p l 1 t)
        (modPort p (fun q => { q with state := 3, since := s.tick, lanesUp := up, width := widthOf up }) s))) ∧
    (∀ major minor plane, (portOf s p).state = 3 → linkSpoken major minor = true →
      exec (.portNegotiateDone p now major minor plane) s = .next (negotiated p major minor plane (atTick now s))) ∧
    (∀ major minor plane, (portOf s p).state = 3 → linkSpoken major minor = false →
      exec (.portNegotiateDone p now major minor plane) s = .next (attemptFailed p (atTick now s))) ∧
    ((portOf s p).since + msTicks 25 ≤ max s.tick now → (portOf s p).state = 2 →
      exec (.portRateFallbackTimeout p now) s = .next (modPort p (fun q => { q with slow := true }) (atTick now s))) ∧
    ((portOf s p).since + msTicks 50 ≤ max s.tick now →
      ((portOf s p).state = 1 → exec (.portDetectTimeout p now) s = .next (attemptFailed p (atTick now s))) ∧
      ((portOf s p).state = 2 → exec (.portTrainTimeout p now) s = .next (attemptFailed p (atTick now s)))) ∧
    ((portOf s p).since + msTicks 10 ≤ max s.tick now → (portOf s p).state = 3 →
      exec (.portNegotiateTimeout p now) s = .next (attemptFailed p (atTick now s))) ∧
    (∀ l, l < 4 → bit (portOf s p).lanesUp l = true → exec (.laneLossOfLock p l now) s =
      .next (laneLossPort p ((lanesUsed (portOf s p).lanesUp).contains l)
        (modPort p (fun q => { q with lanesUp := setBits q.lanesUp l l 0 }) (laneRetrained p l (atTick now s))))) ∧
    (∀ l, l < 4 → s.fab.lanes.getD (4 * p + l) 0 = 2 → (portOf s p).state = 3 ∨ (portOf s p).state = 4 → exec (.laneRetrainLock p l) s =
      .next (laneSet p l 1 (modPort p (fun q =>
        { q with lanesUp := setBits q.lanesUp l l 1, width := widthOf (setBits q.lanesUp l l 1) }) s))) ∧
    ((portOf s p).state = 4 → exec (.portRetrainWrite p) s = .next (portRetrain p s)) ∧
    ((portOf s p).state = 6 ∨ (portOf s p).state = 7 → exec (.portRetrainWrite p) s = .next (portTo p 1 1 s))

/-- An UP port sends a KEEPALIVE every 100 us, takes its partner's and the delay it measures, and counts those that are missing, the third
one starting training again; it takes credits and pauses, which end, and counts frames that it throws away. It starts the first TC-L frame
that credits, pause and shaping let go. The timing wheel advances one slot every 8 ticks. Rules: R349, R350, R351, R353, R415, R416.
Completes (exec answers next): keepaliveSend, keepaliveReceived, keepaliveMiss, creditReceived, pauseReceived, pauseExpire,
linkFrameInvalid, frameSendStart, shaperWheelSlot. -/
def Obligations.LinkLayerRuns : Prop :=
  ∀ (s : State) (p now : Nat), portUp s p = true →
    (∀ f, f = .keepalive p (max s.tick now) (portOf s p).partnerTick (if (portOf s p).partnerTick = 0 then 0 else max s.tick now - (portOf s p).kaRx) →
      (portOf s p).kaTx + usTicks 100 ≤ max s.tick now → exec (.keepaliveSend p now) s = .next (bump (FAB_PORT_TX_FRAMES p) 1
      (emit (.frame (some p) f (linkBytes s.dev.deviceId (0, 0) f))
        (modPort p (fun q => { q with kaTx := max s.tick now }) (atTick now s))))) ∧
    (∀ plane tx echo hold, plane < 16 → exec (.keepaliveReceived p now plane tx echo hold) s = .next (bump (FAB_PORT_RX_FRAMES p) 1
      (modPort p (fun q => { q with partnerTick := tx, kaRx := max s.tick now, kaMiss := 0,
                                    delay := delayAfter q.delay (max s.tick now) echo hold }) (atTick now s)))) ∧
    ((portOf s p).kaRx + usTicks 100 * ((portOf s p).kaMiss + 1) ≤ max s.tick now → ∃ t,
      t = bump (FAB_PORT_KA_MISS p) 1 (modPort p (fun q => { q with kaMiss := q.kaMiss + 1 }) (atTick now s)) ∧ exec (.keepaliveMiss p now) s =
        .next (if (portOf s p).kaMiss = 2 then portRetrain p (record { cause := 0x26, cls := 0, kind := 7, unit := p, c0 := 1 } t) else t)) ∧
    (∀ n, exec (.creditReceived p n) s = .next (creditCame p (bump (FAB_PORT_RX_FRAMES p) 1
      (modPort p (fun q => { q with credGranted := n % 2 ^ 32 }) s)))) ∧
    (∀ tcl tcs time, time ≠ 0 → exec (.pauseReceived p now tcl tcs time) s = .next (bump (FAB_PORT_PAUSE_RX p) 1 (bump (FAB_PORT_RX_FRAMES p) 1
      (modPort p (fun q => { q with pauseTcl := if tcl then some (max s.tick now + time) else q.pauseTcl,
                                    pauseTcs := if tcs then some (max s.tick now + time) else q.pauseTcs }) (atTick now s))))) ∧
    exec (.pauseExpire p now) s = .next (modPort p (fun q =>
      { q with pauseTcl := pausedTill (max s.tick now) q.pauseTcl, pauseTcs := pausedTill (max s.tick now) q.pauseTcs }) (atTick now s)) ∧
    exec (.linkFrameInvalid p false) s = .next (bump (FAB_PORT_RX_FRAMES p) 1 (bump (FAB_PORT_BAD_FRAME p) 1 s)) ∧
    exec (.linkFrameInvalid p true) s = .next (bump (FAB_PORT_RX_FRAMES p) 1 (bump FAB_NO_QP 1 s)) ∧
    (∀ f l, (portOf s p).tcl = f :: l → shapedOut (atTick now s) f = false → (portOf s p).pauseTcl = none →
      frameCredits f.bytes ≤ creditsLeft (portOf s p) →
      exec (.frameSendStart p now false) s = .next (startFrame p f (creditWaited p (modPort p (fun q => { q with tcl := l }) (atTick now s))))) ∧
    (∀ f l, (portOf s p).tcs = f :: l → shapedOut (atTick now s) f = false → (portOf s p).pauseTcs = none → tclReady (atTick now s) p = false →
      gateAllows (atTick now s) p f.bytes = true →
      exec (.frameSendStart p now true) s = .next (startFrame p f (modPort p (fun q => { q with tcs := l }) (atTick now s)))) ∧
    (max s.tick now = s.sched.wheelAt + 8 → exec (.shaperWheelSlot now) s =
      .next (modSched (fun c => { c with wheelAt := s.sched.wheelAt + 8, cursor := (s.sched.cursor + 1) % 4096 }) (wheelStep (atTick now s))))

/-- REQ.ADMIT and REQ.REBUILD that pass the checks enrol their manifest in the lowest free berth; the same command again is answered with
the manifest it made; and the checks of R213 answer in their order. Completes (exec answers next): reqRebuild, reqAdmit. -/
def Obligations.AdmissionFollowsItsChecks : Prop :=
  ∀ (s : State) (p : Pkt) (again : Bool),
    let row : OpRow := ⟨if again then 0x26 else 0x20, true, false, false, 8908, false⟩
    let cmd : Instr := if again then .reqRebuild p else .reqAdmit p
    let u := taken row p s
    let a := admRec p.payload
    AcceptedBy admChecks row s p →
    (paramsZero p false false false false = false ∨ admFormatOk u again p.payload a = false →
      exec cmd s = .next (failAt row.code p stFormat 0x104 u)) ∧
    (paramsZero p false false false false = true → admFormatOk u again p.payload a = true →
      (∀ b x, berthOfRequest u a.requestId = some b → berthAt u b = some x →
        exec cmd s = .next (if x.adm = admKey row.code p ∧ x.id.ttftBudget = p.slack then answer row.code p (midOf u b) stOk 0 x.prog.logLen true u
                            else failAt row.code p stFormat 0x105 u)) ∧
      (berthOfRequest u a.requestId = none → admWithy u again a.withy = none → exec cmd s = .next (failAt row.code p stWithyRetired 0x106 u)) ∧
      (∀ ver, berthOfRequest u a.requestId = none → admWithy u again a.withy = some ver →
        berthFree u = none ∨ berthAllowed u (compOfQp u a.ownerQp) = false → exec cmd s = .next (failAt row.code p stNoBerth 0x107 u)) ∧
      (∀ ver b, berthOfRequest u a.requestId = none → admWithy u again a.withy = some ver → berthFree u = some b →
        berthAllowed u (compOfQp u a.ownerQp) = true → a.hasStop = 1 → stopSlot u a.stop = none →
        exec cmd s = .next (failAt row.code p stBusy 0x108 u)) ∧
      (∀ ver b n, berthOfRequest u a.requestId = none → admWithy u again a.withy = some ver → berthFree u = some b →
        berthAllowed u (compOfQp u a.ownerQp) = true → (if a.hasStop = 1 then stopSlot u a.stop else some 0xFFFF) = some n →
        exec cmd s = .next (if framesAllowed u (compOfQp u a.ownerQp) 2 then enrol again row.code p a ver n b u
                            else failAt row.code p stNoPage 0x109 u)))

/-- Commands that name a manifest of a current epoch. REQ.APPEND to an ADMITTED manifest that keeps its target lengthens the log;
REQ.CANCEL of one that has ended is answered, and otherwise waits for the boundary or ends the manifest; REQ.QUERY returns its image;
REQ.RELEASE of one that has ended frees its berth; REQ.DRAFT for a GENERATING one is kept in place of an older draft. A manifest that is
not here is ST_FORMAT and counted. Rules: R205, R210, R218, R219, R229, R253. Completes (exec answers next): reqAppend, reqCancel,
reqQuery, reqRelease, reqDraft. -/
def Obligations.RequestsActOnTheirBerth : Prop :=
  ∀ (s : State) (p : Pkt) (b : Nat) (x : Berth),
    let named := fun (r : OpRow) => Accepted r s p ∧ berthNamed (taken r p s) p.mid = some b ∧ berthAt (taken r p s) b = some x ∧
      manEpochOk (taken r p s) x p = true
    (∀ r u v, r = ⟨0x21, true, false, false, 8192, false⟩ → u = taken r p s → named r → paramsZero p false false false false = true →
      p.payload.length % 4 = 0 → x.prog.state = 1 → x.prog.logLen + (payloadTokens p.payload).length ≤ x.target →
      logAppend b (payloadTokens p.payload) u = some v →
      exec (.reqAppend p) s = .next (logComplete b (ok 0x21 p (x.prog.logLen + (payloadTokens p.payload).length) v))) ∧
    (∀ r u, r = ⟨0x24, true, true, false, 0, false⟩ → u = taken r p s → named r → paramsZero p false false false false = true →
      (8 ≤ x.prog.state → exec (.reqCancel p) s = .next (ok 0x24 p 0 u)) ∧
      (x.prog.state = 2 ∨ x.prog.state = 4 → exec (.reqCancel p) s = .next (settle (modBerth b (fun y =>
        { y with cancels := y.cancels ++ [p], prog := { y.prog with cancel := true } }) u))) ∧
      (x.prog.state = 1 → exec (.reqCancel p) s = .next (manCancel b (modBerth b (fun y =>
        { y with cancels := y.cancels ++ [p], prog := { y.prog with cancel := true } }) u)))) ∧
    (∀ r, r = ⟨0x25, true, true, false, 0, false⟩ → named r → paramsZero p false false false false = true →
      exec (.reqQuery p) s = .next (respond 0x25 p (manImage x) 0 (taken r p s))) ∧
    (∀ r u, r = ⟨0x27, true, true, false, 0, false⟩ → u = taken r p s → named r → paramsZero p false false false false = true → 8 ≤ x.prog.state →
      exec (.reqRelease p) s = .next (ok 0x27 p 0 (freeBerth b (if u.dev.personality = 2 then dropAt' x (compOf u x) (holdersOf u b x) u else u)))) ∧
    (∀ r u, r = ⟨0x28, false, true, false, 8192, false⟩ → u = taken r p s → named r → paramsZero p true true false false = true → x.prog.state = 4 →
      p.p1 ≠ 0 → p.p1 < x.id.specMax → p.payload.length = 4 * p.p1 → x.prog.logLen ≤ p.p0 →
      exec (.reqDraft p) s = .next (modBerth b (fun y => { y with draft := some (p, payloadTokens p.payload) }) (wasteDraft b u))) ∧
    (∀ r, r = ⟨0x25, true, true, false, 0, false⟩ → Accepted r s p → berthNamed (taken r p s) p.mid = none → paramsZero p false false false false = true →
      exec (.reqQuery p) s = .next (fail 0x25 p stFormat (bump MAN_STALE_ID_CNT 1 (taken r p s))))

/-- REQ.HANDOFF without a payload replaces the generation device of a manifest in PROMPT. An incoming transfer that the rows of R223
refuse is answered and counted. REQ.ACCEPT from the generation device ends the handoff. The answers to a transfer and to REQ.ACCEPT, and
the three timers, take the handoff on or end it (an arrival on the timer's tick wins); a write of MAN_BERTH_SEL shows a berth's manifest.
Completes (exec answers next): reqHandoffRetarget, reqHandoffTransfer, reqAccept, handoffTransferReply, acceptReply, handoffTimeout,
awaitConfirmTimeout, reservedBerthTimeout, manBerthSelWrite. -/
def Obligations.HandoffsRun : Prop :=
  (∀ (s : State) (p : Pkt) (b : Nat) (x : Berth) (r : OpRow), r = ⟨0x22, true, true, false, 8389452, false⟩ → Accepted r s p →
    berthNamed (taken r p s) p.mid = some b → berthAt (taken r p s) b = some x → manEpochOk (taken r p s) x p = true →
    p.payload = [] → paramsZero p true false false false = true → p.p0 < 4096 → x.prog.state = 2 → exec (.reqHandoffRetarget p) s =
      .next (ok 0x22 p 0 (modBerth b (fun y => { y with id := { y.id with genDev := p.p0 } }) (taken r p s)))) ∧
  (∀ (s : State) (p : Pkt), AcceptedBy firstFail6 transferRow s p → exec (.reqHandoffTransfer p) s =
    .next (match firstFail (taken transferRow p s) transferRow p with
      | some e => failAt 0x22 p e.1 e.2 (bump MAN_HANDOFF_REFUSED_CNT 1 (taken transferRow p s))
      | none => transferAct p (taken transferRow p s))) ∧
  (∀ (s : State) (p : Pkt) (b : Nat) (x : Berth) (r : OpRow), r = ⟨0x23, true, false, false, 0, false⟩ → Accepted r s p →
    berthNamed (taken r p s) p.mid = some b → berthAt (taken r p s) b = some x → manEpochOk (taken r p s) x p = true →
    paramsZero p true false false false = true → x.prog.state = 3 → (x.xfer.bind (·.at')).isSome = true → (∀ qp d port, p.path = .fabric qp d port → d = x.id.genDev) →
    exec (.reqAccept p) s = .next (manEnd b 8 6 stOk x.prog.released []
      (ok 0x23 p 0 (modBerth b (fun y => { y with xfer := none }) (taken r p s))))) ∧
  (∀ (s : State) (r : Rep) (b : Nat), alive s = true → r.rcrcOk = true →
    (staleAnswer s r.opcode r.mid = false → berthOfXfer s r.tag = some b → r.status = stPending → exec (.handoffTransferReply r) s = .next (sendWindow b (atTick r.now s))) ∧
    (staleAnswer s r.opcode r.mid = false → berthOfXfer s r.tag = some b → r.status = stNoBerth → exec (.handoffTransferReply r) s = .next (handoffRefused b stNoBerth (atTick r.now s))) ∧
    (staleAnswer s r.opcode r.mid = false → berthOfAccept s r.tag = some b → r.status = stOk →
      exec (.acceptReply r) s = .next (modProg b (fun p => { p with await := false }) (atTick r.now s)))) ∧
  (∀ (s : State) (b now : Nat), alive s = true →
    (∀ y x, berthAt s b = some y → y.xfer = some x → handoffLate (atTick now s) x.at' = true → acceptArrives (atTick now s) b = false →
      replyArrives (atTick now s) x.tag = false →
      exec (.handoffTimeout b now) s = .next (handoffRefused b stTimeout (bump MAN_HANDOFF_TMO_CNT 1 (atTick now s)))) ∧
    (∀ x, berthAt s b = some x → x.prog.await = true → x.prog.state = 4 ∨ x.prog.state = 7 →
      handoffLate (atTick now s) x.acceptAt = true → replyArrives (atTick now s) x.acceptTag = false →
      exec (.awaitConfirmTimeout b now) s = .next (manVoid b (bump MAN_HANDOFF_TMO_CNT 1 (atTick now s)))) ∧
    (∀ x, tabGet s.man.xfers b = some x → x.at' + handoffTmo s ≤ now → exec (.reservedBerthTimeout b now) s =
      .next (xferEnd b stTimeout (bump MAN_HANDOFF_REFUSED_CNT 1 (bump MAN_HANDOFF_TMO_CNT 1 (atTick now s)))))) ∧
  (∀ (s : State) (v : Nat), hostHeard s = true → ∃ t, t = regSet MAN_BERTH_SEL v s ∧ exec (.manBerthSelWrite v) s =
    .next (putWords (MAN_BERTH_IMG 0) (match berthAt s (regField t MAN_BERTH_SEL 13 0) with | some x => manImage x | none => zeros 256) t))

/-- PAGE.PUT places its bytes in the key's ARRIVING frame, taking one for the first packet; PAGE.SEAL of a frame that it checks ends the
arrival; PAGE.GET starts a move of the copy to the device that asks; PAGE.DROP drops the copies that it names. An ARRIVING frame whose
seal does not come in time goes. Rules: R245, R247, R248, R250, R251, R253, R324. Completes (exec answers next): pagePut, pageSeal,
pageGet, pageDrop, arrivingFrameTimeout. -/
def Obligations.PagesAreHeld : Prop :=
  (∀ (s : State) (p : Pkt) (f : Nat) (v : State), Accepted putRow s p → p.p2 < 2 ^ 20 → noTranscode (taken putRow p s) p = false →
    ((taken putRow p s).man.arrivalsLost.contains (p.p0 + 2 ^ 32 * p.p1, p.p3, p.p2 % 256) && p.offset ≠ 0) = false →
    (match arrivingOf (taken putRow p s) (p.p0 + 2 ^ 32 * p.p1) p.p3 (p.p2 % 256) with
      | some f => some (f, taken putRow p s)
      | none => takeArriving p (p.p0 + 2 ^ 32 * p.p1) (p.p2 % 256) p.p3 (p.p2 / 256)
          (arrivalAnew (p.p0 + 2 ^ 32 * p.p1, p.p3, p.p2 % 256) (taken putRow p s))) = some (f, v) →
    exec (.pagePut p) s = .next (demoteCheck (ok 0x30 p 0 (bump (LGT_REG_BYTES_IN (frameRegion (taken putRow p s) f)) p.payload.length
      (modFrame f (fun x => { x with partner := p.p2 / 256, src := srcOf p, putAt := (taken putRow p s).tick,
                                     placed := (p.offset, p.payload.length) :: x.placed })
        (putBytes f p.offset (oldPartner (taken putRow p s) p) p.payload v)))))) ∧
  (∀ (s : State) (p : Pkt) (f : Nat) (x : Frame) (r : OpRow) (u : State), r = ⟨0x32, true, true, true, 32, false⟩ → u = taken r p s → Accepted r s p →
    paramsZero p false false false false = true → noTranscode u p = false →
    arrivingOf u (leAt p.payload 0 8) (leAt p.payload 16 4) (leAt p.payload 20 1) = some f → frameAt u f = some x →
    exec (.pageSeal p) s = .next (if sealOk u (oldPartner u p) p.payload then sealArrived p f x u else fail 0x32 p stFormat (arrivingGone f u))) ∧
  (∀ (s : State) (p : Pkt) (f : Nat) (x : Frame) (r : OpRow) (u : State), r = ⟨0x31, true, true, true, 0, false⟩ → u = taken r p s → Accepted r s p →
    p.p2 < 256 → copyOf u (p.p0 + 2 ^ 32 * p.p1) p.p3 (p.p2 % 256) = some f → frameAt u f = some x →
    (∀ qp d port, p.path = .fabric qp d port → exec (.pageGet p) s = .next (startMove f .get none x.comp [d] (ok 0x31 p 0 u))) ∧
    (∀ n, p.path = .ring n → exec (.pageGet p) s = .next (getOnRing n f x (ok 0x31 p 0 u)))) ∧
  (∀ (s : State) (p : Pkt) (r : OpRow), r = ⟨0x34, true, true, true, 8192, false⟩ → Accepted r s p → dropOk p = true →
    exec (.pageDrop p) s = .next (ok 0x34 p 0 ((dropNames (taken r p s) p).foldl (fun u f => dropCopy f u) (taken r p s)))) ∧
  (∀ (s : State) (f now : Nat) (x : Frame), alive s = true → frameAt s f = some x → x.state = 4 → x.placed ≠ [] → x.putAt + moveTmoTicks s ≤ now →
    exec (.arrivingFrameTimeout f now) s = .next (arrivingGone f (atTick now s)))

/-- PAGE.MIRROR by its mode: on a cache node modes 0 and 1 start to copy the pages of a dead holder, or to tell the owners of what came
from a dead survivor; on an owner mode 2 takes dead devices out of every holder field and gives the named manifests the new pair, and
modes 3 and 4 add the spare to the entries of a request, all of them or those below the verified prefix. Rules: R255, R256, R257, R258,
R259. Completes (exec answers next): pageMirrorCopy, pageMirrorClose, pageMirrorRepair, pageMirrorDone, pageMirrorPartial. -/
def Obligations.MirrorsAreRepaired : Prop :=
  ∀ (s : State) (p : Pkt),
    (∀ r u, r = ⟨0x33, false, false, true, 131104, false⟩ → u = taken r p s → Accepted r s p →
      (mirrorOk p 0 = true → p.p2 = 0 → p.payload = [] → exec (.pageMirrorCopy p) s = .next (mirrorStart p
        { close := false, dead := p.p1 % 4096, spare := p.p1 / 4096, comp := arrivalComp u p.path, todo := copiesBy u fun f => f.partner = p.p1 % 4096,
          deadSpare := false, pkt := p } (fun _ => copyJobs) u)) ∧
      (mirrorOk p 1 = true → p.p1 < 4096 → p.p2 = 0 → p.payload = [] → exec (.pageMirrorClose p) s = .next (closeAct p u))) ∧
    (∀ r u, r = ⟨0x33, true, true, false, 131104, false⟩ → u = taken r p s → Accepted r s p →
      (mirrorOk p 2 = true → p.p2 < 4096 → 32 ≤ p.payload.length → p.payload.length % 8 = 0 → exec (.pageMirrorRepair p) s = .next (repairAct p u)) ∧
      (∀ b, mirrorOk p 3 = true → p.p2 = 0 → p.payload.length = 8 → berthOfRequest u (leAt p.payload 0 8) = some b → exec (.pageMirrorDone p) s =
        .next (transferCheck b (ok 0x33 p 0 (modTable b (fun t => { t with entries := t.entries.map fun e =>
          if e.2.holderA = p.p1 % 4096 ∨ e.2.holderB = p.p1 % 4096 then (e.1, addSpare (p.p1 % 4096) (p.p1 / 4096) e.2) else e }) u)))) ∧
      (∀ b, mirrorOk p 4 = true → p.p2 = 0 → p.payload.length = 16 → leAt p.payload 13 3 = 0 → berthOfRequest u (leAt p.payload 0 8) = some b →
        exec (.pageMirrorPartial p) s = .next (transferCheck b (ok 0x33 p 0 (modTable b (fun t => { t with entries := t.entries.map fun e =>
          let i := e.1 / max 1 t.layers
          if (e.2.holderA = p.p1 % 4096 ∨ e.2.holderB = p.p1 % 4096) ∧
              (i < leAt p.payload 8 4 ∨ i = leAt p.payload 8 4 ∧ e.1 % max 1 t.layers < leAt p.payload 12 1)
          then (e.1, addSpare (p.p1 % 4096) (p.p1 / 4096) e.2) else e }) u)))))

/-- A verified demotion moves the references to the copy in LPDDR5X; one that fails its check frees the new frame. Answers to a move's
packets and seal, and to a drop, are taken; a holder that does not answer in time is retried later. PAGE.SWAPOUT of a GENERATING manifest
and PAGE.SWAPIN of a SWAPPED one are answered ST_PENDING, and end with the manifest SWAPPED, or GENERATING again. Rules: R29, R248, R249,
R252, R253, R254, R260, R261. Completes (exec answers next): demotionVerified, pageMoveReply, pageDropReply, pageMoveTimeout,
pageMoveRetry, pageDropRetry, pageSwapOut, pageSwapIn, swapOutVerified, swapInComplete. -/
def Obligations.MovesAndSwapsEnd : Prop :=
  (∀ (s : State) (f g now : Nat) (x : Frame), alive s = true → frameAt s f = some x → x.demote = some g →
    let u := modFrame f (fun y => { y with demote := none }) (atTick now s)
    exec (.demotionVerified f now true) s = .next (demoteCheck (bump LGT_DEMOTED_CNT 1
      (frameUnref f (modFrame f (fun y => { y with requestId := 0 }) (reframe f g (demoteWrite f g x u)))))) ∧
    exec (.demotionVerified f now false) s = .next (demoteCheck (modMan (fun m => { m with frames := tabDel m.frames g }) u))) ∧
  (∀ (s : State) (r : Rep) (m h d : Nat) (x : Move) (g : MoveTgt), alive s = true → r.rcrcOk = true →
    staleAnswer s r.opcode r.mid = false →
    (moveOfTag s r.tag = some (m, h) → moveAt s m = some x → x.tgts[h]? = some g → g.st = 2 → g.tag = r.tag → r.status = stOk →
      exec (.pageMoveReply r) s = .next (accepted m h (atTick r.now s))) ∧
    (dropOfTag s r.tag = some d → statusListed r.status = true → exec (.pageDropReply r) s = .next (dropAnswered d r.status (atTick r.now s)))) ∧
  (∀ (s : State) (m now d : Nat), alive s = true →
    (∀ h, (tgtsWhere (atTick now s) m fun t => (t.st = 1 || t.st = 2) && sentBefore t.sentAt (moveTmoTicks s) now &&
        !replyArrives (atTick now s) t.tag) = [h] →
      exec (.pageMoveTimeout m now) s = .next (tgtRefused m h stTimeout (atTick now s))) ∧
    (∀ h, (tgtsWhere (atTick now s) m fun t => t.st = 4 && decide (t.at' ≤ now)) = [h] →
      exec (.pageMoveRetry m now) s = .next (sendPut m h (modTgt m h (fun g => { g with st := 0, sentAt := none }) (atTick now s)))) ∧
    (∀ x t, dropAt s d = some x → x.retryAt = some t → t ≤ now → exec (.pageDropRetry d now) s = .next (sendDrop d (atTick now s)))) ∧
  (∀ (s : State) (p : Pkt) (b : Nat) (x : Berth),
    (∀ r u, r = ⟨0x35, false, true, false, 0, false⟩ → u = taken r p s → Accepted r s p → berthNamed u p.mid = some b → berthAt u b = some x →
      manEpochOk u x p = true → paramsZero p false false false false = true → x.prog.state = 4 → pagesMoving u b x = false → x.swapPkt = none →
      ∃ v, v = pend 0x35 p (modBerth b (fun y => { y with swapPkt := some p }) u) ∧
        exec (.pageSwapOut p) s = .next (if u.eng.step.isSome then v else swapOutDue b v)) ∧
    (∀ r u v, r = ⟨0x36, false, true, false, 0, false⟩ → u = taken r p s → Accepted r s p → berthNamed u p.mid = some b → berthAt u b = some x →
      manEpochOk u x p = true → paramsZero p false false false false = true → x.prog.state = 6 → pagesMoving u b x = false →
      swapInBegin b (modBerth b (fun y => { y with swapPkt := some p }) u) = some v → exec (.pageSwapIn p) s = .next (pend 0x36 p v))) ∧
  (∀ (s : State) (b now : Nat) (x : Berth) (q : Snapshot), alive s = true → berthAt s b = some x → x.snap = some q → x.prog.state = 5 →
    (x.swapOut = true → exec (.swapOutVerified b now true) s = .next (swapAnswer b 0x35 stOk (bump LGT_SWAP_BYTES q.bytes
      (bump LGT_SWAPOUT_CNT 1 (enterState b 6 (swapFree b x (modBerth b (fun y => { y with swapOut := false }) (atTick now s)))))))) ∧
    (x.swapIn = true → exec (.swapInComplete b now .whole) s = .next (swapAnswer b 0x36 stOk (bump LGT_SWAP_BYTES q.bytes
      (bump LGT_SWAPIN_CNT 1 (snapGone b (enterState b 4 (logStore x.table.logFrames 0 x.log (q.pages.foldl (swapRestore b x)
        (modBerth b (fun y => { y with swapIn := false }) (atTick now s)))))))))))

/-- A MEM.LOAD, STORE or ATOMIC at its home, its key good for the access, joins the queue of its line. On a ring with a QP, in the same
basin, it is forwarded, and so is a batch. A reply from the home passes back to the ring; a forwarded operation or batch that is not
answered in time ends. A batch from the fabric that finds room enters its operations. MSA_LINE_MAX clears on reading. Rules: R376, R377,
R378, R381, R385, R387, R391, R392, R394, R396, R397. Completes (exec answers next): memLoad, memStore, memAtomic, memGateway,
msaForwardReply, msaOpTimeout, msaGwTimeout, msaLineMaxRead. -/
def Obligations.MemoryPacketsAreServed : Prop :=
  (∀ (s : State) (p : Pkt) (op : Nat) (k : MsaKind) (a : Nat) (r : OpRow) (u : State), r = ⟨op, true, true, true, if op = 0x50 then 0 else if op = 0x51 then 64 else 16, false⟩ →
    u = taken r p s → Accepted r s p → memStale r p (atTick p.now s) = false → memKind op p = some k →
    (forwards u p = none → farSource u p.path = false → keyAddr u p.p0 p.pd (memAccess k) (memOff p) (memLen k) = some a →
      ∃ t, t = lineArrive (arrivalPort p.path) (a / 64) ⟨k, p.epoch, arrivalComp u p.path, .pkt op p⟩ u ∧
      (op = 0x50 → exec (.memLoad p) s = .next t) ∧ (op = 0x51 → exec (.memStore p) s = .next t) ∧ (op = 0x52 → exec (.memAtomic p) s = .next t)) ∧
    (∀ n q, forwards u p = some n → fwdCheck u n = none → fwdNear u n op p = true → qpOf u (fwdQp u n) = some q →
      ∃ t, t = bump MSA_ISSUED_CNT 1 (forward op (fwdQp u n) p
        (fun tag t => modMsa (fun m => { m with fwd := tabPut m.fwd tag ⟨op, p, fwdQp u n, q.peerDev, none⟩ }) t) .msa u) ∧
      (op = 0x50 → exec (.memLoad p) s = .next t) ∧ (op = 0x51 → exec (.memStore p) s = .next t) ∧ (op = 0x52 → exec (.memAtomic p) s = .next t))) ∧
  (∀ (s : State) (p : Pkt) (r : OpRow) (u : State) (l : List (Bytes × Bytes)), r = ⟨0x53, true, true, true, 20496, false⟩ → u = taken r p s → Accepted r s p →
    gwShare u 0 ≠ 0 ∨ gwShare u 1 ≠ 0 → paramsZero p true false false false = true → p.p0 < 4096 → gwBatch p.payload = some l →
    (∀ n, p.path = .ring n → exec (.memGateway p) s = .next (gwIssue n p u)) ∧
    (∀ qp d port, p.path = .fabric qp d port → exec (.memGateway p) s = .next (gwHome p l qp port u))) ∧
  (∀ (s : State) (r : Rep) (b : Bytes) (f : MsaFwd), alive s = true → r.rcrcOk = true → statusListed r.status = true → staleAnswer s r.opcode r.mid = false → r.final = true →
    tabGet s.msa.fwd r.tag = some f → exec (.msaForwardReply r b) s = .next (respDrop r.tag (passBack f.opcode f.pkt r r.status (respFor s r.tag b)
      (modMsa (fun m => { m with fwd := tabDel m.fwd r.tag }) (atTick r.now s))))) ∧
  (∀ (s : State) (tag now : Nat), alive s = true →
    (∀ f, tabGet s.msa.fwd tag = some f → sentBefore f.sentAt (10 * regField s MSA_TMO 6 0) (max s.tick now) = true →
      replyArrives (atTick now s) tag = false →
      exec (.msaOpTimeout tag now) s = .next (msaDead tag (atTick now s))) ∧
    (∀ g, tabGet s.msa.gwOut tag = some g → sentBefore g.sentAt (msTicks (regField s MSA_GW_TMO 9 0)) (max s.tick now) = true →
      replyArrives (atTick now s) tag = false →
      exec (.msaGwTimeout tag now) s = .next (fail 0x53 g.pkt stTimeout (bump MSA_GW_TMO_CNT 1
        (modMsa (fun m => { m with gwOut := tabDel m.gwOut tag }) (atTick now s))))) ∧
    exec .msaLineMaxRead s = .next (regPut MSA_LINE_MAX 0 (emit (.readData (toLe 4 (regGet s MSA_LINE_MAX)) false) s)))

/-- The one operation that waits for a line of the memory-semantic area is applied. A load is answered with the line's bytes. A store
leaves its data in the line and clears its poison; an atomic on a clean line leaves the new word and is answered with the old one; every
byte of device memory outside the bytes written is as it was, and all of it after a load; core memory is as it was. Rules: R383, R384,
R385, R386, R389. Completes (exec answers next): msaLineApply. -/
def Obligations.LinesAreAppliedInPlace : Prop :=
  ∀ (s : State) (line now : Nat) (o : MsaOp), alive s = true → lineQueue s line = [o] → s.msa.ingress = [] →
    let a := areaDpa (64 * line)
    (o.kind = .load → line ∉ s.msa.poisoned → ∃ t u, exec (.msaLineApply line now) s = .next t ∧ t = msaAnswer o stOk 0 (lineRead s line) u ∧
      (∀ x, cellRead t.mem x = cellRead s.mem x) ∧ t.coreMem = s.coreMem) ∧
    (∀ d, o.kind = .store d → d.length = 64 → ∃ t, exec (.msaLineApply line now) s = .next t ∧ lineRead t line = d ∧ line ∉ t.msa.poisoned ∧
      (∀ x, x < a ∨ a + 64 ≤ x → cellRead t.mem x = cellRead s.mem x) ∧ t.coreMem = s.coreMem) ∧
    (∀ op v w off k, o.kind = .atomic op v w off k → off + 8 ≤ 64 → line ∉ s.msa.poisoned → ∃ t u, exec (.msaLineApply line now) s = .next t ∧
      t = msaAnswer o stOk (leNat (slice (lineRead s line) off 8)) [] u ∧
      memRead t (a + off) 8 = toLe 8 (atomicNew op v w k (leNat (slice (lineRead s line) off 8))) ∧
      (∀ x, x < a + off ∨ a + off + 8 ≤ x → cellRead t.mem x = cellRead s.mem x) ∧ t.coreMem = s.coreMem)

/-- SYS.HELLO is answered with the highest version that both speak; on a queue pair the first choice is the session's, and one that is
negotiated is answered again while the range holds its version. SYS.CAPS is answered with the capabilities record. PD.CREATE, MR.REGISTER
and MR.DEREGISTER create a protection domain, register a region under a new key, and end one. Rules: R327, R328, R329, R365, R367, R324.
Completes (exec answers next): sysHello, sysCaps, pdCreate, regionRegister, regionDeregister. -/
def Obligations.SessionsAndRegions : Prop :=
  (∀ (s : State) (p : Pkt) (v : Nat) (u : State), u = taken rowHello p s → Accepted rowHello s p → paramsZero p true true true false = true → p.p1 < 4096 →
    p.p2 < 2 ^ 24 →
    (helloChoice p.p0 = some v → (∀ qp d port, p.path ≠ .fabric qp d port) → exec (.sysHello p) s = .next (ok 0x01 p (helloResult u v) u)) ∧
    (∀ qp d port q, p.path = .fabric qp d port → qpOf u qp = some q →
      (q.evoest = 0 → helloChoice p.p0 = some v →
        exec (.sysHello p) s = .next (afterHello (ok 0x01 p (helloResult u v) (modQp qp (fun q => { q with evoest := v }) u)))) ∧
      (q.evoest ≠ 0 → helloKeeps p.p0 q.evoest = true → exec (.sysHello p) s = .next (ok 0x01 p (helloResult u q.evoest) u)))) ∧
  (∀ (s : State) (p : Pkt), Accepted rowCaps s p → paramsZero p false false false false = true →
    exec (.sysCaps p) s = .next (respond 0x02 p (capsRecord (taken rowCaps p s)) 0 (taken rowCaps p s))) ∧
  (∀ (s : State) (p : Pkt), Accepted rowPdCreate s p → paramsZero p true false false false = true → p.p0 < 4096 →
    (taken rowPdCreate p s).fab.pds.contains p.p0 = false → exec (.pdCreate p) s =
      .next (ok 0x4B p 0 (modFab (fun f => { f with pds := p.p0 :: f.pds }) (taken rowPdCreate p s)))) ∧
  (∀ (s : State) (p : Pkt) (i : Nat) (u v : State), u = taken rowRegister p s → Accepted rowRegister s p → paramsZero p true false false false = true →
    p.p0 < 4096 → regionOk p.payload = true → u.fab.pds.contains p.p0 = true → tabFree u.fab.regions 262144 = some i →
    v = regionPut i (regionRec p.p0 p.payload) u → exec (.regionRegister p) s = .next (ok 0x4C p (regionKey v i) v)) ∧
  (∀ (s : State) (p : Pkt), Accepted rowDeregister s p → paramsZero p true false false false = true →
    regionOfKey (taken rowDeregister p s) p.p0 ≠ none → exec (.regionDeregister p) s =
      .next (ok 0x4D p 0 (modFab (fun f => { f with regions := tabDel f.regions (p.p0 / 256) }) (taken rowDeregister p s))))

/-- QP.CREATE makes a queue pair in INIT, or in RTS where its record says so; QP.MODIFY and SCH.SHAPER act on a resident context, and wait
for an evicted one to be fetched; QP.DESTROY frees the queue pair. A fetch that ends places the context and runs what waited; one that
fails puts the queue pair in ERROR with cause 5. Rules: R365, R366, R370, R371, R374, R415, R417, R324. Completes (exec answers next):
qpCreate, qpModify, schShaper, qpDestroy, qpcFetchComplete, qpcFetchFail. -/
def Obligations.QueuePairsLiveAndEnd : Prop :=
  (∀ (s : State) (p : Pkt) (u v w : State), u = taken rowCreate p s → Accepted rowCreate s p → createOk p = true → u.fab.pds.contains p.p1 = true →
    qpOf u p.p0 = none → ((p.p2 = 0 ∧ bit (recFlags p.payload) 1 = false) ∨ diePinned u (p.p0 % 2) < 2048) →
    v = needSlot p.p0 (modFab (fun f => { f with qps := tabPut f.qps p.p0 (recPeer p.payload (recFields p.payload
      { state := 1, type := p.p2, pd := p.p1, loc := 1, lastUse := u.tick })) }) u) →
    w = (if bit (recFlags p.payload) 0 then setShaped p.p0 true v else v) →
    exec (.qpCreate p) s = .next (ok 0x48 p 0 (if recTarget p.payload = 2 then enterRts p.p0 w else w))) ∧
  (∀ (s : State) (p : Pkt) (q : Qp) (u : State), u = wakeQp p.p0 (taken rowModify p s) → Accepted rowModify s p → paramsZero p true false false false = true →
    p.p0 < 2 ^ 20 → recOk p.payload = true → qpOf u p.p0 = some q →
    (q.loc ≠ 0 → exec (.qpModify p) s = .next (modQp p.p0 (fun q => { q with waitCmds := q.waitCmds ++ [(0x49, p)] }) u)) ∧
    (∀ v, q.loc = 0 → qpPinned q = true ∨ bit (recFlags p.payload) 1 = false → qpMove p.p0 (recTarget p.payload) p.payload q (modifyFields p.p0 p.payload q u) = some v →
      exec (.qpModify p) s = .next (ok 0x49 p 0 v))) ∧
  (∀ (s : State) (p : Pkt) (q : Qp) (u : State), u = wakeQp p.p0 (taken rowShaper p s) → Accepted rowShaper s p → paramsZero p true false false false = true →
    p.p0 < 2 ^ 20 → shaperOk p.payload = true → qpOf u p.p0 = some q →
    (q.loc ≠ 0 → exec (.schShaper p) s = .next (modQp p.p0 (fun q => { q with waitCmds := q.waitCmds ++ [(0x59, p)] }) u)) ∧
    (q.loc = 0 → exec (.schShaper p) s = .next (ok 0x59 p 0 (shaperReset p.p0 (fun h =>
      if leAt p.payload 8 1 = 1 then { h with enabled := true, rate := leAt p.payload 0 4, burst := leAt p.payload 4 4 } else { h with enabled := false })
      (modQp p.p0 (fun q => { q with shaped := leAt p.payload 8 1 = 1 }) u))))) ∧
  (∀ (s : State) (p : Pkt) (q : Qp), Accepted rowDestroy s p → paramsZero p true false false false = true → p.p0 < 2 ^ 20 →
    qpOf (taken rowDestroy p s) p.p0 = some q → exec (.qpDestroy p) s = .next (ok 0x4A p 0 (qpGone p.p0 q (taken rowDestroy p s)))) ∧
  (∀ (s : State) (n now : Nat) (q : Qp), alive s = true → qpOf s n = some q → q.loc = 2 →
    exec (.qpcFetchComplete n now) s = .next (q.parked.foldl (parkedRun n) (waitedRun n q (modQp n (fun q => { q with loc := 0, parked := [] })
      (keepMax QPC_FETCH_MAX (max s.tick now - q.fetchAt) (bump QPC_FETCH_CNT 1 (winFree (.qpContext n) (atTick now s))))))) ∧
    exec (.qpcFetchFail n now) s = .next (waitedRun n q (qpError n 5 (modQp n (fun q => { q with loc := 0, parked := [] })
      (bump QPC_FETCH_FAIL_CNT 1 (winFree (.qpContext n) (hostPoison (.qpContext n) (atTick now s))))))))

/-- RECV.POST appends its buffers, each within a region of the queue pair's domain. A SEND message whose first packet bound a buffer that
holds it is placed there, answered ST_OK, and completed at the receiver. Rules: R367, R368, R369, R324. Completes (exec answers next):
recvPost, sendMsg. -/
def Obligations.MessagesReachBuffers : Prop :=
  (∀ (s : State) (p : Pkt) (q : Qp) (u : State) (l : List Posted), u = taken rowRecv p s → Accepted rowRecv s p → paramsZero p true false false false = true →
    p.p0 < 2 ^ 20 → p.payload.length % 16 = 0 → l = (records 16 p.payload).map bufferRec → l.all bufferOk = true → qpOf u p.p0 = some q →
    q.state = 1 ∨ q.state = 2 → q.posted.length + l.length ≤ 256 → (l.all fun x => (bufferKey u q.pd x x.len).isSome) = true →
    exec (.recvPost p) s = .next (ok 0x4E p 0 (modQp p.p0 (fun q => { q with posted := q.posted ++ l }) (wakeQp p.p0 u)))) ∧
  (∀ (s : State) (p : Pkt) (n d port : Nat) (q : Qp) (x : Posted) (g : Region) (u : State), u = taken rowSend p s → Accepted rowSend s p →
    p.path = .fabric n d port → paramsZero p true false false false = true → qpOf u n = some q → boundOf q p.tag = some x → p.payload.length ≤ x.len →
    bufferKey u q.pd x p.payload.length = some g → firstFail (atTick p.now s) rowSend p = none →
    exec (.sendMsg p) s = .next (boundDone n p p.payload.length stOk (ok 0x4F p 0 (bufferPlace x g p.payload u))))

/-- An uncorrected error of an I/O die, a lost root lock and a lost reference stop the device. A sensor at the trip point asserts
THERMTRIP_N and latches it. Samples and estimates are put in their registers, and a sample sets the issue level. AVS moves a stack's
target by 5 mV. Rules: R137, R421, R422, R457, R512, R516, R517, R518, R519. Completes (exec answers next): ioDieFatalError, rootLockLoss,
ref100Loss, thermtrip, thermalSample, powerEstimate, avsAdjust. -/
def Obligations.ClocksPowerAndTemperatures : Prop :=
  ∀ (s : State) (now : Nat), alive s = true →
    (∀ die, die < 2 → exec (.ioDieFatalError now die) s = .next (fatalShutdown { cause := 0x48, cls := 2, kind := 10, unit := die, c0 := 1 } (atTick now s))) ∧
    exec (.rootLockLoss now) s = .next (fatalShutdown { cause := 0x48, cls := 2, kind := 10, unit := 0, c0 := 2 }
      (modDev (fun d => { d with lock := setBits d.lock 0 0 0 }) (atTick now s))) ∧
    exec (.ref100Loss now) s = .next (fatalShutdown { cause := 0x48, cls := 2, kind := 10, unit := 0, c0 := 2 }
      (modDev (fun d => { d with lock := setBits d.lock 0 0 0 }) (atTick now s))) ∧
    (∀ n, n < 10 → s.dev.thermtrip = false → exec (.thermtrip now n) s = .next (fatalShutdown { cause := 0x49, cls := 2 }
      (emit (.pin .thermtripN false) (modDev (fun d => { d with thermtrip := true }) (atTick now s))))) ∧
    (∀ celsius asked, ∃ t u, exec (.thermalSample now celsius asked) s = .next t ∧ t.pwr.level = levelAfter (atTick now s) celsius (asked && (ownedPin s 2).isSome) ∧ OnlyParts [.tick, .regs, .pwr, .pcie, .out] s t ∧
      u = tempsPut celsius (atTick now s) ∧ regGet t PWR_THROTTLE_CYCLES = min (regGet u PWR_THROTTLE_CYCLES + 16875 * (16 - s.pwr.level)) cntMax) ∧
    (∀ watts rails, exec (.powerEstimate now watts rails) s = .next ((List.range 13).foldl (fun t r => regPut (PWR_RAIL_MV r) (rails.getD r 0 % 2 ^ 12) t)
      (regPut PWR_EST_W (min watts (2 ^ 13 - 1)) (atTick now s)))) ∧
    (∀ k up acked mv, k < 4 → s.core.stacksGone.contains k = false → (∀ t, tabGet s.pwr.avsAt k = some t → t + msTicks 10 ≤ max s.tick now) →
      mv = (if up then regField s (PWR_CMP_MV k) 9 0 + 5 else regField s (PWR_CMP_MV k) 9 0 - 5) → 620 ≤ mv → mv ≤ 800 →
      let u := emit (.avs k mv) (modPwr (fun p => { p with avsAt := tabPut p.avsAt k (max s.tick now) }) (atTick now s))
      exec (.avsAdjust now k up acked) s = .next (if acked then regPut (PWR_CMP_MV k) mv u else modPwr (fun p => { p with avsErr := true }) u))

/-- SCH.SHARES stores a class record; COMP.CREATE stores a composition's record where the reservations' sums fit; COMP.METER answers the
meter record, and with CLEAR starts it again; each millisecond adds the page frames charged. Rules: R399, R400, R406, R414, R324.
Completes (exec answers next): schShares, compCreate, compMeter, meterPageMsTick. -/
def Obligations.ClassesAndCompositions : Prop :=
  (∀ (s : State) (p : Pkt) (u : State), u = taken rowShares p s → Accepted rowShares s p → paramsZero p true false false false = true → p.p0 < 256 →
    classOk p.payload = true → classHeld u p.p0 = 0 ∨ ((classOf p.payload).window = (classRec u p.p0).window ∧
      (classOf p.payload).attWindow = (classRec u p.p0).attWindow ∧ (classOf p.payload).attGlobal = (classRec u p.p0).attGlobal) →
    exec (.schShares p) s = .next (ok 0x58 p 0 (modSched (fun d => { d with classes := tabSet d.classes p.p0 (classOf p.payload) {} }) u))) ∧
  (∀ (s : State) (p : Pkt) (u : State) (r : CompRec), u = taken rowCompCreate p s → Accepted rowCompCreate s p → paramsZero p true false false false = true →
    p.p0 < 4096 → compOk p.payload = true → r = compOfBytes p.payload → rsvSum u p.p0 r CompRec.berthRsv ≤ 16384 →
    rsvSum u p.p0 r CompRec.frameRsv ≤ framesInService u → rsvSum u p.p0 r CompRec.withyRsv ≤ 1024 →
    exec (.compCreate p) s = .next (ok 0x5A p 0 (modSched (fun d => { d with comps := tabSet d.comps p.p0 r {} }) u))) ∧
  (∀ (s : State) (p : Pkt) (u : State), u = meterNow p.p0 (taken rowMeter p s) → Accepted rowMeter s p → paramsZero p true true false false = true →
    p.p0 < 4096 → p.p1 < 2 → exec (.compMeter p) s = .next (respond 0x5B p (meterBytes p.p0 (meterOf u p.p0) u.tick) 0
      (if p.p1 = 1 then modSched (fun d => { d with meters := tabDel d.meters p.p0 }) u else u))) ∧
  (∀ (s : State) (now : Nat), alive s = true → s.sched.pageMsAt / msTicks 1 < max s.tick now / msTicks 1 →
    exec (.meterPageMsTick now) s = .next (modSched (fun d => { d with
      pageMsAt := max s.tick now
      meters := s.man.frames.foldl (fun t e => tabSet t e.2.comp { tabGetD t e.2.comp {} with
        pageMs := min ((tabGetD t e.2.comp {}).pageMs + 1) cntMax } {}) d.meters }) (atTick now s)))

/-- SYS.FENCE fences its composition and is counted; SYS.EPOCH with a greater epoch number and a map that keeps its layout takes effect;
the drain window's end ends what the new map does not hold. Rules: R402, R403, R404, R405, R324. Completes (exec answers next): sysFence,
sysEpoch, drainWindowEnd. -/
def Obligations.EpochsAndFences : Prop :=
  (∀ (s : State) (p : Pkt), Accepted rowFence s p → paramsZero p true false false false = true → p.p0 < 4096 →
    exec (.sysFence p) s = .next (ok 3 p 0 (bump SCH_FENCE_CNT 1 (fenceComp p.p0 (taken rowFence p s))))) ∧
  (∀ (s : State) (p : Pkt) (u : State), u = taken rowEpoch p s → Accepted rowEpoch s p → paramsZero p true true false false = true →
    u.sched.epoch < p.p0 → mapOk p.payload = true → p.p1 ≤ 1000 →
    exec (.sysEpoch p) s = .next (ok 4 p 0 (bump SCH_EPOCH_CNT 1 (epochNext p.p0 p.p1 (mapOf p.payload) u)))) ∧
  (∀ (e ms : Nat) (map : Tab Nat) (u : State), u.sched.drainEnd = none →
    (epochNext e ms map u).sched.epoch = e ∧ (epochNext e ms map u).sched.map = map ∧ (epochNext e ms map u).sched.prev = u.sched.epoch ∧
    (epochNext e ms map u).sched.prevMap = u.sched.map) ∧
  (∀ (s : State) (now t : Nat), alive s = true → s.sched.drainEnd = some t → t ≤ max s.tick now →
    exec (.drainWindowEnd now) s = .next (drainEnds (atTick now s)))

/-- Each tick of 1 us adds a sample of the 17 queues to the histograms; a write of SCH_HIST_CTRL clears every bin; a write of
SCH_SHAPE_SEL copies the selected queue pair's shaper into its two registers. Rules: R418, R419. Completes (exec answers next):
queueSampleTick, schHistClear, schShapeSelWrite. -/
def Obligations.HistogramsAndShaperWindow : Prop :=
  (∀ (s : State) (now : Nat), alive s = true → s.sched.sampleAt / 100 < max s.tick now / 100 →
    let u := markReady (atTick now s)
    exec (.queueSampleTick now) s = .next ((List.range 17).foldl (fun t q => binUp (SCH_HIST_SOJ q (histBin (queueSample u q).2))
      (binUp (SCH_HIST_DEPTH q (histBin (queueSample u q).1)) t)) (modSched (fun d => { d with sampleAt := max s.tick now }) u))) ∧
  (∀ s : State, hostHeard s = true → exec .schHistClear s = .next ((List.range 272).foldl (fun t i =>
    regPut (SCH_HIST_SOJ (i / 16) (i % 16)) 0 (regPut (SCH_HIST_DEPTH (i / 16) (i % 16)) 0 t))
    (modSched (fun d => { d with sampleAt := max d.sampleAt s.tick }) s))) ∧
  (∀ (s : State) (v : Nat) (u : State) (h : Shaper), hostHeard s = true → u = regSet SCH_SHAPE_SEL v s →
    h = shaperAt u.tick (shaperOf u (regField u SCH_SHAPE_SEL 19 0)) → exec (.schShapeSelWrite v) s =
      .next (regPut SCH_SHAPE_TOKENS ((h.count100 / 100) % (2 ^ 25 : Int)).toNat
        (regPut SCH_SHAPE_INFO (h.rate * 2 ^ 32 + b2n h.enabled * 2 ^ 31 + b2n h.slot.isSome * 2 ^ 30 + h.burst) u)))

/-- A step starts with the replay or the re-run that goes ahead, else with the composition already chosen; at the boundary, every cluster
having finished, its effects follow, or wait for the end of a control-plane restart. A step that overruns is counted; one that passes the
watchdog's cycle (and neither ends nor is aborted on that cycle) is aborted, recorded, and its clusters are reset until they are back.
Rules: R137, R143, R144, R145, R407, R408. Completes (exec answers next): stepStart, stepBoundary, stepOverrun, stepWatchdog,
clusterResetComplete. -/
def Obligations.EngineSteps : Prop :=
  (∀ (s : State) (now : Nat), mayStart s = true →
    (∀ w, aheadOf (atTick now s) = .replay w → exec (.stepStart now) s = .next (startReplay w (atTick now s))) ∧
    (∀ w r, aheadOf (atTick now s) = .ahead w r → exec (.stepStart now) s =
      .next (inputFlags r (startStep w r false (modEng (fun e => { e with aux := some r }) (atTick now s))))) ∧
    (∀ c, aheadOf (atTick now s) = .none → s.eng.next = some c → stepReady s c = true →
      exec (.stepStart now) s = .next (startChosen c (atTick now s)))) ∧
  (∀ (s : State) (now cyc : Nat) (st : StepRun), alive s = true → s.eng.step = some st → st.held = none → allFinished s = true →
    exec (.stepBoundary now cyc) s = .next (if s.err.restarting then modEng (fun e => { e with step := some { st with held := some cyc } }) (atTick now s)
      else boundaryFx cyc (atTick now s))) ∧
  (∀ (s : State) (st : StepRun), alive s = true → s.eng.step = some st → st.held = none → st.overrun = false →
    exec .stepOverrun s = .next (bump SEQ_OVERRUN_CNT 1 (modEng (fun e => { e with step := some { st with overrun := true } }) s))) ∧
  (∀ (s : State) (now : Nat) (st : StepRun), alive s = true → s.eng.step = some st → st.held = none →
    endsAtWatchdog (atTick now s) = false → fenceAtWatchdog (atTick now s) = false →
    let l := (clustersIn s).filter fun m => !(cluster s m).finished
    let u := watchdogEnds st.what (record { cause := 9, cls := 1, c0 := bitmap 64 fun i => l.contains i, c1 := bitmap 64 fun i => l.contains (64 + i) }
      (bump SEQ_WDOG_CNT 1 (l.foldl clusterReset (stepAbort watchdogCycle (atTick now s)))))
    exec (.stepWatchdog now) s = .next (if s.err.restarting then u else weaveNext (boundaryTail u))) ∧
  (∀ (s : State) (m : Nat), alive s = true → exec (.clusterResetComplete m) s = .next (modCluster m (fun c => { c with resetting := false }) s))

/-- STK.LOAD and TBL.LOAD place the bytes of each packet, and are answered ST_OK, until the image is whole, which completes the load.
STK.RETIRE and TBL.RETIRE take away an image that is not in use (a stake image's space is freed with its last reference); TBL.ACTIVATE of
a loaded set is answered ST_PENDING and takes effect at the next boundary. Rules: R130, R151, R152, R163, R164, R165, R324. Completes
(exec answers next): stkLoad, stkRetire, tblLoad, tblActivate, tblRetire. -/
def Obligations.StakesAndTables : Prop :=
  (∀ (s : State) (p : Pkt) (u : State) (l : ImgLoad), u = taken rowStkLoad p s → Accepted rowStkLoad s p → firstFail (atTick p.now s) rowStkLoad p = none →
    paramsZero p true false false true = true → p.p1 < 2 → 0 < p.p0 → p.p0 < 2 ^ 32 → tabGet u.tier.stakes p.p0 = none →
    l = (loadOf u (.stake p.p0)).getD ⟨.stake p.p0, p.p1, [], false, [], arrivalComp u p.path⟩ → l.arg = p.p1 → segAt p + p.payload.length ≤ stkMax + 65536 →
    (l.header = false → covers (loadPieces (loadPlace 0x14 p l)) 128 = false →
      exec (.stkLoad p) s = .next (ok 0x14 p 0 (loadPut (loadPlace 0x14 p l) u))) ∧
    (l.header = true → loadWhole (loadPlace 0x14 p l) (stkLen (assemble (loadPieces (loadPlace 0x14 p l)))) = true →
      exec (.stkLoad p) s = .next (stkComplete p p.p0 (loadPlace 0x14 p l) (loadPut (loadPlace 0x14 p l) u)))) ∧
  (∀ (s : State) (p : Pkt) (u : State) (k : Stake), u = taken rowStkRetire p s → Accepted rowStkRetire s p → paramsZero p true false false false = true →
    loadOf u (.stake p.p0) = none → tabGet u.tier.stakes p.p0 = some k → setNames u p.p0 = false → exec (.stkRetire p) s =
      .next (ok 0x15 p 0 (refsNow (modTier (fun t => { t with stakes := tabDel t.stakes p.p0, dying := t.dying ++ [(p.p0, k)] }) u)))) ∧
  (∀ (s : State) (p : Pkt) (u : State) (n : Nat) (l : ImgLoad), u = taken rowTblLoad p s → Accepted rowTblLoad s p → firstFail (atTick p.now s) rowTblLoad p = none →
    paramsZero p true false false true = true → 0 < p.p0 → p.p0 < 2 ^ 32 → segAt p + p.payload.length ≤ 2 ^ 30 + 65536 →
    l = loadPlace 0x10 p ((loadOf u (.table p.p0)).getD ⟨.table p.p0, 0, [], false, [], arrivalComp u p.path⟩) →
    (slotOfSet u p.p0 = none → slotEmpty u = some n → l.header = false → covers (loadPieces l) 32 = false → exec (.tblLoad p) s =
      .next (ok 0x10 p 0 (modTbl n (fun t => { t with state := 1, setId := p.p0, bytes := t.bytes + p.payload.length })
        (loadPut l (modTbl n (fun t => { lastErr := t.lastErr }) u))))) ∧
    (slotOfSet u p.p0 = some n → (tblSlot u n).state = 1 → l.header = true → loadWhole l (tblLen (assemble (loadPieces l))) = true → exec (.tblLoad p) s =
      .next (tblComplete p n l (modTbl n (fun t => { t with state := 1, setId := p.p0, bytes := t.bytes + p.payload.length }) (loadPut l u))))) ∧
  (∀ (s : State) (p : Pkt) (u : State) (n : Nat) (k : Stake), u = taken rowActivate p s → Accepted rowActivate s p → paramsZero p true false false false = true →
    p.p0 ≠ 0 → slotOfSet u p.p0 = some n → u.tier.pendAct = none →
    tabGet u.tier.stakes (tblSlot u n).stakeId = some k → tensorsOk (tblSlot u n).image k = true →
    ((tblSlot u n).state = 3 → exec (.tblActivate p) s = .next (ok 0x11 p 0 (shapeCheck (tableLoaded u)))) ∧
    ((tblSlot u n).state = 2 → exec (.tblActivate p) s = .next (activateSoon (pend 0x11 p (modTier (fun x => { x with pendAct := some (n, [p]) }) u))))) ∧
  (∀ (s : State) (p : Pkt) (u : State) (n : Nat), u = taken rowTblRetire p s → Accepted rowTblRetire s p → paramsZero p true false false false = true →
    slotOfSet u p.p0 = some n → (tblSlot u n).state ≠ 3 → (∀ l, u.tier.pendAct ≠ some (n, l)) →
    exec (.tblRetire p) s = .next (ok 0x12 p 0 (slotClear n stOk u)))

/-- A corrected HBM3E error is counted, recorded and kept in its row's history, and at the threshold its row is retired into a remap row,
or withdrawn where none is left. A row's copy ends; a moved object is switched once verified. Corrected errors of LPDDR5X and of SRAM are
counted and recorded. Rules: R158, R168, R176, R177, R178, R422, R424. Completes (exec answers next): hbmCorrectedError, hbmRowCopyDone,
objectMoveComplete, lpxCorrectedError, sramCorrectedError. -/
def Obligations.CorrectedMemoryErrors : Prop :=
  ∀ (s : State) (now : Nat), readable s = true →
    (∀ a u, hbmServes s (stackOf a) = true → u = modErr (fun e => { e with rowHist := histAdd e.rowHist (rowBase a) (msNow (atTick now s)) })
        (record { cause := 0x12, cls := 0, kind := 5, unit := stackOf a, addr := a } (bump (MEM_HBM_CE_CNT (stackOf a)) 1 (atTick now s))) →
      let hit := histReached (tabGetD u.err.rowHist (rowBase a) []) (regField s ERR_TH_HBM_ROW 7 0) (3600000 * regField s ERR_TH_HBM_ROW 23 16)
      (hit = false → exec (.hbmCorrectedError (stackOf a) a now) s = .next u) ∧
      (hit = true → remapsLeft u a = 0 → exec (.hbmCorrectedError (stackOf a) a now) s = .next (rowWithdraw a u)) ∧
      (hit = true → remapsLeft u a ≠ 0 → exec (.hbmCorrectedError (stackOf a) a now) s =
        .next (rowRemap a (modErr (fun e => { e with rowHist := tabDel e.rowHist (rowBase a) }) u)))) ∧
    (∀ a, exec (.hbmRowCopyDone a now) s = .next (modTier (fun t =>
      { t with remaps := t.remaps.map fun r => if r.row = rowBase a then { r with copying := false } else r }) (atTick now s))) ∧
    (∀ o v good, alive s = true → s.tier.objMoves.find? (fun v => v.obj = o) = some v →
      exec (.objectMoveComplete o now good) s =
        .next (moveEnds v good (modTier (fun t => { t with objMoves := t.objMoves.filter fun v => v.obj ≠ o }) (atTick now s)))) ∧
    (∀ d a, lpxDeviceServes s d = true → lpxBase (d / 8) ≤ a → a < lpxBase (d / 8 + 1) → lpxDeviceOf a = d → exec (.lpxCorrectedError d a now) s =
      .next (record { cause := 0x15, cls := 0, kind := 6, unit := d, addr := a } (bump (MEM_LPX_CE_CNT d) 1 (atTick now s)))) ∧
    (∀ n a, ((cluster s n).present = true → exec (.sramCorrectedError true n a now) s =
        .next (record { cause := 0x10, cls := 0, kind := 2, unit := n } (bump MEM_SLICE_CE_CNT 1 (atTick now s)))) ∧
      (n < 2 → inContext n a = true → exec (.sramCorrectedError false n a now) s = .next (record { cause := 0x10, cls := 0, kind := 10, unit := n, addr := a } (atTick now s))))

/-- An uncorrected error of HBM3E or LPDDR5X poisons its word, is counted and recorded, and its object is handled by its kind; one of a
context SRAM fails the berth, puts the queue pair in ERROR, or poisons the line. A host window's ENABLE rises over an aligned window, and
its base and length are written while it is disabled. Rules: R170, R171, R176, R374, R389, R422. Completes (exec answers next): memoryUe,
sramUe, hostwinEnableWrite, hostwinFieldWrite. -/
def Obligations.UncorrectedMemoryErrors : Prop :=
  (∀ (s : State) (now a : Nat) (o : DamagedObject), alive s = true → objectHolds s a o = true →
    let u := { atTick now s with memPoison := tabPut s.memPoison (a / 8) 2 }
    (hbmServes s (stackOf a) = true → exec (.memoryUe now a false o) s = .next (repairNow (objectDamage a o
      (record { cause := 0x14, cls := 1, kind := 5, unit := stackOf a, addr := a, c0 := objectCode o } (bump (MEM_HBM_UE_CNT (stackOf a)) 1 u))))) ∧
    (lpxBase 0 ≤ a → a < lpxBase 2 → lpxServes s (if a < lpxBase 1 then 0 else 1) = true → exec (.memoryUe now a true o) s = .next (repairNow (objectDamage a o
      (record { cause := 0x16, cls := 1, kind := 6, unit := lpxDeviceOf a, addr := a, c0 := objectCode o } (bump (MEM_LPX_UE_CNT (lpxDeviceOf a)) 1 u)))))) ∧
  (∀ (s : State) (now a : Nat), alive s = true →
    (∀ b, sramHolds s a (.berth b) = true → exec (.sramUe now a (.berth b)) s =
      .next (settle (failSoon b stStateLost (record { cause := 0x11, cls := 1, kind := 12, unit := b, addr := a } (atTick now s))))) ∧
    (∀ n, sramHolds s a (.qp n) = true → exec (.sramUe now a (.qp n)) s =
      .next (qpError n 5 (record { cause := 0x11, cls := 1, kind := 13, unit := n, addr := a } (atTick now s)))) ∧
    (∀ l, sramHolds s a (.msaLine l) = true → exec (.sramUe now a (.msaLine l)) s =
      .next (linePoison l (record { cause := 0x11, cls := 1, kind := 10, unit := lineDie l, addr := 64 * l } (atTick now s))))) ∧
  (∀ (s : State) (n v : Nat), hostHeard s = true → n < 16 → winEnabled s n = false → bit v 0 = true →
    winAligned (regSet (MEM_HOSTWIN_CTRL n) (setBits v 0 0 0) s) n = true →
    let u := regSet (MEM_HOSTWIN_CTRL n) (setBits v 0 0 0) s
    exec (.hostwinEnableWrite n v) s = .next (regPut (MEM_HOSTWIN_CTRL n) (setBits (regGet u (MEM_HOSTWIN_CTRL n)) 0 0 1) u)) ∧
  (∀ (s : State) (off v n : Nat), hostHeard s = true → winOf off = some n → 8 ≤ off % 0x20 → off % 0x20 < 0x18 → winEnabled s n = false →
    exec (.hostwinFieldWrite off v) s = .next (wordWrite off v s))

/-- CFG.READ answers with the copy it names. While no write holds the flash, CFG.WRITE takes it and erases the copy that would not be
picked, LIC.INSTALL of a record that has a slot takes it where the record is valid, FW.COMMIT takes it where its images are signed, and
the first packet of FW.STAGE takes it and takes the component's staged mark away; a write that ends, verified or not, has its holder's
outcome. Telemetry and scrubbing run at their intervals. Rules: R464, R465, R466, R468, R469, R473, R480, R324. Completes (exec answers
next): cfgRead, cfgWrite, licInstall, fwStage, fwCommit, flashWriteComplete, telemetryTick, flashScrubTick. -/
def Obligations.FlashIsWritten : Prop :=
  (∀ (s : State) (p : Pkt), Accepted rowCfgRead s p → paramsZero p true false false false = true → p.p0 < 3 → exec (.cfgRead p) s =
    .next (respond 0x08 p (cfgCopy (taken rowCfgRead p s) p.p0) (b2n (cfgCheck (cfgCopy (taken rowCfgRead p s) p.p0))) (taken rowCfgRead p s))) ∧
  (∀ (s : State) (p : Pkt) (u : State), u = taken rowCfgWrite p s → Accepted rowCfgWrite s p → paramsZero p false false false false = true → cfgWriteOk p.payload = true →
    u.flash.holder = none → cfgTop u.flash + 1 ≠ 2 ^ 64 - 1 → exec (.cfgWrite p) s =
    .next (modFlash (fun f => if cfgPick u.flash = 1 then { f with cfgB := [] } else { f with cfgA := [] })
      (flashTake (.cfg (cfgPick u.flash = 1) (cfgFinal u.flash p.payload) false) p u))) ∧
  (∀ (s : State) (p : Pkt) (u : State) (n : Nat), u = taken rowLic p s → Accepted rowLic s p → paramsZero p false false false false = true → licLayout p.payload = true →
    u.flash.holder = none → licSlot u.flash (licId p.payload) = some n →
    exec (.licInstall p) s = .next (if licValid u p.payload then flashTake (.lic n p.payload) p u else fail 0x0A p stKey u)) ∧
  (∀ (s : State) (p : Pkt) (u : State), u = taken rowStage p s → Accepted rowStage s p → recoveryTakes s p = false → paramsZero p true false false false = true → p.p0 < 3 →
    s.flash.holder = none → u.flash.holder = none → exec (.fwStage p) s =
    .next (stagePlace p.p0 [] none p p (modFlash (fun f => { fwPut (otherSlot f p.p0) p.p0 [] f with
      staged := setBits f.staged p.p0 p.p0 0, pending := setBits f.pending p.p0 p.p0 0 }) u))) ∧
  (∀ (s : State) (p : Pkt) (u : State), u = taken rowCommit p s → Accepted rowCommit s p → recoveryTakes s p = false → commitOk p = true → u.flash.holder = none →
    commitComps u p.p0 ≠ [] → exec (.fwCommit p) s =
    .next (if (commitComps u p.p0).all (fun c => fwSigned (fwImage u.flash (otherSlot u.flash c) c)) then flashTake (.commit (commitComps u p.p0)) p u
           else fail 0x0C p stKey u)) ∧
  (∀ (s : State) (now : Nat) (good : Bool) (p : Pkt), alive s = true → s.flash.holderPkt = some p →
    (∀ toB b again, s.flash.holder = some (.cfg toB b again) → exec (.flashWriteComplete now good) s = .next (cfgDone toB b again good p (atTick now s))) ∧
    (∀ n b, s.flash.holder = some (.lic n b) → exec (.flashWriteComplete now good) s = .next (licDone n b good p (atTick now s))) ∧
    (∀ c l n, s.flash.holder = some (.stage c l n true) → exec (.flashWriteComplete now good) s = .next (stageDone c (assemble l) good p (atTick now s))) ∧
    (∀ l, s.flash.holder = some (.commit l) → exec (.flashWriteComplete now good) s = .next (commitDone l good p (atTick now s)))) ∧
  (∀ (s : State) (now : Nat), alive s = true →
    (featureOn s 5 = true → s.dev.telemetryDue ≤ max s.tick now → exec (.telemetryTick now) s =
      .next ((collectors s).foldl (fun t n => emit (.telemetry n) t)
        (modDev (fun d => { d with telemetryDue := d.telemetryDue + 100000000 * leAt d.cfg 76 2 }) (atTick now s)))) ∧
    (featureOn s 6 = true → s.dev.scrubDue ≤ max s.tick now → exec (.flashScrubTick now) s =
      .next (modDev (fun d => { d with scrubDue := d.scrubDue + 360000000000 * leAt d.cfg 78 2 }) (atTick now s))))

/-- SEC.ATTEST with a valid identity, signatures left, no generation running and the rate limit kept is signed with the next index, whose
counter moves on first, or starts the generation of the next bottom tree; the tree that stands lets the signature that waited for it
follow. Rules: R463, R474, R476, R477, R478. Completes (exec answers next): secAttest, bottomTreeGenerated. -/
def Obligations.AttestationSigns : Prop :=
  (∀ (s : State) (p : Pkt) (u : State) (q : Nat), u = taken rowAttest p s → Accepted rowAttest s p → paramsZero p false false false false = true → p.payload.length = 32 →
    q = u.flash.counters.getD 0 0 → u.dev.idValid = true → q < 2 ^ 30 → u.dev.keygen = false → (sigRecent u.dev u.tick).length < 100 →
    (u.flash.idTree = some (q / 2 ^ 15) → ∃ v, exec (.secAttest p) s = .next (respond 0x0D p (attestReport v q (p.payload.take 32)) 0 v) ∧
      v = bump SEC_SIG_CNT 1 (modDev (fun d => { d with sigTicks := u.tick :: sigRecent d u.tick })
        (modFlash (fun f => { f with counters := listSet f.counters 0 (q + 1) }) u))) ∧
    (u.flash.idTree ≠ some (q / 2 ^ 15) → exec (.secAttest p) s = .next (attestTree p (q / 2 ^ 15) u))) ∧
  (∀ (s : State) (now : Nat), alive s = true → s.dev.keygen = true →
    let u := modDev (fun d => { d with keygen := false, attest := none }) (modFlash (fun f => { f with idTree := some (s.flash.counters.getD 0 0 / 2 ^ 15) }) (atTick now s))
    exec (.bottomTreeGenerated now) s = .next (match s.dev.attest with | some p => attestSign p u | none => u))

/-- VERIFY.RESULT is answered ST_OK: a final result of the open round gives its digest, or fails the round, and one that comes late is
counted; a verdict of loss is noted. VERIFY.REPLAY that passes its checks joins its replay: the part that completes it is answered
ST_PENDING and puts it in service, and an incomplete one is discarded at its time. A round unanswered in time fails. Rules: R435, R436,
R437, R439, R440, R442, R324. Completes (exec answers next): verifyResult, verifyReplay, replayRoundTimeout, replayPartsTimeout. -/
def Obligations.VerdictsAndReplays : Prop :=
  (∀ (s : State) (p : Pkt) (u : State) (x : Suspect) (n since : Nat) (tg : List Nat), u = ok 0x6A p 0 (taken rowVerifyResult p s) → Accepted rowVerifyResult s p →
    resultLayout p = true →
    (leAt p.payload 4 1 = 0 → suspectOf u (leAt p.payload 0 4) = some x → x.peer = some (n, tg, since) → x.round = leAt p.payload 5 1 →
      arrivalQp p = some (peerQpn u n) →
      (leAt p.payload 6 2 = stOk → exec (.verifyResult p) s = .next (digestIn (leAt p.payload 0 4) (slice p.payload 32 32) u)) ∧
      (leAt p.payload 6 2 ≠ stOk → exec (.verifyResult p) s = .next (roundFailed (leAt p.payload 0 4) u))) ∧
    (leAt p.payload 4 1 = 0 → suspectOf u (leAt p.payload 0 4) = none → exec (.verifyResult p) s = .next (bump PERF_REPLAY_LATE_CNT 1 u)) ∧
    (leAt p.payload 4 1 = 1 → exec (.verifyResult p) s = .next u) ∧
    (leAt p.payload 4 1 = 2 → exec (.verifyResult p) s = .next (lossNoted 0 (srcOf p) (leAt p.payload 5 1) u))) ∧
  (∀ (s : State) (p : Pkt) (u : State), u = taken rowVerifyReplay p s → Accepted rowVerifyReplay s p → replayLayout u p = true →
    leAt p.payload 28 4 = u.dev.fwGen → replayHolds u p.payload = true → servicesBusy u < 4 →
    (replayFind u p = none → leAt p.payload 19 1 = 1 → exec (.verifyReplay p) s = .next (pend 0x69 p (modEng (fun g => { g with
      services := tabPut g.services (tabGap u.eng.services 0) {
        path := p.path, stepSeq := p.p0, round := leAt p.payload 7 1, programId := leAt p.payload 4 2,
        step := leAt p.payload 6 1, setId := leAt p.payload 8 4, rows := leAt p.payload 16 2, parts := tabPut [] (leAt p.payload 18 1) p.payload, count := 1,
        comp := arrivalComp u p.path, since := u.tick, last := some p } }) u))) ∧
    (∀ id v, replayFind u p = some (id, v) → (tabPut v.parts (leAt p.payload 18 1) p.payload).length < v.count → exec (.verifyReplay p) s =
      .next (ok 0x69 p 0 (modEng (fun g => { g with services := tabPut g.services id { v with parts := tabPut v.parts (leAt p.payload 18 1) p.payload } }) u)))) ∧
  (∀ (s : State) (seq now : Nat) (x : Suspect) (n at' : Nat) (tag : List Nat), alive s = true → suspectOf s seq = some x → x.peer = some (n, tag, at') →
    at' + msTicks (regField s ERR_REPLAY_TMO 9 0) ≤ max s.tick now →
    roundArrives (atTick now s) seq n x.round = false → exec (.replayRoundTimeout seq now) s = .next (roundFailed seq (atTick now s))) ∧
  (∀ (s : State) (qp seq now : Nat), alive s = true → exec (.replayPartsTimeout qp seq now) s = .next (modEng (fun g =>
    { g with services := tabKeep g.services fun _ v => !(v.last.isNone && decide (pathOf v.path = (0, qp)) && v.stepSeq = seq &&
        decide (v.since + msTicks (regField s ERR_REPLAY_TMO 9 0) ≤ max s.tick now)) }) (atTick now s)))

/-- WTH.LOAD takes a slot with its first packet, places the bytes of each, and completes with the packet that makes the image whole.
WTH.RETIRE retires the versions it names, and WTH.QUERY answers with their records. A write of WTH_SLOT_SEL copies the selected slot's
description; a promotion that is verified makes its slot READY, and one that is not empties it. Rules: R286, R288, R289, R290, R291, R324.
Completes (exec answers next): wthLoad, wthRetire, wthQuery, wthSlotSelWrite, promotionVerified. -/
def Obligations.WithiesAreHeld : Prop :=
  (∀ (s : State) (p : Pkt) (u : State), u = taken rowWthLoad p s → Accepted rowWthLoad s p → firstFail (atTick p.now s) rowWthLoad p = none →
    paramsZero p true true false true = true → p.p0 < 3 → p.p1 < 2 ^ 32 → p.p1 / 4096 ≠ 0xFFFFF → p.p1 % 4096 ≠ 0xFFF → segAt p + p.payload.length ≤ 2 ^ 40 + 65536 →
    let n := LoadName.withy (p.p1 / 4096) (p.p1 % 4096)
    let l : ImgLoad := ⟨n, p.p0, [], false, [], arrivalComp u p.path⟩
    (∀ v, loadOf u n = none → wthTake l.comp p.p1 p.p0 u = (stOk, v) → covers (loadPieces (loadPlace 0x18 p l)) 32 = false →
      withyHeld (loadPut l v) p.p1 = none → exec (.wthLoad p) s = .next (ok 0x18 p 0 (loadPut (loadPlace 0x18 p l)
        (modTier (fun t => { t with withies := tabPut t.withies p.p1 wthLoading }) (loadPut l v))))) ∧
    (∀ k, loadOf u n = some k → k.arg = p.p0 → k.header = true → loadWhole (loadPlace 0x18 p k) (wthLen (assemble (loadPieces (loadPlace 0x18 p k)))) = true →
      exec (.wthLoad p) s = .next (wthComplete p p.p1 (loadPlace 0x18 p k) (loadPut (loadPlace 0x18 p k) u)))) ∧
  (∀ (s : State) (p : Pkt), Accepted rowWthRetire s p → wthNameOk p = true →
    exec (.wthRetire p) s = .next (ok 0x19 p 0 ((wthNamed (taken rowWthRetire p s) p.p1).foldl retireOne (taken rowWthRetire p s)))) ∧
  (∀ (s : State) (p : Pkt), Accepted rowWthQuery s p → wthNameOk p = true → exec (.wthQuery p) s =
    .next (respond 0x1A p ((wthNamed (taken rowWthQuery p s) p.p1).flatMap (wthRecord (taken rowWthQuery p s))) 0 (taken rowWthQuery p s))) ∧
  (∀ (s : State) (v : Nat), hostHeard s = true →
    let u := regSet WTH_SLOT_SEL v s
    exec (.wthSlotSelWrite v) s = .next (regPut WTH_SLOT_INFO (wslotInfo u (regField u WTH_SLOT_SEL 9 0)) u)) ∧
  (∀ (s : State) (n : Nat) (w : WSlot), alive s = true → tabGet s.tier.wslots n = some w → w.state = 1 → w.promo = true →
    (∀ v, withyHeld s w.ver = some v → exec (.promotionVerified n true) s =
      .next (bump WTH_PROMOTE_CNT 1 (modWslot n (fun w => { w with state := 2, promo := false }) (extWrite w.ext v.image s)))) ∧
    exec (.promotionVerified n false) s = .next (extFree w.ext (modTier (fun t => { t with wslots := tabDel t.wslots n }) s)))

/-- A host ring accepts every opcode, the fabric all but SYS.RESTART, CFG.WRITE, LIC.INSTALL, FW.STAGE and FW.COMMIT, and the management
port and the I3C target only the management class. A packet outside these sets, good to step 6, fails with ST_PD. In restricted mode a
serving opcode that is good so far fails with ST_RESTRICTED, and a management-class opcode does not. Rules: R321, R322. -/
def Obligations.PathsAcceptTheirOpcodes : Prop :=
  (∀ o : Nat, o < 256 →
    (mgmtClass o = true ↔ o ≤ 0x05 ∨ (0x08 ≤ o ∧ o ≤ 0x0D) ∨ (0x10 ≤ o ∧ o ≤ 0x12) ∨ (0x14 ≤ o ∧ o ≤ 0x15) ∨ (0x18 ≤ o ∧ o ≤ 0x1A) ∨ o = 0x25 ∨ o = 0x27 ∨
      (0x48 ≤ o ∧ o ≤ 0x4B) ∨ (0x58 ≤ o ∧ o ≤ 0x5B) ∨ (0x60 ≤ o ∧ o ≤ 0x61) ∨ o = 0x68) ∧
    (∀ n, pathOk o (.ring n) = true) ∧
    (∀ qp d port, pathOk o (.fabric qp d port) = false ↔ o = 0x05 ∨ o = 0x09 ∨ o = 0x0A ∨ o = 0x0B ∨ o = 0x0C) ∧
    (∀ path, (∃ n, path = .mgmt n) ∨ path = .i3c → pathOk o path = mgmtClass o)) ∧
  (∀ (s : State) (r : OpRow) (p : Pkt), versionOk s r.code p = true → headerBad r p = false → opLacking p.format p.minor r.code = false → p.crcOk = true →
    (pathOk r.code p.path = false → firstFail s r p = some (stPd, 6) ∧
      (neverAnswered r.code = false → alive s = true → s.err.restarting = false → p.resp = false → ∀ (act : State → State) (s₀ : State), s = arrived p s₀ →
        discarding s r.code p = false → receive r p act s₀ = startDiscard r p (failAt r.code p stPd 6 s))) ∧
    (pathOk r.code p.path = true → pdOk s p = true → restricted s = true → mgmtClass r.code = false → firstFail s r p = some (stRestricted, 7))) ∧
  (∀ (s : State) (r : OpRow) (p : Pkt), mgmtClass r.code = true → firstFail s r p ≠ some (stRestricted, 7))

/-- A failing check is answered once with its status and DETAIL, and counted. A reply leaves on the path on which its command arrived;
NO_REPLY leaves out ST_OK. NOP, taken, is answered ST_OK. The reception of a packet and an answer to it touch only the parts of the state
that are named. Rules: R312, R314, R315, R316, R319, R324. Completes (exec answers next): nop. -/
def Obligations.CommandsAreAnswered : Prop :=
  (∀ (s : State) (p : Pkt), Accepted rowNop s p → p.p0 = 0 → p.p1 = 0 → p.p2 = 0 → p.p3 = 0 → exec (.nop p) s = .next (ok 0x00 p 0 (taken rowNop p s))) ∧
  (∀ (s : State) (p : Pkt) (r : OpRow) (act : State → State) (st d : Nat), alive s = true → s.err.restarting = false → p.resp = false →
    discarding (arrived p s) r.code p = false → firstFail (arrived p s) r p = some (st, d) → neverAnswered r.code = false → receive r p act s =
      startDiscard r p (failAt r.code p st d (if st = stCrc ∧ d = 5 then bump CMD_PCRC_ERR_CNT 1 (arrived p s) else arrived p s))) ∧
  (∀ (s : State) (p : Pkt) (o v : Nat),
    (p.noReply = true → ok o p v s = s) ∧
    (p.noReply = false →
      let r : ReplyOut := ⟨p.format, p.minor, o, true, p.tag, p.mid, stOk, 0, v, p.seq⟩
      (∀ n, p.path = .ring n → ok o p v s = cqPost (sqCq s n) (replyEntry n (sqRing s n).head r) s) ∧
      (∀ qp d port, p.path = .fabric qp d port → ok o p v s = tclSend qp replyFrame .plain {} (emit (.reply p.path r) s)) ∧
      (∀ n, p.path = .mgmt n → ok o p v s = emit (.reply p.path r) s) ∧
      (p.path = .i3c → ok o p v s = emit (.reply p.path r) s) ∧
      (p.path = .mbox → ok o p v s = mboxReply r (emit (.reply p.path r) s))) ∧
    (∀ st d, st ≠ stOk → st ≠ stInternal → p.path = .i3c → failAt o p st d s = if p.noReply ∧ st = stPending then s else
      emit (.reply .i3c ⟨p.format, p.minor, o, true, p.tag, p.mid, st, d, 0, p.seq⟩) (bump CMD_REJECT_CNT 1 s))) ∧
  (∀ (s : State) (p : Pkt) (r : OpRow) (o v : Nat),
    OnlyParts [.tick, .regs, .msgs, .discards, .man, .sched] s (taken r p s) ∧
    OnlyParts [.cq, .dev, .err, .fab, .out, .pcie, .regs, .sched, .tier] s (ok o p v s))

/-- MEM.LOAD and MEM.STORE name one whole line and MEM.ATOMIC one little-endian word of 8 bytes: a taken packet whose offset is not a
multiple of 64, or of 8 for an atomic, is answered ST_FORMAT, and changes nothing else. An aligned atomic acts on the word at its offset
in the line. Rules: R377. -/
def Obligations.MisalignedAccessesAreAnswered : Prop :=
  (∀ (s : State) (p : Pkt) (op : Nat) (r : OpRow), r = ⟨op, true, true, true, if op = 0x50 then 0 else if op = 0x51 then 64 else 16, false⟩ →
    Accepted r s p → memStale r p (atTick p.now s) = false →
    (op = 0x50 → memOff p % 64 ≠ 0 → exec (.memLoad p) s = .next (fail 0x50 p stFormat (taken r p s))) ∧
    (op = 0x51 → memOff p % 64 ≠ 0 → exec (.memStore p) s = .next (fail 0x51 p stFormat (taken r p s))) ∧
    (op = 0x52 → memOff p % 8 ≠ 0 → exec (.memAtomic p) s = .next (fail 0x52 p stFormat (taken r p s)))) ∧
  (∀ (p : Pkt) (k : MsaKind), (memKind 0x50 p = some k → memOff p % 64 = 0 ∧ memLen k = 64) ∧ (memKind 0x51 p = some k → memOff p % 64 = 0 ∧ memLen k = 64) ∧
    (memKind 0x52 p = some k → memOff p % 8 = 0 ∧ memLen k = 8 ∧ ∃ o sw kind, k = .atomic o (leAt p.payload 0 8) sw (memOff p % 64) kind))

/-- PAGE.SWAPOUT that names a manifest not in GENERATING, PAGE.SWAPIN that names one not in SWAPPED, and either for a manifest whose pages
the device is moving are answered ST_BUSY and change nothing else; PAGE.SWAPOUT of a GENERATING manifest and PAGE.SWAPIN of a SWAPPED one
that finds its frames are answered ST_PENDING. Rules: R262. Completes (exec answers next): pageSwapOut, pageSwapIn. -/
def Obligations.SwapsNeedTheirState : Prop :=
  ∀ (s : State) (p : Pkt) (b : Nat) (x : Berth) (r : OpRow) (u : State),
    (r = ⟨0x35, false, true, false, 0, false⟩ → u = taken r p s → Accepted r s p → berthNamed u p.mid = some b → berthAt u b = some x → manEpochOk u x p = true →
      paramsZero p false false false false = true → p.payload = [] →
      (x.prog.state ≠ 4 ∨ pagesMoving u b x = true → exec (.pageSwapOut p) s = .next (fail 0x35 p stBusy u)) ∧
      (x.prog.state = 4 → pagesMoving u b x = false → x.swapPkt = none → u.eng.step ≠ none → exec (.pageSwapOut p) s =
        .next (pend 0x35 p (modBerth b (fun y => { y with swapPkt := some p }) u)))) ∧
    (r = ⟨0x36, false, true, false, 0, false⟩ → u = taken r p s → Accepted r s p → berthNamed u p.mid = some b → berthAt u b = some x → manEpochOk u x p = true →
      paramsZero p false false false false = true → p.payload = [] →
      (x.prog.state ≠ 6 ∨ pagesMoving u b x = true → exec (.pageSwapIn p) s = .next (fail 0x36 p stBusy u)) ∧
      (∀ v, x.prog.state = 6 → pagesMoving u b x = false → swapInBegin b (modBerth b (fun y => { y with swapPkt := some p }) u) = some v →
        exec (.pageSwapIn p) s = .next (pend 0x36 p v)))

/-- A write to a register with a row in the tables leaves in each field what its access code says, of what the field held and what is
written there. A reserved value is reported and leaves its field; a write with none changes no other register and no other part of the
state. Rules: R22, R23, R124. -/
def Obligations.FieldsFollowTheirAccess : Prop :=
  (∀ (off old v : Nat) (f : FieldDef), f ∈ fieldsOf off → bits (fieldsAfter (fieldsOf off) old v) f.hi f.lo =
    (match f.acc with
      | .rw => if f.min ≤ bits v f.hi f.lo ∧ bits v f.hi f.lo ≤ f.max then bits v f.hi f.lo else bits old f.hi f.lo
      | .rw1c => bits old f.hi f.lo - Nat.land (bits old f.hi f.lo) (bits v f.hi f.lo)
      | .rw1s => Nat.lor (bits old f.hi f.lo) (bits v f.hi f.lo)
      | .ro => bits old f.hi f.lo
      | .wo => bits old f.hi f.lo
      | .rc => bits old f.hi f.lo)) ∧
  (∀ (s : State) (off v : Nat),
    (fieldsRsvd (fieldsOf off) v = false → OnlyParts [.regs] s (regSet off v s) ∧
      regGet (regSet off v s) off = fieldsAfter (fieldsOf off) (regGet s off) v ∧ ∀ j, j ≠ off → regGet (regSet off v s) j = regGet s j) ∧
    (fieldsRsvd (fieldsOf off) v = true → regSet off v s = record { cause := 0x28, cls := 0, c0 := off, c1 := v } (regPut ERR_REG_LAST (off % 2 ^ 24)
      (modErr (fun e => { e with rsvdWr := true }) (regPut off (fieldsAfter (fieldsOf off) (regGet s off) v) s)))))
end

