-- ==== Sys2Proof/Laws/State.lean ====
section
/-! SUPPORT. What each plain update of the state leaves in each field. -/

namespace Sys2Proof.Machine

@[simp] theorem withPending_pending (s : State) (q : List Instr) : (s.withPending q).pending = q := rfl
@[simp] theorem withPending_tick (s : State) (q : List Instr) : (s.withPending q).tick = s.tick := rfl
@[simp] theorem withPending_free (s : State) (q : List Instr) : (s.withPending q).free = s.free := rfl
@[simp] theorem withPending_out (s : State) (q : List Instr) : (s.withPending q).out = s.out := rfl
@[simp] theorem withPending_regs (s : State) (q : List Instr) : (s.withPending q).regs = s.regs := rfl
@[simp] theorem withPending_dev (s : State) (q : List Instr) : (s.withPending q).dev = s.dev := rfl
@[simp] theorem withPending_flash (s : State) (q : List Instr) : (s.withPending q).flash = s.flash := rfl
@[simp] theorem withPending_err (s : State) (q : List Instr) : (s.withPending q).err = s.err := rfl
@[simp] theorem withPending_sq (s : State) (q : List Instr) : (s.withPending q).sq = s.sq := rfl
@[simp] theorem withPending_cq (s : State) (q : List Instr) : (s.withPending q).cq = s.cq := rfl
@[simp] theorem withPending_msgs (s : State) (q : List Instr) : (s.withPending q).msgs = s.msgs := rfl
@[simp] theorem withPending_discards (s : State) (q : List Instr) : (s.withPending q).discards = s.discards := rfl
@[simp] theorem withPending_pcie (s : State) (q : List Instr) : (s.withPending q).pcie = s.pcie := rfl
@[simp] theorem withPending_mgmt (s : State) (q : List Instr) : (s.withPending q).mgmt = s.mgmt := rfl
@[simp] theorem withPending_pwr (s : State) (q : List Instr) : (s.withPending q).pwr = s.pwr := rfl
@[simp] theorem withPending_fab (s : State) (q : List Instr) : (s.withPending q).fab = s.fab := rfl
@[simp] theorem withPending_msa (s : State) (q : List Instr) : (s.withPending q).msa = s.msa := rfl
@[simp] theorem withPending_sched (s : State) (q : List Instr) : (s.withPending q).sched = s.sched := rfl
@[simp] theorem withPending_man (s : State) (q : List Instr) : (s.withPending q).man = s.man := rfl
@[simp] theorem withPending_tier (s : State) (q : List Instr) : (s.withPending q).tier = s.tier := rfl
@[simp] theorem withPending_core (s : State) (q : List Instr) : (s.withPending q).core = s.core := rfl
@[simp] theorem withPending_eng (s : State) (q : List Instr) : (s.withPending q).eng = s.eng := rfl
@[simp] theorem withPending_mem (s : State) (q : List Instr) : (s.withPending q).mem = s.mem := rfl
@[simp] theorem withPending_memPoison (s : State) (q : List Instr) : (s.withPending q).memPoison = s.memPoison := rfl
@[simp] theorem withPending_coreMem (s : State) (q : List Instr) : (s.withPending q).coreMem = s.coreMem := rfl
@[simp] theorem withPending_corePoison (s : State) (q : List Instr) : (s.withPending q).corePoison = s.corePoison := rfl
@[simp] theorem withPending_satNow (s : State) (q : List Instr) : (s.withPending q).satNow = s.satNow := rfl
@[simp] theorem withPending_nanNow (s : State) (q : List Instr) : (s.withPending q).nanNow = s.nanNow := rfl

@[simp] theorem idle_pending (s : State) : (idle s).pending = s.pending := rfl
@[simp] theorem idle_tick (s : State) : (idle s).tick = s.tick + 1 := rfl
@[simp] theorem idle_free (s : State) : (idle s).free = s.free := rfl
@[simp] theorem idle_out (s : State) : (idle s).out = s.out := rfl
@[simp] theorem idle_regs (s : State) : (idle s).regs = s.regs := rfl
@[simp] theorem idle_dev (s : State) : (idle s).dev = s.dev := rfl
@[simp] theorem idle_flash (s : State) : (idle s).flash = s.flash := rfl
@[simp] theorem idle_err (s : State) : (idle s).err = s.err := rfl
@[simp] theorem idle_sq (s : State) : (idle s).sq = s.sq := rfl
@[simp] theorem idle_cq (s : State) : (idle s).cq = s.cq := rfl
@[simp] theorem idle_msgs (s : State) : (idle s).msgs = s.msgs := rfl
@[simp] theorem idle_discards (s : State) : (idle s).discards = s.discards := rfl
@[simp] theorem idle_pcie (s : State) : (idle s).pcie = s.pcie := rfl
@[simp] theorem idle_mgmt (s : State) : (idle s).mgmt = s.mgmt := rfl
@[simp] theorem idle_pwr (s : State) : (idle s).pwr = s.pwr := rfl
@[simp] theorem idle_fab (s : State) : (idle s).fab = s.fab := rfl
@[simp] theorem idle_msa (s : State) : (idle s).msa = s.msa := rfl
@[simp] theorem idle_sched (s : State) : (idle s).sched = s.sched := rfl
@[simp] theorem idle_man (s : State) : (idle s).man = s.man := rfl
@[simp] theorem idle_tier (s : State) : (idle s).tier = s.tier := rfl
@[simp] theorem idle_core (s : State) : (idle s).core = s.core := rfl
@[simp] theorem idle_eng (s : State) : (idle s).eng = s.eng := rfl
@[simp] theorem idle_mem (s : State) : (idle s).mem = s.mem := rfl
@[simp] theorem idle_memPoison (s : State) : (idle s).memPoison = s.memPoison := rfl
@[simp] theorem idle_coreMem (s : State) : (idle s).coreMem = s.coreMem := rfl
@[simp] theorem idle_corePoison (s : State) : (idle s).corePoison = s.corePoison := rfl
@[simp] theorem idle_satNow (s : State) : (idle s).satNow = s.satNow := rfl
@[simp] theorem idle_nanNow (s : State) : (idle s).nanNow = s.nanNow := rfl

@[simp] theorem atTick_pending (now : Nat) (s : State) : (atTick now s).pending = s.pending := rfl
@[simp] theorem atTick_tick (now : Nat) (s : State) : (atTick now s).tick = max s.tick now := rfl
@[simp] theorem atTick_free (now : Nat) (s : State) : (atTick now s).free = s.free := rfl
@[simp] theorem atTick_out (now : Nat) (s : State) : (atTick now s).out = s.out := rfl
@[simp] theorem atTick_regs (now : Nat) (s : State) : (atTick now s).regs = s.regs := rfl
@[simp] theorem atTick_dev (now : Nat) (s : State) : (atTick now s).dev = s.dev := rfl
@[simp] theorem atTick_flash (now : Nat) (s : State) : (atTick now s).flash = s.flash := rfl
@[simp] theorem atTick_err (now : Nat) (s : State) : (atTick now s).err = s.err := rfl
@[simp] theorem atTick_sq (now : Nat) (s : State) : (atTick now s).sq = s.sq := rfl
@[simp] theorem atTick_cq (now : Nat) (s : State) : (atTick now s).cq = s.cq := rfl
@[simp] theorem atTick_msgs (now : Nat) (s : State) : (atTick now s).msgs = s.msgs := rfl
@[simp] theorem atTick_discards (now : Nat) (s : State) : (atTick now s).discards = s.discards := rfl
@[simp] theorem atTick_pcie (now : Nat) (s : State) : (atTick now s).pcie = s.pcie := rfl
@[simp] theorem atTick_mgmt (now : Nat) (s : State) : (atTick now s).mgmt = s.mgmt := rfl
@[simp] theorem atTick_pwr (now : Nat) (s : State) : (atTick now s).pwr = s.pwr := rfl
@[simp] theorem atTick_fab (now : Nat) (s : State) : (atTick now s).fab = s.fab := rfl
@[simp] theorem atTick_msa (now : Nat) (s : State) : (atTick now s).msa = s.msa := rfl
@[simp] theorem atTick_sched (now : Nat) (s : State) : (atTick now s).sched = s.sched := rfl
@[simp] theorem atTick_man (now : Nat) (s : State) : (atTick now s).man = s.man := rfl
@[simp] theorem atTick_tier (now : Nat) (s : State) : (atTick now s).tier = s.tier := rfl
@[simp] theorem atTick_core (now : Nat) (s : State) : (atTick now s).core = s.core := rfl
@[simp] theorem atTick_eng (now : Nat) (s : State) : (atTick now s).eng = s.eng := rfl
@[simp] theorem atTick_mem (now : Nat) (s : State) : (atTick now s).mem = s.mem := rfl
@[simp] theorem atTick_memPoison (now : Nat) (s : State) : (atTick now s).memPoison = s.memPoison := rfl
@[simp] theorem atTick_coreMem (now : Nat) (s : State) : (atTick now s).coreMem = s.coreMem := rfl
@[simp] theorem atTick_corePoison (now : Nat) (s : State) : (atTick now s).corePoison = s.corePoison := rfl
@[simp] theorem atTick_satNow (now : Nat) (s : State) : (atTick now s).satNow = s.satNow := rfl
@[simp] theorem atTick_nanNow (now : Nat) (s : State) : (atTick now s).nanNow = s.nanNow := rfl

@[simp] theorem emit_pending (o : Out) (s : State) : (emit o s).pending = s.pending := rfl
@[simp] theorem emit_tick (o : Out) (s : State) : (emit o s).tick = s.tick := rfl
@[simp] theorem emit_free (o : Out) (s : State) : (emit o s).free = s.free := rfl
@[simp] theorem emit_out (o : Out) (s : State) : (emit o s).out = o :: s.out := rfl
@[simp] theorem emit_regs (o : Out) (s : State) : (emit o s).regs = s.regs := rfl
@[simp] theorem emit_dev (o : Out) (s : State) : (emit o s).dev = s.dev := rfl
@[simp] theorem emit_flash (o : Out) (s : State) : (emit o s).flash = s.flash := rfl
@[simp] theorem emit_err (o : Out) (s : State) : (emit o s).err = s.err := rfl
@[simp] theorem emit_sq (o : Out) (s : State) : (emit o s).sq = s.sq := rfl
@[simp] theorem emit_cq (o : Out) (s : State) : (emit o s).cq = s.cq := rfl
@[simp] theorem emit_msgs (o : Out) (s : State) : (emit o s).msgs = s.msgs := rfl
@[simp] theorem emit_discards (o : Out) (s : State) : (emit o s).discards = s.discards := rfl
@[simp] theorem emit_pcie (o : Out) (s : State) : (emit o s).pcie = s.pcie := rfl
@[simp] theorem emit_mgmt (o : Out) (s : State) : (emit o s).mgmt = s.mgmt := rfl
@[simp] theorem emit_pwr (o : Out) (s : State) : (emit o s).pwr = s.pwr := rfl
@[simp] theorem emit_fab (o : Out) (s : State) : (emit o s).fab = s.fab := rfl
@[simp] theorem emit_msa (o : Out) (s : State) : (emit o s).msa = s.msa := rfl
@[simp] theorem emit_sched (o : Out) (s : State) : (emit o s).sched = s.sched := rfl
@[simp] theorem emit_man (o : Out) (s : State) : (emit o s).man = s.man := rfl
@[simp] theorem emit_tier (o : Out) (s : State) : (emit o s).tier = s.tier := rfl
@[simp] theorem emit_core (o : Out) (s : State) : (emit o s).core = s.core := rfl
@[simp] theorem emit_eng (o : Out) (s : State) : (emit o s).eng = s.eng := rfl
@[simp] theorem emit_mem (o : Out) (s : State) : (emit o s).mem = s.mem := rfl
@[simp] theorem emit_memPoison (o : Out) (s : State) : (emit o s).memPoison = s.memPoison := rfl
@[simp] theorem emit_coreMem (o : Out) (s : State) : (emit o s).coreMem = s.coreMem := rfl
@[simp] theorem emit_corePoison (o : Out) (s : State) : (emit o s).corePoison = s.corePoison := rfl
@[simp] theorem emit_satNow (o : Out) (s : State) : (emit o s).satNow = s.satNow := rfl
@[simp] theorem emit_nanNow (o : Out) (s : State) : (emit o s).nanNow = s.nanNow := rfl

@[simp] theorem freeNext_pending (s : State) : (freeNext s).pending = s.pending := rfl
@[simp] theorem freeNext_tick (s : State) : (freeNext s).tick = s.tick := rfl
@[simp] theorem freeNext_free (s : State) : (freeNext s).free = s.free + 1 := rfl
@[simp] theorem freeNext_out (s : State) : (freeNext s).out = s.out := rfl
@[simp] theorem freeNext_regs (s : State) : (freeNext s).regs = s.regs := rfl
@[simp] theorem freeNext_dev (s : State) : (freeNext s).dev = s.dev := rfl
@[simp] theorem freeNext_flash (s : State) : (freeNext s).flash = s.flash := rfl
@[simp] theorem freeNext_err (s : State) : (freeNext s).err = s.err := rfl
@[simp] theorem freeNext_sq (s : State) : (freeNext s).sq = s.sq := rfl
@[simp] theorem freeNext_cq (s : State) : (freeNext s).cq = s.cq := rfl
@[simp] theorem freeNext_msgs (s : State) : (freeNext s).msgs = s.msgs := rfl
@[simp] theorem freeNext_discards (s : State) : (freeNext s).discards = s.discards := rfl
@[simp] theorem freeNext_pcie (s : State) : (freeNext s).pcie = s.pcie := rfl
@[simp] theorem freeNext_mgmt (s : State) : (freeNext s).mgmt = s.mgmt := rfl
@[simp] theorem freeNext_pwr (s : State) : (freeNext s).pwr = s.pwr := rfl
@[simp] theorem freeNext_fab (s : State) : (freeNext s).fab = s.fab := rfl
@[simp] theorem freeNext_msa (s : State) : (freeNext s).msa = s.msa := rfl
@[simp] theorem freeNext_sched (s : State) : (freeNext s).sched = s.sched := rfl
@[simp] theorem freeNext_man (s : State) : (freeNext s).man = s.man := rfl
@[simp] theorem freeNext_tier (s : State) : (freeNext s).tier = s.tier := rfl
@[simp] theorem freeNext_core (s : State) : (freeNext s).core = s.core := rfl
@[simp] theorem freeNext_eng (s : State) : (freeNext s).eng = s.eng := rfl
@[simp] theorem freeNext_mem (s : State) : (freeNext s).mem = s.mem := rfl
@[simp] theorem freeNext_memPoison (s : State) : (freeNext s).memPoison = s.memPoison := rfl
@[simp] theorem freeNext_coreMem (s : State) : (freeNext s).coreMem = s.coreMem := rfl
@[simp] theorem freeNext_corePoison (s : State) : (freeNext s).corePoison = s.corePoison := rfl
@[simp] theorem freeNext_satNow (s : State) : (freeNext s).satNow = s.satNow := rfl
@[simp] theorem freeNext_nanNow (s : State) : (freeNext s).nanNow = s.nanNow := rfl

@[simp] theorem takeFree_pending (w : Nat) (s : State) : (takeFree w s).2.pending = s.pending := rfl
@[simp] theorem takeFree_tick (w : Nat) (s : State) : (takeFree w s).2.tick = s.tick := rfl
@[simp] theorem takeFree_free (w : Nat) (s : State) : (takeFree w s).2.free = s.free + 1 := rfl
@[simp] theorem takeFree_out (w : Nat) (s : State) : (takeFree w s).2.out = s.out := rfl
@[simp] theorem takeFree_regs (w : Nat) (s : State) : (takeFree w s).2.regs = s.regs := rfl
@[simp] theorem takeFree_dev (w : Nat) (s : State) : (takeFree w s).2.dev = s.dev := rfl
@[simp] theorem takeFree_flash (w : Nat) (s : State) : (takeFree w s).2.flash = s.flash := rfl
@[simp] theorem takeFree_err (w : Nat) (s : State) : (takeFree w s).2.err = s.err := rfl
@[simp] theorem takeFree_sq (w : Nat) (s : State) : (takeFree w s).2.sq = s.sq := rfl
@[simp] theorem takeFree_cq (w : Nat) (s : State) : (takeFree w s).2.cq = s.cq := rfl
@[simp] theorem takeFree_msgs (w : Nat) (s : State) : (takeFree w s).2.msgs = s.msgs := rfl
@[simp] theorem takeFree_discards (w : Nat) (s : State) : (takeFree w s).2.discards = s.discards := rfl
@[simp] theorem takeFree_pcie (w : Nat) (s : State) : (takeFree w s).2.pcie = s.pcie := rfl
@[simp] theorem takeFree_mgmt (w : Nat) (s : State) : (takeFree w s).2.mgmt = s.mgmt := rfl
@[simp] theorem takeFree_pwr (w : Nat) (s : State) : (takeFree w s).2.pwr = s.pwr := rfl
@[simp] theorem takeFree_fab (w : Nat) (s : State) : (takeFree w s).2.fab = s.fab := rfl
@[simp] theorem takeFree_msa (w : Nat) (s : State) : (takeFree w s).2.msa = s.msa := rfl
@[simp] theorem takeFree_sched (w : Nat) (s : State) : (takeFree w s).2.sched = s.sched := rfl
@[simp] theorem takeFree_man (w : Nat) (s : State) : (takeFree w s).2.man = s.man := rfl
@[simp] theorem takeFree_tier (w : Nat) (s : State) : (takeFree w s).2.tier = s.tier := rfl
@[simp] theorem takeFree_core (w : Nat) (s : State) : (takeFree w s).2.core = s.core := rfl
@[simp] theorem takeFree_eng (w : Nat) (s : State) : (takeFree w s).2.eng = s.eng := rfl
@[simp] theorem takeFree_mem (w : Nat) (s : State) : (takeFree w s).2.mem = s.mem := rfl
@[simp] theorem takeFree_memPoison (w : Nat) (s : State) : (takeFree w s).2.memPoison = s.memPoison := rfl
@[simp] theorem takeFree_coreMem (w : Nat) (s : State) : (takeFree w s).2.coreMem = s.coreMem := rfl
@[simp] theorem takeFree_corePoison (w : Nat) (s : State) : (takeFree w s).2.corePoison = s.corePoison := rfl
@[simp] theorem takeFree_satNow (w : Nat) (s : State) : (takeFree w s).2.satNow = s.satNow := rfl
@[simp] theorem takeFree_nanNow (w : Nat) (s : State) : (takeFree w s).2.nanNow = s.nanNow := rfl

@[simp] theorem regPut_pending (off v : Nat) (s : State) : (regPut off v s).pending = s.pending := rfl
@[simp] theorem regPut_tick (off v : Nat) (s : State) : (regPut off v s).tick = s.tick := rfl
@[simp] theorem regPut_free (off v : Nat) (s : State) : (regPut off v s).free = s.free := rfl
@[simp] theorem regPut_out (off v : Nat) (s : State) : (regPut off v s).out = s.out := rfl
@[simp] theorem regPut_regs (off v : Nat) (s : State) : (regPut off v s).regs = tabSet s.regs off v (regReset off) := rfl
@[simp] theorem regPut_dev (off v : Nat) (s : State) : (regPut off v s).dev = s.dev := rfl
@[simp] theorem regPut_flash (off v : Nat) (s : State) : (regPut off v s).flash = s.flash := rfl
@[simp] theorem regPut_err (off v : Nat) (s : State) : (regPut off v s).err = s.err := rfl
@[simp] theorem regPut_sq (off v : Nat) (s : State) : (regPut off v s).sq = s.sq := rfl
@[simp] theorem regPut_cq (off v : Nat) (s : State) : (regPut off v s).cq = s.cq := rfl
@[simp] theorem regPut_msgs (off v : Nat) (s : State) : (regPut off v s).msgs = s.msgs := rfl
@[simp] theorem regPut_discards (off v : Nat) (s : State) : (regPut off v s).discards = s.discards := rfl
@[simp] theorem regPut_pcie (off v : Nat) (s : State) : (regPut off v s).pcie = s.pcie := rfl
@[simp] theorem regPut_mgmt (off v : Nat) (s : State) : (regPut off v s).mgmt = s.mgmt := rfl
@[simp] theorem regPut_pwr (off v : Nat) (s : State) : (regPut off v s).pwr = s.pwr := rfl
@[simp] theorem regPut_fab (off v : Nat) (s : State) : (regPut off v s).fab = s.fab := rfl
@[simp] theorem regPut_msa (off v : Nat) (s : State) : (regPut off v s).msa = s.msa := rfl
@[simp] theorem regPut_sched (off v : Nat) (s : State) : (regPut off v s).sched = s.sched := rfl
@[simp] theorem regPut_man (off v : Nat) (s : State) : (regPut off v s).man = s.man := rfl
@[simp] theorem regPut_tier (off v : Nat) (s : State) : (regPut off v s).tier = s.tier := rfl
@[simp] theorem regPut_core (off v : Nat) (s : State) : (regPut off v s).core = s.core := rfl
@[simp] theorem regPut_eng (off v : Nat) (s : State) : (regPut off v s).eng = s.eng := rfl
@[simp] theorem regPut_mem (off v : Nat) (s : State) : (regPut off v s).mem = s.mem := rfl
@[simp] theorem regPut_memPoison (off v : Nat) (s : State) : (regPut off v s).memPoison = s.memPoison := rfl
@[simp] theorem regPut_coreMem (off v : Nat) (s : State) : (regPut off v s).coreMem = s.coreMem := rfl
@[simp] theorem regPut_corePoison (off v : Nat) (s : State) : (regPut off v s).corePoison = s.corePoison := rfl
@[simp] theorem regPut_satNow (off v : Nat) (s : State) : (regPut off v s).satNow = s.satNow := rfl
@[simp] theorem regPut_nanNow (off v : Nat) (s : State) : (regPut off v s).nanNow = s.nanNow := rfl

@[simp] theorem bump_pending (off k : Nat) (s : State) : (bump off k s).pending = s.pending := rfl
@[simp] theorem bump_tick (off k : Nat) (s : State) : (bump off k s).tick = s.tick := rfl
@[simp] theorem bump_free (off k : Nat) (s : State) : (bump off k s).free = s.free := rfl
@[simp] theorem bump_out (off k : Nat) (s : State) : (bump off k s).out = s.out := rfl
@[simp] theorem bump_regs (off k : Nat) (s : State) : (bump off k s).regs = tabSet s.regs off (min (regGet s off + k) cntMax) (regReset off) := rfl
@[simp] theorem bump_dev (off k : Nat) (s : State) : (bump off k s).dev = s.dev := rfl
@[simp] theorem bump_flash (off k : Nat) (s : State) : (bump off k s).flash = s.flash := rfl
@[simp] theorem bump_err (off k : Nat) (s : State) : (bump off k s).err = s.err := rfl
@[simp] theorem bump_sq (off k : Nat) (s : State) : (bump off k s).sq = s.sq := rfl
@[simp] theorem bump_cq (off k : Nat) (s : State) : (bump off k s).cq = s.cq := rfl
@[simp] theorem bump_msgs (off k : Nat) (s : State) : (bump off k s).msgs = s.msgs := rfl
@[simp] theorem bump_discards (off k : Nat) (s : State) : (bump off k s).discards = s.discards := rfl
@[simp] theorem bump_pcie (off k : Nat) (s : State) : (bump off k s).pcie = s.pcie := rfl
@[simp] theorem bump_mgmt (off k : Nat) (s : State) : (bump off k s).mgmt = s.mgmt := rfl
@[simp] theorem bump_pwr (off k : Nat) (s : State) : (bump off k s).pwr = s.pwr := rfl
@[simp] theorem bump_fab (off k : Nat) (s : State) : (bump off k s).fab = s.fab := rfl
@[simp] theorem bump_msa (off k : Nat) (s : State) : (bump off k s).msa = s.msa := rfl
@[simp] theorem bump_sched (off k : Nat) (s : State) : (bump off k s).sched = s.sched := rfl
@[simp] theorem bump_man (off k : Nat) (s : State) : (bump off k s).man = s.man := rfl
@[simp] theorem bump_tier (off k : Nat) (s : State) : (bump off k s).tier = s.tier := rfl
@[simp] theorem bump_core (off k : Nat) (s : State) : (bump off k s).core = s.core := rfl
@[simp] theorem bump_eng (off k : Nat) (s : State) : (bump off k s).eng = s.eng := rfl
@[simp] theorem bump_mem (off k : Nat) (s : State) : (bump off k s).mem = s.mem := rfl
@[simp] theorem bump_memPoison (off k : Nat) (s : State) : (bump off k s).memPoison = s.memPoison := rfl
@[simp] theorem bump_coreMem (off k : Nat) (s : State) : (bump off k s).coreMem = s.coreMem := rfl
@[simp] theorem bump_corePoison (off k : Nat) (s : State) : (bump off k s).corePoison = s.corePoison := rfl
@[simp] theorem bump_satNow (off k : Nat) (s : State) : (bump off k s).satNow = s.satNow := rfl
@[simp] theorem bump_nanNow (off k : Nat) (s : State) : (bump off k s).nanNow = s.nanNow := rfl

@[simp] theorem keepMax_pending (off v : Nat) (s : State) : (keepMax off v s).pending = s.pending := rfl
@[simp] theorem keepMax_tick (off v : Nat) (s : State) : (keepMax off v s).tick = s.tick := rfl
@[simp] theorem keepMax_free (off v : Nat) (s : State) : (keepMax off v s).free = s.free := rfl
@[simp] theorem keepMax_out (off v : Nat) (s : State) : (keepMax off v s).out = s.out := rfl
@[simp] theorem keepMax_regs (off v : Nat) (s : State) : (keepMax off v s).regs = tabSet s.regs off (max (regGet s off) (min v (2 ^ 32 - 1))) (regReset off) := rfl
@[simp] theorem keepMax_dev (off v : Nat) (s : State) : (keepMax off v s).dev = s.dev := rfl
@[simp] theorem keepMax_flash (off v : Nat) (s : State) : (keepMax off v s).flash = s.flash := rfl
@[simp] theorem keepMax_err (off v : Nat) (s : State) : (keepMax off v s).err = s.err := rfl
@[simp] theorem keepMax_sq (off v : Nat) (s : State) : (keepMax off v s).sq = s.sq := rfl
@[simp] theorem keepMax_cq (off v : Nat) (s : State) : (keepMax off v s).cq = s.cq := rfl
@[simp] theorem keepMax_msgs (off v : Nat) (s : State) : (keepMax off v s).msgs = s.msgs := rfl
@[simp] theorem keepMax_discards (off v : Nat) (s : State) : (keepMax off v s).discards = s.discards := rfl
@[simp] theorem keepMax_pcie (off v : Nat) (s : State) : (keepMax off v s).pcie = s.pcie := rfl
@[simp] theorem keepMax_mgmt (off v : Nat) (s : State) : (keepMax off v s).mgmt = s.mgmt := rfl
@[simp] theorem keepMax_pwr (off v : Nat) (s : State) : (keepMax off v s).pwr = s.pwr := rfl
@[simp] theorem keepMax_fab (off v : Nat) (s : State) : (keepMax off v s).fab = s.fab := rfl
@[simp] theorem keepMax_msa (off v : Nat) (s : State) : (keepMax off v s).msa = s.msa := rfl
@[simp] theorem keepMax_sched (off v : Nat) (s : State) : (keepMax off v s).sched = s.sched := rfl
@[simp] theorem keepMax_man (off v : Nat) (s : State) : (keepMax off v s).man = s.man := rfl
@[simp] theorem keepMax_tier (off v : Nat) (s : State) : (keepMax off v s).tier = s.tier := rfl
@[simp] theorem keepMax_core (off v : Nat) (s : State) : (keepMax off v s).core = s.core := rfl
@[simp] theorem keepMax_eng (off v : Nat) (s : State) : (keepMax off v s).eng = s.eng := rfl
@[simp] theorem keepMax_mem (off v : Nat) (s : State) : (keepMax off v s).mem = s.mem := rfl
@[simp] theorem keepMax_memPoison (off v : Nat) (s : State) : (keepMax off v s).memPoison = s.memPoison := rfl
@[simp] theorem keepMax_coreMem (off v : Nat) (s : State) : (keepMax off v s).coreMem = s.coreMem := rfl
@[simp] theorem keepMax_corePoison (off v : Nat) (s : State) : (keepMax off v s).corePoison = s.corePoison := rfl
@[simp] theorem keepMax_satNow (off v : Nat) (s : State) : (keepMax off v s).satNow = s.satNow := rfl
@[simp] theorem keepMax_nanNow (off v : Nat) (s : State) : (keepMax off v s).nanNow = s.nanNow := rfl

@[simp] theorem memWrite_pending (a : Nat) (b : Bytes) (tags : List Nat) (s : State) : (memWrite a b tags s).pending = s.pending := rfl
@[simp] theorem memWrite_tick (a : Nat) (b : Bytes) (tags : List Nat) (s : State) : (memWrite a b tags s).tick = s.tick := rfl
@[simp] theorem memWrite_free (a : Nat) (b : Bytes) (tags : List Nat) (s : State) : (memWrite a b tags s).free = s.free := rfl
@[simp] theorem memWrite_out (a : Nat) (b : Bytes) (tags : List Nat) (s : State) : (memWrite a b tags s).out = s.out := rfl
@[simp] theorem memWrite_regs (a : Nat) (b : Bytes) (tags : List Nat) (s : State) : (memWrite a b tags s).regs = s.regs := rfl
@[simp] theorem memWrite_dev (a : Nat) (b : Bytes) (tags : List Nat) (s : State) : (memWrite a b tags s).dev = s.dev := rfl
@[simp] theorem memWrite_flash (a : Nat) (b : Bytes) (tags : List Nat) (s : State) : (memWrite a b tags s).flash = s.flash := rfl
@[simp] theorem memWrite_err (a : Nat) (b : Bytes) (tags : List Nat) (s : State) : (memWrite a b tags s).err = s.err := rfl
@[simp] theorem memWrite_sq (a : Nat) (b : Bytes) (tags : List Nat) (s : State) : (memWrite a b tags s).sq = s.sq := rfl
@[simp] theorem memWrite_cq (a : Nat) (b : Bytes) (tags : List Nat) (s : State) : (memWrite a b tags s).cq = s.cq := rfl
@[simp] theorem memWrite_msgs (a : Nat) (b : Bytes) (tags : List Nat) (s : State) : (memWrite a b tags s).msgs = s.msgs := rfl
@[simp] theorem memWrite_discards (a : Nat) (b : Bytes) (tags : List Nat) (s : State) : (memWrite a b tags s).discards = s.discards := rfl
@[simp] theorem memWrite_pcie (a : Nat) (b : Bytes) (tags : List Nat) (s : State) : (memWrite a b tags s).pcie = s.pcie := rfl
@[simp] theorem memWrite_mgmt (a : Nat) (b : Bytes) (tags : List Nat) (s : State) : (memWrite a b tags s).mgmt = s.mgmt := rfl
@[simp] theorem memWrite_pwr (a : Nat) (b : Bytes) (tags : List Nat) (s : State) : (memWrite a b tags s).pwr = s.pwr := rfl
@[simp] theorem memWrite_fab (a : Nat) (b : Bytes) (tags : List Nat) (s : State) : (memWrite a b tags s).fab = s.fab := rfl
@[simp] theorem memWrite_msa (a : Nat) (b : Bytes) (tags : List Nat) (s : State) : (memWrite a b tags s).msa = s.msa := rfl
@[simp] theorem memWrite_sched (a : Nat) (b : Bytes) (tags : List Nat) (s : State) : (memWrite a b tags s).sched = s.sched := rfl
@[simp] theorem memWrite_man (a : Nat) (b : Bytes) (tags : List Nat) (s : State) : (memWrite a b tags s).man = s.man := rfl
@[simp] theorem memWrite_tier (a : Nat) (b : Bytes) (tags : List Nat) (s : State) : (memWrite a b tags s).tier = s.tier := rfl
@[simp] theorem memWrite_core (a : Nat) (b : Bytes) (tags : List Nat) (s : State) : (memWrite a b tags s).core = s.core := rfl
@[simp] theorem memWrite_eng (a : Nat) (b : Bytes) (tags : List Nat) (s : State) : (memWrite a b tags s).eng = s.eng := rfl
@[simp] theorem memWrite_mem (a : Nat) (b : Bytes) (tags : List Nat) (s : State) : (memWrite a b tags s).mem = cellsWrite s.mem a b := rfl
@[simp] theorem memWrite_memPoison (a : Nat) (b : Bytes) (tags : List Nat) (s : State) : (memWrite a b tags s).memPoison = tagsWrite s.memPoison a tags := rfl
@[simp] theorem memWrite_coreMem (a : Nat) (b : Bytes) (tags : List Nat) (s : State) : (memWrite a b tags s).coreMem = s.coreMem := rfl
@[simp] theorem memWrite_corePoison (a : Nat) (b : Bytes) (tags : List Nat) (s : State) : (memWrite a b tags s).corePoison = s.corePoison := rfl
@[simp] theorem memWrite_satNow (a : Nat) (b : Bytes) (tags : List Nat) (s : State) : (memWrite a b tags s).satNow = s.satNow := rfl
@[simp] theorem memWrite_nanNow (a : Nat) (b : Bytes) (tags : List Nat) (s : State) : (memWrite a b tags s).nanNow = s.nanNow := rfl

@[simp] theorem memStore_pending (a : Nat) (b : Bytes) (s : State) : (memStore a b s).pending = s.pending := rfl
@[simp] theorem memStore_tick (a : Nat) (b : Bytes) (s : State) : (memStore a b s).tick = s.tick := rfl
@[simp] theorem memStore_free (a : Nat) (b : Bytes) (s : State) : (memStore a b s).free = s.free := rfl
@[simp] theorem memStore_out (a : Nat) (b : Bytes) (s : State) : (memStore a b s).out = s.out := rfl
@[simp] theorem memStore_regs (a : Nat) (b : Bytes) (s : State) : (memStore a b s).regs = s.regs := rfl
@[simp] theorem memStore_dev (a : Nat) (b : Bytes) (s : State) : (memStore a b s).dev = s.dev := rfl
@[simp] theorem memStore_flash (a : Nat) (b : Bytes) (s : State) : (memStore a b s).flash = s.flash := rfl
@[simp] theorem memStore_err (a : Nat) (b : Bytes) (s : State) : (memStore a b s).err = s.err := rfl
@[simp] theorem memStore_sq (a : Nat) (b : Bytes) (s : State) : (memStore a b s).sq = s.sq := rfl
@[simp] theorem memStore_cq (a : Nat) (b : Bytes) (s : State) : (memStore a b s).cq = s.cq := rfl
@[simp] theorem memStore_msgs (a : Nat) (b : Bytes) (s : State) : (memStore a b s).msgs = s.msgs := rfl
@[simp] theorem memStore_discards (a : Nat) (b : Bytes) (s : State) : (memStore a b s).discards = s.discards := rfl
@[simp] theorem memStore_pcie (a : Nat) (b : Bytes) (s : State) : (memStore a b s).pcie = s.pcie := rfl
@[simp] theorem memStore_mgmt (a : Nat) (b : Bytes) (s : State) : (memStore a b s).mgmt = s.mgmt := rfl
@[simp] theorem memStore_pwr (a : Nat) (b : Bytes) (s : State) : (memStore a b s).pwr = s.pwr := rfl
@[simp] theorem memStore_fab (a : Nat) (b : Bytes) (s : State) : (memStore a b s).fab = s.fab := rfl
@[simp] theorem memStore_msa (a : Nat) (b : Bytes) (s : State) : (memStore a b s).msa = s.msa := rfl
@[simp] theorem memStore_sched (a : Nat) (b : Bytes) (s : State) : (memStore a b s).sched = s.sched := rfl
@[simp] theorem memStore_man (a : Nat) (b : Bytes) (s : State) : (memStore a b s).man = s.man := rfl
@[simp] theorem memStore_tier (a : Nat) (b : Bytes) (s : State) : (memStore a b s).tier = s.tier := rfl
@[simp] theorem memStore_core (a : Nat) (b : Bytes) (s : State) : (memStore a b s).core = s.core := rfl
@[simp] theorem memStore_eng (a : Nat) (b : Bytes) (s : State) : (memStore a b s).eng = s.eng := rfl
@[simp] theorem memStore_mem (a : Nat) (b : Bytes) (s : State) : (memStore a b s).mem = cellsWrite s.mem a b := rfl
@[simp] theorem memStore_memPoison (a : Nat) (b : Bytes) (s : State) : (memStore a b s).memPoison = tagsWrite s.memPoison a (clean b) := rfl
@[simp] theorem memStore_coreMem (a : Nat) (b : Bytes) (s : State) : (memStore a b s).coreMem = s.coreMem := rfl
@[simp] theorem memStore_corePoison (a : Nat) (b : Bytes) (s : State) : (memStore a b s).corePoison = s.corePoison := rfl
@[simp] theorem memStore_satNow (a : Nat) (b : Bytes) (s : State) : (memStore a b s).satNow = s.satNow := rfl
@[simp] theorem memStore_nanNow (a : Nat) (b : Bytes) (s : State) : (memStore a b s).nanNow = s.nanNow := rfl

@[simp] theorem modDev_pending (f : DevSt → DevSt) (s : State) : (modDev f s).pending = s.pending := rfl
@[simp] theorem modDev_tick (f : DevSt → DevSt) (s : State) : (modDev f s).tick = s.tick := rfl
@[simp] theorem modDev_free (f : DevSt → DevSt) (s : State) : (modDev f s).free = s.free := rfl
@[simp] theorem modDev_out (f : DevSt → DevSt) (s : State) : (modDev f s).out = s.out := rfl
@[simp] theorem modDev_regs (f : DevSt → DevSt) (s : State) : (modDev f s).regs = s.regs := rfl
@[simp] theorem modDev_dev (f : DevSt → DevSt) (s : State) : (modDev f s).dev = f s.dev := rfl
@[simp] theorem modDev_flash (f : DevSt → DevSt) (s : State) : (modDev f s).flash = s.flash := rfl
@[simp] theorem modDev_err (f : DevSt → DevSt) (s : State) : (modDev f s).err = s.err := rfl
@[simp] theorem modDev_sq (f : DevSt → DevSt) (s : State) : (modDev f s).sq = s.sq := rfl
@[simp] theorem modDev_cq (f : DevSt → DevSt) (s : State) : (modDev f s).cq = s.cq := rfl
@[simp] theorem modDev_msgs (f : DevSt → DevSt) (s : State) : (modDev f s).msgs = s.msgs := rfl
@[simp] theorem modDev_discards (f : DevSt → DevSt) (s : State) : (modDev f s).discards = s.discards := rfl
@[simp] theorem modDev_pcie (f : DevSt → DevSt) (s : State) : (modDev f s).pcie = s.pcie := rfl
@[simp] theorem modDev_mgmt (f : DevSt → DevSt) (s : State) : (modDev f s).mgmt = s.mgmt := rfl
@[simp] theorem modDev_pwr (f : DevSt → DevSt) (s : State) : (modDev f s).pwr = s.pwr := rfl
@[simp] theorem modDev_fab (f : DevSt → DevSt) (s : State) : (modDev f s).fab = s.fab := rfl
@[simp] theorem modDev_msa (f : DevSt → DevSt) (s : State) : (modDev f s).msa = s.msa := rfl
@[simp] theorem modDev_sched (f : DevSt → DevSt) (s : State) : (modDev f s).sched = s.sched := rfl
@[simp] theorem modDev_man (f : DevSt → DevSt) (s : State) : (modDev f s).man = s.man := rfl
@[simp] theorem modDev_tier (f : DevSt → DevSt) (s : State) : (modDev f s).tier = s.tier := rfl
@[simp] theorem modDev_core (f : DevSt → DevSt) (s : State) : (modDev f s).core = s.core := rfl
@[simp] theorem modDev_eng (f : DevSt → DevSt) (s : State) : (modDev f s).eng = s.eng := rfl
@[simp] theorem modDev_mem (f : DevSt → DevSt) (s : State) : (modDev f s).mem = s.mem := rfl
@[simp] theorem modDev_memPoison (f : DevSt → DevSt) (s : State) : (modDev f s).memPoison = s.memPoison := rfl
@[simp] theorem modDev_coreMem (f : DevSt → DevSt) (s : State) : (modDev f s).coreMem = s.coreMem := rfl
@[simp] theorem modDev_corePoison (f : DevSt → DevSt) (s : State) : (modDev f s).corePoison = s.corePoison := rfl
@[simp] theorem modDev_satNow (f : DevSt → DevSt) (s : State) : (modDev f s).satNow = s.satNow := rfl
@[simp] theorem modDev_nanNow (f : DevSt → DevSt) (s : State) : (modDev f s).nanNow = s.nanNow := rfl

@[simp] theorem modFlash_pending (f : FlashSt → FlashSt) (s : State) : (modFlash f s).pending = s.pending := rfl
@[simp] theorem modFlash_tick (f : FlashSt → FlashSt) (s : State) : (modFlash f s).tick = s.tick := rfl
@[simp] theorem modFlash_free (f : FlashSt → FlashSt) (s : State) : (modFlash f s).free = s.free := rfl
@[simp] theorem modFlash_out (f : FlashSt → FlashSt) (s : State) : (modFlash f s).out = s.out := rfl
@[simp] theorem modFlash_regs (f : FlashSt → FlashSt) (s : State) : (modFlash f s).regs = s.regs := rfl
@[simp] theorem modFlash_dev (f : FlashSt → FlashSt) (s : State) : (modFlash f s).dev = s.dev := rfl
@[simp] theorem modFlash_flash (f : FlashSt → FlashSt) (s : State) : (modFlash f s).flash = f s.flash := rfl
@[simp] theorem modFlash_err (f : FlashSt → FlashSt) (s : State) : (modFlash f s).err = s.err := rfl
@[simp] theorem modFlash_sq (f : FlashSt → FlashSt) (s : State) : (modFlash f s).sq = s.sq := rfl
@[simp] theorem modFlash_cq (f : FlashSt → FlashSt) (s : State) : (modFlash f s).cq = s.cq := rfl
@[simp] theorem modFlash_msgs (f : FlashSt → FlashSt) (s : State) : (modFlash f s).msgs = s.msgs := rfl
@[simp] theorem modFlash_discards (f : FlashSt → FlashSt) (s : State) : (modFlash f s).discards = s.discards := rfl
@[simp] theorem modFlash_pcie (f : FlashSt → FlashSt) (s : State) : (modFlash f s).pcie = s.pcie := rfl
@[simp] theorem modFlash_mgmt (f : FlashSt → FlashSt) (s : State) : (modFlash f s).mgmt = s.mgmt := rfl
@[simp] theorem modFlash_pwr (f : FlashSt → FlashSt) (s : State) : (modFlash f s).pwr = s.pwr := rfl
@[simp] theorem modFlash_fab (f : FlashSt → FlashSt) (s : State) : (modFlash f s).fab = s.fab := rfl
@[simp] theorem modFlash_msa (f : FlashSt → FlashSt) (s : State) : (modFlash f s).msa = s.msa := rfl
@[simp] theorem modFlash_sched (f : FlashSt → FlashSt) (s : State) : (modFlash f s).sched = s.sched := rfl
@[simp] theorem modFlash_man (f : FlashSt → FlashSt) (s : State) : (modFlash f s).man = s.man := rfl
@[simp] theorem modFlash_tier (f : FlashSt → FlashSt) (s : State) : (modFlash f s).tier = s.tier := rfl
@[simp] theorem modFlash_core (f : FlashSt → FlashSt) (s : State) : (modFlash f s).core = s.core := rfl
@[simp] theorem modFlash_eng (f : FlashSt → FlashSt) (s : State) : (modFlash f s).eng = s.eng := rfl
@[simp] theorem modFlash_mem (f : FlashSt → FlashSt) (s : State) : (modFlash f s).mem = s.mem := rfl
@[simp] theorem modFlash_memPoison (f : FlashSt → FlashSt) (s : State) : (modFlash f s).memPoison = s.memPoison := rfl
@[simp] theorem modFlash_coreMem (f : FlashSt → FlashSt) (s : State) : (modFlash f s).coreMem = s.coreMem := rfl
@[simp] theorem modFlash_corePoison (f : FlashSt → FlashSt) (s : State) : (modFlash f s).corePoison = s.corePoison := rfl
@[simp] theorem modFlash_satNow (f : FlashSt → FlashSt) (s : State) : (modFlash f s).satNow = s.satNow := rfl
@[simp] theorem modFlash_nanNow (f : FlashSt → FlashSt) (s : State) : (modFlash f s).nanNow = s.nanNow := rfl

@[simp] theorem modErr_pending (f : ErrSt → ErrSt) (s : State) : (modErr f s).pending = s.pending := rfl
@[simp] theorem modErr_tick (f : ErrSt → ErrSt) (s : State) : (modErr f s).tick = s.tick := rfl
@[simp] theorem modErr_free (f : ErrSt → ErrSt) (s : State) : (modErr f s).free = s.free := rfl
@[simp] theorem modErr_out (f : ErrSt → ErrSt) (s : State) : (modErr f s).out = s.out := rfl
@[simp] theorem modErr_regs (f : ErrSt → ErrSt) (s : State) : (modErr f s).regs = s.regs := rfl
@[simp] theorem modErr_dev (f : ErrSt → ErrSt) (s : State) : (modErr f s).dev = s.dev := rfl
@[simp] theorem modErr_flash (f : ErrSt → ErrSt) (s : State) : (modErr f s).flash = s.flash := rfl
@[simp] theorem modErr_err (f : ErrSt → ErrSt) (s : State) : (modErr f s).err = f s.err := rfl
@[simp] theorem modErr_sq (f : ErrSt → ErrSt) (s : State) : (modErr f s).sq = s.sq := rfl
@[simp] theorem modErr_cq (f : ErrSt → ErrSt) (s : State) : (modErr f s).cq = s.cq := rfl
@[simp] theorem modErr_msgs (f : ErrSt → ErrSt) (s : State) : (modErr f s).msgs = s.msgs := rfl
@[simp] theorem modErr_discards (f : ErrSt → ErrSt) (s : State) : (modErr f s).discards = s.discards := rfl
@[simp] theorem modErr_pcie (f : ErrSt → ErrSt) (s : State) : (modErr f s).pcie = s.pcie := rfl
@[simp] theorem modErr_mgmt (f : ErrSt → ErrSt) (s : State) : (modErr f s).mgmt = s.mgmt := rfl
@[simp] theorem modErr_pwr (f : ErrSt → ErrSt) (s : State) : (modErr f s).pwr = s.pwr := rfl
@[simp] theorem modErr_fab (f : ErrSt → ErrSt) (s : State) : (modErr f s).fab = s.fab := rfl
@[simp] theorem modErr_msa (f : ErrSt → ErrSt) (s : State) : (modErr f s).msa = s.msa := rfl
@[simp] theorem modErr_sched (f : ErrSt → ErrSt) (s : State) : (modErr f s).sched = s.sched := rfl
@[simp] theorem modErr_man (f : ErrSt → ErrSt) (s : State) : (modErr f s).man = s.man := rfl
@[simp] theorem modErr_tier (f : ErrSt → ErrSt) (s : State) : (modErr f s).tier = s.tier := rfl
@[simp] theorem modErr_core (f : ErrSt → ErrSt) (s : State) : (modErr f s).core = s.core := rfl
@[simp] theorem modErr_eng (f : ErrSt → ErrSt) (s : State) : (modErr f s).eng = s.eng := rfl
@[simp] theorem modErr_mem (f : ErrSt → ErrSt) (s : State) : (modErr f s).mem = s.mem := rfl
@[simp] theorem modErr_memPoison (f : ErrSt → ErrSt) (s : State) : (modErr f s).memPoison = s.memPoison := rfl
@[simp] theorem modErr_coreMem (f : ErrSt → ErrSt) (s : State) : (modErr f s).coreMem = s.coreMem := rfl
@[simp] theorem modErr_corePoison (f : ErrSt → ErrSt) (s : State) : (modErr f s).corePoison = s.corePoison := rfl
@[simp] theorem modErr_satNow (f : ErrSt → ErrSt) (s : State) : (modErr f s).satNow = s.satNow := rfl
@[simp] theorem modErr_nanNow (f : ErrSt → ErrSt) (s : State) : (modErr f s).nanNow = s.nanNow := rfl

@[simp] theorem modPcie_pending (f : PcieSt → PcieSt) (s : State) : (modPcie f s).pending = s.pending := rfl
@[simp] theorem modPcie_tick (f : PcieSt → PcieSt) (s : State) : (modPcie f s).tick = s.tick := rfl
@[simp] theorem modPcie_free (f : PcieSt → PcieSt) (s : State) : (modPcie f s).free = s.free := rfl
@[simp] theorem modPcie_out (f : PcieSt → PcieSt) (s : State) : (modPcie f s).out = s.out := rfl
@[simp] theorem modPcie_regs (f : PcieSt → PcieSt) (s : State) : (modPcie f s).regs = s.regs := rfl
@[simp] theorem modPcie_dev (f : PcieSt → PcieSt) (s : State) : (modPcie f s).dev = s.dev := rfl
@[simp] theorem modPcie_flash (f : PcieSt → PcieSt) (s : State) : (modPcie f s).flash = s.flash := rfl
@[simp] theorem modPcie_err (f : PcieSt → PcieSt) (s : State) : (modPcie f s).err = s.err := rfl
@[simp] theorem modPcie_sq (f : PcieSt → PcieSt) (s : State) : (modPcie f s).sq = s.sq := rfl
@[simp] theorem modPcie_cq (f : PcieSt → PcieSt) (s : State) : (modPcie f s).cq = s.cq := rfl
@[simp] theorem modPcie_msgs (f : PcieSt → PcieSt) (s : State) : (modPcie f s).msgs = s.msgs := rfl
@[simp] theorem modPcie_discards (f : PcieSt → PcieSt) (s : State) : (modPcie f s).discards = s.discards := rfl
@[simp] theorem modPcie_pcie (f : PcieSt → PcieSt) (s : State) : (modPcie f s).pcie = f s.pcie := rfl
@[simp] theorem modPcie_mgmt (f : PcieSt → PcieSt) (s : State) : (modPcie f s).mgmt = s.mgmt := rfl
@[simp] theorem modPcie_pwr (f : PcieSt → PcieSt) (s : State) : (modPcie f s).pwr = s.pwr := rfl
@[simp] theorem modPcie_fab (f : PcieSt → PcieSt) (s : State) : (modPcie f s).fab = s.fab := rfl
@[simp] theorem modPcie_msa (f : PcieSt → PcieSt) (s : State) : (modPcie f s).msa = s.msa := rfl
@[simp] theorem modPcie_sched (f : PcieSt → PcieSt) (s : State) : (modPcie f s).sched = s.sched := rfl
@[simp] theorem modPcie_man (f : PcieSt → PcieSt) (s : State) : (modPcie f s).man = s.man := rfl
@[simp] theorem modPcie_tier (f : PcieSt → PcieSt) (s : State) : (modPcie f s).tier = s.tier := rfl
@[simp] theorem modPcie_core (f : PcieSt → PcieSt) (s : State) : (modPcie f s).core = s.core := rfl
@[simp] theorem modPcie_eng (f : PcieSt → PcieSt) (s : State) : (modPcie f s).eng = s.eng := rfl
@[simp] theorem modPcie_mem (f : PcieSt → PcieSt) (s : State) : (modPcie f s).mem = s.mem := rfl
@[simp] theorem modPcie_memPoison (f : PcieSt → PcieSt) (s : State) : (modPcie f s).memPoison = s.memPoison := rfl
@[simp] theorem modPcie_coreMem (f : PcieSt → PcieSt) (s : State) : (modPcie f s).coreMem = s.coreMem := rfl
@[simp] theorem modPcie_corePoison (f : PcieSt → PcieSt) (s : State) : (modPcie f s).corePoison = s.corePoison := rfl
@[simp] theorem modPcie_satNow (f : PcieSt → PcieSt) (s : State) : (modPcie f s).satNow = s.satNow := rfl
@[simp] theorem modPcie_nanNow (f : PcieSt → PcieSt) (s : State) : (modPcie f s).nanNow = s.nanNow := rfl

@[simp] theorem modMgmt_pending (f : MgmtSt → MgmtSt) (s : State) : (modMgmt f s).pending = s.pending := rfl
@[simp] theorem modMgmt_tick (f : MgmtSt → MgmtSt) (s : State) : (modMgmt f s).tick = s.tick := rfl
@[simp] theorem modMgmt_free (f : MgmtSt → MgmtSt) (s : State) : (modMgmt f s).free = s.free := rfl
@[simp] theorem modMgmt_out (f : MgmtSt → MgmtSt) (s : State) : (modMgmt f s).out = s.out := rfl
@[simp] theorem modMgmt_regs (f : MgmtSt → MgmtSt) (s : State) : (modMgmt f s).regs = s.regs := rfl
@[simp] theorem modMgmt_dev (f : MgmtSt → MgmtSt) (s : State) : (modMgmt f s).dev = s.dev := rfl
@[simp] theorem modMgmt_flash (f : MgmtSt → MgmtSt) (s : State) : (modMgmt f s).flash = s.flash := rfl
@[simp] theorem modMgmt_err (f : MgmtSt → MgmtSt) (s : State) : (modMgmt f s).err = s.err := rfl
@[simp] theorem modMgmt_sq (f : MgmtSt → MgmtSt) (s : State) : (modMgmt f s).sq = s.sq := rfl
@[simp] theorem modMgmt_cq (f : MgmtSt → MgmtSt) (s : State) : (modMgmt f s).cq = s.cq := rfl
@[simp] theorem modMgmt_msgs (f : MgmtSt → MgmtSt) (s : State) : (modMgmt f s).msgs = s.msgs := rfl
@[simp] theorem modMgmt_discards (f : MgmtSt → MgmtSt) (s : State) : (modMgmt f s).discards = s.discards := rfl
@[simp] theorem modMgmt_pcie (f : MgmtSt → MgmtSt) (s : State) : (modMgmt f s).pcie = s.pcie := rfl
@[simp] theorem modMgmt_mgmt (f : MgmtSt → MgmtSt) (s : State) : (modMgmt f s).mgmt = f s.mgmt := rfl
@[simp] theorem modMgmt_pwr (f : MgmtSt → MgmtSt) (s : State) : (modMgmt f s).pwr = s.pwr := rfl
@[simp] theorem modMgmt_fab (f : MgmtSt → MgmtSt) (s : State) : (modMgmt f s).fab = s.fab := rfl
@[simp] theorem modMgmt_msa (f : MgmtSt → MgmtSt) (s : State) : (modMgmt f s).msa = s.msa := rfl
@[simp] theorem modMgmt_sched (f : MgmtSt → MgmtSt) (s : State) : (modMgmt f s).sched = s.sched := rfl
@[simp] theorem modMgmt_man (f : MgmtSt → MgmtSt) (s : State) : (modMgmt f s).man = s.man := rfl
@[simp] theorem modMgmt_tier (f : MgmtSt → MgmtSt) (s : State) : (modMgmt f s).tier = s.tier := rfl
@[simp] theorem modMgmt_core (f : MgmtSt → MgmtSt) (s : State) : (modMgmt f s).core = s.core := rfl
@[simp] theorem modMgmt_eng (f : MgmtSt → MgmtSt) (s : State) : (modMgmt f s).eng = s.eng := rfl
@[simp] theorem modMgmt_mem (f : MgmtSt → MgmtSt) (s : State) : (modMgmt f s).mem = s.mem := rfl
@[simp] theorem modMgmt_memPoison (f : MgmtSt → MgmtSt) (s : State) : (modMgmt f s).memPoison = s.memPoison := rfl
@[simp] theorem modMgmt_coreMem (f : MgmtSt → MgmtSt) (s : State) : (modMgmt f s).coreMem = s.coreMem := rfl
@[simp] theorem modMgmt_corePoison (f : MgmtSt → MgmtSt) (s : State) : (modMgmt f s).corePoison = s.corePoison := rfl
@[simp] theorem modMgmt_satNow (f : MgmtSt → MgmtSt) (s : State) : (modMgmt f s).satNow = s.satNow := rfl
@[simp] theorem modMgmt_nanNow (f : MgmtSt → MgmtSt) (s : State) : (modMgmt f s).nanNow = s.nanNow := rfl

@[simp] theorem modPwr_pending (f : PwrSt → PwrSt) (s : State) : (modPwr f s).pending = s.pending := rfl
@[simp] theorem modPwr_tick (f : PwrSt → PwrSt) (s : State) : (modPwr f s).tick = s.tick := rfl
@[simp] theorem modPwr_free (f : PwrSt → PwrSt) (s : State) : (modPwr f s).free = s.free := rfl
@[simp] theorem modPwr_out (f : PwrSt → PwrSt) (s : State) : (modPwr f s).out = s.out := rfl
@[simp] theorem modPwr_regs (f : PwrSt → PwrSt) (s : State) : (modPwr f s).regs = s.regs := rfl
@[simp] theorem modPwr_dev (f : PwrSt → PwrSt) (s : State) : (modPwr f s).dev = s.dev := rfl
@[simp] theorem modPwr_flash (f : PwrSt → PwrSt) (s : State) : (modPwr f s).flash = s.flash := rfl
@[simp] theorem modPwr_err (f : PwrSt → PwrSt) (s : State) : (modPwr f s).err = s.err := rfl
@[simp] theorem modPwr_sq (f : PwrSt → PwrSt) (s : State) : (modPwr f s).sq = s.sq := rfl
@[simp] theorem modPwr_cq (f : PwrSt → PwrSt) (s : State) : (modPwr f s).cq = s.cq := rfl
@[simp] theorem modPwr_msgs (f : PwrSt → PwrSt) (s : State) : (modPwr f s).msgs = s.msgs := rfl
@[simp] theorem modPwr_discards (f : PwrSt → PwrSt) (s : State) : (modPwr f s).discards = s.discards := rfl
@[simp] theorem modPwr_pcie (f : PwrSt → PwrSt) (s : State) : (modPwr f s).pcie = s.pcie := rfl
@[simp] theorem modPwr_mgmt (f : PwrSt → PwrSt) (s : State) : (modPwr f s).mgmt = s.mgmt := rfl
@[simp] theorem modPwr_pwr (f : PwrSt → PwrSt) (s : State) : (modPwr f s).pwr = f s.pwr := rfl
@[simp] theorem modPwr_fab (f : PwrSt → PwrSt) (s : State) : (modPwr f s).fab = s.fab := rfl
@[simp] theorem modPwr_msa (f : PwrSt → PwrSt) (s : State) : (modPwr f s).msa = s.msa := rfl
@[simp] theorem modPwr_sched (f : PwrSt → PwrSt) (s : State) : (modPwr f s).sched = s.sched := rfl
@[simp] theorem modPwr_man (f : PwrSt → PwrSt) (s : State) : (modPwr f s).man = s.man := rfl
@[simp] theorem modPwr_tier (f : PwrSt → PwrSt) (s : State) : (modPwr f s).tier = s.tier := rfl
@[simp] theorem modPwr_core (f : PwrSt → PwrSt) (s : State) : (modPwr f s).core = s.core := rfl
@[simp] theorem modPwr_eng (f : PwrSt → PwrSt) (s : State) : (modPwr f s).eng = s.eng := rfl
@[simp] theorem modPwr_mem (f : PwrSt → PwrSt) (s : State) : (modPwr f s).mem = s.mem := rfl
@[simp] theorem modPwr_memPoison (f : PwrSt → PwrSt) (s : State) : (modPwr f s).memPoison = s.memPoison := rfl
@[simp] theorem modPwr_coreMem (f : PwrSt → PwrSt) (s : State) : (modPwr f s).coreMem = s.coreMem := rfl
@[simp] theorem modPwr_corePoison (f : PwrSt → PwrSt) (s : State) : (modPwr f s).corePoison = s.corePoison := rfl
@[simp] theorem modPwr_satNow (f : PwrSt → PwrSt) (s : State) : (modPwr f s).satNow = s.satNow := rfl
@[simp] theorem modPwr_nanNow (f : PwrSt → PwrSt) (s : State) : (modPwr f s).nanNow = s.nanNow := rfl

@[simp] theorem modFab_pending (f : FabSt → FabSt) (s : State) : (modFab f s).pending = s.pending := rfl
@[simp] theorem modFab_tick (f : FabSt → FabSt) (s : State) : (modFab f s).tick = s.tick := rfl
@[simp] theorem modFab_free (f : FabSt → FabSt) (s : State) : (modFab f s).free = s.free := rfl
@[simp] theorem modFab_out (f : FabSt → FabSt) (s : State) : (modFab f s).out = s.out := rfl
@[simp] theorem modFab_regs (f : FabSt → FabSt) (s : State) : (modFab f s).regs = s.regs := rfl
@[simp] theorem modFab_dev (f : FabSt → FabSt) (s : State) : (modFab f s).dev = s.dev := rfl
@[simp] theorem modFab_flash (f : FabSt → FabSt) (s : State) : (modFab f s).flash = s.flash := rfl
@[simp] theorem modFab_err (f : FabSt → FabSt) (s : State) : (modFab f s).err = s.err := rfl
@[simp] theorem modFab_sq (f : FabSt → FabSt) (s : State) : (modFab f s).sq = s.sq := rfl
@[simp] theorem modFab_cq (f : FabSt → FabSt) (s : State) : (modFab f s).cq = s.cq := rfl
@[simp] theorem modFab_msgs (f : FabSt → FabSt) (s : State) : (modFab f s).msgs = s.msgs := rfl
@[simp] theorem modFab_discards (f : FabSt → FabSt) (s : State) : (modFab f s).discards = s.discards := rfl
@[simp] theorem modFab_pcie (f : FabSt → FabSt) (s : State) : (modFab f s).pcie = s.pcie := rfl
@[simp] theorem modFab_mgmt (f : FabSt → FabSt) (s : State) : (modFab f s).mgmt = s.mgmt := rfl
@[simp] theorem modFab_pwr (f : FabSt → FabSt) (s : State) : (modFab f s).pwr = s.pwr := rfl
@[simp] theorem modFab_fab (f : FabSt → FabSt) (s : State) : (modFab f s).fab = f s.fab := rfl
@[simp] theorem modFab_msa (f : FabSt → FabSt) (s : State) : (modFab f s).msa = s.msa := rfl
@[simp] theorem modFab_sched (f : FabSt → FabSt) (s : State) : (modFab f s).sched = s.sched := rfl
@[simp] theorem modFab_man (f : FabSt → FabSt) (s : State) : (modFab f s).man = s.man := rfl
@[simp] theorem modFab_tier (f : FabSt → FabSt) (s : State) : (modFab f s).tier = s.tier := rfl
@[simp] theorem modFab_core (f : FabSt → FabSt) (s : State) : (modFab f s).core = s.core := rfl
@[simp] theorem modFab_eng (f : FabSt → FabSt) (s : State) : (modFab f s).eng = s.eng := rfl
@[simp] theorem modFab_mem (f : FabSt → FabSt) (s : State) : (modFab f s).mem = s.mem := rfl
@[simp] theorem modFab_memPoison (f : FabSt → FabSt) (s : State) : (modFab f s).memPoison = s.memPoison := rfl
@[simp] theorem modFab_coreMem (f : FabSt → FabSt) (s : State) : (modFab f s).coreMem = s.coreMem := rfl
@[simp] theorem modFab_corePoison (f : FabSt → FabSt) (s : State) : (modFab f s).corePoison = s.corePoison := rfl
@[simp] theorem modFab_satNow (f : FabSt → FabSt) (s : State) : (modFab f s).satNow = s.satNow := rfl
@[simp] theorem modFab_nanNow (f : FabSt → FabSt) (s : State) : (modFab f s).nanNow = s.nanNow := rfl

@[simp] theorem modMsa_pending (f : MsaSt → MsaSt) (s : State) : (modMsa f s).pending = s.pending := rfl
@[simp] theorem modMsa_tick (f : MsaSt → MsaSt) (s : State) : (modMsa f s).tick = s.tick := rfl
@[simp] theorem modMsa_free (f : MsaSt → MsaSt) (s : State) : (modMsa f s).free = s.free := rfl
@[simp] theorem modMsa_out (f : MsaSt → MsaSt) (s : State) : (modMsa f s).out = s.out := rfl
@[simp] theorem modMsa_regs (f : MsaSt → MsaSt) (s : State) : (modMsa f s).regs = s.regs := rfl
@[simp] theorem modMsa_dev (f : MsaSt → MsaSt) (s : State) : (modMsa f s).dev = s.dev := rfl
@[simp] theorem modMsa_flash (f : MsaSt → MsaSt) (s : State) : (modMsa f s).flash = s.flash := rfl
@[simp] theorem modMsa_err (f : MsaSt → MsaSt) (s : State) : (modMsa f s).err = s.err := rfl
@[simp] theorem modMsa_sq (f : MsaSt → MsaSt) (s : State) : (modMsa f s).sq = s.sq := rfl
@[simp] theorem modMsa_cq (f : MsaSt → MsaSt) (s : State) : (modMsa f s).cq = s.cq := rfl
@[simp] theorem modMsa_msgs (f : MsaSt → MsaSt) (s : State) : (modMsa f s).msgs = s.msgs := rfl
@[simp] theorem modMsa_discards (f : MsaSt → MsaSt) (s : State) : (modMsa f s).discards = s.discards := rfl
@[simp] theorem modMsa_pcie (f : MsaSt → MsaSt) (s : State) : (modMsa f s).pcie = s.pcie := rfl
@[simp] theorem modMsa_mgmt (f : MsaSt → MsaSt) (s : State) : (modMsa f s).mgmt = s.mgmt := rfl
@[simp] theorem modMsa_pwr (f : MsaSt → MsaSt) (s : State) : (modMsa f s).pwr = s.pwr := rfl
@[simp] theorem modMsa_fab (f : MsaSt → MsaSt) (s : State) : (modMsa f s).fab = s.fab := rfl
@[simp] theorem modMsa_msa (f : MsaSt → MsaSt) (s : State) : (modMsa f s).msa = f s.msa := rfl
@[simp] theorem modMsa_sched (f : MsaSt → MsaSt) (s : State) : (modMsa f s).sched = s.sched := rfl
@[simp] theorem modMsa_man (f : MsaSt → MsaSt) (s : State) : (modMsa f s).man = s.man := rfl
@[simp] theorem modMsa_tier (f : MsaSt → MsaSt) (s : State) : (modMsa f s).tier = s.tier := rfl
@[simp] theorem modMsa_core (f : MsaSt → MsaSt) (s : State) : (modMsa f s).core = s.core := rfl
@[simp] theorem modMsa_eng (f : MsaSt → MsaSt) (s : State) : (modMsa f s).eng = s.eng := rfl
@[simp] theorem modMsa_mem (f : MsaSt → MsaSt) (s : State) : (modMsa f s).mem = s.mem := rfl
@[simp] theorem modMsa_memPoison (f : MsaSt → MsaSt) (s : State) : (modMsa f s).memPoison = s.memPoison := rfl
@[simp] theorem modMsa_coreMem (f : MsaSt → MsaSt) (s : State) : (modMsa f s).coreMem = s.coreMem := rfl
@[simp] theorem modMsa_corePoison (f : MsaSt → MsaSt) (s : State) : (modMsa f s).corePoison = s.corePoison := rfl
@[simp] theorem modMsa_satNow (f : MsaSt → MsaSt) (s : State) : (modMsa f s).satNow = s.satNow := rfl
@[simp] theorem modMsa_nanNow (f : MsaSt → MsaSt) (s : State) : (modMsa f s).nanNow = s.nanNow := rfl

@[simp] theorem modSched_pending (f : SchedSt → SchedSt) (s : State) : (modSched f s).pending = s.pending := rfl
@[simp] theorem modSched_tick (f : SchedSt → SchedSt) (s : State) : (modSched f s).tick = s.tick := rfl
@[simp] theorem modSched_free (f : SchedSt → SchedSt) (s : State) : (modSched f s).free = s.free := rfl
@[simp] theorem modSched_out (f : SchedSt → SchedSt) (s : State) : (modSched f s).out = s.out := rfl
@[simp] theorem modSched_regs (f : SchedSt → SchedSt) (s : State) : (modSched f s).regs = s.regs := rfl
@[simp] theorem modSched_dev (f : SchedSt → SchedSt) (s : State) : (modSched f s).dev = s.dev := rfl
@[simp] theorem modSched_flash (f : SchedSt → SchedSt) (s : State) : (modSched f s).flash = s.flash := rfl
@[simp] theorem modSched_err (f : SchedSt → SchedSt) (s : State) : (modSched f s).err = s.err := rfl
@[simp] theorem modSched_sq (f : SchedSt → SchedSt) (s : State) : (modSched f s).sq = s.sq := rfl
@[simp] theorem modSched_cq (f : SchedSt → SchedSt) (s : State) : (modSched f s).cq = s.cq := rfl
@[simp] theorem modSched_msgs (f : SchedSt → SchedSt) (s : State) : (modSched f s).msgs = s.msgs := rfl
@[simp] theorem modSched_discards (f : SchedSt → SchedSt) (s : State) : (modSched f s).discards = s.discards := rfl
@[simp] theorem modSched_pcie (f : SchedSt → SchedSt) (s : State) : (modSched f s).pcie = s.pcie := rfl
@[simp] theorem modSched_mgmt (f : SchedSt → SchedSt) (s : State) : (modSched f s).mgmt = s.mgmt := rfl
@[simp] theorem modSched_pwr (f : SchedSt → SchedSt) (s : State) : (modSched f s).pwr = s.pwr := rfl
@[simp] theorem modSched_fab (f : SchedSt → SchedSt) (s : State) : (modSched f s).fab = s.fab := rfl
@[simp] theorem modSched_msa (f : SchedSt → SchedSt) (s : State) : (modSched f s).msa = s.msa := rfl
@[simp] theorem modSched_sched (f : SchedSt → SchedSt) (s : State) : (modSched f s).sched = f s.sched := rfl
@[simp] theorem modSched_man (f : SchedSt → SchedSt) (s : State) : (modSched f s).man = s.man := rfl
@[simp] theorem modSched_tier (f : SchedSt → SchedSt) (s : State) : (modSched f s).tier = s.tier := rfl
@[simp] theorem modSched_core (f : SchedSt → SchedSt) (s : State) : (modSched f s).core = s.core := rfl
@[simp] theorem modSched_eng (f : SchedSt → SchedSt) (s : State) : (modSched f s).eng = s.eng := rfl
@[simp] theorem modSched_mem (f : SchedSt → SchedSt) (s : State) : (modSched f s).mem = s.mem := rfl
@[simp] theorem modSched_memPoison (f : SchedSt → SchedSt) (s : State) : (modSched f s).memPoison = s.memPoison := rfl
@[simp] theorem modSched_coreMem (f : SchedSt → SchedSt) (s : State) : (modSched f s).coreMem = s.coreMem := rfl
@[simp] theorem modSched_corePoison (f : SchedSt → SchedSt) (s : State) : (modSched f s).corePoison = s.corePoison := rfl
@[simp] theorem modSched_satNow (f : SchedSt → SchedSt) (s : State) : (modSched f s).satNow = s.satNow := rfl
@[simp] theorem modSched_nanNow (f : SchedSt → SchedSt) (s : State) : (modSched f s).nanNow = s.nanNow := rfl

@[simp] theorem modMan_pending (f : ManSt → ManSt) (s : State) : (modMan f s).pending = s.pending := rfl
@[simp] theorem modMan_tick (f : ManSt → ManSt) (s : State) : (modMan f s).tick = s.tick := rfl
@[simp] theorem modMan_free (f : ManSt → ManSt) (s : State) : (modMan f s).free = s.free := rfl
@[simp] theorem modMan_out (f : ManSt → ManSt) (s : State) : (modMan f s).out = s.out := rfl
@[simp] theorem modMan_regs (f : ManSt → ManSt) (s : State) : (modMan f s).regs = s.regs := rfl
@[simp] theorem modMan_dev (f : ManSt → ManSt) (s : State) : (modMan f s).dev = s.dev := rfl
@[simp] theorem modMan_flash (f : ManSt → ManSt) (s : State) : (modMan f s).flash = s.flash := rfl
@[simp] theorem modMan_err (f : ManSt → ManSt) (s : State) : (modMan f s).err = s.err := rfl
@[simp] theorem modMan_sq (f : ManSt → ManSt) (s : State) : (modMan f s).sq = s.sq := rfl
@[simp] theorem modMan_cq (f : ManSt → ManSt) (s : State) : (modMan f s).cq = s.cq := rfl
@[simp] theorem modMan_msgs (f : ManSt → ManSt) (s : State) : (modMan f s).msgs = s.msgs := rfl
@[simp] theorem modMan_discards (f : ManSt → ManSt) (s : State) : (modMan f s).discards = s.discards := rfl
@[simp] theorem modMan_pcie (f : ManSt → ManSt) (s : State) : (modMan f s).pcie = s.pcie := rfl
@[simp] theorem modMan_mgmt (f : ManSt → ManSt) (s : State) : (modMan f s).mgmt = s.mgmt := rfl
@[simp] theorem modMan_pwr (f : ManSt → ManSt) (s : State) : (modMan f s).pwr = s.pwr := rfl
@[simp] theorem modMan_fab (f : ManSt → ManSt) (s : State) : (modMan f s).fab = s.fab := rfl
@[simp] theorem modMan_msa (f : ManSt → ManSt) (s : State) : (modMan f s).msa = s.msa := rfl
@[simp] theorem modMan_sched (f : ManSt → ManSt) (s : State) : (modMan f s).sched = s.sched := rfl
@[simp] theorem modMan_man (f : ManSt → ManSt) (s : State) : (modMan f s).man = f s.man := rfl
@[simp] theorem modMan_tier (f : ManSt → ManSt) (s : State) : (modMan f s).tier = s.tier := rfl
@[simp] theorem modMan_core (f : ManSt → ManSt) (s : State) : (modMan f s).core = s.core := rfl
@[simp] theorem modMan_eng (f : ManSt → ManSt) (s : State) : (modMan f s).eng = s.eng := rfl
@[simp] theorem modMan_mem (f : ManSt → ManSt) (s : State) : (modMan f s).mem = s.mem := rfl
@[simp] theorem modMan_memPoison (f : ManSt → ManSt) (s : State) : (modMan f s).memPoison = s.memPoison := rfl
@[simp] theorem modMan_coreMem (f : ManSt → ManSt) (s : State) : (modMan f s).coreMem = s.coreMem := rfl
@[simp] theorem modMan_corePoison (f : ManSt → ManSt) (s : State) : (modMan f s).corePoison = s.corePoison := rfl
@[simp] theorem modMan_satNow (f : ManSt → ManSt) (s : State) : (modMan f s).satNow = s.satNow := rfl
@[simp] theorem modMan_nanNow (f : ManSt → ManSt) (s : State) : (modMan f s).nanNow = s.nanNow := rfl

@[simp] theorem modTier_pending (f : MemSt → MemSt) (s : State) : (modTier f s).pending = s.pending := rfl
@[simp] theorem modTier_tick (f : MemSt → MemSt) (s : State) : (modTier f s).tick = s.tick := rfl
@[simp] theorem modTier_free (f : MemSt → MemSt) (s : State) : (modTier f s).free = s.free := rfl
@[simp] theorem modTier_out (f : MemSt → MemSt) (s : State) : (modTier f s).out = s.out := rfl
@[simp] theorem modTier_regs (f : MemSt → MemSt) (s : State) : (modTier f s).regs = s.regs := rfl
@[simp] theorem modTier_dev (f : MemSt → MemSt) (s : State) : (modTier f s).dev = s.dev := rfl
@[simp] theorem modTier_flash (f : MemSt → MemSt) (s : State) : (modTier f s).flash = s.flash := rfl
@[simp] theorem modTier_err (f : MemSt → MemSt) (s : State) : (modTier f s).err = s.err := rfl
@[simp] theorem modTier_sq (f : MemSt → MemSt) (s : State) : (modTier f s).sq = s.sq := rfl
@[simp] theorem modTier_cq (f : MemSt → MemSt) (s : State) : (modTier f s).cq = s.cq := rfl
@[simp] theorem modTier_msgs (f : MemSt → MemSt) (s : State) : (modTier f s).msgs = s.msgs := rfl
@[simp] theorem modTier_discards (f : MemSt → MemSt) (s : State) : (modTier f s).discards = s.discards := rfl
@[simp] theorem modTier_pcie (f : MemSt → MemSt) (s : State) : (modTier f s).pcie = s.pcie := rfl
@[simp] theorem modTier_mgmt (f : MemSt → MemSt) (s : State) : (modTier f s).mgmt = s.mgmt := rfl
@[simp] theorem modTier_pwr (f : MemSt → MemSt) (s : State) : (modTier f s).pwr = s.pwr := rfl
@[simp] theorem modTier_fab (f : MemSt → MemSt) (s : State) : (modTier f s).fab = s.fab := rfl
@[simp] theorem modTier_msa (f : MemSt → MemSt) (s : State) : (modTier f s).msa = s.msa := rfl
@[simp] theorem modTier_sched (f : MemSt → MemSt) (s : State) : (modTier f s).sched = s.sched := rfl
@[simp] theorem modTier_man (f : MemSt → MemSt) (s : State) : (modTier f s).man = s.man := rfl
@[simp] theorem modTier_tier (f : MemSt → MemSt) (s : State) : (modTier f s).tier = f s.tier := rfl
@[simp] theorem modTier_core (f : MemSt → MemSt) (s : State) : (modTier f s).core = s.core := rfl
@[simp] theorem modTier_eng (f : MemSt → MemSt) (s : State) : (modTier f s).eng = s.eng := rfl
@[simp] theorem modTier_mem (f : MemSt → MemSt) (s : State) : (modTier f s).mem = s.mem := rfl
@[simp] theorem modTier_memPoison (f : MemSt → MemSt) (s : State) : (modTier f s).memPoison = s.memPoison := rfl
@[simp] theorem modTier_coreMem (f : MemSt → MemSt) (s : State) : (modTier f s).coreMem = s.coreMem := rfl
@[simp] theorem modTier_corePoison (f : MemSt → MemSt) (s : State) : (modTier f s).corePoison = s.corePoison := rfl
@[simp] theorem modTier_satNow (f : MemSt → MemSt) (s : State) : (modTier f s).satNow = s.satNow := rfl
@[simp] theorem modTier_nanNow (f : MemSt → MemSt) (s : State) : (modTier f s).nanNow = s.nanNow := rfl

@[simp] theorem modCore_pending (f : CoreSt → CoreSt) (s : State) : (modCore f s).pending = s.pending := rfl
@[simp] theorem modCore_tick (f : CoreSt → CoreSt) (s : State) : (modCore f s).tick = s.tick := rfl
@[simp] theorem modCore_free (f : CoreSt → CoreSt) (s : State) : (modCore f s).free = s.free := rfl
@[simp] theorem modCore_out (f : CoreSt → CoreSt) (s : State) : (modCore f s).out = s.out := rfl
@[simp] theorem modCore_regs (f : CoreSt → CoreSt) (s : State) : (modCore f s).regs = s.regs := rfl
@[simp] theorem modCore_dev (f : CoreSt → CoreSt) (s : State) : (modCore f s).dev = s.dev := rfl
@[simp] theorem modCore_flash (f : CoreSt → CoreSt) (s : State) : (modCore f s).flash = s.flash := rfl
@[simp] theorem modCore_err (f : CoreSt → CoreSt) (s : State) : (modCore f s).err = s.err := rfl
@[simp] theorem modCore_sq (f : CoreSt → CoreSt) (s : State) : (modCore f s).sq = s.sq := rfl
@[simp] theorem modCore_cq (f : CoreSt → CoreSt) (s : State) : (modCore f s).cq = s.cq := rfl
@[simp] theorem modCore_msgs (f : CoreSt → CoreSt) (s : State) : (modCore f s).msgs = s.msgs := rfl
@[simp] theorem modCore_discards (f : CoreSt → CoreSt) (s : State) : (modCore f s).discards = s.discards := rfl
@[simp] theorem modCore_pcie (f : CoreSt → CoreSt) (s : State) : (modCore f s).pcie = s.pcie := rfl
@[simp] theorem modCore_mgmt (f : CoreSt → CoreSt) (s : State) : (modCore f s).mgmt = s.mgmt := rfl
@[simp] theorem modCore_pwr (f : CoreSt → CoreSt) (s : State) : (modCore f s).pwr = s.pwr := rfl
@[simp] theorem modCore_fab (f : CoreSt → CoreSt) (s : State) : (modCore f s).fab = s.fab := rfl
@[simp] theorem modCore_msa (f : CoreSt → CoreSt) (s : State) : (modCore f s).msa = s.msa := rfl
@[simp] theorem modCore_sched (f : CoreSt → CoreSt) (s : State) : (modCore f s).sched = s.sched := rfl
@[simp] theorem modCore_man (f : CoreSt → CoreSt) (s : State) : (modCore f s).man = s.man := rfl
@[simp] theorem modCore_tier (f : CoreSt → CoreSt) (s : State) : (modCore f s).tier = s.tier := rfl
@[simp] theorem modCore_core (f : CoreSt → CoreSt) (s : State) : (modCore f s).core = f s.core := rfl
@[simp] theorem modCore_eng (f : CoreSt → CoreSt) (s : State) : (modCore f s).eng = s.eng := rfl
@[simp] theorem modCore_mem (f : CoreSt → CoreSt) (s : State) : (modCore f s).mem = s.mem := rfl
@[simp] theorem modCore_memPoison (f : CoreSt → CoreSt) (s : State) : (modCore f s).memPoison = s.memPoison := rfl
@[simp] theorem modCore_coreMem (f : CoreSt → CoreSt) (s : State) : (modCore f s).coreMem = s.coreMem := rfl
@[simp] theorem modCore_corePoison (f : CoreSt → CoreSt) (s : State) : (modCore f s).corePoison = s.corePoison := rfl
@[simp] theorem modCore_satNow (f : CoreSt → CoreSt) (s : State) : (modCore f s).satNow = s.satNow := rfl
@[simp] theorem modCore_nanNow (f : CoreSt → CoreSt) (s : State) : (modCore f s).nanNow = s.nanNow := rfl

@[simp] theorem modEng_pending (f : EngSt → EngSt) (s : State) : (modEng f s).pending = s.pending := rfl
@[simp] theorem modEng_tick (f : EngSt → EngSt) (s : State) : (modEng f s).tick = s.tick := rfl
@[simp] theorem modEng_free (f : EngSt → EngSt) (s : State) : (modEng f s).free = s.free := rfl
@[simp] theorem modEng_out (f : EngSt → EngSt) (s : State) : (modEng f s).out = s.out := rfl
@[simp] theorem modEng_regs (f : EngSt → EngSt) (s : State) : (modEng f s).regs = s.regs := rfl
@[simp] theorem modEng_dev (f : EngSt → EngSt) (s : State) : (modEng f s).dev = s.dev := rfl
@[simp] theorem modEng_flash (f : EngSt → EngSt) (s : State) : (modEng f s).flash = s.flash := rfl
@[simp] theorem modEng_err (f : EngSt → EngSt) (s : State) : (modEng f s).err = s.err := rfl
@[simp] theorem modEng_sq (f : EngSt → EngSt) (s : State) : (modEng f s).sq = s.sq := rfl
@[simp] theorem modEng_cq (f : EngSt → EngSt) (s : State) : (modEng f s).cq = s.cq := rfl
@[simp] theorem modEng_msgs (f : EngSt → EngSt) (s : State) : (modEng f s).msgs = s.msgs := rfl
@[simp] theorem modEng_discards (f : EngSt → EngSt) (s : State) : (modEng f s).discards = s.discards := rfl
@[simp] theorem modEng_pcie (f : EngSt → EngSt) (s : State) : (modEng f s).pcie = s.pcie := rfl
@[simp] theorem modEng_mgmt (f : EngSt → EngSt) (s : State) : (modEng f s).mgmt = s.mgmt := rfl
@[simp] theorem modEng_pwr (f : EngSt → EngSt) (s : State) : (modEng f s).pwr = s.pwr := rfl
@[simp] theorem modEng_fab (f : EngSt → EngSt) (s : State) : (modEng f s).fab = s.fab := rfl
@[simp] theorem modEng_msa (f : EngSt → EngSt) (s : State) : (modEng f s).msa = s.msa := rfl
@[simp] theorem modEng_sched (f : EngSt → EngSt) (s : State) : (modEng f s).sched = s.sched := rfl
@[simp] theorem modEng_man (f : EngSt → EngSt) (s : State) : (modEng f s).man = s.man := rfl
@[simp] theorem modEng_tier (f : EngSt → EngSt) (s : State) : (modEng f s).tier = s.tier := rfl
@[simp] theorem modEng_core (f : EngSt → EngSt) (s : State) : (modEng f s).core = s.core := rfl
@[simp] theorem modEng_eng (f : EngSt → EngSt) (s : State) : (modEng f s).eng = f s.eng := rfl
@[simp] theorem modEng_mem (f : EngSt → EngSt) (s : State) : (modEng f s).mem = s.mem := rfl
@[simp] theorem modEng_memPoison (f : EngSt → EngSt) (s : State) : (modEng f s).memPoison = s.memPoison := rfl
@[simp] theorem modEng_coreMem (f : EngSt → EngSt) (s : State) : (modEng f s).coreMem = s.coreMem := rfl
@[simp] theorem modEng_corePoison (f : EngSt → EngSt) (s : State) : (modEng f s).corePoison = s.corePoison := rfl
@[simp] theorem modEng_satNow (f : EngSt → EngSt) (s : State) : (modEng f s).satNow = s.satNow := rfl
@[simp] theorem modEng_nanNow (f : EngSt → EngSt) (s : State) : (modEng f s).nanNow = s.nanNow := rfl

end Sys2Proof.Machine
end

