-- ==== Sys2Proof/Laws/Tab.lean ====
section
/-! SUPPORT. Laws of sparse tables and of memory: what a write leaves at each key, and that every operation keeps the
canonical form. -/

namespace Sys2Proof.Machine

variable {α : Type}

/-! ## Reading after writing -/

theorem tabGet_put (t : Tab α) (k j : Nat) (v : α) : tabGet (tabPut t k v) j = if k = j then some v else tabGet t j := by
  induction t with
  | nil => simp [tabPut, tabGet]
  | cons e t ih =>
    obtain ⟨a, b⟩ := e
    simp only [tabPut]
    split
    · rename_i h
      simp only [tabGet]
    · split
      · rename_i h1 h2
        subst h2
        simp only [tabGet]
        split <;> rfl
      · rename_i h1 h2
        simp only [tabGet, ih]
        split
        · rename_i h3
          subst h3
          rw [if_neg h2]
        · rfl

theorem tabGet_del (t : Tab α) (k j : Nat) : tabGet (tabDel t k) j = if k = j then none else tabGet t j := by
  induction t with
  | nil => simp [tabDel, tabGet]
  | cons e t ih =>
    obtain ⟨a, b⟩ := e
    simp only [tabDel]
    split
    · rename_i h
      subst h
      rw [ih]
      simp only [tabGet]
      split <;> rfl
    · rename_i h
      simp only [tabGet, ih]
      split
      · rename_i h3
        subst h3
        rw [if_neg (fun e => h e.symm)]
      · rfl

/-- Reading a table with a default after a write. -/
theorem tabGetD_set [DecidableEq α] (t : Tab α) (k j : Nat) (v d : α) :
    tabGetD (tabSet t k v d) j d = if k = j then v else tabGetD t j d := by
  unfold tabGetD tabSet
  split
  · rename_i h
    rw [tabGet_del]
    split
    · rw [h]; rfl
    · rfl
  · rw [tabGet_put]
    split <;> rfl

/-- The register written reads what was written, and every other register as before. -/
theorem regGet_regPut (s : State) (off v j : Nat) : regGet (regPut off v s) j = if off = j then v else regGet s j := by
  unfold regGet regPut
  show tabGetD (tabSet s.regs off v (regReset off)) j (regReset j) = _
  by_cases h : off = j
  · subst h
    rw [tabGetD_set]
  · rw [if_neg h]
    unfold tabGetD tabSet
    split
    · rw [tabGet_del, if_neg h]
    · rw [tabGet_put, if_neg h]

/-! ## The canonical form -/

/-- Every key of a table is above `k`. -/
def tabAbove (k : Nat) (t : Tab α) : Prop := ∀ e ∈ t, k < e.1

theorem tabSorted_cons (k : Nat) (v : α) (t : Tab α) : tabSorted ((k, v) :: t) = true ↔ tabAbove k t ∧ tabSorted t = true := by
  induction t generalizing k v with
  | nil => simp [tabSorted, tabAbove]
  | cons e t ih =>
    obtain ⟨a, b⟩ := e
    rw [show tabSorted ((k, v) :: (a, b) :: t) = (decide (k < a) && tabSorted ((a, b) :: t)) from rfl]
    rw [Bool.and_eq_true, decide_eq_true_eq]
    constructor
    · intro h
      refine ⟨?_, h.2⟩
      intro e he
      rcases List.mem_cons.1 he with rfl | he
      · exact h.1
      · exact Nat.lt_trans h.1 (((ih a b).1 h.2).1 e he)
    · intro h
      exact ⟨h.1 (a, b) (List.mem_cons_self ..), h.2⟩

theorem mem_tabPut (t : Tab α) (k : Nat) (v : α) (e : Nat × α) (h : e ∈ tabPut t k v) : e = (k, v) ∨ e ∈ t := by
  induction t with
  | nil => simp [tabPut] at h; exact Or.inl h
  | cons x t ih =>
    obtain ⟨a, b⟩ := x
    simp only [tabPut] at h
    split at h
    · rcases List.mem_cons.1 h with h | h
      · exact Or.inl h
      · exact Or.inr h
    · split at h
      · rcases List.mem_cons.1 h with h | h
        · exact Or.inl h
        · exact Or.inr (List.mem_cons_of_mem _ h)
      · rcases List.mem_cons.1 h with h | h
        · exact Or.inr (h ▸ List.mem_cons_self ..)
        · rcases ih h with h | h
          · exact Or.inl h
          · exact Or.inr (List.mem_cons_of_mem _ h)

theorem mem_tabDel (t : Tab α) (k : Nat) (e : Nat × α) (h : e ∈ tabDel t k) : e ∈ t := by
  induction t with
  | nil => simp [tabDel] at h
  | cons x t ih =>
    obtain ⟨a, b⟩ := x
    simp only [tabDel] at h
    split at h
    · exact List.mem_cons_of_mem _ (ih h)
    · rcases List.mem_cons.1 h with h | h
      · exact h ▸ List.mem_cons_self ..
      · exact List.mem_cons_of_mem _ (ih h)

theorem tabSorted_put (t : Tab α) (k : Nat) (v : α) (h : tabSorted t = true) : tabSorted (tabPut t k v) = true := by
  induction t with
  | nil => rfl
  | cons x t ih =>
    obtain ⟨a, b⟩ := x
    have hc := (tabSorted_cons a b t).1 h
    simp only [tabPut]
    split
    · rename_i hk
      exact (tabSorted_cons k v _).2 ⟨fun e he => by
        rcases List.mem_cons.1 he with rfl | he
        · exact hk
        · exact Nat.lt_trans hk (hc.1 e he), h⟩
    · split
      · rename_i hk
        subst hk
        exact (tabSorted_cons k v t).2 hc
      · rename_i h1 h2
        refine (tabSorted_cons a b _).2 ⟨fun e he => ?_, ih hc.2⟩
        rcases mem_tabPut t k v e he with rfl | he
        · exact Nat.lt_of_le_of_ne (Nat.le_of_not_lt h1) (fun e => h2 e.symm)
        · exact hc.1 e he

theorem tabSorted_del (t : Tab α) (k : Nat) (h : tabSorted t = true) : tabSorted (tabDel t k) = true := by
  induction t with
  | nil => rfl
  | cons x t ih =>
    obtain ⟨a, b⟩ := x
    have hc := (tabSorted_cons a b t).1 h
    simp only [tabDel]
    split
    · exact ih hc.2
    · exact (tabSorted_cons a b _).2 ⟨fun e he => hc.1 e (mem_tabDel t k e he), ih hc.2⟩

/-- A write keeps the canonical form of a table with a default. -/
theorem tabWf_set [DecidableEq α] (t : Tab α) (k : Nat) (v d : α) (h : tabWf t d = true) : tabWf (tabSet t k v d) d = true := by
  simp only [tabWf, Bool.and_eq_true, List.all_eq_true, decide_eq_true_eq] at h ⊢
  unfold tabSet
  split
  · exact ⟨tabSorted_del t k h.1, fun e he => h.2 e (mem_tabDel t k e he)⟩
  · rename_i hv
    refine ⟨tabSorted_put t k v h.1, fun e he => ?_⟩
    rcases mem_tabPut t k v e he with rfl | he
    · exact hv
    · exact h.2 e he

/-- Keeping some entries keeps the keys rising. -/
theorem tabSorted_filter (t : Tab α) (p : Nat × α → Bool) (h : tabSorted t = true) : tabSorted (t.filter p) = true := by
  induction t with
  | nil => rfl
  | cons x t ih =>
    obtain ⟨a, b⟩ := x
    have hc := (tabSorted_cons a b t).1 h
    simp only [List.filter_cons]
    split
    · exact (tabSorted_cons a b _).2 ⟨fun e he => hc.1 e (List.mem_filter.1 he).1, ih hc.2⟩
    · exact ih hc.2

/-- Keeping some entries keeps the canonical form. -/
theorem tabWf_filter [DecidableEq α] (t : Tab α) (p : Nat × α → Bool) (d : α) (h : tabWf t d = true) :
    tabWf (t.filter p) d = true := by
  simp only [tabWf, Bool.and_eq_true, List.all_eq_true, decide_eq_true_eq] at h ⊢
  exact ⟨tabSorted_filter t p h.1, fun e he => h.2 e (List.mem_filter.1 he).1⟩

/-! ## Memory -/

/-- A write of bytes keeps the canonical form of memory. -/
theorem cellsWrite_wf (m : List Host.Cell) (a : Nat) (b : Bytes) (h : Memory.wf m = true) : Memory.wf (cellsWrite m a b) = true := by
  induction b generalizing m a with
  | nil => exact h
  | cons x b ih => exact ih _ _ (tabWf_set m a x (0#8) h)

/-- The bytes written read back, and every byte outside them as before. -/
theorem cellRead_write (m : List Host.Cell) (a : Nat) (b : Bytes) (x : Nat) :
    cellRead (cellsWrite m a b) x = if a ≤ x ∧ x < a + b.length then b.getD (x - a) 0#8 else cellRead m x := by
  induction b generalizing m a with
  | nil =>
    have : ¬ (a ≤ x ∧ x < a + ([] : Bytes).length) := by simp only [List.length_nil]; omega
    rw [if_neg this]
    rfl
  | cons y b ih =>
    rw [cellsWrite, ih]
    have hs : cellRead (tabSet m a y (0#8)) x = if a = x then y else cellRead m x := tabGetD_set m a x y (0#8)
    by_cases h1 : a = x
    · subst h1
      have hn : ¬ (a + 1 ≤ a ∧ a < a + 1 + b.length) := by omega
      have hp : a ≤ a ∧ a < a + (y :: b).length := by simp only [List.length_cons]; omega
      rw [if_neg hn, if_pos hp, hs, if_pos rfl, Nat.sub_self]
      rfl
    · rw [hs, if_neg h1]
      by_cases h2 : a + 1 ≤ x ∧ x < a + 1 + b.length
      · have hp : a ≤ x ∧ x < a + (y :: b).length := by simp only [List.length_cons]; omega
        rw [if_pos h2, if_pos hp]
        have : x - a = (x - (a + 1)) + 1 := by omega
        rw [this]
        rfl
      · have hn : ¬ (a ≤ x ∧ x < a + (y :: b).length) := by simp only [List.length_cons]; omega
        rw [if_neg h2, if_neg hn]

theorem memWrite_wf (a : Nat) (b : Bytes) (tags : List Nat) (s : State) (h : Memory.wf s.mem = true) :
    Memory.wf (memWrite a b tags s).mem = true := cellsWrite_wf _ _ _ h

theorem memStore_wf (a : Nat) (b : Bytes) (s : State) (h : Memory.wf s.mem = true) : Memory.wf (memStore a b s).mem = true :=
  cellsWrite_wf _ _ _ h

/-- Memory after reset has the canonical form. -/
theorem reset_wf : Memory.wf State.reset.mem = true ∧ Memory.wf State.reset.coreMem = true := ⟨rfl, rfl⟩

end Sys2Proof.Machine
end

