-- ==== Sys2Proof/Laws/Access.lean ====
section
/-! SUPPORT. What an update of one ring, port, queue pair, berth, frame or shaper leaves in each of them. -/

namespace Sys2Proof.Machine

variable {α : Type}

theorem tabGet_mod (t : Tab α) (k j : Nat) (f : α → α) : tabGet (tabMod t k f) j = if k = j then (tabGet t k).map f else tabGet t j := by
  unfold tabMod
  induction t with
  | nil => simp [tabGet]
  | cons e t ih =>
    obtain ⟨a, b⟩ := e
    by_cases h : a = k
    · subst h
      by_cases h2 : a = j
      · subst h2
        simp [tabGet]
      · simp only [List.map_cons, tabGet, if_true, ih, if_neg h2]
    · simp only [List.map_cons, tabGet, if_neg h, ih]
      by_cases h2 : a = j
      · subst h2
        simp [Ne.symm h]
      · simp only [if_neg h2]

theorem tabSet_getD [DecidableEq α] (t : Tab α) (k j : Nat) (v d : α) :
    tabGetD (tabSet t k v d) j d = if k = j then v else tabGetD t j d := tabGetD_set t k j v d

theorem sqRing_modSq (n k : Nat) (f : SqRing → SqRing) (s : State) :
    sqRing (modSq n f s) k = if n = k then f (sqRing s n) else sqRing s k := tabGetD_set _ _ _ _ _

theorem cqRing_modCq (n k : Nat) (f : CqRing → CqRing) (s : State) :
    cqRing (modCq n f s) k = if n = k then f (cqRing s n) else cqRing s k := tabGetD_set _ _ _ _ _

theorem qpOf_modQp (n k : Nat) (f : Qp → Qp) (s : State) : qpOf (modQp n f s) k = if n = k then (qpOf s n).map f else qpOf s k :=
  tabGet_mod _ _ _ _

theorem berthAt_modBerth (n k : Nat) (f : Berth → Berth) (s : State) :
    berthAt (modBerth n f s) k = if n = k then (berthAt s n).map f else berthAt s k := tabGet_mod _ _ _ _

theorem frameAt_modFrame (n k : Nat) (f : Frame → Frame) (s : State) :
    frameAt (modFrame n f s) k = if n = k then (frameAt s n).map f else frameAt s k := tabGet_mod _ _ _ _

theorem shaperOf_modShaper (n k : Nat) (f : Shaper → Shaper) (s : State) :
    shaperOf (modShaper n f s) k = if n = k then f (shaperOf s n) else shaperOf s k := tabGetD_set _ _ _ _ _

theorem listSet_getD (l : List α) (n k : Nat) (v d : α) (h : n < l.length) : (listSet l n v).getD k d = if n = k then v else l.getD k d := by
  unfold listSet
  simp only [List.getD_eq_getElem?_getD, List.getElem?_set]
  split
  · rename_i e
    subst e
    simp_all
  · rfl

theorem listSet_length (l : List α) (n : Nat) (v : α) : (listSet l n v).length = l.length := by
  unfold listSet
  simp

theorem portOf_modPort (n k : Nat) (f : Port → Port) (s : State) (h : n < s.fab.ports.length) :
    portOf (modPort n f s) k = if n = k then f (portOf s n) else portOf s k := listSet_getD _ _ _ _ _ h

end Sys2Proof.Machine
end

