-- ==== Sys2Proof/Laws/Clock.lean ====
section
/-! SUPPORT. What is read of the state is the same after the clock has moved on, unless it reads the clock. -/

namespace Sys2Proof.Machine

@[simp] theorem absentCluster_atTick (n : Nat) (s : State) (a2 : ℕ) : absentCluster (atTick n s) a2 = absentCluster s a2 := rfl
@[simp] theorem absentStack_atTick (n : Nat) (s : State) : absentStack (atTick n s) = absentStack s := rfl
@[simp] theorem accRead_atTick (n : Nat) (s : State) (a2 : ℕ) (a3 : ℕ) (a4 : ℕ) (a5 : ℕ) : accRead (atTick n s) a2 a3 a4 a5 = accRead s a2 a3 a4 a5 := rfl
@[simp] theorem acceptedTable_atTick (n : Nat) (s : State) (a2 : XferIn) (a3 : Option ℕ) (a4 : List ℕ) (a5 : List ℕ) (a6 : List ℕ) : acceptedTable (atTick n s) a2 a3 a4 a5 a6 = acceptedTable s a2 a3 a4 a5 a6 := rfl
@[simp] theorem actHalf_atTick (n : Nat) (s : State) (a2 : ℕ) (a3 : Bytes) (a4 : ℕ) : actHalf (atTick n s) a2 a3 a4 = actHalf s a2 a3 a4 := rfl
@[simp] theorem actRow_atTick (n : Nat) (s : State) (a2 : ℕ) (a3 : Bytes) (a4 : ℕ) : actRow (atTick n s) a2 a3 a4 = actRow s a2 a3 a4 := rfl
@[simp] theorem activeSlot_atTick (n : Nat) (s : State) : activeSlot (atTick n s) = activeSlot s := rfl
@[simp] theorem admBerth_atTick (n : Nat) (s : State) (a2 : Bool) (a3 : ℕ) (a4 : Pkt) (a5 : AdmRec) (a6 : ℕ) (a7 : ℕ) : admBerth (atTick n s) a2 a3 a4 a5 a6 a7 = admBerth s a2 a3 a4 a5 a6 a7 := rfl
@[simp] theorem admEpochOk_atTick (n : Nat) (s : State) (a2 : AdmRec) (a3 : Pkt) : admEpochOk (atTick n s) a2 a3 = admEpochOk s a2 a3 := rfl
@[simp] theorem admFormatOk_atTick (n : Nat) (s : State) (a2 : Bool) (a3 : Bytes) (a4 : AdmRec) : admFormatOk (atTick n s) a2 a3 a4 = admFormatOk s a2 a3 a4 := rfl
@[simp] theorem admWithy_atTick (n : Nat) (s : State) (a2 : Bool) (a3 : ℕ) : admWithy (atTick n s) a2 a3 = admWithy s a2 a3 := rfl
@[simp] theorem alive_atTick (n : Nat) (s : State) : alive (atTick n s) = alive s := rfl
@[simp] theorem allExcluded_atTick (n : Nat) (s : State) (a2 : ℕ) : allExcluded (atTick n s) a2 = allExcluded s a2 := rfl
@[simp] theorem allFinished_atTick (n : Nat) (s : State) : allFinished (atTick n s) = allFinished s := rfl
@[simp] theorem areaOf_atTick (n : Nat) (s : State) (a2 : ℕ) : areaOf (atTick n s) a2 = areaOf s a2 := rfl
@[simp] theorem arrivalComp_atTick (n : Nat) (s : State) (a2 : Path) : arrivalComp (atTick n s) a2 = arrivalComp s a2 := rfl
@[simp] theorem arrivedBytes_atTick (n : Nat) (s : State) (a2 : ℕ) (a3 : Frame) (a4 : Bool) (a5 : ℕ) : arrivedBytes (atTick n s) a2 a3 a4 a5 = arrivedBytes s a2 a3 a4 a5 := rfl
@[simp] theorem arrivingOf_atTick (n : Nat) (s : State) (a2 : ℕ) (a3 : ℕ) (a4 : ℕ) : arrivingOf (atTick n s) a2 a3 a4 = arrivingOf s a2 a3 a4 := rfl
@[simp] theorem atStep2_atTick (n : Nat) (s : State) : atStep2 (atTick n s) = atStep2 s := rfl
@[simp] theorem auxWhat_atTick (n : Nat) (s : State) : auxWhat (atTick n s) = auxWhat s := rfl
@[simp] theorem bar4Base_atTick (n : Nat) (s : State) : bar4Base (atTick n s) = bar4Base s := rfl
@[simp] theorem bar4Byte_atTick (n : Nat) (s : State) (a2 : ℕ) : bar4Byte (atTick n s) a2 = bar4Byte s a2 := rfl
@[simp] theorem bar4Open_atTick (n : Nat) (s : State) : bar4Open (atTick n s) = bar4Open s := rfl
@[simp] theorem bar4Reaches_atTick (n : Nat) (s : State) (a2 : ℕ) : bar4Reaches (atTick n s) a2 = bar4Reaches s a2 := rfl
@[simp] theorem barrierMet_atTick (n : Nat) (s : State) (a2 : ℕ) (a3 : ℕ) : barrierMet (atTick n s) a2 a3 = barrierMet s a2 a3 := rfl
@[simp] theorem barrierScope_atTick (n : Nat) (s : State) (a2 : ℕ) (a3 : ℕ) : barrierScope (atTick n s) a2 a3 = barrierScope s a2 a3 := rfl
@[simp] theorem berthAllowed_atTick (n : Nat) (s : State) (a2 : ℕ) : berthAllowed (atTick n s) a2 = berthAllowed s a2 := rfl
@[simp] theorem berthAt_atTick (n : Nat) (s : State) (a2 : ℕ) : berthAt (atTick n s) a2 = berthAt s a2 := rfl
@[simp] theorem berthFree_atTick (n : Nat) (s : State) : berthFree (atTick n s) = berthFree s := rfl
@[simp] theorem berthNamed_atTick (n : Nat) (s : State) (a2 : ℕ) : berthNamed (atTick n s) a2 = berthNamed s a2 := rfl
@[simp] theorem berthOf_atTick (n : Nat) (s : State) (a2 : ℕ) : berthOf (atTick n s) a2 = berthOf s a2 := rfl
@[simp] theorem berthOfAccept_atTick (n : Nat) (s : State) (a2 : ℕ) : berthOfAccept (atTick n s) a2 = berthOfAccept s a2 := rfl
@[simp] theorem berthOfRequest_atTick (n : Nat) (s : State) (a2 : ℕ) : berthOfRequest (atTick n s) a2 = berthOfRequest s a2 := rfl
@[simp] theorem berthOfXfer_atTick (n : Nat) (s : State) (a2 : ℕ) : berthOfXfer (atTick n s) a2 = berthOfXfer s a2 := rfl
@[simp] theorem berthsFree_atTick (n : Nat) (s : State) : berthsFree (atTick n s) = berthsFree s := rfl
@[simp] theorem berthsHeld_atTick (n : Nat) (s : State) (a2 : ℕ) : berthsHeld (atTick n s) a2 = berthsHeld s a2 := rfl
@[simp] theorem boostDue_atTick (n : Nat) (s : State) (a2 : Berth) : boostDue (atTick n s) a2 = boostDue s a2 := rfl
@[simp] theorem boundHere_atTick (n : Nat) (s : State) (a2 : Bytes) : boundHere (atTick n s) a2 = boundHere s a2 := rfl
@[simp] theorem bufferKey_atTick (n : Nat) (s : State) (a2 : ℕ) (a3 : Posted) (a4 : ℕ) : bufferKey (atTick n s) a2 a3 a4 = bufferKey s a2 a3 a4 := rfl
@[simp] theorem candidates_atTick (n : Nat) (s : State) (a2 : ℕ) : candidates (atTick n s) a2 = candidates s a2 := rfl
@[simp] theorem capabilityOff_atTick (n : Nat) (s : State) (a2 : ℕ) (a3 : Pkt) : capabilityOff (atTick n s) a2 a3 = capabilityOff s a2 a3 := rfl
@[simp] theorem capsRecord_atTick (n : Nat) (s : State) : capsRecord (atTick n s) = capsRecord s := rfl
@[simp] theorem cfgCopy_atTick (n : Nat) (s : State) (a2 : ℕ) : cfgCopy (atTick n s) a2 = cfgCopy s a2 := rfl
@[simp] theorem checkComp_atTick (n : Nat) (s : State) (a2 : Pkt) : checkComp (atTick n s) a2 = checkComp s a2 := rfl
@[simp] theorem chooseQp_atTick (n : Nat) (s : State) (a2 : ℕ) (a3 : ℕ) : chooseQp (atTick n s) a2 a3 = chooseQp s a2 a3 := rfl
@[simp] theorem classHeld_atTick (n : Nat) (s : State) (a2 : ℕ) : classHeld (atTick n s) a2 = classHeld s a2 := rfl
@[simp] theorem classRec_atTick (n : Nat) (s : State) (a2 : ℕ) : classRec (atTick n s) a2 = classRec s a2 := rfl
@[simp] theorem clkStatus_atTick (n : Nat) (s : State) : clkStatus (atTick n s) = clkStatus s := rfl
@[simp] theorem cluster_atTick (n : Nat) (s : State) (a2 : ℕ) : cluster (atTick n s) a2 = cluster s a2 := rfl
@[simp] theorem clusterSlotOf_atTick (n : Nat) (s : State) (a2 : ℕ) (a3 : CoreSlot → Bool) : clusterSlotOf (atTick n s) a2 a3 = clusterSlotOf s a2 a3 := rfl
@[simp] theorem clusterTests_atTick (n : Nat) (s : State) (a2 : ℕ) : clusterTests (atTick n s) a2 = clusterTests s a2 := rfl
@[simp] theorem clustersIn_atTick (n : Nat) (s : State) : clustersIn (atTick n s) = clustersIn s := rfl
@[simp] theorem cmRead_atTick (n : Nat) (s : State) (a2 : ℕ) (a3 : ℕ) (a4 : ℕ) : cmRead (atTick n s) a2 a3 a4 = cmRead s a2 a3 a4 := rfl
@[simp] theorem cmTags_atTick (n : Nat) (s : State) (a2 : ℕ) (a3 : ℕ) (a4 : ℕ) : cmTags (atTick n s) a2 a3 a4 = cmTags s a2 a3 a4 := rfl
@[simp] theorem codedAt_atTick (n : Nat) (s : State) (a2 : ℕ) (a3 : ℕ) (a4 : ℕ) : codedAt (atTick n s) a2 a3 a4 = codedAt s a2 a3 a4 := rfl
@[simp] theorem collectors_atTick (n : Nat) (s : State) : collectors (atTick n s) = collectors s := rfl
@[simp] theorem commitComps_atTick (n : Nat) (s : State) (a2 : ℕ) : commitComps (atTick n s) a2 = commitComps s a2 := rfl
@[simp] theorem compOf_atTick (n : Nat) (s : State) (a2 : Berth) : compOf (atTick n s) a2 = compOf s a2 := rfl
@[simp] theorem compOfQp_atTick (n : Nat) (s : State) (a2 : ℕ) : compOfQp (atTick n s) a2 = compOfQp s a2 := rfl
@[simp] theorem compRec_atTick (n : Nat) (s : State) (a2 : ℕ) : compRec (atTick n s) a2 = compRec s a2 := rfl
@[simp] theorem compServed_atTick (n : Nat) (s : State) (a2 : ℕ) : compServed (atTick n s) a2 = compServed s a2 := rfl
@[simp] theorem configHeader_atTick (n : Nat) (s : State) (a2 : ℕ) : configHeader (atTick n s) a2 = configHeader s a2 := rfl
@[simp] theorem contextRead_atTick (n : Nat) (s : State) (a2 : Batch) (a3 : ℕ) (a4 : ℕ) : contextRead (atTick n s) a2 a3 a4 = contextRead s a2 a3 a4 := rfl
@[simp] theorem copiesBy_atTick (n : Nat) (s : State) (a2 : Frame → Bool) : copiesBy (atTick n s) a2 = copiesBy s a2 := rfl
@[simp] theorem copyGood_atTick (n : Nat) (s : State) (a2 : Stake) (a3 : StakeCopy) (a4 : ℕ) (a5 : ℕ) : copyGood (atTick n s) a2 a3 a4 a5 = copyGood s a2 a3 a4 a5 := rfl
@[simp] theorem copyHeld_atTick (n : Nat) (s : State) (a2 : CopyItem) : copyHeld (atTick n s) a2 = copyHeld s a2 := rfl
@[simp] theorem copyOf_atTick (n : Nat) (s : State) (a2 : ℕ) (a3 : ℕ) (a4 : ℕ) : copyOf (atTick n s) a2 a3 a4 = copyOf s a2 a3 a4 := rfl
@[simp] theorem copyWaits_atTick (n : Nat) (s : State) (a2 : ℕ) : copyWaits (atTick n s) a2 = copyWaits s a2 := rfl
@[simp] theorem coreSlot_atTick (n : Nat) (s : State) (a2 : ℕ) : coreSlot (atTick n s) a2 = coreSlot s a2 := rfl
@[simp] theorem coresIn_atTick (n : Nat) (s : State) (a2 : ℕ) : coresIn (atTick n s) a2 = coresIn s a2 := rfl
@[simp] theorem coresServing_atTick (n : Nat) (s : State) : coresServing (atTick n s) = coresServing s := rfl
@[simp] theorem countersRaised_atTick (n : Nat) (s : State) : countersRaised (atTick n s) = countersRaised s := rfl
@[simp] theorem coverOf_atTick (n : Nat) (s : State) (a2 : ℕ) : coverOf (atTick n s) a2 = coverOf s a2 := rfl
@[simp] theorem cperBytes_atTick (n : Nat) (s : State) (a2 : ErrRec) : cperBytes (atTick n s) a2 = cperBytes s a2 := rfl
@[simp] theorem cperHeader_atTick (n : Nat) (s : State) (a2 : ErrRec) : cperHeader (atTick n s) a2 = cperHeader s a2 := rfl
@[simp] theorem cperRecordId_atTick (n : Nat) (s : State) (a2 : ErrRec) : cperRecordId (atTick n s) a2 = cperRecordId s a2 := rfl
@[simp] theorem cqFits_atTick (n : Nat) (s : State) (a2 : ℕ) (a3 : Bytes) : cqFits (atTick n s) a2 a3 = cqFits s a2 a3 := rfl
@[simp] theorem cqRing_atTick (n : Nat) (s : State) (a2 : ℕ) : cqRing (atTick n s) a2 = cqRing s a2 := rfl
@[simp] theorem cqSlots_atTick (n : Nat) (s : State) (a2 : ℕ) : cqSlots (atTick n s) a2 = cqSlots s a2 := rfl
@[simp] theorem creditOf_atTick (n : Nat) (s : State) (a2 : ℕ) : creditOf (atTick n s) a2 = creditOf s a2 := rfl
@[simp] theorem creditShort_atTick (n : Nat) (s : State) (a2 : ℕ) : creditShort (atTick n s) a2 = creditShort s a2 := rfl
@[simp] theorem ctxOf_atTick (n : Nat) (s : State) (a2 : Berth) (a3 : ℕ) : ctxOf (atTick n s) a2 a3 = ctxOf s a2 a3 := rfl
@[simp] theorem curEntry_atTick (n : Nat) (s : State) (a2 : ℕ) : curEntry (atTick n s) a2 = curEntry s a2 := rfl
@[simp] theorem curRun_atTick (n : Nat) (s : State) : curRun (atTick n s) = curRun s := rfl
@[simp] theorem curStake_atTick (n : Nat) (s : State) : curStake (atTick n s) = curStake s := rfl
@[simp] theorem curVariant_atTick (n : Nat) (s : State) (a2 : ℕ) : curVariant (atTick n s) a2 = curVariant s a2 := rfl
@[simp] theorem dataCame_atTick (n : Nat) (s : State) (a2 : ℕ) (a3 : ℕ) (a4 : Bytes) : dataCame (atTick n s) a2 a3 a4 = dataCame s a2 a3 a4 := rfl
@[simp] theorem degradedOk_atTick (n : Nat) (s : State) : degradedOk (atTick n s) = degradedOk s := rfl
@[simp] theorem demoteNext_atTick (n : Nat) (s : State) : demoteNext (atTick n s) = demoteNext s := rfl
@[simp] theorem descByte_atTick (n : Nat) (s : State) (a2 : ℕ) : descByte (atTick n s) a2 = descByte s a2 := rfl
@[simp] theorem descImage_atTick (n : Nat) (s : State) (a2 : ℕ) (a3 : Frame) : descImage (atTick n s) a2 a3 = descImage s a2 a3 := rfl
@[simp] theorem dieContexts_atTick (n : Nat) (s : State) (a2 : ℕ) : dieContexts (atTick n s) a2 = dieContexts s a2 := rfl
@[simp] theorem diePinned_atTick (n : Nat) (s : State) (a2 : ℕ) : diePinned (atTick n s) a2 = diePinned s a2 := rfl
@[simp] theorem dieQueued_atTick (n : Nat) (s : State) (a2 : ℕ) : dieQueued (atTick n s) a2 = dieQueued s a2 := rfl
@[simp] theorem dieTracks_atTick (n : Nat) (s : State) (a2 : ℕ) : dieTracks (atTick n s) a2 = dieTracks s a2 := rfl
@[simp] theorem directEntry_atTick (n : Nat) (s : State) (a2 : ℕ) : directEntry (atTick n s) a2 = directEntry s a2 := rfl
@[simp] theorem discarding_atTick (n : Nat) (s : State) (a2 : ℕ) (a3 : Pkt) : discarding (atTick n s) a2 a3 = discarding s a2 a3 := rfl
@[simp] theorem dropAt_atTick (n : Nat) (s : State) (a2 : ℕ) : dropAt (atTick n s) a2 = dropAt s a2 := rfl
@[simp] theorem dropNames_atTick (n : Nat) (s : State) (a2 : Pkt) : dropNames (atTick n s) a2 = dropNames s a2 := rfl
@[simp] theorem dropOfTag_atTick (n : Nat) (s : State) (a2 : ℕ) : dropOfTag (atTick n s) a2 = dropOfTag s a2 := rfl
@[simp] theorem droppable_atTick (n : Nat) (s : State) (a2 : Frame) : droppable (atTick n s) a2 = droppable s a2 := rfl
@[simp] theorem enTileLen_atTick (n : Nat) (s : State) (a2 : Bytes) : enTileLen (atTick n s) a2 = enTileLen s a2 := rfl
@[simp] theorem endsAbsent_atTick (n : Nat) (s : State) (a2 : Berth) : endsAbsent (atTick n s) a2 = endsAbsent s a2 := rfl
@[simp] theorem endsAtWatchdog_atTick (n : Nat) (s : State) : endsAtWatchdog (atTick n s) = endsAtWatchdog s := rfl
@[simp] theorem enginesFree_atTick (n : Nat) (s : State) (a2 : ℕ) (a3 : ℕ) (a4 : Bytes) : enginesFree (atTick n s) a2 a3 a4 = enginesFree s a2 a3 a4 := rfl
@[simp] theorem entriesDone_atTick (n : Nat) (s : State) (a2 : ℕ) (a3 : ℕ) : entriesDone (atTick n s) a2 a3 = entriesDone s a2 a3 := rfl
@[simp] theorem entryAreas_atTick (n : Nat) (s : State) (a2 : Bytes) : entryAreas (atTick n s) a2 = entryAreas s a2 := rfl
@[simp] theorem entryCores_atTick (n : Nat) (s : State) (a2 : ℕ) (a3 : Bytes) : entryCores (atTick n s) a2 a3 = entryCores s a2 a3 := rfl
@[simp] theorem entryOf_atTick (n : Nat) (s : State) (a2 : ℕ) (a3 : ℕ) : entryOf (atTick n s) a2 a3 = entryOf s a2 a3 := rfl
@[simp] theorem entryPositions_atTick (n : Nat) (s : State) (a2 : ℕ) (a3 : Bytes) : entryPositions (atTick n s) a2 a3 = entryPositions s a2 a3 := rfl
@[simp] theorem entryShown_atTick (n : Nat) (s : State) (a2 : PtEntry) : entryShown (atTick n s) a2 = entryShown s a2 := rfl
@[simp] theorem entryStages_atTick (n : Nat) (s : State) (a2 : Run) (a3 : Bytes) : entryStages (atTick n s) a2 a3 = entryStages s a2 a3 := rfl
@[simp] theorem escIgnore_atTick (n : Nat) (s : State) : escIgnore (atTick n s) = escIgnore s := rfl
@[simp] theorem evictChoice_atTick (n : Nat) (s : State) (a2 : ℕ) : evictChoice (atTick n s) a2 = evictChoice s a2 := rfl
@[simp] theorem evictSlot_atTick (n : Nat) (s : State) : evictSlot (atTick n s) = evictSlot s := rfl
@[simp] theorem exEntry_atTick (n : Nat) (s : State) (a2 : Exchange) (a3 : ℕ) : exEntry (atTick n s) a2 a3 = exEntry s a2 a3 := rfl
@[simp] theorem expandBufs_atTick (n : Nat) (s : State) (a2 : ℕ) (a3 : Bytes) : expandBufs (atTick n s) a2 a3 = expandBufs s a2 a3 := rfl
@[simp] theorem expandRecs_atTick (n : Nat) (s : State) (a2 : ℕ) (a3 : ℕ) : expandRecs (atTick n s) a2 a3 = expandRecs s a2 a3 := rfl
@[simp] theorem expandTileOf_atTick (n : Nat) (s : State) (a2 : Bytes) (a3 : Fetched) (a4 : ℕ) (a5 : Bool) : expandTileOf (atTick n s) a2 a3 a4 a5 = expandTileOf s a2 a3 a4 a5 := rfl
@[simp] theorem extFind_atTick (n : Nat) (s : State) (a2 : ℕ) (a3 : ℕ) : extFind (atTick n s) a2 a3 = extFind s a2 a3 := rfl
@[simp] theorem extRead_atTick (n : Nat) (s : State) (a2 : List ℕ) (a3 : ℕ) (a4 : ℕ) : extRead (atTick n s) a2 a3 a4 = extRead s a2 a3 a4 := rfl
@[simp] theorem extentsLeft_atTick (n : Nat) (s : State) (a2 : Bool) : extentsLeft (atTick n s) a2 = extentsLeft s a2 := rfl
@[simp] theorem farSource_atTick (n : Nat) (s : State) (a2 : Path) : farSource (atTick n s) a2 = farSource s a2 := rfl
@[simp] theorem featureOn_atTick (n : Nat) (s : State) (a2 : ℕ) : featureOn (atTick n s) a2 = featureOn s a2 := rfl
@[simp] theorem fetchMem_atTick (n : Nat) (s : State) (a2 : ℕ) (a3 : ℕ) (a4 : ℕ) : fetchMem (atTick n s) a2 a3 a4 = fetchMem s a2 a3 a4 := rfl
@[simp] theorem fetchPage_atTick (n : Nat) (s : State) (a2 : ℕ) (a3 : ℕ) (a4 : ℕ) : fetchPage (atTick n s) a2 a3 a4 = fetchPage s a2 a3 a4 := rfl
@[simp] theorem fetchRecords_atTick (n : Nat) (s : State) (a2 : Stake) (a3 : ℕ) (a4 : ℕ) (a5 : ℕ) : fetchRecords (atTick n s) a2 a3 a4 a5 = fetchRecords s a2 a3 a4 a5 := rfl
@[simp] theorem fetchRef_atTick (n : Nat) (s : State) (a2 : ℕ) (a3 : ℕ) : fetchRef (atTick n s) a2 a3 = fetchRef s a2 a3 := rfl
@[simp] theorem fetchSlot_atTick (n : Nat) (s : State) (a2 : Run) (a3 : ℕ) (a4 : ℕ) (a5 : ℕ) : fetchSlot (atTick n s) a2 a3 a4 a5 = fetchSlot s a2 a3 a4 a5 := rfl
@[simp] theorem fetchTensor_atTick (n : Nat) (s : State) (a2 : Stake) (a3 : ℕ) (a4 : ℕ) (a5 : ℕ) : fetchTensor (atTick n s) a2 a3 a4 a5 = fetchTensor s a2 a3 a4 a5 := rfl
@[simp] theorem fill_atTick (n : Nat) (s : State) (a2 : ℕ) (a3 : Filling) (a4 : ℕ × Berth) : fill (atTick n s) a2 a3 a4 = fill s a2 a3 a4 := rfl
@[simp] theorem flagOf_atTick (n : Nat) (s : State) (a2 : ℕ) (a3 : ℕ) : flagOf (atTick n s) a2 a3 = flagOf s a2 a3 := rfl
@[simp] theorem fnAnswers_atTick (n : Nat) (s : State) (a2 : ℕ) : fnAnswers (atTick n s) a2 = fnAnswers s a2 := rfl
@[simp] theorem fnExists_atTick (n : Nat) (s : State) (a2 : ℕ) : fnExists (atTick n s) a2 = fnExists s a2 := rfl
@[simp] theorem fnQps_atTick (n : Nat) (s : State) (a2 : ℕ) : fnQps (atTick n s) a2 = fnQps s a2 := rfl
@[simp] theorem foldFetch_atTick (n : Nat) (s : State) (a2 : ℕ) : foldFetch (atTick n s) a2 = foldFetch s a2 := rfl
@[simp] theorem forwards_atTick (n : Nat) (s : State) (a2 : Pkt) : forwards (atTick n s) a2 = forwards s a2 := rfl
@[simp] theorem frameAt_atTick (n : Nat) (s : State) (a2 : ℕ) : frameAt (atTick n s) a2 = frameAt s a2 := rfl
@[simp] theorem frameDpa_atTick (n : Nat) (s : State) (a2 : ℕ) : frameDpa (atTick n s) a2 = frameDpa s a2 := rfl
@[simp] theorem frameFree_atTick (n : Nat) (s : State) (a2 : ℕ) : frameFree (atTick n s) a2 = frameFree s a2 := rfl
@[simp] theorem frameNo_atTick (n : Nat) (s : State) (a2 : ℕ) : frameNo (atTick n s) a2 = frameNo s a2 := rfl
@[simp] theorem frameOpaque_atTick (n : Nat) (s : State) (a2 : ℕ) : frameOpaque (atTick n s) a2 = frameOpaque s a2 := rfl
@[simp] theorem frameRanges_atTick (n : Nat) (s : State) (a2 : Bool) : frameRanges (atTick n s) a2 = frameRanges s a2 := rfl
@[simp] theorem frameRegion_atTick (n : Nat) (s : State) (a2 : ℕ) : frameRegion (atTick n s) a2 = frameRegion s a2 := rfl
@[simp] theorem frameTake_atTick (n : Nat) (s : State) (a2 : Bool) : frameTake (atTick n s) a2 = frameTake s a2 := rfl
@[simp] theorem frameWaits_atTick (n : Nat) (s : State) (a2 : ℕ) (a3 : Bool) (a4 : ℕ) (a5 : ℕ) : frameWaits (atTick n s) a2 a3 a4 a5 = frameWaits s a2 a3 a4 a5 := rfl
@[simp] theorem frameWhat_atTick (n : Nat) (s : State) (a2 : TxFrame) : frameWhat (atTick n s) a2 = frameWhat s a2 := rfl
@[simp] theorem framesAllowed_atTick (n : Nat) (s : State) (a2 : ℕ) (a3 : ℕ) : framesAllowed (atTick n s) a2 a3 = framesAllowed s a2 a3 := rfl
@[simp] theorem framesComing_atTick (n : Nat) (s : State) : framesComing (atTick n s) = framesComing s := rfl
@[simp] theorem framesFree_atTick (n : Nat) (s : State) : framesFree (atTick n s) = framesFree s := rfl
@[simp] theorem framesHeld_atTick (n : Nat) (s : State) (a2 : ℕ) : framesHeld (atTick n s) a2 = framesHeld s a2 := rfl
@[simp] theorem framesInService_atTick (n : Nat) (s : State) : framesInService (atTick n s) = framesInService s := rfl
@[simp] theorem framesSoon_atTick (n : Nat) (s : State) : framesSoon (atTick n s) = framesSoon s := rfl
@[simp] theorem fwGenOf_atTick (n : Nat) (s : State) (a2 : Bytes) : fwGenOf (atTick n s) a2 = fwGenOf s a2 := rfl
@[simp] theorem fwdCheck_atTick (n : Nat) (s : State) (a2 : ℕ) : fwdCheck (atTick n s) a2 = fwdCheck s a2 := rfl
@[simp] theorem fwdNear_atTick (n : Nat) (s : State) (a2 : ℕ) (a3 : ℕ) (a4 : Pkt) : fwdNear (atTick n s) a2 a3 a4 = fwdNear s a2 a3 a4 := rfl
@[simp] theorem fwdQp_atTick (n : Nat) (s : State) (a2 : ℕ) : fwdQp (atTick n s) a2 = fwdQp s a2 := rfl
@[simp] theorem fwdValid_atTick (n : Nat) (s : State) (a2 : ℕ) : fwdValid (atTick n s) a2 = fwdValid s a2 := rfl
@[simp] theorem gateBad_atTick (n : Nat) (s : State) (a2 : ℕ) (a3 : ℕ) : gateBad (atTick n s) a2 a3 = gateBad s a2 a3 := rfl
@[simp] theorem gateWindows_atTick (n : Nat) (s : State) : gateWindows (atTick n s) = gateWindows s := rfl
@[simp] theorem globalPages_atTick (n : Nat) (s : State) (a2 : ℕ) : globalPages (atTick n s) a2 = globalPages s a2 := rfl
@[simp] theorem gradeOk_atTick (n : Nat) (s : State) : gradeOk (atTick n s) = gradeOk s := rfl
@[simp] theorem gwRoom_atTick (n : Nat) (s : State) (a2 : Fab) : gwRoom (atTick n s) a2 = gwRoom s a2 := rfl
@[simp] theorem gwShare_atTick (n : Nat) (s : State) (a2 : ℕ) : gwShare (atTick n s) a2 = gwShare s a2 := rfl
@[simp] theorem gwUsed_atTick (n : Nat) (s : State) (a2 : ℕ) : gwUsed (atTick n s) a2 = gwUsed s a2 := rfl
@[simp] theorem halfIeee_atTick (n : Nat) (s : State) : halfIeee (atTick n s) = halfIeee s := rfl
@[simp] theorem handoffFrames_atTick (n : Nat) (s : State) (a2 : Berth) : handoffFrames (atTick n s) a2 = handoffFrames s a2 := rfl
@[simp] theorem handoffTmo_atTick (n : Nat) (s : State) : handoffTmo (atTick n s) = handoffTmo s := rfl
@[simp] theorem hasReady_atTick (n : Nat) (s : State) (a2 : ℕ) : hasReady (atTick n s) a2 = hasReady s a2 := rfl
@[simp] theorem hbmPageBase_atTick (n : Nat) (s : State) (a2 : ℕ) : hbmPageBase (atTick n s) a2 = hbmPageBase s a2 := rfl
@[simp] theorem hbmServes_atTick (n : Nat) (s : State) (a2 : ℕ) : hbmServes (atTick n s) a2 = hbmServes s a2 := rfl
@[simp] theorem hbmWithyBase_atTick (n : Nat) (s : State) (a2 : ℕ) : hbmWithyBase (atTick n s) a2 = hbmWithyBase s a2 := rfl
@[simp] theorem helloMsg_atTick (n : Nat) (s : State) (a2 : ℕ) : helloMsg (atTick n s) a2 = helloMsg s a2 := rfl
@[simp] theorem helloOf_atTick (n : Nat) (s : State) (a2 : ℕ) : helloOf (atTick n s) a2 = helloOf s a2 := rfl
@[simp] theorem helloResult_atTick (n : Nat) (s : State) (a2 : ℕ) : helloResult (atTick n s) a2 = helloResult s a2 := rfl
@[simp] theorem holderHas_atTick (n : Nat) (s : State) (a2 : Exchange) (a3 : ℕ) (a4 : ℕ) : holderHas (atTick n s) a2 a3 a4 = holderHas s a2 a3 a4 := rfl
@[simp] theorem holdersOf_atTick (n : Nat) (s : State) (a2 : ℕ) (a3 : Berth) : holdersOf (atTick n s) a2 a3 = holdersOf s a2 a3 := rfl
@[simp] theorem hostHeard_atTick (n : Nat) (s : State) : hostHeard (atTick n s) = hostHeard s := rfl
@[simp] theorem i3cId_atTick (n : Nat) (s : State) : i3cId (atTick n s) = i3cId s := rfl
@[simp] theorem identityDigest_atTick (n : Nat) (s : State) : identityDigest (atTick n s) = identityDigest s := rfl
@[simp] theorem imageParts_atTick (n : Nat) (s : State) (a2 : Pkt) : imageParts (atTick n s) a2 = imageParts s a2 := rfl
@[simp] theorem inRun_atTick (n : Nat) (s : State) (a2 : ℕ) : inRun (atTick n s) a2 = inRun s a2 := rfl
@[simp] theorem incarnOf_atTick (n : Nat) (s : State) (a2 : ℕ) : incarnOf (atTick n s) a2 = incarnOf s a2 := rfl
@[simp] theorem inputReady_atTick (n : Nat) (s : State) (a2 : ℕ) (a3 : Bytes) : inputReady (atTick n s) a2 a3 = inputReady s a2 a3 := rfl
@[simp] theorem interfaceId_atTick (n : Nat) (s : State) : interfaceId (atTick n s) = interfaceId s := rfl
@[simp] theorem isCandidate_atTick (n : Nat) (s : State) (a2 : ℕ) (a3 : Berth) : isCandidate (atTick n s) a2 a3 = isCandidate s a2 a3 := rfl
@[simp] theorem isRunning_atTick (n : Nat) (s : State) (a2 : ℕ) : isRunning (atTick n s) a2 = isRunning s a2 := rfl
@[simp] theorem isWithdrawn_atTick (n : Nat) (s : State) (a2 : ℕ) (a3 : ℕ) : isWithdrawn (atTick n s) a2 a3 = isWithdrawn s a2 a3 := rfl
@[simp] theorem joinsRun_atTick (n : Nat) (s : State) (a2 : Exchange) (a3 : Place) (a4 : ℕ) : joinsRun (atTick n s) a2 a3 a4 = joinsRun s a2 a3 a4 := rfl
@[simp] theorem keyAddr_atTick (n : Nat) (s : State) (a2 : ℕ) (a3 : ℕ) (a4 : ℕ) (a5 : ℕ) (a6 : ℕ) : keyAddr (atTick n s) a2 a3 a4 a5 a6 = keyAddr s a2 a3 a4 a5 a6 := rfl
@[simp] theorem kvGeometry_atTick (n : Nat) (s : State) : kvGeometry (atTick n s) = kvGeometry s := rfl
@[simp] theorem kvLayers_atTick (n : Nat) (s : State) : kvLayers (atTick n s) = kvLayers s := rfl
@[simp] theorem laneReached_atTick (n : Nat) (s : State) (a2 : ℕ) : laneReached (atTick n s) a2 = laneReached s a2 := rfl
@[simp] theorem leavesNow_atTick (n : Nat) (s : State) (a2 : Run) (a3 : ℕ) : leavesNow (atTick n s) a2 a3 = leavesNow s a2 a3 := rfl
@[simp] theorem levelAfter_atTick (n : Nat) (s : State) (a2 : List ℕ) (a3 : Bool) : levelAfter (atTick n s) a2 a3 = levelAfter s a2 a3 := rfl
@[simp] theorem libAreas_atTick (n : Nat) (s : State) : libAreas (atTick n s) = libAreas s := rfl
@[simp] theorem libFree_atTick (n : Nat) (s : State) : libFree (atTick n s) = libFree s := rfl
@[simp] theorem libUsed_atTick (n : Nat) (s : State) : libUsed (atTick n s) = libUsed s := rfl
@[simp] theorem licValid_atTick (n : Nat) (s : State) (a2 : Bytes) : licValid (atTick n s) a2 = licValid s a2 := rfl
@[simp] theorem lighterOf_atTick (n : Nat) (s : State) (a2 : ℕ) : lighterOf (atTick n s) a2 = lighterOf s a2 := rfl
@[simp] theorem lighterPuts_atTick (n : Nat) (s : State) (a2 : ℕ) : lighterPuts (atTick n s) a2 = lighterPuts s a2 := rfl
@[simp] theorem lineDepth_atTick (n : Nat) (s : State) (a2 : ℕ) : lineDepth (atTick n s) a2 = lineDepth s a2 := rfl
@[simp] theorem linePoisoned_atTick (n : Nat) (s : State) (a2 : ℕ) : linePoisoned (atTick n s) a2 = linePoisoned s a2 := rfl
@[simp] theorem lineQueue_atTick (n : Nat) (s : State) (a2 : ℕ) : lineQueue (atTick n s) a2 = lineQueue s a2 := rfl
@[simp] theorem lineRead_atTick (n : Nat) (s : State) (a2 : ℕ) : lineRead (atTick n s) a2 = lineRead s a2 := rfl
@[simp] theorem lineRoom_atTick (n : Nat) (s : State) (a2 : ℕ) : lineRoom (atTick n s) a2 = lineRoom s a2 := rfl
@[simp] theorem linkUs_atTick (n : Nat) (s : State) (a2 : Path) : linkUs (atTick n s) a2 = linkUs s a2 := rfl
@[simp] theorem loadOf_atTick (n : Nat) (s : State) (a2 : LoadName) : loadOf (atTick n s) a2 = loadOf s a2 := rfl
@[simp] theorem loadsCome_atTick (n : Nat) (s : State) (a2 : ℕ) (a3 : Bytes) : loadsCome (atTick n s) a2 a3 = loadsCome s a2 a3 := rfl
@[simp] theorem localPages_atTick (n : Nat) (s : State) (a2 : Exchange) (a3 : ℕ) : localPages (atTick n s) a2 a3 = localPages s a2 a3 := rfl
@[simp] theorem localRun_atTick (n : Nat) (s : State) (a2 : Run) (a3 : Suspect) : localRun (atTick n s) a2 a3 = localRun s a2 a3 := rfl
@[simp] theorem localSpan_atTick (n : Nat) (s : State) (a2 : Berth) (a3 : ℕ) (a4 : ℕ) : localSpan (atTick n s) a2 a3 a4 = localSpan s a2 a3 a4 := rfl
@[simp] theorem localWaits_atTick (n : Nat) (s : State) : localWaits (atTick n s) = localWaits s := rfl
@[simp] theorem lpxAny_atTick (n : Nat) (s : State) : lpxAny (atTick n s) = lpxAny s := rfl
@[simp] theorem lpxDeviceServes_atTick (n : Nat) (s : State) (a2 : ℕ) : lpxDeviceServes (atTick n s) a2 = lpxDeviceServes s a2 := rfl
@[simp] theorem lpxPageBase_atTick (n : Nat) (s : State) (a2 : ℕ) : lpxPageBase (atTick n s) a2 = lpxPageBase s a2 := rfl
@[simp] theorem lpxServes_atTick (n : Nat) (s : State) (a2 : ℕ) : lpxServes (atTick n s) a2 = lpxServes s a2 := rfl
@[simp] theorem lpxWithyBase_atTick (n : Nat) (s : State) (a2 : ℕ) : lpxWithyBase (atTick n s) a2 = lpxWithyBase s a2 := rfl
@[simp] theorem manBudget_atTick (n : Nat) (s : State) (a2 : ℕ) : manBudget (atTick n s) a2 = manBudget s a2 := rfl
@[simp] theorem manEpochOk_atTick (n : Nat) (s : State) (a2 : Berth) (a3 : Pkt) : manEpochOk (atTick n s) a2 a3 = manEpochOk s a2 a3 := rfl
@[simp] theorem mayStart_atTick (n : Nat) (s : State) : mayStart (atTick n s) = mayStart s := rfl
@[simp] theorem mayStartRun_atTick (n : Nat) (s : State) (a2 : ℕ) : mayStartRun (atTick n s) a2 = mayStartRun s a2 := rfl
@[simp] theorem mayTake_atTick (n : Nat) (s : State) (a2 : CompRec → ℕ) (a3 : CompRec → ℕ) (a4 : ℕ → ℕ) (a5 : ℕ) (a6 : ℕ) (a7 : ℕ) : mayTake (atTick n s) a2 a3 a4 a5 a6 a7 = mayTake s a2 a3 a4 a5 a6 a7 := rfl
@[simp] theorem mayWeave_atTick (n : Nat) (s : State) (a2 : ℕ) (a3 : Berth) : mayWeave (atTick n s) a2 a3 = mayWeave s a2 a3 := rfl
@[simp] theorem mayWrite_atTick (n : Nat) (s : State) (a2 : ℕ) (a3 : ℕ) : mayWrite (atTick n s) a2 a3 = mayWrite s a2 a3 := rfl
@[simp] theorem memRead_atTick (n : Nat) (s : State) (a2 : ℕ) (a3 : ℕ) : memRead (atTick n s) a2 a3 = memRead s a2 a3 := rfl
@[simp] theorem memTags_atTick (n : Nat) (s : State) (a2 : ℕ) (a3 : ℕ) : memTags (atTick n s) a2 a3 = memTags s a2 a3 := rfl
@[simp] theorem meterOf_atTick (n : Nat) (s : State) (a2 : ℕ) : meterOf (atTick n s) a2 = meterOf s a2 := rfl
@[simp] theorem mgtAddresses_atTick (n : Nat) (s : State) : mgtAddresses (atTick n s) = mgtAddresses s := rfl
@[simp] theorem mgtRuns_atTick (n : Nat) (s : State) : mgtRuns (atTick n s) = mgtRuns s := rfl
@[simp] theorem midOf_atTick (n : Nat) (s : State) (a2 : ℕ) : midOf (atTick n s) a2 = midOf s a2 := rfl
@[simp] theorem mirrorPair_atTick (n : Nat) (s : State) (a2 : DropJob) : mirrorPair (atTick n s) a2 = mirrorPair s a2 := rfl
@[simp] theorem mmaReady_atTick (n : Nat) (s : State) (a2 : ℕ) (a3 : Bytes) : mmaReady (atTick n s) a2 a3 = mmaReady s a2 a3 := rfl
@[simp] theorem mmaRowBlocks_atTick (n : Nat) (s : State) (a2 : ℕ) (a3 : Bytes) (a4 : TileBuf) (a5 : Bool) (a6 : ℕ) : mmaRowBlocks (atTick n s) a2 a3 a4 a5 a6 = mmaRowBlocks s a2 a3 a4 a5 a6 := rfl
@[simp] theorem mmaRowHalf_atTick (n : Nat) (s : State) (a2 : ℕ) (a3 : Bytes) (a4 : TileBuf) (a5 : Bool) (a6 : ℕ) (a7 : List ℕ) (a8 : Bool) (a9 : ℕ) : mmaRowHalf (atTick n s) a2 a3 a4 a5 a6 a7 a8 a9 = mmaRowHalf s a2 a3 a4 a5 a6 a7 a8 a9 := rfl
@[simp] theorem mmaRows_atTick (n : Nat) (s : State) (a2 : Bytes) : mmaRows (atTick n s) a2 = mmaRows s a2 := rfl
@[simp] theorem moorCap_atTick (n : Nat) (s : State) (a2 : ℕ) : moorCap (atTick n s) a2 = moorCap s a2 := rfl
@[simp] theorem moorUsed_atTick (n : Nat) (s : State) (a2 : ℕ) : moorUsed (atTick n s) a2 = moorUsed s a2 := rfl
@[simp] theorem moveAt_atTick (n : Nat) (s : State) (a2 : ℕ) : moveAt (atTick n s) a2 = moveAt s a2 := rfl
@[simp] theorem moveBudget_atTick (n : Nat) (s : State) (a2 : Move) : moveBudget (atTick n s) a2 = moveBudget s a2 := rfl
@[simp] theorem moveOfTag_atTick (n : Nat) (s : State) (a2 : ℕ) : moveOfTag (atTick n s) a2 = moveOfTag s a2 := rfl
@[simp] theorem movePartner_atTick (n : Nat) (s : State) (a2 : Move) (a3 : ℕ) : movePartner (atTick n s) a2 a3 = movePartner s a2 a3 := rfl
@[simp] theorem moveQueue_atTick (n : Nat) (s : State) (a2 : ℕ) : moveQueue (atTick n s) a2 = moveQueue s a2 := rfl
@[simp] theorem moveRows_atTick (n : Nat) (s : State) (a2 : ℕ) (a3 : Bytes) : moveRows (atTick n s) a2 a3 = moveRows s a2 a3 := rfl
@[simp] theorem moveTmoTicks_atTick (n : Nat) (s : State) : moveTmoTicks (atTick n s) = moveTmoTicks s := rfl
@[simp] theorem msixVec_atTick (n : Nat) (s : State) (a2 : ℕ) (a3 : ℕ) : msixVec (atTick n s) a2 a3 = msixVec s a2 a3 := rfl
@[simp] theorem namedCores_atTick (n : Nat) (s : State) (a2 : ℕ) (a3 : Bytes) : namedCores (atTick n s) a2 a3 = namedCores s a2 a3 := rfl
@[simp] theorem namesTile_atTick (n : Nat) (s : State) (a2 : Run) (a3 : Bytes) (a4 : Bytes) (a5 : StagedTile) (a6 : ℕ) : namesTile (atTick n s) a2 a3 a4 a5 a6 = namesTile s a2 a3 a4 a5 a6 := rfl
@[simp] theorem nextPeer_atTick (n : Nat) (s : State) (a2 : ℕ) (a3 : Option ℕ) : nextPeer (atTick n s) a2 a3 = nextPeer s a2 a3 := rfl
@[simp] theorem nextWeaveFrames_atTick (n : Nat) (s : State) (a2 : Berth) (a3 : Snapshot) : nextWeaveFrames (atTick n s) a2 a3 = nextWeaveFrames s a2 a3 := rfl
@[simp] theorem noLighter_atTick (n : Nat) (s : State) (a2 : ℕ) : noLighter (atTick n s) a2 = noLighter s a2 := rfl
@[simp] theorem noTranscode_atTick (n : Nat) (s : State) (a2 : Pkt) : noTranscode (atTick n s) a2 = noTranscode s a2 := rfl
@[simp] theorem objectCodeAt_atTick (n : Nat) (s : State) (a2 : ℕ) : objectCodeAt (atTick n s) a2 = objectCodeAt s a2 := rfl
@[simp] theorem objectGranules_atTick (n : Nat) (s : State) (a2 : MovedObject) : objectGranules (atTick n s) a2 = objectGranules s a2 := rfl
@[simp] theorem objectHolds_atTick (n : Nat) (s : State) (a2 : ℕ) (a3 : DamagedObject) : objectHolds (atTick n s) a2 a3 = objectHolds s a2 a3 := rfl
@[simp] theorem objectOf_atTick (n : Nat) (s : State) (a2 : ℕ) : objectOf (atTick n s) a2 = objectOf s a2 := rfl
@[simp] theorem oldPartner_atTick (n : Nat) (s : State) (a2 : Pkt) : oldPartner (atTick n s) a2 = oldPartner s a2 := rfl
@[simp] theorem oldestNeed_atTick (n : Nat) (s : State) (a2 : ℕ) : oldestNeed (atTick n s) a2 = oldestNeed s a2 := rfl
@[simp] theorem openIndex_atTick (n : Nat) (s : State) (a2 : Berth) : openIndex (atTick n s) a2 = openIndex s a2 := rfl
@[simp] theorem operatorSigned_atTick (n : Nat) (s : State) (a2 : Bytes) (a3 : ℕ) : operatorSigned (atTick n s) a2 a3 = operatorSigned s a2 a3 := rfl
@[simp] theorem overCap_atTick (n : Nat) (s : State) : overCap (atTick n s) = overCap s := rfl
@[simp] theorem ovfNeed_atTick (n : Nat) (s : State) (a2 : Berth) : ovfNeed (atTick n s) a2 = ovfNeed s a2 := rfl
@[simp] theorem ovfPlace_atTick (n : Nat) (s : State) (a2 : List ℕ) (a3 : ℕ) : ovfPlace (atTick n s) a2 a3 = ovfPlace s a2 a3 := rfl
@[simp] theorem ownCopyGood_atTick (n : Nat) (s : State) (a2 : ℕ) : ownCopyGood (atTick n s) a2 = ownCopyGood s a2 := rfl
@[simp] theorem ownTag_atTick (n : Nat) (s : State) (a2 : ℕ) : ownTag (atTick n s) a2 = ownTag s a2 := rfl
@[simp] theorem ownedPin_atTick (n : Nat) (s : State) (a2 : ℕ) : ownedPin (atTick n s) a2 = ownedPin s a2 := rfl
@[simp] theorem ownerDead_atTick (n : Nat) (s : State) (a2 : Berth) : ownerDead (atTick n s) a2 = ownerDead s a2 := rfl
@[simp] theorem pageAreas_atTick (n : Nat) (s : State) : pageAreas (atTick n s) = pageAreas s := rfl
@[simp] theorem pageGone_atTick (n : Nat) (s : State) (a2 : Exchange) (a3 : ℕ) : pageGone (atTick n s) a2 a3 = pageGone s a2 a3 := rfl
@[simp] theorem pageIdNow_atTick (n : Nat) (s : State) : pageIdNow (atTick n s) = pageIdNow s := rfl
@[simp] theorem pageP_atTick (n : Nat) (s : State) : pageP (atTick n s) = pageP s := rfl
@[simp] theorem pageTableByte_atTick (n : Nat) (s : State) (a2 : ℕ) : pageTableByte (atTick n s) a2 = pageTableByte s a2 := rfl
@[simp] theorem pagesLeft_atTick (n : Nat) (s : State) (a2 : Bool) : pagesLeft (atTick n s) a2 = pagesLeft s a2 := rfl
@[simp] theorem pagesMoving_atTick (n : Nat) (s : State) (a2 : ℕ) (a3 : Berth) : pagesMoving (atTick n s) a2 a3 = pagesMoving s a2 a3 := rfl
@[simp] theorem passedOver_atTick (n : Nat) (s : State) (a2 : ℕ) (a3 : ℕ) (a4 : ℕ) : passedOver (atTick n s) a2 a3 a4 = passedOver s a2 a3 a4 := rfl
@[simp] theorem pathPort_atTick (n : Nat) (s : State) (a2 : ℕ) (a3 : ℕ) : pathPort (atTick n s) a2 a3 = pathPort s a2 a3 := rfl
@[simp] theorem pdOk_atTick (n : Nat) (s : State) (a2 : Pkt) : pdOk (atTick n s) a2 = pdOk s a2 := rfl
@[simp] theorem peerDevice_atTick (n : Nat) (s : State) (a2 : ℕ) : peerDevice (atTick n s) a2 = peerDevice s a2 := rfl
@[simp] theorem peerOf_atTick (n : Nat) (s : State) (a2 : ℕ) : peerOf (atTick n s) a2 = peerOf s a2 := rfl
@[simp] theorem peerQpn_atTick (n : Nat) (s : State) (a2 : ℕ) : peerQpn (atTick n s) a2 = peerQpn s a2 := rfl
@[simp] theorem pendingEnds_atTick (n : Nat) (s : State) : pendingEnds (atTick n s) = pendingEnds s := rfl
@[simp] theorem pickNeed_atTick (n : Nat) (s : State) (a2 : Pick) : pickNeed (atTick n s) a2 = pickNeed s a2 := rfl
@[simp] theorem pickRows_atTick (n : Nat) (s : State) (a2 : Pick) : pickRows (atTick n s) a2 = pickRows s a2 := rfl
@[simp] theorem picksFrom_atTick (n : Nat) (s : State) (a2 : List (ℕ × Berth)) : picksFrom (atTick n s) a2 = picksFrom s a2 := rfl
@[simp] theorem pinOf_atTick (n : Nat) (s : State) (a2 : ℕ) : pinOf (atTick n s) a2 = pinOf s a2 := rfl
@[simp] theorem placeOf_atTick (n : Nat) (s : State) (a2 : Exchange) (a3 : ℕ) : placeOf (atTick n s) a2 a3 = placeOf s a2 a3 := rfl
@[simp] theorem planOf_atTick (n : Nat) (s : State) (a2 : Run) : planOf (atTick n s) a2 = planOf s a2 := rfl
@[simp] theorem portOf_atTick (n : Nat) (s : State) (a2 : ℕ) : portOf (atTick n s) a2 = portOf s a2 := rfl
@[simp] theorem portUp_atTick (n : Nat) (s : State) (a2 : ℕ) : portUp (atTick n s) a2 = portUp s a2 := rfl
@[simp] theorem portsFor_atTick (n : Nat) (s : State) (a2 : ℕ) : portsFor (atTick n s) a2 = portsFor s a2 := rfl
@[simp] theorem portsUp_atTick (n : Nat) (s : State) : portsUp (atTick n s) = portsUp s := rfl
@[simp] theorem preemptBefore_atTick (n : Nat) (s : State) (a2 : ℕ × Berth) (a3 : ℕ × Berth) : preemptBefore (atTick n s) a2 a3 = preemptBefore s a2 a3 := rfl
@[simp] theorem preemptNext_atTick (n : Nat) (s : State) (a2 : ℕ) : preemptNext (atTick n s) a2 = preemptNext s a2 := rfl
@[simp] theorem qpIdle_atTick (n : Nat) (s : State) (a2 : ℕ) (a3 : Qp) : qpIdle (atTick n s) a2 a3 = qpIdle s a2 a3 := rfl
@[simp] theorem qpOf_atTick (n : Nat) (s : State) (a2 : ℕ) : qpOf (atTick n s) a2 = qpOf s a2 := rfl
@[simp] theorem qpSends_atTick (n : Nat) (s : State) (a2 : ℕ) : qpSends (atTick n s) a2 = qpSends s a2 := rfl
@[simp] theorem quantum_atTick (n : Nat) (s : State) (a2 : ℕ) : quantum (atTick n s) a2 = quantum s a2 := rfl
@[simp] theorem rawPage_atTick (n : Nat) (s : State) (a2 : ℕ) (a3 : Frame) : rawPage (atTick n s) a2 a3 = rawPage s a2 a3 := rfl
@[simp] theorem readStored_atTick (n : Nat) (s : State) (a2 : ℕ) : readStored (atTick n s) a2 = readStored s a2 := rfl
@[simp] theorem readable_atTick (n : Nat) (s : State) : readable (atTick n s) = readable s := rfl
@[simp] theorem readsZero_atTick (n : Nat) (s : State) (a2 : ℕ) : readsZero (atTick n s) a2 = readsZero s a2 := rfl
@[simp] theorem readyComps_atTick (n : Nat) (s : State) : readyComps (atTick n s) = readyComps s := rfl
@[simp] theorem readyRows_atTick (n : Nat) (s : State) (a2 : Berth) : readyRows (atTick n s) a2 = readyRows s a2 := rfl
@[simp] theorem recStep_atTick (n : Nat) (s : State) : recStep (atTick n s) = recStep s := rfl
@[simp] theorem recovering_atTick (n : Nat) (s : State) : recovering (atTick n s) = recovering s := rfl
@[simp] theorem recoveryTakes_atTick (n : Nat) (s : State) (a2 : Pkt) : recoveryTakes (atTick n s) a2 = recoveryTakes s a2 := rfl
@[simp] theorem refFmt_atTick (n : Nat) (s : State) (a2 : ℕ) : refFmt (atTick n s) a2 = refFmt s a2 := rfl
@[simp] theorem refFmtIn_atTick (n : Nat) (s : State) (a2 : Run) (a3 : ℕ) : refFmtIn (atTick n s) a2 a3 = refFmtIn s a2 a3 := rfl
@[simp] theorem refStaged_atTick (n : Nat) (s : State) (a2 : ℕ) (a3 : ℕ) : refStaged (atTick n s) a2 a3 = refStaged s a2 a3 := rfl
@[simp] theorem refStored_atTick (n : Nat) (s : State) (a2 : Run) (a3 : ℕ) (a4 : ℕ) : refStored (atTick n s) a2 a3 a4 = refStored s a2 a3 a4 := rfl
@[simp] theorem refTier_atTick (n : Nat) (s : State) (a2 : ℕ) : refTier (atTick n s) a2 = refTier s a2 := rfl
@[simp] theorem refTierIn_atTick (n : Nat) (s : State) (a2 : Run) (a3 : ℕ) : refTierIn (atTick n s) a2 a3 = refTierIn s a2 a3 := rfl
@[simp] theorem regField_atTick (n : Nat) (s : State) (a2 : ℕ) (a3 : ℕ) (a4 : ℕ) : regField (atTick n s) a2 a3 a4 = regField s a2 a3 a4 := rfl
@[simp] theorem regGet_atTick (n : Nat) (s : State) (a2 : ℕ) : regGet (atTick n s) a2 = regGet s a2 := rfl
@[simp] theorem regionKey_atTick (n : Nat) (s : State) (a2 : ℕ) : regionKey (atTick n s) a2 = regionKey s a2 := rfl
@[simp] theorem regionOfKey_atTick (n : Nat) (s : State) (a2 : ℕ) : regionOfKey (atTick n s) a2 = regionOfKey s a2 := rfl
@[simp] theorem regionShows_atTick (n : Nat) (s : State) (a2 : ℕ) (a3 : RegionSt → Bool) : regionShows (atTick n s) a2 a3 = regionShows s a2 a3 := rfl
@[simp] theorem regionSt_atTick (n : Nat) (s : State) (a2 : ℕ) : regionSt (atTick n s) a2 = regionSt s a2 := rfl
@[simp] theorem rejoins_atTick (n : Nat) (s : State) (a2 : Run) (a3 : ℕ) : rejoins (atTick n s) a2 a3 = rejoins s a2 a3 := rfl
@[simp] theorem remapsLeft_atTick (n : Nat) (s : State) (a2 : ℕ) : remapsLeft (atTick n s) a2 = remapsLeft s a2 := rfl
@[simp] theorem remoteAccepted_atTick (n : Nat) (s : State) (a2 : ℕ) : remoteAccepted (atTick n s) a2 = remoteAccepted s a2 := rfl
@[simp] theorem replayFind_atTick (n : Nat) (s : State) (a2 : Pkt) : replayFind (atTick n s) a2 = replayFind s a2 := rfl
@[simp] theorem replayGranted_atTick (n : Nat) (s : State) : replayGranted (atTick n s) = replayGranted s := rfl
@[simp] theorem replayHolds_atTick (n : Nat) (s : State) (a2 : Bytes) : replayHolds (atTick n s) a2 = replayHolds s a2 := rfl
@[simp] theorem replayLayout_atTick (n : Nat) (s : State) (a2 : Pkt) : replayLayout (atTick n s) a2 = replayLayout s a2 := rfl
@[simp] theorem replayParts_atTick (n : Nat) (s : State) (a2 : Run) (a3 : Suspect) (a4 : ℕ) : replayParts (atTick n s) a2 a3 a4 = replayParts s a2 a3 a4 := rfl
@[simp] theorem replaySet_atTick (n : Nat) (s : State) (a2 : ℕ) (a3 : ℕ) : replaySet (atTick n s) a2 a3 = replaySet s a2 a3 := rfl
@[simp] theorem residentAt_atTick (n : Nat) (s : State) (a2 : ℕ) : residentAt (atTick n s) a2 = residentAt s a2 := rfl
@[simp] theorem residentCnt_atTick (n : Nat) (s : State) : residentCnt (atTick n s) = residentCnt s := rfl
@[simp] theorem respFor_atTick (n : Nat) (s : State) (a2 : ℕ) (a3 : Bytes) : respFor (atTick n s) a2 a3 = respFor s a2 a3 := rfl
@[simp] theorem restoreStale_atTick (n : Nat) (s : State) (a2 : Pkt) : restoreStale (atTick n s) a2 = restoreStale s a2 := rfl
@[simp] theorem restoreTable_atTick (n : Nat) (s : State) (a2 : PageTable) (a3 : XferIn) (a4 : ℕ) (a5 : ℕ) : restoreTable (atTick n s) a2 a3 a4 a5 = restoreTable s a2 a3 a4 a5 := rfl
@[simp] theorem restricted_atTick (n : Nat) (s : State) : restricted (atTick n s) = restricted s := rfl
@[simp] theorem retryLimit_atTick (n : Nat) (s : State) : retryLimit (atTick n s) = retryLimit s := rfl
@[simp] theorem retryTicks_atTick (n : Nat) (s : State) : retryTicks (atTick n s) = retryTicks s := rfl
@[simp] theorem ringHolds_atTick (n : Nat) (s : State) (a2 : ℕ) : ringHolds (atTick n s) a2 = ringHolds s a2 := rfl
@[simp] theorem ringOwner_atTick (n : Nat) (s : State) (a2 : ℕ) : ringOwner (atTick n s) a2 = ringOwner s a2 := rfl
@[simp] theorem ringWaits_atTick (n : Nat) (s : State) (a2 : ℕ) (a3 : ℕ) : ringWaits (atTick n s) a2 a3 = ringWaits s a2 a3 := rfl
@[simp] theorem rootImage_atTick (n : Nat) (s : State) (a2 : PageTable) : rootImage (atTick n s) a2 = rootImage s a2 := rfl
@[simp] theorem roundTag_atTick (n : Nat) (s : State) (a2 : ℕ) : roundTag (atTick n s) a2 = roundTag s a2 := rfl
@[simp] theorem roundsFor_atTick (n : Nat) (s : State) (a2 : List ℕ) : roundsFor (atTick n s) a2 = roundsFor s a2 := rfl
@[simp] theorem rowPads_atTick (n : Nat) (s : State) (a2 : ℕ) (a3 : ℕ) : rowPads (atTick n s) a2 a3 = rowPads s a2 a3 := rfl
@[simp] theorem rowStays_atTick (n : Nat) (s : State) (a2 : ℕ) : rowStays (atTick n s) a2 = rowStays s a2 := rfl
@[simp] theorem rowVersion_atTick (n : Nat) (s : State) (a2 : RowRec) : rowVersion (atTick n s) a2 = rowVersion s a2 := rfl
@[simp] theorem rowsLeaving_atTick (n : Nat) (s : State) (a2 : Batch) : rowsLeaving (atTick n s) a2 = rowsLeaving s a2 := rfl
@[simp] theorem rsvSum_atTick (n : Nat) (s : State) (a2 : ℕ) (a3 : CompRec) (a4 : CompRec → ℕ) : rsvSum (atTick n s) a2 a3 a4 = rsvSum s a2 a3 a4 := rfl
@[simp] theorem runBerths_atTick (n : Nat) (s : State) (a2 : Run) : runBerths (atTick n s) a2 = runBerths s a2 := rfl
@[simp] theorem runningRun_atTick (n : Nat) (s : State) : runningRun (atTick n s) = runningRun s := rfl
@[simp] theorem runsBlocked_atTick (n : Nat) (s : State) : runsBlocked (atTick n s) = runsBlocked s := rfl
@[simp] theorem runsId_atTick (n : Nat) (s : State) (a2 : ℕ) : runsId (atTick n s) a2 = runsId s a2 := rfl
@[simp] theorem runsLive_atTick (n : Nat) (s : State) : runsLive (atTick n s) = runsLive s := rfl
@[simp] theorem runsNow_atTick (n : Nat) (s : State) : runsNow (atTick n s) = runsNow s := rfl
@[simp] theorem runsOn_atTick (n : Nat) (s : State) : runsOn (atTick n s) = runsOn s := rfl
@[simp] theorem sampleRow_atTick (n : Nat) (s : State) (a2 : Batch) (a3 : ℕ) (a4 : Bytes) (a5 : ℕ) : sampleRow (atTick n s) a2 a3 a4 a5 = sampleRow s a2 a3 a4 a5 := rfl
@[simp] theorem sealBytes_atTick (n : Nat) (s : State) (a2 : Move) (a3 : Frame) (a4 : MoveTgt) : sealBytes (atTick n s) a2 a3 a4 = sealBytes s a2 a3 a4 := rfl
@[simp] theorem sealOk_atTick (n : Nat) (s : State) (a2 : Bool) (a3 : Bytes) : sealOk (atTick n s) a2 a3 = sealOk s a2 a3 := rfl
@[simp] theorem sealsDue_atTick (n : Nat) (s : State) (a2 : Berth) : sealsDue (atTick n s) a2 = sealsDue s a2 := rfl
@[simp] theorem sendData_atTick (n : Nat) (s : State) (a2 : ℕ) (a3 : Bytes) : sendData (atTick n s) a2 a3 = sendData s a2 a3 := rfl
@[simp] theorem sensorRead_atTick (n : Nat) (s : State) (a2 : ℕ) : sensorRead (atTick n s) a2 = sensorRead s a2 := rfl
@[simp] theorem sentBytes_atTick (n : Nat) (s : State) (a2 : Run) (a3 : ℕ) : sentBytes (atTick n s) a2 a3 = sentBytes s a2 a3 := rfl
@[simp] theorem sentIdle_atTick (n : Nat) (s : State) (a2 : Bytes) : sentIdle (atTick n s) a2 = sentIdle s a2 := rfl
@[simp] theorem sentTiles_atTick (n : Nat) (s : State) (a2 : ℕ) (a3 : Bytes) (a4 : Run) (a5 : Bytes) (a6 : Bytes) (a7 : ℕ) (a8 : ℕ) : sentTiles (atTick n s) a2 a3 a4 a5 a6 a7 a8 = sentTiles s a2 a3 a4 a5 a6 a7 a8 := rfl
@[simp] theorem sentinelSlot_atTick (n : Nat) (s : State) (a2 : ℕ) : sentinelSlot (atTick n s) a2 = sentinelSlot s a2 := rfl
@[simp] theorem servedBad_atTick (n : Nat) (s : State) (a2 : AttService) (a3 : List ℕ) : servedBad (atTick n s) a2 a3 = servedBad s a2 a3 := rfl
@[simp] theorem servedBy_atTick (n : Nat) (s : State) (a2 : OpRow) : servedBy (atTick n s) a2 = servedBy s a2 := rfl
@[simp] theorem servedFrames_atTick (n : Nat) (s : State) (a2 : Bytes) : servedFrames (atTick n s) a2 = servedFrames s a2 := rfl
@[simp] theorem servedPages_atTick (n : Nat) (s : State) (a2 : AttService) : servedPages (atTick n s) a2 = servedPages s a2 := rfl
@[simp] theorem servedReads_atTick (n : Nat) (s : State) (a2 : AttService) : servedReads (atTick n s) a2 = servedReads s a2 := rfl
@[simp] theorem servesLater_atTick (n : Nat) (s : State) (a2 : ℕ) (a3 : StagedTile) : servesLater (atTick n s) a2 a3 = servesLater s a2 a3 := rfl
@[simp] theorem servesNeighbour_atTick (n : Nat) (s : State) (a2 : ℕ) : servesNeighbour (atTick n s) a2 = servesNeighbour s a2 := rfl
@[simp] theorem serviceWaits_atTick (n : Nat) (s : State) : serviceWaits (atTick n s) = serviceWaits s := rfl
@[simp] theorem servicesBusy_atTick (n : Nat) (s : State) : servicesBusy (atTick n s) = servicesBusy s := rfl
@[simp] theorem servingSlots_atTick (n : Nat) (s : State) (a2 : ℕ) : servingSlots (atTick n s) a2 = servingSlots s a2 := rfl
@[simp] theorem setAside_atTick (n : Nat) (s : State) (a2 : CompRec → ℕ) (a3 : ℕ → ℕ) (a4 : ℕ) : setAside (atTick n s) a2 a3 a4 = setAside s a2 a3 a4 := rfl
@[simp] theorem setCovers_atTick (n : Nat) (s : State) (a2 : Bytes) : setCovers (atTick n s) a2 = setCovers s a2 := rfl
@[simp] theorem setNames_atTick (n : Nat) (s : State) (a2 : ℕ) : setNames (atTick n s) a2 = setNames s a2 := rfl
@[simp] theorem shapeKey_atTick (n : Nat) (s : State) (a2 : ℕ) : shapeKey (atTick n s) a2 = shapeKey s a2 := rfl
@[simp] theorem shaperOf_atTick (n : Nat) (s : State) (a2 : ℕ) : shaperOf (atTick n s) a2 = shaperOf s a2 := rfl
@[simp] theorem slotAllowed_atTick (n : Nat) (s : State) (a2 : ℕ) : slotAllowed (atTick n s) a2 = slotAllowed s a2 := rfl
@[simp] theorem slotEmpty_atTick (n : Nat) (s : State) : slotEmpty (atTick n s) = slotEmpty s := rfl
@[simp] theorem slotListed_atTick (n : Nat) (s : State) (a2 : ℕ) : slotListed (atTick n s) a2 = slotListed s a2 := rfl
@[simp] theorem slotOfId_atTick (n : Nat) (s : State) (a2 : ℕ) : slotOfId (atTick n s) a2 = slotOfId s a2 := rfl
@[simp] theorem slotOfSet_atTick (n : Nat) (s : State) (a2 : ℕ) : slotOfSet (atTick n s) a2 = slotOfSet s a2 := rfl
@[simp] theorem slotsBelow_atTick (n : Nat) (s : State) (a2 : Berth) (a3 : ℕ) : slotsBelow (atTick n s) a2 a3 = slotsBelow s a2 a3 := rfl
@[simp] theorem slotsCovered_atTick (n : Nat) (s : State) (a2 : ℕ) : slotsCovered (atTick n s) a2 = slotsCovered s a2 := rfl
@[simp] theorem slotsFree_atTick (n : Nat) (s : State) : slotsFree (atTick n s) = slotsFree s := rfl
@[simp] theorem slotsHeld_atTick (n : Nat) (s : State) (a2 : ℕ) : slotsHeld (atTick n s) a2 = slotsHeld s a2 := rfl
@[simp] theorem snapshotBytes_atTick (n : Nat) (s : State) (a2 : Berth) : snapshotBytes (atTick n s) a2 = snapshotBytes s a2 := rfl
@[simp] theorem someSensor_atTick (n : Nat) (s : State) (a2 : List ℕ) (a3 : ℕ) (a4 : ℕ) (a5 : ℕ → Bool) : someSensor (atTick n s) a2 a3 a4 a5 = someSensor s a2 a3 a4 a5 := rfl
@[simp] theorem specSlots_atTick (n : Nat) (s : State) (a2 : Berth) : specSlots (atTick n s) a2 = specSlots s a2 := rfl
@[simp] theorem sprayOf_atTick (n : Nat) (s : State) (a2 : Qp) : sprayOf (atTick n s) a2 = sprayOf s a2 := rfl
@[simp] theorem sprayPath_atTick (n : Nat) (s : State) (a2 : Qp) (a3 : ℕ) (a4 : ℕ) : sprayPath (atTick n s) a2 a3 a4 = sprayPath s a2 a3 a4 := rfl
@[simp] theorem sqComp_atTick (n : Nat) (s : State) (a2 : ℕ) : sqComp (atTick n s) a2 = sqComp s a2 := rfl
@[simp] theorem sqCq_atTick (n : Nat) (s : State) (a2 : ℕ) : sqCq (atTick n s) a2 = sqCq s a2 := rfl
@[simp] theorem sqPd_atTick (n : Nat) (s : State) (a2 : ℕ) : sqPd (atTick n s) a2 = sqPd s a2 := rfl
@[simp] theorem sqRing_atTick (n : Nat) (s : State) (a2 : ℕ) : sqRing (atTick n s) a2 = sqRing s a2 := rfl
@[simp] theorem sqSlots_atTick (n : Nat) (s : State) (a2 : ℕ) : sqSlots (atTick n s) a2 = sqSlots s a2 := rfl
@[simp] theorem sramHolds_atTick (n : Nat) (s : State) (a2 : ℕ) (a3 : SramOwner) : sramHolds (atTick n s) a2 a3 = sramHolds s a2 a3 := rfl
@[simp] theorem stackRemapsLeft_atTick (n : Nat) (s : State) (a2 : ℕ) : stackRemapsLeft (atTick n s) a2 = stackRemapsLeft s a2 := rfl
@[simp] theorem stacksHere_atTick (n : Nat) (s : State) : stacksHere (atTick n s) = stacksHere s := rfl
@[simp] theorem stageRun_atTick (n : Nat) (s : State) (a2 : ℕ) : stageRun (atTick n s) a2 = stageRun s a2 := rfl
@[simp] theorem stageVariant_atTick (n : Nat) (s : State) (a2 : ℕ) : stageVariant (atTick n s) a2 = stageVariant s a2 := rfl
@[simp] theorem stagedTile_atTick (n : Nat) (s : State) (a2 : ℕ) (a3 : Bytes) : stagedTile (atTick n s) a2 a3 = stagedTile s a2 a3 := rfl
@[simp] theorem stakeArea_atTick (n : Nat) (s : State) (a2 : ℕ) : stakeArea (atTick n s) a2 = stakeArea s a2 := rfl
@[simp] theorem stakeCount_atTick (n : Nat) (s : State) (a2 : ℕ) (a3 : Stake) : stakeCount (atTick n s) a2 a3 = stakeCount s a2 a3 := rfl
@[simp] theorem stakeIn_atTick (n : Nat) (s : State) (a2 : Run) : stakeIn (atTick n s) a2 = stakeIn s a2 := rfl
@[simp] theorem stakeLpx_atTick (n : Nat) (s : State) (a2 : ℕ) : stakeLpx (atTick n s) a2 = stakeLpx s a2 := rfl
@[simp] theorem stakePart_atTick (n : Nat) (s : State) (a2 : Stake) (a3 : ℕ) : stakePart (atTick n s) a2 a3 = stakePart s a2 a3 := rfl
@[simp] theorem stakeRefs_atTick (n : Nat) (s : State) (a2 : ℕ) : stakeRefs (atTick n s) a2 = stakeRefs s a2 := rfl
@[simp] theorem staleAnswer_atTick (n : Nat) (s : State) (a2 : ℕ) (a3 : ℕ) : staleAnswer (atTick n s) a2 a3 = staleAnswer s a2 a3 := rfl
@[simp] theorem stallCause_atTick (n : Nat) (s : State) (a2 : ℕ) (a3 : Bytes) : stallCause (atTick n s) a2 a3 = stallCause s a2 a3 := rfl
@[simp] theorem stateCnt_atTick (n : Nat) (s : State) (a2 : ℕ) : stateCnt (atTick n s) a2 = stateCnt s a2 := rfl
@[simp] theorem stepNames_atTick (n : Nat) (s : State) (a2 : Run) (a3 : ℕ) (a4 : StagedTile) : stepNames (atTick n s) a2 a3 a4 = stepNames s a2 a3 a4 := rfl
@[simp] theorem stepPoisoned_atTick (n : Nat) (s : State) (a2 : Run) (a3 : Bool) : stepPoisoned (atTick n s) a2 a3 = stepPoisoned s a2 a3 := rfl
@[simp] theorem stepReady_atTick (n : Nat) (s : State) (a2 : ℕ) : stepReady (atTick n s) a2 = stepReady s a2 := rfl
@[simp] theorem stkCheck_atTick (n : Nat) (s : State) (a2 : ℕ) (a3 : Bytes) : stkCheck (atTick n s) a2 a3 = stkCheck s a2 a3 := rfl
@[simp] theorem stkHomesServe_atTick (n : Nat) (s : State) (a2 : Bytes) : stkHomesServe (atTick n s) a2 = stkHomesServe s a2 := rfl
@[simp] theorem stopOf_atTick (n : Nat) (s : State) (a2 : Berth) : stopOf (atTick n s) a2 = stopOf s a2 := rfl
@[simp] theorem stopSlot_atTick (n : Nat) (s : State) (a2 : Bytes) : stopSlot (atTick n s) a2 = stopSlot s a2 := rfl
@[simp] theorem storedBytes_atTick (n : Nat) (s : State) (a2 : ℕ) (a3 : Frame) : storedBytes (atTick n s) a2 a3 = storedBytes s a2 a3 := rfl
@[simp] theorem suspectOf_atTick (n : Nat) (s : State) (a2 : ℕ) : suspectOf (atTick n s) a2 = suspectOf s a2 := rfl
@[simp] theorem suspectRun_atTick (n : Nat) (s : State) (a2 : ℕ) : suspectRun (atTick n s) a2 = suspectRun s a2 := rfl
@[simp] theorem swapFrames_atTick (n : Nat) (s : State) (a2 : Berth) (a3 : Snapshot) : swapFrames (atTick n s) a2 a3 = swapFrames s a2 a3 := rfl
@[simp] theorem swapPages_atTick (n : Nat) (s : State) (a2 : Berth) : swapPages (atTick n s) a2 = swapPages s a2 := rfl
@[simp] theorem tableImage_atTick (n : Nat) (s : State) (a2 : PageTable) (a3 : ℕ) : tableImage (atTick n s) a2 a3 = tableImage s a2 a3 := rfl
@[simp] theorem tagClash_atTick (n : Nat) (s : State) (a2 : ℕ) (a3 : Pkt) : tagClash (atTick n s) a2 a3 = tagClash s a2 a3 := rfl
@[simp] theorem tailBad_atTick (n : Nat) (s : State) (a2 : ℕ) (a3 : ℕ) : tailBad (atTick n s) a2 a3 = tailBad s a2 a3 := rfl
@[simp] theorem tblCheck_atTick (n : Nat) (s : State) (a2 : ℕ) (a3 : Bytes) : tblCheck (atTick n s) a2 a3 = tblCheck s a2 a3 := rfl
@[simp] theorem tblSlot_atTick (n : Nat) (s : State) (a2 : ℕ) : tblSlot (atTick n s) a2 = tblSlot s a2 := rfl
@[simp] theorem tclPort_atTick (n : Nat) (s : State) (a2 : ℕ) : tclPort (atTick n s) a2 = tclPort s a2 := rfl
@[simp] theorem teOk_atTick (n : Nat) (s : State) (a2 : Bytes) (a3 : Bytes) : teOk (atTick n s) a2 a3 = teOk s a2 a3 := rfl
@[simp] theorem testedBy_atTick (n : Nat) (s : State) (a2 : ℕ) : testedBy (atTick n s) a2 = testedBy s a2 := rfl
@[simp] theorem testsRunning_atTick (n : Nat) (s : State) : testsRunning (atTick n s) = testsRunning s := rfl
@[simp] theorem tgtsWhere_atTick (n : Nat) (s : State) (a2 : ℕ) (a3 : MoveTgt → Bool) : tgtsWhere (atTick n s) a2 a3 = tgtsWhere s a2 a3 := rfl
@[simp] theorem tileLenIn_atTick (n : Nat) (s : State) (a2 : Run) (a3 : Bytes) : tileLenIn (atTick n s) a2 a3 = tileLenIn s a2 a3 := rfl
@[simp] theorem tileName_atTick (n : Nat) (s : State) (a2 : Run) (a3 : ℕ) : tileName (atTick n s) a2 a3 = tileName s a2 a3 := rfl
@[simp] theorem tileReady_atTick (n : Nat) (s : State) (a2 : ℕ) (a3 : Bytes) : tileReady (atTick n s) a2 a3 = tileReady s a2 a3 := rfl
@[simp] theorem tileRefs_atTick (n : Nat) (s : State) (a2 : ℕ) : tileRefs (atTick n s) a2 = tileRefs s a2 := rfl
@[simp] theorem tileStaged_atTick (n : Nat) (s : State) (a2 : ℕ) (a3 : Bytes) : tileStaged (atTick n s) a2 a3 = tileStaged s a2 a3 := rfl
@[simp] theorem transferBytes_atTick (n : Nat) (s : State) (a2 : Berth) (a3 : ℕ) : transferBytes (atTick n s) a2 a3 = transferBytes s a2 a3 := rfl
@[simp] theorem transferNeeds_atTick (n : Nat) (s : State) (a2 : ℕ) (a3 : Option ℕ) (a4 : ManProg) : transferNeeds (atTick n s) a2 a3 a4 = transferNeeds s a2 a3 a4 := rfl
@[simp] theorem transferPages_atTick (n : Nat) (s : State) (a2 : ManId) (a3 : ManProg) : transferPages (atTick n s) a2 a3 = transferPages s a2 a3 := rfl
@[simp] theorem turnsOf_atTick (n : Nat) (s : State) (a2 : List ℕ) : turnsOf (atTick n s) a2 = turnsOf s a2 := rfl
@[simp] theorem underCap_atTick (n : Nat) (s : State) : underCap (atTick n s) = underCap s := rfl
@[simp] theorem validPeers_atTick (n : Nat) (s : State) : validPeers (atTick n s) = validPeers s := rfl
@[simp] theorem vecFtz_atTick (n : Nat) (s : State) : vecFtz (atTick n s) = vecFtz s := rfl
@[simp] theorem vecRead_atTick (n : Nat) (s : State) (a2 : ℕ) (a3 : Bytes) (a4 : ℕ) (a5 : ℕ) : vecRead (atTick n s) a2 a3 a4 a5 = vecRead s a2 a3 a4 a5 := rfl
@[simp] theorem vecResults_atTick (n : Nat) (s : State) (a2 : ℕ) (a3 : Bytes) : vecResults (atTick n s) a2 a3 = vecResults s a2 a3 := rfl
@[simp] theorem verifyRun_atTick (n : Nat) (s : State) (a2 : ℕ) (a3 : ℕ) (a4 : ℕ) (a5 : ℕ) (a6 : List RowRec) (a7 : List (Option ℕ)) (a8 : List SlotData) : verifyRun (atTick n s) a2 a3 a4 a5 a6 a7 a8 = verifyRun s a2 a3 a4 a5 a6 a7 a8 := rfl
@[simp] theorem versionOk_atTick (n : Nat) (s : State) (a2 : ℕ) (a3 : Pkt) : versionOk (atTick n s) a2 a3 = versionOk s a2 a3 := rfl
@[simp] theorem versionSlot_atTick (n : Nat) (s : State) (a2 : ℕ) : versionSlot (atTick n s) a2 = versionSlot s a2 := rfl
@[simp] theorem viewCfg_atTick (n : Nat) (s : State) (a2 : ℕ) : viewCfg (atTick n s) a2 = viewCfg s a2 := rfl
@[simp] theorem viewClass_atTick (n : Nat) (s : State) (a2 : ℕ) : viewClass (atTick n s) a2 = viewClass s a2 := rfl
@[simp] theorem viewClu_atTick (n : Nat) (s : State) (a2 : ℕ) (a3 : ℕ) : viewClu (atTick n s) a2 a3 = viewClu s a2 a3 := rfl
@[simp] theorem viewCmd_atTick (n : Nat) (s : State) (a2 : ℕ) : viewCmd (atTick n s) a2 = viewCmd s a2 := rfl
@[simp] theorem viewComp_atTick (n : Nat) (s : State) (a2 : ℕ) (a3 : ℕ) : viewComp (atTick n s) a2 a3 = viewComp s a2 a3 := rfl
@[simp] theorem viewCore_atTick (n : Nat) (s : State) (a2 : ℕ) (a3 : ℕ) : viewCore (atTick n s) a2 a3 = viewCore s a2 a3 := rfl
@[simp] theorem viewCq_atTick (n : Nat) (s : State) (a2 : ℕ) (a3 : ℕ) : viewCq (atTick n s) a2 a3 = viewCq s a2 a3 := rfl
@[simp] theorem viewErr_atTick (n : Nat) (s : State) (a2 : ℕ) : viewErr (atTick n s) a2 = viewErr s a2 := rfl
@[simp] theorem viewGlb_atTick (n : Nat) (s : State) (a2 : ℕ) : viewGlb (atTick n s) a2 = viewGlb s a2 := rfl
@[simp] theorem viewLgt_atTick (n : Nat) (s : State) (a2 : ℕ) : viewLgt (atTick n s) a2 = viewLgt s a2 := rfl
@[simp] theorem viewLic_atTick (n : Nat) (s : State) (a2 : ℕ) : viewLic (atTick n s) a2 = viewLic s a2 := rfl
@[simp] theorem viewMan_atTick (n : Nat) (s : State) (a2 : ℕ) : viewMan (atTick n s) a2 = viewMan s a2 := rfl
@[simp] theorem viewMbox_atTick (n : Nat) (s : State) (a2 : ℕ) : viewMbox (atTick n s) a2 = viewMbox s a2 := rfl
@[simp] theorem viewMem_atTick (n : Nat) (s : State) (a2 : ℕ) : viewMem (atTick n s) a2 = viewMem s a2 := rfl
@[simp] theorem viewMsa_atTick (n : Nat) (s : State) (a2 : ℕ) : viewMsa (atTick n s) a2 = viewMsa s a2 := rfl
@[simp] theorem viewPerf_atTick (n : Nat) (s : State) (a2 : ℕ) : viewPerf (atTick n s) a2 = viewPerf s a2 := rfl
@[simp] theorem viewQpc_atTick (n : Nat) (s : State) (a2 : ℕ) : viewQpc (atTick n s) a2 = viewQpc s a2 := rfl
@[simp] theorem viewSec_atTick (n : Nat) (s : State) (a2 : ℕ) : viewSec (atTick n s) a2 = viewSec s a2 := rfl
@[simp] theorem viewSeq_atTick (n : Nat) (s : State) (a2 : ℕ) : viewSeq (atTick n s) a2 = viewSeq s a2 := rfl
@[simp] theorem viewSq_atTick (n : Nat) (s : State) (a2 : ℕ) (a3 : ℕ) : viewSq (atTick n s) a2 a3 = viewSq s a2 a3 := rfl
@[simp] theorem viewStep_atTick (n : Nat) (s : State) : viewStep (atTick n s) = viewStep s := rfl
@[simp] theorem viewTbl_atTick (n : Nat) (s : State) (a2 : ℕ) (a3 : ℕ) : viewTbl (atTick n s) a2 a3 = viewTbl s a2 a3 := rfl
@[simp] theorem viewWeave_atTick (n : Nat) (s : State) : viewWeave (atTick n s) = viewWeave s := rfl
@[simp] theorem waitsDirect_atTick (n : Nat) (s : State) (a2 : ℕ) (a3 : Bytes) : waitsDirect (atTick n s) a2 a3 = waitsDirect s a2 a3 := rfl
@[simp] theorem waitsExpander_atTick (n : Nat) (s : State) (a2 : ℕ) (a3 : Bytes) : waitsExpander (atTick n s) a2 a3 = waitsExpander s a2 a3 := rfl
@[simp] theorem wantsWeave_atTick (n : Nat) (s : State) (a2 : ℕ) (a3 : Berth) : wantsWeave (atTick n s) a2 a3 = wantsWeave s a2 a3 := rfl
@[simp] theorem weavePicks_atTick (n : Nat) (s : State) (a2 : ℕ) : weavePicks (atTick n s) a2 = weavePicks s a2 := rfl
@[simp] theorem weaveWants_atTick (n : Nat) (s : State) (a2 : ℕ) : weaveWants (atTick n s) a2 = weaveWants s a2 := rfl
@[simp] theorem wheelAt_atTick (n : Nat) (s : State) (a2 : ℕ) : wheelAt (atTick n s) a2 = wheelAt s a2 := rfl
@[simp] theorem winAligned_atTick (n : Nat) (s : State) (a2 : ℕ) : winAligned (atTick n s) a2 = winAligned s a2 := rfl
@[simp] theorem winEnabled_atTick (n : Nat) (s : State) (a2 : ℕ) : winEnabled (atTick n s) a2 = winEnabled s a2 := rfl
@[simp] theorem winFind_atTick (n : Nat) (s : State) (a2 : ℕ) (a3 : ℕ) : winFind (atTick n s) a2 a3 = winFind s a2 a3 := rfl
@[simp] theorem winInUse_atTick (n : Nat) (s : State) (a2 : ℕ) : winInUse (atTick n s) a2 = winInUse s a2 := rfl
@[simp] theorem winMeets_atTick (n : Nat) (s : State) (a2 : ℕ) (a3 : ℕ) (a4 : ℕ) : winMeets (atTick n s) a2 a3 a4 = winMeets s a2 a3 a4 := rfl
@[simp] theorem winServes_atTick (n : Nat) (s : State) (a2 : ℕ) (a3 : ℕ) : winServes (atTick n s) a2 a3 = winServes s a2 a3 := rfl
@[simp] theorem winStarts_atTick (n : Nat) (s : State) (a2 : ℕ) : winStarts (atTick n s) a2 = winStarts s a2 := rfl
@[simp] theorem windowDue_atTick (n : Nat) (s : State) (a2 : Berth) : windowDue (atTick n s) a2 = windowDue s a2 := rfl
@[simp] theorem windowHeard_atTick (n : Nat) (s : State) (a2 : ℕ) (a3 : ℕ) : windowHeard (atTick n s) a2 a3 = windowHeard s a2 a3 := rfl
@[simp] theorem windowStart_atTick (n : Nat) (s : State) (a2 : Berth) : windowStart (atTick n s) a2 = windowStart s a2 := rfl
@[simp] theorem withyAreas_atTick (n : Nat) (s : State) : withyAreas (atTick n s) = withyAreas s := rfl
@[simp] theorem withyBound_atTick (n : Nat) (s : State) (a2 : Batch) (a3 : ℕ) : withyBound (atTick n s) a2 a3 = withyBound s a2 a3 := rfl
@[simp] theorem withyCurrent_atTick (n : Nat) (s : State) (a2 : ℕ) : withyCurrent (atTick n s) a2 = withyCurrent s a2 := rfl
@[simp] theorem withyHeld_atTick (n : Nat) (s : State) (a2 : ℕ) : withyHeld (atTick n s) a2 = withyHeld s a2 := rfl
@[simp] theorem withyInSlot_atTick (n : Nat) (s : State) (a2 : ℕ) : withyInSlot (atTick n s) a2 = withyInSlot s a2 := rfl
@[simp] theorem withyPart_atTick (n : Nat) (s : State) (a2 : List (Option ℕ)) : withyPart (atTick n s) a2 = withyPart s a2 := rfl
@[simp] theorem withyRead_atTick (n : Nat) (s : State) (a2 : WithyRead) (a3 : ℕ) (a4 : ℕ) : withyRead (atTick n s) a2 a3 a4 = withyRead s a2 a3 a4 := rfl
@[simp] theorem withyReady_atTick (n : Nat) (s : State) (a2 : Berth) : withyReady (atTick n s) a2 = withyReady s a2 := rfl
@[simp] theorem wovenClass_atTick (n : Nat) (s : State) (a2 : ℕ) : wovenClass (atTick n s) a2 = wovenClass s a2 := rfl
@[simp] theorem writeHeard_atTick (n : Nat) (s : State) (a2 : ℕ) (a3 : ℕ) (a4 : ℕ) : writeHeard (atTick n s) a2 a3 a4 = writeHeard s a2 a3 a4 := rfl
@[simp] theorem writeMeets_atTick (n : Nat) (s : State) (a2 : ℕ) (a3 : ℕ) (a4 : ℕ) (a5 : Frame) : writeMeets (atTick n s) a2 a3 a4 a5 = writeMeets s a2 a3 a4 a5 := rfl
@[simp] theorem wslotInfo_atTick (n : Nat) (s : State) (a2 : ℕ) : wslotInfo (atTick n s) a2 = wslotInfo s a2 := rfl
@[simp] theorem wslotOf_atTick (n : Nat) (s : State) (a2 : ℕ) : wslotOf (atTick n s) a2 = wslotOf s a2 := rfl
@[simp] theorem wslotWoven_atTick (n : Nat) (s : State) (a2 : ℕ) : wslotWoven (atTick n s) a2 = wslotWoven s a2 := rfl
@[simp] theorem wthCheck_atTick (n : Nat) (s : State) (a2 : ℕ) (a3 : Bytes) : wthCheck (atTick n s) a2 a3 = wthCheck s a2 a3 := rfl
@[simp] theorem wthContents_atTick (n : Nat) (s : State) (a2 : Bytes) : wthContents (atTick n s) a2 = wthContents s a2 := rfl
@[simp] theorem wthNamed_atTick (n : Nat) (s : State) (a2 : ℕ) : wthNamed (atTick n s) a2 = wthNamed s a2 := rfl
@[simp] theorem wthRecord_atTick (n : Nat) (s : State) (a2 : ℕ) : wthRecord (atTick n s) a2 = wthRecord s a2 := rfl
@[simp] theorem xferOfKey_atTick (n : Nat) (s : State) (a2 : ℕ) (a3 : ℕ) : xferOfKey (atTick n s) a2 a3 = xferOfKey s a2 a3 := rfl

end Sys2Proof.Machine
end

