-- ==== Sys2Proof/Laws/Dispatch.lean ====
section
/-! SUPPORT. The dispatch, one equation for each command. -/

namespace Sys2Proof.Machine

theorem exec_nop (p : Pkt) (s : State) : exec (.nop p) s = execNop p s := rfl
theorem exec_sysHello (p : Pkt) (s : State) : exec (.sysHello p) s = execSysHello p s := rfl
theorem exec_sysCaps (p : Pkt) (s : State) : exec (.sysCaps p) s = execSysCaps p s := rfl
theorem exec_sysFence (p : Pkt) (s : State) : exec (.sysFence p) s = execSysFence p s := rfl
theorem exec_sysEpoch (p : Pkt) (s : State) : exec (.sysEpoch p) s = execSysEpoch p s := rfl
theorem exec_sysRestartWarm (p : Pkt) (s : State) : exec (.sysRestartWarm p) s = execSysRestartWarm p s := rfl
theorem exec_sysRestartDeviceReset (p : Pkt) (s : State) : exec (.sysRestartDeviceReset p) s = execSysRestartDeviceReset p s := rfl
theorem exec_cfgRead (p : Pkt) (s : State) : exec (.cfgRead p) s = execCfgRead p s := rfl
theorem exec_cfgWrite (p : Pkt) (s : State) : exec (.cfgWrite p) s = execCfgWrite p s := rfl
theorem exec_licInstall (p : Pkt) (s : State) : exec (.licInstall p) s = execLicInstall p s := rfl
theorem exec_fwStage (p : Pkt) (s : State) : exec (.fwStage p) s = execFwStage p s := rfl
theorem exec_fwCommit (p : Pkt) (s : State) : exec (.fwCommit p) s = execFwCommit p s := rfl
theorem exec_secAttest (p : Pkt) (s : State) : exec (.secAttest p) s = execSecAttest p s := rfl
theorem exec_tblLoad (p : Pkt) (s : State) : exec (.tblLoad p) s = execTblLoad p s := rfl
theorem exec_tblActivate (p : Pkt) (s : State) : exec (.tblActivate p) s = execTblActivate p s := rfl
theorem exec_tblRetire (p : Pkt) (s : State) : exec (.tblRetire p) s = execTblRetire p s := rfl
theorem exec_stkLoad (p : Pkt) (s : State) : exec (.stkLoad p) s = execStkLoad p s := rfl
theorem exec_stkRetire (p : Pkt) (s : State) : exec (.stkRetire p) s = execStkRetire p s := rfl
theorem exec_wthLoad (p : Pkt) (s : State) : exec (.wthLoad p) s = execWthLoad p s := rfl
theorem exec_wthRetire (p : Pkt) (s : State) : exec (.wthRetire p) s = execWthRetire p s := rfl
theorem exec_wthQuery (p : Pkt) (s : State) : exec (.wthQuery p) s = execWthQuery p s := rfl
theorem exec_reqAdmit (p : Pkt) (s : State) : exec (.reqAdmit p) s = execReqAdmit p s := rfl
theorem exec_reqAppend (p : Pkt) (s : State) : exec (.reqAppend p) s = execReqAppend p s := rfl
theorem exec_reqHandoffRetarget (p : Pkt) (s : State) : exec (.reqHandoffRetarget p) s = execReqHandoffRetarget p s := rfl
theorem exec_reqHandoffTransfer (p : Pkt) (s : State) : exec (.reqHandoffTransfer p) s = execReqHandoffTransfer p s := rfl
theorem exec_reqAccept (p : Pkt) (s : State) : exec (.reqAccept p) s = execReqAccept p s := rfl
theorem exec_reqCancel (p : Pkt) (s : State) : exec (.reqCancel p) s = execReqCancel p s := rfl
theorem exec_reqQuery (p : Pkt) (s : State) : exec (.reqQuery p) s = execReqQuery p s := rfl
theorem exec_reqRebuild (p : Pkt) (s : State) : exec (.reqRebuild p) s = execReqRebuild p s := rfl
theorem exec_reqRelease (p : Pkt) (s : State) : exec (.reqRelease p) s = execReqRelease p s := rfl
theorem exec_reqDraft (p : Pkt) (s : State) : exec (.reqDraft p) s = execReqDraft p s := rfl
theorem exec_pagePut (p : Pkt) (s : State) : exec (.pagePut p) s = execPagePut p s := rfl
theorem exec_pageGet (p : Pkt) (s : State) : exec (.pageGet p) s = execPageGet p s := rfl
theorem exec_pageSeal (p : Pkt) (s : State) : exec (.pageSeal p) s = execPageSeal p s := rfl
theorem exec_pageMirrorCopy (p : Pkt) (s : State) : exec (.pageMirrorCopy p) s = execPageMirrorCopy p s := rfl
theorem exec_pageMirrorClose (p : Pkt) (s : State) : exec (.pageMirrorClose p) s = execPageMirrorClose p s := rfl
theorem exec_pageMirrorRepair (p : Pkt) (s : State) : exec (.pageMirrorRepair p) s = execPageMirrorRepair p s := rfl
theorem exec_pageMirrorDone (p : Pkt) (s : State) : exec (.pageMirrorDone p) s = execPageMirrorDone p s := rfl
theorem exec_pageMirrorPartial (p : Pkt) (s : State) : exec (.pageMirrorPartial p) s = execPageMirrorPartial p s := rfl
theorem exec_pageDrop (p : Pkt) (s : State) : exec (.pageDrop p) s = execPageDrop p s := rfl
theorem exec_pageSwapOut (p : Pkt) (s : State) : exec (.pageSwapOut p) s = execPageSwapOut p s := rfl
theorem exec_pageSwapIn (p : Pkt) (s : State) : exec (.pageSwapIn p) s = execPageSwapIn p s := rfl
theorem exec_attPartial (p : Pkt) (s : State) : exec (.attPartial p) s = execAttPartial p s := rfl
theorem exec_attResult (p : Pkt) (s : State) : exec (.attResult p) s = execAttResult p s := rfl
theorem exec_tokStreamReceived (p : Pkt) (s : State) : exec (.tokStreamReceived p) s = execTokStreamReceived p s := rfl
theorem exec_qpCreate (p : Pkt) (s : State) : exec (.qpCreate p) s = execQpCreate p s := rfl
theorem exec_qpModify (p : Pkt) (s : State) : exec (.qpModify p) s = execQpModify p s := rfl
theorem exec_qpDestroy (p : Pkt) (s : State) : exec (.qpDestroy p) s = execQpDestroy p s := rfl
theorem exec_pdCreate (p : Pkt) (s : State) : exec (.pdCreate p) s = execPdCreate p s := rfl
theorem exec_regionRegister (p : Pkt) (s : State) : exec (.regionRegister p) s = execRegionRegister p s := rfl
theorem exec_regionDeregister (p : Pkt) (s : State) : exec (.regionDeregister p) s = execRegionDeregister p s := rfl
theorem exec_recvPost (p : Pkt) (s : State) : exec (.recvPost p) s = execRecvPost p s := rfl
theorem exec_sendMsg (p : Pkt) (s : State) : exec (.sendMsg p) s = execSendMsg p s := rfl
theorem exec_memLoad (p : Pkt) (s : State) : exec (.memLoad p) s = execMemLoad p s := rfl
theorem exec_memStore (p : Pkt) (s : State) : exec (.memStore p) s = execMemStore p s := rfl
theorem exec_memAtomic (p : Pkt) (s : State) : exec (.memAtomic p) s = execMemAtomic p s := rfl
theorem exec_memGateway (p : Pkt) (s : State) : exec (.memGateway p) s = execMemGateway p s := rfl
theorem exec_schShares (p : Pkt) (s : State) : exec (.schShares p) s = execSchShares p s := rfl
theorem exec_schShaper (p : Pkt) (s : State) : exec (.schShaper p) s = execSchShaper p s := rfl
theorem exec_compCreate (p : Pkt) (s : State) : exec (.compCreate p) s = execCompCreate p s := rfl
theorem exec_compMeter (p : Pkt) (s : State) : exec (.compMeter p) s = execCompMeter p s := rfl
theorem exec_testSentinel (p : Pkt) (s : State) : exec (.testSentinel p) s = execTestSentinel p s := rfl
theorem exec_testKat (p : Pkt) (s : State) : exec (.testKat p) s = execTestKat p s := rfl
theorem exec_errRecordReceived (p : Pkt) (s : State) : exec (.errRecordReceived p) s = execErrRecordReceived p s := rfl
theorem exec_verifyReplay (p : Pkt) (s : State) : exec (.verifyReplay p) s = execVerifyReplay p s := rfl
theorem exec_verifyResult (p : Pkt) (s : State) : exec (.verifyResult p) s = execVerifyResult p s := rfl
theorem exec_evoestHcrcFail (path : Path) (slot : Nat) (s : State) : exec (.evoestHcrcFail path slot) s = execEvoestHcrcFail path slot s := rfl
theorem exec_replyReceived (r : Rep) (s : State) : exec (.replyReceived r) s = execReplyReceived r s := rfl
theorem exec_responsePacketReceived (qp now : Nat) (name : RespName) (opcode offset : Nat) (last : Bool) (payload : Bytes) (s : State) : exec (.responsePacketReceived qp now name opcode offset last payload) s = execResponsePacketReceived qp now name opcode offset last payload s := rfl
theorem exec_handoffTransferReply (r : Rep) (s : State) : exec (.handoffTransferReply r) s = execHandoffTransferReply r s := rfl
theorem exec_acceptReply (r : Rep) (s : State) : exec (.acceptReply r) s = execAcceptReply r s := rfl
theorem exec_pageMoveReply (r : Rep) (s : State) : exec (.pageMoveReply r) s = execPageMoveReply r s := rfl
theorem exec_pageDropReply (r : Rep) (s : State) : exec (.pageDropReply r) s = execPageDropReply r s := rfl
theorem exec_attPartialStatusReply (r : Rep) (s : State) : exec (.attPartialStatusReply r) s = execAttPartialStatusReply r s := rfl
theorem exec_msaForwardReply (r : Rep) (response : Bytes) (s : State) : exec (.msaForwardReply r response) s = execMsaForwardReply r response s := rfl
theorem exec_sqDoorbellWrite (fn ring value : Nat) (parityGood : Bool) (s : State) : exec (.sqDoorbellWrite fn ring value parityGood) s = execSqDoorbellWrite fn ring value parityGood s := rfl
theorem exec_sqTailConsume (ring : Nat) (reads : List SqRead) (s : State) : exec (.sqTailConsume ring reads) s = execSqTailConsume ring reads s := rfl
theorem exec_cqHeadDoorbellWrite (fn ring value : Nat) (s : State) : exec (.cqHeadDoorbellWrite fn ring value) s = execCqHeadDoorbellWrite fn ring value s := rfl
theorem exec_cqStallTimeout (ring now : Nat) (s : State) : exec (.cqStallTimeout ring now) s = execCqStallTimeout ring now s := rfl
theorem exec_cqCoalTimeout (ring now : Nat) (s : State) : exec (.cqCoalTimeout ring now) s = execCqCoalTimeout ring now s := rfl
theorem exec_sqEnable (fn ring value : Nat) (s : State) : exec (.sqEnable fn ring value) s = execSqEnable fn ring value s := rfl
theorem exec_sqDisable (fn ring value : Nat) (s : State) : exec (.sqDisable fn ring value) s = execSqDisable fn ring value s := rfl
theorem exec_cqEnable (fn ring value : Nat) (s : State) : exec (.cqEnable fn ring value) s = execCqEnable fn ring value s := rfl
theorem exec_cqDisable (fn ring value : Nat) (s : State) : exec (.cqDisable fn ring value) s = execCqDisable fn ring value s := rfl
theorem exec_hostwinEnableWrite (n value : Nat) (s : State) : exec (.hostwinEnableWrite n value) s = execHostwinEnableWrite n value s := rfl
theorem exec_hostwinFieldWrite (offset value : Nat) (s : State) : exec (.hostwinFieldWrite offset value) s = execHostwinFieldWrite offset value s := rfl
theorem exec_manBerthSelWrite (value : Nat) (s : State) : exec (.manBerthSelWrite value) s = execManBerthSelWrite value s := rfl
theorem exec_wthSlotSelWrite (value : Nat) (s : State) : exec (.wthSlotSelWrite value) s = execWthSlotSelWrite value s := rfl
theorem exec_qpcSelWrite (value : Nat) (s : State) : exec (.qpcSelWrite value) s = execQpcSelWrite value s := rfl
theorem exec_schShapeSelWrite (value : Nat) (s : State) : exec (.schShapeSelWrite value) s = execSchShapeSelWrite value s := rfl
theorem exec_errLogSelWrite (value : Nat) (s : State) : exec (.errLogSelWrite value) s = execErrLogSelWrite value s := rfl
theorem exec_portRetrainWrite (port : Nat) (s : State) : exec (.portRetrainWrite port) s = execPortRetrainWrite port s := rfl
theorem exec_schHistClear (s : State) : exec .schHistClear s = execSchHistClear s := rfl
theorem exec_devResetDevice (value : Nat) (s : State) : exec (.devResetDevice value) s = execDevResetDevice value s := rfl
theorem exec_devResetCpRestart (value : Nat) (s : State) : exec (.devResetCpRestart value) s = execDevResetCpRestart value s := rfl
theorem exec_devIrqStatusWrite (value eventsNow : Nat) (s : State) : exec (.devIrqStatusWrite value eventsNow) s = execDevIrqStatusWrite value eventsNow s := rfl
theorem exec_devIrqEnableWrite (value : Nat) (s : State) : exec (.devIrqEnableWrite value) s = execDevIrqEnableWrite value s := rfl
theorem exec_mgtMboxGo (opcode : Nat) (p : Pkt) (s : State) : exec (.mgtMboxGo opcode p) s = execMgtMboxGo opcode p s := rfl
theorem exec_bar4Read (offset len : Nat) (uncorrected : Bool) (s : State) : exec (.bar4Read offset len uncorrected) s = execBar4Read offset len uncorrected s := rfl
theorem exec_bar4Write (offset : Nat) (bytes : List (Option Byte)) (s : State) : exec (.bar4Write offset bytes) s = execBar4Write offset bytes s := rfl
theorem exec_bar0BadAccess (write : Bool) (offset size : Nat) (s : State) : exec (.bar0BadAccess write offset size) s = execBar0BadAccess write offset size s := rfl
theorem exec_regReservedWrite (fn offset value : Nat) (s : State) : exec (.regReservedWrite fn offset value) s = execRegReservedWrite fn offset value s := rfl
theorem exec_regWrite (fn offset size value : Nat) (s : State) : exec (.regWrite fn offset size value) s = execRegWrite fn offset size value s := rfl
theorem exec_reg64LowHalfRead (offset : Nat) (s : State) : exec (.reg64LowHalfRead offset) s = execReg64LowHalfRead offset s := rfl
theorem exec_seqStepMaxRead (s : State) : exec .seqStepMaxRead s = execSeqStepMaxRead s := rfl
theorem exec_attRttMaxRead (s : State) : exec .attRttMaxRead s = execAttRttMaxRead s := rfl
theorem exec_qpcFetchMaxRead (s : State) : exec .qpcFetchMaxRead s = execQpcFetchMaxRead s := rfl
theorem exec_msaLineMaxRead (s : State) : exec .msaLineMaxRead s = execMsaLineMaxRead s := rfl
theorem exec_functionLevelReset (fn now : Nat) (s : State) : exec (.functionLevelReset fn now) s = execFunctionLevelReset fn now s := rfl
theorem exec_flrComplete (fn : Nat) (s : State) : exec (.flrComplete fn) s = execFlrComplete fn s := rfl
theorem exec_vfEnableChange (enable : Bool) (numVfs : Nat) (s : State) : exec (.vfEnableChange enable numVfs) s = execVfEnableChange enable numVfs s := rfl
theorem exec_msixUnmask (fn vector : Nat) (s : State) : exec (.msixUnmask fn vector) s = execMsixUnmask fn vector s := rfl
theorem exec_perstAssert (now : Nat) (s : State) : exec (.perstAssert now) s = execPerstAssert now s := rfl
theorem exec_perstDeassert (flit : Bool) (width speed : Nat) (s : State) : exec (.perstDeassert flit width speed) s = execPerstDeassert flit width speed s := rfl
theorem exec_pcieHotReset (now : Nat) (s : State) : exec (.pcieHotReset now) s = execPcieHotReset now s := rfl
theorem exec_pcieLinkDown (s : State) : exec .pcieLinkDown s = execPcieLinkDown s := rfl
theorem exec_pcieLinkUp (flit : Bool) (width speed : Nat) (s : State) : exec (.pcieLinkUp flit width speed) s = execPcieLinkUp flit width speed s := rfl
theorem exec_i3cEntdaa (address : Nat) (s : State) : exec (.i3cEntdaa address) s = execI3cEntdaa address s := rfl
theorem exec_mctpControlMessage (body : Bytes) (s : State) : exec (.mctpControlMessage body) s = execMctpControlMessage body s := rfl
theorem exec_i3cClkStatusRead (s : State) : exec .i3cClkStatusRead s = execI3cClkStatusRead s := rfl
theorem exec_uartRx (bytes : Bytes) (s : State) : exec (.uartRx bytes) s = execUartRx bytes s := rfl
theorem exec_jtagInstruction (instr : JtagInstr) (s : State) : exec (.jtagInstruction instr) s = execJtagInstruction instr s := rfl
theorem exec_pkgResetRelease (power : PowerOn) (s : State) : exec (.pkgResetRelease power) s = execPkgResetRelease power s := rfl
theorem exec_pkgResetAssert (s : State) : exec .pkgResetAssert s = execPkgResetAssert s := rfl
theorem exec_rootSynthLock (us : Nat) (pufGood : Bool) (s : State) : exec (.rootSynthLock us pufGood) s = execRootSynthLock us pufGood s := rfl
theorem exec_rootLockTimeout (s : State) : exec .rootLockTimeout s = execRootLockTimeout s := rfl
theorem exec_rootLockLoss (now : Nat) (s : State) : exec (.rootLockLoss now) s = execRootLockLoss now s := rfl
theorem exec_ref100Loss (now : Nat) (s : State) : exec (.ref100Loss now) s = execRef100Loss now s := rfl
theorem exec_memoryTrainingDone (hbmFailed lpxFailed : List Nat) (cmpTargets : List Nat) (s : State) : exec (.memoryTrainingDone hbmFailed lpxFailed cmpTargets) s = execMemoryTrainingDone hbmFailed lpxFailed cmpTargets s := rfl
theorem exec_katComplete (failed : List (Nat × Nat)) (s : State) : exec (.katComplete failed) s = execKatComplete failed s := rfl
theorem exec_microcodeBroadcastDone (stillDiffer : List Nat) (s : State) : exec (.microcodeBroadcastDone stillDiffer) s = execMicrocodeBroadcastDone stillDiffer s := rfl
theorem exec_portTrainingStepEnd (now : Nat) (s : State) : exec (.portTrainingStepEnd now) s = execPortTrainingStepEnd now s := rfl
theorem exec_thermalSample (now : Nat) (celsius : List Nat) (throttleIn : Bool) (s : State) : exec (.thermalSample now celsius throttleIn) s = execThermalSample now celsius throttleIn s := rfl
theorem exec_powerEstimate (now watts : Nat) (railsMv : List Nat) (s : State) : exec (.powerEstimate now watts railsMv) s = execPowerEstimate now watts railsMv s := rfl
theorem exec_avsAdjust (now stack : Nat) (up acked : Bool) (s : State) : exec (.avsAdjust now stack up acked) s = execAvsAdjust now stack up acked s := rfl
theorem exec_thermtrip (now sensor : Nat) (s : State) : exec (.thermtrip now sensor) s = execThermtrip now sensor s := rfl
theorem exec_ioDieFatalError (now die : Nat) (s : State) : exec (.ioDieFatalError now die) s = execIoDieFatalError now die s := rfl
theorem exec_portSignalDetect (port : Nat) (s : State) : exec (.portSignalDetect port) s = execPortSignalDetect port s := rfl
theorem exec_portDetectTimeout (port now : Nat) (s : State) : exec (.portDetectTimeout port now) s = execPortDetectTimeout port now s := rfl
theorem exec_portLaneLock (port : Nat) (lanes : List Nat) (fast : Bool) (s : State) : exec (.portLaneLock port lanes fast) s = execPortLaneLock port lanes fast s := rfl
theorem exec_portRateFallbackTimeout (port now : Nat) (s : State) : exec (.portRateFallbackTimeout port now) s = execPortRateFallbackTimeout port now s := rfl
theorem exec_portTrainTimeout (port now : Nat) (s : State) : exec (.portTrainTimeout port now) s = execPortTrainTimeout port now s := rfl
theorem exec_portNegotiateDone (port now major minor plane : Nat) (s : State) : exec (.portNegotiateDone port now major minor plane) s = execPortNegotiateDone port now major minor plane s := rfl
theorem exec_portNegotiateTimeout (port now : Nat) (s : State) : exec (.portNegotiateTimeout port now) s = execPortNegotiateTimeout port now s := rfl
theorem exec_laneLossOfLock (port lane now : Nat) (s : State) : exec (.laneLossOfLock port lane now) s = execLaneLossOfLock port lane now s := rfl
theorem exec_laneRetrainLock (port lane : Nat) (s : State) : exec (.laneRetrainLock port lane) s = execLaneRetrainLock port lane s := rfl
theorem exec_keepaliveSend (port now : Nat) (s : State) : exec (.keepaliveSend port now) s = execKeepaliveSend port now s := rfl
theorem exec_keepaliveReceived (port now plane txTick echoTick hold : Nat) (s : State) : exec (.keepaliveReceived port now plane txTick echoTick hold) s = execKeepaliveReceived port now plane txTick echoTick hold s := rfl
theorem exec_keepaliveMiss (port now : Nat) (s : State) : exec (.keepaliveMiss port now) s = execKeepaliveMiss port now s := rfl
theorem exec_creditReceived (port credits : Nat) (s : State) : exec (.creditReceived port credits) s = execCreditReceived port credits s := rfl
theorem exec_pauseReceived (port now : Nat) (tcl tcs : Bool) (time : Nat) (s : State) : exec (.pauseReceived port now tcl tcs time) s = execPauseReceived port now tcl tcs time s := rfl
theorem exec_pauseExpire (port now : Nat) (s : State) : exec (.pauseExpire port now) s = execPauseExpire port now s := rfl
theorem exec_frameSendStart (port now : Nat) (tcs : Bool) (s : State) : exec (.frameSendStart port now tcs) s = execFrameSendStart port now tcs s := rfl
theorem exec_linkFrameInvalid (port : Nat) (otherDevice : Bool) (s : State) : exec (.linkFrameInvalid port otherDevice) s = execLinkFrameInvalid port otherDevice s := rfl
theorem exec_tclDataReceived (f : Fab) (s : State) : exec (.tclDataReceived f) s = execTclDataReceived f s := rfl
theorem exec_tcsDataReceived (f : Fab) (s : State) : exec (.tcsDataReceived f) s = execTcsDataReceived f s := rfl
theorem exec_ackReceived (qp port psn now : Nat) (s : State) : exec (.ackReceived qp port psn now) s = execAckReceived qp port psn now s := rfl
theorem exec_nakReceived (qp port psn now : Nat) (code : NakCode) (s : State) : exec (.nakReceived qp port psn now code) s = execNakReceived qp port psn now code s := rfl
theorem exec_sackReceived (qp port msgId base now : Nat) (complete noBuffer : Bool) (bitmap : List Nat) (s : State) : exec (.sackReceived qp port msgId base now complete noBuffer bitmap) s = execSackReceived qp port msgId base now complete noBuffer bitmap s := rfl
theorem exec_tclAckTimeout (qp now : Nat) (s : State) : exec (.tclAckTimeout qp now) s = execTclAckTimeout qp now s := rfl
theorem exec_tclAckDelayExpire (qp now : Nat) (s : State) : exec (.tclAckDelayExpire qp now) s = execTclAckDelayExpire qp now s := rfl
theorem exec_tclNoContextResend (qp now : Nat) (s : State) : exec (.tclNoContextResend qp now) s = execTclNoContextResend qp now s := rfl
theorem exec_tcsRetransmitTimeout (qp msgId pktIdx now : Nat) (s : State) : exec (.tcsRetransmitTimeout qp msgId pktIdx now) s = execTcsRetransmitTimeout qp msgId pktIdx now s := rfl
theorem exec_tcsSackTimer (qp msgId now : Nat) (s : State) : exec (.tcsSackTimer qp msgId now) s = execTcsSackTimer qp msgId now s := rfl
theorem exec_tcsAssemblyTimeout (qp msgId now : Nat) (s : State) : exec (.tcsAssemblyTimeout qp msgId now) s = execTcsAssemblyTimeout qp msgId now s := rfl
theorem exec_portExclusionExpire (port dest now : Nat) (s : State) : exec (.portExclusionExpire port dest now) s = execPortExclusionExpire port dest now s := rfl
theorem exec_qpcEvictVerified (qp : Nat) (s : State) : exec (.qpcEvictVerified qp) s = execQpcEvictVerified qp s := rfl
theorem exec_qpcFetchComplete (qp now : Nat) (s : State) : exec (.qpcFetchComplete qp now) s = execQpcFetchComplete qp now s := rfl
theorem exec_qpcFetchFail (qp now : Nat) (s : State) : exec (.qpcFetchFail qp now) s = execQpcFetchFail qp now s := rfl
theorem exec_qpcHoldTimeout (qp now : Nat) (s : State) : exec (.qpcHoldTimeout qp now) s = execQpcHoldTimeout qp now s := rfl
theorem exec_shaperWheelSlot (now : Nat) (s : State) : exec (.shaperWheelSlot now) s = execShaperWheelSlot now s := rfl
theorem exec_queueSampleTick (now : Nat) (s : State) : exec (.queueSampleTick now) s = execQueueSampleTick now s := rfl
theorem exec_msaLineApply (line now : Nat) (s : State) : exec (.msaLineApply line now) s = execMsaLineApply line now s := rfl
theorem exec_msaOpTimeout (tag now : Nat) (s : State) : exec (.msaOpTimeout tag now) s = execMsaOpTimeout tag now s := rfl
theorem exec_msaGwTimeout (tag now : Nat) (s : State) : exec (.msaGwTimeout tag now) s = execMsaGwTimeout tag now s := rfl
theorem exec_stepStart (now : Nat) (s : State) : exec (.stepStart now) s = execStepStart now s := rfl
theorem exec_stepBoundary (now cycles : Nat) (s : State) : exec (.stepBoundary now cycles) s = execStepBoundary now cycles s := rfl
theorem exec_stepOverrun (s : State) : exec .stepOverrun s = execStepOverrun s := rfl
theorem exec_stepWatchdog (now : Nat) (s : State) : exec (.stepWatchdog now) s = execStepWatchdog now s := rfl
theorem exec_clusterResetComplete (m : Nat) (s : State) : exec (.clusterResetComplete m) s = execClusterResetComplete m s := rfl
theorem exec_drainWindowEnd (now : Nat) (s : State) : exec (.drainWindowEnd now) s = execDrainWindowEnd now s := rfl
theorem exec_loadTile (m cyc : Nat) (s : State) : exec (.loadTile m cyc) s = execLoadTile m cyc s := rfl
theorem exec_expandTile (m cyc : Nat) (s : State) : exec (.expandTile m cyc) s = execExpandTile m cyc s := rfl
theorem exec_mma (m cyc : Nat) (s : State) : exec (.mma m cyc) s = execMma m cyc s := rfl
theorem exec_vec (m cyc : Nat) (s : State) : exec (.vec m cyc) s = execVec m cyc s := rfl
theorem exec_sampleEntry (m cyc : Nat) (s : State) : exec (.sampleEntry m cyc) s = execSampleEntry m cyc s := rfl
theorem exec_sendEntry (m cyc now : Nat) (s : State) : exec (.sendEntry m cyc now) s = execSendEntry m cyc now s := rfl
theorem exec_waitEntry (m cyc : Nat) (s : State) : exec (.waitEntry m cyc) s = execWaitEntry m cyc s := rfl
theorem exec_signalEntry (m cyc : Nat) (s : State) : exec (.signalEntry m cyc) s = execSignalEntry m cyc s := rfl
theorem exec_signalDelivered (target flag cyc : Nat) (s : State) : exec (.signalDelivered target flag cyc) s = execSignalDelivered target flag cyc s := rfl
theorem exec_barrierEntry (m cyc : Nat) (s : State) : exec (.barrierEntry m cyc) s = execBarrierEntry m cyc s := rfl
theorem exec_sentinelEntry (m cyc : Nat) (s : State) : exec (.sentinelEntry m cyc) s = execSentinelEntry m cyc s := rfl
theorem exec_endEntry (m cyc : Nat) (s : State) : exec (.endEntry m cyc) s = execEndEntry m cyc s := rfl
theorem exec_entryDeadline (m cyc : Nat) (delivered onCycle : Bool) (s : State) : exec (.entryDeadline m cyc delivered onCycle) s = execEntryDeadline m cyc delivered onCycle s := rfl
theorem exec_hostArrivalComplete (slot : Nat) (s : State) : exec (.hostArrivalComplete slot) s = execHostArrivalComplete slot s := rfl
theorem exec_stagerTileStart (m : Nat) (s : State) : exec (.stagerTileStart m) s = execStagerTileStart m s := rfl
theorem exec_stagingComplete (c : ClusterCycle) (s : State) : exec (.stagingComplete c) s = execStagingComplete c s := rfl
theorem exec_directPathComplete (c : ClusterCycle) (s : State) : exec (.directPathComplete c) s = execDirectPathComplete c s := rfl
theorem exec_expanderBlockDone (c : ClusterCycle) (s : State) : exec (.expanderBlockDone c) s = execExpanderBlockDone c s := rfl
theorem exec_compressorObjectReady (region : Nat) (s : State) : exec (.compressorObjectReady region) s = execCompressorObjectReady region s := rfl
theorem exec_coreUncorrectedError (now cyc : Nat) (slots : List Nat) (s : State) : exec (.coreUncorrectedError now cyc slots) s = execCoreUncorrectedError now cyc slots s := rfl
theorem exec_coreCorrectedError (slot now : Nat) (s : State) : exec (.coreCorrectedError slot now) s = execCoreCorrectedError slot now s := rfl
theorem exec_spareLoadComplete (m now : Nat) (checksumMatches : Bool) (s : State) : exec (.spareLoadComplete m now checksumMatches) s = execSpareLoadComplete m now checksumMatches s := rfl
theorem exec_sentinelTestEnd (slot now : Nat) (passed : Bool) (s : State) : exec (.sentinelTestEnd slot now passed) s = execSentinelTestEnd slot now passed s := rfl
theorem exec_clusterUe (m now : Nat) (part : ClusterPart) (s : State) : exec (.clusterUe m now part) s = execClusterUe m now part s := rfl
theorem exec_lighterUe (region now : Nat) (s : State) : exec (.lighterUe region now) s = execLighterUe region now s := rfl
theorem exec_compressorUe (region now : Nat) (s : State) : exec (.compressorUe region now) s = execCompressorUe region now s := rfl
theorem exec_regionStopFail (region now : Nat) (s : State) : exec (.regionStopFail region now) s = execRegionStopFail region now s := rfl
theorem exec_dieStackFence (stack now : Nat) (cause : StackCause) (s : State) : exec (.dieStackFence stack now cause) s = execDieStackFence stack now cause s := rfl
theorem exec_hbmCorrectedError (stack dpa now : Nat) (s : State) : exec (.hbmCorrectedError stack dpa now) s = execHbmCorrectedError stack dpa now s := rfl
theorem exec_hbmRowCopyDone (dpa now : Nat) (s : State) : exec (.hbmRowCopyDone dpa now) s = execHbmRowCopyDone dpa now s := rfl
theorem exec_objectMoveComplete (object : MovedObject) (now : Nat) (verified : Bool) (s : State) : exec (.objectMoveComplete object now verified) s = execObjectMoveComplete object now verified s := rfl
theorem exec_memoryUe (now dpa : Nat) (lpx : Bool) (obj : DamagedObject) (s : State) : exec (.memoryUe now dpa lpx obj) s = execMemoryUe now dpa lpx obj s := rfl
theorem exec_lpxCorrectedError (device dpa now : Nat) (s : State) : exec (.lpxCorrectedError device dpa now) s = execLpxCorrectedError device dpa now s := rfl
theorem exec_sramCorrectedError (slice : Bool) (unit address now : Nat) (s : State) : exec (.sramCorrectedError slice unit address now) s = execSramCorrectedError slice unit address now s := rfl
theorem exec_sramUe (now address : Nat) (owner : SramOwner) (s : State) : exec (.sramUe now address owner) s = execSramUe now address owner s := rfl
theorem exec_fifoParityError (place : FifoPlace) (index now : Nat) (s : State) : exec (.fifoParityError place index now) s = execFifoParityError place index now s := rfl
theorem exec_fifoOverrun (place : FifoPlace) (index now : Nat) (s : State) : exec (.fifoOverrun place index now) s = execFifoOverrun place index now s := rfl
theorem exec_cpWatchdogExpire (cp now : Nat) (s : State) : exec (.cpWatchdogExpire cp now) s = execCpWatchdogExpire cp now s := rfl
theorem exec_cpRestartComplete (now : Nat) (s : State) : exec (.cpRestartComplete now) s = execCpRestartComplete now s := rfl
theorem exec_mgtWatchdogExpire (now : Nat) (s : State) : exec (.mgtWatchdogExpire now) s = execMgtWatchdogExpire now s := rfl
theorem exec_mgtRestartComplete (now : Nat) (s : State) : exec (.mgtRestartComplete now) s = execMgtRestartComplete now s := rfl
theorem exec_replayRoundTimeout (stepSeq now : Nat) (s : State) : exec (.replayRoundTimeout stepSeq now) s = execReplayRoundTimeout stepSeq now s := rfl
theorem exec_replayPartsTimeout (qp stepSeq now : Nat) (s : State) : exec (.replayPartsTimeout qp stepSeq now) s = execReplayPartsTimeout qp stepSeq now s := rfl
theorem exec_pageMoveTimeout (move now : Nat) (s : State) : exec (.pageMoveTimeout move now) s = execPageMoveTimeout move now s := rfl
theorem exec_pageMoveRetry (move now : Nat) (s : State) : exec (.pageMoveRetry move now) s = execPageMoveRetry move now s := rfl
theorem exec_pageDropRetry (drop now : Nat) (s : State) : exec (.pageDropRetry drop now) s = execPageDropRetry drop now s := rfl
theorem exec_arrivingFrameTimeout (frame now : Nat) (s : State) : exec (.arrivingFrameTimeout frame now) s = execArrivingFrameTimeout frame now s := rfl
theorem exec_demotionVerified (frame now : Nat) (verified : Bool) (s : State) : exec (.demotionVerified frame now verified) s = execDemotionVerified frame now verified s := rfl
theorem exec_swapOutVerified (berth now : Nat) (verified : Bool) (s : State) : exec (.swapOutVerified berth now verified) s = execSwapOutVerified berth now verified s := rfl
theorem exec_swapInComplete (berth now : Nat) (read : SnapRead) (s : State) : exec (.swapInComplete berth now read) s = execSwapInComplete berth now read s := rfl
theorem exec_handoffTimeout (berth now : Nat) (s : State) : exec (.handoffTimeout berth now) s = execHandoffTimeout berth now s := rfl
theorem exec_awaitConfirmTimeout (berth now : Nat) (s : State) : exec (.awaitConfirmTimeout berth now) s = execAwaitConfirmTimeout berth now s := rfl
theorem exec_reservedBerthTimeout (berth now : Nat) (s : State) : exec (.reservedBerthTimeout berth now) s = execReservedBerthTimeout berth now s := rfl
theorem exec_promotionVerified (slot : Nat) (verified : Bool) (s : State) : exec (.promotionVerified slot verified) s = execPromotionVerified slot verified s := rfl
theorem exec_attExchangeTimeout (tag now : Nat) (s : State) : exec (.attExchangeTimeout tag now) s = execAttExchangeTimeout tag now s := rfl
theorem exec_attServiceComplete (service now : Nat) (poisoned : List Nat) (s : State) : exec (.attServiceComplete service now poisoned) s = execAttServiceComplete service now poisoned s := rfl
theorem exec_flashWriteComplete (now : Nat) (verified : Bool) (s : State) : exec (.flashWriteComplete now verified) s = execFlashWriteComplete now verified s := rfl
theorem exec_bottomTreeGenerated (now : Nat) (s : State) : exec (.bottomTreeGenerated now) s = execBottomTreeGenerated now s := rfl
theorem exec_telemetryTick (now : Nat) (s : State) : exec (.telemetryTick now) s = execTelemetryTick now s := rfl
theorem exec_flashScrubTick (now : Nat) (s : State) : exec (.flashScrubTick now) s = execFlashScrubTick now s := rfl
theorem exec_meterPageMsTick (now : Nat) (s : State) : exec (.meterPageMsTick now) s = execMeterPageMsTick now s := rfl
theorem exec_errStatusRead (s : State) : exec .errStatusRead s = execErrStatusRead s := rfl
theorem exec_icmpv6EchoRequest (src : Nat) (dst : Bytes) (body : Bytes) (s : State) : exec (.icmpv6EchoRequest src dst body) s = execIcmpv6EchoRequest src dst body s := rfl
theorem exec_neighbourDiscoveryMessage (src : Nat) (target : Bytes) (body : Bytes) (s : State) : exec (.neighbourDiscoveryMessage src target body) s = execNeighbourDiscoveryMessage src target body s := rfl
theorem exec_traceTrigInput (pin : Nat) (rising : Bool) (s : State) : exec (.traceTrigInput pin rising) s = execTraceTrigInput pin rising s := rfl

end Sys2Proof.Machine
end

