-- ==== Sys2Proof/Laws/Keeps.lean ====
section
/-! SUPPORT. What every operation keeps: both memories in canonical form, the issue level within its bounds, and
the queue as it was. -/

namespace Sys2Proof.Machine

/-- What no command undoes, from `s` to `t`. -/
structure Keeps (s t : State) : Prop where
  mem : Memory.wf s.mem = true → Memory.wf t.mem = true
  coreMem : Memory.wf s.coreMem = true → Memory.wf t.coreMem = true
  level : 4 ≤ s.pwr.level ∧ s.pwr.level ≤ 16 → 4 ≤ t.pwr.level ∧ t.pwr.level ≤ 16
  mode : s.dev.personality ≤ 3 → t.dev.personality ≤ 3
  log : s.err.head < 1024 → t.err.head < 1024
  tag : s.fab.nextTag < 2 ^ 32 → t.fab.nextTag < 2 ^ 32
  queue : t.pending = s.pending

theorem Keeps.refl (s : State) : Keeps s s := ⟨id, id, id, id, id, id, rfl⟩
theorem Keeps.trans {s t u : State} (h : Keeps s t) (k : Keeps t u) : Keeps s u :=
  ⟨k.mem ∘ h.mem, k.coreMem ∘ h.coreMem, k.level ∘ h.level, k.mode ∘ h.mode, k.log ∘ h.log, k.tag ∘ h.tag, k.queue.trans h.queue⟩

/-- The same of a result with a value beside the state, of one that may be missing, and of an outcome. -/
def KeepsR {α : Type} (s : State) (x : α × State) : Prop := Keeps s x.2
def KeepsL {α : Type} (s : State) (x : State × α) : Prop := Keeps s x.1
def KeepsO (s : State) (x : Option State) : Prop := ∀ t, x = some t → Keeps s t
def KeepsOR {α : Type} (s : State) (x : Option (α × State)) : Prop := ∀ t, x = some t → Keeps s t.2
def KeepsX (s : State) (x : Host.Outcome State Fault Refusal) : Prop := ∀ t, x = .next t → Keeps s t

theorem KeepsR.snd {α : Type} {s : State} {x : α × State} (h : KeepsR s x) : Keeps s x.2 := h
theorem KeepsL.fst {α : Type} {s : State} {x : State × α} (h : KeepsL s x) : Keeps s x.1 := h
theorem KeepsR.mk {α : Type} {s t : State} {a : α} (h : Keeps s t) : KeepsR s (a, t) := h
theorem KeepsL.mk {α : Type} {s t : State} {a : α} (h : Keeps s t) : KeepsL s (t, a) := h
theorem KeepsO.mk {s t : State} (h : Keeps s t) : KeepsO s (some t) := fun _ e => Option.some.inj e ▸ h
theorem KeepsO.no {s : State} : KeepsO s none := fun _ e => nomatch e
theorem KeepsOR.mk {α : Type} {s t : State} {a : α} (h : Keeps s t) : KeepsOR s (some (a, t)) := fun _ e => Option.some.inj e ▸ h
theorem KeepsOR.no {α : Type} {s : State} : KeepsOR (α := α) s none := fun _ e => nomatch e
theorem KeepsX.mk {s t : State} (h : Keeps s t) : KeepsX s (.next t) := fun u e => by cases e; exact h
theorem KeepsX.no {s : State} {f : Fault} : KeepsX s (.fault f) := fun _ e => nomatch e
theorem KeepsO.get {s t : State} {x : Option State} (e : x = some t) (h : KeepsO s x) : Keeps s t := h t e
theorem KeepsOR.get {α : Type} {s : State} {t : α × State} {x : Option (α × State)} (e : x = some t) (h : KeepsOR s x) : Keeps s t.2 := h t e

/-- A named intermediate state. -/
theorem Keeps.via {s x v : State} {P : Prop} (e : x = v) (h : Keeps s v) (k : Keeps s x → P) : P := k (e ▸ h)
theorem KeepsR.via {α : Type} {s : State} {x v : α × State} {P : Prop} (e : x = v) (h : KeepsR s v) (k : Keeps s x.2 → P) : P := k (e ▸ h)
theorem KeepsL.via {α : Type} {s : State} {x v : State × α} {P : Prop} (e : x = v) (h : KeepsL s v) (k : Keeps s x.1 → P) : P := k (e ▸ h)

theorem Keeps.ite {c : Prop} [Decidable c] {s t u : State} (h : Keeps s t) (k : Keeps s u) : Keeps s (if c then t else u) := by
  split <;> assumption
theorem KeepsR.ite {α : Type} {c : Prop} [Decidable c] {s : State} {t u : α × State} (h : KeepsR s t) (k : KeepsR s u) : KeepsR s (if c then t else u) := by
  split <;> assumption
theorem KeepsO.ite {c : Prop} [Decidable c] {s : State} {t u : Option State} (h : KeepsO s t) (k : KeepsO s u) : KeepsO s (if c then t else u) := by
  split <;> assumption
theorem KeepsX.ite {c : Prop} [Decidable c] {s : State} {t u : Host.Outcome State Fault Refusal} (h : KeepsX s t) (k : KeepsX s u) : KeepsX s (if c then t else u) := by
  split <;> assumption

/-- A fold over a list. -/
theorem Keeps.fold {α : Type} {s : State} (l : List α) (g : State → α → State) : ∀ {t : State}, Keeps s t →
    (∀ t a, Keeps s t → Keeps s (g t a)) → Keeps s (l.foldl g t) := by
  induction l with
  | nil => exact fun h _ => h
  | cons a l ih => exact fun h k => ih (k _ a h) k
theorem KeepsR.fold {α β : Type} {s : State} (l : List α) (g : β × State → α → β × State) : ∀ {t : β × State}, KeepsR s t →
    (∀ t a, KeepsR s t → KeepsR s (g t a)) → KeepsR s (l.foldl g t) := by
  induction l with
  | nil => exact fun h _ => h
  | cons a l ih => exact fun h k => ih (k _ a h) k
theorem KeepsL.fold {α β : Type} {s : State} (l : List α) (g : State × β → α → State × β) : ∀ {t : State × β}, KeepsL s t →
    (∀ t a, KeepsL s t → KeepsL s (g t a)) → KeepsL s (l.foldl g t) := by
  induction l with
  | nil => exact fun h _ => h
  | cons a l ih => exact fun h k => ih (k _ a h) k

theorem KeepsR.get {α : Type} {s t : State} {a : α} {x : α × State} (e : x = (a, t)) (h : KeepsR s x) : Keeps s t := by subst e; exact h
theorem KeepsL.get {α : Type} {s t : State} {a : α} {x : State × α} (e : x = (t, a)) (h : KeepsL s x) : Keeps s t := by subst e; exact h
theorem KeepsO.via {s : State} {x v : Option State} {P : Prop} (e : x = v) (h : KeepsO s v) (k : KeepsO s x → P) : P := k (e ▸ h)
theorem KeepsOR.via {α : Type} {s : State} {x v : Option (α × State)} {P : Prop} (e : x = v) (h : KeepsOR s v) (k : KeepsOR s x → P) : P := k (e ▸ h)
theorem atTick_keeps {s₀ : State} (a1 : Nat) (s : State) (h : Keeps s₀ s) : Keeps s₀ (atTick a1 s) :=
  h.trans ⟨id, id, id, id, id, id, rfl⟩
theorem idle_keeps {s₀ : State} (s : State) (h : Keeps s₀ s) : Keeps s₀ (idle s) :=
  h.trans ⟨id, id, id, id, id, id, rfl⟩
theorem memWrite_keeps {s₀ : State} (a : Nat) (b : Bytes) (tags : List Nat) (s : State) (h : Keeps s₀ s) : Keeps s₀ (memWrite a b tags s) :=
  h.trans ⟨memWrite_wf a b tags s, id, id, id, id, id, rfl⟩
/-- Updates of the parts of the state that leave the issue level, the personality, the log's head or the next TAG in range. -/
def PwrKeeps (f : PwrSt → PwrSt) (p : PwrSt) : Prop := 4 ≤ p.level ∧ p.level ≤ 16 → 4 ≤ (f p).level ∧ (f p).level ≤ 16
def DevKeeps (f : DevSt → DevSt) : Prop := ∀ d, d.personality ≤ 3 → (f d).personality ≤ 3
def ErrKeeps (f : ErrSt → ErrSt) : Prop := ∀ e, e.head < 1024 → (f e).head < 1024
def FabKeeps (f : FabSt → FabSt) : Prop := ∀ b, b.nextTag < 2 ^ 32 → (f b).nextTag < 2 ^ 32
theorem PwrKeeps.mk {f : PwrSt → PwrSt} {p : PwrSt} (h : 4 ≤ p.level ∧ p.level ≤ 16 → 4 ≤ (f p).level ∧ (f p).level ≤ 16) : PwrKeeps f p := h
theorem DevKeeps.mk {f : DevSt → DevSt} (h : ∀ d, d.personality ≤ 3 → (f d).personality ≤ 3) : DevKeeps f := h
theorem ErrKeeps.mk {f : ErrSt → ErrSt} (h : ∀ e, e.head < 1024 → (f e).head < 1024) : ErrKeeps f := h
theorem FabKeeps.mk {f : FabSt → FabSt} (h : ∀ b, b.nextTag < 2 ^ 32 → (f b).nextTag < 2 ^ 32) : FabKeeps f := h

theorem modPwr_keeps {s₀ : State} (f : PwrSt → PwrSt) (s : State) (h : Keeps s₀ s) (k : PwrKeeps f s.pwr) : Keeps s₀ (modPwr f s) :=
  h.trans ⟨id, id, k, id, id, id, rfl⟩
theorem modDev_keeps {s₀ : State} (f : DevSt → DevSt) (s : State) (h : Keeps s₀ s) (k : DevKeeps f) : Keeps s₀ (modDev f s) :=
  h.trans ⟨id, id, id, k _, id, id, rfl⟩
theorem modErr_keeps {s₀ : State} (f : ErrSt → ErrSt) (s : State) (h : Keeps s₀ s) (k : ErrKeeps f) : Keeps s₀ (modErr f s) :=
  h.trans ⟨id, id, id, id, k _, id, rfl⟩
theorem modFab_keeps {s₀ : State} (f : FabSt → FabSt) (s : State) (h : Keeps s₀ s) (k : FabKeeps f) : Keeps s₀ (modFab f s) :=
  h.trans ⟨id, id, id, id, id, k _, rfl⟩
theorem cmWrite_keeps {s₀ : State} (a1 a2 : Nat) (b : Bytes) (tags : List Nat) (s : State) (h : Keeps s₀ s) : Keeps s₀ (cmWrite a1 a2 b tags s) :=
  h.trans ⟨id, cellsWrite_wf _ _ _, id, id, id, id, rfl⟩
/-- An update that leaves the queue, the clock, the power state and both memories alone. -/
theorem Keeps.upd {s₀ t : State} {free out regs flash sq cq msgs discards pcie mgmt msa sched man tier core eng memPoison corePoison satNow nanNow}
    (h : Keeps s₀ t) : Keeps s₀ { t with
      free := free, out := out, regs := regs, flash := flash, sq := sq, cq := cq, msgs := msgs, discards := discards,
      pcie := pcie, mgmt := mgmt, msa := msa, sched := sched, man := man, tier := tier, core := core, eng := eng,
      memPoison := memPoison, corePoison := corePoison, satNow := satNow, nanNow := nanNow } :=
  ⟨h.mem, h.coreMem, h.level, h.mode, h.log, h.tag, h.queue⟩
theorem KeepsO.map {α : Type} {s : State} {o : Option α} {g : α → State} (h : ∀ a, Keeps s (g a)) : KeepsO s (o.map g) := by
  cases o with
  | none => exact KeepsO.no
  | some a => exact KeepsO.mk (h a)
theorem KeepsOR.map {α β : Type} {s : State} {o : Option α} {g : α → β × State} (h : ∀ a, KeepsR s (g a)) : KeepsOR s (o.map g) := by
  cases o with
  | none => exact KeepsOR.no
  | some a => exact fun _ e => Option.some.inj e ▸ h a
theorem KeepsO.getD {s t : State} {o : Option State} (h : KeepsO s o) (k : Keeps s t) : Keeps s (o.getD t) := by
  cases o with
  | none => exact k
  | some a => exact h a rfl
theorem KeepsOR.getD {α : Type} {s : State} {t : α × State} {o : Option (α × State)} (h : KeepsOR s o) (k : KeepsR s t) : KeepsR s (o.getD t) := by
  cases o with
  | none => exact k
  | some a => exact h a rfl
theorem KeepsO.bind {α : Type} {s : State} {o : Option α} {g : α → Option State} (h : ∀ a, KeepsO s (g a)) : KeepsO s (o.bind g) := by
  cases o with
  | none => exact KeepsO.no
  | some a => exact h a
theorem KeepsOR.ite {α : Type} {c : Prop} [Decidable c] {s : State} {t u : Option (α × State)} (h : KeepsOR s t) (k : KeepsOR s u) : KeepsOR s (if c then t else u) := by
  split <;> assumption
theorem KeepsL.ite {α : Type} {c : Prop} [Decidable c] {s : State} {t u : State × α} (h : KeepsL s t) (k : KeepsL s u) : KeepsL s (if c then t else u) := by
  split <;> assumption
theorem KeepsO.mapS {s : State} {o : Option State} {g : State → State} (k : KeepsO s o) (h : ∀ a, Keeps s a → Keeps s (g a)) : KeepsO s (o.map g) := by
  cases o with
  | none => exact KeepsO.no
  | some a => exact KeepsO.mk (h a (k a rfl))
theorem KeepsO.mapR {α : Type} {s : State} {o : Option (α × State)} {g : α × State → State} (k : KeepsOR s o) (h : ∀ a, KeepsR s a → Keeps s (g a)) : KeepsO s (o.map g) := by
  cases o with
  | none => exact KeepsO.no
  | some a => exact KeepsO.mk (h a (k a rfl))
theorem KeepsOR.mapR {α β : Type} {s : State} {o : Option (α × State)} {g : α × State → β × State} (k : KeepsOR s o) (h : ∀ a, KeepsR s a → KeepsR s (g a)) : KeepsOR s (o.map g) := by
  cases o with
  | none => exact KeepsOR.no
  | some a => exact fun _ e => Option.some.inj e ▸ h a (k a rfl)
theorem KeepsO.bindS {s : State} {o : Option State} {g : State → Option State} (k : KeepsO s o) (h : ∀ a, Keeps s a → KeepsO s (g a)) : KeepsO s (o.bind g) := by
  cases o with
  | none => exact KeepsO.no
  | some a => exact h a (k a rfl)
theorem KeepsF.via {s : State} {x v : State → State} {P : Prop} (e : x = v) (h : ∀ t, Keeps s t → Keeps s (v t)) (k : (∀ t, Keeps s t → Keeps s (x t)) → P) : P := k (e ▸ h)
theorem KeepsF.via2 {α : Type} {s : State} {x v : α → State → State} {P : Prop} (e : x = v) (h : ∀ a t, Keeps s t → Keeps s (v a t)) (k : (∀ a t, Keeps s t → Keeps s (x a t)) → P) : P := k (e ▸ h)
theorem KeepsF.via3 {α : Type} {s : State} {x v : State → α → State} {P : Prop} (e : x = v) (h : ∀ t a, Keeps s t → Keeps s (v t a)) (k : (∀ t a, Keeps s t → Keeps s (x t a)) → P) : P := k (e ▸ h)
theorem KeepsOR.get2 {α : Type} {s t : State} {a : α} {x : Option (α × State)} (e : x = some (a, t)) (h : KeepsOR s x) : Keeps s t := h _ e
theorem Keeps.same_id {s t : State} (h : Keeps s t) : Keeps s (id t) := h
theorem KeepsOR.bindR {α β : Type} {s : State} {o : Option (α × State)} {g : α × State → Option (β × State)} (k : KeepsOR s o) (h : ∀ a, KeepsR s a → KeepsOR s (g a)) : KeepsOR s (o.bind g) := by
  cases o with
  | none => exact KeepsOR.no
  | some a => exact h a (k a rfl)

end Sys2Proof.Machine
end

