-- ==== Sys2Proof/Laws/KeepsOps.lean ====
section
/-! SUPPORT. What every operation keeps (`Keeps`): the shared operations, packets, requests and engines. -/

set_option linter.all false

namespace Sys2Proof.Machine

theorem regPut_keeps {s₀ : State} (a1 : ℕ) (a2 : ℕ) (s : State) (h : Keeps s₀ s) :
    Keeps s₀ (regPut a1 a2 s) := by
  unfold regPut
  repeat' first
    | with_reducible intro _
    | with_reducible assumption
    | with_reducible apply Keeps.ite
    | with_reducible apply Keeps.fold
    | with_reducible apply Keeps.same_id
    | with_reducible apply hk
    | split
    | with_reducible apply Keeps.upd

theorem bump_keeps {s₀ : State} (a1 : ℕ) (a2 : ℕ) (s : State) (h : Keeps s₀ s) :
    Keeps s₀ (bump a1 a2 s) := by
  unfold bump
  repeat' first
    | with_reducible intro _
    | with_reducible assumption
    | with_reducible apply regPut_keeps

theorem emit_keeps {s₀ : State} (a1 : Out) (s : State) (h : Keeps s₀ s) :
    Keeps s₀ (emit a1 s) := by
  unfold emit
  repeat' first
    | with_reducible intro _
    | with_reducible assumption
    | with_reducible apply Keeps.ite
    | with_reducible apply Keeps.fold
    | with_reducible apply Keeps.same_id
    | with_reducible apply hk
    | split
    | with_reducible apply Keeps.upd

theorem freeNext_keeps {s₀ : State} (s : State) (h : Keeps s₀ s) :
    Keeps s₀ (freeNext s) := by
  unfold freeNext
  repeat' first
    | with_reducible intro _
    | with_reducible assumption
    | with_reducible apply Keeps.ite
    | with_reducible apply Keeps.fold
    | with_reducible apply Keeps.same_id
    | with_reducible apply hk
    | split
    | with_reducible apply Keeps.upd

theorem modPcie_keeps {s₀ : State} (a1 : (PcieSt → PcieSt)) (s : State) (h : Keeps s₀ s) :
    Keeps s₀ (modPcie a1 s) := by
  unfold modPcie
  repeat' first
    | with_reducible intro _
    | with_reducible assumption
    | with_reducible apply Keeps.ite
    | with_reducible apply Keeps.fold
    | with_reducible apply Keeps.same_id
    | with_reducible apply hk
    | split
    | with_reducible apply Keeps.upd

theorem msixRaise_keeps {s₀ : State} (a1 : ℕ) (a2 : ℕ) (s : State) (h : Keeps s₀ s) :
    Keeps s₀ (msixRaise a1 a2 s) := by
  unfold msixRaise
  repeat' first
    | with_reducible intro _
    | with_reducible assumption
    | with_reducible apply bump_keeps
    | with_reducible apply emit_keeps
    | with_reducible apply modPcie_keeps
    | with_reducible apply Keeps.ite

theorem irqEvent_keeps {s₀ : State} (a1 : ℕ) (s : State) (h : Keeps s₀ s) :
    Keeps s₀ (irqEvent a1 s) := by
  unfold irqEvent
  repeat' first
    | with_reducible intro _
    | with_reducible assumption
    | with_reducible apply msixRaise_keeps
    | with_reducible apply regPut_keeps
    | with_reducible apply Keeps.ite

theorem keepMax_keeps {s₀ : State} (a1 : ℕ) (a2 : ℕ) (s : State) (h : Keeps s₀ s) :
    Keeps s₀ (keepMax a1 a2 s) := by
  unfold keepMax
  repeat' first
    | with_reducible intro _
    | with_reducible assumption
    | with_reducible apply regPut_keeps

theorem memStore_keeps {s₀ : State} (a1 : ℕ) (a2 : Bytes) (s : State) (h : Keeps s₀ s) :
    Keeps s₀ (memStore a1 a2 s) := by
  unfold memStore
  repeat' first
    | with_reducible intro _
    | with_reducible assumption
    | with_reducible apply memWrite_keeps

theorem modCore_keeps {s₀ : State} (a1 : (CoreSt → CoreSt)) (s : State) (h : Keeps s₀ s) :
    Keeps s₀ (modCore a1 s) := by
  unfold modCore
  repeat' first
    | with_reducible intro _
    | with_reducible assumption
    | with_reducible apply Keeps.ite
    | with_reducible apply Keeps.fold
    | with_reducible apply Keeps.same_id
    | with_reducible apply hk
    | split
    | with_reducible apply Keeps.upd

theorem modEng_keeps {s₀ : State} (a1 : (EngSt → EngSt)) (s : State) (h : Keeps s₀ s) :
    Keeps s₀ (modEng a1 s) := by
  unfold modEng
  repeat' first
    | with_reducible intro _
    | with_reducible assumption
    | with_reducible apply Keeps.ite
    | with_reducible apply Keeps.fold
    | with_reducible apply Keeps.same_id
    | with_reducible apply hk
    | split
    | with_reducible apply Keeps.upd

theorem modFlash_keeps {s₀ : State} (a1 : (FlashSt → FlashSt)) (s : State) (h : Keeps s₀ s) :
    Keeps s₀ (modFlash a1 s) := by
  unfold modFlash
  repeat' first
    | with_reducible intro _
    | with_reducible assumption
    | with_reducible apply Keeps.ite
    | with_reducible apply Keeps.fold
    | with_reducible apply Keeps.same_id
    | with_reducible apply hk
    | split
    | with_reducible apply Keeps.upd

theorem modMan_keeps {s₀ : State} (a1 : (ManSt → ManSt)) (s : State) (h : Keeps s₀ s) :
    Keeps s₀ (modMan a1 s) := by
  unfold modMan
  repeat' first
    | with_reducible intro _
    | with_reducible assumption
    | with_reducible apply Keeps.ite
    | with_reducible apply Keeps.fold
    | with_reducible apply Keeps.same_id
    | with_reducible apply hk
    | split
    | with_reducible apply Keeps.upd

theorem modMgmt_keeps {s₀ : State} (a1 : (MgmtSt → MgmtSt)) (s : State) (h : Keeps s₀ s) :
    Keeps s₀ (modMgmt a1 s) := by
  unfold modMgmt
  repeat' first
    | with_reducible intro _
    | with_reducible assumption
    | with_reducible apply Keeps.ite
    | with_reducible apply Keeps.fold
    | with_reducible apply Keeps.same_id
    | with_reducible apply hk
    | split
    | with_reducible apply Keeps.upd

theorem modMsa_keeps {s₀ : State} (a1 : (MsaSt → MsaSt)) (s : State) (h : Keeps s₀ s) :
    Keeps s₀ (modMsa a1 s) := by
  unfold modMsa
  repeat' first
    | with_reducible intro _
    | with_reducible assumption
    | with_reducible apply Keeps.ite
    | with_reducible apply Keeps.fold
    | with_reducible apply Keeps.same_id
    | with_reducible apply hk
    | split
    | with_reducible apply Keeps.upd

theorem modSched_keeps {s₀ : State} (a1 : (SchedSt → SchedSt)) (s : State) (h : Keeps s₀ s) :
    Keeps s₀ (modSched a1 s) := by
  unfold modSched
  repeat' first
    | with_reducible intro _
    | with_reducible assumption
    | with_reducible apply Keeps.ite
    | with_reducible apply Keeps.fold
    | with_reducible apply Keeps.same_id
    | with_reducible apply hk
    | split
    | with_reducible apply Keeps.upd

theorem modTier_keeps {s₀ : State} (a1 : (MemSt → MemSt)) (s : State) (h : Keeps s₀ s) :
    Keeps s₀ (modTier a1 s) := by
  unfold modTier
  repeat' first
    | with_reducible intro _
    | with_reducible assumption
    | with_reducible apply Keeps.ite
    | with_reducible apply Keeps.fold
    | with_reducible apply Keeps.same_id
    | with_reducible apply hk
    | split
    | with_reducible apply Keeps.upd

theorem recSend_keeps {s₀ : State} (a1 : ErrRec) (s : State) (h : Keeps s₀ s) :
    Keeps s₀ (recSend a1 s) := by
  unfold recSend
  repeat' first
    | with_reducible intro _
    | with_reducible assumption
    | exact DevKeeps.mk fun _ h => h
    | with_reducible apply bump_keeps
    | with_reducible apply emit_keeps
    | with_reducible apply irqEvent_keeps
    | with_reducible apply modDev_keeps
    | with_reducible apply Keeps.ite
    | with_reducible apply Keeps.fold
    | with_reducible apply Keeps.same_id
    | (extract_lets +onlyGivenNames x; clear_value (hx : x = _); refine Keeps.via (s := s₀) hx ?_ (fun _ => ?_); clear hx)
    | with_reducible apply hk
    | split

theorem record_keeps {s₀ : State} (w : RecWords) (s : State) (h : Keeps s₀ s) : Keeps s₀ (record w s) := by
  unfold record
  extract_lets s1 x r s2
  have h1 : Keeps s₀ s1 := bump_keeps _ _ _ h
  refine Keeps.ite (bump_keeps _ _ _ (modErr_keeps _ _ h1 (ErrKeeps.mk fun _ h => h))) ?_
  have h2 : Keeps s₀ s2 := modErr_keeps _ _ h1 (ErrKeeps.mk fun _ _ => Nat.mod_lt _ (by decide))
  exact Keeps.ite (modErr_keeps _ _ h2 (ErrKeeps.mk fun _ h => h)) (recSend_keeps _ _ h2)

theorem restrictEnter_keeps {s₀ : State} (a1 : ℕ) (s : State) (h : Keeps s₀ s) :
    Keeps s₀ (restrictEnter a1 s) := by
  unfold restrictEnter
  repeat' first
    | with_reducible intro _
    | with_reducible assumption
    | exact DevKeeps.mk fun _ h => h
    | with_reducible apply irqEvent_keeps
    | with_reducible apply modDev_keeps
    | with_reducible apply record_keeps
    | with_reducible apply Keeps.ite

theorem restrictLeave_keeps {s₀ : State} (a1 : ℕ) (s : State) (h : Keeps s₀ s) :
    Keeps s₀ (restrictLeave a1 s) := by
  unfold restrictLeave
  repeat' first
    | with_reducible intro _
    | with_reducible assumption
    | exact DevKeeps.mk fun _ h => h
    | with_reducible apply modDev_keeps

theorem takeFree_keeps {s₀ : State} (a1 : ℕ) (s : State) (h : Keeps s₀ s) :
    KeepsR s₀ (takeFree a1 s) := by
  unfold takeFree
  repeat' first
    | with_reducible intro _
    | with_reducible assumption
    | with_reducible apply Keeps.ite
    | with_reducible apply Keeps.fold
    | with_reducible apply Keeps.same_id
    | with_reducible apply KeepsR.ite
    | with_reducible apply KeepsR.fold
    | with_reducible refine KeepsR.get (by assumption) ?_
    | with_reducible apply hk
    | split
    | with_reducible apply KeepsR.mk
    | with_reducible apply Keeps.upd

theorem extFree_keeps {s₀ : State} (a1 : List ℕ) (s : State) (h : Keeps s₀ s) :
    Keeps s₀ (extFree a1 s) := by
  unfold extFree
  repeat' first
    | with_reducible intro _
    | with_reducible assumption
    | with_reducible apply modTier_keeps

theorem extTake_keeps {s₀ : State} (a1 : List (ℕ × ℕ)) (a2 : ℕ) (s : State) (h : Keeps s₀ s) :
    KeepsOR s₀ (extTake a1 a2 s) := by
  induction a2 generalizing a1 s with
  | zero =>
    unfold extTake
    repeat' first
      | with_reducible intro _
      | with_reducible assumption
      | with_reducible apply modTier_keeps
      | with_reducible apply Keeps.ite
      | with_reducible apply Keeps.fold
      | with_reducible apply Keeps.same_id
      | with_reducible apply KeepsR.ite
      | with_reducible apply KeepsR.fold
      | with_reducible exact KeepsOR.no
      | with_reducible apply KeepsOR.ite
      | with_reducible apply KeepsOR.mapR
      | with_reducible apply KeepsOR.map
      | with_reducible apply KeepsOR.getD
      | with_reducible refine KeepsOR.get2 (by assumption) ?_
      | with_reducible refine KeepsOR.get (by assumption) ?_
      | with_reducible refine KeepsR.get (by assumption) ?_
      | with_reducible apply hk
      | split
      | with_reducible apply KeepsR.mk
      | with_reducible apply KeepsOR.mk
  | succ k ih =>
    unfold extTake
    repeat' first
      | with_reducible intro _
      | with_reducible assumption
      | with_reducible apply ih
      | with_reducible apply modTier_keeps
      | with_reducible apply Keeps.ite
      | with_reducible apply Keeps.fold
      | with_reducible apply Keeps.same_id
      | with_reducible apply KeepsR.ite
      | with_reducible apply KeepsR.fold
      | with_reducible exact KeepsOR.no
      | with_reducible apply KeepsOR.ite
      | with_reducible apply KeepsOR.mapR
      | with_reducible apply KeepsOR.map
      | with_reducible apply KeepsOR.getD
      | with_reducible refine KeepsOR.get2 (by assumption) ?_
      | with_reducible refine KeepsOR.get (by assumption) ?_
      | with_reducible refine KeepsR.get (by assumption) ?_
      | with_reducible apply hk
      | split
      | with_reducible apply KeepsR.mk
      | with_reducible apply KeepsOR.mk

theorem extWrite_keeps {s₀ : State} (a1 : List ℕ) (a2 : Bytes) (s : State) (h : Keeps s₀ s) :
    Keeps s₀ (extWrite a1 a2 s) := by
  induction a1 generalizing a2 s with
  | nil =>
    unfold extWrite
    repeat' first
      | with_reducible intro _
      | with_reducible assumption
  | cons e l ih =>
    unfold extWrite
    repeat' first
      | with_reducible intro _
      | with_reducible assumption
      | with_reducible apply ih
      | with_reducible apply memStore_keeps
      | with_reducible apply Keeps.ite

theorem hostPoison_keeps {s₀ : State} (a1 : WinObj) (s : State) (h : Keeps s₀ s) :
    Keeps s₀ (hostPoison a1 s) := by
  unfold hostPoison
  repeat' first
    | with_reducible intro _
    | with_reducible assumption
    | with_reducible apply record_keeps
    | with_reducible apply Keeps.ite
    | with_reducible apply Keeps.fold
    | with_reducible apply Keeps.same_id
    | with_reducible apply hk
    | split

theorem winFree_keeps {s₀ : State} (a1 : WinObj) (s : State) (h : Keeps s₀ s) :
    Keeps s₀ (winFree a1 s) := by
  unfold winFree
  repeat' first
    | with_reducible intro _
    | with_reducible assumption
    | with_reducible apply modTier_keeps

theorem winPut_keeps {s₀ : State} (a1 : ℕ) (a2 : ℕ) (a3 : ℕ) (a4 : WinObj) (s : State) (h : Keeps s₀ s) :
    Keeps s₀ (winPut a1 a2 a3 a4 s) := by
  unfold winPut
  repeat' first
    | with_reducible intro _
    | with_reducible assumption
    | with_reducible apply modTier_keeps

theorem modCq_keeps {s₀ : State} (a1 : ℕ) (a2 : (CqRing → CqRing)) (s : State) (h : Keeps s₀ s) :
    Keeps s₀ (modCq a1 a2 s) := by
  unfold modCq
  repeat' first
    | with_reducible intro _
    | with_reducible assumption
    | with_reducible apply Keeps.ite
    | with_reducible apply Keeps.fold
    | with_reducible apply Keeps.same_id
    | with_reducible apply hk
    | split
    | with_reducible apply Keeps.upd

theorem cqIrq_keeps {s₀ : State} (a1 : ℕ) (s : State) (h : Keeps s₀ s) :
    Keeps s₀ (cqIrq a1 s) := by
  unfold cqIrq
  repeat' first
    | with_reducible intro _
    | with_reducible assumption
    | with_reducible apply modCq_keeps
    | with_reducible apply msixRaise_keeps
    | with_reducible apply Keeps.ite

theorem cqCoalesce_keeps {s₀ : State} (a1 : ℕ) (s : State) (h : Keeps s₀ s) :
    Keeps s₀ (cqCoalesce a1 s) := by
  unfold cqCoalesce
  repeat' first
    | with_reducible intro _
    | with_reducible assumption
    | with_reducible apply cqIrq_keeps
    | with_reducible apply modCq_keeps
    | with_reducible apply Keeps.ite

theorem cqSlotWrites_keeps {s₀ : State} (a1 : ℕ) (a2 : ℕ) (a3 : ℕ) (a4 : ℕ) (a5 : List Bytes) (s : State) (h : Keeps s₀ s) :
    Keeps s₀ (cqSlotWrites a1 a2 a3 a4 a5 s) := by
  induction a5 generalizing a1 a2 a3 a4 s with
  | nil =>
    unfold cqSlotWrites
    repeat' first
      | with_reducible intro _
      | with_reducible assumption
  | cons e l ih =>
    unfold cqSlotWrites
    repeat' first
      | with_reducible intro _
      | with_reducible assumption
      | with_reducible apply ih
      | with_reducible apply emit_keeps

theorem cqWrite_keeps {s₀ : State} (a1 : ℕ) (a2 : Bytes) (s : State) (h : Keeps s₀ s) :
    Keeps s₀ (cqWrite a1 a2 s) := by
  unfold cqWrite
  repeat' first
    | with_reducible intro _
    | with_reducible assumption
    | with_reducible apply cqCoalesce_keeps
    | with_reducible apply cqSlotWrites_keeps
    | with_reducible apply emit_keeps
    | with_reducible apply modCq_keeps
    | with_reducible apply Keeps.ite

theorem cqPost_keeps {s₀ : State} (a1 : ℕ) (a2 : Bytes) (s : State) (h : Keeps s₀ s) :
    Keeps s₀ (cqPost a1 a2 s) := by
  unfold cqPost
  repeat' first
    | with_reducible intro _
    | with_reducible assumption
    | with_reducible apply bump_keeps
    | with_reducible apply cqWrite_keeps
    | with_reducible apply modCq_keeps
    | with_reducible apply Keeps.ite

theorem putWords_keeps {s₀ : State} (a1 : ℕ) (a2 : Bytes) (s : State) (h : Keeps s₀ s) :
    Keeps s₀ (putWords a1 a2 s) := by
  unfold putWords
  repeat' first
    | with_reducible intro _
    | with_reducible assumption
    | with_reducible apply regPut_keeps
    | with_reducible apply Keeps.ite
    | with_reducible apply Keeps.fold

theorem mboxReply_keeps {s₀ : State} (a1 : ReplyOut) (s : State) (h : Keeps s₀ s) :
    Keeps s₀ (mboxReply a1 s) := by
  unfold mboxReply
  repeat' first
    | with_reducible intro _
    | with_reducible assumption
    | with_reducible apply putWords_keeps
    | with_reducible apply regPut_keeps

theorem modQp_keeps {s₀ : State} (a1 : ℕ) (a2 : (Qp → Qp)) (s : State) (h : Keeps s₀ s) :
    Keeps s₀ (modQp a1 a2 s) := by
  unfold modQp
  repeat' first
    | with_reducible intro _
    | with_reducible assumption
    | exact FabKeeps.mk fun _ h => h
    | with_reducible apply modFab_keeps

theorem modPort_keeps {s₀ : State} (a1 : ℕ) (a2 : (Port → Port)) (s : State) (h : Keeps s₀ s) :
    Keeps s₀ (modPort a1 a2 s) := by
  unfold modPort
  repeat' first
    | with_reducible intro _
    | with_reducible assumption
    | exact FabKeeps.mk fun _ h => h
    | with_reducible apply modFab_keeps

theorem modShaper_keeps {s₀ : State} (a1 : ℕ) (a2 : (Shaper → Shaper)) (s : State) (h : Keeps s₀ s) :
    Keeps s₀ (modShaper a1 a2 s) := by
  unfold modShaper
  repeat' first
    | with_reducible intro _
    | with_reducible assumption
    | with_reducible apply modSched_keeps

theorem queueFrame_keeps {s₀ : State} (a1 : Option ℕ) (a2 : TxFrame) (s : State) (h : Keeps s₀ s) :
    Keeps s₀ (queueFrame a1 a2 s) := by
  unfold queueFrame
  repeat' first
    | with_reducible intro _
    | with_reducible assumption
    | with_reducible apply modPort_keeps
    | with_reducible apply modShaper_keeps
    | with_reducible apply Keeps.ite
    | with_reducible apply Keeps.fold
    | with_reducible apply Keeps.same_id
    | with_reducible apply hk
    | split

theorem evictStart_keeps {s₀ : State} (a1 : ℕ) (s : State) (h : Keeps s₀ s) :
    Keeps s₀ (evictStart a1 s) := by
  unfold evictStart
  repeat' first
    | with_reducible intro _
    | with_reducible assumption
    | with_reducible apply modQp_keeps
    | with_reducible apply winPut_keeps
    | with_reducible apply Keeps.ite
    | with_reducible apply Keeps.fold
    | with_reducible apply Keeps.same_id
    | with_reducible apply hk
    | split

theorem evictAbandon_keeps {s₀ : State} (a1 : ℕ) (s : State) (h : Keeps s₀ s) :
    Keeps s₀ (evictAbandon a1 s) := by
  unfold evictAbandon
  repeat' first
    | with_reducible intro _
    | with_reducible assumption
    | with_reducible apply bump_keeps
    | with_reducible apply evictStart_keeps
    | with_reducible apply modQp_keeps
    | with_reducible apply winFree_keeps
    | with_reducible apply Keeps.ite

theorem takeSlot_keeps {s₀ : State} (a1 : ℕ) (s : State) (h : Keeps s₀ s) :
    Keeps s₀ (takeSlot a1 s) := by
  unfold takeSlot
  repeat' first
    | with_reducible intro _
    | with_reducible assumption
    | with_reducible apply modQp_keeps

theorem needSlot_keeps {s₀ : State} (a1 : ℕ) (s : State) (h : Keeps s₀ s) :
    Keeps s₀ (needSlot a1 s) := by
  unfold needSlot
  repeat' first
    | with_reducible intro _
    | with_reducible assumption
    | with_reducible apply evictStart_keeps
    | with_reducible apply modQp_keeps
    | with_reducible apply takeSlot_keeps
    | with_reducible apply Keeps.ite
    | with_reducible apply Keeps.fold
    | with_reducible apply Keeps.same_id
    | with_reducible apply hk
    | split

theorem wakeQp_keeps {s₀ : State} (a1 : ℕ) (s : State) (h : Keeps s₀ s) :
    Keeps s₀ (wakeQp a1 s) := by
  unfold wakeQp
  repeat' first
    | with_reducible intro _
    | with_reducible assumption
    | with_reducible apply evictAbandon_keeps
    | with_reducible apply needSlot_keeps
    | with_reducible apply Keeps.ite
    | with_reducible apply Keeps.fold
    | with_reducible apply Keeps.same_id
    | with_reducible apply hk
    | split

theorem tclSend_keeps {s₀ : State} (a1 : ℕ) (a2 : ℕ) (a3 : TxWhat) (a4 : Budget) (s : State) (h : Keeps s₀ s) :
    Keeps s₀ (tclSend a1 a2 a3 a4 s) := by
  unfold tclSend
  repeat' first
    | with_reducible intro _
    | with_reducible assumption
    | with_reducible apply modQp_keeps
    | with_reducible apply queueFrame_keeps
    | with_reducible apply wakeQp_keeps
    | with_reducible apply Keeps.ite
    | with_reducible apply Keeps.fold
    | with_reducible apply Keeps.same_id
    | (extract_lets +onlyGivenNames x; clear_value (hx : x = _); refine Keeps.via (s := s₀) hx ?_ (fun _ => ?_); clear hx)
    | with_reducible apply hk
    | split

theorem sendReply_keeps {s₀ : State} (a1 : Path) (a2 : ReplyOut) (s : State) (h : Keeps s₀ s) :
    Keeps s₀ (sendReply a1 a2 s) := by
  unfold sendReply
  repeat' first
    | with_reducible intro _
    | with_reducible assumption
    | with_reducible apply cqPost_keeps
    | with_reducible apply emit_keeps
    | with_reducible apply mboxReply_keeps
    | with_reducible apply tclSend_keeps
    | with_reducible apply Keeps.ite
    | with_reducible apply Keeps.fold
    | with_reducible apply Keeps.same_id
    | with_reducible apply hk
    | split

theorem answer_keeps {s₀ : State} (a1 : ℕ) (a2 : Pkt) (a3 : ℕ) (a4 : ℕ) (a5 : ℕ) (a6 : ℕ) (a7 : Bool) (s : State) (h : Keeps s₀ s) :
    Keeps s₀ (answer a1 a2 a3 a4 a5 a6 a7 s) := by
  unfold answer
  repeat' first
    | with_reducible intro _
    | with_reducible assumption
    | with_reducible apply bump_keeps
    | with_reducible apply record_keeps
    | with_reducible apply sendReply_keeps
    | with_reducible apply Keeps.ite

theorem failAt_keeps {s₀ : State} (a1 : ℕ) (a2 : Pkt) (a3 : ℕ) (a4 : ℕ) (s : State) (h : Keeps s₀ s) :
    Keeps s₀ (failAt a1 a2 a3 a4 s) := by
  unfold failAt
  repeat' first
    | with_reducible intro _
    | with_reducible assumption
    | with_reducible apply answer_keeps

theorem startDiscard_keeps {s₀ : State} (a1 : OpRow) (a2 : Pkt) (s : State) (h : Keeps s₀ s) :
    Keeps s₀ (startDiscard a1 a2 s) := by
  unfold startDiscard
  repeat' first
    | with_reducible intro _
    | with_reducible assumption
    | with_reducible apply bump_keeps
    | with_reducible apply Keeps.ite
    | with_reducible apply Keeps.fold
    | with_reducible apply Keeps.same_id
    | with_reducible apply hk
    | split
    | with_reducible apply Keeps.upd

theorem reject_keeps {s₀ : State} (a1 : OpRow) (a2 : Pkt) (a3 : ℕ) (a4 : ℕ) (s : State) (h : Keeps s₀ s) :
    Keeps s₀ (reject a1 a2 a3 a4 s) := by
  unfold reject
  repeat' first
    | with_reducible intro _
    | with_reducible assumption
    | with_reducible apply bump_keeps
    | with_reducible apply failAt_keeps
    | with_reducible apply startDiscard_keeps
    | with_reducible apply Keeps.ite

theorem clash_keeps {s₀ : State} (a1 : OpRow) (a2 : Pkt) (s : State) (h : Keeps s₀ s) :
    Keeps s₀ (clash a1 a2 s) := by
  unfold clash
  repeat' first
    | with_reducible intro _
    | with_reducible assumption
    | with_reducible apply reject_keeps
    | with_reducible apply takeFree_keeps
    | with_reducible apply Keeps.ite
    | with_reducible apply Keeps.fold
    | with_reducible apply Keeps.same_id
    | with_reducible apply KeepsR.ite
    | with_reducible apply KeepsR.fold
    | with_reducible refine KeepsR.get (by assumption) ?_
    | (with_reducible apply KeepsR.snd; with_reducible apply takeFree_keeps)

theorem cqDrain_keeps {s₀ : State} (a1 : ℕ) (a2 : ℕ) (s : State) (h : Keeps s₀ s) :
    Keeps s₀ (cqDrain a1 a2 s) := by
  induction a2 generalizing a1 s with
  | zero =>
    unfold cqDrain
    repeat' first
      | with_reducible intro _
      | with_reducible assumption
  | succ k ih =>
    unfold cqDrain
    repeat' first
      | with_reducible intro _
      | with_reducible assumption
      | with_reducible apply ih
      | with_reducible apply cqWrite_keeps
      | with_reducible apply modCq_keeps
      | with_reducible apply Keeps.ite
      | with_reducible apply Keeps.fold
      | with_reducible apply Keeps.same_id
      | with_reducible apply hk
      | split

theorem cqPackets_keeps {s₀ : State} (a1 : ℕ) (a2 : TxPkt) (s : State) (h : Keeps s₀ s) :
    Keeps s₀ (cqPackets a1 a2 s) := by
  unfold cqPackets
  repeat' first
    | with_reducible intro _
    | with_reducible assumption
    | with_reducible apply cqPost_keeps
    | with_reducible apply Keeps.ite
    | with_reducible apply Keeps.fold

theorem discardOne_keeps {s₀ : State} (a1 : ℕ) (a2 : Pkt) (s : State) (h : Keeps s₀ s) :
    Keeps s₀ (discardOne a1 a2 s) := by
  unfold discardOne
  repeat' first
    | with_reducible intro _
    | with_reducible assumption
    | with_reducible apply bump_keeps
    | with_reducible apply Keeps.ite
    | with_reducible apply Keeps.fold
    | with_reducible apply Keeps.same_id
    | with_reducible apply hk
    | split
    | with_reducible apply Keeps.upd

theorem endDiscards_keeps {s₀ : State} (a1 : Pkt) (s : State) (h : Keeps s₀ s) :
    Keeps s₀ (endDiscards a1 s) := by
  unfold endDiscards
  repeat' first
    | with_reducible intro _
    | with_reducible assumption
    | with_reducible apply Keeps.ite
    | with_reducible apply Keeps.fold
    | with_reducible apply Keeps.same_id
    | with_reducible apply hk
    | split
    | with_reducible apply Keeps.upd

theorem fail_keeps {s₀ : State} (a1 : ℕ) (a2 : Pkt) (a3 : ℕ) (s : State) (h : Keeps s₀ s) :
    Keeps s₀ (fail a1 a2 a3 s) := by
  unfold fail
  repeat' first
    | with_reducible intro _
    | with_reducible assumption
    | with_reducible apply failAt_keeps
    | with_reducible apply takeFree_keeps
    | with_reducible apply Keeps.ite
    | with_reducible apply Keeps.fold
    | with_reducible apply Keeps.same_id
    | with_reducible apply KeepsR.ite
    | with_reducible apply KeepsR.fold
    | with_reducible refine KeepsR.get (by assumption) ?_
    | (with_reducible apply KeepsR.snd; with_reducible apply takeFree_keeps)

theorem frameOut_keeps {s₀ : State} (a1 : Option ℕ) (a2 : ℕ × ℕ) (a3 : FrameOut) (s : State) (h : Keeps s₀ s) :
    Keeps s₀ (frameOut a1 a2 a3 s) := by
  unfold frameOut
  repeat' first
    | with_reducible intro _
    | with_reducible assumption
    | with_reducible apply bump_keeps
    | with_reducible apply emit_keeps
    | with_reducible apply Keeps.ite
    | with_reducible apply Keeps.fold
    | with_reducible apply Keeps.same_id
    | (extract_lets +onlyGivenNames x; clear_value (hx : x = _); refine Keeps.via (s := s₀) hx ?_ (fun _ => ?_); clear hx)
    | with_reducible apply hk
    | split

theorem meterIn_keeps {s₀ : State} (a1 : ℕ) (a2 : ℕ) (s : State) (h : Keeps s₀ s) :
    Keeps s₀ (meterIn a1 a2 s) := by
  unfold meterIn
  repeat' first
    | with_reducible intro _
    | with_reducible assumption
    | with_reducible apply modSched_keeps

theorem meterOut_keeps {s₀ : State} (a1 : ℕ) (a2 : ℕ) (s : State) (h : Keeps s₀ s) :
    Keeps s₀ (meterOut a1 a2 s) := by
  unfold meterOut
  repeat' first
    | with_reducible intro _
    | with_reducible assumption
    | with_reducible apply modSched_keeps

theorem meterRx_keeps {s₀ : State} (a1 : Pkt) (s : State) (h : Keeps s₀ s) :
    Keeps s₀ (meterRx a1 s) := by
  unfold meterRx
  repeat' first
    | with_reducible intro _
    | with_reducible assumption
    | with_reducible apply meterIn_keeps
    | with_reducible apply Keeps.ite
    | with_reducible apply Keeps.fold
    | with_reducible apply Keeps.same_id
    | with_reducible apply hk
    | split

theorem modSq_keeps {s₀ : State} (a1 : ℕ) (a2 : (SqRing → SqRing)) (s : State) (h : Keeps s₀ s) :
    Keeps s₀ (modSq a1 a2 s) := by
  unfold modSq
  repeat' first
    | with_reducible intro _
    | with_reducible assumption
    | with_reducible apply Keeps.ite
    | with_reducible apply Keeps.fold
    | with_reducible apply Keeps.same_id
    | with_reducible apply hk
    | split
    | with_reducible apply Keeps.upd

theorem msgClose_keeps {s₀ : State} (a1 : ℕ) (a2 : ℕ) (a3 : ℕ) (a4 : ℕ) (s : State) (h : Keeps s₀ s) :
    Keeps s₀ (msgClose a1 a2 a3 a4 s) := by
  unfold msgClose
  repeat' first
    | with_reducible intro _
    | with_reducible assumption
    | with_reducible apply Keeps.ite
    | with_reducible apply Keeps.fold
    | with_reducible apply Keeps.same_id
    | (extract_lets +onlyGivenNames x; clear_value x)
    | with_reducible apply hk
    | split
    | with_reducible apply Keeps.upd

theorem noteLink_keeps {s₀ : State} (a1 : Pkt) (s : State) (h : Keeps s₀ s) :
    Keeps s₀ (noteLink a1 s) := by
  unfold noteLink
  repeat' first
    | with_reducible intro _
    | with_reducible assumption
    | with_reducible apply modMan_keeps
    | with_reducible apply Keeps.ite
    | with_reducible apply Keeps.fold
    | with_reducible apply Keeps.same_id
    | with_reducible apply hk
    | split

theorem noteMsg_keeps {s₀ : State} (a1 : OpRow) (a2 : Pkt) (s : State) (h : Keeps s₀ s) :
    Keeps s₀ (noteMsg a1 a2 s) := by
  unfold noteMsg
  repeat' first
    | with_reducible intro _
    | with_reducible assumption
    | with_reducible apply noteLink_keeps
    | with_reducible apply Keeps.ite
    | with_reducible apply Keeps.fold
    | with_reducible apply Keeps.same_id
    | (extract_lets +onlyGivenNames x; clear_value x)
    | with_reducible apply hk
    | split
    | with_reducible apply Keeps.upd

theorem ok_keeps {s₀ : State} (a1 : ℕ) (a2 : Pkt) (a3 : ℕ) (s : State) (h : Keeps s₀ s) :
    Keeps s₀ (ok a1 a2 a3 s) := by
  unfold ok
  repeat' first
    | with_reducible intro _
    | with_reducible assumption
    | with_reducible apply answer_keeps

theorem orFormat_keeps {s₀ : State} (a1 : Bool) (a2 : ℕ) (a3 : Pkt) (f4 : (State → State)) (s : State) (hf4 : ∀ x0, Keeps s₀ x0 → Keeps s₀ (f4 x0)) (h : Keeps s₀ s) :
    Keeps s₀ (orFormat a1 a2 a3 f4 s) := by
  unfold orFormat
  repeat' first
    | with_reducible intro _
    | with_reducible assumption
    | with_reducible apply fail_keeps
    | with_reducible apply hf4
    | with_reducible apply Keeps.ite

theorem pend_keeps {s₀ : State} (a1 : ℕ) (a2 : Pkt) (s : State) (h : Keeps s₀ s) :
    Keeps s₀ (pend a1 a2 s) := by
  unfold pend
  repeat' first
    | with_reducible intro _
    | with_reducible assumption
    | with_reducible apply answer_keeps

theorem receiveWith_keeps {s₀ : State} (f1 : (State → OpRow → Pkt → Option (ℕ × ℕ))) (a2 : OpRow) (a3 : Pkt) (f4 : (State → State)) (s : State) (hf4 : ∀ x0, Keeps s₀ x0 → Keeps s₀ (f4 x0)) (h : Keeps s₀ s) :
    Keeps s₀ (receiveWith f1 a2 a3 f4 s) := by
  unfold receiveWith
  repeat' first
    | with_reducible intro _
    | with_reducible assumption
    | with_reducible apply atTick_keeps
    | with_reducible apply bump_keeps
    | with_reducible apply clash_keeps
    | with_reducible apply discardOne_keeps
    | with_reducible apply endDiscards_keeps
    | with_reducible apply meterRx_keeps
    | with_reducible apply noteMsg_keeps
    | with_reducible apply reject_keeps
    | with_reducible apply hf4
    | with_reducible apply Keeps.ite
    | with_reducible apply Keeps.fold
    | with_reducible apply Keeps.same_id
    | with_reducible apply hk
    | split

theorem receive_keeps {s₀ : State} (a1 : OpRow) (a2 : Pkt) (f3 : (State → State)) (s : State) (hf3 : ∀ x0, Keeps s₀ x0 → Keeps s₀ (f3 x0)) (h : Keeps s₀ s) :
    Keeps s₀ (receive a1 a2 f3 s) := by
  unfold receive
  repeat' first
    | with_reducible intro _
    | with_reducible assumption
    | with_reducible apply receiveWith_keeps
    | with_reducible apply hf3

theorem tclSendAll_keeps {s₀ : State} (a1 : ℕ) (a2 : TxWhat) (a3 : Budget) (a4 : List ℕ) (s : State) (h : Keeps s₀ s) :
    Keeps s₀ (tclSendAll a1 a2 a3 a4 s) := by
  induction a4 generalizing a1 a2 a3 s with
  | nil =>
    unfold tclSendAll
    repeat' first
      | with_reducible intro _
      | with_reducible assumption
  | cons e l ih =>
    unfold tclSendAll
    repeat' first
      | with_reducible intro _
      | with_reducible assumption
      | with_reducible apply ih
      | with_reducible apply tclSend_keeps

theorem respond_keeps {s₀ : State} (a1 : ℕ) (a2 : Pkt) (a3 : Bytes) (a4 : ℕ) (s : State) (h : Keeps s₀ s) :
    Keeps s₀ (respond a1 a2 a3 a4 s) := by
  unfold respond
  repeat' first
    | with_reducible intro _
    | with_reducible assumption
    | with_reducible apply cqPackets_keeps
    | with_reducible apply emit_keeps
    | with_reducible apply meterOut_keeps
    | with_reducible apply ok_keeps
    | with_reducible apply putWords_keeps
    | with_reducible apply tclSendAll_keeps
    | with_reducible apply Keeps.ite
    | with_reducible apply Keeps.fold
    | with_reducible apply Keeps.same_id
    | with_reducible apply hk
    | split

theorem sendControl_keeps {s₀ : State} (a1 : ℕ) (a2 : FrameOut) (s : State) (h : Keeps s₀ s) :
    Keeps s₀ (sendControl a1 a2 s) := by
  unfold sendControl
  repeat' first
    | with_reducible intro _
    | with_reducible assumption
    | with_reducible apply frameOut_keeps

theorem tcsSend_keeps {s₀ : State} (a1 : ℕ) (a2 : TxWhat) (a3 : Budget) (a4 : List ℕ) (s : State) (h : Keeps s₀ s) :
    Keeps s₀ (tcsSend a1 a2 a3 a4 s) := by
  unfold tcsSend
  repeat' first
    | with_reducible intro _
    | with_reducible assumption
    | with_reducible apply modQp_keeps
    | with_reducible apply queueFrame_keeps
    | with_reducible apply wakeQp_keeps
    | with_reducible apply Keeps.ite
    | with_reducible apply Keeps.fold
    | with_reducible apply Keeps.same_id
    | (extract_lets +onlyGivenNames x; clear_value (hx : x = _); refine Keeps.via (s := s₀) hx ?_ (fun _ => ?_); clear hx)
    | (extract_lets +onlyGivenNames x; clear_value x)
    | with_reducible apply hk
    | split

theorem sendMsgOn_keeps {s₀ : State} (a1 : ℕ) (a2 : MsgOut) (a3 : TxWhat) (s : State) (h : Keeps s₀ s) :
    Keeps s₀ (sendMsgOn a1 a2 a3 s) := by
  unfold sendMsgOn
  repeat' first
    | with_reducible intro _
    | with_reducible assumption
    | with_reducible apply cqPackets_keeps
    | with_reducible apply emit_keeps
    | with_reducible apply meterOut_keeps
    | with_reducible apply modQp_keeps
    | with_reducible apply tclSendAll_keeps
    | with_reducible apply tcsSend_keeps
    | with_reducible apply Keeps.ite
    | with_reducible apply Keeps.fold
    | with_reducible apply Keeps.same_id
    | (extract_lets +onlyGivenNames x; clear_value (hx : x = _); refine Keeps.via (s := s₀) hx ?_ (fun _ => ?_); clear hx)
    | (extract_lets +onlyGivenNames x; clear_value x)
    | with_reducible apply hk
    | split

theorem sendNak_keeps {s₀ : State} (a1 : ℕ) (a2 : ℕ) (a3 : NakCode) (s : State) (h : Keeps s₀ s) :
    Keeps s₀ (sendNak a1 a2 a3 s) := by
  unfold sendNak
  repeat' first
    | with_reducible intro _
    | with_reducible assumption
    | with_reducible apply bump_keeps
    | with_reducible apply sendControl_keeps

theorem slotFreed_keeps {s₀ : State} (a1 : ℕ) (s : State) (h : Keeps s₀ s) :
    Keeps s₀ (slotFreed a1 s) := by
  unfold slotFreed
  repeat' first
    | with_reducible intro _
    | with_reducible assumption
    | with_reducible apply takeSlot_keeps
    | with_reducible apply Keeps.ite
    | with_reducible apply Keeps.fold
    | with_reducible apply Keeps.same_id
    | with_reducible apply hk
    | split

theorem takeTag_keeps {s₀ : State} (s : State) (h : Keeps s₀ s) : KeepsR s₀ (takeTag s) :=
  KeepsR.mk (modFab_keeps _ _ h (FabKeeps.mk fun _ _ => Nat.mod_lt _ (by decide)))

theorem reservedWritten_keeps {s₀ : State} (a1 : ℕ) (a2 : ℕ) (s : State) (h : Keeps s₀ s) :
    Keeps s₀ (reservedWritten a1 a2 s) := by
  unfold reservedWritten
  repeat' first
    | with_reducible intro _
    | with_reducible assumption
    | exact ErrKeeps.mk fun _ h => h
    | with_reducible apply modErr_keeps
    | with_reducible apply record_keeps
    | with_reducible apply regPut_keeps

theorem regSet_keeps {s₀ : State} (a1 : ℕ) (a2 : ℕ) (s : State) (h : Keeps s₀ s) :
    Keeps s₀ (regSet a1 a2 s) := by
  unfold regSet
  repeat' first
    | with_reducible intro _
    | with_reducible assumption
    | with_reducible apply regPut_keeps
    | with_reducible apply reservedWritten_keeps
    | with_reducible apply Keeps.ite

theorem resetRegs_keeps {s₀ : State} (a1 : (Dom → ℕ → Bool)) (s : State) (h : Keeps s₀ s) :
    Keeps s₀ (resetRegs a1 s) := by
  unfold resetRegs
  repeat' first
    | with_reducible intro _
    | with_reducible assumption
    | with_reducible apply Keeps.ite
    | with_reducible apply Keeps.fold
    | with_reducible apply Keeps.same_id
    | with_reducible apply hk
    | split
    | with_reducible apply Keeps.upd

theorem modBerth_keeps {s₀ : State} (a1 : ℕ) (a2 : (Berth → Berth)) (s : State) (h : Keeps s₀ s) :
    Keeps s₀ (modBerth a1 a2 s) := by
  unfold modBerth
  repeat' first
    | with_reducible intro _
    | with_reducible assumption
    | with_reducible apply modMan_keeps

theorem failSoon_keeps {s₀ : State} (a1 : ℕ) (a2 : ℕ) (s : State) (h : Keeps s₀ s) :
    Keeps s₀ (failSoon a1 a2 s) := by
  unfold failSoon
  repeat' first
    | with_reducible intro _
    | with_reducible assumption
    | with_reducible apply modBerth_keeps

theorem frameGone_keeps {s₀ : State} (a1 : ℕ) (s : State) (h : Keeps s₀ s) :
    Keeps s₀ (frameGone a1 s) := by
  unfold frameGone
  repeat' first
    | with_reducible intro _
    | with_reducible assumption
    | with_reducible apply modMan_keeps

theorem modFrame_keeps {s₀ : State} (a1 : ℕ) (a2 : (Frame → Frame)) (s : State) (h : Keeps s₀ s) :
    Keeps s₀ (modFrame a1 a2 s) := by
  unfold modFrame
  repeat' first
    | with_reducible intro _
    | with_reducible assumption
    | with_reducible apply modMan_keeps

theorem frameUnref_keeps {s₀ : State} (a1 : ℕ) (s : State) (h : Keeps s₀ s) :
    Keeps s₀ (frameUnref a1 s) := by
  unfold frameUnref
  repeat' first
    | with_reducible intro _
    | with_reducible assumption
    | with_reducible apply frameGone_keeps
    | with_reducible apply modFrame_keeps
    | with_reducible apply Keeps.ite
    | with_reducible apply Keeps.fold
    | with_reducible apply Keeps.same_id
    | with_reducible apply hk
    | split

theorem incarnNext_keeps {s₀ : State} (a1 : ℕ) (s : State) (h : Keeps s₀ s) :
    Keeps s₀ (incarnNext a1 s) := by
  unfold incarnNext
  repeat' first
    | with_reducible intro _
    | with_reducible assumption
    | with_reducible apply modMan_keeps

theorem loseSoon_keeps {s₀ : State} (a1 : ℕ) (a2 : ℕ) (s : State) (h : Keeps s₀ s) :
    Keeps s₀ (loseSoon a1 a2 s) := by
  unfold loseSoon
  repeat' first
    | with_reducible intro _
    | with_reducible assumption
    | with_reducible apply modBerth_keeps

theorem modCnt_keeps {s₀ : State} (a1 : ℕ) (a2 : (ManCnt → ManCnt)) (s : State) (h : Keeps s₀ s) :
    Keeps s₀ (modCnt a1 a2 s) := by
  unfold modCnt
  repeat' first
    | with_reducible intro _
    | with_reducible assumption
    | with_reducible apply modBerth_keeps

theorem modProg_keeps {s₀ : State} (a1 : ℕ) (a2 : (ManProg → ManProg)) (s : State) (h : Keeps s₀ s) :
    Keeps s₀ (modProg a1 a2 s) := by
  unfold modProg
  repeat' first
    | with_reducible intro _
    | with_reducible assumption
    | with_reducible apply modBerth_keeps

theorem modTable_keeps {s₀ : State} (a1 : ℕ) (a2 : (PageTable → PageTable)) (s : State) (h : Keeps s₀ s) :
    Keeps s₀ (modTable a1 a2 s) := by
  unfold modTable
  repeat' first
    | with_reducible intro _
    | with_reducible assumption
    | with_reducible apply modBerth_keeps

theorem modPt_keeps {s₀ : State} (a1 : ℕ) (a2 : ℕ) (a3 : (PtEntry → PtEntry)) (s : State) (h : Keeps s₀ s) :
    Keeps s₀ (modPt a1 a2 a3 s) := by
  unfold modPt
  repeat' first
    | with_reducible intro _
    | with_reducible assumption
    | with_reducible apply modTable_keeps

theorem modWithy_keeps {s₀ : State} (a1 : ℕ) (a2 : (WithyVer → WithyVer)) (s : State) (h : Keeps s₀ s) :
    Keeps s₀ (modWithy a1 a2 s) := by
  unfold modWithy
  repeat' first
    | with_reducible intro _
    | with_reducible assumption
    | with_reducible apply modTier_keeps

theorem moved_keeps {s₀ : State} (a1 : ℕ) (a2 : ℕ) (s : State) (h : Keeps s₀ s) :
    Keeps s₀ (moved a1 a2 s) := by
  unfold moved
  repeat' first
    | with_reducible intro _
    | with_reducible assumption
    | with_reducible apply modCnt_keeps

theorem slackUpdate_keeps {s₀ : State} (a1 : ℕ) (s : State) (h : Keeps s₀ s) :
    Keeps s₀ (slackUpdate a1 s) := by
  unfold slackUpdate
  repeat' first
    | with_reducible intro _
    | with_reducible assumption
    | with_reducible apply bump_keeps
    | with_reducible apply modBerth_keeps
    | with_reducible apply modProg_keeps
    | with_reducible apply Keeps.ite
    | with_reducible apply Keeps.fold
    | with_reducible apply Keeps.same_id
    | with_reducible apply hk
    | split

theorem stopDrop_keeps {s₀ : State} (a1 : ℕ) (s : State) (h : Keeps s₀ s) :
    Keeps s₀ (stopDrop a1 s) := by
  unfold stopDrop
  repeat' first
    | with_reducible intro _
    | with_reducible assumption
    | with_reducible apply modMan_keeps

theorem stopTake_keeps {s₀ : State} (a1 : ℕ) (a2 : Bytes) (s : State) (h : Keeps s₀ s) :
    Keeps s₀ (stopTake a1 a2 s) := by
  unfold stopTake
  repeat' first
    | with_reducible intro _
    | with_reducible assumption
    | with_reducible apply modMan_keeps

theorem tokStream_keeps {s₀ : State} (a1 : ℕ) (a2 : ℕ) (a3 : List ℕ) (a4 : Bool) (a5 : ℕ) (s : State) (h : Keeps s₀ s) :
    Keeps s₀ (tokStream a1 a2 a3 a4 a5 s) := by
  unfold tokStream
  repeat' first
    | with_reducible intro _
    | with_reducible assumption
    | with_reducible apply bump_keeps
    | with_reducible apply modCnt_keeps
    | with_reducible apply moved_keeps
    | with_reducible apply sendMsgOn_keeps
    | with_reducible apply takeTag_keeps
    | with_reducible apply Keeps.ite
    | with_reducible apply Keeps.fold
    | with_reducible apply Keeps.same_id
    | with_reducible apply KeepsR.ite
    | with_reducible apply KeepsR.fold
    | with_reducible refine KeepsR.get (by assumption) ?_
    | (extract_lets +onlyGivenNames x; clear_value (hx : x = _); refine KeepsR.via (s := s₀) hx ?_ (fun _ => ?_); clear hx)
    | with_reducible apply hk
    | split

theorem streamStatus_keeps {s₀ : State} (a1 : ℕ) (a2 : ℕ) (a3 : Bool) (s : State) (h : Keeps s₀ s) :
    Keeps s₀ (streamStatus a1 a2 a3 s) := by
  unfold streamStatus
  repeat' first
    | with_reducible intro _
    | with_reducible assumption
    | with_reducible apply tokStream_keeps
    | with_reducible apply Keeps.ite
    | with_reducible apply Keeps.fold
    | with_reducible apply Keeps.same_id
    | with_reducible apply hk
    | split

theorem takeFrame_keeps {s₀ : State} (a1 : ℕ) (a2 : Frame) (s : State) (h : Keeps s₀ s) :
    KeepsOR s₀ (takeFrame a1 a2 s) := by
  unfold takeFrame
  repeat' first
    | with_reducible intro _
    | with_reducible assumption
    | with_reducible apply modMan_keeps
    | with_reducible apply Keeps.ite
    | with_reducible apply Keeps.fold
    | with_reducible apply Keeps.same_id
    | with_reducible apply KeepsR.ite
    | with_reducible apply KeepsR.fold
    | with_reducible exact KeepsOR.no
    | with_reducible apply KeepsOR.ite
    | with_reducible apply KeepsOR.mapR
    | with_reducible apply KeepsOR.map
    | with_reducible apply KeepsOR.getD
    | with_reducible refine KeepsOR.get2 (by assumption) ?_
    | with_reducible refine KeepsOR.get (by assumption) ?_
    | with_reducible refine KeepsR.get (by assumption) ?_
    | with_reducible apply hk
    | split
    | with_reducible apply KeepsR.mk

theorem takeLpx_keeps {s₀ : State} (a1 : ℕ) (a2 : Frame) (s : State) (h : Keeps s₀ s) :
    KeepsOR s₀ (takeLpx a1 a2 s) := by
  unfold takeLpx
  repeat' first
    | with_reducible intro _
    | with_reducible assumption
    | with_reducible apply modMan_keeps
    | with_reducible apply Keeps.ite
    | with_reducible apply Keeps.fold
    | with_reducible apply Keeps.same_id
    | with_reducible apply KeepsR.ite
    | with_reducible apply KeepsR.fold
    | with_reducible exact KeepsOR.no
    | with_reducible apply KeepsOR.ite
    | with_reducible apply KeepsOR.mapR
    | with_reducible apply KeepsOR.map
    | with_reducible apply KeepsOR.getD
    | with_reducible refine KeepsOR.get2 (by assumption) ?_
    | with_reducible refine KeepsOR.get (by assumption) ?_
    | with_reducible refine KeepsR.get (by assumption) ?_
    | with_reducible apply hk
    | split
    | with_reducible apply KeepsR.mk

theorem withyFree_keeps {s₀ : State} (a1 : ℕ) (s : State) (h : Keeps s₀ s) :
    Keeps s₀ (withyFree a1 s) := by
  unfold withyFree
  repeat' first
    | with_reducible intro _
    | with_reducible assumption
    | with_reducible apply bump_keeps
    | with_reducible apply extFree_keeps
    | with_reducible apply modTier_keeps

theorem withyPin_keeps {s₀ : State} (a1 : ℕ) (s : State) (h : Keeps s₀ s) :
    Keeps s₀ (withyPin a1 s) := by
  unfold withyPin
  repeat' first
    | with_reducible intro _
    | with_reducible assumption
    | with_reducible apply modWithy_keeps

theorem withyUnpin_keeps {s₀ : State} (a1 : ℕ) (s : State) (h : Keeps s₀ s) :
    Keeps s₀ (withyUnpin a1 s) := by
  unfold withyUnpin
  repeat' first
    | with_reducible intro _
    | with_reducible assumption
    | with_reducible apply modWithy_keeps
    | with_reducible apply withyFree_keeps
    | with_reducible apply Keeps.ite
    | with_reducible apply Keeps.fold
    | with_reducible apply Keeps.same_id
    | with_reducible apply hk
    | split

theorem modCluster_keeps {s₀ : State} (a1 : ℕ) (a2 : (Cluster → Cluster)) (s : State) (h : Keeps s₀ s) :
    Keeps s₀ (modCluster a1 a2 s) := by
  unfold modCluster
  repeat' first
    | with_reducible intro _
    | with_reducible assumption
    | with_reducible apply modCore_keeps

theorem advance_keeps {s₀ : State} (a1 : ℕ) (a2 : ℕ) (s : State) (h : Keeps s₀ s) :
    Keeps s₀ (advance a1 a2 s) := by
  unfold advance
  repeat' first
    | with_reducible intro _
    | with_reducible assumption
    | with_reducible apply modCluster_keeps

theorem modRegion_keeps {s₀ : State} (a1 : ℕ) (a2 : (RegionSt → RegionSt)) (s : State) (h : Keeps s₀ s) :
    Keeps s₀ (modRegion a1 a2 s) := by
  unfold modRegion
  repeat' first
    | with_reducible intro _
    | with_reducible assumption
    | with_reducible apply modCore_keeps

theorem modRun_keeps {s₀ : State} (a1 : (Run → Run)) (s : State) (h : Keeps s₀ s) :
    Keeps s₀ (modRun a1 s) := by
  unfold modRun
  repeat' first
    | with_reducible intro _
    | with_reducible assumption
    | with_reducible apply modEng_keeps
    | with_reducible apply Keeps.ite
    | with_reducible apply Keeps.fold
    | with_reducible apply Keeps.same_id
    | with_reducible apply hk
    | split

theorem modSlot_keeps {s₀ : State} (a1 : ℕ) (a2 : (CoreSlot → CoreSlot)) (s : State) (h : Keeps s₀ s) :
    Keeps s₀ (modSlot a1 a2 s) := by
  unfold modSlot
  repeat' first
    | with_reducible intro _
    | with_reducible assumption
    | with_reducible apply modCore_keeps

end Sys2Proof.Machine
end

