-- ==== Sys2Proof/Laws/KeepsEntries.lean ====
section
/-! SUPPORT. What every operation keeps (`Keeps`): table entries, host rings and the link. -/

set_option linter.all false

namespace Sys2Proof.Machine

theorem accWrite_keeps {s₀ : State} (a1 : ℕ) (a2 : ℕ) (a3 : List (List Res)) (s : State) (h : Keeps s₀ s) :
    Keeps s₀ (accWrite a1 a2 a3 s) := by
  unfold accWrite
  repeat' first
    | with_reducible intro _
    | with_reducible assumption
    | with_reducible apply cmWrite_keeps
    | with_reducible apply Keeps.ite
    | with_reducible apply Keeps.fold

theorem codeObject_keeps {s₀ : State} (a1 : ℕ) (a2 : ℕ) (a3 : Bytes) (s : State) (h : Keeps s₀ s) :
    KeepsR s₀ (codeObject a1 a2 a3 s) := by
  unfold codeObject
  repeat' first
    | with_reducible intro _
    | with_reducible assumption
    | with_reducible apply bump_keeps
    | with_reducible apply modRegion_keeps
    | with_reducible apply Keeps.ite
    | with_reducible apply Keeps.fold
    | with_reducible apply Keeps.same_id
    | with_reducible apply KeepsR.ite
    | with_reducible apply KeepsR.fold
    | with_reducible refine KeepsR.get (by assumption) ?_
    | (extract_lets +onlyGivenNames x; clear_value x)
    | with_reducible apply hk
    | split
    | with_reducible apply KeepsR.mk

theorem countPoison_keeps {s₀ : State} (a1 : List ℕ) (s : State) (h : Keeps s₀ s) :
    Keeps s₀ (countPoison a1 s) := by
  unfold countPoison
  repeat' first
    | with_reducible intro _
    | with_reducible assumption
    | with_reducible apply bump_keeps
    | with_reducible apply Keeps.ite

theorem queueBlocks_keeps {s₀ : State} (a1 : ℕ) (a2 : List ExpBlock) (s : State) (h : Keeps s₀ s) :
    Keeps s₀ (queueBlocks a1 a2 s) := by
  unfold queueBlocks
  repeat' first
    | with_reducible intro _
    | with_reducible assumption
    | with_reducible apply modCluster_keeps

theorem expandFx_keeps {s₀ : State} (a1 : ℕ) (a2 : Bytes) (a3 : Fetched) (a4 : Bool) (s : State) (h : Keeps s₀ s) :
    Keeps s₀ (expandFx a1 a2 a3 a4 s) := by
  unfold expandFx
  repeat' first
    | with_reducible intro _
    | with_reducible assumption
    | with_reducible apply countPoison_keeps
    | with_reducible apply freeNext_keeps
    | with_reducible apply modCluster_keeps
    | with_reducible apply queueBlocks_keeps

theorem loadInto_keeps {s₀ : State} (s : State) (a2 : ℕ) (a3 : Bytes) (a4 : Fetched) (h : Keeps s₀ s) :
    Keeps s₀ (loadInto s a2 a3 a4) := by
  unfold loadInto
  repeat' first
    | with_reducible intro _
    | with_reducible assumption
    | with_reducible apply cmWrite_keeps
    | with_reducible apply Keeps.ite
    | with_reducible apply Keeps.fold

theorem logRead_keeps {s₀ : State} (a1 : ℕ) (a2 : Fetched) (s : State) (h : Keeps s₀ s) :
    Keeps s₀ (logRead a1 a2 s) := by
  unfold logRead
  repeat' first
    | with_reducible intro _
    | with_reducible assumption
    | with_reducible apply modRun_keeps
    | with_reducible apply Keeps.ite

theorem loadTileFx_keeps {s₀ : State} (a1 : ℕ) (a2 : Bytes) (a3 : Fetched) (s : State) (h : Keeps s₀ s) :
    Keeps s₀ (loadTileFx a1 a2 a3 s) := by
  unfold loadTileFx
  repeat' first
    | with_reducible intro _
    | with_reducible assumption
    | with_reducible apply countPoison_keeps
    | with_reducible apply freeNext_keeps
    | with_reducible apply loadInto_keeps
    | with_reducible apply logRead_keeps
    | with_reducible apply queueBlocks_keeps

theorem driftMark_keeps {s₀ : State} (a1 : ℕ) (a2 : Bytes) (a3 : ℕ) (a4 : ℕ) (a5 : ℕ) (s : State) (h : Keeps s₀ s) :
    Keeps s₀ (driftMark a1 a2 a3 a4 a5 s) := by
  unfold driftMark
  repeat' first
    | with_reducible intro _
    | with_reducible assumption
    | with_reducible apply modRun_keeps
    | with_reducible apply record_keeps

theorem stageSat_keeps {s₀ : State} (a1 : ℕ) (s : State) (a3 : ℕ × ℕ) (h : Keeps s₀ s) :
    Keeps s₀ (stageSat a1 s a3) := by
  unfold stageSat
  repeat' first
    | with_reducible intro _
    | with_reducible assumption
    | with_reducible apply Keeps.ite
    | with_reducible apply Keeps.fold
    | with_reducible apply Keeps.same_id
    | with_reducible apply hk
    | split
    | with_reducible apply Keeps.upd

theorem sentinelFx_keeps {s₀ : State} (a1 : ℕ) (a2 : Bytes) (a3 : Fetched) (s : State) (h : Keeps s₀ s) :
    Keeps s₀ (sentinelFx a1 a2 a3 s) := by
  unfold sentinelFx
  repeat' first
    | with_reducible intro _
    | with_reducible assumption
    | with_reducible apply driftMark_keeps
    | with_reducible apply freeNext_keeps
    | with_reducible apply queueBlocks_keeps
    | with_reducible apply stageSat_keeps
    | with_reducible apply Keeps.ite
    | with_reducible apply Keeps.fold
    | with_reducible apply Keeps.same_id
    | with_reducible apply hk
    | split

theorem directFx_keeps {s₀ : State} (a1 : ℕ) (a2 : Bytes) (a3 : Fetched) (s : State) (h : Keeps s₀ s) :
    Keeps s₀ (directFx a1 a2 a3 s) := by
  unfold directFx
  repeat' first
    | with_reducible intro _
    | with_reducible assumption
    | with_reducible apply expandFx_keeps
    | with_reducible apply loadTileFx_keeps
    | with_reducible apply sentinelFx_keeps
    | with_reducible apply Keeps.ite

theorem stallTo_keeps {s₀ : State} (a1 : ℕ) (a2 : Bytes) (a3 : ℕ) (a4 : ℕ) (s : State) (h : Keeps s₀ s) :
    Keeps s₀ (stallTo a1 a2 a3 a4 s) := by
  unfold stallTo
  repeat' first
    | with_reducible intro _
    | with_reducible assumption
    | with_reducible apply bump_keeps
    | with_reducible apply modCluster_keeps
    | with_reducible apply regPut_keeps
    | with_reducible apply Keeps.ite

theorem switchEntry_keeps {s₀ : State} (a1 : ℕ) (a2 : ℕ) (a3 : Bytes) (s : State) (h : Keeps s₀ s) :
    Keeps s₀ (switchEntry a1 a2 a3 s) := by
  unfold switchEntry
  repeat' first
    | with_reducible intro _
    | with_reducible assumption
    | with_reducible apply advance_keeps
    | with_reducible apply modCluster_keeps
    | with_reducible apply Keeps.ite

theorem directNext_keeps {s₀ : State} (a1 : ℕ) (a2 : ℕ) (s : State) (h : Keeps s₀ s) :
    Keeps s₀ (directNext a1 a2 s) := by
  unfold directNext
  repeat' first
    | with_reducible intro _
    | with_reducible assumption
    | with_reducible apply modCluster_keeps
    | with_reducible apply stallTo_keeps
    | with_reducible apply switchEntry_keeps
    | with_reducible apply Keeps.ite
    | with_reducible apply Keeps.fold
    | with_reducible apply Keeps.same_id
    | (extract_lets +onlyGivenNames x; clear_value (hx : x = _); refine Keeps.via (s := s₀) hx ?_ (fun _ => ?_); clear hx)
    | with_reducible apply hk
    | split

theorem engineTime_keeps {s₀ : State} (a1 : ℕ) (a2 : ℕ) (a3 : ℕ) (a4 : ℕ × ℕ) (a5 : TileBuf) (s : State) (h : Keeps s₀ s) :
    Keeps s₀ (engineTime a1 a2 a3 a4 a5 s) := by
  unfold engineTime
  repeat' first
    | with_reducible intro _
    | with_reducible assumption
    | with_reducible apply bump_keeps
    | with_reducible apply modCluster_keeps

theorem execBarrierEntry_keeps {s₀ : State} (a1 : ℕ) (a2 : ℕ) (s : State) (h : Keeps s₀ s) :
    KeepsX s₀ (execBarrierEntry a1 a2 s) := by
  unfold execBarrierEntry
  repeat' first
    | with_reducible intro _
    | with_reducible assumption
    | with_reducible apply advance_keeps
    | with_reducible apply modCluster_keeps
    | with_reducible apply Keeps.ite
    | with_reducible apply KeepsX.mk
    | with_reducible exact KeepsX.no
    | with_reducible apply KeepsX.ite
    | with_reducible apply Keeps.fold
    | with_reducible apply Keeps.same_id
    | with_reducible apply hk
    | split

theorem execCompressorObjectReady_keeps {s₀ : State} (a1 : ℕ) (s : State) (h : Keeps s₀ s) :
    KeepsX s₀ (execCompressorObjectReady a1 s) := by
  unfold execCompressorObjectReady
  repeat' first
    | with_reducible intro _
    | with_reducible assumption
    | with_reducible apply bump_keeps
    | with_reducible apply modRegion_keeps
    | with_reducible apply Keeps.ite
    | with_reducible apply KeepsX.mk
    | with_reducible exact KeepsX.no
    | with_reducible apply KeepsX.ite
    | with_reducible apply Keeps.fold
    | with_reducible apply Keeps.same_id
    | with_reducible apply hk
    | split

theorem loadedAt_keeps {s₀ : State} (a1 : ℕ) (a2 : ℕ) (a3 : ℕ) (a4 : ℕ) (s : State) (h : Keeps s₀ s) :
    Keeps s₀ (loadedAt a1 a2 a3 a4 s) := by
  unfold loadedAt
  repeat' first
    | with_reducible intro _
    | with_reducible assumption
    | with_reducible apply modCluster_keeps

theorem execDirectPathComplete_keeps {s₀ : State} (a1 : ClusterCycle) (s : State) (h : Keeps s₀ s) :
    KeepsX s₀ (execDirectPathComplete a1 s) := by
  unfold execDirectPathComplete
  repeat' first
    | with_reducible intro _
    | with_reducible assumption
    | with_reducible apply bump_keeps
    | with_reducible apply directFx_keeps
    | with_reducible apply directNext_keeps
    | with_reducible apply loadedAt_keeps
    | with_reducible apply Keeps.ite
    | with_reducible apply KeepsX.mk
    | with_reducible exact KeepsX.no
    | with_reducible apply KeepsX.ite
    | with_reducible apply Keeps.fold
    | with_reducible apply Keeps.same_id
    | with_reducible apply hk
    | split

theorem execEndEntry_keeps {s₀ : State} (a1 : ℕ) (a2 : ℕ) (s : State) (h : Keeps s₀ s) :
    KeepsX s₀ (execEndEntry a1 a2 s) := by
  unfold execEndEntry
  repeat' first
    | with_reducible intro _
    | with_reducible assumption
    | with_reducible apply modCluster_keeps
    | with_reducible apply stallTo_keeps
    | with_reducible apply Keeps.ite
    | with_reducible apply KeepsX.mk
    | with_reducible exact KeepsX.no
    | with_reducible apply KeepsX.ite
    | with_reducible apply Keeps.fold
    | with_reducible apply Keeps.same_id
    | with_reducible apply hk
    | split

theorem markSuspect_keeps {s₀ : State} (s : State) (h : Keeps s₀ s) :
    Keeps s₀ (markSuspect s) := by
  unfold markSuspect
  repeat' first
    | with_reducible intro _
    | with_reducible assumption
    | with_reducible apply modRun_keeps

theorem releaseTile_keeps {s₀ : State} (a1 : ℕ) (a2 : ℕ) (s : State) (h : Keeps s₀ s) :
    Keeps s₀ (releaseTile a1 a2 s) := by
  unfold releaseTile
  repeat' first
    | with_reducible intro _
    | with_reducible assumption
    | with_reducible apply modCluster_keeps

theorem fallback_keeps {s₀ : State} (a1 : ℕ) (a2 : ℕ) (a3 : Bytes) (s : State) (h : Keeps s₀ s) :
    Keeps s₀ (fallback a1 a2 a3 s) := by
  unfold fallback
  repeat' first
    | with_reducible intro _
    | with_reducible assumption
    | with_reducible apply advance_keeps
    | with_reducible apply bump_keeps
    | with_reducible apply markSuspect_keeps
    | with_reducible apply modCluster_keeps
    | with_reducible apply releaseTile_keeps
    | with_reducible apply switchEntry_keeps
    | with_reducible apply Keeps.ite

theorem execEntryDeadline_keeps {s₀ : State} (a1 : ℕ) (a2 : ℕ) (a3 : Bool) (a4 : Bool) (s : State) (h : Keeps s₀ s) :
    KeepsX s₀ (execEntryDeadline a1 a2 a3 a4 s) := by
  unfold execEntryDeadline
  repeat' first
    | with_reducible intro _
    | with_reducible assumption
    | with_reducible apply fallback_keeps
    | with_reducible apply modCluster_keeps
    | with_reducible apply stallTo_keeps
    | with_reducible apply Keeps.ite
    | with_reducible apply KeepsX.mk
    | with_reducible exact KeepsX.no
    | with_reducible apply KeepsX.ite
    | with_reducible apply Keeps.fold
    | with_reducible apply Keeps.same_id
    | with_reducible apply hk
    | split

theorem issue_keeps {s₀ : State} (a1 : ℕ) (a2 : ℕ) (a3 : Bytes) (s : State) (h : Keeps s₀ s) :
    Keeps s₀ (issue a1 a2 a3 s) := by
  unfold issue
  repeat' first
    | with_reducible intro _
    | with_reducible assumption
    | with_reducible apply advance_keeps
    | with_reducible apply stallTo_keeps

theorem execExpandTile_keeps {s₀ : State} (a1 : ℕ) (a2 : ℕ) (s : State) (h : Keeps s₀ s) :
    KeepsX s₀ (execExpandTile a1 a2 s) := by
  unfold execExpandTile
  repeat' first
    | with_reducible intro _
    | with_reducible assumption
    | with_reducible apply expandFx_keeps
    | with_reducible apply issue_keeps
    | with_reducible apply releaseTile_keeps
    | with_reducible apply Keeps.ite
    | with_reducible apply KeepsX.mk
    | with_reducible exact KeepsX.no
    | with_reducible apply KeepsX.ite
    | with_reducible apply Keeps.fold
    | with_reducible apply Keeps.same_id
    | with_reducible apply hk
    | split

theorem mismatchFx_keeps {s₀ : State} (a1 : ℕ) (a2 : ExpBlock) (s : State) (h : Keeps s₀ s) :
    Keeps s₀ (mismatchFx a1 a2 s) := by
  unfold mismatchFx
  repeat' first
    | with_reducible intro _
    | with_reducible assumption
    | with_reducible apply bump_keeps
    | with_reducible apply markSuspect_keeps
    | with_reducible apply modTier_keeps
    | with_reducible apply record_keeps
    | with_reducible apply regPut_keeps
    | with_reducible apply Keeps.ite
    | with_reducible apply Keeps.fold
    | with_reducible apply Keeps.same_id
    | with_reducible apply hk
    | split

theorem expanderCounts_keeps {s₀ : State} (a1 : ℕ) (a2 : ExpBlock) (s : State) (h : Keeps s₀ s) :
    Keeps s₀ (expanderCounts a1 a2 s) := by
  unfold expanderCounts
  repeat' first
    | with_reducible intro _
    | with_reducible assumption
    | with_reducible apply bump_keeps
    | with_reducible apply mismatchFx_keeps

theorem execExpanderBlockDone_keeps {s₀ : State} (a1 : ClusterCycle) (s : State) (h : Keeps s₀ s) :
    KeepsX s₀ (execExpanderBlockDone a1 s) := by
  unfold execExpanderBlockDone
  repeat' first
    | with_reducible intro _
    | with_reducible assumption
    | with_reducible apply expanderCounts_keeps
    | with_reducible apply loadedAt_keeps
    | with_reducible apply modCluster_keeps
    | with_reducible apply Keeps.ite
    | with_reducible apply KeepsX.mk
    | with_reducible exact KeepsX.no
    | with_reducible apply KeepsX.ite
    | with_reducible apply Keeps.fold
    | with_reducible apply Keeps.same_id
    | with_reducible apply hk
    | split

theorem flagUp_keeps {s₀ : State} (a1 : ℕ) (a2 : ℕ) (s : State) (h : Keeps s₀ s) :
    Keeps s₀ (flagUp a1 a2 s) := by
  unfold flagUp
  repeat' first
    | with_reducible intro _
    | with_reducible assumption
    | with_reducible apply modCluster_keeps

theorem flagArrival_keeps {s₀ : State} (a1 : ℕ) (s : State) (h : Keeps s₀ s) :
    Keeps s₀ (flagArrival a1 s) := by
  unfold flagArrival
  repeat' first
    | with_reducible intro _
    | with_reducible assumption
    | with_reducible apply flagUp_keeps
    | with_reducible apply Keeps.ite
    | with_reducible apply Keeps.fold

theorem execHostArrivalComplete_keeps {s₀ : State} (a1 : ℕ) (s : State) (h : Keeps s₀ s) :
    KeepsX s₀ (execHostArrivalComplete a1 s) := by
  unfold execHostArrivalComplete
  repeat' first
    | with_reducible intro _
    | with_reducible assumption
    | with_reducible apply flagArrival_keeps
    | with_reducible apply Keeps.ite
    | with_reducible apply KeepsX.mk
    | with_reducible exact KeepsX.no
    | with_reducible apply KeepsX.ite
    | with_reducible apply Keeps.fold
    | with_reducible apply Keeps.same_id
    | with_reducible apply hk
    | split

theorem execLoadTile_keeps {s₀ : State} (a1 : ℕ) (a2 : ℕ) (s : State) (h : Keeps s₀ s) :
    KeepsX s₀ (execLoadTile a1 a2 s) := by
  unfold execLoadTile
  repeat' first
    | with_reducible intro _
    | with_reducible assumption
    | with_reducible apply issue_keeps
    | with_reducible apply loadTileFx_keeps
    | with_reducible apply releaseTile_keeps
    | with_reducible apply Keeps.ite
    | with_reducible apply KeepsX.mk
    | with_reducible exact KeepsX.no
    | with_reducible apply KeepsX.ite
    | with_reducible apply Keeps.fold
    | with_reducible apply Keeps.same_id
    | with_reducible apply hk
    | split

theorem nanEvent_keeps {s₀ : State} (a1 : ℕ) (a2 : Bool) (s : State) (h : Keeps s₀ s) :
    Keeps s₀ (nanEvent a1 a2 s) := by
  unfold nanEvent
  repeat' first
    | with_reducible intro _
    | with_reducible assumption
    | with_reducible apply record_keeps
    | with_reducible apply Keeps.ite
    | with_reducible apply Keeps.fold
    | with_reducible apply Keeps.same_id
    | with_reducible apply hk
    | split
    | with_reducible apply Keeps.upd

theorem mmaCore_keeps {s₀ : State} (a1 : ℕ) (a2 : ℕ) (a3 : Bytes) (a4 : ℕ) (s : State) (a6 : ℕ × ℕ) (h : Keeps s₀ s) :
    Keeps s₀ (mmaCore a1 a2 a3 a4 s a6) := by
  unfold mmaCore
  repeat' first
    | with_reducible intro _
    | with_reducible assumption
    | with_reducible apply accWrite_keeps
    | with_reducible apply engineTime_keeps
    | with_reducible apply modCluster_keeps
    | with_reducible apply nanEvent_keeps
    | with_reducible apply stageSat_keeps
    | with_reducible apply Keeps.ite
    | with_reducible apply Keeps.fold
    | with_reducible apply Keeps.same_id
    | (extract_lets +onlyGivenNames x; clear_value x)
    | with_reducible apply hk
    | split

theorem execMma_keeps {s₀ : State} (a1 : ℕ) (a2 : ℕ) (s : State) (h : Keeps s₀ s) :
    KeepsX s₀ (execMma a1 a2 s) := by
  unfold execMma
  repeat' first
    | with_reducible intro _
    | with_reducible assumption
    | with_reducible apply issue_keeps
    | with_reducible apply mmaCore_keeps
    | with_reducible apply Keeps.ite
    | with_reducible apply KeepsX.mk
    | with_reducible exact KeepsX.no
    | with_reducible apply KeepsX.ite
    | with_reducible apply Keeps.fold
    | with_reducible apply Keeps.same_id
    | with_reducible apply hk
    | split

theorem sampleServed_keeps {s₀ : State} (s : State) (a2 : Batch) (a3 : ℕ) (a4 : Bytes) (h : Keeps s₀ s) :
    KeepsR s₀ (sampleServed s a2 a3 a4) := by
  unfold sampleServed
  repeat' first
    | with_reducible intro _
    | with_reducible assumption
    | with_reducible apply takeFree_keeps
    | with_reducible apply Keeps.ite
    | with_reducible apply Keeps.fold
    | with_reducible apply Keeps.same_id
    | with_reducible apply KeepsR.ite
    | with_reducible apply KeepsR.fold
    | with_reducible refine KeepsR.get (by assumption) ?_
    | (extract_lets +onlyGivenNames x; clear_value (hx : x = _); refine KeepsR.via (s := s₀) hx ?_ (fun _ => ?_); clear hx)
    | with_reducible apply hk
    | split
    | with_reducible apply KeepsR.mk

theorem sampleCore_keeps {s₀ : State} (a1 : Bytes) (a2 : ℕ) (s : State) (a4 : ℕ) (h : Keeps s₀ s) :
    Keeps s₀ (sampleCore a1 a2 s a4) := by
  unfold sampleCore
  repeat' first
    | with_reducible intro _
    | with_reducible assumption
    | with_reducible apply cmWrite_keeps
    | with_reducible apply modRun_keeps
    | with_reducible apply sampleServed_keeps
    | with_reducible apply stageSat_keeps
    | with_reducible apply Keeps.ite
    | with_reducible apply Keeps.fold
    | with_reducible apply Keeps.same_id
    | with_reducible apply KeepsR.ite
    | with_reducible apply KeepsR.fold
    | with_reducible refine KeepsR.get (by assumption) ?_
    | (extract_lets +onlyGivenNames x; clear_value (hx : x = _); refine KeepsR.via (s := s₀) hx ?_ (fun _ => ?_); clear hx)
    | (extract_lets +onlyGivenNames x; clear_value x)
    | with_reducible apply hk
    | split

theorem execSampleEntry_keeps {s₀ : State} (a1 : ℕ) (a2 : ℕ) (s : State) (h : Keeps s₀ s) :
    KeepsX s₀ (execSampleEntry a1 a2 s) := by
  unfold execSampleEntry
  repeat' first
    | with_reducible intro _
    | with_reducible assumption
    | with_reducible apply issue_keeps
    | with_reducible apply sampleCore_keeps
    | with_reducible apply Keeps.ite
    | with_reducible apply KeepsX.mk
    | with_reducible exact KeepsX.no
    | with_reducible apply KeepsX.ite
    | with_reducible apply Keeps.fold
    | with_reducible apply Keeps.same_id
    | with_reducible apply hk
    | split

theorem execSentinelEntry_keeps {s₀ : State} (a1 : ℕ) (a2 : ℕ) (s : State) (h : Keeps s₀ s) :
    KeepsX s₀ (execSentinelEntry a1 a2 s) := by
  unfold execSentinelEntry
  repeat' first
    | with_reducible intro _
    | with_reducible assumption
    | with_reducible apply issue_keeps
    | with_reducible apply releaseTile_keeps
    | with_reducible apply sentinelFx_keeps
    | with_reducible apply Keeps.ite
    | with_reducible apply KeepsX.mk
    | with_reducible exact KeepsX.no
    | with_reducible apply KeepsX.ite
    | with_reducible apply Keeps.fold
    | with_reducible apply Keeps.same_id
    | with_reducible apply hk
    | split

theorem execSignalDelivered_keeps {s₀ : State} (a1 : ℕ) (a2 : ℕ) (a3 : ℕ) (s : State) (h : Keeps s₀ s) :
    KeepsX s₀ (execSignalDelivered a1 a2 a3 s) := by
  unfold execSignalDelivered
  repeat' first
    | with_reducible intro _
    | with_reducible assumption
    | with_reducible apply flagUp_keeps
    | with_reducible apply modCluster_keeps
    | with_reducible apply Keeps.ite
    | with_reducible apply KeepsX.mk
    | with_reducible exact KeepsX.no
    | with_reducible apply KeepsX.ite
    | with_reducible apply Keeps.fold
    | with_reducible apply Keeps.same_id
    | with_reducible apply hk
    | split

theorem execSignalEntry_keeps {s₀ : State} (a1 : ℕ) (a2 : ℕ) (s : State) (h : Keeps s₀ s) :
    KeepsX s₀ (execSignalEntry a1 a2 s) := by
  unfold execSignalEntry
  repeat' first
    | with_reducible intro _
    | with_reducible assumption
    | with_reducible apply issue_keeps
    | with_reducible apply modCluster_keeps
    | with_reducible apply Keeps.ite
    | with_reducible apply KeepsX.mk
    | with_reducible exact KeepsX.no
    | with_reducible apply KeepsX.ite
    | with_reducible apply Keeps.fold
    | with_reducible apply Keeps.same_id
    | with_reducible apply hk
    | split

theorem execStagerTileStart_keeps {s₀ : State} (a1 : ℕ) (s : State) (h : Keeps s₀ s) :
    KeepsX s₀ (execStagerTileStart a1 s) := by
  unfold execStagerTileStart
  repeat' first
    | with_reducible intro _
    | with_reducible assumption
    | with_reducible apply modCluster_keeps
    | with_reducible apply Keeps.ite
    | with_reducible apply KeepsX.mk
    | with_reducible exact KeepsX.no
    | with_reducible apply KeepsX.ite
    | with_reducible apply Keeps.fold
    | with_reducible apply Keeps.same_id
    | (extract_lets +onlyGivenNames x; clear_value x)
    | with_reducible apply hk
    | split

theorem stagedCount_keeps {s₀ : State} (a1 : StagedTile) (s : State) (h : Keeps s₀ s) :
    Keeps s₀ (stagedCount a1 s) := by
  unfold stagedCount
  repeat' first
    | with_reducible intro _
    | with_reducible assumption
    | with_reducible apply bump_keeps
    | with_reducible apply Keeps.ite

theorem execStagingComplete_keeps {s₀ : State} (a1 : ClusterCycle) (s : State) (h : Keeps s₀ s) :
    KeepsX s₀ (execStagingComplete a1 s) := by
  unfold execStagingComplete
  repeat' first
    | with_reducible intro _
    | with_reducible assumption
    | with_reducible apply modCluster_keeps
    | with_reducible apply stagedCount_keeps
    | with_reducible apply Keeps.ite
    | with_reducible apply KeepsX.mk
    | with_reducible exact KeepsX.no
    | with_reducible apply KeepsX.ite
    | with_reducible apply Keeps.fold
    | with_reducible apply Keeps.same_id
    | with_reducible apply hk
    | split

theorem vecMove_keeps {s₀ : State} (s : State) (a2 : ℕ) (a3 : Bytes) (h : Keeps s₀ s) :
    Keeps s₀ (vecMove s a2 a3) := by
  unfold vecMove
  repeat' first
    | with_reducible intro _
    | with_reducible assumption
    | with_reducible apply cmWrite_keeps
    | with_reducible apply Keeps.ite
    | with_reducible apply Keeps.fold

theorem vecCore_keeps {s₀ : State} (a1 : Bytes) (s : State) (a3 : ℕ) (h : Keeps s₀ s) :
    Keeps s₀ (vecCore a1 s a3) := by
  unfold vecCore
  repeat' first
    | with_reducible intro _
    | with_reducible assumption
    | with_reducible apply cmWrite_keeps
    | with_reducible apply stageSat_keeps
    | with_reducible apply vecMove_keeps
    | with_reducible apply Keeps.ite
    | with_reducible apply Keeps.fold

theorem execVec_keeps {s₀ : State} (a1 : ℕ) (a2 : ℕ) (s : State) (h : Keeps s₀ s) :
    KeepsX s₀ (execVec a1 a2 s) := by
  unfold execVec
  repeat' first
    | with_reducible intro _
    | with_reducible assumption
    | with_reducible apply issue_keeps
    | with_reducible apply vecCore_keeps
    | with_reducible apply Keeps.ite
    | with_reducible apply KeepsX.mk
    | with_reducible exact KeepsX.no
    | with_reducible apply KeepsX.ite
    | with_reducible apply Keeps.fold
    | with_reducible apply Keeps.same_id
    | with_reducible apply hk
    | split

theorem execWaitEntry_keeps {s₀ : State} (a1 : ℕ) (a2 : ℕ) (s : State) (h : Keeps s₀ s) :
    KeepsX s₀ (execWaitEntry a1 a2 s) := by
  unfold execWaitEntry
  repeat' first
    | with_reducible intro _
    | with_reducible assumption
    | with_reducible apply issue_keeps
    | with_reducible apply Keeps.ite
    | with_reducible apply KeepsX.mk
    | with_reducible exact KeepsX.no
    | with_reducible apply KeepsX.ite
    | with_reducible apply Keeps.fold
    | with_reducible apply Keeps.same_id
    | with_reducible apply hk
    | split

theorem inputArrived_keeps {s₀ : State} (a1 : ℕ) (a2 : ℕ) (s : State) (h : Keeps s₀ s) :
    Keeps s₀ (inputArrived a1 a2 s) := by
  unfold inputArrived
  repeat' first
    | with_reducible intro _
    | with_reducible assumption
    | with_reducible apply flagArrival_keeps
    | with_reducible apply Keeps.ite
    | with_reducible apply Keeps.fold
    | with_reducible apply Keeps.same_id
    | with_reducible apply hk
    | split

theorem refsNow_keeps {s₀ : State} (s : State) (h : Keeps s₀ s) :
    Keeps s₀ (refsNow s) := by
  unfold refsNow
  repeat' first
    | with_reducible intro _
    | with_reducible assumption
    | with_reducible apply extFree_keeps
    | with_reducible apply modTier_keeps

theorem ringReport_keeps {s₀ : State} (a1 : ℕ) (a2 : ℕ) (a3 : ℕ) (s : State) (h : Keeps s₀ s) :
    Keeps s₀ (ringReport a1 a2 a3 s) := by
  unfold ringReport
  repeat' first
    | with_reducible intro _
    | with_reducible assumption
    | with_reducible apply cqPost_keeps
    | with_reducible apply takeFree_keeps
    | with_reducible apply Keeps.ite
    | with_reducible apply Keeps.fold
    | with_reducible apply Keeps.same_id
    | with_reducible apply KeepsR.ite
    | with_reducible apply KeepsR.fold
    | with_reducible refine KeepsR.get (by assumption) ?_
    | (with_reducible apply KeepsR.snd; with_reducible apply takeFree_keeps)

theorem ringError_keeps {s₀ : State} (a1 : ℕ) (a2 : ℕ) (a3 : ℕ) (s : State) (h : Keeps s₀ s) :
    Keeps s₀ (ringError a1 a2 a3 s) := by
  unfold ringError
  repeat' first
    | with_reducible intro _
    | with_reducible assumption
    | with_reducible apply irqEvent_keeps
    | with_reducible apply modSq_keeps
    | with_reducible apply regPut_keeps
    | with_reducible apply ringReport_keeps

theorem consume_keeps {s₀ : State} (n : ℕ) (l : List SqRead) (s : State) (h : Keeps s₀ s) : Keeps s₀ (consume n l s) := by
  induction l generalizing s with
  | nil => exact h
  | cons e l ih =>
    cases e with
    | packet k op => exact Keeps.ite h (ih _ (modSq_keeps _ _ _ h))
    | hcrcFail => exact Keeps.ite h (ringError_keeps _ _ _ _ (bump_keeps _ _ _ h))
    | poison => exact Keeps.ite h (ringError_keeps _ _ _ _ h)

theorem cqCtrlSet_keeps {s₀ : State} (a1 : ℕ) (a2 : ℕ) (s : State) (h : Keeps s₀ s) :
    Keeps s₀ (cqCtrlSet a1 a2 s) := by
  unfold cqCtrlSet
  repeat' first
    | with_reducible intro _
    | with_reducible assumption
    | with_reducible apply regSet_keeps
    | with_reducible apply reservedWritten_keeps
    | with_reducible apply Keeps.ite

theorem cqDisableFx_keeps {s₀ : State} (a1 : ℕ) (s : State) (h : Keeps s₀ s) :
    Keeps s₀ (cqDisableFx a1 s) := by
  unfold cqDisableFx
  repeat' first
    | with_reducible intro _
    | with_reducible assumption
    | with_reducible apply bump_keeps
    | with_reducible apply modCq_keeps

theorem cqCtrlFx_keeps {s₀ : State} (a1 : ℕ) (a2 : ℕ) (s : State) (h : Keeps s₀ s) :
    Keeps s₀ (cqCtrlFx a1 a2 s) := by
  unfold cqCtrlFx
  repeat' first
    | with_reducible intro _
    | with_reducible assumption
    | with_reducible apply cqCtrlSet_keeps
    | with_reducible apply cqDisableFx_keeps
    | with_reducible apply modCq_keeps
    | with_reducible apply Keeps.ite

theorem cqHeadFx_keeps {s₀ : State} (a1 : ℕ) (a2 : ℕ) (s : State) (h : Keeps s₀ s) :
    Keeps s₀ (cqHeadFx a1 a2 s) := by
  unfold cqHeadFx
  repeat' first
    | with_reducible intro _
    | with_reducible assumption
    | with_reducible apply cqDrain_keeps
    | with_reducible apply irqEvent_keeps
    | with_reducible apply modCq_keeps
    | with_reducible apply Keeps.ite

theorem cqHeadAll_keeps {s₀ : State} (a1 : ℕ) (a2 : ℕ) (s : State) (h : Keeps s₀ s) :
    Keeps s₀ (cqHeadAll a1 a2 s) := by
  unfold cqHeadAll
  repeat' first
    | with_reducible intro _
    | with_reducible assumption
    | with_reducible apply cqDrain_keeps
    | with_reducible apply cqHeadFx_keeps
    | with_reducible apply modCq_keeps
    | with_reducible apply Keeps.ite

theorem doorbellFx_keeps {s₀ : State} (a1 : ℕ) (a2 : ℕ) (a3 : Bool) (s : State) (h : Keeps s₀ s) :
    Keeps s₀ (doorbellFx a1 a2 a3 s) := by
  unfold doorbellFx
  repeat' first
    | with_reducible intro _
    | with_reducible assumption
    | with_reducible apply bump_keeps
    | with_reducible apply irqEvent_keeps
    | with_reducible apply modSq_keeps
    | with_reducible apply ringReport_keeps
    | with_reducible apply Keeps.ite

theorem execCqCoalTimeout_keeps {s₀ : State} (a1 : ℕ) (a2 : ℕ) (s : State) (h : Keeps s₀ s) :
    KeepsX s₀ (execCqCoalTimeout a1 a2 s) := by
  unfold execCqCoalTimeout
  repeat' first
    | with_reducible intro _
    | with_reducible assumption
    | with_reducible apply atTick_keeps
    | with_reducible apply cqIrq_keeps
    | with_reducible apply Keeps.ite
    | with_reducible apply KeepsX.mk

theorem execCqDisable_keeps {s₀ : State} (a1 : ℕ) (a2 : ℕ) (a3 : ℕ) (s : State) (h : Keeps s₀ s) :
    KeepsX s₀ (execCqDisable a1 a2 a3 s) := by
  unfold execCqDisable
  repeat' first
    | with_reducible intro _
    | with_reducible assumption
    | with_reducible apply cqCtrlFx_keeps
    | with_reducible apply Keeps.ite
    | with_reducible apply KeepsX.mk

theorem execCqEnable_keeps {s₀ : State} (a1 : ℕ) (a2 : ℕ) (a3 : ℕ) (s : State) (h : Keeps s₀ s) :
    KeepsX s₀ (execCqEnable a1 a2 a3 s) := by
  unfold execCqEnable
  repeat' first
    | with_reducible intro _
    | with_reducible assumption
    | with_reducible apply cqCtrlFx_keeps
    | with_reducible apply Keeps.ite
    | with_reducible apply KeepsX.mk

theorem execCqHeadDoorbellWrite_keeps {s₀ : State} (a1 : ℕ) (a2 : ℕ) (a3 : ℕ) (s : State) (h : Keeps s₀ s) :
    KeepsX s₀ (execCqHeadDoorbellWrite a1 a2 a3 s) := by
  unfold execCqHeadDoorbellWrite
  repeat' first
    | with_reducible intro _
    | with_reducible assumption
    | with_reducible apply cqHeadAll_keeps
    | with_reducible apply Keeps.ite
    | with_reducible apply KeepsX.mk

theorem execCqStallTimeout_keeps {s₀ : State} (a1 : ℕ) (a2 : ℕ) (s : State) (h : Keeps s₀ s) :
    KeepsX s₀ (execCqStallTimeout a1 a2 s) := by
  unfold execCqStallTimeout
  repeat' first
    | with_reducible intro _
    | with_reducible assumption
    | with_reducible apply atTick_keeps
    | with_reducible apply irqEvent_keeps
    | with_reducible apply modCq_keeps
    | with_reducible apply msixRaise_keeps
    | with_reducible apply Keeps.ite
    | with_reducible apply KeepsX.mk
    | with_reducible exact KeepsX.no
    | with_reducible apply KeepsX.ite
    | with_reducible apply Keeps.fold
    | with_reducible apply Keeps.same_id
    | with_reducible apply hk
    | split

theorem execErrRecordReceived_keeps {s₀ : State} (a1 : Pkt) (s : State) (h : Keeps s₀ s) :
    KeepsX s₀ (execErrRecordReceived a1 s) := by
  unfold execErrRecordReceived
  repeat' first
    | with_reducible intro _
    | with_reducible assumption
    | with_reducible apply bump_keeps
    | with_reducible apply receive_keeps
    | with_reducible apply Keeps.ite
    | with_reducible apply KeepsX.mk

theorem hcrcFx_keeps {s₀ : State} (a1 : Path) (a2 : ℕ) (s : State) (h : Keeps s₀ s) :
    Keeps s₀ (hcrcFx a1 a2 s) := by
  unfold hcrcFx
  repeat' first
    | with_reducible intro _
    | with_reducible assumption
    | with_reducible apply bump_keeps
    | with_reducible apply ringError_keeps
    | with_reducible apply Keeps.ite
    | with_reducible apply Keeps.fold
    | with_reducible apply Keeps.same_id
    | with_reducible apply hk
    | split

theorem execEvoestHcrcFail_keeps {s₀ : State} (a1 : Path) (a2 : ℕ) (s : State) (h : Keeps s₀ s) :
    KeepsX s₀ (execEvoestHcrcFail a1 a2 s) := by
  unfold execEvoestHcrcFail
  repeat' first
    | with_reducible intro _
    | with_reducible assumption
    | with_reducible apply hcrcFx_keeps
    | with_reducible apply Keeps.ite
    | with_reducible apply KeepsX.mk

theorem execNop_keeps {s₀ : State} (a1 : Pkt) (s : State) (h : Keeps s₀ s) :
    KeepsX s₀ (execNop a1 s) := by
  unfold execNop
  repeat' first
    | with_reducible intro _
    | with_reducible assumption
    | with_reducible apply ok_keeps
    | with_reducible apply orFormat_keeps
    | with_reducible apply receive_keeps
    | with_reducible apply Keeps.ite
    | with_reducible apply KeepsX.mk

theorem sqCtrlSet_keeps {s₀ : State} (a1 : ℕ) (a2 : ℕ) (s : State) (h : Keeps s₀ s) :
    Keeps s₀ (sqCtrlSet a1 a2 s) := by
  unfold sqCtrlSet
  repeat' first
    | with_reducible intro _
    | with_reducible assumption
    | with_reducible apply regPut_keeps
    | with_reducible apply regSet_keeps
    | with_reducible apply Keeps.ite

theorem sqDisableFx_keeps {s₀ : State} (a1 : ℕ) (s : State) (h : Keeps s₀ s) :
    Keeps s₀ (sqDisableFx a1 s) := by
  unfold sqDisableFx
  repeat' first
    | with_reducible intro _
    | with_reducible assumption
    | with_reducible apply modSq_keeps

theorem sqCtrlFx_keeps {s₀ : State} (a1 : ℕ) (a2 : ℕ) (s : State) (h : Keeps s₀ s) :
    Keeps s₀ (sqCtrlFx a1 a2 s) := by
  unfold sqCtrlFx
  repeat' first
    | with_reducible intro _
    | with_reducible assumption
    | with_reducible apply modSq_keeps
    | with_reducible apply sqCtrlSet_keeps
    | with_reducible apply sqDisableFx_keeps
    | with_reducible apply Keeps.ite

theorem execSqDisable_keeps {s₀ : State} (a1 : ℕ) (a2 : ℕ) (a3 : ℕ) (s : State) (h : Keeps s₀ s) :
    KeepsX s₀ (execSqDisable a1 a2 a3 s) := by
  unfold execSqDisable
  repeat' first
    | with_reducible intro _
    | with_reducible assumption
    | with_reducible apply sqCtrlFx_keeps
    | with_reducible apply Keeps.ite
    | with_reducible apply KeepsX.mk

theorem execSqDoorbellWrite_keeps {s₀ : State} (a1 : ℕ) (a2 : ℕ) (a3 : ℕ) (a4 : Bool) (s : State) (h : Keeps s₀ s) :
    KeepsX s₀ (execSqDoorbellWrite a1 a2 a3 a4 s) := by
  unfold execSqDoorbellWrite
  repeat' first
    | with_reducible intro _
    | with_reducible assumption
    | with_reducible apply doorbellFx_keeps
    | with_reducible apply Keeps.ite
    | with_reducible apply KeepsX.mk

theorem execSqEnable_keeps {s₀ : State} (a1 : ℕ) (a2 : ℕ) (a3 : ℕ) (s : State) (h : Keeps s₀ s) :
    KeepsX s₀ (execSqEnable a1 a2 a3 s) := by
  unfold execSqEnable
  repeat' first
    | with_reducible intro _
    | with_reducible assumption
    | with_reducible apply sqCtrlFx_keeps
    | with_reducible apply Keeps.ite
    | with_reducible apply KeepsX.mk

theorem takeTail_keeps {s₀ : State} (a1 : ℕ) (s : State) (h : Keeps s₀ s) :
    Keeps s₀ (takeTail a1 s) := by
  unfold takeTail
  repeat' first
    | with_reducible intro _
    | with_reducible assumption
    | with_reducible apply bump_keeps
    | with_reducible apply irqEvent_keeps
    | with_reducible apply modSq_keeps
    | with_reducible apply ringReport_keeps
    | with_reducible apply Keeps.ite
    | with_reducible apply Keeps.fold
    | with_reducible apply Keeps.same_id
    | with_reducible apply hk
    | split

theorem execSqTailConsume_keeps {s₀ : State} (a1 : ℕ) (a2 : List SqRead) (s : State) (h : Keeps s₀ s) :
    KeepsX s₀ (execSqTailConsume a1 a2 s) := by
  unfold execSqTailConsume
  repeat' first
    | with_reducible intro _
    | with_reducible assumption
    | with_reducible apply consume_keeps
    | with_reducible apply takeTail_keeps
    | with_reducible apply Keeps.ite
    | with_reducible apply KeepsX.mk

theorem execTokStreamReceived_keeps {s₀ : State} (a1 : Pkt) (s : State) (h : Keeps s₀ s) :
    KeepsX s₀ (execTokStreamReceived a1 s) := by
  unfold execTokStreamReceived
  repeat' first
    | with_reducible intro _
    | with_reducible assumption
    | with_reducible apply bump_keeps
    | with_reducible apply receive_keeps
    | with_reducible apply Keeps.ite
    | with_reducible apply KeepsX.mk

theorem serviceBegins_keeps {s₀ : State} (s : State) (h : Keeps s₀ s) :
    Keeps s₀ (serviceBegins s) := by
  unfold serviceBegins
  repeat' first
    | with_reducible intro _
    | with_reducible assumption
    | exact FabKeeps.mk fun _ h => h
    | exact DevKeeps.mk fun _ h => h
    | with_reducible apply emit_keeps
    | with_reducible apply irqEvent_keeps
    | with_reducible apply modDev_keeps
    | with_reducible apply modEng_keeps
    | with_reducible apply modFab_keeps
    | with_reducible apply modFlash_keeps
    | with_reducible apply Keeps.ite
    | with_reducible apply Keeps.fold
    | with_reducible apply Keeps.same_id
    | (extract_lets +onlyGivenNames x; clear_value (hx : x = _); refine Keeps.via (s := s₀) hx ?_ (fun _ => ?_); clear hx)
    | with_reducible apply hk
    | split

theorem checkMin_keeps {s₀ : State} (s : State) (h : Keeps s₀ s) :
    Keeps s₀ (checkMin s) := by
  unfold checkMin
  repeat' first
    | with_reducible intro _
    | with_reducible assumption
    | exact FabKeeps.mk fun _ h => h
    | with_reducible apply irqEvent_keeps
    | with_reducible apply modFab_keeps
    | with_reducible apply record_keeps
    | with_reducible apply serviceBegins_keeps
    | with_reducible apply Keeps.ite

theorem laneSet_keeps {s₀ : State} (a1 : ℕ) (a2 : ℕ) (a3 : ℕ) (s : State) (h : Keeps s₀ s) :
    Keeps s₀ (laneSet a1 a2 a3 s) := by
  unfold laneSet
  repeat' first
    | with_reducible intro _
    | with_reducible assumption
    | exact FabKeeps.mk fun _ h => h
    | with_reducible apply modFab_keeps

theorem lanesSet_keeps {s₀ : State} (a1 : ℕ) (a2 : ℕ) (s : State) (h : Keeps s₀ s) :
    Keeps s₀ (lanesSet a1 a2 s) := by
  unfold lanesSet
  repeat' first
    | with_reducible intro _
    | with_reducible assumption
    | with_reducible apply laneSet_keeps
    | with_reducible apply Keeps.ite
    | with_reducible apply Keeps.fold

theorem creditWaited_keeps {s₀ : State} (a1 : ℕ) (s : State) (h : Keeps s₀ s) :
    Keeps s₀ (creditWaited a1 s) := by
  unfold creditWaited
  repeat' first
    | with_reducible intro _
    | with_reducible assumption
    | with_reducible apply bump_keeps
    | with_reducible apply modPort_keeps
    | with_reducible apply Keeps.ite
    | with_reducible apply Keeps.fold
    | with_reducible apply Keeps.same_id
    | with_reducible apply hk
    | split

theorem requeue_keeps {s₀ : State} (a1 : ℕ) (s : State) (h : Keeps s₀ s) :
    Keeps s₀ (requeue a1 s) := by
  unfold requeue
  repeat' first
    | with_reducible intro _
    | with_reducible assumption
    | with_reducible apply creditWaited_keeps
    | with_reducible apply modPort_keeps
    | with_reducible apply queueFrame_keeps
    | with_reducible apply Keeps.ite
    | with_reducible apply Keeps.fold

theorem portTo_keeps {s₀ : State} (a1 : ℕ) (a2 : ℕ) (a3 : ℕ) (s : State) (h : Keeps s₀ s) :
    Keeps s₀ (portTo a1 a2 a3 s) := by
  unfold portTo
  repeat' first
    | with_reducible intro _
    | with_reducible assumption
    | with_reducible apply checkMin_keeps
    | with_reducible apply lanesSet_keeps
    | with_reducible apply modPort_keeps
    | with_reducible apply requeue_keeps

theorem attemptFailed_keeps {s₀ : State} (a1 : ℕ) (s : State) (h : Keeps s₀ s) :
    Keeps s₀ (attemptFailed a1 s) := by
  unfold attemptFailed
  repeat' first
    | with_reducible intro _
    | with_reducible assumption
    | with_reducible apply portTo_keeps
    | with_reducible apply Keeps.ite

theorem creditCame_keeps {s₀ : State} (a1 : ℕ) (s : State) (h : Keeps s₀ s) :
    Keeps s₀ (creditCame a1 s) := by
  unfold creditCame
  repeat' first
    | with_reducible intro _
    | with_reducible assumption
    | with_reducible apply creditWaited_keeps
    | with_reducible apply Keeps.ite

theorem enterWheel_keeps {s₀ : State} (a1 : ℕ) (a2 : ℕ) (s : State) (h : Keeps s₀ s) :
    Keeps s₀ (enterWheel a1 a2 s) := by
  unfold enterWheel
  repeat' first
    | with_reducible intro _
    | with_reducible assumption
    | with_reducible apply modPort_keeps
    | with_reducible apply modShaper_keeps

theorem execCreditReceived_keeps {s₀ : State} (a1 : ℕ) (a2 : ℕ) (s : State) (h : Keeps s₀ s) :
    KeepsX s₀ (execCreditReceived a1 a2 s) := by
  unfold execCreditReceived
  repeat' first
    | with_reducible intro _
    | with_reducible assumption
    | with_reducible apply bump_keeps
    | with_reducible apply creditCame_keeps
    | with_reducible apply modPort_keeps
    | with_reducible apply Keeps.ite
    | with_reducible apply KeepsX.mk

theorem markSent_keeps {s₀ : State} (a1 : TxFrame) (s : State) (h : Keeps s₀ s) :
    Keeps s₀ (markSent a1 s) := by
  unfold markSent
  repeat' first
    | with_reducible intro _
    | with_reducible assumption
    | with_reducible apply modQp_keeps

theorem sentNow_keeps {s₀ : State} (a1 : TxWhat) (s : State) (h : Keeps s₀ s) :
    Keeps s₀ (sentNow a1 s) := by
  unfold sentNow
  repeat' first
    | with_reducible intro _
    | with_reducible assumption
    | with_reducible apply modEng_keeps
    | with_reducible apply modMan_keeps
    | with_reducible apply modMsa_keeps
    | with_reducible apply Keeps.ite
    | with_reducible apply Keeps.fold
    | with_reducible apply Keeps.same_id
    | (extract_lets +onlyGivenNames x; clear_value x)
    | with_reducible apply hk
    | split

theorem startFrame_keeps {s₀ : State} (a1 : ℕ) (a2 : TxFrame) (s : State) (h : Keeps s₀ s) :
    Keeps s₀ (startFrame a1 a2 s) := by
  unfold startFrame
  repeat' first
    | with_reducible intro _
    | with_reducible assumption
    | with_reducible apply bump_keeps
    | with_reducible apply frameOut_keeps
    | with_reducible apply markSent_keeps
    | with_reducible apply modPort_keeps
    | with_reducible apply modShaper_keeps
    | with_reducible apply sentNow_keeps
    | with_reducible apply Keeps.ite

theorem startTcl_keeps {s₀ : State} (a1 : ℕ) (a2 : ℕ) (s : State) (h : Keeps s₀ s) :
    Keeps s₀ (startTcl a1 a2 s) := by
  induction a2 generalizing a1 s with
  | zero =>
    unfold startTcl
    repeat' first
      | with_reducible intro _
      | with_reducible assumption
  | succ k ih =>
    unfold startTcl
    repeat' first
      | with_reducible intro _
      | with_reducible assumption
      | with_reducible apply ih
      | with_reducible apply creditWaited_keeps
      | with_reducible apply enterWheel_keeps
      | with_reducible apply modPort_keeps
      | with_reducible apply startFrame_keeps
      | with_reducible apply Keeps.ite
      | with_reducible apply Keeps.fold
      | with_reducible apply Keeps.same_id
      | with_reducible apply hk
      | split

theorem startTcs_keeps {s₀ : State} (a1 : ℕ) (a2 : ℕ) (s : State) (h : Keeps s₀ s) :
    Keeps s₀ (startTcs a1 a2 s) := by
  induction a2 generalizing a1 s with
  | zero =>
    unfold startTcs
    repeat' first
      | with_reducible intro _
      | with_reducible assumption
  | succ k ih =>
    unfold startTcs
    repeat' first
      | with_reducible intro _
      | with_reducible assumption
      | with_reducible apply ih
      | with_reducible apply enterWheel_keeps
      | with_reducible apply modPort_keeps
      | with_reducible apply startFrame_keeps
      | with_reducible apply Keeps.ite
      | with_reducible apply Keeps.fold
      | with_reducible apply Keeps.same_id
      | with_reducible apply hk
      | split

theorem execFrameSendStart_keeps {s₀ : State} (a1 : ℕ) (a2 : ℕ) (a3 : Bool) (s : State) (h : Keeps s₀ s) :
    KeepsX s₀ (execFrameSendStart a1 a2 a3 s) := by
  unfold execFrameSendStart
  repeat' first
    | with_reducible intro _
    | with_reducible assumption
    | with_reducible apply atTick_keeps
    | with_reducible apply startTcl_keeps
    | with_reducible apply startTcs_keeps
    | with_reducible apply Keeps.ite
    | with_reducible apply KeepsX.mk

theorem portRetrain_keeps {s₀ : State} (a1 : ℕ) (s : State) (h : Keeps s₀ s) :
    Keeps s₀ (portRetrain a1 s) := by
  unfold portRetrain
  repeat' first
    | with_reducible intro _
    | with_reducible assumption
    | with_reducible apply bump_keeps
    | with_reducible apply portTo_keeps
    | with_reducible apply record_keeps

theorem execKeepaliveMiss_keeps {s₀ : State} (a1 : ℕ) (a2 : ℕ) (s : State) (h : Keeps s₀ s) :
    KeepsX s₀ (execKeepaliveMiss a1 a2 s) := by
  unfold execKeepaliveMiss
  repeat' first
    | with_reducible intro _
    | with_reducible assumption
    | with_reducible apply atTick_keeps
    | with_reducible apply bump_keeps
    | with_reducible apply modPort_keeps
    | with_reducible apply portRetrain_keeps
    | with_reducible apply record_keeps
    | with_reducible apply Keeps.ite
    | with_reducible apply KeepsX.mk

theorem execKeepaliveReceived_keeps {s₀ : State} (a1 : ℕ) (a2 : ℕ) (a3 : ℕ) (a4 : ℕ) (a5 : ℕ) (a6 : ℕ) (s : State) (h : Keeps s₀ s) :
    KeepsX s₀ (execKeepaliveReceived a1 a2 a3 a4 a5 a6 s) := by
  unfold execKeepaliveReceived
  repeat' first
    | with_reducible intro _
    | with_reducible assumption
    | with_reducible apply atTick_keeps
    | with_reducible apply bump_keeps
    | with_reducible apply modPort_keeps
    | with_reducible apply Keeps.ite
    | with_reducible apply KeepsX.mk

theorem execKeepaliveSend_keeps {s₀ : State} (a1 : ℕ) (a2 : ℕ) (s : State) (h : Keeps s₀ s) :
    KeepsX s₀ (execKeepaliveSend a1 a2 s) := by
  unfold execKeepaliveSend
  repeat' first
    | with_reducible intro _
    | with_reducible assumption
    | with_reducible apply atTick_keeps
    | with_reducible apply frameOut_keeps
    | with_reducible apply modPort_keeps
    | with_reducible apply Keeps.ite
    | with_reducible apply KeepsX.mk

theorem laneLossPort_keeps {s₀ : State} (a1 : ℕ) (a2 : Bool) (s : State) (h : Keeps s₀ s) :
    Keeps s₀ (laneLossPort a1 a2 s) := by
  unfold laneLossPort
  repeat' first
    | with_reducible intro _
    | with_reducible assumption
    | with_reducible apply modPort_keeps
    | with_reducible apply portRetrain_keeps
    | with_reducible apply portTo_keeps
    | with_reducible apply record_keeps
    | with_reducible apply Keeps.ite

theorem laneRetrained_keeps {s₀ : State} (a1 : ℕ) (a2 : ℕ) (s : State) (h : Keeps s₀ s) :
    Keeps s₀ (laneRetrained a1 a2 s) := by
  unfold laneRetrained
  repeat' first
    | with_reducible intro _
    | with_reducible assumption
    | exact ErrKeeps.mk fun _ h => h
    | with_reducible apply bump_keeps
    | with_reducible apply laneSet_keeps
    | with_reducible apply modErr_keeps
    | with_reducible apply modPort_keeps
    | with_reducible apply record_keeps
    | with_reducible apply Keeps.ite

theorem execLaneLossOfLock_keeps {s₀ : State} (a1 : ℕ) (a2 : ℕ) (a3 : ℕ) (s : State) (h : Keeps s₀ s) :
    KeepsX s₀ (execLaneLossOfLock a1 a2 a3 s) := by
  unfold execLaneLossOfLock
  repeat' first
    | with_reducible intro _
    | with_reducible assumption
    | with_reducible apply atTick_keeps
    | with_reducible apply laneLossPort_keeps
    | with_reducible apply laneRetrained_keeps
    | with_reducible apply modPort_keeps
    | with_reducible apply Keeps.ite
    | with_reducible apply KeepsX.mk

theorem execLaneRetrainLock_keeps {s₀ : State} (a1 : ℕ) (a2 : ℕ) (s : State) (h : Keeps s₀ s) :
    KeepsX s₀ (execLaneRetrainLock a1 a2 s) := by
  unfold execLaneRetrainLock
  repeat' first
    | with_reducible intro _
    | with_reducible assumption
    | with_reducible apply laneSet_keeps
    | with_reducible apply modPort_keeps
    | with_reducible apply Keeps.ite
    | with_reducible apply KeepsX.mk

theorem execLinkFrameInvalid_keeps {s₀ : State} (a1 : ℕ) (a2 : Bool) (s : State) (h : Keeps s₀ s) :
    KeepsX s₀ (execLinkFrameInvalid a1 a2 s) := by
  unfold execLinkFrameInvalid
  repeat' first
    | with_reducible intro _
    | with_reducible assumption
    | with_reducible apply bump_keeps
    | with_reducible apply Keeps.ite
    | with_reducible apply KeepsX.mk

theorem execPauseExpire_keeps {s₀ : State} (a1 : ℕ) (a2 : ℕ) (s : State) (h : Keeps s₀ s) :
    KeepsX s₀ (execPauseExpire a1 a2 s) := by
  unfold execPauseExpire
  repeat' first
    | with_reducible intro _
    | with_reducible assumption
    | with_reducible apply atTick_keeps
    | with_reducible apply modPort_keeps
    | with_reducible apply Keeps.ite
    | with_reducible apply KeepsX.mk

theorem execPauseReceived_keeps {s₀ : State} (a1 : ℕ) (a2 : ℕ) (a3 : Bool) (a4 : Bool) (a5 : ℕ) (s : State) (h : Keeps s₀ s) :
    KeepsX s₀ (execPauseReceived a1 a2 a3 a4 a5 s) := by
  unfold execPauseReceived
  repeat' first
    | with_reducible intro _
    | with_reducible assumption
    | with_reducible apply atTick_keeps
    | with_reducible apply bump_keeps
    | with_reducible apply modPort_keeps
    | with_reducible apply Keeps.ite
    | with_reducible apply KeepsX.mk

theorem execPortDetectTimeout_keeps {s₀ : State} (a1 : ℕ) (a2 : ℕ) (s : State) (h : Keeps s₀ s) :
    KeepsX s₀ (execPortDetectTimeout a1 a2 s) := by
  unfold execPortDetectTimeout
  repeat' first
    | with_reducible intro _
    | with_reducible assumption
    | with_reducible apply atTick_keeps
    | with_reducible apply attemptFailed_keeps
    | with_reducible apply Keeps.ite
    | with_reducible apply KeepsX.mk

theorem execPortLaneLock_keeps {s₀ : State} (a1 : ℕ) (a2 : List ℕ) (a3 : Bool) (s : State) (h : Keeps s₀ s) :
    KeepsX s₀ (execPortLaneLock a1 a2 a3 s) := by
  unfold execPortLaneLock
  repeat' first
    | with_reducible intro _
    | with_reducible assumption
    | with_reducible apply laneSet_keeps
    | with_reducible apply modPort_keeps
    | with_reducible apply Keeps.ite
    | with_reducible apply KeepsX.mk
    | with_reducible exact KeepsX.no
    | with_reducible apply KeepsX.ite
    | with_reducible apply Keeps.fold

theorem negotiated_keeps {s₀ : State} (a1 : ℕ) (a2 : ℕ) (a3 : ℕ) (a4 : ℕ) (s : State) (h : Keeps s₀ s) :
    Keeps s₀ (negotiated a1 a2 a3 a4 s) := by
  unfold negotiated
  repeat' first
    | with_reducible intro _
    | with_reducible assumption
    | with_reducible apply checkMin_keeps
    | with_reducible apply modPort_keeps
    | with_reducible apply record_keeps
    | with_reducible apply Keeps.ite

theorem execPortNegotiateDone_keeps {s₀ : State} (a1 : ℕ) (a2 : ℕ) (a3 : ℕ) (a4 : ℕ) (a5 : ℕ) (s : State) (h : Keeps s₀ s) :
    KeepsX s₀ (execPortNegotiateDone a1 a2 a3 a4 a5 s) := by
  unfold execPortNegotiateDone
  repeat' first
    | with_reducible intro _
    | with_reducible assumption
    | with_reducible apply atTick_keeps
    | with_reducible apply attemptFailed_keeps
    | with_reducible apply negotiated_keeps
    | with_reducible apply Keeps.ite
    | with_reducible apply KeepsX.mk

theorem execPortNegotiateTimeout_keeps {s₀ : State} (a1 : ℕ) (a2 : ℕ) (s : State) (h : Keeps s₀ s) :
    KeepsX s₀ (execPortNegotiateTimeout a1 a2 s) := by
  unfold execPortNegotiateTimeout
  repeat' first
    | with_reducible intro _
    | with_reducible assumption
    | with_reducible apply atTick_keeps
    | with_reducible apply attemptFailed_keeps
    | with_reducible apply Keeps.ite
    | with_reducible apply KeepsX.mk

theorem execPortRateFallbackTimeout_keeps {s₀ : State} (a1 : ℕ) (a2 : ℕ) (s : State) (h : Keeps s₀ s) :
    KeepsX s₀ (execPortRateFallbackTimeout a1 a2 s) := by
  unfold execPortRateFallbackTimeout
  repeat' first
    | with_reducible intro _
    | with_reducible assumption
    | with_reducible apply atTick_keeps
    | with_reducible apply modPort_keeps
    | with_reducible apply Keeps.ite
    | with_reducible apply KeepsX.mk

theorem retrainFx_keeps {s₀ : State} (a1 : ℕ) (s : State) (h : Keeps s₀ s) :
    Keeps s₀ (retrainFx a1 s) := by
  unfold retrainFx
  repeat' first
    | with_reducible intro _
    | with_reducible assumption
    | with_reducible apply portRetrain_keeps
    | with_reducible apply portTo_keeps
    | with_reducible apply Keeps.ite
    | with_reducible apply Keeps.fold
    | with_reducible apply Keeps.same_id
    | with_reducible apply hk
    | split

theorem execPortRetrainWrite_keeps {s₀ : State} (a1 : ℕ) (s : State) (h : Keeps s₀ s) :
    KeepsX s₀ (execPortRetrainWrite a1 s) := by
  unfold execPortRetrainWrite
  repeat' first
    | with_reducible intro _
    | with_reducible assumption
    | with_reducible apply retrainFx_keeps
    | with_reducible apply Keeps.ite
    | with_reducible apply KeepsX.mk

theorem execPortSignalDetect_keeps {s₀ : State} (a1 : ℕ) (s : State) (h : Keeps s₀ s) :
    KeepsX s₀ (execPortSignalDetect a1 s) := by
  unfold execPortSignalDetect
  repeat' first
    | with_reducible intro _
    | with_reducible assumption
    | with_reducible apply lanesSet_keeps
    | with_reducible apply modPort_keeps
    | with_reducible apply Keeps.ite
    | with_reducible apply KeepsX.mk

theorem execPortTrainTimeout_keeps {s₀ : State} (a1 : ℕ) (a2 : ℕ) (s : State) (h : Keeps s₀ s) :
    KeepsX s₀ (execPortTrainTimeout a1 a2 s) := by
  unfold execPortTrainTimeout
  repeat' first
    | with_reducible intro _
    | with_reducible assumption
    | with_reducible apply atTick_keeps
    | with_reducible apply attemptFailed_keeps
    | with_reducible apply Keeps.ite
    | with_reducible apply KeepsX.mk

theorem wheelEval_keeps {s₀ : State} (a1 : ℕ) (s : State) (h : Keeps s₀ s) :
    Keeps s₀ (wheelEval a1 s) := by
  unfold wheelEval
  repeat' first
    | with_reducible intro _
    | with_reducible assumption
    | with_reducible apply modShaper_keeps
    | with_reducible apply queueFrame_keeps
    | with_reducible apply Keeps.ite
    | with_reducible apply Keeps.fold

theorem wheelStep_keeps {s₀ : State} (s : State) (h : Keeps s₀ s) :
    Keeps s₀ (wheelStep s) := by
  unfold wheelStep
  repeat' first
    | with_reducible intro _
    | with_reducible assumption
    | with_reducible apply modSched_keeps
    | with_reducible apply wheelEval_keeps
    | with_reducible apply Keeps.ite
    | with_reducible apply Keeps.fold

theorem execShaperWheelSlot_keeps {s₀ : State} (a1 : ℕ) (s : State) (h : Keeps s₀ s) :
    KeepsX s₀ (execShaperWheelSlot a1 s) := by
  unfold execShaperWheelSlot
  repeat' first
    | with_reducible intro _
    | with_reducible assumption
    | with_reducible apply atTick_keeps
    | with_reducible apply modSched_keeps
    | with_reducible apply wheelStep_keeps
    | with_reducible apply Keeps.ite
    | with_reducible apply KeepsX.mk
    | with_reducible exact KeepsX.no
    | with_reducible apply KeepsX.ite
    | with_reducible apply Keeps.fold

end Sys2Proof.Machine
end

