-- ==== Sys2Proof/Laws/KeepsPages.lean ====
section
/-! SUPPORT. What every operation keeps (`Keeps`): page moves, manifests and pages. -/

set_option linter.all false

namespace Sys2Proof.Machine

theorem setTodo_keeps {s₀ : State} (a1 : ℕ) (a2 : List CopyItem) (s : State) (h : Keeps s₀ s) :
    Keeps s₀ (setTodo a1 a2 s) := by
  unfold setTodo
  repeat' first
    | with_reducible intro _
    | with_reducible assumption
    | with_reducible apply modMan_keeps

theorem modDrop_keeps {s₀ : State} (a1 : ℕ) (a2 : (DropJob → DropJob)) (s : State) (h : Keeps s₀ s) :
    Keeps s₀ (modDrop a1 a2 s) := by
  unfold modDrop
  repeat' first
    | with_reducible intro _
    | with_reducible assumption
    | with_reducible apply modMan_keeps

theorem sendDrop_keeps {s₀ : State} (a1 : ℕ) (s : State) (h : Keeps s₀ s) :
    Keeps s₀ (sendDrop a1 s) := by
  unfold sendDrop
  repeat' first
    | with_reducible intro _
    | with_reducible assumption
    | with_reducible apply modDrop_keeps
    | with_reducible apply sendMsgOn_keeps
    | with_reducible apply takeTag_keeps
    | with_reducible apply Keeps.ite
    | with_reducible apply Keeps.fold
    | with_reducible apply Keeps.same_id
    | with_reducible apply KeepsR.ite
    | with_reducible apply KeepsR.fold
    | with_reducible refine KeepsR.get (by assumption) ?_
    | (extract_lets +onlyGivenNames x; clear_value (hx : x = _); refine KeepsR.via (s := s₀) hx ?_ (fun _ => ?_); clear hx)
    | (extract_lets +onlyGivenNames x; clear_value x)
    | with_reducible apply hk
    | split

theorem startOwed_keeps {s₀ : State} (a1 : ℕ) (a2 : ℕ) (a3 : ℕ) (a4 : ℕ) (a5 : ℕ) (a6 : ℕ) (a7 : ℕ) (s : State) (h : Keeps s₀ s) :
    Keeps s₀ (startOwed a1 a2 a3 a4 a5 a6 a7 s) := by
  unfold startOwed
  repeat' first
    | with_reducible intro _
    | with_reducible assumption
    | with_reducible apply modMan_keeps
    | with_reducible apply sendDrop_keeps

theorem copyDone_keeps {s₀ : State} (a1 : ℕ) (s : State) (h : Keeps s₀ s) :
    Keeps s₀ (copyDone a1 s) := by
  unfold copyDone
  repeat' first
    | with_reducible intro _
    | with_reducible assumption
    | with_reducible apply setTodo_keeps
    | with_reducible apply startOwed_keeps
    | with_reducible apply Keeps.ite
    | with_reducible apply Keeps.fold
    | with_reducible apply Keeps.same_id
    | with_reducible apply hk
    | split

theorem copyStop_keeps {s₀ : State} (a1 : ℕ) (a2 : MirrorJob) (a3 : CopyItem) (s : State) (h : Keeps s₀ s) :
    Keeps s₀ (copyStop a1 a2 a3 s) := by
  unfold copyStop
  repeat' first
    | with_reducible intro _
    | with_reducible assumption
    | with_reducible apply setTodo_keeps
    | with_reducible apply startOwed_keeps

theorem mirrorFinish_keeps {s₀ : State} (a1 : ℕ) (s : State) (h : Keeps s₀ s) :
    Keeps s₀ (mirrorFinish a1 s) := by
  unfold mirrorFinish
  repeat' first
    | with_reducible intro _
    | with_reducible assumption
    | with_reducible apply answer_keeps
    | with_reducible apply modMan_keeps
    | with_reducible apply Keeps.ite
    | with_reducible apply Keeps.fold
    | with_reducible apply Keeps.same_id
    | (extract_lets +onlyGivenNames x; clear_value x)
    | with_reducible apply hk
    | split

theorem modMove_keeps {s₀ : State} (a1 : ℕ) (a2 : (Move → Move)) (s : State) (h : Keeps s₀ s) :
    Keeps s₀ (modMove a1 a2 s) := by
  unfold modMove
  repeat' first
    | with_reducible intro _
    | with_reducible assumption
    | with_reducible apply modMan_keeps

theorem modTgt_keeps {s₀ : State} (a1 : ℕ) (a2 : ℕ) (a3 : (MoveTgt → MoveTgt)) (s : State) (h : Keeps s₀ s) :
    Keeps s₀ (modTgt a1 a2 a3 s) := by
  unfold modTgt
  repeat' first
    | with_reducible intro _
    | with_reducible assumption
    | with_reducible apply modMove_keeps

theorem codePage_keeps {s₀ : State} (s : State) (a2 : ℕ) (a3 : Bytes) (h : Keeps s₀ s) :
    KeepsR s₀ (codePage s a2 a3) := by
  unfold codePage
  repeat' first
    | with_reducible intro _
    | with_reducible assumption
    | with_reducible apply bump_keeps
    | with_reducible apply codeObject_keeps
    | with_reducible apply Keeps.ite
    | with_reducible apply Keeps.fold
    | with_reducible apply Keeps.same_id
    | with_reducible apply KeepsR.ite
    | with_reducible apply KeepsR.fold
    | with_reducible refine KeepsR.get (by assumption) ?_
    | (with_reducible apply KeepsR.snd; with_reducible apply codeObject_keeps)
    | with_reducible apply hk
    | split
    | with_reducible apply KeepsR.mk

theorem moveBytes_keeps {s₀ : State} (s : State) (a2 : ℕ) (a3 : Frame) (a4 : ℕ) (h : Keeps s₀ s) :
    KeepsR s₀ (moveBytes s a2 a3 a4) := by
  unfold moveBytes
  repeat' first
    | with_reducible intro _
    | with_reducible assumption
    | with_reducible apply bump_keeps
    | with_reducible apply codePage_keeps
    | with_reducible apply Keeps.ite
    | with_reducible apply Keeps.fold
    | with_reducible apply Keeps.same_id
    | with_reducible apply KeepsR.ite
    | with_reducible apply KeepsR.fold
    | with_reducible refine KeepsR.get (by assumption) ?_
    | (extract_lets +onlyGivenNames x; clear_value x)
    | with_reducible apply hk
    | split
    | with_reducible apply KeepsR.mk

theorem moveState_keeps {s₀ : State} (a1 : ℕ) (s : State) (h : Keeps s₀ s) :
    Keeps s₀ (moveState a1 s) := by
  unfold moveState
  repeat' first
    | with_reducible intro _
    | with_reducible assumption
    | with_reducible apply modFrame_keeps
    | with_reducible apply Keeps.ite
    | with_reducible apply Keeps.fold
    | with_reducible apply Keeps.same_id
    | with_reducible apply hk
    | split

theorem reportRefusal_keeps {s₀ : State} (a1 : ℕ) (a2 : ℕ) (a3 : ℕ) (s : State) (h : Keeps s₀ s) :
    Keeps s₀ (reportRefusal a1 a2 a3 s) := by
  unfold reportRefusal
  repeat' first
    | with_reducible intro _
    | with_reducible assumption
    | with_reducible apply modBerth_keeps
    | with_reducible apply streamStatus_keeps
    | with_reducible apply Keeps.ite
    | with_reducible apply Keeps.fold
    | with_reducible apply Keeps.same_id
    | with_reducible apply hk
    | split

theorem tgtRetry_keeps {s₀ : State} (a1 : ℕ) (a2 : ℕ) (s : State) (h : Keeps s₀ s) :
    Keeps s₀ (tgtRetry a1 a2 s) := by
  unfold tgtRetry
  repeat' first
    | with_reducible intro _
    | with_reducible assumption
    | with_reducible apply modTgt_keeps
    | with_reducible apply moveState_keeps

theorem tgtRefused_keeps {s₀ : State} (a1 : ℕ) (a2 : ℕ) (a3 : ℕ) (s : State) (h : Keeps s₀ s) :
    Keeps s₀ (tgtRefused a1 a2 a3 s) := by
  unfold tgtRefused
  repeat' first
    | with_reducible intro _
    | with_reducible assumption
    | with_reducible apply bump_keeps
    | with_reducible apply modTgt_keeps
    | with_reducible apply moveState_keeps
    | with_reducible apply reportRefusal_keeps
    | with_reducible apply tgtRetry_keeps
    | with_reducible apply Keeps.ite
    | with_reducible apply Keeps.fold
    | with_reducible apply Keeps.same_id
    | (extract_lets +onlyGivenNames x; clear_value (hx : x = _); refine Keeps.via (s := s₀) hx ?_ (fun _ => ?_); clear hx)
    | with_reducible apply hk
    | split

theorem sendPut_keeps {s₀ : State} (a1 : ℕ) (a2 : ℕ) (s : State) (h : Keeps s₀ s) :
    Keeps s₀ (sendPut a1 a2 s) := by
  unfold sendPut
  repeat' first
    | with_reducible intro _
    | with_reducible assumption
    | with_reducible apply bump_keeps
    | with_reducible apply modTgt_keeps
    | with_reducible apply moveBytes_keeps
    | with_reducible apply moveState_keeps
    | with_reducible apply moved_keeps
    | with_reducible apply sendMsgOn_keeps
    | with_reducible apply takeTag_keeps
    | with_reducible apply tgtRefused_keeps
    | with_reducible apply Keeps.ite
    | with_reducible apply Keeps.fold
    | with_reducible apply Keeps.same_id
    | with_reducible apply KeepsR.ite
    | with_reducible apply KeepsR.fold
    | with_reducible refine KeepsR.get (by assumption) ?_
    | (with_reducible apply KeepsR.snd; with_reducible apply takeTag_keeps)
    | with_reducible apply hk
    | split

theorem startMove_keeps {s₀ : State} (a1 : ℕ) (a2 : MoveWhy) (a3 : Option ℕ) (a4 : ℕ) (a5 : List ℕ) (s : State) (h : Keeps s₀ s) :
    Keeps s₀ (startMove a1 a2 a3 a4 a5 s) := by
  unfold startMove
  repeat' first
    | with_reducible intro _
    | with_reducible assumption
    | with_reducible apply modMan_keeps
    | with_reducible apply sendPut_keeps
    | with_reducible apply Keeps.ite
    | with_reducible apply Keeps.fold

theorem copyRun_keeps {s₀ : State} (a1 : ℕ) (a2 : ℕ) (s : State) (h : Keeps s₀ s) :
    Keeps s₀ (copyRun a1 a2 s) := by
  induction a2 generalizing a1 s with
  | zero =>
    unfold copyRun
    repeat' first
      | with_reducible intro _
      | with_reducible assumption
  | succ k ih =>
    unfold copyRun
    repeat' first
      | with_reducible intro _
      | with_reducible assumption
      | with_reducible apply ih
      | with_reducible apply copyStop_keeps
      | with_reducible apply mirrorFinish_keeps
      | with_reducible apply startMove_keeps
      | with_reducible apply Keeps.ite
      | with_reducible apply Keeps.fold
      | with_reducible apply Keeps.same_id
      | with_reducible apply hk
      | split

theorem copyJobs_keeps {s₀ : State} (s : State) (h : Keeps s₀ s) :
    Keeps s₀ (copyJobs s) := by
  unfold copyJobs
  repeat' first
    | with_reducible intro _
    | with_reducible assumption
    | with_reducible apply copyRun_keeps
    | with_reducible apply Keeps.ite
    | with_reducible apply Keeps.fold

theorem moveEnd_keeps {s₀ : State} (a1 : ℕ) (s : State) (h : Keeps s₀ s) :
    Keeps s₀ (moveEnd a1 s) := by
  unfold moveEnd
  repeat' first
    | with_reducible intro _
    | with_reducible assumption
    | with_reducible apply modMan_keeps

theorem handoffRefused_keeps {s₀ : State} (a1 : ℕ) (a2 : ℕ) (s : State) (h : Keeps s₀ s) :
    Keeps s₀ (handoffRefused a1 a2 s) := by
  unfold handoffRefused
  repeat' first
    | with_reducible intro _
    | with_reducible assumption
    | with_reducible apply bump_keeps
    | with_reducible apply modBerth_keeps
    | with_reducible apply modMan_keeps
    | with_reducible apply streamStatus_keeps

theorem sendTransfer_keeps {s₀ : State} (a1 : ℕ) (s : State) (h : Keeps s₀ s) :
    Keeps s₀ (sendTransfer a1 s) := by
  unfold sendTransfer
  repeat' first
    | with_reducible intro _
    | with_reducible assumption
    | with_reducible apply bump_keeps
    | with_reducible apply handoffRefused_keeps
    | with_reducible apply modBerth_keeps
    | with_reducible apply moved_keeps
    | with_reducible apply sendMsgOn_keeps
    | with_reducible apply slackUpdate_keeps
    | with_reducible apply takeTag_keeps
    | with_reducible apply Keeps.ite
    | with_reducible apply Keeps.fold
    | with_reducible apply Keeps.same_id
    | with_reducible apply KeepsR.ite
    | with_reducible apply KeepsR.fold
    | with_reducible refine KeepsR.get (by assumption) ?_
    | (extract_lets +onlyGivenNames x; clear_value (hx : x = _); refine Keeps.via (s := s₀) hx ?_ (fun _ => ?_); clear hx)
    | (extract_lets +onlyGivenNames x; clear_value (hx : x = _); refine KeepsR.via (s := s₀) hx ?_ (fun _ => ?_); clear hx)
    | with_reducible apply hk
    | split

theorem transferCheck_keeps {s₀ : State} (a1 : ℕ) (s : State) (h : Keeps s₀ s) :
    Keeps s₀ (transferCheck a1 s) := by
  unfold transferCheck
  repeat' first
    | with_reducible intro _
    | with_reducible assumption
    | with_reducible apply sendTransfer_keeps
    | with_reducible apply Keeps.ite
    | with_reducible apply Keeps.fold
    | with_reducible apply Keeps.same_id
    | with_reducible apply hk
    | split

theorem windowDone_keeps {s₀ : State} (a1 : ℕ) (a2 : ℕ) (a3 : ℕ) (s : State) (h : Keeps s₀ s) :
    Keeps s₀ (windowDone a1 a2 a3 s) := by
  unfold windowDone
  repeat' first
    | with_reducible intro _
    | with_reducible assumption
    | with_reducible apply frameUnref_keeps
    | with_reducible apply modFrame_keeps
    | with_reducible apply modPt_keeps
    | with_reducible apply moveEnd_keeps
    | with_reducible apply transferCheck_keeps
    | with_reducible apply Keeps.ite
    | with_reducible apply Keeps.fold
    | with_reducible apply Keeps.same_id
    | (extract_lets +onlyGivenNames x; clear_value (hx : x = _); refine Keeps.via (s := s₀) hx ?_ (fun _ => ?_); clear hx)
    | with_reducible apply hk
    | split

theorem accepted_keeps {s₀ : State} (a1 : ℕ) (a2 : ℕ) (s : State) (h : Keeps s₀ s) :
    Keeps s₀ (accepted a1 a2 s) := by
  unfold accepted
  repeat' first
    | with_reducible intro _
    | with_reducible assumption
    | with_reducible apply bump_keeps
    | with_reducible apply copyDone_keeps
    | with_reducible apply copyJobs_keeps
    | with_reducible apply modBerth_keeps
    | with_reducible apply modFrame_keeps
    | with_reducible apply modPt_keeps
    | with_reducible apply modTgt_keeps
    | with_reducible apply moveEnd_keeps
    | with_reducible apply moveState_keeps
    | with_reducible apply windowDone_keeps
    | with_reducible apply Keeps.ite
    | with_reducible apply Keeps.fold
    | with_reducible apply Keeps.same_id
    | (extract_lets +onlyGivenNames x; clear_value (hx : x = _); refine Keeps.via (s := s₀) hx ?_ (fun _ => ?_); clear hx)
    | (extract_lets +onlyGivenNames x; clear_value x)
    | with_reducible apply hk
    | split

theorem copyDead_keeps {s₀ : State} (a1 : ℕ) (s : State) (h : Keeps s₀ s) :
    Keeps s₀ (copyDead a1 s) := by
  unfold copyDead
  repeat' first
    | with_reducible intro _
    | with_reducible assumption
    | with_reducible apply mirrorFinish_keeps
    | with_reducible apply modMan_keeps
    | with_reducible apply startOwed_keeps
    | with_reducible apply Keeps.ite
    | with_reducible apply Keeps.fold
    | with_reducible apply Keeps.same_id
    | with_reducible apply hk
    | split

theorem ownCopyLost_keeps {s₀ : State} (a1 : ℕ) (s : State) (h : Keeps s₀ s) :
    Keeps s₀ (ownCopyLost a1 s) := by
  unfold ownCopyLost
  repeat' first
    | with_reducible intro _
    | with_reducible assumption
    | with_reducible apply bump_keeps
    | with_reducible apply copyJobs_keeps
    | with_reducible apply frameGone_keeps
    | with_reducible apply loseSoon_keeps
    | with_reducible apply modPt_keeps
    | with_reducible apply Keeps.ite
    | with_reducible apply Keeps.fold
    | with_reducible apply Keeps.same_id
    | (extract_lets +onlyGivenNames x; clear_value (hx : x = _); refine Keeps.via (s := s₀) hx ?_ (fun _ => ?_); clear hx)
    | with_reducible apply hk
    | split

theorem crcRefused_keeps {s₀ : State} (a1 : ℕ) (a2 : ℕ) (s : State) (h : Keeps s₀ s) :
    Keeps s₀ (crcRefused a1 a2 s) := by
  unfold crcRefused
  repeat' first
    | with_reducible intro _
    | with_reducible assumption
    | with_reducible apply bump_keeps
    | with_reducible apply modTgt_keeps
    | with_reducible apply ownCopyLost_keeps
    | with_reducible apply record_keeps
    | with_reducible apply sendPut_keeps
    | with_reducible apply tgtRefused_keeps
    | with_reducible apply Keeps.ite
    | with_reducible apply Keeps.fold
    | with_reducible apply Keeps.same_id
    | (extract_lets +onlyGivenNames x; clear_value (hx : x = _); refine Keeps.via (s := s₀) hx ?_ (fun _ => ?_); clear hx)
    | with_reducible apply hk
    | split

theorem moveRefused_keeps {s₀ : State} (a1 : ℕ) (a2 : ℕ) (a3 : ℕ) (s : State) (h : Keeps s₀ s) :
    Keeps s₀ (moveRefused a1 a2 a3 s) := by
  unfold moveRefused
  repeat' first
    | with_reducible intro _
    | with_reducible assumption
    | with_reducible apply copyDead_keeps
    | with_reducible apply copyJobs_keeps
    | with_reducible apply crcRefused_keeps
    | with_reducible apply moveEnd_keeps
    | with_reducible apply tgtRefused_keeps
    | with_reducible apply Keeps.ite
    | with_reducible apply Keeps.fold
    | with_reducible apply Keeps.same_id
    | with_reducible apply hk
    | split

theorem resumeMoves_keeps {s₀ : State} (s : State) (h : Keeps s₀ s) :
    Keeps s₀ (resumeMoves s) := by
  unfold resumeMoves
  repeat' first
    | with_reducible intro _
    | with_reducible assumption
    | with_reducible apply sendDrop_keeps
    | with_reducible apply sendPut_keeps
    | with_reducible apply sendTransfer_keeps
    | with_reducible apply Keeps.ite
    | with_reducible apply Keeps.fold
    | with_reducible apply Keeps.same_id
    | with_reducible apply hk
    | split

theorem sendSeal_keeps {s₀ : State} (a1 : ℕ) (a2 : ℕ) (s : State) (h : Keeps s₀ s) :
    Keeps s₀ (sendSeal a1 a2 s) := by
  unfold sendSeal
  repeat' first
    | with_reducible intro _
    | with_reducible assumption
    | with_reducible apply modTgt_keeps
    | with_reducible apply sendMsgOn_keeps
    | with_reducible apply takeTag_keeps
    | with_reducible apply Keeps.ite
    | with_reducible apply Keeps.fold
    | with_reducible apply Keeps.same_id
    | with_reducible apply KeepsR.ite
    | with_reducible apply KeepsR.fold
    | with_reducible refine KeepsR.get (by assumption) ?_
    | (extract_lets +onlyGivenNames x; clear_value (hx : x = _); refine KeepsR.via (s := s₀) hx ?_ (fun _ => ?_); clear hx)
    | with_reducible apply hk
    | split

theorem sendWindow_keeps {s₀ : State} (a1 : ℕ) (s : State) (h : Keeps s₀ s) :
    Keeps s₀ (sendWindow a1 s) := by
  unfold sendWindow
  repeat' first
    | with_reducible intro _
    | with_reducible assumption
    | with_reducible apply startMove_keeps
    | with_reducible apply Keeps.ite
    | with_reducible apply Keeps.fold
    | with_reducible apply Keeps.same_id
    | with_reducible apply hk
    | split

theorem startDrop_keeps {s₀ : State} (a1 : ℕ) (a2 : ℕ) (a3 : List (ℕ × ℕ)) (a4 : ℕ) (s : State) (h : Keeps s₀ s) :
    Keeps s₀ (startDrop a1 a2 a3 a4 s) := by
  unfold startDrop
  repeat' first
    | with_reducible intro _
    | with_reducible assumption
    | with_reducible apply modMan_keeps
    | with_reducible apply sendDrop_keeps
    | with_reducible apply Keeps.ite

theorem answerCancels_keeps {s₀ : State} (a1 : ℕ) (a2 : ℕ) (s : State) (h : Keeps s₀ s) :
    Keeps s₀ (answerCancels a1 a2 s) := by
  unfold answerCancels
  repeat' first
    | with_reducible intro _
    | with_reducible assumption
    | with_reducible apply fail_keeps
    | with_reducible apply modBerth_keeps
    | with_reducible apply ok_keeps
    | with_reducible apply Keeps.ite
    | with_reducible apply Keeps.fold
    | with_reducible apply Keeps.same_id
    | with_reducible apply hk
    | split

theorem dropAt'_keeps {s₀ : State} (a1 : Berth) (a2 : ℕ) (a3 : List ℕ) (s : State) (h : Keeps s₀ s) :
    Keeps s₀ (dropAt' a1 a2 a3 s) := by
  unfold dropAt'
  repeat' first
    | with_reducible intro _
    | with_reducible assumption
    | with_reducible apply startDrop_keeps
    | with_reducible apply Keeps.ite
    | with_reducible apply Keeps.fold

theorem dropSpec_keeps {s₀ : State} (a1 : ℕ) (s : State) (h : Keeps s₀ s) :
    Keeps s₀ (dropSpec a1 s) := by
  unfold dropSpec
  repeat' first
    | with_reducible intro _
    | with_reducible assumption
    | with_reducible apply bump_keeps
    | with_reducible apply modFrame_keeps
    | with_reducible apply Keeps.ite
    | with_reducible apply Keeps.fold
    | with_reducible apply Keeps.same_id
    | with_reducible apply hk
    | split

theorem wasteDraft_keeps {s₀ : State} (a1 : ℕ) (s : State) (h : Keeps s₀ s) :
    Keeps s₀ (wasteDraft a1 s) := by
  unfold wasteDraft
  repeat' first
    | with_reducible intro _
    | with_reducible assumption
    | with_reducible apply bump_keeps
    | with_reducible apply fail_keeps
    | with_reducible apply modBerth_keeps
    | with_reducible apply Keeps.ite
    | with_reducible apply Keeps.fold
    | with_reducible apply Keeps.same_id
    | with_reducible apply hk
    | split

theorem enterState_keeps {s₀ : State} (a1 : ℕ) (a2 : ℕ) (s : State) (h : Keeps s₀ s) :
    Keeps s₀ (enterState a1 a2 s) := by
  unfold enterState
  repeat' first
    | with_reducible intro _
    | with_reducible assumption
    | with_reducible apply bump_keeps
    | with_reducible apply modCnt_keeps
    | with_reducible apply modProg_keeps
    | with_reducible apply wasteDraft_keeps
    | with_reducible apply Keeps.ite
    | with_reducible apply Keeps.fold
    | with_reducible apply Keeps.same_id
    | with_reducible apply hk
    | split

theorem freeFrames_keeps {s₀ : State} (a1 : Berth) (s : State) (h : Keeps s₀ s) :
    Keeps s₀ (freeFrames a1 s) := by
  unfold freeFrames
  repeat' first
    | with_reducible intro _
    | with_reducible assumption
    | with_reducible apply frameGone_keeps
    | with_reducible apply frameUnref_keeps
    | with_reducible apply Keeps.ite
    | with_reducible apply Keeps.fold

theorem freeBerth_keeps {s₀ : State} (a1 : ℕ) (s : State) (h : Keeps s₀ s) :
    Keeps s₀ (freeBerth a1 s) := by
  unfold freeBerth
  repeat' first
    | with_reducible intro _
    | with_reducible assumption
    | with_reducible apply fail_keeps
    | with_reducible apply freeFrames_keeps
    | with_reducible apply modMan_keeps
    | with_reducible apply stopDrop_keeps
    | with_reducible apply winFree_keeps
    | with_reducible apply withyUnpin_keeps
    | with_reducible apply Keeps.ite
    | with_reducible apply Keeps.fold
    | with_reducible apply Keeps.same_id
    | with_reducible apply hk
    | split

theorem logStore_keeps {s₀ : State} (a1 : List ℕ) (a2 : ℕ) (a3 : List ℕ) (s : State) (h : Keeps s₀ s) :
    Keeps s₀ (logStore a1 a2 a3 s) := by
  induction a3 generalizing a1 a2 s with
  | nil =>
    unfold logStore
    repeat' first
      | with_reducible intro _
      | with_reducible assumption
  | cons e l ih =>
    unfold logStore
    repeat' first
      | with_reducible intro _
      | with_reducible assumption
      | with_reducible apply ih
      | with_reducible apply memStore_keeps

theorem takeManFrame_keeps {s₀ : State} (a1 : ℕ) (a2 : FrameUse) (s : State) (h : Keeps s₀ s) :
    KeepsOR s₀ (takeManFrame a1 a2 s) := by
  unfold takeManFrame
  repeat' first
    | with_reducible intro _
    | with_reducible assumption
    | with_reducible apply takeFrame_keeps
    | with_reducible apply Keeps.ite
    | with_reducible apply Keeps.fold
    | with_reducible apply Keeps.same_id
    | with_reducible apply KeepsR.ite
    | with_reducible apply KeepsR.fold
    | with_reducible exact KeepsOR.no
    | with_reducible apply KeepsOR.ite
    | with_reducible apply KeepsOR.mapR
    | with_reducible apply KeepsOR.map
    | with_reducible apply KeepsOR.getD
    | with_reducible refine KeepsOR.get2 (by assumption) ?_
    | with_reducible refine KeepsOR.get (by assumption) ?_
    | with_reducible refine KeepsR.get (by assumption) ?_
    | with_reducible apply hk
    | split

theorem takeLogPages_keeps {s₀ : State} (a1 : ℕ) (a2 : ℕ) (s : State) (h : Keeps s₀ s) :
    KeepsO s₀ (takeLogPages a1 a2 s) := by
  induction a2 generalizing a1 s with
  | zero =>
    unfold takeLogPages
    repeat' first
      | with_reducible intro _
      | with_reducible assumption
      | with_reducible apply modProg_keeps
      | with_reducible apply modTable_keeps
      | with_reducible apply takeManFrame_keeps
      | with_reducible apply Keeps.ite
      | with_reducible apply Keeps.fold
      | with_reducible apply Keeps.same_id
      | with_reducible apply KeepsR.ite
      | with_reducible apply KeepsR.fold
      | with_reducible exact KeepsO.no
      | with_reducible apply KeepsO.mapS
      | with_reducible apply KeepsO.mapR
      | with_reducible apply KeepsO.map
      | with_reducible apply KeepsO.bindS
      | with_reducible apply KeepsO.bind
      | with_reducible apply KeepsO.getD
      | with_reducible apply KeepsO.ite
      | with_reducible apply KeepsO.mk
  | succ k ih =>
    unfold takeLogPages
    repeat' first
      | with_reducible intro _
      | with_reducible assumption
      | with_reducible apply ih
      | with_reducible apply modProg_keeps
      | with_reducible apply modTable_keeps
      | with_reducible apply takeManFrame_keeps
      | with_reducible apply Keeps.ite
      | with_reducible apply Keeps.fold
      | with_reducible apply Keeps.same_id
      | with_reducible apply KeepsR.ite
      | with_reducible apply KeepsR.fold
      | with_reducible exact KeepsO.no
      | with_reducible apply KeepsO.mapS
      | with_reducible apply KeepsO.mapR
      | with_reducible apply KeepsO.map
      | with_reducible apply KeepsO.bindS
      | with_reducible apply KeepsO.bind
      | with_reducible apply KeepsO.getD
      | with_reducible apply KeepsO.ite
      | with_reducible apply KeepsO.mk
      | with_reducible refine KeepsO.get (by assumption) ?_
      | with_reducible exact KeepsOR.no
      | with_reducible apply KeepsOR.ite
      | with_reducible apply KeepsOR.mapR
      | with_reducible apply KeepsOR.map
      | with_reducible apply KeepsOR.getD
      | with_reducible refine KeepsOR.get2 (by assumption) ?_
      | with_reducible refine KeepsOR.get (by assumption) ?_
      | with_reducible refine KeepsR.get (by assumption) ?_
      | with_reducible apply hk
      | split

theorem logAppend_keeps {s₀ : State} (a1 : ℕ) (a2 : List ℕ) (s : State) (h : Keeps s₀ s) :
    KeepsO s₀ (logAppend a1 a2 s) := by
  unfold logAppend
  repeat' first
    | with_reducible intro _
    | with_reducible assumption
    | with_reducible apply logStore_keeps
    | with_reducible apply modBerth_keeps
    | with_reducible apply takeLogPages_keeps
    | with_reducible apply Keeps.ite
    | with_reducible apply Keeps.fold
    | with_reducible apply Keeps.same_id
    | with_reducible exact KeepsO.no
    | with_reducible apply KeepsO.mapS
    | with_reducible apply KeepsO.mapR
    | with_reducible apply KeepsO.map
    | with_reducible apply KeepsO.bindS
    | with_reducible apply KeepsO.bind
    | with_reducible apply KeepsO.getD
    | with_reducible apply KeepsO.ite
    | with_reducible apply KeepsO.mk
    | with_reducible refine KeepsO.get (by assumption) ?_
    | with_reducible apply hk
    | split

theorem logComplete_keeps {s₀ : State} (a1 : ℕ) (s : State) (h : Keeps s₀ s) :
    Keeps s₀ (logComplete a1 s) := by
  unfold logComplete
  repeat' first
    | with_reducible intro _
    | with_reducible assumption
    | with_reducible apply enterState_keeps
    | with_reducible apply modProg_keeps
    | with_reducible apply transferCheck_keeps
    | with_reducible apply Keeps.ite
    | with_reducible apply Keeps.fold
    | with_reducible apply Keeps.same_id
    | with_reducible apply hk
    | split

theorem voidTransfer_keeps {s₀ : State} (a1 : ℕ) (a2 : ℕ) (s : State) (h : Keeps s₀ s) :
    Keeps s₀ (voidTransfer a1 a2 s) := by
  unfold voidTransfer
  repeat' first
    | with_reducible intro _
    | with_reducible assumption
    | with_reducible apply modBerth_keeps
    | with_reducible apply modMan_keeps
    | with_reducible apply Keeps.ite
    | with_reducible apply Keeps.fold
    | with_reducible apply Keeps.same_id
    | with_reducible apply hk
    | split

theorem manEnd_keeps {s₀ : State} (a1 : ℕ) (a2 : ℕ) (a3 : ℕ) (a4 : ℕ) (a5 : ℕ) (a6 : List ℕ) (s : State) (h : Keeps s₀ s) :
    Keeps s₀ (manEnd a1 a2 a3 a4 a5 a6 s) := by
  unfold manEnd
  repeat' first
    | with_reducible intro _
    | with_reducible assumption
    | with_reducible apply answerCancels_keeps
    | with_reducible apply bump_keeps
    | with_reducible apply dropAt'_keeps
    | with_reducible apply enterState_keeps
    | with_reducible apply freeBerth_keeps
    | with_reducible apply modProg_keeps
    | with_reducible apply slackUpdate_keeps
    | with_reducible apply tokStream_keeps
    | with_reducible apply voidTransfer_keeps
    | with_reducible apply Keeps.ite
    | with_reducible apply Keeps.fold
    | with_reducible apply Keeps.same_id
    | (extract_lets +onlyGivenNames x; clear_value (hx : x = _); refine Keeps.via (s := s₀) hx ?_ (fun _ => ?_); clear hx)
    | (extract_lets +onlyGivenNames x; clear_value x)
    | with_reducible apply hk
    | split

theorem manCancel_keeps {s₀ : State} (a1 : ℕ) (s : State) (h : Keeps s₀ s) :
    Keeps s₀ (manCancel a1 s) := by
  unfold manCancel
  repeat' first
    | with_reducible intro _
    | with_reducible assumption
    | with_reducible apply answerCancels_keeps
    | with_reducible apply manEnd_keeps
    | with_reducible apply Keeps.ite
    | with_reducible apply Keeps.fold
    | with_reducible apply Keeps.same_id
    | with_reducible apply hk
    | split

theorem manFail_keeps {s₀ : State} (a1 : ℕ) (a2 : ℕ) (s : State) (h : Keeps s₀ s) :
    Keeps s₀ (manFail a1 a2 s) := by
  unfold manFail
  repeat' first
    | with_reducible intro _
    | with_reducible assumption
    | with_reducible apply manEnd_keeps
    | with_reducible apply modBerth_keeps
    | with_reducible apply Keeps.ite
    | with_reducible apply Keeps.fold
    | with_reducible apply Keeps.same_id
    | with_reducible apply hk
    | split

theorem manLose_keeps {s₀ : State} (a1 : ℕ) (a2 : ℕ) (s : State) (h : Keeps s₀ s) :
    Keeps s₀ (manLose a1 a2 s) := by
  unfold manLose
  repeat' first
    | with_reducible intro _
    | with_reducible assumption
    | with_reducible apply dropSpec_keeps
    | with_reducible apply enterState_keeps
    | with_reducible apply modBerth_keeps
    | with_reducible apply slackUpdate_keeps
    | with_reducible apply streamStatus_keeps
    | with_reducible apply voidTransfer_keeps
    | with_reducible apply Keeps.ite
    | with_reducible apply Keeps.fold
    | with_reducible apply Keeps.same_id
    | (extract_lets +onlyGivenNames x; clear_value (hx : x = _); refine Keeps.via (s := s₀) hx ?_ (fun _ => ?_); clear hx)
    | with_reducible apply hk
    | split

theorem manVoid_keeps {s₀ : State} (a1 : ℕ) (s : State) (h : Keeps s₀ s) :
    Keeps s₀ (manVoid a1 s) := by
  unfold manVoid
  repeat' first
    | with_reducible intro _
    | with_reducible assumption
    | with_reducible apply answerCancels_keeps
    | with_reducible apply bump_keeps
    | with_reducible apply freeBerth_keeps
    | with_reducible apply modProg_keeps
    | with_reducible apply wasteDraft_keeps

theorem rollBack_keeps {s₀ : State} (a1 : ℕ) (s : State) (h : Keeps s₀ s) :
    Keeps s₀ (rollBack a1 s) := by
  unfold rollBack
  repeat' first
    | with_reducible intro _
    | with_reducible assumption
    | with_reducible apply dropSpec_keeps
    | with_reducible apply modBerth_keeps

theorem rowStalled_keeps {s₀ : State} (a1 : ℕ) (s : State) (h : Keeps s₀ s) :
    Keeps s₀ (rowStalled a1 s) := by
  unfold rowStalled
  repeat' first
    | with_reducible intro _
    | with_reducible assumption
    | with_reducible apply bump_keeps
    | with_reducible apply modBerth_keeps
    | with_reducible apply Keeps.ite
    | with_reducible apply Keeps.fold
    | with_reducible apply Keeps.same_id
    | (extract_lets +onlyGivenNames x; clear_value (hx : x = _); refine Keeps.via (s := s₀) hx ?_ (fun _ => ?_); clear hx)
    | with_reducible apply hk
    | split

theorem settleBerth_keeps {s₀ : State} (a1 : ℕ) (s : State) (h : Keeps s₀ s) :
    Keeps s₀ (settleBerth a1 s) := by
  unfold settleBerth
  repeat' first
    | with_reducible intro _
    | with_reducible assumption
    | with_reducible apply manCancel_keeps
    | with_reducible apply manFail_keeps
    | with_reducible apply manLose_keeps
    | with_reducible apply Keeps.ite
    | with_reducible apply Keeps.fold
    | with_reducible apply Keeps.same_id
    | (extract_lets +onlyGivenNames x; clear_value (hx : x = _); refine Keeps.via (s := s₀) hx ?_ (fun _ => ?_); clear hx)
    | with_reducible apply hk
    | split

theorem settle_keeps {s₀ : State} (s : State) (h : Keeps s₀ s) :
    Keeps s₀ (settle s) := by
  unfold settle
  repeat' first
    | with_reducible intro _
    | with_reducible assumption
    | with_reducible apply settleBerth_keeps
    | with_reducible apply Keeps.ite
    | with_reducible apply Keeps.fold

theorem acceptAct_keeps {s₀ : State} (a1 : Pkt) (a2 : ℕ) (a3 : Berth) (s : State) (h : Keeps s₀ s) :
    Keeps s₀ (acceptAct a1 a2 a3 s) := by
  unfold acceptAct
  repeat' first
    | with_reducible intro _
    | with_reducible assumption
    | with_reducible apply fail_keeps
    | with_reducible apply manEnd_keeps
    | with_reducible apply modBerth_keeps
    | with_reducible apply ok_keeps
    | with_reducible apply Keeps.ite

theorem sendAccept_keeps {s₀ : State} (a1 : ℕ) (s : State) (h : Keeps s₀ s) :
    Keeps s₀ (sendAccept a1 s) := by
  unfold sendAccept
  repeat' first
    | with_reducible intro _
    | with_reducible assumption
    | exact FabKeeps.mk fun _ h => h
    | with_reducible apply modBerth_keeps
    | with_reducible apply modFab_keeps
    | with_reducible apply sendMsgOn_keeps
    | with_reducible apply takeTag_keeps
    | with_reducible apply Keeps.ite
    | with_reducible apply Keeps.fold
    | with_reducible apply Keeps.same_id
    | with_reducible apply KeepsR.ite
    | with_reducible apply KeepsR.fold
    | with_reducible refine KeepsR.get (by assumption) ?_
    | (extract_lets +onlyGivenNames x; clear_value (hx : x = _); refine Keeps.via (s := s₀) hx ?_ (fun _ => ?_); clear hx)
    | (extract_lets +onlyGivenNames x; clear_value (hx : x = _); refine KeepsR.via (s := s₀) hx ?_ (fun _ => ?_); clear hx)
    | with_reducible apply hk
    | split

theorem takeReserved_keeps {s₀ : State} (a1 : ℕ) (a2 : Frame) (s : State) (h : Keeps s₀ s) :
    KeepsOR s₀ (takeReserved a1 a2 s) := by
  unfold takeReserved
  repeat' first
    | with_reducible intro _
    | with_reducible assumption
    | with_reducible apply modMan_keeps
    | with_reducible apply Keeps.ite
    | with_reducible apply Keeps.fold
    | with_reducible apply Keeps.same_id
    | with_reducible apply KeepsR.ite
    | with_reducible apply KeepsR.fold
    | with_reducible exact KeepsOR.no
    | with_reducible apply KeepsOR.ite
    | with_reducible apply KeepsOR.mapR
    | with_reducible apply KeepsOR.map
    | with_reducible apply KeepsOR.getD
    | with_reducible refine KeepsOR.get2 (by assumption) ?_
    | with_reducible refine KeepsOR.get (by assumption) ?_
    | with_reducible refine KeepsR.get (by assumption) ?_
    | with_reducible apply hk
    | split
    | with_reducible apply KeepsR.mk

theorem takeReservedN_keeps {s₀ : State} (a1 : ℕ) (a2 : FrameUse) (a3 : ℕ) (a4 : ℕ) (s : State) (h : Keeps s₀ s) :
    KeepsR s₀ (takeReservedN a1 a2 a3 a4 s) := by
  induction a4 generalizing a1 a2 a3 s with
  | zero =>
    unfold takeReservedN
    repeat' first
      | with_reducible intro _
      | with_reducible assumption
      | with_reducible apply takeReserved_keeps
      | with_reducible apply Keeps.ite
      | with_reducible apply Keeps.fold
      | with_reducible apply Keeps.same_id
      | with_reducible apply KeepsR.ite
      | with_reducible apply KeepsR.fold
      | with_reducible exact KeepsOR.no
      | with_reducible apply KeepsOR.ite
      | with_reducible apply KeepsOR.mapR
      | with_reducible apply KeepsOR.map
      | with_reducible apply KeepsOR.getD
      | with_reducible refine KeepsOR.get2 (by assumption) ?_
      | with_reducible refine KeepsOR.get (by assumption) ?_
      | with_reducible refine KeepsR.get (by assumption) ?_
      | with_reducible apply hk
      | split
      | with_reducible apply KeepsR.mk
  | succ k ih =>
    unfold takeReservedN
    repeat' first
      | with_reducible intro _
      | with_reducible assumption
      | with_reducible apply ih
      | with_reducible apply takeReserved_keeps
      | with_reducible apply Keeps.ite
      | with_reducible apply Keeps.fold
      | with_reducible apply Keeps.same_id
      | with_reducible apply KeepsR.ite
      | with_reducible apply KeepsR.fold
      | with_reducible exact KeepsOR.no
      | with_reducible apply KeepsOR.ite
      | with_reducible apply KeepsOR.mapR
      | with_reducible apply KeepsOR.map
      | with_reducible apply KeepsOR.getD
      | with_reducible refine KeepsOR.get2 (by assumption) ?_
      | with_reducible refine KeepsOR.get (by assumption) ?_
      | with_reducible refine KeepsR.get (by assumption) ?_
      | (extract_lets +onlyGivenNames x; clear_value (hx : x = _); refine KeepsR.via (s := s₀) hx ?_ (fun _ => ?_); clear hx)
      | with_reducible apply hk
      | split
      | with_reducible apply KeepsR.mk

theorem acceptNew_keeps {s₀ : State} (a1 : ℕ) (a2 : XferIn) (s : State) (h : Keeps s₀ s) :
    Keeps s₀ (acceptNew a1 a2 s) := by
  unfold acceptNew
  repeat' first
    | with_reducible intro _
    | with_reducible assumption
    | with_reducible apply logStore_keeps
    | with_reducible apply modMan_keeps
    | with_reducible apply sendAccept_keeps
    | with_reducible apply takeReservedN_keeps
    | with_reducible apply withyPin_keeps
    | with_reducible apply Keeps.ite
    | with_reducible apply Keeps.fold
    | with_reducible apply Keeps.same_id
    | with_reducible apply KeepsR.ite
    | with_reducible apply KeepsR.fold
    | with_reducible refine KeepsR.get (by assumption) ?_
    | (with_reducible apply KeepsR.snd; with_reducible apply takeReservedN_keeps)

theorem onReply_keeps {s₀ : State} (a1 : Rep) (f2 : (State → Bool)) (f3 : (ℕ → State → State)) (s : State) (hf3 : ∀ x0 x1, Keeps s₀ x1 → Keeps s₀ (f3 x0 x1)) (h : Keeps s₀ s) :
    Keeps s₀ (onReply a1 f2 f3 s) := by
  unfold onReply
  repeat' first
    | with_reducible intro _
    | with_reducible assumption
    | with_reducible apply atTick_keeps
    | with_reducible apply bump_keeps
    | with_reducible apply hf3
    | with_reducible apply Keeps.ite

theorem voidAwait_keeps {s₀ : State} (a1 : ℕ) (s : State) (h : Keeps s₀ s) :
    Keeps s₀ (voidAwait a1 s) := by
  unfold voidAwait
  repeat' first
    | with_reducible intro _
    | with_reducible assumption
    | with_reducible apply manVoid_keeps
    | with_reducible apply Keeps.ite
    | with_reducible apply Keeps.fold
    | with_reducible apply Keeps.same_id
    | with_reducible apply hk
    | split

theorem acceptReplyFx_keeps {s₀ : State} (a1 : Rep) (s : State) (h : Keeps s₀ s) :
    Keeps s₀ (acceptReplyFx a1 s) := by
  unfold acceptReplyFx
  repeat' first
    | with_reducible intro _
    | with_reducible assumption
    | with_reducible apply modProg_keeps
    | with_reducible apply onReply_keeps
    | with_reducible apply voidAwait_keeps
    | with_reducible apply Keeps.ite
    | with_reducible apply Keeps.fold
    | with_reducible apply Keeps.same_id
    | with_reducible apply hk
    | split

theorem xferStopDrop_keeps {s₀ : State} (a1 : XferIn) (s : State) (h : Keeps s₀ s) :
    Keeps s₀ (xferStopDrop a1 s) := by
  unfold xferStopDrop
  repeat' first
    | with_reducible intro _
    | with_reducible assumption
    | with_reducible apply stopDrop_keeps
    | with_reducible apply Keeps.ite

theorem acceptRestore_keeps {s₀ : State} (a1 : ℕ) (a2 : XferIn) (a3 : ℕ) (a4 : ℕ) (a5 : Berth) (s : State) (h : Keeps s₀ s) :
    Keeps s₀ (acceptRestore a1 a2 a3 a4 a5 s) := by
  unfold acceptRestore
  repeat' first
    | with_reducible intro _
    | with_reducible assumption
    | with_reducible apply enterState_keeps
    | with_reducible apply frameGone_keeps
    | with_reducible apply modBerth_keeps
    | with_reducible apply modMan_keeps
    | with_reducible apply sendAccept_keeps
    | with_reducible apply takeReservedN_keeps
    | with_reducible apply xferStopDrop_keeps
    | with_reducible apply Keeps.ite
    | with_reducible apply Keeps.fold
    | with_reducible apply Keeps.same_id
    | with_reducible apply KeepsR.ite
    | with_reducible apply KeepsR.fold
    | with_reducible refine KeepsR.get (by assumption) ?_
    | (with_reducible apply KeepsR.snd; with_reducible apply takeReservedN_keeps)

theorem admFrames_keeps {s₀ : State} (a1 : ℕ) (s : State) (h : Keeps s₀ s) :
    KeepsO s₀ (admFrames a1 s) := by
  unfold admFrames
  repeat' first
    | with_reducible intro _
    | with_reducible assumption
    | with_reducible apply modProg_keeps
    | with_reducible apply modTable_keeps
    | with_reducible apply takeLogPages_keeps
    | with_reducible apply takeManFrame_keeps
    | with_reducible apply Keeps.ite
    | with_reducible apply Keeps.fold
    | with_reducible apply Keeps.same_id
    | with_reducible apply KeepsR.ite
    | with_reducible apply KeepsR.fold
    | with_reducible exact KeepsO.no
    | with_reducible apply KeepsO.mapS
    | with_reducible apply KeepsO.mapR
    | with_reducible apply KeepsO.map
    | with_reducible apply KeepsO.bindS
    | with_reducible apply KeepsO.bind
    | with_reducible apply KeepsO.getD
    | with_reducible apply KeepsO.ite
    | with_reducible apply KeepsO.mk
    | with_reducible refine KeepsO.get (by assumption) ?_
    | with_reducible exact KeepsOR.no
    | with_reducible apply KeepsOR.ite
    | with_reducible apply KeepsOR.mapR
    | with_reducible apply KeepsOR.map
    | with_reducible apply KeepsOR.getD
    | with_reducible refine KeepsOR.get2 (by assumption) ?_
    | with_reducible refine KeepsOR.get (by assumption) ?_
    | with_reducible refine KeepsR.get (by assumption) ?_
    | with_reducible apply hk
    | split

theorem enrol_keeps {s₀ : State} (a1 : Bool) (a2 : ℕ) (a3 : Pkt) (a4 : AdmRec) (a5 : ℕ) (a6 : ℕ) (a7 : ℕ) (s : State) (h : Keeps s₀ s) :
    Keeps s₀ (enrol a1 a2 a3 a4 a5 a6 a7 s) := by
  unfold enrol
  repeat' first
    | with_reducible intro _
    | with_reducible assumption
    | with_reducible apply admFrames_keeps
    | with_reducible apply answer_keeps
    | with_reducible apply bump_keeps
    | with_reducible apply failAt_keeps
    | with_reducible apply incarnNext_keeps
    | with_reducible apply logAppend_keeps
    | with_reducible apply logComplete_keeps
    | with_reducible apply modMan_keeps
    | with_reducible apply stopTake_keeps
    | with_reducible apply withyPin_keeps
    | with_reducible apply Keeps.ite
    | with_reducible apply Keeps.fold
    | with_reducible apply Keeps.same_id
    | with_reducible exact KeepsO.no
    | with_reducible apply KeepsO.mapS
    | with_reducible apply KeepsO.mapR
    | with_reducible apply KeepsO.map
    | with_reducible apply KeepsO.bindS
    | with_reducible apply KeepsO.bind
    | with_reducible apply KeepsO.getD
    | with_reducible apply KeepsO.ite
    | with_reducible apply KeepsO.mk
    | with_reducible refine KeepsO.get (by assumption) ?_
    | (extract_lets +onlyGivenNames x; clear_value (hx : x = _); refine Keeps.via (s := s₀) hx ?_ (fun _ => ?_); clear hx)
    | with_reducible apply hk
    | split

theorem admChecked_keeps {s₀ : State} (a1 : Bool) (a2 : ℕ) (a3 : Pkt) (a4 : AdmRec) (s : State) (h : Keeps s₀ s) :
    Keeps s₀ (admChecked a1 a2 a3 a4 s) := by
  unfold admChecked
  repeat' first
    | with_reducible intro _
    | with_reducible assumption
    | with_reducible apply enrol_keeps
    | with_reducible apply failAt_keeps
    | with_reducible apply Keeps.ite
    | with_reducible apply Keeps.fold
    | with_reducible apply Keeps.same_id
    | (extract_lets +onlyGivenNames x; clear_value x)
    | with_reducible apply hk
    | split

theorem admAct_keeps {s₀ : State} (a1 : Bool) (a2 : ℕ) (a3 : Pkt) (s : State) (h : Keeps s₀ s) :
    Keeps s₀ (admAct a1 a2 a3 s) := by
  unfold admAct
  repeat' first
    | with_reducible intro _
    | with_reducible assumption
    | with_reducible apply admChecked_keeps
    | with_reducible apply answer_keeps
    | with_reducible apply failAt_keeps
    | with_reducible apply Keeps.ite
    | with_reducible apply Keeps.fold
    | with_reducible apply Keeps.same_id
    | with_reducible apply hk
    | split

theorem appendAct_keeps {s₀ : State} (a1 : Pkt) (a2 : ℕ) (a3 : Berth) (s : State) (h : Keeps s₀ s) :
    Keeps s₀ (appendAct a1 a2 a3 s) := by
  unfold appendAct
  repeat' first
    | with_reducible intro _
    | with_reducible assumption
    | with_reducible apply fail_keeps
    | with_reducible apply logAppend_keeps
    | with_reducible apply logComplete_keeps
    | with_reducible apply ok_keeps
    | with_reducible apply Keeps.ite
    | with_reducible apply Keeps.fold
    | with_reducible apply Keeps.same_id
    | with_reducible exact KeepsO.no
    | with_reducible apply KeepsO.mapS
    | with_reducible apply KeepsO.mapR
    | with_reducible apply KeepsO.map
    | with_reducible apply KeepsO.bindS
    | with_reducible apply KeepsO.bind
    | with_reducible apply KeepsO.getD
    | with_reducible apply KeepsO.ite
    | with_reducible apply KeepsO.mk
    | with_reducible refine KeepsO.get (by assumption) ?_
    | with_reducible apply hk
    | split

theorem awaitConfirmTimeoutFx_keeps {s₀ : State} (a1 : ℕ) (a2 : ℕ) (s : State) (h : Keeps s₀ s) :
    Keeps s₀ (awaitConfirmTimeoutFx a1 a2 s) := by
  unfold awaitConfirmTimeoutFx
  repeat' first
    | with_reducible intro _
    | with_reducible assumption
    | with_reducible apply atTick_keeps
    | with_reducible apply bump_keeps
    | with_reducible apply manVoid_keeps
    | with_reducible apply Keeps.ite
    | with_reducible apply Keeps.fold
    | with_reducible apply Keeps.same_id
    | (extract_lets +onlyGivenNames x; clear_value (hx : x = _); refine Keeps.via (s := s₀) hx ?_ (fun _ => ?_); clear hx)
    | with_reducible apply hk
    | split

theorem cancelAct_keeps {s₀ : State} (a1 : Pkt) (a2 : ℕ) (a3 : Berth) (s : State) (h : Keeps s₀ s) :
    Keeps s₀ (cancelAct a1 a2 a3 s) := by
  unfold cancelAct
  repeat' first
    | with_reducible intro _
    | with_reducible assumption
    | with_reducible apply fail_keeps
    | with_reducible apply manCancel_keeps
    | with_reducible apply modBerth_keeps
    | with_reducible apply ok_keeps
    | with_reducible apply settle_keeps
    | with_reducible apply Keeps.ite

theorem draftAct_keeps {s₀ : State} (a1 : Pkt) (a2 : ℕ) (a3 : Berth) (s : State) (h : Keeps s₀ s) :
    Keeps s₀ (draftAct a1 a2 a3 s) := by
  unfold draftAct
  repeat' first
    | with_reducible intro _
    | with_reducible assumption
    | with_reducible apply bump_keeps
    | with_reducible apply fail_keeps
    | with_reducible apply modBerth_keeps
    | with_reducible apply wasteDraft_keeps
    | with_reducible apply Keeps.ite

theorem execAcceptReply_keeps {s₀ : State} (a1 : Rep) (s : State) (h : Keeps s₀ s) :
    KeepsX s₀ (execAcceptReply a1 s) := by
  unfold execAcceptReply
  repeat' first
    | with_reducible intro _
    | with_reducible assumption
    | with_reducible apply acceptReplyFx_keeps
    | with_reducible apply Keeps.ite
    | with_reducible apply KeepsX.mk

theorem execAwaitConfirmTimeout_keeps {s₀ : State} (a1 : ℕ) (a2 : ℕ) (s : State) (h : Keeps s₀ s) :
    KeepsX s₀ (execAwaitConfirmTimeout a1 a2 s) := by
  unfold execAwaitConfirmTimeout
  repeat' first
    | with_reducible intro _
    | with_reducible assumption
    | with_reducible apply awaitConfirmTimeoutFx_keeps
    | with_reducible apply Keeps.ite
    | with_reducible apply KeepsX.mk

theorem handoffTimeoutFx_keeps {s₀ : State} (a1 : ℕ) (a2 : ℕ) (s : State) (h : Keeps s₀ s) :
    Keeps s₀ (handoffTimeoutFx a1 a2 s) := by
  unfold handoffTimeoutFx
  repeat' first
    | with_reducible intro _
    | with_reducible assumption
    | with_reducible apply atTick_keeps
    | with_reducible apply bump_keeps
    | with_reducible apply handoffRefused_keeps
    | with_reducible apply Keeps.ite
    | with_reducible apply Keeps.fold
    | with_reducible apply Keeps.same_id
    | (extract_lets +onlyGivenNames x; clear_value (hx : x = _); refine Keeps.via (s := s₀) hx ?_ (fun _ => ?_); clear hx)
    | with_reducible apply hk
    | split

theorem execHandoffTimeout_keeps {s₀ : State} (a1 : ℕ) (a2 : ℕ) (s : State) (h : Keeps s₀ s) :
    KeepsX s₀ (execHandoffTimeout a1 a2 s) := by
  unfold execHandoffTimeout
  repeat' first
    | with_reducible intro _
    | with_reducible assumption
    | with_reducible apply handoffTimeoutFx_keeps
    | with_reducible apply Keeps.ite
    | with_reducible apply KeepsX.mk

theorem handoffTransferReplyFx_keeps {s₀ : State} (a1 : Rep) (s : State) (h : Keeps s₀ s) :
    Keeps s₀ (handoffTransferReplyFx a1 s) := by
  unfold handoffTransferReplyFx
  repeat' first
    | with_reducible intro _
    | with_reducible assumption
    | with_reducible apply handoffRefused_keeps
    | with_reducible apply onReply_keeps
    | with_reducible apply sendWindow_keeps
    | with_reducible apply Keeps.ite
    | with_reducible apply Keeps.fold
    | with_reducible apply Keeps.same_id
    | with_reducible apply hk
    | split

theorem execHandoffTransferReply_keeps {s₀ : State} (a1 : Rep) (s : State) (h : Keeps s₀ s) :
    KeepsX s₀ (execHandoffTransferReply a1 s) := by
  unfold execHandoffTransferReply
  repeat' first
    | with_reducible intro _
    | with_reducible assumption
    | with_reducible apply handoffTransferReplyFx_keeps
    | with_reducible apply Keeps.ite
    | with_reducible apply KeepsX.mk

theorem manBerthSelWriteFx_keeps {s₀ : State} (a1 : ℕ) (s : State) (h : Keeps s₀ s) :
    Keeps s₀ (manBerthSelWriteFx a1 s) := by
  unfold manBerthSelWriteFx
  repeat' first
    | with_reducible intro _
    | with_reducible assumption
    | with_reducible apply putWords_keeps
    | with_reducible apply regSet_keeps
    | with_reducible apply Keeps.ite

theorem execManBerthSelWrite_keeps {s₀ : State} (a1 : ℕ) (s : State) (h : Keeps s₀ s) :
    KeepsX s₀ (execManBerthSelWrite a1 s) := by
  unfold execManBerthSelWrite
  repeat' first
    | with_reducible intro _
    | with_reducible assumption
    | with_reducible apply manBerthSelWriteFx_keeps
    | with_reducible apply Keeps.ite
    | with_reducible apply KeepsX.mk

theorem onManifest_keeps {s₀ : State} (a1 : ℕ) (a2 : Pkt) (a3 : Bool) (f4 : (ℕ → Berth → State → State)) (s : State) (hf4 : ∀ x0 x1 x2, Keeps s₀ x2 → Keeps s₀ (f4 x0 x1 x2)) (h : Keeps s₀ s) :
    Keeps s₀ (onManifest a1 a2 a3 f4 s) := by
  unfold onManifest
  repeat' first
    | with_reducible intro _
    | with_reducible assumption
    | with_reducible apply bump_keeps
    | with_reducible apply fail_keeps
    | with_reducible apply failAt_keeps
    | with_reducible apply hf4
    | with_reducible apply Keeps.ite
    | with_reducible apply Keeps.fold
    | with_reducible apply Keeps.same_id
    | with_reducible apply hk
    | split

theorem receiveMan_keeps {s₀ : State} (a1 : OpRow) (a2 : Pkt) (a3 : Bool) (f4 : (ℕ → Berth → State → State)) (s : State) (hf4 : ∀ x0 x1 x2, Keeps s₀ x2 → Keeps s₀ (f4 x0 x1 x2)) (h : Keeps s₀ s) :
    Keeps s₀ (receiveMan a1 a2 a3 f4 s) := by
  unfold receiveMan
  repeat' first
    | with_reducible intro _
    | with_reducible assumption
    | with_reducible apply onManifest_keeps
    | with_reducible apply receive_keeps
    | with_reducible apply hf4

theorem reqAcceptFx_keeps {s₀ : State} (a1 : Pkt) (s : State) (h : Keeps s₀ s) :
    Keeps s₀ (reqAcceptFx a1 s) := by
  unfold reqAcceptFx
  repeat' first
    | with_reducible intro _
    | with_reducible assumption
    | with_reducible apply acceptAct_keeps
    | with_reducible apply receiveMan_keeps

theorem execReqAccept_keeps {s₀ : State} (a1 : Pkt) (s : State) (h : Keeps s₀ s) :
    KeepsX s₀ (execReqAccept a1 s) := by
  unfold execReqAccept
  repeat' first
    | with_reducible intro _
    | with_reducible assumption
    | with_reducible apply reqAcceptFx_keeps
    | with_reducible apply Keeps.ite
    | with_reducible apply KeepsX.mk

theorem reqAdmitFx_keeps {s₀ : State} (a1 : Pkt) (s : State) (h : Keeps s₀ s) :
    Keeps s₀ (reqAdmitFx a1 s) := by
  unfold reqAdmitFx
  repeat' first
    | with_reducible intro _
    | with_reducible assumption
    | with_reducible apply admAct_keeps
    | with_reducible apply receiveWith_keeps

theorem execReqAdmit_keeps {s₀ : State} (a1 : Pkt) (s : State) (h : Keeps s₀ s) :
    KeepsX s₀ (execReqAdmit a1 s) := by
  unfold execReqAdmit
  repeat' first
    | with_reducible intro _
    | with_reducible assumption
    | with_reducible apply reqAdmitFx_keeps
    | with_reducible apply Keeps.ite
    | with_reducible apply KeepsX.mk

theorem reqAppendFx_keeps {s₀ : State} (a1 : Pkt) (s : State) (h : Keeps s₀ s) :
    Keeps s₀ (reqAppendFx a1 s) := by
  unfold reqAppendFx
  repeat' first
    | with_reducible intro _
    | with_reducible assumption
    | with_reducible apply appendAct_keeps
    | with_reducible apply receiveMan_keeps

theorem execReqAppend_keeps {s₀ : State} (a1 : Pkt) (s : State) (h : Keeps s₀ s) :
    KeepsX s₀ (execReqAppend a1 s) := by
  unfold execReqAppend
  repeat' first
    | with_reducible intro _
    | with_reducible assumption
    | with_reducible apply reqAppendFx_keeps
    | with_reducible apply Keeps.ite
    | with_reducible apply KeepsX.mk

theorem reqCancelFx_keeps {s₀ : State} (a1 : Pkt) (s : State) (h : Keeps s₀ s) :
    Keeps s₀ (reqCancelFx a1 s) := by
  unfold reqCancelFx
  repeat' first
    | with_reducible intro _
    | with_reducible assumption
    | with_reducible apply cancelAct_keeps
    | with_reducible apply receiveMan_keeps

theorem execReqCancel_keeps {s₀ : State} (a1 : Pkt) (s : State) (h : Keeps s₀ s) :
    KeepsX s₀ (execReqCancel a1 s) := by
  unfold execReqCancel
  repeat' first
    | with_reducible intro _
    | with_reducible assumption
    | with_reducible apply reqCancelFx_keeps
    | with_reducible apply Keeps.ite
    | with_reducible apply KeepsX.mk

theorem reqDraftFx_keeps {s₀ : State} (a1 : Pkt) (s : State) (h : Keeps s₀ s) :
    Keeps s₀ (reqDraftFx a1 s) := by
  unfold reqDraftFx
  repeat' first
    | with_reducible intro _
    | with_reducible assumption
    | with_reducible apply draftAct_keeps
    | with_reducible apply receiveMan_keeps

theorem execReqDraft_keeps {s₀ : State} (a1 : Pkt) (s : State) (h : Keeps s₀ s) :
    KeepsX s₀ (execReqDraft a1 s) := by
  unfold execReqDraft
  repeat' first
    | with_reducible intro _
    | with_reducible assumption
    | with_reducible apply reqDraftFx_keeps
    | with_reducible apply Keeps.ite
    | with_reducible apply KeepsX.mk

theorem retargetAct_keeps {s₀ : State} (a1 : Pkt) (a2 : ℕ) (a3 : Berth) (s : State) (h : Keeps s₀ s) :
    Keeps s₀ (retargetAct a1 a2 a3 s) := by
  unfold retargetAct
  repeat' first
    | with_reducible intro _
    | with_reducible assumption
    | with_reducible apply fail_keeps
    | with_reducible apply modBerth_keeps
    | with_reducible apply ok_keeps
    | with_reducible apply transferCheck_keeps
    | with_reducible apply Keeps.ite

theorem reqHandoffRetargetFx_keeps {s₀ : State} (a1 : Pkt) (s : State) (h : Keeps s₀ s) :
    Keeps s₀ (reqHandoffRetargetFx a1 s) := by
  unfold reqHandoffRetargetFx
  repeat' first
    | with_reducible intro _
    | with_reducible assumption
    | with_reducible apply receiveMan_keeps
    | with_reducible apply retargetAct_keeps

theorem execReqHandoffRetarget_keeps {s₀ : State} (a1 : Pkt) (s : State) (h : Keeps s₀ s) :
    KeepsX s₀ (execReqHandoffRetarget a1 s) := by
  unfold execReqHandoffRetarget
  repeat' first
    | with_reducible intro _
    | with_reducible assumption
    | with_reducible apply reqHandoffRetargetFx_keeps
    | with_reducible apply Keeps.ite
    | with_reducible apply KeepsX.mk

theorem transferRefuse_keeps {s₀ : State} (a1 : Pkt) (a2 : ℕ) (a3 : ℕ) (s : State) (h : Keeps s₀ s) :
    Keeps s₀ (transferRefuse a1 a2 a3 s) := by
  unfold transferRefuse
  repeat' first
    | with_reducible intro _
    | with_reducible assumption
    | with_reducible apply bump_keeps
    | with_reducible apply failAt_keeps

theorem reservedBack_keeps {s₀ : State} (a1 : ℕ) (a2 : ℕ) (s : State) (h : Keeps s₀ s) :
    Keeps s₀ (reservedBack a1 a2 s) := by
  unfold reservedBack
  repeat' first
    | with_reducible intro _
    | with_reducible assumption
    | with_reducible apply frameGone_keeps
    | with_reducible apply modMan_keeps

theorem stopArriving_keeps {s₀ : State} (a1 : ℕ) (s : State) (h : Keeps s₀ s) :
    Keeps s₀ (stopArriving a1 s) := by
  unfold stopArriving
  repeat' first
    | with_reducible intro _
    | with_reducible assumption
    | with_reducible apply reservedBack_keeps
    | with_reducible apply Keeps.ite
    | with_reducible apply Keeps.fold

theorem xferEnd_keeps {s₀ : State} (a1 : ℕ) (a2 : ℕ) (s : State) (h : Keeps s₀ s) :
    Keeps s₀ (xferEnd a1 a2 s) := by
  unfold xferEnd
  repeat' first
    | with_reducible intro _
    | with_reducible assumption
    | with_reducible apply fail_keeps
    | with_reducible apply frameGone_keeps
    | with_reducible apply modMan_keeps
    | with_reducible apply xferStopDrop_keeps
    | with_reducible apply Keeps.ite
    | with_reducible apply Keeps.fold
    | with_reducible apply Keeps.same_id
    | (extract_lets +onlyGivenNames x; clear_value x)
    | with_reducible apply hk
    | split

theorem transferDone_keeps {s₀ : State} (a1 : ℕ) (s : State) (h : Keeps s₀ s) :
    Keeps s₀ (transferDone a1 s) := by
  unfold transferDone
  dsimp only
  repeat' first
    | with_reducible intro _
    | with_reducible assumption
    | with_reducible apply acceptNew_keeps
    | with_reducible apply acceptRestore_keeps
    | with_reducible apply bump_keeps
    | with_reducible apply modMan_keeps
    | with_reducible apply ok_keeps
    | with_reducible apply stopArriving_keeps
    | with_reducible apply xferEnd_keeps
    | with_reducible apply Keeps.ite
    | with_reducible apply Keeps.fold
    | with_reducible apply Keeps.same_id
    | with_reducible apply hk
    | split

theorem transferTake_keeps {s₀ : State} (a1 : Pkt) (a2 : ℕ) (a3 : ManId) (a4 : ManProg) (a5 : ManCnt) (a6 : Option Bytes) (a7 : Option (ℕ × ℕ × ℕ)) (s : State) (h : Keeps s₀ s) :
    Keeps s₀ (transferTake a1 a2 a3 a4 a5 a6 a7 s) := by
  unfold transferTake
  repeat' first
    | with_reducible intro _
    | with_reducible assumption
    | with_reducible apply bump_keeps
    | with_reducible apply incarnNext_keeps
    | with_reducible apply modMan_keeps
    | with_reducible apply pend_keeps
    | with_reducible apply stopTake_keeps
    | with_reducible apply takeReservedN_keeps
    | with_reducible apply transferDone_keeps
    | with_reducible apply xferEnd_keeps
    | with_reducible apply Keeps.ite
    | with_reducible apply Keeps.fold
    | with_reducible apply Keeps.same_id
    | with_reducible apply KeepsR.ite
    | with_reducible apply KeepsR.fold
    | with_reducible refine KeepsR.get (by assumption) ?_
    | (with_reducible apply KeepsR.snd; with_reducible apply takeReservedN_keeps)
    | with_reducible apply hk
    | split

theorem transferChecked_keeps {s₀ : State} (a1 : Pkt) (a2 : ManId) (a3 : ManProg) (a4 : ManCnt) (a5 : Option (ℕ × ℕ × ℕ)) (s : State) (h : Keeps s₀ s) :
    Keeps s₀ (transferChecked a1 a2 a3 a4 a5 s) := by
  unfold transferChecked
  repeat' first
    | with_reducible intro _
    | with_reducible assumption
    | with_reducible apply transferRefuse_keeps
    | with_reducible apply transferTake_keeps
    | with_reducible apply Keeps.ite
    | with_reducible apply Keeps.fold
    | with_reducible apply Keeps.same_id
    | with_reducible apply hk
    | split

theorem transferAct_keeps {s₀ : State} (a1 : Pkt) (s : State) (h : Keeps s₀ s) :
    Keeps s₀ (transferAct a1 s) := by
  unfold transferAct
  repeat' first
    | with_reducible intro _
    | with_reducible assumption
    | with_reducible apply bump_keeps
    | with_reducible apply failAt_keeps
    | with_reducible apply transferChecked_keeps
    | with_reducible apply transferRefuse_keeps
    | with_reducible apply Keeps.ite
    | with_reducible apply Keeps.fold
    | with_reducible apply Keeps.same_id
    | with_reducible apply hk
    | split

theorem transferGate_keeps {s₀ : State} (a1 : Pkt) (s : State) (h : Keeps s₀ s) :
    Keeps s₀ (transferGate a1 s) := by
  unfold transferGate
  repeat' first
    | with_reducible intro _
    | with_reducible assumption
    | with_reducible apply bump_keeps
    | with_reducible apply failAt_keeps
    | with_reducible apply transferAct_keeps
    | with_reducible apply Keeps.ite
    | with_reducible apply Keeps.fold
    | with_reducible apply Keeps.same_id
    | with_reducible apply hk
    | split

theorem reqHandoffTransferFx_keeps {s₀ : State} (a1 : Pkt) (s : State) (h : Keeps s₀ s) :
    Keeps s₀ (reqHandoffTransferFx a1 s) := by
  unfold reqHandoffTransferFx
  repeat' first
    | with_reducible intro _
    | with_reducible assumption
    | with_reducible apply receiveWith_keeps
    | with_reducible apply transferGate_keeps

theorem execReqHandoffTransfer_keeps {s₀ : State} (a1 : Pkt) (s : State) (h : Keeps s₀ s) :
    KeepsX s₀ (execReqHandoffTransfer a1 s) := by
  unfold execReqHandoffTransfer
  repeat' first
    | with_reducible intro _
    | with_reducible assumption
    | with_reducible apply reqHandoffTransferFx_keeps
    | with_reducible apply Keeps.ite
    | with_reducible apply KeepsX.mk

theorem reqQueryFx_keeps {s₀ : State} (a1 : Pkt) (s : State) (h : Keeps s₀ s) :
    Keeps s₀ (reqQueryFx a1 s) := by
  unfold reqQueryFx
  repeat' first
    | with_reducible intro _
    | with_reducible assumption
    | with_reducible apply receiveMan_keeps
    | with_reducible apply respond_keeps

theorem execReqQuery_keeps {s₀ : State} (a1 : Pkt) (s : State) (h : Keeps s₀ s) :
    KeepsX s₀ (execReqQuery a1 s) := by
  unfold execReqQuery
  repeat' first
    | with_reducible intro _
    | with_reducible assumption
    | with_reducible apply reqQueryFx_keeps
    | with_reducible apply Keeps.ite
    | with_reducible apply KeepsX.mk

theorem reqRebuildFx_keeps {s₀ : State} (a1 : Pkt) (s : State) (h : Keeps s₀ s) :
    Keeps s₀ (reqRebuildFx a1 s) := by
  unfold reqRebuildFx
  repeat' first
    | with_reducible intro _
    | with_reducible assumption
    | with_reducible apply admAct_keeps
    | with_reducible apply receiveWith_keeps

theorem execReqRebuild_keeps {s₀ : State} (a1 : Pkt) (s : State) (h : Keeps s₀ s) :
    KeepsX s₀ (execReqRebuild a1 s) := by
  unfold execReqRebuild
  repeat' first
    | with_reducible intro _
    | with_reducible assumption
    | with_reducible apply reqRebuildFx_keeps
    | with_reducible apply Keeps.ite
    | with_reducible apply KeepsX.mk

theorem releaseAct_keeps {s₀ : State} (a1 : Pkt) (a2 : ℕ) (a3 : Berth) (s : State) (h : Keeps s₀ s) :
    Keeps s₀ (releaseAct a1 a2 a3 s) := by
  unfold releaseAct
  repeat' first
    | with_reducible intro _
    | with_reducible assumption
    | with_reducible apply dropAt'_keeps
    | with_reducible apply fail_keeps
    | with_reducible apply freeBerth_keeps
    | with_reducible apply ok_keeps
    | with_reducible apply Keeps.ite

theorem reqReleaseFx_keeps {s₀ : State} (a1 : Pkt) (s : State) (h : Keeps s₀ s) :
    Keeps s₀ (reqReleaseFx a1 s) := by
  unfold reqReleaseFx
  repeat' first
    | with_reducible intro _
    | with_reducible assumption
    | with_reducible apply receiveMan_keeps
    | with_reducible apply releaseAct_keeps

theorem execReqRelease_keeps {s₀ : State} (a1 : Pkt) (s : State) (h : Keeps s₀ s) :
    KeepsX s₀ (execReqRelease a1 s) := by
  unfold execReqRelease
  repeat' first
    | with_reducible intro _
    | with_reducible assumption
    | with_reducible apply reqReleaseFx_keeps
    | with_reducible apply Keeps.ite
    | with_reducible apply KeepsX.mk

theorem reservedBerthTimeoutFx_keeps {s₀ : State} (a1 : ℕ) (a2 : ℕ) (s : State) (h : Keeps s₀ s) :
    Keeps s₀ (reservedBerthTimeoutFx a1 a2 s) := by
  unfold reservedBerthTimeoutFx
  repeat' first
    | with_reducible intro _
    | with_reducible assumption
    | with_reducible apply atTick_keeps
    | with_reducible apply bump_keeps
    | with_reducible apply xferEnd_keeps
    | with_reducible apply Keeps.ite
    | with_reducible apply Keeps.fold
    | with_reducible apply Keeps.same_id
    | (extract_lets +onlyGivenNames x; clear_value (hx : x = _); refine Keeps.via (s := s₀) hx ?_ (fun _ => ?_); clear hx)
    | with_reducible apply hk
    | split

theorem execReservedBerthTimeout_keeps {s₀ : State} (a1 : ℕ) (a2 : ℕ) (s : State) (h : Keeps s₀ s) :
    KeepsX s₀ (execReservedBerthTimeout a1 a2 s) := by
  unfold execReservedBerthTimeout
  repeat' first
    | with_reducible intro _
    | with_reducible assumption
    | with_reducible apply reservedBerthTimeoutFx_keeps
    | with_reducible apply Keeps.ite
    | with_reducible apply KeepsX.mk

theorem arrivalAnew_keeps {s₀ : State} (a1 : ℕ × ℕ × ℕ) (s : State) (h : Keeps s₀ s) :
    Keeps s₀ (arrivalAnew a1 s) := by
  unfold arrivalAnew
  repeat' first
    | with_reducible intro _
    | with_reducible assumption
    | with_reducible apply modMan_keeps

theorem arrivingGone_keeps {s₀ : State} (a1 : ℕ) (s : State) (h : Keeps s₀ s) :
    Keeps s₀ (arrivingGone a1 s) := by
  unfold arrivingGone
  repeat' first
    | with_reducible intro _
    | with_reducible assumption
    | with_reducible apply frameGone_keeps
    | with_reducible apply reservedBack_keeps
    | with_reducible apply Keeps.ite
    | with_reducible apply Keeps.fold
    | with_reducible apply Keeps.same_id
    | with_reducible apply hk
    | split

theorem arrivingFrameTimeoutFx_keeps {s₀ : State} (a1 : ℕ) (a2 : ℕ) (s : State) (h : Keeps s₀ s) :
    Keeps s₀ (arrivingFrameTimeoutFx a1 a2 s) := by
  unfold arrivingFrameTimeoutFx
  repeat' first
    | with_reducible intro _
    | with_reducible assumption
    | with_reducible apply arrivingGone_keeps
    | with_reducible apply atTick_keeps
    | with_reducible apply Keeps.ite
    | with_reducible apply Keeps.fold
    | with_reducible apply Keeps.same_id
    | (extract_lets +onlyGivenNames x; clear_value (hx : x = _); refine Keeps.via (s := s₀) hx ?_ (fun _ => ?_); clear hx)
    | with_reducible apply hk
    | split

theorem arrivingLost_keeps {s₀ : State} (a1 : ℕ) (s : State) (h : Keeps s₀ s) :
    Keeps s₀ (arrivingLost a1 s) := by
  unfold arrivingLost
  repeat' first
    | with_reducible intro _
    | with_reducible assumption
    | with_reducible apply arrivingGone_keeps
    | with_reducible apply modMan_keeps
    | with_reducible apply Keeps.ite
    | with_reducible apply Keeps.fold
    | with_reducible apply Keeps.same_id
    | with_reducible apply hk
    | split

theorem mirrorStart_keeps {s₀ : State} (a1 : Pkt) (a2 : MirrorJob) (f3 : (ℕ → State → State)) (s : State) (hf3 : ∀ x0 x1, Keeps s₀ x1 → Keeps s₀ (f3 x0 x1)) (h : Keeps s₀ s) :
    Keeps s₀ (mirrorStart a1 a2 f3 s) := by
  unfold mirrorStart
  repeat' first
    | with_reducible intro _
    | with_reducible assumption
    | with_reducible apply mirrorFinish_keeps
    | with_reducible apply modMan_keeps
    | with_reducible apply pend_keeps
    | with_reducible apply hf3

theorem closeAct_keeps {s₀ : State} (a1 : Pkt) (s : State) (h : Keeps s₀ s) :
    Keeps s₀ (closeAct a1 s) := by
  unfold closeAct
  repeat' first
    | with_reducible intro _
    | with_reducible assumption
    | with_reducible apply mirrorStart_keeps
    | with_reducible apply startOwed_keeps
    | with_reducible apply Keeps.ite
    | with_reducible apply Keeps.fold

theorem copyAct_keeps {s₀ : State} (a1 : Pkt) (s : State) (h : Keeps s₀ s) :
    Keeps s₀ (copyAct a1 s) := by
  unfold copyAct
  repeat' first
    | with_reducible intro _
    | with_reducible assumption
    | with_reducible apply copyJobs_keeps
    | with_reducible apply mirrorStart_keeps

theorem demoteMany_keeps {s₀ : State} (a1 : ℕ) (s : State) (h : Keeps s₀ s) :
    Keeps s₀ (demoteMany a1 s) := by
  induction a1 generalizing s with
  | zero =>
    unfold demoteMany
    repeat' first
      | with_reducible intro _
      | with_reducible assumption
  | succ k ih =>
    unfold demoteMany
    repeat' first
      | with_reducible intro _
      | with_reducible assumption
      | with_reducible apply ih
      | with_reducible apply modFrame_keeps
      | with_reducible apply takeLpx_keeps
      | with_reducible apply Keeps.ite
      | with_reducible apply Keeps.fold
      | with_reducible apply Keeps.same_id
      | with_reducible apply KeepsR.ite
      | with_reducible apply KeepsR.fold
      | with_reducible exact KeepsOR.no
      | with_reducible apply KeepsOR.ite
      | with_reducible apply KeepsOR.mapR
      | with_reducible apply KeepsOR.map
      | with_reducible apply KeepsOR.getD
      | with_reducible refine KeepsOR.get2 (by assumption) ?_
      | with_reducible refine KeepsOR.get (by assumption) ?_
      | with_reducible refine KeepsR.get (by assumption) ?_
      | with_reducible apply hk
      | split

theorem demoteCheck_keeps {s₀ : State} (s : State) (h : Keeps s₀ s) :
    Keeps s₀ (demoteCheck s) := by
  unfold demoteCheck
  repeat' first
    | with_reducible intro _
    | with_reducible assumption
    | with_reducible apply demoteMany_keeps
    | with_reducible apply Keeps.ite

theorem demoteWrite_keeps {s₀ : State} (a1 : ℕ) (a2 : ℕ) (a3 : Frame) (s : State) (h : Keeps s₀ s) :
    Keeps s₀ (demoteWrite a1 a2 a3 s) := by
  unfold demoteWrite
  repeat' first
    | with_reducible intro _
    | with_reducible assumption
    | with_reducible apply codePage_keeps
    | with_reducible apply memStore_keeps
    | with_reducible apply modMan_keeps
    | with_reducible apply Keeps.ite
    | with_reducible apply Keeps.fold
    | with_reducible apply Keeps.same_id
    | with_reducible apply KeepsR.ite
    | with_reducible apply KeepsR.fold
    | with_reducible refine KeepsR.get (by assumption) ?_
    | (with_reducible apply KeepsR.snd; with_reducible apply KeepsR.ite)
    | with_reducible apply hk
    | split
    | with_reducible apply KeepsR.mk

theorem reframe_keeps {s₀ : State} (a1 : ℕ) (a2 : ℕ) (s : State) (h : Keeps s₀ s) :
    Keeps s₀ (reframe a1 a2 s) := by
  unfold reframe
  repeat' first
    | with_reducible intro _
    | with_reducible assumption
    | with_reducible apply modMan_keeps

theorem demotionVerifiedFx_keeps {s₀ : State} (a1 : ℕ) (a2 : ℕ) (a3 : Bool) (s : State) (h : Keeps s₀ s) :
    Keeps s₀ (demotionVerifiedFx a1 a2 a3 s) := by
  unfold demotionVerifiedFx
  repeat' first
    | with_reducible intro _
    | with_reducible assumption
    | with_reducible apply atTick_keeps
    | with_reducible apply bump_keeps
    | with_reducible apply demoteCheck_keeps
    | with_reducible apply demoteWrite_keeps
    | with_reducible apply frameUnref_keeps
    | with_reducible apply modFrame_keeps
    | with_reducible apply modMan_keeps
    | with_reducible apply reframe_keeps
    | with_reducible apply Keeps.ite
    | with_reducible apply Keeps.fold
    | with_reducible apply Keeps.same_id
    | (extract_lets +onlyGivenNames x; clear_value (hx : x = _); refine Keeps.via (s := s₀) hx ?_ (fun _ => ?_); clear hx)
    | with_reducible apply hk
    | split

theorem dropAnswered_keeps {s₀ : State} (a1 : ℕ) (a2 : ℕ) (s : State) (h : Keeps s₀ s) :
    Keeps s₀ (dropAnswered a1 a2 s) := by
  unfold dropAnswered
  repeat' first
    | with_reducible intro _
    | with_reducible assumption
    | with_reducible apply mirrorFinish_keeps
    | with_reducible apply modDrop_keeps
    | with_reducible apply modMan_keeps
    | with_reducible apply Keeps.ite
    | with_reducible apply Keeps.fold
    | with_reducible apply Keeps.same_id
    | (extract_lets +onlyGivenNames x; clear_value (hx : x = _); refine Keeps.via (s := s₀) hx ?_ (fun _ => ?_); clear hx)
    | with_reducible apply hk
    | split

theorem dropMoves_keeps {s₀ : State} (a1 : ℕ) (a2 : Frame) (s : State) (h : Keeps s₀ s) :
    Keeps s₀ (dropMoves a1 a2 s) := by
  unfold dropMoves
  repeat' first
    | with_reducible intro _
    | with_reducible assumption
    | with_reducible apply copyDone_keeps
    | with_reducible apply copyJobs_keeps
    | with_reducible apply modMan_keeps
    | with_reducible apply startDrop_keeps
    | with_reducible apply Keeps.ite
    | with_reducible apply Keeps.fold
    | with_reducible apply Keeps.same_id
    | with_reducible apply hk
    | split

theorem dropCopy_keeps {s₀ : State} (a1 : ℕ) (s : State) (h : Keeps s₀ s) :
    Keeps s₀ (dropCopy a1 s) := by
  unfold dropCopy
  repeat' first
    | with_reducible intro _
    | with_reducible assumption
    | with_reducible apply bump_keeps
    | with_reducible apply dropMoves_keeps
    | with_reducible apply frameUnref_keeps
    | with_reducible apply modMan_keeps
    | with_reducible apply Keeps.ite
    | with_reducible apply Keeps.fold
    | with_reducible apply Keeps.same_id
    | (extract_lets +onlyGivenNames x; clear_value (hx : x = _); refine Keeps.via (s := s₀) hx ?_ (fun _ => ?_); clear hx)
    | (extract_lets +onlyGivenNames x; clear_value x)
    | with_reducible apply hk
    | split

theorem execArrivingFrameTimeout_keeps {s₀ : State} (a1 : ℕ) (a2 : ℕ) (s : State) (h : Keeps s₀ s) :
    KeepsX s₀ (execArrivingFrameTimeout a1 a2 s) := by
  unfold execArrivingFrameTimeout
  repeat' first
    | with_reducible intro _
    | with_reducible assumption
    | with_reducible apply arrivingFrameTimeoutFx_keeps
    | with_reducible apply Keeps.ite
    | with_reducible apply KeepsX.mk

theorem execDemotionVerified_keeps {s₀ : State} (a1 : ℕ) (a2 : ℕ) (a3 : Bool) (s : State) (h : Keeps s₀ s) :
    KeepsX s₀ (execDemotionVerified a1 a2 a3 s) := by
  unfold execDemotionVerified
  repeat' first
    | with_reducible intro _
    | with_reducible assumption
    | with_reducible apply demotionVerifiedFx_keeps
    | with_reducible apply Keeps.ite
    | with_reducible apply KeepsX.mk

theorem pageDropFx_keeps {s₀ : State} (a1 : Pkt) (s : State) (h : Keeps s₀ s) :
    Keeps s₀ (pageDropFx a1 s) := by
  unfold pageDropFx
  repeat' first
    | with_reducible intro _
    | with_reducible assumption
    | with_reducible apply dropCopy_keeps
    | with_reducible apply ok_keeps
    | with_reducible apply orFormat_keeps
    | with_reducible apply receive_keeps
    | with_reducible apply Keeps.ite
    | with_reducible apply Keeps.fold

theorem execPageDrop_keeps {s₀ : State} (a1 : Pkt) (s : State) (h : Keeps s₀ s) :
    KeepsX s₀ (execPageDrop a1 s) := by
  unfold execPageDrop
  repeat' first
    | with_reducible intro _
    | with_reducible assumption
    | with_reducible apply pageDropFx_keeps
    | with_reducible apply Keeps.ite
    | with_reducible apply KeepsX.mk

theorem pageDropReplyFx_keeps {s₀ : State} (a1 : Rep) (s : State) (h : Keeps s₀ s) :
    Keeps s₀ (pageDropReplyFx a1 s) := by
  unfold pageDropReplyFx
  repeat' first
    | with_reducible intro _
    | with_reducible assumption
    | with_reducible apply dropAnswered_keeps
    | with_reducible apply onReply_keeps
    | with_reducible apply Keeps.ite
    | with_reducible apply Keeps.fold
    | with_reducible apply Keeps.same_id
    | with_reducible apply hk
    | split

theorem execPageDropReply_keeps {s₀ : State} (a1 : Rep) (s : State) (h : Keeps s₀ s) :
    KeepsX s₀ (execPageDropReply a1 s) := by
  unfold execPageDropReply
  repeat' first
    | with_reducible intro _
    | with_reducible assumption
    | with_reducible apply pageDropReplyFx_keeps
    | with_reducible apply Keeps.ite
    | with_reducible apply KeepsX.mk

theorem pageDropRetryFx_keeps {s₀ : State} (a1 : ℕ) (a2 : ℕ) (s : State) (h : Keeps s₀ s) :
    Keeps s₀ (pageDropRetryFx a1 a2 s) := by
  unfold pageDropRetryFx
  repeat' first
    | with_reducible intro _
    | with_reducible assumption
    | with_reducible apply atTick_keeps
    | with_reducible apply sendDrop_keeps
    | with_reducible apply Keeps.ite
    | with_reducible apply Keeps.fold
    | with_reducible apply Keeps.same_id
    | with_reducible apply hk
    | split

theorem execPageDropRetry_keeps {s₀ : State} (a1 : ℕ) (a2 : ℕ) (s : State) (h : Keeps s₀ s) :
    KeepsX s₀ (execPageDropRetry a1 a2 s) := by
  unfold execPageDropRetry
  repeat' first
    | with_reducible intro _
    | with_reducible assumption
    | with_reducible apply pageDropRetryFx_keeps
    | with_reducible apply Keeps.ite
    | with_reducible apply KeepsX.mk

theorem ringPacket_keeps {s₀ : State} (a1 : ℕ) (a2 : ℕ) (a3 : MsgOut) (s : State) (h : Keeps s₀ s) :
    Keeps s₀ (ringPacket a1 a2 a3 s) := by
  unfold ringPacket
  repeat' first
    | with_reducible intro _
    | with_reducible assumption
    | with_reducible apply cqPackets_keeps

theorem getOnRing_keeps {s₀ : State} (a1 : ℕ) (a2 : ℕ) (a3 : Frame) (s : State) (h : Keeps s₀ s) :
    Keeps s₀ (getOnRing a1 a2 a3 s) := by
  unfold getOnRing
  repeat' first
    | with_reducible intro _
    | with_reducible assumption
    | with_reducible apply moveBytes_keeps
    | with_reducible apply ringPacket_keeps
    | with_reducible apply takeTag_keeps
    | with_reducible apply Keeps.ite
    | with_reducible apply Keeps.fold
    | with_reducible apply Keeps.same_id
    | with_reducible apply KeepsR.ite
    | with_reducible apply KeepsR.fold
    | with_reducible refine KeepsR.get (by assumption) ?_
    | (extract_lets +onlyGivenNames x; clear_value (hx : x = _); refine KeepsR.via (s := s₀) hx ?_ (fun _ => ?_); clear hx)
    | (extract_lets +onlyGivenNames x; clear_value x)
    | with_reducible apply hk
    | split

theorem getAct_keeps {s₀ : State} (a1 : Pkt) (s : State) (h : Keeps s₀ s) :
    Keeps s₀ (getAct a1 s) := by
  unfold getAct
  repeat' first
    | with_reducible intro _
    | with_reducible assumption
    | with_reducible apply fail_keeps
    | with_reducible apply getOnRing_keeps
    | with_reducible apply ok_keeps
    | with_reducible apply startMove_keeps
    | with_reducible apply Keeps.ite
    | with_reducible apply Keeps.fold
    | with_reducible apply Keeps.same_id
    | (extract_lets +onlyGivenNames x; clear_value x)
    | with_reducible apply hk
    | split

theorem pageGetFx_keeps {s₀ : State} (a1 : Pkt) (s : State) (h : Keeps s₀ s) :
    Keeps s₀ (pageGetFx a1 s) := by
  unfold pageGetFx
  repeat' first
    | with_reducible intro _
    | with_reducible assumption
    | with_reducible apply getAct_keeps
    | with_reducible apply orFormat_keeps
    | with_reducible apply receive_keeps

theorem execPageGet_keeps {s₀ : State} (a1 : Pkt) (s : State) (h : Keeps s₀ s) :
    KeepsX s₀ (execPageGet a1 s) := by
  unfold execPageGet
  repeat' first
    | with_reducible intro _
    | with_reducible assumption
    | with_reducible apply pageGetFx_keeps
    | with_reducible apply Keeps.ite
    | with_reducible apply KeepsX.mk

theorem pageMirrorCloseFx_keeps {s₀ : State} (a1 : Pkt) (s : State) (h : Keeps s₀ s) :
    Keeps s₀ (pageMirrorCloseFx a1 s) := by
  unfold pageMirrorCloseFx
  repeat' first
    | with_reducible intro _
    | with_reducible assumption
    | with_reducible apply closeAct_keeps
    | with_reducible apply orFormat_keeps
    | with_reducible apply receive_keeps

theorem execPageMirrorClose_keeps {s₀ : State} (a1 : Pkt) (s : State) (h : Keeps s₀ s) :
    KeepsX s₀ (execPageMirrorClose a1 s) := by
  unfold execPageMirrorClose
  repeat' first
    | with_reducible intro _
    | with_reducible assumption
    | with_reducible apply pageMirrorCloseFx_keeps
    | with_reducible apply Keeps.ite
    | with_reducible apply KeepsX.mk

theorem pageMirrorCopyFx_keeps {s₀ : State} (a1 : Pkt) (s : State) (h : Keeps s₀ s) :
    Keeps s₀ (pageMirrorCopyFx a1 s) := by
  unfold pageMirrorCopyFx
  repeat' first
    | with_reducible intro _
    | with_reducible assumption
    | with_reducible apply copyAct_keeps
    | with_reducible apply orFormat_keeps
    | with_reducible apply receive_keeps

theorem execPageMirrorCopy_keeps {s₀ : State} (a1 : Pkt) (s : State) (h : Keeps s₀ s) :
    KeepsX s₀ (execPageMirrorCopy a1 s) := by
  unfold execPageMirrorCopy
  repeat' first
    | with_reducible intro _
    | with_reducible assumption
    | with_reducible apply pageMirrorCopyFx_keeps
    | with_reducible apply Keeps.ite
    | with_reducible apply KeepsX.mk

theorem spareAct_keeps {s₀ : State} (a1 : Pkt) (a2 : (ℕ → ℕ → Bool)) (s : State) (h : Keeps s₀ s) :
    Keeps s₀ (spareAct a1 a2 s) := by
  unfold spareAct
  repeat' first
    | with_reducible intro _
    | with_reducible assumption
    | with_reducible apply modTable_keeps
    | with_reducible apply ok_keeps
    | with_reducible apply transferCheck_keeps
    | with_reducible apply Keeps.ite
    | with_reducible apply Keeps.fold
    | with_reducible apply Keeps.same_id
    | (extract_lets +onlyGivenNames x; clear_value x)
    | with_reducible apply hk
    | split

theorem pageMirrorDoneFx_keeps {s₀ : State} (a1 : Pkt) (s : State) (h : Keeps s₀ s) :
    Keeps s₀ (pageMirrorDoneFx a1 s) := by
  unfold pageMirrorDoneFx
  repeat' first
    | with_reducible intro _
    | with_reducible assumption
    | with_reducible apply orFormat_keeps
    | with_reducible apply receive_keeps
    | with_reducible apply spareAct_keeps

theorem execPageMirrorDone_keeps {s₀ : State} (a1 : Pkt) (s : State) (h : Keeps s₀ s) :
    KeepsX s₀ (execPageMirrorDone a1 s) := by
  unfold execPageMirrorDone
  repeat' first
    | with_reducible intro _
    | with_reducible assumption
    | with_reducible apply pageMirrorDoneFx_keeps
    | with_reducible apply Keeps.ite
    | with_reducible apply KeepsX.mk

theorem pageMirrorPartialFx_keeps {s₀ : State} (a1 : Pkt) (s : State) (h : Keeps s₀ s) :
    Keeps s₀ (pageMirrorPartialFx a1 s) := by
  unfold pageMirrorPartialFx
  repeat' first
    | with_reducible intro _
    | with_reducible assumption
    | with_reducible apply orFormat_keeps
    | with_reducible apply receive_keeps
    | with_reducible apply spareAct_keeps

theorem execPageMirrorPartial_keeps {s₀ : State} (a1 : Pkt) (s : State) (h : Keeps s₀ s) :
    KeepsX s₀ (execPageMirrorPartial a1 s) := by
  unfold execPageMirrorPartial
  repeat' first
    | with_reducible intro _
    | with_reducible assumption
    | with_reducible apply pageMirrorPartialFx_keeps
    | with_reducible apply Keeps.ite
    | with_reducible apply KeepsX.mk

theorem repairMove_keeps {s₀ : State} (a1 : ℕ) (a2 : List ℕ) (a3 : List ℕ) (s : State) (h : Keeps s₀ s) :
    Keeps s₀ (repairMove a1 a2 a3 s) := by
  unfold repairMove
  repeat' first
    | with_reducible intro _
    | with_reducible assumption
    | with_reducible apply modMove_keeps
    | with_reducible apply sendPut_keeps
    | with_reducible apply windowDone_keeps
    | with_reducible apply Keeps.ite
    | with_reducible apply Keeps.fold
    | with_reducible apply Keeps.same_id
    | with_reducible apply hk
    | split

theorem repairPair_keeps {s₀ : State} (a1 : ℕ) (a2 : ℕ) (a3 : ℕ) (a4 : List ℕ) (s : State) (h : Keeps s₀ s) :
    Keeps s₀ (repairPair a1 a2 a3 a4 s) := by
  unfold repairPair
  repeat' first
    | with_reducible intro _
    | with_reducible assumption
    | with_reducible apply modBerth_keeps
    | with_reducible apply repairMove_keeps
    | with_reducible apply Keeps.ite
    | with_reducible apply Keeps.fold

theorem repairTable_keeps {s₀ : State} (a1 : ℕ) (a2 : List ℕ) (s : State) (h : Keeps s₀ s) :
    Keeps s₀ (repairTable a1 a2 s) := by
  unfold repairTable
  repeat' first
    | with_reducible intro _
    | with_reducible assumption
    | with_reducible apply bump_keeps
    | with_reducible apply loseSoon_keeps
    | with_reducible apply modTable_keeps
    | with_reducible apply Keeps.ite
    | with_reducible apply Keeps.fold
    | with_reducible apply Keeps.same_id
    | with_reducible apply hk
    | split

theorem repairAct_keeps {s₀ : State} (a1 : Pkt) (s : State) (h : Keeps s₀ s) :
    Keeps s₀ (repairAct a1 s) := by
  unfold repairAct
  repeat' first
    | with_reducible intro _
    | with_reducible assumption
    | with_reducible apply modMan_keeps
    | with_reducible apply ok_keeps
    | with_reducible apply repairPair_keeps
    | with_reducible apply repairTable_keeps
    | with_reducible apply settle_keeps
    | with_reducible apply Keeps.ite
    | with_reducible apply Keeps.fold

theorem pageMirrorRepairFx_keeps {s₀ : State} (a1 : Pkt) (s : State) (h : Keeps s₀ s) :
    Keeps s₀ (pageMirrorRepairFx a1 s) := by
  unfold pageMirrorRepairFx
  repeat' first
    | with_reducible intro _
    | with_reducible assumption
    | with_reducible apply orFormat_keeps
    | with_reducible apply receive_keeps
    | with_reducible apply repairAct_keeps

theorem execPageMirrorRepair_keeps {s₀ : State} (a1 : Pkt) (s : State) (h : Keeps s₀ s) :
    KeepsX s₀ (execPageMirrorRepair a1 s) := by
  unfold execPageMirrorRepair
  repeat' first
    | with_reducible intro _
    | with_reducible assumption
    | with_reducible apply pageMirrorRepairFx_keeps
    | with_reducible apply Keeps.ite
    | with_reducible apply KeepsX.mk

theorem pageMoveReplyFx_keeps {s₀ : State} (a1 : Rep) (s : State) (h : Keeps s₀ s) :
    Keeps s₀ (pageMoveReplyFx a1 s) := by
  unfold pageMoveReplyFx
  repeat' first
    | with_reducible intro _
    | with_reducible assumption
    | with_reducible apply accepted_keeps
    | with_reducible apply moveRefused_keeps
    | with_reducible apply onReply_keeps
    | with_reducible apply settle_keeps
    | with_reducible apply Keeps.ite
    | with_reducible apply Keeps.fold
    | with_reducible apply Keeps.same_id
    | with_reducible apply hk
    | split

theorem execPageMoveReply_keeps {s₀ : State} (a1 : Rep) (s : State) (h : Keeps s₀ s) :
    KeepsX s₀ (execPageMoveReply a1 s) := by
  unfold execPageMoveReply
  repeat' first
    | with_reducible intro _
    | with_reducible assumption
    | with_reducible apply pageMoveReplyFx_keeps
    | with_reducible apply Keeps.ite
    | with_reducible apply KeepsX.mk

theorem pageMoveRetryFx_keeps {s₀ : State} (a1 : ℕ) (a2 : ℕ) (s : State) (h : Keeps s₀ s) :
    Keeps s₀ (pageMoveRetryFx a1 a2 s) := by
  unfold pageMoveRetryFx
  repeat' first
    | with_reducible intro _
    | with_reducible assumption
    | with_reducible apply atTick_keeps
    | with_reducible apply modTgt_keeps
    | with_reducible apply sendPut_keeps
    | with_reducible apply Keeps.ite
    | with_reducible apply Keeps.fold

theorem execPageMoveRetry_keeps {s₀ : State} (a1 : ℕ) (a2 : ℕ) (s : State) (h : Keeps s₀ s) :
    KeepsX s₀ (execPageMoveRetry a1 a2 s) := by
  unfold execPageMoveRetry
  repeat' first
    | with_reducible intro _
    | with_reducible assumption
    | with_reducible apply pageMoveRetryFx_keeps
    | with_reducible apply Keeps.ite
    | with_reducible apply KeepsX.mk

theorem pageMoveTimeoutFx_keeps {s₀ : State} (a1 : ℕ) (a2 : ℕ) (s : State) (h : Keeps s₀ s) :
    Keeps s₀ (pageMoveTimeoutFx a1 a2 s) := by
  unfold pageMoveTimeoutFx
  repeat' first
    | with_reducible intro _
    | with_reducible assumption
    | with_reducible apply atTick_keeps
    | with_reducible apply tgtRefused_keeps
    | with_reducible apply Keeps.ite
    | with_reducible apply Keeps.fold

theorem execPageMoveTimeout_keeps {s₀ : State} (a1 : ℕ) (a2 : ℕ) (s : State) (h : Keeps s₀ s) :
    KeepsX s₀ (execPageMoveTimeout a1 a2 s) := by
  unfold execPageMoveTimeout
  repeat' first
    | with_reducible intro _
    | with_reducible assumption
    | with_reducible apply pageMoveTimeoutFx_keeps
    | with_reducible apply Keeps.ite
    | with_reducible apply KeepsX.mk

theorem failMsg_keeps {s₀ : State} (a1 : OpRow) (a2 : Pkt) (a3 : ℕ) (s : State) (h : Keeps s₀ s) :
    Keeps s₀ (failMsg a1 a2 a3 s) := by
  unfold failMsg
  repeat' first
    | with_reducible intro _
    | with_reducible assumption
    | with_reducible apply fail_keeps
    | with_reducible apply startDiscard_keeps
    | with_reducible apply Keeps.ite

theorem putBytes_keeps {s₀ : State} (a1 : ℕ) (a2 : ℕ) (a3 : Bool) (a4 : Bytes) (s : State) (h : Keeps s₀ s) :
    Keeps s₀ (putBytes a1 a2 a3 a4 s) := by
  unfold putBytes
  repeat' first
    | with_reducible intro _
    | with_reducible assumption
    | with_reducible apply memStore_keeps
    | with_reducible apply modFrame_keeps
    | with_reducible apply Keeps.ite

theorem retakePlaced_keeps {s₀ : State} (a1 : ℕ) (a2 : ℕ) (a3 : ℕ) (a4 : Frame) (s : State) (h : Keeps s₀ s) :
    KeepsOR s₀ (retakePlaced a1 a2 a3 a4 s) := by
  unfold retakePlaced
  repeat' first
    | with_reducible intro _
    | with_reducible assumption
    | with_reducible apply modMan_keeps
    | with_reducible apply Keeps.ite
    | with_reducible apply Keeps.fold
    | with_reducible apply Keeps.same_id
    | with_reducible apply KeepsR.ite
    | with_reducible apply KeepsR.fold
    | with_reducible exact KeepsOR.no
    | with_reducible apply KeepsOR.ite
    | with_reducible apply KeepsOR.mapR
    | with_reducible apply KeepsOR.map
    | with_reducible apply KeepsOR.getD
    | with_reducible refine KeepsOR.get2 (by assumption) ?_
    | with_reducible refine KeepsOR.get (by assumption) ?_
    | with_reducible refine KeepsR.get (by assumption) ?_
    | with_reducible apply hk
    | split
    | with_reducible apply KeepsR.mk

theorem takeArriving_keeps {s₀ : State} (a1 : Pkt) (a2 : ℕ) (a3 : ℕ) (a4 : ℕ) (a5 : ℕ) (s : State) (h : Keeps s₀ s) :
    KeepsOR s₀ (takeArriving a1 a2 a3 a4 a5 s) := by
  unfold takeArriving
  repeat' first
    | with_reducible intro _
    | with_reducible assumption
    | with_reducible apply retakePlaced_keeps
    | with_reducible apply takeFrame_keeps
    | with_reducible apply takeLpx_keeps
    | with_reducible apply takeReserved_keeps
    | with_reducible apply Keeps.ite
    | with_reducible apply Keeps.fold
    | with_reducible apply Keeps.same_id
    | with_reducible apply KeepsR.ite
    | with_reducible apply KeepsR.fold
    | with_reducible exact KeepsOR.no
    | with_reducible apply KeepsOR.ite
    | with_reducible apply KeepsOR.mapR
    | with_reducible apply KeepsOR.map
    | with_reducible apply KeepsOR.getD
    | with_reducible refine KeepsOR.get2 (by assumption) ?_
    | with_reducible refine KeepsOR.get (by assumption) ?_
    | with_reducible refine KeepsR.get (by assumption) ?_
    | (extract_lets +onlyGivenNames x; clear_value x)
    | with_reducible apply hk
    | split
    | with_reducible apply KeepsR.mk
    | with_reducible apply KeepsOR.mk

theorem putAct_keeps {s₀ : State} (a1 : Pkt) (s : State) (h : Keeps s₀ s) :
    Keeps s₀ (putAct a1 s) := by
  unfold putAct
  repeat' first
    | with_reducible intro _
    | with_reducible assumption
    | with_reducible apply arrivalAnew_keeps
    | with_reducible apply bump_keeps
    | with_reducible apply demoteCheck_keeps
    | with_reducible apply failMsg_keeps
    | with_reducible apply modFrame_keeps
    | with_reducible apply ok_keeps
    | with_reducible apply putBytes_keeps
    | with_reducible apply takeArriving_keeps
    | with_reducible apply Keeps.ite
    | with_reducible apply Keeps.fold
    | with_reducible apply Keeps.same_id
    | with_reducible apply KeepsR.ite
    | with_reducible apply KeepsR.fold
    | with_reducible exact KeepsOR.no
    | with_reducible apply KeepsOR.ite
    | with_reducible apply KeepsOR.mapR
    | with_reducible apply KeepsOR.map
    | with_reducible apply KeepsOR.getD
    | with_reducible refine KeepsOR.get2 (by assumption) ?_
    | with_reducible refine KeepsOR.get (by assumption) ?_
    | with_reducible refine KeepsR.get (by assumption) ?_
    | with_reducible apply hk
    | split
    | with_reducible apply KeepsR.mk
    | with_reducible apply KeepsOR.mk

theorem pagePutFx_keeps {s₀ : State} (a1 : Pkt) (s : State) (h : Keeps s₀ s) :
    Keeps s₀ (pagePutFx a1 s) := by
  unfold pagePutFx
  repeat' first
    | with_reducible intro _
    | with_reducible assumption
    | with_reducible apply putAct_keeps
    | with_reducible apply receive_keeps

theorem execPagePut_keeps {s₀ : State} (a1 : Pkt) (s : State) (h : Keeps s₀ s) :
    KeepsX s₀ (execPagePut a1 s) := by
  unfold execPagePut
  repeat' first
    | with_reducible intro _
    | with_reducible assumption
    | with_reducible apply pagePutFx_keeps
    | with_reducible apply Keeps.ite
    | with_reducible apply KeepsX.mk

theorem sealFrame_keeps {s₀ : State} (s : State) (a2 : Pkt) (a3 : ℕ) (a4 : Frame) (a5 : Bytes) (h : Keeps s₀ s) :
    Keeps s₀ (sealFrame s a2 a3 a4 a5) := by
  unfold sealFrame
  repeat' first
    | with_reducible intro _
    | with_reducible assumption
    | with_reducible apply bump_keeps
    | with_reducible apply memStore_keeps
    | with_reducible apply modFrame_keeps
    | with_reducible apply Keeps.ite

theorem sealedIn_keeps {s₀ : State} (a1 : ℕ) (a2 : ℕ) (a3 : ℕ) (a4 : ℕ) (s : State) (h : Keeps s₀ s) :
    Keeps s₀ (sealedIn a1 a2 a3 a4 s) := by
  unfold sealedIn
  repeat' first
    | with_reducible intro _
    | with_reducible assumption
    | with_reducible apply frameUnref_keeps
    | with_reducible apply modPt_keeps
    | with_reducible apply Keeps.ite
    | with_reducible apply Keeps.fold
    | with_reducible apply Keeps.same_id
    | with_reducible apply hk
    | split

theorem xferPlaced_keeps {s₀ : State} (a1 : ℕ) (a2 : Frame) (s : State) (h : Keeps s₀ s) :
    Keeps s₀ (xferPlaced a1 a2 s) := by
  unfold xferPlaced
  repeat' first
    | with_reducible intro _
    | with_reducible assumption
    | with_reducible apply modMan_keeps
    | with_reducible apply reservedBack_keeps
    | with_reducible apply transferDone_keeps
    | with_reducible apply Keeps.ite
    | with_reducible apply Keeps.fold
    | with_reducible apply Keeps.same_id
    | with_reducible apply hk
    | split

theorem sealArrived_keeps {s₀ : State} (a1 : Pkt) (a2 : ℕ) (a3 : Frame) (s : State) (h : Keeps s₀ s) :
    Keeps s₀ (sealArrived a1 a2 a3 s) := by
  unfold sealArrived
  repeat' first
    | with_reducible intro _
    | with_reducible assumption
    | with_reducible apply arrivingGone_keeps
    | with_reducible apply bump_keeps
    | with_reducible apply fail_keeps
    | with_reducible apply inputArrived_keeps
    | with_reducible apply ok_keeps
    | with_reducible apply sealFrame_keeps
    | with_reducible apply sealedIn_keeps
    | with_reducible apply xferPlaced_keeps
    | with_reducible apply Keeps.ite

theorem sealAct_keeps {s₀ : State} (a1 : Pkt) (s : State) (h : Keeps s₀ s) :
    Keeps s₀ (sealAct a1 s) := by
  unfold sealAct
  repeat' first
    | with_reducible intro _
    | with_reducible assumption
    | with_reducible apply arrivalAnew_keeps
    | with_reducible apply arrivingGone_keeps
    | with_reducible apply bump_keeps
    | with_reducible apply fail_keeps
    | with_reducible apply sealArrived_keeps
    | with_reducible apply Keeps.ite
    | with_reducible apply Keeps.fold
    | with_reducible apply Keeps.same_id
    | (extract_lets +onlyGivenNames x; clear_value x)
    | with_reducible apply hk
    | split

theorem pageSealFx_keeps {s₀ : State} (a1 : Pkt) (s : State) (h : Keeps s₀ s) :
    Keeps s₀ (pageSealFx a1 s) := by
  unfold pageSealFx
  repeat' first
    | with_reducible intro _
    | with_reducible assumption
    | with_reducible apply orFormat_keeps
    | with_reducible apply receive_keeps
    | with_reducible apply sealAct_keeps

theorem execPageSeal_keeps {s₀ : State} (a1 : Pkt) (s : State) (h : Keeps s₀ s) :
    KeepsX s₀ (execPageSeal a1 s) := by
  unfold execPageSeal
  repeat' first
    | with_reducible intro _
    | with_reducible assumption
    | with_reducible apply pageSealFx_keeps
    | with_reducible apply Keeps.ite
    | with_reducible apply KeepsX.mk

theorem takeManFrames_keeps {s₀ : State} (a1 : ℕ) (a2 : FrameUse) (a3 : ℕ) (s : State) (h : Keeps s₀ s) :
    KeepsOR s₀ (takeManFrames a1 a2 a3 s) := by
  induction a3 generalizing a1 a2 s with
  | zero =>
    unfold takeManFrames
    repeat' first
      | with_reducible intro _
      | with_reducible assumption
      | with_reducible apply takeManFrame_keeps
      | with_reducible apply Keeps.ite
      | with_reducible apply Keeps.fold
      | with_reducible apply Keeps.same_id
      | with_reducible apply KeepsR.ite
      | with_reducible apply KeepsR.fold
      | with_reducible exact KeepsOR.no
      | with_reducible apply KeepsOR.ite
      | with_reducible apply KeepsOR.mapR
      | with_reducible apply KeepsOR.map
      | with_reducible apply KeepsOR.getD
      | with_reducible refine KeepsOR.get2 (by assumption) ?_
      | with_reducible refine KeepsOR.get (by assumption) ?_
      | with_reducible refine KeepsR.get (by assumption) ?_
      | with_reducible apply hk
      | split
      | with_reducible apply KeepsR.mk
      | with_reducible apply KeepsOR.mk
  | succ k ih =>
    unfold takeManFrames
    repeat' first
      | with_reducible intro _
      | with_reducible assumption
      | with_reducible apply ih
      | with_reducible apply takeManFrame_keeps
      | with_reducible apply Keeps.ite
      | with_reducible apply Keeps.fold
      | with_reducible apply Keeps.same_id
      | with_reducible apply KeepsR.ite
      | with_reducible apply KeepsR.fold
      | with_reducible exact KeepsOR.no
      | with_reducible apply KeepsOR.ite
      | with_reducible apply KeepsOR.mapR
      | with_reducible apply KeepsOR.map
      | with_reducible apply KeepsOR.getD
      | with_reducible refine KeepsOR.get2 (by assumption) ?_
      | with_reducible refine KeepsOR.get (by assumption) ?_
      | with_reducible refine KeepsR.get (by assumption) ?_
      | (with_reducible apply KeepsR.snd; with_reducible assumption)
      | with_reducible apply hk
      | split
      | with_reducible apply KeepsR.mk

theorem swapInTake_keeps {s₀ : State} (b : ℕ) (x : Berth) (q : Snapshot) (s : State) (h : Keeps s₀ s) :
    KeepsO s₀ (swapInTake b x q s) := by
  unfold swapInTake
  generalize (fun i => ((swapFrames s x q).getD i (.page, 0)).2) = n
  dsimp only
  have h1 := takeManFrames_keeps b FrameUse.page (n 0) s h
  generalize takeManFrames b .page (n 0) s = o1 at h1
  cases o1 with
  | none => exact KeepsO.no
  | some r1 =>
    have h2 := takeManFrames_keeps b FrameUse.root 1 r1.2 (h1 _ rfl)
    dsimp only
    generalize takeManFrames b .root 1 r1.2 = o2 at h2
    cases o2 with
    | none => exact KeepsO.no
    | some r2 =>
      have h3 := takeManFrames_keeps b FrameUse.table (n 2) r2.2 (h2 _ rfl)
      dsimp only
      generalize takeManFrames b .table (n 2) r2.2 = o3 at h3
      cases o3 with
      | none => exact KeepsO.no
      | some r3 =>
        have h4 := takeManFrames_keeps b FrameUse.log (n 3) r3.2 (h3 _ rfl)
        dsimp only
        generalize takeManFrames b .log (n 3) r3.2 = o4 at h4
        cases o4 with
        | none => exact KeepsO.no
        | some r4 =>
          have h5 := takeManFrames_keeps b FrameUse.overflow (n 4) r4.2 (h4 _ rfl)
          dsimp only
          generalize takeManFrames b .overflow (n 4) r4.2 = o5 at h5
          cases o5 with
          | none => exact KeepsO.no
          | some r5 => exact KeepsO.mk (enterState_keeps _ _ _ (modBerth_keeps _ _ _ (h5 _ rfl)))

theorem swapInBegin_keeps {s₀ : State} (a1 : ℕ) (s : State) (h : Keeps s₀ s) :
    KeepsO s₀ (swapInBegin a1 s) := by
  unfold swapInBegin
  repeat' first
    | with_reducible intro _
    | with_reducible assumption
    | with_reducible apply swapInTake_keeps
    | with_reducible apply Keeps.ite
    | with_reducible apply Keeps.fold
    | with_reducible apply Keeps.same_id
    | with_reducible exact KeepsO.no
    | with_reducible apply KeepsO.mapS
    | with_reducible apply KeepsO.mapR
    | with_reducible apply KeepsO.map
    | with_reducible apply KeepsO.bindS
    | with_reducible apply KeepsO.bind
    | with_reducible apply KeepsO.getD
    | with_reducible apply KeepsO.ite
    | with_reducible apply KeepsO.mk
    | with_reducible refine KeepsO.get (by assumption) ?_
    | with_reducible apply hk
    | split

theorem swapInAct_keeps {s₀ : State} (a1 : Pkt) (a2 : ℕ) (a3 : Berth) (s : State) (h : Keeps s₀ s) :
    Keeps s₀ (swapInAct a1 a2 a3 s) := by
  unfold swapInAct
  repeat' first
    | with_reducible intro _
    | with_reducible assumption
    | with_reducible apply fail_keeps
    | with_reducible apply modBerth_keeps
    | with_reducible apply pend_keeps
    | with_reducible apply swapInBegin_keeps
    | with_reducible apply Keeps.ite
    | with_reducible apply Keeps.fold
    | with_reducible apply Keeps.same_id
    | with_reducible exact KeepsO.no
    | with_reducible apply KeepsO.mapS
    | with_reducible apply KeepsO.mapR
    | with_reducible apply KeepsO.map
    | with_reducible apply KeepsO.bindS
    | with_reducible apply KeepsO.bind
    | with_reducible apply KeepsO.getD
    | with_reducible apply KeepsO.ite
    | with_reducible apply KeepsO.mk
    | with_reducible refine KeepsO.get (by assumption) ?_
    | with_reducible apply hk
    | split

theorem pageSwapInFx_keeps {s₀ : State} (a1 : Pkt) (s : State) (h : Keeps s₀ s) :
    Keeps s₀ (pageSwapInFx a1 s) := by
  unfold pageSwapInFx
  repeat' first
    | with_reducible intro _
    | with_reducible assumption
    | with_reducible apply receiveMan_keeps
    | with_reducible apply swapInAct_keeps

theorem execPageSwapIn_keeps {s₀ : State} (a1 : Pkt) (s : State) (h : Keeps s₀ s) :
    KeepsX s₀ (execPageSwapIn a1 s) := by
  unfold execPageSwapIn
  repeat' first
    | with_reducible intro _
    | with_reducible assumption
    | with_reducible apply pageSwapInFx_keeps
    | with_reducible apply Keeps.ite
    | with_reducible apply KeepsX.mk

theorem swapOutTry_keeps {s₀ : State} (a1 : ℕ) (s : State) (h : Keeps s₀ s) :
    Keeps s₀ (swapOutTry a1 s) := by
  unfold swapOutTry
  repeat' first
    | with_reducible intro _
    | with_reducible assumption
    | with_reducible apply emit_keeps
    | with_reducible apply modBerth_keeps
    | with_reducible apply winPut_keeps
    | with_reducible apply Keeps.ite
    | with_reducible apply Keeps.fold
    | with_reducible apply Keeps.same_id
    | (extract_lets +onlyGivenNames x; clear_value x)
    | with_reducible apply hk
    | split

theorem preempt_keeps {s₀ : State} (a1 : ℕ) (s : State) (h : Keeps s₀ s) :
    Keeps s₀ (preempt a1 s) := by
  unfold preempt
  repeat' first
    | with_reducible intro _
    | with_reducible assumption
    | with_reducible apply enterState_keeps
    | with_reducible apply swapOutTry_keeps

theorem swapOutDue_keeps {s₀ : State} (a1 : ℕ) (s : State) (h : Keeps s₀ s) :
    Keeps s₀ (swapOutDue a1 s) := by
  unfold swapOutDue
  repeat' first
    | with_reducible intro _
    | with_reducible assumption
    | with_reducible apply preempt_keeps
    | with_reducible apply Keeps.ite
    | with_reducible apply Keeps.fold
    | with_reducible apply Keeps.same_id
    | with_reducible apply hk
    | split

theorem swapOutAct_keeps {s₀ : State} (a1 : Pkt) (a2 : ℕ) (a3 : Berth) (s : State) (h : Keeps s₀ s) :
    Keeps s₀ (swapOutAct a1 a2 a3 s) := by
  unfold swapOutAct
  repeat' first
    | with_reducible intro _
    | with_reducible assumption
    | with_reducible apply fail_keeps
    | with_reducible apply modBerth_keeps
    | with_reducible apply pend_keeps
    | with_reducible apply swapOutDue_keeps
    | with_reducible apply Keeps.ite

theorem pageSwapOutFx_keeps {s₀ : State} (a1 : Pkt) (s : State) (h : Keeps s₀ s) :
    Keeps s₀ (pageSwapOutFx a1 s) := by
  unfold pageSwapOutFx
  repeat' first
    | with_reducible intro _
    | with_reducible assumption
    | with_reducible apply receiveMan_keeps
    | with_reducible apply swapOutAct_keeps

theorem execPageSwapOut_keeps {s₀ : State} (a1 : Pkt) (s : State) (h : Keeps s₀ s) :
    KeepsX s₀ (execPageSwapOut a1 s) := by
  unfold execPageSwapOut
  repeat' first
    | with_reducible intro _
    | with_reducible assumption
    | with_reducible apply pageSwapOutFx_keeps
    | with_reducible apply Keeps.ite
    | with_reducible apply KeepsX.mk

theorem snapGone_keeps {s₀ : State} (a1 : ℕ) (s : State) (h : Keeps s₀ s) :
    Keeps s₀ (snapGone a1 s) := by
  unfold snapGone
  repeat' first
    | with_reducible intro _
    | with_reducible assumption
    | with_reducible apply modBerth_keeps
    | with_reducible apply winFree_keeps

theorem swapAnswer_keeps {s₀ : State} (a1 : ℕ) (a2 : ℕ) (a3 : ℕ) (s : State) (h : Keeps s₀ s) :
    Keeps s₀ (swapAnswer a1 a2 a3 s) := by
  unfold swapAnswer
  repeat' first
    | with_reducible intro _
    | with_reducible assumption
    | with_reducible apply fail_keeps
    | with_reducible apply modBerth_keeps
    | with_reducible apply ok_keeps
    | with_reducible apply Keeps.ite
    | with_reducible apply Keeps.fold
    | with_reducible apply Keeps.same_id
    | (extract_lets +onlyGivenNames x; clear_value (hx : x = _); refine Keeps.via (s := s₀) hx ?_ (fun _ => ?_); clear hx)
    | with_reducible apply hk
    | split

theorem swapFree_keeps {s₀ : State} (a1 : ℕ) (a2 : Berth) (s : State) (h : Keeps s₀ s) :
    Keeps s₀ (swapFree a1 a2 s) := by
  unfold swapFree
  repeat' first
    | with_reducible intro _
    | with_reducible assumption
    | with_reducible apply freeFrames_keeps
    | with_reducible apply modTable_keeps

theorem swapRestore_keeps {s₀ : State} (a1 : ℕ) (a2 : Berth) (s : State) (a4 : ℕ × Frame × Bytes × Bytes) (h : Keeps s₀ s) :
    Keeps s₀ (swapRestore a1 a2 s a4) := by
  unfold swapRestore
  repeat' first
    | with_reducible intro _
    | with_reducible assumption
    | with_reducible apply memStore_keeps
    | with_reducible apply modBerth_keeps
    | with_reducible apply modFrame_keeps
    | with_reducible apply Keeps.ite

theorem swapInCompleteFx_keeps {s₀ : State} (a1 : ℕ) (a2 : ℕ) (a3 : SnapRead) (s : State) (h : Keeps s₀ s) :
    Keeps s₀ (swapInCompleteFx a1 a2 a3 s) := by
  unfold swapInCompleteFx
  repeat' first
    | with_reducible intro _
    | with_reducible assumption
    | with_reducible apply atTick_keeps
    | with_reducible apply bump_keeps
    | with_reducible apply enterState_keeps
    | with_reducible apply hostPoison_keeps
    | with_reducible apply logStore_keeps
    | with_reducible apply loseSoon_keeps
    | with_reducible apply modBerth_keeps
    | with_reducible apply settle_keeps
    | with_reducible apply snapGone_keeps
    | with_reducible apply swapAnswer_keeps
    | with_reducible apply swapFree_keeps
    | with_reducible apply swapRestore_keeps
    | with_reducible apply Keeps.ite
    | with_reducible apply Keeps.fold
    | with_reducible apply Keeps.same_id
    | (extract_lets +onlyGivenNames x; clear_value (hx : x = _); refine Keeps.via (s := s₀) hx ?_ (fun _ => ?_); clear hx)
    | with_reducible apply hk
    | split

theorem execSwapInComplete_keeps {s₀ : State} (a1 : ℕ) (a2 : ℕ) (a3 : SnapRead) (s : State) (h : Keeps s₀ s) :
    KeepsX s₀ (execSwapInComplete a1 a2 a3 s) := by
  unfold execSwapInComplete
  repeat' first
    | with_reducible intro _
    | with_reducible assumption
    | with_reducible apply swapInCompleteFx_keeps
    | with_reducible apply Keeps.ite
    | with_reducible apply KeepsX.mk

theorem swapOutVerifiedFx_keeps {s₀ : State} (a1 : ℕ) (a2 : ℕ) (a3 : Bool) (s : State) (h : Keeps s₀ s) :
    Keeps s₀ (swapOutVerifiedFx a1 a2 a3 s) := by
  unfold swapOutVerifiedFx
  repeat' first
    | with_reducible intro _
    | with_reducible assumption
    | with_reducible apply atTick_keeps
    | with_reducible apply bump_keeps
    | with_reducible apply enterState_keeps
    | with_reducible apply modBerth_keeps
    | with_reducible apply snapGone_keeps
    | with_reducible apply swapAnswer_keeps
    | with_reducible apply swapFree_keeps
    | with_reducible apply Keeps.ite
    | with_reducible apply Keeps.fold
    | with_reducible apply Keeps.same_id
    | (extract_lets +onlyGivenNames x; clear_value (hx : x = _); refine Keeps.via (s := s₀) hx ?_ (fun _ => ?_); clear hx)
    | with_reducible apply hk
    | split

theorem execSwapOutVerified_keeps {s₀ : State} (a1 : ℕ) (a2 : ℕ) (a3 : Bool) (s : State) (h : Keeps s₀ s) :
    KeepsX s₀ (execSwapOutVerified a1 a2 a3 s) := by
  unfold execSwapOutVerified
  repeat' first
    | with_reducible intro _
    | with_reducible assumption
    | with_reducible apply swapOutVerifiedFx_keeps
    | with_reducible apply Keeps.ite
    | with_reducible apply KeepsX.mk

end Sys2Proof.Machine
end

