-- ==== Sys2Proof/Laws/KeepsFabric.lean ====
section
/-! SUPPORT. What every operation keeps (`Keeps`): attention, memory-semantic access and queue pairs. -/

set_option linter.all false

namespace Sys2Proof.Machine

theorem budgetCheck_keeps {s₀ : State} (a1 : Exchange) (s : State) (h : Keeps s₀ s) :
    Keeps s₀ (budgetCheck a1 s) := by
  unfold budgetCheck
  repeat' first
    | with_reducible intro _
    | with_reducible assumption
    | with_reducible apply bump_keeps
    | with_reducible apply Keeps.ite

theorem exClose_keeps {s₀ : State} (a1 : ℕ) (s : State) (h : Keeps s₀ s) :
    Keeps s₀ (exClose a1 s) := by
  unfold exClose
  repeat' first
    | with_reducible intro _
    | with_reducible assumption
    | with_reducible apply modEng_keeps

theorem entryLost_keeps {s₀ : State} (a1 : ℕ) (a2 : ℕ) (s : State) (h : Keeps s₀ s) :
    Keeps s₀ (entryLost a1 a2 s) := by
  unfold entryLost
  repeat' first
    | with_reducible intro _
    | with_reducible assumption
    | with_reducible apply bump_keeps
    | with_reducible apply modPt_keeps

theorem groupStatus_keeps {s₀ : State} (a1 : Exchange) (s : State) (h : Keeps s₀ s) :
    Keeps s₀ (groupStatus a1 s) := by
  unfold groupStatus
  repeat' first
    | with_reducible intro _
    | with_reducible assumption
    | with_reducible apply entryLost_keeps
    | with_reducible apply modRun_keeps
    | with_reducible apply Keeps.ite
    | with_reducible apply Keeps.fold

theorem passOver_keeps {s₀ : State} (a1 : ℕ) (a2 : ℕ) (a3 : ℕ) (a4 : Option ℕ) (s : State) (h : Keeps s₀ s) :
    Keeps s₀ (passOver a1 a2 a3 a4 s) := by
  unfold passOver
  repeat' first
    | with_reducible intro _
    | with_reducible assumption
    | with_reducible apply modEng_keeps

theorem foldBlocks_keeps {s₀ : State} (a1 : ℕ) (a2 : List Fetched) (s : State) (h : Keeps s₀ s) :
    Keeps s₀ (foldBlocks a1 a2 s) := by
  unfold foldBlocks
  repeat' first
    | with_reducible intro _
    | with_reducible assumption
    | with_reducible apply expanderCounts_keeps
    | with_reducible apply Keeps.ite
    | with_reducible apply Keeps.fold

theorem foldCounts_keeps {s₀ : State} (a1 : ℕ) (a2 : List FoldState) (s : State) (h : Keeps s₀ s) :
    Keeps s₀ (foldCounts a1 a2 s) := by
  unfold foldCounts
  repeat' first
    | with_reducible intro _
    | with_reducible assumption
    | with_reducible apply stageSat_keeps

theorem foldLocal_keeps {s₀ : State} (a1 : Exchange) (a2 : ℕ) (s : State) (h : Keeps s₀ s) :
    KeepsR s₀ (foldLocal a1 a2 s) := by
  unfold foldLocal
  repeat' first
    | with_reducible intro _
    | with_reducible assumption
    | with_reducible apply foldBlocks_keeps
    | with_reducible apply foldCounts_keeps
    | with_reducible apply nanEvent_keeps
    | with_reducible apply Keeps.ite
    | with_reducible apply Keeps.fold
    | with_reducible apply Keeps.same_id
    | with_reducible apply KeepsR.ite
    | with_reducible apply KeepsR.fold
    | with_reducible refine KeepsR.get (by assumption) ?_
    | (extract_lets +onlyGivenNames x; clear_value x)
    | with_reducible apply hk
    | split
    | with_reducible apply KeepsR.mk

theorem resultWrite_keeps {s₀ : State} (a1 : ℕ) (a2 : Bytes) (a3 : ℕ) (s : State) (h : Keeps s₀ s) :
    Keeps s₀ (resultWrite a1 a2 a3 s) := by
  unfold resultWrite
  repeat' first
    | with_reducible intro _
    | with_reducible assumption
    | with_reducible apply memWrite_keeps
    | with_reducible apply modRun_keeps
    | with_reducible apply Keeps.ite
    | with_reducible apply Keeps.fold
    | with_reducible apply Keeps.same_id
    | (extract_lets +onlyGivenNames x; clear_value (hx : x = _); refine Keeps.via (s := s₀) hx ?_ (fun _ => ?_); clear hx)
    | with_reducible apply hk
    | split

theorem slotFlag_keeps {s₀ : State} (a1 : ℕ) (s : State) (h : Keeps s₀ s) :
    Keeps s₀ (slotFlag a1 s) := by
  unfold slotFlag
  repeat' first
    | with_reducible intro _
    | with_reducible assumption
    | with_reducible apply flagArrival_keeps
    | with_reducible apply Keeps.ite
    | with_reducible apply Keeps.fold
    | with_reducible apply Keeps.same_id
    | with_reducible apply hk
    | split

theorem runPoisoned_keeps {s₀ : State} (a1 : Exchange) (a2 : ℕ) (s : State) (h : Keeps s₀ s) :
    Keeps s₀ (runPoisoned a1 a2 s) := by
  unfold runPoisoned
  repeat' first
    | with_reducible intro _
    | with_reducible assumption
    | with_reducible apply modEng_keeps
    | with_reducible apply resultWrite_keeps
    | with_reducible apply slotFlag_keeps

theorem groupFailed_keeps {s₀ : State} (a1 : Exchange) (s : State) (h : Keeps s₀ s) :
    Keeps s₀ (groupFailed a1 s) := by
  unfold groupFailed
  repeat' first
    | with_reducible intro _
    | with_reducible assumption
    | with_reducible apply bump_keeps
    | with_reducible apply groupStatus_keeps
    | with_reducible apply runPoisoned_keeps
    | with_reducible apply Keeps.ite

theorem holdPartial_keeps {s₀ : State} (a1 : Exchange) (s : State) (h : Keeps s₀ s) :
    Keeps s₀ (holdPartial a1 s) := by
  unfold holdPartial
  repeat' first
    | with_reducible intro _
    | with_reducible assumption
    | with_reducible apply modEng_keeps
    | with_reducible apply takeTag_keeps
    | with_reducible apply Keeps.ite
    | with_reducible apply Keeps.fold
    | with_reducible apply Keeps.same_id
    | with_reducible apply KeepsR.ite
    | with_reducible apply KeepsR.fold
    | with_reducible refine KeepsR.get (by assumption) ?_
    | (with_reducible apply KeepsR.snd; with_reducible apply takeTag_keeps)

theorem segDone_keeps {s₀ : State} (a1 : Exchange) (s : State) (h : Keeps s₀ s) :
    Keeps s₀ (segDone a1 s) := by
  unfold segDone
  repeat' first
    | with_reducible intro _
    | with_reducible assumption
    | with_reducible apply foldCounts_keeps
    | with_reducible apply modEng_keeps
    | with_reducible apply resultWrite_keeps
    | with_reducible apply Keeps.ite
    | with_reducible apply Keeps.fold
    | with_reducible apply Keeps.same_id
    | with_reducible apply hk
    | split

theorem sendPartial_keeps {s₀ : State} (a1 : Exchange) (a2 : ℕ) (s : State) (h : Keeps s₀ s) :
    Keeps s₀ (sendPartial a1 a2 s) := by
  unfold sendPartial
  repeat' first
    | with_reducible intro _
    | with_reducible assumption
    | with_reducible apply bump_keeps
    | with_reducible apply modEng_keeps
    | with_reducible apply moved_keeps
    | with_reducible apply sendMsgOn_keeps
    | with_reducible apply takeTag_keeps
    | with_reducible apply Keeps.ite
    | with_reducible apply Keeps.fold
    | with_reducible apply Keeps.same_id
    | with_reducible apply KeepsR.ite
    | with_reducible apply KeepsR.fold
    | with_reducible refine KeepsR.get (by assumption) ?_
    | (with_reducible apply KeepsR.snd; with_reducible apply takeTag_keeps)

theorem runOn_keeps {s₀ : State} (a1 : ℕ) (a2 : Exchange) (s : State) (h : Keeps s₀ s) :
    Keeps s₀ (runOn a1 a2 s) := by
  induction a1 generalizing a2 s with
  | zero =>
    unfold runOn
    repeat' first
      | with_reducible intro _
      | with_reducible assumption
  | succ k ih =>
    unfold runOn
    repeat' first
      | with_reducible intro _
      | with_reducible assumption
      | with_reducible apply ih
      | with_reducible apply foldLocal_keeps
      | with_reducible apply groupFailed_keeps
      | with_reducible apply holdPartial_keeps
      | with_reducible apply passOver_keeps
      | with_reducible apply runPoisoned_keeps
      | with_reducible apply segDone_keeps
      | with_reducible apply sendPartial_keeps
      | with_reducible apply Keeps.ite
      | with_reducible apply Keeps.fold
      | with_reducible apply Keeps.same_id
      | with_reducible apply KeepsR.ite
      | with_reducible apply KeepsR.fold
      | with_reducible refine KeepsR.get (by assumption) ?_
      | (with_reducible apply KeepsR.snd; with_reducible apply foldLocal_keeps)
      | (extract_lets +onlyGivenNames x; clear_value x)
      | with_reducible apply hk
      | split

theorem exFailed_keeps {s₀ : State} (a1 : ℕ) (a2 : Exchange) (a3 : Option ℕ) (s : State) (h : Keeps s₀ s) :
    Keeps s₀ (exFailed a1 a2 a3 s) := by
  unfold exFailed
  repeat' first
    | with_reducible intro _
    | with_reducible assumption
    | with_reducible apply exClose_keeps
    | with_reducible apply groupStatus_keeps
    | with_reducible apply passOver_keeps
    | with_reducible apply runOn_keeps
    | with_reducible apply Keeps.ite
    | with_reducible apply Keeps.fold
    | with_reducible apply Keeps.same_id
    | with_reducible apply hk
    | split

theorem attExchangeTimeoutFx_keeps {s₀ : State} (a1 : ℕ) (a2 : ℕ) (s : State) (h : Keeps s₀ s) :
    Keeps s₀ (attExchangeTimeoutFx a1 a2 s) := by
  unfold attExchangeTimeoutFx
  repeat' first
    | with_reducible intro _
    | with_reducible assumption
    | with_reducible apply atTick_keeps
    | with_reducible apply budgetCheck_keeps
    | with_reducible apply exFailed_keeps
    | with_reducible apply Keeps.ite
    | with_reducible apply Keeps.fold
    | with_reducible apply Keeps.same_id
    | (extract_lets +onlyGivenNames x; clear_value (hx : x = _); refine Keeps.via (s := s₀) hx ?_ (fun _ => ?_); clear hx)
    | with_reducible apply hk
    | split

theorem serveBegins_keeps {s₀ : State} (a1 : ℕ) (s : State) (h : Keeps s₀ s) :
    Keeps s₀ (serveBegins a1 s) := by
  unfold serveBegins
  repeat' first
    | with_reducible intro _
    | with_reducible assumption
    | with_reducible apply modSched_keeps
    | with_reducible apply Keeps.ite

theorem serviceAct_keeps {s₀ : State} (a1 : Pkt) (s : State) (h : Keeps s₀ s) :
    Keeps s₀ (serviceAct a1 s) := by
  unfold serviceAct
  repeat' first
    | with_reducible intro _
    | with_reducible assumption
    | with_reducible apply failAt_keeps
    | with_reducible apply modEng_keeps
    | with_reducible apply modFrame_keeps
    | with_reducible apply pend_keeps
    | with_reducible apply serveBegins_keeps
    | with_reducible apply Keeps.ite
    | with_reducible apply Keeps.fold

theorem attPartialFx_keeps {s₀ : State} (a1 : Pkt) (s : State) (h : Keeps s₀ s) :
    Keeps s₀ (attPartialFx a1 s) := by
  unfold attPartialFx
  repeat' first
    | with_reducible intro _
    | with_reducible assumption
    | with_reducible apply receive_keeps
    | with_reducible apply serviceAct_keeps

theorem attReplyAct_keeps {s₀ : State} (a1 : ℕ) (a2 : ℕ) (s : State) (h : Keeps s₀ s) :
    Keeps s₀ (attReplyAct a1 a2 s) := by
  unfold attReplyAct
  repeat' first
    | with_reducible intro _
    | with_reducible assumption
    | with_reducible apply exFailed_keeps
    | with_reducible apply modEng_keeps
    | with_reducible apply Keeps.ite
    | with_reducible apply Keeps.fold
    | with_reducible apply Keeps.same_id
    | with_reducible apply hk
    | split

theorem attPartialStatusReplyFx_keeps {s₀ : State} (a1 : Rep) (s : State) (h : Keeps s₀ s) :
    Keeps s₀ (attPartialStatusReplyFx a1 s) := by
  unfold attPartialStatusReplyFx
  repeat' first
    | with_reducible intro _
    | with_reducible assumption
    | with_reducible apply attReplyAct_keeps
    | with_reducible apply onReply_keeps

theorem resultFx_keeps {s₀ : State} (a1 : ℕ) (a2 : Exchange) (a3 : Pkt) (s : State) (h : Keeps s₀ s) :
    Keeps s₀ (resultFx a1 a2 a3 s) := by
  unfold resultFx
  repeat' first
    | with_reducible intro _
    | with_reducible assumption
    | with_reducible apply budgetCheck_keeps
    | with_reducible apply exClose_keeps
    | with_reducible apply exFailed_keeps
    | with_reducible apply keepMax_keeps
    | with_reducible apply moved_keeps
    | with_reducible apply runOn_keeps
    | with_reducible apply slotFlag_keeps
    | with_reducible apply Keeps.ite

theorem attResultAct_keeps {s₀ : State} (a1 : Pkt) (s : State) (h : Keeps s₀ s) :
    Keeps s₀ (attResultAct a1 s) := by
  unfold attResultAct
  repeat' first
    | with_reducible intro _
    | with_reducible assumption
    | with_reducible apply bump_keeps
    | with_reducible apply resultFx_keeps
    | with_reducible apply Keeps.ite
    | with_reducible apply Keeps.fold
    | with_reducible apply Keeps.same_id
    | with_reducible apply hk
    | split

theorem orDiscard_keeps {s₀ : State} (a1 : Bool) (f2 : (State → State)) (s : State) (hf2 : ∀ x0, Keeps s₀ x0 → Keeps s₀ (f2 x0)) (h : Keeps s₀ s) :
    Keeps s₀ (orDiscard a1 f2 s) := by
  unfold orDiscard
  repeat' first
    | with_reducible intro _
    | with_reducible assumption
    | with_reducible apply bump_keeps
    | with_reducible apply hf2
    | with_reducible apply Keeps.ite

theorem attResultFx_keeps {s₀ : State} (a1 : Pkt) (s : State) (h : Keeps s₀ s) :
    Keeps s₀ (attResultFx a1 s) := by
  unfold attResultFx
  repeat' first
    | with_reducible intro _
    | with_reducible assumption
    | with_reducible apply attResultAct_keeps
    | with_reducible apply orDiscard_keeps
    | with_reducible apply receive_keeps

theorem foldNanEvent_keeps {s₀ : State} (s : State) (h : Keeps s₀ s) :
    Keeps s₀ (foldNanEvent s) := by
  unfold foldNanEvent
  repeat' first
    | with_reducible intro _
    | with_reducible assumption
    | with_reducible apply bump_keeps
    | with_reducible apply record_keeps
    | with_reducible apply takeFree_keeps
    | with_reducible apply Keeps.ite
    | with_reducible apply Keeps.fold
    | with_reducible apply Keeps.same_id
    | with_reducible apply KeepsR.ite
    | with_reducible apply KeepsR.fold
    | with_reducible refine KeepsR.get (by assumption) ?_
    | (with_reducible apply KeepsR.snd; with_reducible apply takeFree_keeps)

theorem sendBack_keeps {s₀ : State} (a1 : Pkt) (a2 : MsgOut) (s : State) (h : Keeps s₀ s) :
    Keeps s₀ (sendBack a1 a2 s) := by
  unfold sendBack
  repeat' first
    | with_reducible intro _
    | with_reducible assumption
    | with_reducible apply ringPacket_keeps
    | with_reducible apply sendMsgOn_keeps
    | with_reducible apply Keeps.ite
    | with_reducible apply Keeps.fold
    | with_reducible apply Keeps.same_id
    | with_reducible apply hk
    | split

theorem meterActive_keeps {s₀ : State} (a1 : ℕ) (a2 : ℕ) (s : State) (h : Keeps s₀ s) :
    Keeps s₀ (meterActive a1 a2 s) := by
  unfold meterActive
  repeat' first
    | with_reducible intro _
    | with_reducible assumption
    | with_reducible apply modSched_keeps

theorem serveEnds_keeps {s₀ : State} (a1 : ℕ) (s : State) (h : Keeps s₀ s) :
    Keeps s₀ (serveEnds a1 s) := by
  unfold serveEnds
  repeat' first
    | with_reducible intro _
    | with_reducible assumption
    | with_reducible apply meterActive_keeps
    | with_reducible apply modSched_keeps
    | with_reducible apply Keeps.ite
    | with_reducible apply Keeps.fold
    | with_reducible apply Keeps.same_id
    | with_reducible apply hk
    | split

theorem servedBlocks_keeps {s₀ : State} (s : State) (a2 : List Fetched) (h : Keeps s₀ s) :
    Keeps s₀ (servedBlocks s a2) := by
  unfold servedBlocks
  repeat' first
    | with_reducible intro _
    | with_reducible assumption
    | with_reducible apply foldBlocks_keeps
    | with_reducible apply takeFree_keeps
    | with_reducible apply Keeps.ite
    | with_reducible apply Keeps.fold
    | with_reducible apply Keeps.same_id
    | with_reducible apply KeepsR.ite
    | with_reducible apply KeepsR.fold
    | with_reducible refine KeepsR.get (by assumption) ?_
    | (with_reducible apply KeepsR.snd; with_reducible apply takeFree_keeps)

theorem attServiceCompleteFx_keeps {s₀ : State} (a1 : ℕ) (a2 : ℕ) (a3 : List ℕ) (s : State) (h : Keeps s₀ s) :
    Keeps s₀ (attServiceCompleteFx a1 a2 a3 s) := by
  unfold attServiceCompleteFx
  repeat' first
    | with_reducible intro _
    | with_reducible assumption
    | with_reducible apply atTick_keeps
    | with_reducible apply bump_keeps
    | with_reducible apply copyJobs_keeps
    | with_reducible apply foldNanEvent_keeps
    | with_reducible apply frameUnref_keeps
    | with_reducible apply modEng_keeps
    | with_reducible apply modFrame_keeps
    | with_reducible apply ok_keeps
    | with_reducible apply ownCopyLost_keeps
    | with_reducible apply sendBack_keeps
    | with_reducible apply serveEnds_keeps
    | with_reducible apply servedBlocks_keeps
    | with_reducible apply Keeps.ite
    | with_reducible apply Keeps.fold
    | with_reducible apply Keeps.same_id
    | (extract_lets +onlyGivenNames x; clear_value (hx : x = _); refine Keeps.via (s := s₀) hx ?_ (fun _ => ?_); clear hx)
    | (extract_lets +onlyGivenNames x; clear_value x)
    | with_reducible apply hk
    | split

theorem exchangeLost_keeps {s₀ : State} (a1 : ℕ) (s : State) (h : Keeps s₀ s) :
    Keeps s₀ (exchangeLost a1 s) := by
  unfold exchangeLost
  repeat' first
    | with_reducible intro _
    | with_reducible assumption
    | with_reducible apply exFailed_keeps
    | with_reducible apply Keeps.ite
    | with_reducible apply Keeps.fold
    | with_reducible apply Keeps.same_id
    | with_reducible apply hk
    | split

theorem execAttExchangeTimeout_keeps {s₀ : State} (a1 : ℕ) (a2 : ℕ) (s : State) (h : Keeps s₀ s) :
    KeepsX s₀ (execAttExchangeTimeout a1 a2 s) := by
  unfold execAttExchangeTimeout
  repeat' first
    | with_reducible intro _
    | with_reducible assumption
    | with_reducible apply attExchangeTimeoutFx_keeps
    | with_reducible apply Keeps.ite
    | with_reducible apply KeepsX.mk

theorem execAttPartial_keeps {s₀ : State} (a1 : Pkt) (s : State) (h : Keeps s₀ s) :
    KeepsX s₀ (execAttPartial a1 s) := by
  unfold execAttPartial
  repeat' first
    | with_reducible intro _
    | with_reducible assumption
    | with_reducible apply attPartialFx_keeps
    | with_reducible apply Keeps.ite
    | with_reducible apply KeepsX.mk

theorem execAttPartialStatusReply_keeps {s₀ : State} (a1 : Rep) (s : State) (h : Keeps s₀ s) :
    KeepsX s₀ (execAttPartialStatusReply a1 s) := by
  unfold execAttPartialStatusReply
  repeat' first
    | with_reducible intro _
    | with_reducible assumption
    | with_reducible apply attPartialStatusReplyFx_keeps
    | with_reducible apply Keeps.ite
    | with_reducible apply KeepsX.mk

theorem execAttResult_keeps {s₀ : State} (a1 : Pkt) (s : State) (h : Keeps s₀ s) :
    KeepsX s₀ (execAttResult a1 s) := by
  unfold execAttResult
  repeat' first
    | with_reducible intro _
    | with_reducible assumption
    | with_reducible apply attResultFx_keeps
    | with_reducible apply Keeps.ite
    | with_reducible apply KeepsX.mk

theorem readClear_keeps {s₀ : State} (a1 : ℕ) (s : State) (h : Keeps s₀ s) :
    Keeps s₀ (readClear a1 s) := by
  unfold readClear
  repeat' first
    | with_reducible intro _
    | with_reducible assumption
    | with_reducible apply emit_keeps
    | with_reducible apply regPut_keeps

theorem execAttRttMaxRead_keeps {s₀ : State} (s : State) (h : Keeps s₀ s) :
    KeepsX s₀ (execAttRttMaxRead s) := by
  unfold execAttRttMaxRead
  repeat' first
    | with_reducible intro _
    | with_reducible assumption
    | with_reducible apply readClear_keeps
    | with_reducible apply Keeps.ite
    | with_reducible apply KeepsX.mk

theorem execAttServiceComplete_keeps {s₀ : State} (a1 : ℕ) (a2 : ℕ) (a3 : List ℕ) (s : State) (h : Keeps s₀ s) :
    KeepsX s₀ (execAttServiceComplete a1 a2 a3 s) := by
  unfold execAttServiceComplete
  repeat' first
    | with_reducible intro _
    | with_reducible assumption
    | with_reducible apply attServiceCompleteFx_keeps
    | with_reducible apply Keeps.ite
    | with_reducible apply KeepsX.mk

theorem queryPlain_keeps {s₀ : State} (a1 : ℕ) (a2 : Bytes) (s : State) (h : Keeps s₀ s) :
    Keeps s₀ (queryPlain a1 a2 s) := by
  unfold queryPlain
  repeat' first
    | with_reducible intro _
    | with_reducible assumption
    | with_reducible apply bump_keeps
    | with_reducible apply Keeps.ite

theorem sendCoded_keeps {s₀ : State} (a1 : ℕ) (a2 : Bytes) (a3 : SlotRec) (a4 : Bytes) (s : State) (h : Keeps s₀ s) :
    KeepsR s₀ (sendCoded a1 a2 a3 a4 s) := by
  unfold sendCoded
  repeat' first
    | with_reducible intro _
    | with_reducible assumption
    | with_reducible apply bump_keeps
    | with_reducible apply codeObject_keeps
    | with_reducible apply Keeps.ite
    | with_reducible apply Keeps.fold
    | with_reducible apply Keeps.same_id
    | with_reducible apply KeepsR.ite
    | with_reducible apply KeepsR.fold
    | with_reducible refine KeepsR.get (by assumption) ?_
    | (with_reducible apply KeepsR.snd; with_reducible apply codeObject_keeps)
    | with_reducible apply hk
    | split
    | with_reducible apply KeepsR.mk

theorem sendQuery_keeps {s₀ : State} (a1 : ℕ) (a2 : ℕ) (a3 : ℕ) (a4 : Bytes) (a5 : List ℕ) (s : State) (h : Keeps s₀ s) :
    Keeps s₀ (sendQuery a1 a2 a3 a4 a5 s) := by
  unfold sendQuery
  repeat' first
    | with_reducible intro _
    | with_reducible assumption
    | with_reducible apply modEng_keeps
    | with_reducible apply runOn_keeps
    | with_reducible apply runPoisoned_keeps
    | with_reducible apply segDone_keeps
    | with_reducible apply Keeps.ite
    | with_reducible apply Keeps.fold

theorem sendFx_keeps {s₀ : State} (a1 : ℕ) (a2 : Bytes) (s : State) (h : Keeps s₀ s) :
    Keeps s₀ (sendFx a1 a2 s) := by
  unfold sendFx
  repeat' first
    | with_reducible intro _
    | with_reducible assumption
    | with_reducible apply modRun_keeps
    | with_reducible apply queryPlain_keeps
    | with_reducible apply sendCoded_keeps
    | with_reducible apply sendQuery_keeps
    | with_reducible apply slotFlag_keeps
    | with_reducible apply Keeps.ite
    | with_reducible apply Keeps.fold
    | with_reducible apply Keeps.same_id
    | with_reducible apply KeepsR.ite
    | with_reducible apply KeepsR.fold
    | with_reducible refine KeepsR.get (by assumption) ?_
    | (with_reducible apply KeepsR.snd; with_reducible apply sendCoded_keeps)
    | (extract_lets +onlyGivenNames x; clear_value x)
    | with_reducible apply hk
    | split

theorem execSendEntry_keeps {s₀ : State} (a1 : ℕ) (a2 : ℕ) (a3 : ℕ) (s : State) (h : Keeps s₀ s) :
    KeepsX s₀ (execSendEntry a1 a2 a3 s) := by
  unfold execSendEntry
  repeat' first
    | with_reducible intro _
    | with_reducible assumption
    | with_reducible apply atTick_keeps
    | with_reducible apply issue_keeps
    | with_reducible apply sendFx_keeps
    | with_reducible apply Keeps.ite
    | with_reducible apply KeepsX.mk
    | with_reducible exact KeepsX.no
    | with_reducible apply KeepsX.ite
    | with_reducible apply Keeps.fold
    | with_reducible apply Keeps.same_id
    | (extract_lets +onlyGivenNames x; clear_value (hx : x = _); refine Keeps.via (s := s₀) hx ?_ (fun _ => ?_); clear hx)
    | with_reducible apply hk
    | split

theorem resumeExchanges_keeps {s₀ : State} (s : State) (h : Keeps s₀ s) :
    Keeps s₀ (resumeExchanges s) := by
  unfold resumeExchanges
  repeat' first
    | with_reducible intro _
    | with_reducible assumption
    | with_reducible apply exClose_keeps
    | with_reducible apply runOn_keeps
    | with_reducible apply Keeps.ite
    | with_reducible apply Keeps.fold

theorem lineWrite_keeps {s₀ : State} (a1 : ℕ) (a2 : ℕ) (a3 : Bytes) (s : State) (h : Keeps s₀ s) :
    Keeps s₀ (lineWrite a1 a2 a3 s) := by
  unfold lineWrite
  repeat' first
    | with_reducible intro _
    | with_reducible assumption
    | with_reducible apply memStore_keeps

theorem gatewayCheck_keeps {s₀ : State} (a1 : ℕ) (s : State) (h : Keeps s₀ s) :
    Keeps s₀ (gatewayCheck a1 s) := by
  unfold gatewayCheck
  repeat' first
    | with_reducible intro _
    | with_reducible assumption
    | with_reducible apply bump_keeps
    | with_reducible apply modMsa_keeps
    | with_reducible apply respond_keeps
    | with_reducible apply Keeps.ite
    | with_reducible apply Keeps.fold
    | with_reducible apply Keeps.same_id
    | with_reducible apply hk
    | split

theorem entryDone_keeps {s₀ : State} (a1 : ℕ) (a2 : ℕ) (a3 : ℕ) (a4 : Bytes) (s : State) (h : Keeps s₀ s) :
    Keeps s₀ (entryDone a1 a2 a3 a4 s) := by
  unfold entryDone
  repeat' first
    | with_reducible intro _
    | with_reducible assumption
    | with_reducible apply bump_keeps
    | with_reducible apply gatewayCheck_keeps
    | with_reducible apply modMsa_keeps
    | with_reducible apply Keeps.ite

theorem respondWith_keeps {s₀ : State} (a1 : ℕ) (a2 : Pkt) (a3 : Bytes) (a4 : ℕ) (a5 : ℕ) (s : State) (h : Keeps s₀ s) :
    Keeps s₀ (respondWith a1 a2 a3 a4 a5 s) := by
  unfold respondWith
  repeat' first
    | with_reducible intro _
    | with_reducible assumption
    | with_reducible apply answer_keeps
    | with_reducible apply respond_keeps
    | with_reducible apply Keeps.ite

theorem msaAnswer_keeps {s₀ : State} (a1 : MsaOp) (a2 : ℕ) (a3 : ℕ) (a4 : Bytes) (s : State) (h : Keeps s₀ s) :
    Keeps s₀ (msaAnswer a1 a2 a3 a4 s) := by
  unfold msaAnswer
  repeat' first
    | with_reducible intro _
    | with_reducible assumption
    | with_reducible apply answer_keeps
    | with_reducible apply entryDone_keeps
    | with_reducible apply respondWith_keeps
    | with_reducible apply Keeps.ite
    | with_reducible apply Keeps.fold
    | with_reducible apply Keeps.same_id
    | with_reducible apply hk
    | split

theorem applyAtomic_keeps {s₀ : State} (a1 : ℕ) (a2 : ℕ) (a3 : ℕ) (a4 : ℕ) (a5 : ℕ) (a6 : ℕ) (a7 : MsaOp) (s : State) (h : Keeps s₀ s) :
    Keeps s₀ (applyAtomic a1 a2 a3 a4 a5 a6 a7 s) := by
  unfold applyAtomic
  repeat' first
    | with_reducible intro _
    | with_reducible assumption
    | with_reducible apply bump_keeps
    | with_reducible apply lineWrite_keeps
    | with_reducible apply msaAnswer_keeps
    | with_reducible apply Keeps.ite

theorem applyLoad_keeps {s₀ : State} (a1 : ℕ) (a2 : MsaOp) (s : State) (h : Keeps s₀ s) :
    Keeps s₀ (applyLoad a1 a2 s) := by
  unfold applyLoad
  repeat' first
    | with_reducible intro _
    | with_reducible assumption
    | with_reducible apply bump_keeps
    | with_reducible apply msaAnswer_keeps
    | with_reducible apply Keeps.ite

theorem applyRun_keeps {s₀ : State} (a1 : ℕ) (a2 : List MsaOp) (s : State) (h : Keeps s₀ s) :
    Keeps s₀ (applyRun a1 a2 s) := by
  unfold applyRun
  repeat' first
    | with_reducible intro _
    | with_reducible assumption
    | with_reducible apply bump_keeps
    | with_reducible apply inputArrived_keeps
    | with_reducible apply lineWrite_keeps
    | with_reducible apply modMsa_keeps
    | with_reducible apply msaAnswer_keeps
    | with_reducible apply Keeps.ite
    | with_reducible apply Keeps.fold

theorem lineEnter_keeps {s₀ : State} (a1 : ℕ) (a2 : MsaOp) (s : State) (h : Keeps s₀ s) :
    Keeps s₀ (lineEnter a1 a2 s) := by
  unfold lineEnter
  repeat' first
    | with_reducible intro _
    | with_reducible assumption
    | with_reducible apply keepMax_keeps
    | with_reducible apply modMsa_keeps

theorem lineArrive_keeps {s₀ : State} (a1 : ℕ) (a2 : ℕ) (a3 : MsaOp) (s : State) (h : Keeps s₀ s) :
    Keeps s₀ (lineArrive a1 a2 a3 s) := by
  unfold lineArrive
  repeat' first
    | with_reducible intro _
    | with_reducible assumption
    | with_reducible apply lineEnter_keeps
    | with_reducible apply modMsa_keeps
    | with_reducible apply Keeps.ite

theorem forward_keeps {s₀ : State} (a1 : ℕ) (a2 : ℕ) (a3 : Pkt) (f4 : (ℕ → State → State)) (a5 : (ℕ → TxWhat)) (s : State) (hf4 : ∀ x0 x1, Keeps s₀ x1 → Keeps s₀ (f4 x0 x1)) (h : Keeps s₀ s) :
    Keeps s₀ (forward a1 a2 a3 f4 a5 s) := by
  unfold forward
  repeat' first
    | with_reducible intro _
    | with_reducible assumption
    | with_reducible apply sendMsgOn_keeps
    | with_reducible apply takeTag_keeps
    | with_reducible apply hf4
    | with_reducible apply Keeps.ite
    | with_reducible apply Keeps.fold
    | with_reducible apply Keeps.same_id
    | with_reducible apply KeepsR.ite
    | with_reducible apply KeepsR.fold
    | with_reducible refine KeepsR.get (by assumption) ?_
    | (with_reducible apply KeepsR.snd; with_reducible apply takeTag_keeps)

theorem memForward_keeps {s₀ : State} (a1 : ℕ) (a2 : ℕ) (a3 : Pkt) (s : State) (h : Keeps s₀ s) :
    Keeps s₀ (memForward a1 a2 a3 s) := by
  unfold memForward
  repeat' first
    | with_reducible intro _
    | with_reducible assumption
    | with_reducible apply bump_keeps
    | with_reducible apply fail_keeps
    | with_reducible apply forward_keeps
    | with_reducible apply modMsa_keeps
    | with_reducible apply Keeps.ite
    | with_reducible apply Keeps.fold
    | with_reducible apply Keeps.same_id
    | (extract_lets +onlyGivenNames x; clear_value x)
    | with_reducible apply hk
    | split

theorem memAct_keeps {s₀ : State} (a1 : ℕ) (a2 : Pkt) (s : State) (h : Keeps s₀ s) :
    Keeps s₀ (memAct a1 a2 s) := by
  unfold memAct
  repeat' first
    | with_reducible intro _
    | with_reducible assumption
    | with_reducible apply fail_keeps
    | with_reducible apply lineArrive_keeps
    | with_reducible apply memForward_keeps
    | with_reducible apply Keeps.ite
    | with_reducible apply Keeps.fold
    | with_reducible apply Keeps.same_id
    | with_reducible apply hk
    | split

theorem memReceive_keeps {s₀ : State} (a1 : OpRow) (a2 : Pkt) (s : State) (h : Keeps s₀ s) :
    Keeps s₀ (memReceive a1 a2 s) := by
  unfold memReceive
  repeat' first
    | with_reducible intro _
    | with_reducible assumption
    | with_reducible apply atTick_keeps
    | with_reducible apply bump_keeps
    | with_reducible apply memAct_keeps
    | with_reducible apply receive_keeps
    | with_reducible apply Keeps.ite

theorem memAtomicFx_keeps {s₀ : State} (a1 : Pkt) (s : State) (h : Keeps s₀ s) :
    Keeps s₀ (memAtomicFx a1 s) := by
  unfold memAtomicFx
  repeat' first
    | with_reducible intro _
    | with_reducible assumption
    | with_reducible apply memReceive_keeps

theorem execMemAtomic_keeps {s₀ : State} (a1 : Pkt) (s : State) (h : Keeps s₀ s) :
    KeepsX s₀ (execMemAtomic a1 s) := by
  unfold execMemAtomic
  repeat' first
    | with_reducible intro _
    | with_reducible assumption
    | with_reducible apply memAtomicFx_keeps
    | with_reducible apply Keeps.ite
    | with_reducible apply KeepsX.mk

theorem gwEntry_keeps {s₀ : State} (a1 : ℕ) (a2 : Pkt) (a3 : ℕ) (s : State) (a5 : ℕ × Bytes × Bytes) (h : Keeps s₀ s) :
    Keeps s₀ (gwEntry a1 a2 a3 s a5) := by
  unfold gwEntry
  repeat' first
    | with_reducible intro _
    | with_reducible assumption
    | with_reducible apply entryDone_keeps
    | with_reducible apply lineArrive_keeps
    | with_reducible apply Keeps.ite
    | with_reducible apply Keeps.fold
    | with_reducible apply Keeps.same_id
    | with_reducible apply hk
    | split

theorem gwHome_keeps {s₀ : State} (a1 : Pkt) (a2 : List (Bytes × Bytes)) (a3 : ℕ) (a4 : ℕ) (s : State) (h : Keeps s₀ s) :
    Keeps s₀ (gwHome a1 a2 a3 a4 s) := by
  unfold gwHome
  repeat' first
    | with_reducible intro _
    | with_reducible assumption
    | with_reducible apply bump_keeps
    | with_reducible apply gwEntry_keeps
    | with_reducible apply modMsa_keeps
    | with_reducible apply sendNak_keeps
    | with_reducible apply Keeps.ite
    | with_reducible apply Keeps.fold

theorem gwIssue_keeps {s₀ : State} (a1 : ℕ) (a2 : Pkt) (s : State) (h : Keeps s₀ s) :
    Keeps s₀ (gwIssue a1 a2 s) := by
  unfold gwIssue
  repeat' first
    | with_reducible intro _
    | with_reducible assumption
    | with_reducible apply bump_keeps
    | with_reducible apply fail_keeps
    | with_reducible apply forward_keeps
    | with_reducible apply modMsa_keeps
    | with_reducible apply Keeps.ite
    | with_reducible apply Keeps.fold
    | with_reducible apply Keeps.same_id
    | with_reducible apply hk
    | split

theorem gatewayAct_keeps {s₀ : State} (a1 : Pkt) (s : State) (h : Keeps s₀ s) :
    Keeps s₀ (gatewayAct a1 s) := by
  unfold gatewayAct
  repeat' first
    | with_reducible intro _
    | with_reducible assumption
    | with_reducible apply fail_keeps
    | with_reducible apply gwHome_keeps
    | with_reducible apply gwIssue_keeps
    | with_reducible apply Keeps.ite
    | with_reducible apply Keeps.fold
    | with_reducible apply Keeps.same_id
    | with_reducible apply hk
    | split

theorem memGatewayFx_keeps {s₀ : State} (a1 : Pkt) (s : State) (h : Keeps s₀ s) :
    Keeps s₀ (memGatewayFx a1 s) := by
  unfold memGatewayFx
  repeat' first
    | with_reducible intro _
    | with_reducible assumption
    | with_reducible apply gatewayAct_keeps
    | with_reducible apply receive_keeps

theorem execMemGateway_keeps {s₀ : State} (a1 : Pkt) (s : State) (h : Keeps s₀ s) :
    KeepsX s₀ (execMemGateway a1 s) := by
  unfold execMemGateway
  repeat' first
    | with_reducible intro _
    | with_reducible assumption
    | with_reducible apply memGatewayFx_keeps
    | with_reducible apply Keeps.ite
    | with_reducible apply KeepsX.mk

theorem memLoadFx_keeps {s₀ : State} (a1 : Pkt) (s : State) (h : Keeps s₀ s) :
    Keeps s₀ (memLoadFx a1 s) := by
  unfold memLoadFx
  repeat' first
    | with_reducible intro _
    | with_reducible assumption
    | with_reducible apply memReceive_keeps

theorem execMemLoad_keeps {s₀ : State} (a1 : Pkt) (s : State) (h : Keeps s₀ s) :
    KeepsX s₀ (execMemLoad a1 s) := by
  unfold execMemLoad
  repeat' first
    | with_reducible intro _
    | with_reducible assumption
    | with_reducible apply memLoadFx_keeps
    | with_reducible apply Keeps.ite
    | with_reducible apply KeepsX.mk

theorem memStoreFx_keeps {s₀ : State} (a1 : Pkt) (s : State) (h : Keeps s₀ s) :
    Keeps s₀ (memStoreFx a1 s) := by
  unfold memStoreFx
  repeat' first
    | with_reducible intro _
    | with_reducible assumption
    | with_reducible apply memReceive_keeps

theorem execMemStore_keeps {s₀ : State} (a1 : Pkt) (s : State) (h : Keeps s₀ s) :
    KeepsX s₀ (execMemStore a1 s) := by
  unfold execMemStore
  repeat' first
    | with_reducible intro _
    | with_reducible assumption
    | with_reducible apply memStoreFx_keeps
    | with_reducible apply Keeps.ite
    | with_reducible apply KeepsX.mk

theorem passBack_keeps {s₀ : State} (a1 : ℕ) (a2 : Pkt) (a3 : Rep) (a4 : ℕ) (a5 : Bytes) (s : State) (h : Keeps s₀ s) :
    Keeps s₀ (passBack a1 a2 a3 a4 a5 s) := by
  unfold passBack
  repeat' first
    | with_reducible intro _
    | with_reducible assumption
    | with_reducible apply answer_keeps
    | with_reducible apply respond_keeps
    | with_reducible apply Keeps.ite

theorem forwardReplyAct_keeps {s₀ : State} (a1 : Rep) (a2 : Bytes) (a3 : ℕ) (s : State) (h : Keeps s₀ s) :
    Keeps s₀ (forwardReplyAct a1 a2 a3 s) := by
  unfold forwardReplyAct
  repeat' first
    | with_reducible intro _
    | with_reducible assumption
    | with_reducible apply modMsa_keeps
    | with_reducible apply passBack_keeps
    | with_reducible apply Keeps.ite
    | with_reducible apply Keeps.fold
    | with_reducible apply Keeps.same_id
    | with_reducible apply hk
    | split

theorem respDrop_keeps {s₀ : State} (a1 : ℕ) (s : State) (h : Keeps s₀ s) :
    Keeps s₀ (respDrop a1 s) := by
  unfold respDrop
  repeat' first
    | with_reducible intro _
    | with_reducible assumption
    | exact FabKeeps.mk fun _ h => h
    | with_reducible apply modFab_keeps

theorem msaForwardReplyFx_keeps {s₀ : State} (a1 : Rep) (a2 : Bytes) (s : State) (h : Keeps s₀ s) :
    Keeps s₀ (msaForwardReplyFx a1 a2 s) := by
  unfold msaForwardReplyFx
  repeat' first
    | with_reducible intro _
    | with_reducible assumption
    | with_reducible apply atTick_keeps
    | with_reducible apply bump_keeps
    | with_reducible apply forwardReplyAct_keeps
    | with_reducible apply onReply_keeps
    | with_reducible apply respDrop_keeps
    | with_reducible apply Keeps.ite

theorem execMsaForwardReply_keeps {s₀ : State} (a1 : Rep) (a2 : Bytes) (s : State) (h : Keeps s₀ s) :
    KeepsX s₀ (execMsaForwardReply a1 a2 s) := by
  unfold execMsaForwardReply
  repeat' first
    | with_reducible intro _
    | with_reducible assumption
    | with_reducible apply msaForwardReplyFx_keeps
    | with_reducible apply Keeps.ite
    | with_reducible apply KeepsX.mk

theorem gatewayEnd_keeps {s₀ : State} (a1 : ℕ) (a2 : ℕ) (s : State) (h : Keeps s₀ s) :
    Keeps s₀ (gatewayEnd a1 a2 s) := by
  unfold gatewayEnd
  repeat' first
    | with_reducible intro _
    | with_reducible assumption
    | with_reducible apply bump_keeps
    | with_reducible apply fail_keeps
    | with_reducible apply modMsa_keeps
    | with_reducible apply Keeps.ite
    | with_reducible apply Keeps.fold
    | with_reducible apply Keeps.same_id
    | (extract_lets +onlyGivenNames x; clear_value (hx : x = _); refine Keeps.via (s := s₀) hx ?_ (fun _ => ?_); clear hx)
    | with_reducible apply hk
    | split

theorem msaGwTimeoutFx_keeps {s₀ : State} (a1 : ℕ) (a2 : ℕ) (s : State) (h : Keeps s₀ s) :
    Keeps s₀ (msaGwTimeoutFx a1 a2 s) := by
  unfold msaGwTimeoutFx
  repeat' first
    | with_reducible intro _
    | with_reducible assumption
    | with_reducible apply atTick_keeps
    | with_reducible apply gatewayEnd_keeps
    | with_reducible apply Keeps.ite
    | with_reducible apply Keeps.fold
    | with_reducible apply Keeps.same_id
    | (extract_lets +onlyGivenNames x; clear_value (hx : x = _); refine Keeps.via (s := s₀) hx ?_ (fun _ => ?_); clear hx)
    | with_reducible apply hk
    | split

theorem execMsaGwTimeout_keeps {s₀ : State} (a1 : ℕ) (a2 : ℕ) (s : State) (h : Keeps s₀ s) :
    KeepsX s₀ (execMsaGwTimeout a1 a2 s) := by
  unfold execMsaGwTimeout
  repeat' first
    | with_reducible intro _
    | with_reducible assumption
    | with_reducible apply msaGwTimeoutFx_keeps
    | with_reducible apply Keeps.ite
    | with_reducible apply KeepsX.mk

theorem ingressDrain_keeps {s₀ : State} (a1 : List MsaWait) (a2 : List ℕ) (s : State) (h : Keeps s₀ s) :
    Keeps s₀ (ingressDrain a1 a2 s) := by
  induction a1 generalizing a2 s with
  | nil =>
    unfold ingressDrain
    repeat' first
      | with_reducible intro _
      | with_reducible assumption
  | cons e l ih =>
    unfold ingressDrain
    repeat' first
      | with_reducible intro _
      | with_reducible assumption
      | with_reducible apply ih
      | with_reducible apply bump_keeps
      | with_reducible apply lineEnter_keeps
      | with_reducible apply modMsa_keeps
      | with_reducible apply Keeps.ite

theorem msaLineApplyFx_keeps {s₀ : State} (a1 : ℕ) (a2 : ℕ) (s : State) (h : Keeps s₀ s) :
    Keeps s₀ (msaLineApplyFx a1 a2 s) := by
  unfold msaLineApplyFx
  repeat' first
    | with_reducible intro _
    | with_reducible assumption
    | with_reducible apply applyAtomic_keeps
    | with_reducible apply applyLoad_keeps
    | with_reducible apply applyRun_keeps
    | with_reducible apply atTick_keeps
    | with_reducible apply ingressDrain_keeps
    | with_reducible apply modMsa_keeps
    | with_reducible apply Keeps.ite
    | with_reducible apply Keeps.fold
    | with_reducible apply Keeps.same_id
    | with_reducible apply hk
    | split

theorem execMsaLineApply_keeps {s₀ : State} (a1 : ℕ) (a2 : ℕ) (s : State) (h : Keeps s₀ s) :
    KeepsX s₀ (execMsaLineApply a1 a2 s) := by
  unfold execMsaLineApply
  repeat' first
    | with_reducible intro _
    | with_reducible assumption
    | with_reducible apply msaLineApplyFx_keeps
    | with_reducible apply Keeps.ite
    | with_reducible apply KeepsX.mk

theorem execMsaLineMaxRead_keeps {s₀ : State} (s : State) (h : Keeps s₀ s) :
    KeepsX s₀ (execMsaLineMaxRead s) := by
  unfold execMsaLineMaxRead
  repeat' first
    | with_reducible intro _
    | with_reducible assumption
    | with_reducible apply readClear_keeps
    | with_reducible apply Keeps.ite
    | with_reducible apply KeepsX.mk

theorem suspectHome_keeps {s₀ : State} (a1 : ℕ) (s : State) (h : Keeps s₀ s) :
    Keeps s₀ (suspectHome a1 s) := by
  unfold suspectHome
  repeat' first
    | with_reducible intro _
    | with_reducible assumption
    | with_reducible apply record_keeps
    | with_reducible apply Keeps.ite

theorem msaDead_keeps {s₀ : State} (a1 : ℕ) (s : State) (h : Keeps s₀ s) :
    Keeps s₀ (msaDead a1 s) := by
  unfold msaDead
  repeat' first
    | with_reducible intro _
    | with_reducible assumption
    | with_reducible apply answer_keeps
    | with_reducible apply bump_keeps
    | with_reducible apply modMsa_keeps
    | with_reducible apply respondWith_keeps
    | with_reducible apply suspectHome_keeps
    | with_reducible apply Keeps.ite
    | with_reducible apply Keeps.fold
    | with_reducible apply Keeps.same_id
    | with_reducible apply hk
    | split

theorem msaOpTimeoutFx_keeps {s₀ : State} (a1 : ℕ) (a2 : ℕ) (s : State) (h : Keeps s₀ s) :
    Keeps s₀ (msaOpTimeoutFx a1 a2 s) := by
  unfold msaOpTimeoutFx
  repeat' first
    | with_reducible intro _
    | with_reducible assumption
    | with_reducible apply atTick_keeps
    | with_reducible apply msaDead_keeps
    | with_reducible apply Keeps.ite
    | with_reducible apply Keeps.fold
    | with_reducible apply Keeps.same_id
    | (extract_lets +onlyGivenNames x; clear_value (hx : x = _); refine Keeps.via (s := s₀) hx ?_ (fun _ => ?_); clear hx)
    | with_reducible apply hk
    | split

theorem execMsaOpTimeout_keeps {s₀ : State} (a1 : ℕ) (a2 : ℕ) (s : State) (h : Keeps s₀ s) :
    KeepsX s₀ (execMsaOpTimeout a1 a2 s) := by
  unfold execMsaOpTimeout
  repeat' first
    | with_reducible intro _
    | with_reducible assumption
    | with_reducible apply msaOpTimeoutFx_keeps
    | with_reducible apply Keeps.ite
    | with_reducible apply KeepsX.mk

theorem linePoison_keeps {s₀ : State} (a1 : ℕ) (s : State) (h : Keeps s₀ s) :
    Keeps s₀ (linePoison a1 s) := by
  unfold linePoison
  repeat' first
    | with_reducible intro _
    | with_reducible assumption
    | with_reducible apply modMsa_keeps

theorem msaStale_keeps {s₀ : State} (a1 : MsaOp) (s : State) (h : Keeps s₀ s) :
    Keeps s₀ (msaStale a1 s) := by
  unfold msaStale
  repeat' first
    | with_reducible intro _
    | with_reducible assumption
    | with_reducible apply answer_keeps
    | with_reducible apply bump_keeps
    | with_reducible apply entryDone_keeps
    | with_reducible apply Keeps.ite
    | with_reducible apply Keeps.fold
    | with_reducible apply Keeps.same_id
    | (extract_lets +onlyGivenNames x; clear_value (hx : x = _); refine Keeps.via (s := s₀) hx ?_ (fun _ => ?_); clear hx)
    | with_reducible apply hk
    | split

theorem msaDiscard_keeps {s₀ : State} (a1 : (MsaOp → Bool)) (s : State) (h : Keeps s₀ s) :
    Keeps s₀ (msaDiscard a1 s) := by
  unfold msaDiscard
  repeat' first
    | with_reducible intro _
    | with_reducible assumption
    | with_reducible apply ingressDrain_keeps
    | with_reducible apply modMsa_keeps
    | with_reducible apply msaStale_keeps
    | with_reducible apply Keeps.ite
    | with_reducible apply Keeps.fold

theorem txFail_keeps {s₀ : State} (a1 : TxWhat) (a2 : ℕ) (s : State) (h : Keeps s₀ s) :
    Keeps s₀ (txFail a1 a2 s) := by
  unfold txFail
  repeat' first
    | with_reducible intro _
    | with_reducible assumption
    | with_reducible apply dropAnswered_keeps
    | with_reducible apply exchangeLost_keeps
    | with_reducible apply gatewayEnd_keeps
    | with_reducible apply handoffRefused_keeps
    | with_reducible apply moveRefused_keeps
    | with_reducible apply msaDead_keeps
    | with_reducible apply Keeps.ite
    | with_reducible apply Keeps.fold
    | with_reducible apply Keeps.same_id
    | with_reducible apply hk
    | split

theorem resumeWait_keeps {s₀ : State} (a1 : WaitMsg) (s : State) (h : Keeps s₀ s) :
    Keeps s₀ (resumeWait a1 s) := by
  unfold resumeWait
  repeat' first
    | with_reducible intro _
    | with_reducible assumption
    | exact FabKeeps.mk fun _ h => h
    | with_reducible apply modFab_keeps
    | with_reducible apply sendMsgOn_keeps
    | with_reducible apply txFail_keeps
    | with_reducible apply Keeps.ite
    | with_reducible apply Keeps.fold
    | with_reducible apply Keeps.same_id
    | with_reducible apply hk
    | split

theorem afterHello_keeps {s₀ : State} (s : State) (h : Keeps s₀ s) :
    Keeps s₀ (afterHello s) := by
  unfold afterHello
  repeat' first
    | with_reducible intro _
    | with_reducible assumption
    | exact FabKeeps.mk fun _ h => h
    | with_reducible apply modFab_keeps
    | with_reducible apply resumeExchanges_keeps
    | with_reducible apply resumeMoves_keeps
    | with_reducible apply resumeWait_keeps
    | with_reducible apply Keeps.ite
    | with_reducible apply Keeps.fold

theorem bufferDone_keeps {s₀ : State} (a1 : ℕ) (a2 : Posted) (a3 : ℕ) (a4 : ℕ) (a5 : ℕ) (a6 : ℕ) (s : State) (h : Keeps s₀ s) :
    Keeps s₀ (bufferDone a1 a2 a3 a4 a5 a6 s) := by
  unfold bufferDone
  repeat' first
    | with_reducible intro _
    | with_reducible assumption
    | with_reducible apply cqPost_keeps
    | with_reducible apply takeFree_keeps
    | with_reducible apply Keeps.ite
    | with_reducible apply Keeps.fold
    | with_reducible apply Keeps.same_id
    | with_reducible apply KeepsR.ite
    | with_reducible apply KeepsR.fold
    | with_reducible refine KeepsR.get (by assumption) ?_
    | (with_reducible apply KeepsR.snd; with_reducible apply takeFree_keeps)

theorem bufferFlushed_keeps {s₀ : State} (a1 : ℕ) (a2 : ℕ) (s : State) (a4 : Posted) (h : Keeps s₀ s) :
    Keeps s₀ (bufferFlushed a1 a2 s a4) := by
  unfold bufferFlushed
  repeat' first
    | with_reducible intro _
    | with_reducible assumption
    | with_reducible apply bufferDone_keeps
    | with_reducible apply takeFree_keeps
    | with_reducible apply Keeps.ite
    | with_reducible apply Keeps.fold
    | with_reducible apply Keeps.same_id
    | with_reducible apply KeepsR.ite
    | with_reducible apply KeepsR.fold
    | with_reducible refine KeepsR.get (by assumption) ?_
    | (with_reducible apply KeepsR.snd; with_reducible apply takeFree_keeps)

theorem suspectDev_keeps {s₀ : State} (a1 : ℕ) (a2 : ℕ) (s : State) (h : Keeps s₀ s) :
    Keeps s₀ (suspectDev a1 a2 s) := by
  unfold suspectDev
  repeat' first
    | with_reducible intro _
    | with_reducible assumption
    | with_reducible apply record_keeps

theorem ownedFail_keeps {s₀ : State} (a1 : ℕ) (s : State) (h : Keeps s₀ s) :
    Keeps s₀ (ownedFail a1 s) := by
  unfold ownedFail
  repeat' first
    | with_reducible intro _
    | with_reducible assumption
    | with_reducible apply failSoon_keeps
    | with_reducible apply settle_keeps
    | with_reducible apply Keeps.ite
    | with_reducible apply Keeps.fold

theorem forwardsDead_keeps {s₀ : State} (a1 : ℕ) (s : State) (h : Keeps s₀ s) :
    Keeps s₀ (forwardsDead a1 s) := by
  unfold forwardsDead
  repeat' first
    | with_reducible intro _
    | with_reducible assumption
    | with_reducible apply gatewayEnd_keeps
    | with_reducible apply msaDead_keeps
    | with_reducible apply Keeps.ite
    | with_reducible apply Keeps.fold

theorem framesGone_keeps {s₀ : State} (a1 : ℕ) (s : State) (h : Keeps s₀ s) :
    Keeps s₀ (framesGone a1 s) := by
  unfold framesGone
  repeat' first
    | with_reducible intro _
    | with_reducible assumption
    | exact FabKeeps.mk fun _ h => h
    | with_reducible apply modFab_keeps
    | with_reducible apply modShaper_keeps

theorem qpFlush_keeps {s₀ : State} (a1 : ℕ) (s : State) (h : Keeps s₀ s) :
    Keeps s₀ (qpFlush a1 s) := by
  unfold qpFlush
  repeat' first
    | with_reducible intro _
    | with_reducible assumption
    | with_reducible apply bufferFlushed_keeps
    | with_reducible apply forwardsDead_keeps
    | with_reducible apply framesGone_keeps
    | with_reducible apply modMsa_keeps
    | with_reducible apply modQp_keeps
    | with_reducible apply sendNak_keeps
    | with_reducible apply txFail_keeps
    | with_reducible apply Keeps.ite
    | with_reducible apply Keeps.fold
    | with_reducible apply Keeps.same_id
    | (extract_lets +onlyGivenNames x; clear_value (hx : x = _); refine Keeps.via (s := s₀) hx ?_ (fun _ => ?_); clear hx)
    | with_reducible apply hk
    | split

theorem qpError_keeps {s₀ : State} (a1 : ℕ) (a2 : ℕ) (s : State) (h : Keeps s₀ s) :
    Keeps s₀ (qpError a1 a2 s) := by
  unfold qpError
  repeat' first
    | with_reducible intro _
    | with_reducible assumption
    | with_reducible apply afterHello_keeps
    | with_reducible apply bump_keeps
    | with_reducible apply modQp_keeps
    | with_reducible apply ownedFail_keeps
    | with_reducible apply qpFlush_keeps
    | with_reducible apply Keeps.ite
    | with_reducible apply Keeps.fold
    | with_reducible apply Keeps.same_id
    | (extract_lets +onlyGivenNames x; clear_value (hx : x = _); refine Keeps.via (s := s₀) hx ?_ (fun _ => ?_); clear hx)
    | with_reducible apply hk
    | split

theorem tclExhausted_keeps {s₀ : State} (a1 : ℕ) (a2 : Qp) (s : State) (h : Keeps s₀ s) :
    Keeps s₀ (tclExhausted a1 a2 s) := by
  unfold tclExhausted
  repeat' first
    | with_reducible intro _
    | with_reducible assumption
    | with_reducible apply bump_keeps
    | with_reducible apply modQp_keeps
    | with_reducible apply qpError_keeps
    | with_reducible apply suspectDev_keeps
    | with_reducible apply txFail_keeps
    | with_reducible apply Keeps.ite
    | with_reducible apply Keeps.fold
    | with_reducible apply Keeps.same_id
    | (extract_lets +onlyGivenNames x; clear_value (hx : x = _); refine Keeps.via (s := s₀) hx ?_ (fun _ => ?_); clear hx)
    | with_reducible apply hk
    | split

theorem tcsExhausted_keeps {s₀ : State} (a1 : ℕ) (a2 : ℕ) (s : State) (h : Keeps s₀ s) :
    Keeps s₀ (tcsExhausted a1 a2 s) := by
  unfold tcsExhausted
  repeat' first
    | with_reducible intro _
    | with_reducible assumption
    | with_reducible apply bump_keeps
    | with_reducible apply modQp_keeps
    | with_reducible apply qpError_keeps
    | with_reducible apply txFail_keeps
    | with_reducible apply Keeps.ite
    | with_reducible apply Keeps.fold
    | with_reducible apply Keeps.same_id
    | (extract_lets +onlyGivenNames x; clear_value (hx : x = _); refine Keeps.via (s := s₀) hx ?_ (fun _ => ?_); clear hx)
    | with_reducible apply hk
    | split

theorem qpLost_keeps {s₀ : State} (a1 : ℕ) (a2 : Qp) (s : State) (h : Keeps s₀ s) :
    Keeps s₀ (qpLost a1 a2 s) := by
  unfold qpLost
  repeat' first
    | with_reducible intro _
    | with_reducible assumption
    | with_reducible apply bump_keeps
    | with_reducible apply modQp_keeps
    | with_reducible apply qpError_keeps
    | with_reducible apply txFail_keeps
    | with_reducible apply Keeps.ite
    | with_reducible apply Keeps.fold
    | with_reducible apply Keeps.same_id
    | (extract_lets +onlyGivenNames x; clear_value (hx : x = _); refine Keeps.via (s := s₀) hx ?_ (fun _ => ?_); clear hx)
    | with_reducible apply hk
    | split

theorem destinationLost_keeps {s₀ : State} (a1 : ℕ) (s : State) (h : Keeps s₀ s) :
    Keeps s₀ (destinationLost a1 s) := by
  unfold destinationLost
  repeat' first
    | with_reducible intro _
    | with_reducible assumption
    | with_reducible apply suspectDev_keeps
    | with_reducible apply qpLost_keeps
    | with_reducible apply Keeps.ite
    | with_reducible apply Keeps.fold
    | with_reducible apply Keeps.same_id
    | with_reducible apply hk

theorem tclResend_keeps {s₀ : State} (a1 : ℕ) (a2 : ℕ) (s : State) (h : Keeps s₀ s) :
    Keeps s₀ (tclResend a1 a2 s) := by
  unfold tclResend
  repeat' first
    | with_reducible intro _
    | with_reducible assumption
    | with_reducible apply modQp_keeps
    | with_reducible apply queueFrame_keeps
    | with_reducible apply Keeps.ite
    | with_reducible apply Keeps.fold
    | with_reducible apply Keeps.same_id
    | with_reducible apply hk
    | split

theorem tclRetry_keeps {s₀ : State} (a1 : ℕ) (a2 : ℕ) (s : State) (h : Keeps s₀ s) :
    Keeps s₀ (tclRetry a1 a2 s) := by
  unfold tclRetry
  repeat' first
    | with_reducible intro _
    | with_reducible assumption
    | with_reducible apply modQp_keeps
    | with_reducible apply tclExhausted_keeps
    | with_reducible apply tclResend_keeps
    | with_reducible apply destinationLost_keeps
    | with_reducible apply Keeps.ite
    | with_reducible apply Keeps.fold
    | with_reducible apply Keeps.same_id
    | with_reducible apply hk
    | split

theorem txDone_keeps {s₀ : State} (a1 : TxWhat) (s : State) (h : Keeps s₀ s) :
    Keeps s₀ (txDone a1 s) := by
  unfold txDone
  repeat' first
    | with_reducible intro _
    | with_reducible assumption
    | with_reducible apply sendSeal_keeps
    | with_reducible apply Keeps.ite
    | with_reducible apply Keeps.fold
    | with_reducible apply Keeps.same_id
    | with_reducible apply hk
    | split

theorem windowRefill_keeps {s₀ : State} (a1 : ℕ) (s : State) (h : Keeps s₀ s) :
    Keeps s₀ (windowRefill a1 s) := by
  unfold windowRefill
  repeat' first
    | with_reducible intro _
    | with_reducible assumption
    | with_reducible apply modQp_keeps
    | with_reducible apply tclSend_keeps
    | with_reducible apply Keeps.ite
    | with_reducible apply Keeps.fold
    | with_reducible apply Keeps.same_id
    | with_reducible apply hk
    | split

theorem ackFx_keeps {s₀ : State} (a1 : ℕ) (a2 : ℕ) (s : State) (h : Keeps s₀ s) :
    Keeps s₀ (ackFx a1 a2 s) := by
  unfold ackFx
  repeat' first
    | with_reducible intro _
    | with_reducible assumption
    | with_reducible apply modQp_keeps
    | with_reducible apply txDone_keeps
    | with_reducible apply windowRefill_keeps
    | with_reducible apply Keeps.ite
    | with_reducible apply Keeps.fold
    | with_reducible apply Keeps.same_id
    | with_reducible apply hk
    | split

theorem strayFrame_keeps {s₀ : State} (a1 : ℕ) (a2 : ℕ) (s : State) (h : Keeps s₀ s) :
    Keeps s₀ (strayFrame a1 a2 s) := by
  unfold strayFrame
  repeat' first
    | with_reducible intro _
    | with_reducible assumption
    | with_reducible apply bump_keeps
    | with_reducible apply Keeps.ite
    | with_reducible apply Keeps.fold
    | with_reducible apply Keeps.same_id
    | with_reducible apply hk
    | split

theorem controlIn_keeps {s₀ : State} (a1 : ℕ) (a2 : ℕ) (a3 : ℕ) (s : State) (h : Keeps s₀ s) :
    Keeps s₀ (controlIn a1 a2 a3 s) := by
  unfold controlIn
  repeat' first
    | with_reducible intro _
    | with_reducible assumption
    | with_reducible apply bump_keeps
    | with_reducible apply strayFrame_keeps

theorem ackReceivedFx_keeps {s₀ : State} (a1 : ℕ) (a2 : ℕ) (a3 : ℕ) (a4 : ℕ) (s : State) (h : Keeps s₀ s) :
    Keeps s₀ (ackReceivedFx a1 a2 a3 a4 s) := by
  unfold ackReceivedFx
  repeat' first
    | with_reducible intro _
    | with_reducible assumption
    | with_reducible apply ackFx_keeps
    | with_reducible apply atTick_keeps
    | with_reducible apply controlIn_keeps
    | with_reducible apply Keeps.ite

theorem noSuchQp_keeps {s₀ : State} (a1 : Bool) (a2 : Fab) (s : State) (h : Keeps s₀ s) :
    Keeps s₀ (noSuchQp a1 a2 s) := by
  unfold noSuchQp
  repeat' first
    | with_reducible intro _
    | with_reducible assumption
    | with_reducible apply bump_keeps
    | with_reducible apply frameOut_keeps
    | with_reducible apply Keeps.ite

theorem turnAway_keeps {s₀ : State} (a1 : Bool) (a2 : ℕ) (a3 : ℕ) (a4 : NakCode) (s : State) (h : Keeps s₀ s) :
    Keeps s₀ (turnAway a1 a2 a3 a4 s) := by
  unfold turnAway
  repeat' first
    | with_reducible intro _
    | with_reducible assumption
    | with_reducible apply sendNak_keeps
    | with_reducible apply Keeps.ite

theorem parkFrame_keeps {s₀ : State} (a1 : Bool) (a2 : Fab) (s : State) (h : Keeps s₀ s) :
    Keeps s₀ (parkFrame a1 a2 s) := by
  unfold parkFrame
  repeat' first
    | with_reducible intro _
    | with_reducible assumption
    | with_reducible apply bump_keeps
    | with_reducible apply modQp_keeps
    | with_reducible apply turnAway_keeps
    | with_reducible apply Keeps.ite

theorem gwNote_keeps {s₀ : State} (a1 : Fab) (s : State) (h : Keeps s₀ s) :
    Keeps s₀ (gwNote a1 s) := by
  unfold gwNote
  repeat' first
    | with_reducible intro _
    | with_reducible assumption
    | with_reducible apply modMsa_keeps
    | with_reducible apply Keeps.ite

theorem sendAck_keeps {s₀ : State} (a1 : ℕ) (s : State) (h : Keeps s₀ s) :
    Keeps s₀ (sendAck a1 s) := by
  unfold sendAck
  repeat' first
    | with_reducible intro _
    | with_reducible assumption
    | with_reducible apply modQp_keeps
    | with_reducible apply sendControl_keeps

theorem tclAccept_keeps {s₀ : State} (a1 : Fab) (s : State) (h : Keeps s₀ s) :
    Keeps s₀ (tclAccept a1 s) := by
  unfold tclAccept
  repeat' first
    | with_reducible intro _
    | with_reducible assumption
    | with_reducible apply bump_keeps
    | with_reducible apply gwNote_keeps
    | with_reducible apply modQp_keeps
    | with_reducible apply sendAck_keeps
    | with_reducible apply sendNak_keeps
    | with_reducible apply Keeps.ite
    | with_reducible apply Keeps.fold
    | with_reducible apply Keeps.same_id
    | (extract_lets +onlyGivenNames x; clear_value (hx : x = _); refine Keeps.via (s := s₀) hx ?_ (fun _ => ?_); clear hx)
    | (extract_lets +onlyGivenNames x; clear_value x)
    | with_reducible apply hk
    | split

theorem sendSack_keeps {s₀ : State} (a1 : ℕ) (a2 : ℕ) (a3 : Bool) (a4 : Bool) (a5 : List ℕ) (s : State) (h : Keeps s₀ s) :
    Keeps s₀ (sendSack a1 a2 a3 a4 a5 s) := by
  unfold sendSack
  repeat' first
    | with_reducible intro _
    | with_reducible assumption
    | with_reducible apply sendControl_keeps
    | with_reducible apply Keeps.ite
    | with_reducible apply Keeps.fold

theorem tcsComplete_keeps {s₀ : State} (a1 : ℕ) (a2 : TcsIn) (s : State) (h : Keeps s₀ s) :
    Keeps s₀ (tcsComplete a1 a2 s) := by
  unfold tcsComplete
  repeat' first
    | with_reducible intro _
    | with_reducible assumption
    | with_reducible apply modQp_keeps
    | with_reducible apply sendSack_keeps

theorem tcsPlace_keeps {s₀ : State} (a1 : ℕ) (a2 : Fab) (a3 : TcsIn) (s : State) (h : Keeps s₀ s) :
    Keeps s₀ (tcsPlace a1 a2 a3 s) := by
  unfold tcsPlace
  repeat' first
    | with_reducible intro _
    | with_reducible assumption
    | with_reducible apply modQp_keeps
    | with_reducible apply tcsComplete_keeps
    | with_reducible apply Keeps.ite
    | with_reducible apply Keeps.fold
    | with_reducible apply Keeps.same_id
    | (extract_lets +onlyGivenNames x; clear_value (hx : x = _); refine Keeps.via (s := s₀) hx ?_ (fun _ => ?_); clear hx)
    | (extract_lets +onlyGivenNames x; clear_value x)
    | with_reducible apply hk
    | split

theorem tcsOpen_keeps {s₀ : State} (a1 : ℕ) (a2 : Fab) (a3 : Qp) (s : State) (h : Keeps s₀ s) :
    Keeps s₀ (tcsOpen a1 a2 a3 s) := by
  unfold tcsOpen
  repeat' first
    | with_reducible intro _
    | with_reducible assumption
    | with_reducible apply bump_keeps
    | with_reducible apply modQp_keeps
    | with_reducible apply sendSack_keeps
    | with_reducible apply tcsPlace_keeps
    | with_reducible apply Keeps.ite
    | with_reducible apply Keeps.fold
    | with_reducible apply Keeps.same_id
    | with_reducible apply hk
    | split

theorem tcsAccept_keeps {s₀ : State} (a1 : Fab) (s : State) (h : Keeps s₀ s) :
    Keeps s₀ (tcsAccept a1 s) := by
  unfold tcsAccept
  repeat' first
    | with_reducible intro _
    | with_reducible assumption
    | with_reducible apply bump_keeps
    | with_reducible apply sendSack_keeps
    | with_reducible apply tcsOpen_keeps
    | with_reducible apply tcsPlace_keeps
    | with_reducible apply Keeps.ite
    | with_reducible apply Keeps.fold
    | with_reducible apply Keeps.same_id
    | (extract_lets +onlyGivenNames x; clear_value x)
    | with_reducible apply hk
    | split

theorem toContext_keeps {s₀ : State} (a1 : Bool) (a2 : Fab) (s : State) (h : Keeps s₀ s) :
    Keeps s₀ (toContext a1 a2 s) := by
  unfold toContext
  repeat' first
    | with_reducible intro _
    | with_reducible assumption
    | with_reducible apply parkFrame_keeps
    | with_reducible apply tclAccept_keeps
    | with_reducible apply tcsAccept_keeps
    | with_reducible apply wakeQp_keeps
    | with_reducible apply Keeps.ite
    | with_reducible apply Keeps.fold
    | with_reducible apply Keeps.same_id
    | (extract_lets +onlyGivenNames x; clear_value (hx : x = _); refine Keeps.via (s := s₀) hx ?_ (fun _ => ?_); clear hx)
    | with_reducible apply hk
    | split

theorem dataFx_keeps {s₀ : State} (a1 : Bool) (a2 : Fab) (s : State) (h : Keeps s₀ s) :
    Keeps s₀ (dataFx a1 a2 s) := by
  unfold dataFx
  repeat' first
    | with_reducible intro _
    | with_reducible assumption
    | with_reducible apply atTick_keeps
    | with_reducible apply bump_keeps
    | with_reducible apply noSuchQp_keeps
    | with_reducible apply toContext_keeps
    | with_reducible apply turnAway_keeps
    | with_reducible apply Keeps.ite
    | with_reducible apply Keeps.fold
    | with_reducible apply Keeps.same_id
    | with_reducible apply hk
    | split

theorem execAckReceived_keeps {s₀ : State} (a1 : ℕ) (a2 : ℕ) (a3 : ℕ) (a4 : ℕ) (s : State) (h : Keeps s₀ s) :
    KeepsX s₀ (execAckReceived a1 a2 a3 a4 s) := by
  unfold execAckReceived
  repeat' first
    | with_reducible intro _
    | with_reducible assumption
    | with_reducible apply ackReceivedFx_keeps
    | with_reducible apply Keeps.ite
    | with_reducible apply KeepsX.mk

theorem leaveOut_keeps {s₀ : State} (a1 : ℕ) (a2 : ℕ) (s : State) (h : Keeps s₀ s) :
    Keeps s₀ (leaveOut a1 a2 s) := by
  unfold leaveOut
  repeat' first
    | with_reducible intro _
    | with_reducible assumption
    | exact FabKeeps.mk fun _ h => h
    | with_reducible apply destinationLost_keeps
    | with_reducible apply modFab_keeps
    | with_reducible apply Keeps.ite
    | with_reducible apply Keeps.fold
    | with_reducible apply Keeps.same_id
    | with_reducible apply hk
    | split

theorem nakFx_keeps {s₀ : State} (a1 : ℕ) (a2 : ℕ) (a3 : ℕ) (a4 : NakCode) (s : State) (h : Keeps s₀ s) :
    Keeps s₀ (nakFx a1 a2 a3 a4 s) := by
  unfold nakFx
  repeat' first
    | with_reducible intro _
    | with_reducible assumption
    | with_reducible apply leaveOut_keeps
    | with_reducible apply modQp_keeps
    | with_reducible apply qpError_keeps
    | with_reducible apply tclRetry_keeps
    | with_reducible apply Keeps.ite
    | with_reducible apply Keeps.fold
    | with_reducible apply Keeps.same_id
    | with_reducible apply hk
    | split

theorem nakReceivedFx_keeps {s₀ : State} (a1 : ℕ) (a2 : ℕ) (a3 : ℕ) (a4 : ℕ) (a5 : NakCode) (s : State) (h : Keeps s₀ s) :
    Keeps s₀ (nakReceivedFx a1 a2 a3 a4 a5 s) := by
  unfold nakReceivedFx
  repeat' first
    | with_reducible intro _
    | with_reducible assumption
    | with_reducible apply atTick_keeps
    | with_reducible apply bump_keeps
    | with_reducible apply controlIn_keeps
    | with_reducible apply nakFx_keeps
    | with_reducible apply Keeps.ite

theorem execNakReceived_keeps {s₀ : State} (a1 : ℕ) (a2 : ℕ) (a3 : ℕ) (a4 : ℕ) (a5 : NakCode) (s : State) (h : Keeps s₀ s) :
    KeepsX s₀ (execNakReceived a1 a2 a3 a4 a5 s) := by
  unfold execNakReceived
  repeat' first
    | with_reducible intro _
    | with_reducible assumption
    | with_reducible apply nakReceivedFx_keeps
    | with_reducible apply Keeps.ite
    | with_reducible apply KeepsX.mk

theorem portExclusionExpireFx_keeps {s₀ : State} (a1 : ℕ) (a2 : ℕ) (a3 : ℕ) (s : State) (h : Keeps s₀ s) :
    Keeps s₀ (portExclusionExpireFx a1 a2 a3 s) := by
  unfold portExclusionExpireFx
  repeat' first
    | with_reducible intro _
    | with_reducible assumption
    | exact FabKeeps.mk fun _ h => h
    | with_reducible apply atTick_keeps
    | with_reducible apply modFab_keeps
    | with_reducible apply Keeps.ite

theorem execPortExclusionExpire_keeps {s₀ : State} (a1 : ℕ) (a2 : ℕ) (a3 : ℕ) (s : State) (h : Keeps s₀ s) :
    KeepsX s₀ (execPortExclusionExpire a1 a2 a3 s) := by
  unfold execPortExclusionExpire
  repeat' first
    | with_reducible intro _
    | with_reducible assumption
    | with_reducible apply portExclusionExpireFx_keeps
    | with_reducible apply Keeps.ite
    | with_reducible apply KeepsX.mk

theorem qpcEvictVerifiedFx_keeps {s₀ : State} (a1 : ℕ) (s : State) (h : Keeps s₀ s) :
    Keeps s₀ (qpcEvictVerifiedFx a1 s) := by
  unfold qpcEvictVerifiedFx
  repeat' first
    | with_reducible intro _
    | with_reducible assumption
    | with_reducible apply bump_keeps
    | with_reducible apply modQp_keeps
    | with_reducible apply slotFreed_keeps
    | with_reducible apply Keeps.ite
    | with_reducible apply Keeps.fold
    | with_reducible apply Keeps.same_id
    | with_reducible apply hk
    | split

theorem execQpcEvictVerified_keeps {s₀ : State} (a1 : ℕ) (s : State) (h : Keeps s₀ s) :
    KeepsX s₀ (execQpcEvictVerified a1 s) := by
  unfold execQpcEvictVerified
  repeat' first
    | with_reducible intro _
    | with_reducible assumption
    | with_reducible apply qpcEvictVerifiedFx_keeps
    | with_reducible apply Keeps.ite
    | with_reducible apply KeepsX.mk

theorem execQpcFetchMaxRead_keeps {s₀ : State} (s : State) (h : Keeps s₀ s) :
    KeepsX s₀ (execQpcFetchMaxRead s) := by
  unfold execQpcFetchMaxRead
  repeat' first
    | with_reducible intro _
    | with_reducible assumption
    | with_reducible apply readClear_keeps
    | with_reducible apply Keeps.ite
    | with_reducible apply KeepsX.mk

theorem qpcHoldTimeoutFx_keeps {s₀ : State} (a1 : ℕ) (a2 : ℕ) (s : State) (h : Keeps s₀ s) :
    Keeps s₀ (qpcHoldTimeoutFx a1 a2 s) := by
  unfold qpcHoldTimeoutFx
  repeat' first
    | with_reducible intro _
    | with_reducible assumption
    | with_reducible apply atTick_keeps
    | with_reducible apply bump_keeps
    | with_reducible apply modQp_keeps
    | with_reducible apply turnAway_keeps
    | with_reducible apply Keeps.ite
    | with_reducible apply Keeps.fold
    | with_reducible apply Keeps.same_id
    | (extract_lets +onlyGivenNames x; clear_value (hx : x = _); refine Keeps.via (s := s₀) hx ?_ (fun _ => ?_); clear hx)
    | with_reducible apply hk
    | split

theorem execQpcHoldTimeout_keeps {s₀ : State} (a1 : ℕ) (a2 : ℕ) (s : State) (h : Keeps s₀ s) :
    KeepsX s₀ (execQpcHoldTimeout a1 a2 s) := by
  unfold execQpcHoldTimeout
  repeat' first
    | with_reducible intro _
    | with_reducible assumption
    | with_reducible apply qpcHoldTimeoutFx_keeps
    | with_reducible apply Keeps.ite
    | with_reducible apply KeepsX.mk

theorem qpcSelWriteFx_keeps {s₀ : State} (a1 : ℕ) (s : State) (h : Keeps s₀ s) :
    Keeps s₀ (qpcSelWriteFx a1 s) := by
  unfold qpcSelWriteFx
  repeat' first
    | with_reducible intro _
    | with_reducible assumption
    | with_reducible apply putWords_keeps
    | with_reducible apply regSet_keeps

theorem execQpcSelWrite_keeps {s₀ : State} (a1 : ℕ) (s : State) (h : Keeps s₀ s) :
    KeepsX s₀ (execQpcSelWrite a1 s) := by
  unfold execQpcSelWrite
  repeat' first
    | with_reducible intro _
    | with_reducible assumption
    | with_reducible apply qpcSelWriteFx_keeps
    | with_reducible apply Keeps.ite
    | with_reducible apply KeepsX.mk

theorem sackFx_keeps {s₀ : State} (a1 : ℕ) (a2 : ℕ) (a3 : ℕ) (a4 : Bool) (a5 : Bool) (a6 : List ℕ) (s : State) (h : Keeps s₀ s) :
    Keeps s₀ (sackFx a1 a2 a3 a4 a5 a6 s) := by
  unfold sackFx
  repeat' first
    | with_reducible intro _
    | with_reducible assumption
    | with_reducible apply modQp_keeps
    | with_reducible apply txDone_keeps
    | with_reducible apply txFail_keeps
    | with_reducible apply Keeps.ite
    | with_reducible apply Keeps.fold
    | with_reducible apply Keeps.same_id
    | (extract_lets +onlyGivenNames x; clear_value (hx : x = _); refine Keeps.via (s := s₀) hx ?_ (fun _ => ?_); clear hx)
    | with_reducible apply hk
    | split

theorem sackReceivedFx_keeps {s₀ : State} (a1 : ℕ) (a2 : ℕ) (a3 : ℕ) (a4 : ℕ) (a5 : ℕ) (a6 : Bool) (a7 : Bool) (a8 : List ℕ) (s : State) (h : Keeps s₀ s) :
    Keeps s₀ (sackReceivedFx a1 a2 a3 a4 a5 a6 a7 a8 s) := by
  unfold sackReceivedFx
  repeat' first
    | with_reducible intro _
    | with_reducible assumption
    | with_reducible apply atTick_keeps
    | with_reducible apply controlIn_keeps
    | with_reducible apply sackFx_keeps
    | with_reducible apply Keeps.ite

theorem execSackReceived_keeps {s₀ : State} (a1 : ℕ) (a2 : ℕ) (a3 : ℕ) (a4 : ℕ) (a5 : ℕ) (a6 : Bool) (a7 : Bool) (a8 : List ℕ) (s : State) (h : Keeps s₀ s) :
    KeepsX s₀ (execSackReceived a1 a2 a3 a4 a5 a6 a7 a8 s) := by
  unfold execSackReceived
  repeat' first
    | with_reducible intro _
    | with_reducible assumption
    | with_reducible apply sackReceivedFx_keeps
    | with_reducible apply Keeps.ite
    | with_reducible apply KeepsX.mk

theorem tclAckDelayExpireFx_keeps {s₀ : State} (a1 : ℕ) (a2 : ℕ) (s : State) (h : Keeps s₀ s) :
    Keeps s₀ (tclAckDelayExpireFx a1 a2 s) := by
  unfold tclAckDelayExpireFx
  repeat' first
    | with_reducible intro _
    | with_reducible assumption
    | with_reducible apply atTick_keeps
    | with_reducible apply sendAck_keeps
    | with_reducible apply Keeps.ite
    | with_reducible apply Keeps.fold
    | with_reducible apply Keeps.same_id
    | (extract_lets +onlyGivenNames x; clear_value (hx : x = _); refine Keeps.via (s := s₀) hx ?_ (fun _ => ?_); clear hx)
    | with_reducible apply hk
    | split

theorem execTclAckDelayExpire_keeps {s₀ : State} (a1 : ℕ) (a2 : ℕ) (s : State) (h : Keeps s₀ s) :
    KeepsX s₀ (execTclAckDelayExpire a1 a2 s) := by
  unfold execTclAckDelayExpire
  repeat' first
    | with_reducible intro _
    | with_reducible assumption
    | with_reducible apply tclAckDelayExpireFx_keeps
    | with_reducible apply Keeps.ite
    | with_reducible apply KeepsX.mk

theorem tclAckTimeoutFx_keeps {s₀ : State} (a1 : ℕ) (a2 : ℕ) (s : State) (h : Keeps s₀ s) :
    Keeps s₀ (tclAckTimeoutFx a1 a2 s) := by
  unfold tclAckTimeoutFx
  repeat' first
    | with_reducible intro _
    | with_reducible assumption
    | with_reducible apply atTick_keeps
    | with_reducible apply tclRetry_keeps
    | with_reducible apply Keeps.ite
    | with_reducible apply Keeps.fold
    | with_reducible apply Keeps.same_id
    | (extract_lets +onlyGivenNames x; clear_value (hx : x = _); refine Keeps.via (s := s₀) hx ?_ (fun _ => ?_); clear hx)
    | with_reducible apply hk
    | split

theorem execTclAckTimeout_keeps {s₀ : State} (a1 : ℕ) (a2 : ℕ) (s : State) (h : Keeps s₀ s) :
    KeepsX s₀ (execTclAckTimeout a1 a2 s) := by
  unfold execTclAckTimeout
  repeat' first
    | with_reducible intro _
    | with_reducible assumption
    | with_reducible apply tclAckTimeoutFx_keeps
    | with_reducible apply Keeps.ite
    | with_reducible apply KeepsX.mk

theorem execTclDataReceived_keeps {s₀ : State} (a1 : Fab) (s : State) (h : Keeps s₀ s) :
    KeepsX s₀ (execTclDataReceived a1 s) := by
  unfold execTclDataReceived
  repeat' first
    | with_reducible intro _
    | with_reducible assumption
    | with_reducible apply dataFx_keeps
    | with_reducible apply Keeps.ite
    | with_reducible apply KeepsX.mk

theorem tclNoContextResendFx_keeps {s₀ : State} (a1 : ℕ) (a2 : ℕ) (s : State) (h : Keeps s₀ s) :
    Keeps s₀ (tclNoContextResendFx a1 a2 s) := by
  unfold tclNoContextResendFx
  repeat' first
    | with_reducible intro _
    | with_reducible assumption
    | with_reducible apply atTick_keeps
    | with_reducible apply modQp_keeps
    | with_reducible apply tclResend_keeps
    | with_reducible apply Keeps.ite
    | with_reducible apply Keeps.fold
    | with_reducible apply Keeps.same_id
    | (extract_lets +onlyGivenNames x; clear_value (hx : x = _); refine Keeps.via (s := s₀) hx ?_ (fun _ => ?_); clear hx)
    | with_reducible apply hk
    | split

theorem execTclNoContextResend_keeps {s₀ : State} (a1 : ℕ) (a2 : ℕ) (s : State) (h : Keeps s₀ s) :
    KeepsX s₀ (execTclNoContextResend a1 a2 s) := by
  unfold execTclNoContextResend
  repeat' first
    | with_reducible intro _
    | with_reducible assumption
    | with_reducible apply tclNoContextResendFx_keeps
    | with_reducible apply Keeps.ite
    | with_reducible apply KeepsX.mk

theorem tcsAssemblyTimeoutFx_keeps {s₀ : State} (a1 : ℕ) (a2 : ℕ) (a3 : ℕ) (s : State) (h : Keeps s₀ s) :
    Keeps s₀ (tcsAssemblyTimeoutFx a1 a2 a3 s) := by
  unfold tcsAssemblyTimeoutFx
  repeat' first
    | with_reducible intro _
    | with_reducible assumption
    | with_reducible apply atTick_keeps
    | with_reducible apply bufferDone_keeps
    | with_reducible apply bump_keeps
    | with_reducible apply modQp_keeps
    | with_reducible apply msgClose_keeps
    | with_reducible apply takeFree_keeps
    | with_reducible apply Keeps.ite
    | with_reducible apply Keeps.fold
    | with_reducible apply Keeps.same_id
    | with_reducible apply KeepsR.ite
    | with_reducible apply KeepsR.fold
    | with_reducible refine KeepsR.get (by assumption) ?_
    | (extract_lets +onlyGivenNames x; clear_value (hx : x = _); refine Keeps.via (s := s₀) hx ?_ (fun _ => ?_); clear hx)
    | (extract_lets +onlyGivenNames x; clear_value (hx : x = _); refine KeepsR.via (s := s₀) hx ?_ (fun _ => ?_); clear hx)
    | with_reducible apply hk
    | split

theorem execTcsAssemblyTimeout_keeps {s₀ : State} (a1 : ℕ) (a2 : ℕ) (a3 : ℕ) (s : State) (h : Keeps s₀ s) :
    KeepsX s₀ (execTcsAssemblyTimeout a1 a2 a3 s) := by
  unfold execTcsAssemblyTimeout
  repeat' first
    | with_reducible intro _
    | with_reducible assumption
    | with_reducible apply tcsAssemblyTimeoutFx_keeps
    | with_reducible apply Keeps.ite
    | with_reducible apply KeepsX.mk

theorem execTcsDataReceived_keeps {s₀ : State} (a1 : Fab) (s : State) (h : Keeps s₀ s) :
    KeepsX s₀ (execTcsDataReceived a1 s) := by
  unfold execTcsDataReceived
  repeat' first
    | with_reducible intro _
    | with_reducible assumption
    | with_reducible apply dataFx_keeps
    | with_reducible apply Keeps.ite
    | with_reducible apply KeepsX.mk

theorem tcsResend_keeps {s₀ : State} (a1 : ℕ) (a2 : ℕ) (a3 : ℕ) (a4 : Qp) (a5 : TcsPkt) (s : State) (h : Keeps s₀ s) :
    Keeps s₀ (tcsResend a1 a2 a3 a4 a5 s) := by
  unfold tcsResend
  repeat' first
    | with_reducible intro _
    | with_reducible assumption
    | with_reducible apply modQp_keeps
    | with_reducible apply queueFrame_keeps
    | with_reducible apply tcsExhausted_keeps
    | with_reducible apply destinationLost_keeps
    | with_reducible apply Keeps.ite

theorem tcsRetransmitTimeoutFx_keeps {s₀ : State} (a1 : ℕ) (a2 : ℕ) (a3 : ℕ) (a4 : ℕ) (s : State) (h : Keeps s₀ s) :
    Keeps s₀ (tcsRetransmitTimeoutFx a1 a2 a3 a4 s) := by
  unfold tcsRetransmitTimeoutFx
  repeat' first
    | with_reducible intro _
    | with_reducible assumption
    | with_reducible apply atTick_keeps
    | with_reducible apply tcsResend_keeps
    | with_reducible apply Keeps.ite
    | with_reducible apply Keeps.fold
    | with_reducible apply Keeps.same_id
    | (extract_lets +onlyGivenNames x; clear_value (hx : x = _); refine Keeps.via (s := s₀) hx ?_ (fun _ => ?_); clear hx)
    | with_reducible apply hk
    | split

theorem execTcsRetransmitTimeout_keeps {s₀ : State} (a1 : ℕ) (a2 : ℕ) (a3 : ℕ) (a4 : ℕ) (s : State) (h : Keeps s₀ s) :
    KeepsX s₀ (execTcsRetransmitTimeout a1 a2 a3 a4 s) := by
  unfold execTcsRetransmitTimeout
  repeat' first
    | with_reducible intro _
    | with_reducible assumption
    | with_reducible apply tcsRetransmitTimeoutFx_keeps
    | with_reducible apply Keeps.ite
    | with_reducible apply KeepsX.mk

theorem tcsSackTimerFx_keeps {s₀ : State} (a1 : ℕ) (a2 : ℕ) (a3 : ℕ) (s : State) (h : Keeps s₀ s) :
    Keeps s₀ (tcsSackTimerFx a1 a2 a3 s) := by
  unfold tcsSackTimerFx
  repeat' first
    | with_reducible intro _
    | with_reducible assumption
    | with_reducible apply atTick_keeps
    | with_reducible apply modQp_keeps
    | with_reducible apply sendSack_keeps
    | with_reducible apply Keeps.ite
    | with_reducible apply Keeps.fold
    | with_reducible apply Keeps.same_id
    | (extract_lets +onlyGivenNames x; clear_value (hx : x = _); refine Keeps.via (s := s₀) hx ?_ (fun _ => ?_); clear hx)
    | with_reducible apply hk
    | split

theorem execTcsSackTimer_keeps {s₀ : State} (a1 : ℕ) (a2 : ℕ) (a3 : ℕ) (s : State) (h : Keeps s₀ s) :
    KeepsX s₀ (execTcsSackTimer a1 a2 a3 s) := by
  unfold execTcsSackTimer
  repeat' first
    | with_reducible intro _
    | with_reducible assumption
    | with_reducible apply tcsSackTimerFx_keeps
    | with_reducible apply Keeps.ite
    | with_reducible apply KeepsX.mk

theorem areaWrite_keeps {s₀ : State} (a1 : ℕ) (a2 : Bytes) (s : State) (h : Keeps s₀ s) :
    Keeps s₀ (areaWrite a1 a2 s) := by
  unfold areaWrite
  repeat' first
    | with_reducible intro _
    | with_reducible assumption
    | with_reducible apply memStore_keeps

theorem boundDone_keeps {s₀ : State} (a1 : ℕ) (a2 : Pkt) (a3 : ℕ) (a4 : ℕ) (s : State) (h : Keeps s₀ s) :
    Keeps s₀ (boundDone a1 a2 a3 a4 s) := by
  unfold boundDone
  repeat' first
    | with_reducible intro _
    | with_reducible assumption
    | with_reducible apply bufferDone_keeps
    | with_reducible apply modQp_keeps
    | with_reducible apply Keeps.ite
    | with_reducible apply Keeps.fold
    | with_reducible apply Keeps.same_id
    | with_reducible apply hk
    | split

theorem bufferPlace_keeps {s₀ : State} (a1 : Posted) (a2 : Region) (a3 : Bytes) (s : State) (h : Keeps s₀ s) :
    Keeps s₀ (bufferPlace a1 a2 a3 s) := by
  unfold bufferPlace
  repeat' first
    | with_reducible intro _
    | with_reducible assumption
    | with_reducible apply areaWrite_keeps
    | with_reducible apply emit_keeps
    | with_reducible apply inputArrived_keeps
    | with_reducible apply Keeps.ite

theorem shaperReset_keeps {s₀ : State} (a1 : ℕ) (a2 : (Shaper → Shaper)) (s : State) (h : Keeps s₀ s) :
    Keeps s₀ (shaperReset a1 a2 s) := by
  unfold shaperReset
  repeat' first
    | with_reducible intro _
    | with_reducible assumption
    | with_reducible apply modShaper_keeps
    | with_reducible apply queueFrame_keeps
    | with_reducible apply Keeps.ite
    | with_reducible apply Keeps.fold

theorem setShaped_keeps {s₀ : State} (a1 : ℕ) (a2 : Bool) (s : State) (h : Keeps s₀ s) :
    Keeps s₀ (setShaped a1 a2 s) := by
  unfold setShaped
  repeat' first
    | with_reducible intro _
    | with_reducible assumption
    | with_reducible apply shaperReset_keeps

theorem modifyFields_keeps {s₀ : State} (a1 : ℕ) (a2 : Bytes) (a3 : Qp) (s : State) (h : Keeps s₀ s) :
    Keeps s₀ (modifyFields a1 a2 a3 s) := by
  unfold modifyFields
  repeat' first
    | with_reducible intro _
    | with_reducible assumption
    | with_reducible apply modQp_keeps
    | with_reducible apply setShaped_keeps
    | with_reducible apply Keeps.ite

theorem enterReset_keeps {s₀ : State} (a1 : ℕ) (s : State) (h : Keeps s₀ s) :
    Keeps s₀ (enterReset a1 s) := by
  unfold enterReset
  repeat' first
    | with_reducible intro _
    | with_reducible assumption
    | with_reducible apply afterHello_keeps
    | with_reducible apply framesGone_keeps
    | with_reducible apply modQp_keeps
    | with_reducible apply qpFlush_keeps
    | with_reducible apply Keeps.ite
    | with_reducible apply Keeps.fold
    | with_reducible apply Keeps.same_id
    | with_reducible apply hk
    | split

theorem selfHello_keeps {s₀ : State} (a1 : ℕ) (s : State) (h : Keeps s₀ s) :
    Keeps s₀ (selfHello a1 s) := by
  unfold selfHello
  repeat' first
    | with_reducible intro _
    | with_reducible assumption
    | with_reducible apply modQp_keeps
    | with_reducible apply sendMsgOn_keeps
    | with_reducible apply takeTag_keeps
    | with_reducible apply Keeps.ite
    | with_reducible apply Keeps.fold
    | with_reducible apply Keeps.same_id
    | with_reducible apply KeepsR.ite
    | with_reducible apply KeepsR.fold
    | with_reducible refine KeepsR.get (by assumption) ?_
    | (with_reducible apply KeepsR.snd; with_reducible apply takeTag_keeps)

theorem enterRts_keeps {s₀ : State} (a1 : ℕ) (s : State) (h : Keeps s₀ s) :
    Keeps s₀ (enterRts a1 s) := by
  unfold enterRts
  repeat' first
    | with_reducible intro _
    | with_reducible assumption
    | with_reducible apply modQp_keeps
    | with_reducible apply selfHello_keeps
    | with_reducible apply Keeps.ite
    | with_reducible apply Keeps.fold
    | with_reducible apply Keeps.same_id
    | (extract_lets +onlyGivenNames x; clear_value (hx : x = _); refine Keeps.via (s := s₀) hx ?_ (fun _ => ?_); clear hx)
    | with_reducible apply hk
    | split

theorem qpMove_keeps {s₀ : State} (a1 : ℕ) (a2 : ℕ) (a3 : Bytes) (a4 : Qp) (s : State) (h : Keeps s₀ s) :
    KeepsO s₀ (qpMove a1 a2 a3 a4 s) := by
  unfold qpMove
  repeat' first
    | with_reducible intro _
    | with_reducible assumption
    | with_reducible apply enterReset_keeps
    | with_reducible apply enterRts_keeps
    | with_reducible apply modQp_keeps
    | with_reducible apply qpError_keeps
    | with_reducible apply Keeps.ite
    | with_reducible apply Keeps.fold
    | with_reducible apply Keeps.same_id
    | with_reducible exact KeepsO.no
    | with_reducible apply KeepsO.mapS
    | with_reducible apply KeepsO.mapR
    | with_reducible apply KeepsO.map
    | with_reducible apply KeepsO.bindS
    | with_reducible apply KeepsO.bind
    | with_reducible apply KeepsO.getD
    | with_reducible apply KeepsO.ite
    | with_reducible apply KeepsO.mk
    | with_reducible refine KeepsO.get (by assumption) ?_
    | with_reducible apply hk
    | split

theorem modifyNow_keeps {s₀ : State} (a1 : Pkt) (s : State) (h : Keeps s₀ s) :
    Keeps s₀ (modifyNow a1 s) := by
  unfold modifyNow
  repeat' first
    | with_reducible intro _
    | with_reducible assumption
    | with_reducible apply fail_keeps
    | with_reducible apply modifyFields_keeps
    | with_reducible apply ok_keeps
    | with_reducible apply qpMove_keeps
    | with_reducible apply Keeps.ite
    | with_reducible apply Keeps.fold
    | with_reducible apply Keeps.same_id
    | with_reducible exact KeepsO.no
    | with_reducible apply KeepsO.mapS
    | with_reducible apply KeepsO.mapR
    | with_reducible apply KeepsO.map
    | with_reducible apply KeepsO.bindS
    | with_reducible apply KeepsO.bind
    | with_reducible apply KeepsO.getD
    | with_reducible apply KeepsO.ite
    | with_reducible apply KeepsO.mk
    | with_reducible refine KeepsO.get (by assumption) ?_
    | with_reducible apply hk
    | split

theorem shaperNow_keeps {s₀ : State} (a1 : Pkt) (s : State) (h : Keeps s₀ s) :
    Keeps s₀ (shaperNow a1 s) := by
  unfold shaperNow
  repeat' first
    | with_reducible intro _
    | with_reducible assumption
    | with_reducible apply fail_keeps
    | with_reducible apply modQp_keeps
    | with_reducible apply ok_keeps
    | with_reducible apply shaperReset_keeps
    | with_reducible apply Keeps.ite
    | with_reducible apply Keeps.fold
    | with_reducible apply Keeps.same_id
    | (extract_lets +onlyGivenNames x; clear_value x)
    | with_reducible apply hk
    | split

theorem contextCmd_keeps {s₀ : State} (a1 : ℕ × Pkt) (s : State) (h : Keeps s₀ s) :
    Keeps s₀ (contextCmd a1 s) := by
  unfold contextCmd
  repeat' first
    | with_reducible intro _
    | with_reducible assumption
    | with_reducible apply modifyNow_keeps
    | with_reducible apply shaperNow_keeps
    | with_reducible apply Keeps.ite

theorem createAct_keeps {s₀ : State} (a1 : Pkt) (s : State) (h : Keeps s₀ s) :
    Keeps s₀ (createAct a1 s) := by
  unfold createAct
  repeat' first
    | with_reducible intro _
    | with_reducible assumption
    | exact FabKeeps.mk fun _ h => h
    | with_reducible apply enterRts_keeps
    | with_reducible apply fail_keeps
    | with_reducible apply modFab_keeps
    | with_reducible apply needSlot_keeps
    | with_reducible apply ok_keeps
    | with_reducible apply setShaped_keeps
    | with_reducible apply Keeps.ite

theorem deregisterAct_keeps {s₀ : State} (a1 : Pkt) (s : State) (h : Keeps s₀ s) :
    Keeps s₀ (deregisterAct a1 s) := by
  unfold deregisterAct
  repeat' first
    | with_reducible intro _
    | with_reducible assumption
    | exact FabKeeps.mk fun _ h => h
    | with_reducible apply fail_keeps
    | with_reducible apply modFab_keeps
    | with_reducible apply ok_keeps
    | with_reducible apply Keeps.ite
    | with_reducible apply Keeps.fold
    | with_reducible apply Keeps.same_id
    | with_reducible apply hk
    | split

theorem qpGone_keeps {s₀ : State} (a1 : ℕ) (a2 : Qp) (s : State) (h : Keeps s₀ s) :
    Keeps s₀ (qpGone a1 a2 s) := by
  unfold qpGone
  repeat' first
    | with_reducible intro _
    | with_reducible assumption
    | exact FabKeeps.mk fun _ h => h
    | with_reducible apply afterHello_keeps
    | with_reducible apply fail_keeps
    | with_reducible apply framesGone_keeps
    | with_reducible apply modFab_keeps
    | with_reducible apply modSched_keeps
    | with_reducible apply qpFlush_keeps
    | with_reducible apply slotFreed_keeps
    | with_reducible apply winFree_keeps
    | with_reducible apply Keeps.ite
    | with_reducible apply Keeps.fold

theorem destroyAct_keeps {s₀ : State} (a1 : Pkt) (s : State) (h : Keeps s₀ s) :
    Keeps s₀ (destroyAct a1 s) := by
  unfold destroyAct
  repeat' first
    | with_reducible intro _
    | with_reducible assumption
    | with_reducible apply fail_keeps
    | with_reducible apply ok_keeps
    | with_reducible apply qpGone_keeps
    | with_reducible apply Keeps.ite
    | with_reducible apply Keeps.fold
    | with_reducible apply Keeps.same_id
    | with_reducible apply hk
    | split

theorem pdCreateAct_keeps {s₀ : State} (a1 : Pkt) (s : State) (h : Keeps s₀ s) :
    Keeps s₀ (pdCreateAct a1 s) := by
  unfold pdCreateAct
  repeat' first
    | with_reducible intro _
    | with_reducible assumption
    | exact FabKeeps.mk fun _ h => h
    | with_reducible apply fail_keeps
    | with_reducible apply modFab_keeps
    | with_reducible apply ok_keeps
    | with_reducible apply Keeps.ite

theorem pdCreateFx_keeps {s₀ : State} (a1 : Pkt) (s : State) (h : Keeps s₀ s) :
    Keeps s₀ (pdCreateFx a1 s) := by
  unfold pdCreateFx
  repeat' first
    | with_reducible intro _
    | with_reducible assumption
    | with_reducible apply orFormat_keeps
    | with_reducible apply pdCreateAct_keeps
    | with_reducible apply receive_keeps

theorem execPdCreate_keeps {s₀ : State} (a1 : Pkt) (s : State) (h : Keeps s₀ s) :
    KeepsX s₀ (execPdCreate a1 s) := by
  unfold execPdCreate
  repeat' first
    | with_reducible intro _
    | with_reducible assumption
    | with_reducible apply pdCreateFx_keeps
    | with_reducible apply Keeps.ite
    | with_reducible apply KeepsX.mk

theorem qpCreateFx_keeps {s₀ : State} (a1 : Pkt) (s : State) (h : Keeps s₀ s) :
    Keeps s₀ (qpCreateFx a1 s) := by
  unfold qpCreateFx
  repeat' first
    | with_reducible intro _
    | with_reducible assumption
    | with_reducible apply createAct_keeps
    | with_reducible apply orFormat_keeps
    | with_reducible apply receive_keeps

theorem execQpCreate_keeps {s₀ : State} (a1 : Pkt) (s : State) (h : Keeps s₀ s) :
    KeepsX s₀ (execQpCreate a1 s) := by
  unfold execQpCreate
  repeat' first
    | with_reducible intro _
    | with_reducible assumption
    | with_reducible apply qpCreateFx_keeps
    | with_reducible apply Keeps.ite
    | with_reducible apply KeepsX.mk

theorem qpDestroyFx_keeps {s₀ : State} (a1 : Pkt) (s : State) (h : Keeps s₀ s) :
    Keeps s₀ (qpDestroyFx a1 s) := by
  unfold qpDestroyFx
  repeat' first
    | with_reducible intro _
    | with_reducible assumption
    | with_reducible apply destroyAct_keeps
    | with_reducible apply orFormat_keeps
    | with_reducible apply receive_keeps

theorem execQpDestroy_keeps {s₀ : State} (a1 : Pkt) (s : State) (h : Keeps s₀ s) :
    KeepsX s₀ (execQpDestroy a1 s) := by
  unfold execQpDestroy
  repeat' first
    | with_reducible intro _
    | with_reducible assumption
    | with_reducible apply qpDestroyFx_keeps
    | with_reducible apply Keeps.ite
    | with_reducible apply KeepsX.mk

theorem onContext_keeps {s₀ : State} (a1 : ℕ × Pkt) (s : State) (h : Keeps s₀ s) :
    Keeps s₀ (onContext a1 s) := by
  unfold onContext
  repeat' first
    | with_reducible intro _
    | with_reducible assumption
    | with_reducible apply contextCmd_keeps
    | with_reducible apply fail_keeps
    | with_reducible apply modQp_keeps
    | with_reducible apply wakeQp_keeps
    | with_reducible apply Keeps.ite
    | with_reducible apply Keeps.fold
    | with_reducible apply Keeps.same_id
    | (extract_lets +onlyGivenNames x; clear_value (hx : x = _); refine Keeps.via (s := s₀) hx ?_ (fun _ => ?_); clear hx)
    | with_reducible apply hk
    | split

theorem qpModifyFx_keeps {s₀ : State} (a1 : Pkt) (s : State) (h : Keeps s₀ s) :
    Keeps s₀ (qpModifyFx a1 s) := by
  unfold qpModifyFx
  repeat' first
    | with_reducible intro _
    | with_reducible assumption
    | with_reducible apply onContext_keeps
    | with_reducible apply orFormat_keeps
    | with_reducible apply receive_keeps

theorem execQpModify_keeps {s₀ : State} (a1 : Pkt) (s : State) (h : Keeps s₀ s) :
    KeepsX s₀ (execQpModify a1 s) := by
  unfold execQpModify
  repeat' first
    | with_reducible intro _
    | with_reducible assumption
    | with_reducible apply qpModifyFx_keeps
    | with_reducible apply Keeps.ite
    | with_reducible apply KeepsX.mk

theorem parkedRun_keeps {s₀ : State} (a1 : ℕ) (s : State) (a3 : ParkedPkt) (h : Keeps s₀ s) :
    Keeps s₀ (parkedRun a1 s a3) := by
  unfold parkedRun
  repeat' first
    | with_reducible intro _
    | with_reducible assumption
    | with_reducible apply tclAccept_keeps
    | with_reducible apply tcsAccept_keeps
    | with_reducible apply Keeps.ite
    | with_reducible apply Keeps.fold
    | with_reducible apply Keeps.same_id
    | with_reducible apply hk
    | split

theorem waitedRun_keeps {s₀ : State} (a1 : ℕ) (a2 : Qp) (s : State) (h : Keeps s₀ s) :
    Keeps s₀ (waitedRun a1 a2 s) := by
  unfold waitedRun
  repeat' first
    | with_reducible intro _
    | with_reducible assumption
    | with_reducible apply contextCmd_keeps
    | with_reducible apply modQp_keeps
    | with_reducible apply Keeps.ite
    | with_reducible apply Keeps.fold

theorem qpcFetchCompleteFx_keeps {s₀ : State} (a1 : ℕ) (a2 : ℕ) (s : State) (h : Keeps s₀ s) :
    Keeps s₀ (qpcFetchCompleteFx a1 a2 s) := by
  unfold qpcFetchCompleteFx
  repeat' first
    | with_reducible intro _
    | with_reducible assumption
    | with_reducible apply atTick_keeps
    | with_reducible apply bump_keeps
    | with_reducible apply keepMax_keeps
    | with_reducible apply modQp_keeps
    | with_reducible apply parkedRun_keeps
    | with_reducible apply waitedRun_keeps
    | with_reducible apply winFree_keeps
    | with_reducible apply Keeps.ite
    | with_reducible apply Keeps.fold
    | with_reducible apply Keeps.same_id
    | (extract_lets +onlyGivenNames x; clear_value (hx : x = _); refine Keeps.via (s := s₀) hx ?_ (fun _ => ?_); clear hx)
    | with_reducible apply hk
    | split

theorem execQpcFetchComplete_keeps {s₀ : State} (a1 : ℕ) (a2 : ℕ) (s : State) (h : Keeps s₀ s) :
    KeepsX s₀ (execQpcFetchComplete a1 a2 s) := by
  unfold execQpcFetchComplete
  repeat' first
    | with_reducible intro _
    | with_reducible assumption
    | with_reducible apply qpcFetchCompleteFx_keeps
    | with_reducible apply Keeps.ite
    | with_reducible apply KeepsX.mk

theorem qpcFetchFailFx_keeps {s₀ : State} (a1 : ℕ) (a2 : ℕ) (s : State) (h : Keeps s₀ s) :
    Keeps s₀ (qpcFetchFailFx a1 a2 s) := by
  unfold qpcFetchFailFx
  repeat' first
    | with_reducible intro _
    | with_reducible assumption
    | with_reducible apply atTick_keeps
    | with_reducible apply bump_keeps
    | with_reducible apply hostPoison_keeps
    | with_reducible apply modQp_keeps
    | with_reducible apply qpError_keeps
    | with_reducible apply waitedRun_keeps
    | with_reducible apply winFree_keeps
    | with_reducible apply Keeps.ite
    | with_reducible apply Keeps.fold
    | with_reducible apply Keeps.same_id
    | (extract_lets +onlyGivenNames x; clear_value (hx : x = _); refine Keeps.via (s := s₀) hx ?_ (fun _ => ?_); clear hx)
    | with_reducible apply hk
    | split

theorem execQpcFetchFail_keeps {s₀ : State} (a1 : ℕ) (a2 : ℕ) (s : State) (h : Keeps s₀ s) :
    KeepsX s₀ (execQpcFetchFail a1 a2 s) := by
  unfold execQpcFetchFail
  repeat' first
    | with_reducible intro _
    | with_reducible assumption
    | with_reducible apply qpcFetchFailFx_keeps
    | with_reducible apply Keeps.ite
    | with_reducible apply KeepsX.mk

theorem recvAct_keeps {s₀ : State} (a1 : Pkt) (s : State) (h : Keeps s₀ s) :
    Keeps s₀ (recvAct a1 s) := by
  unfold recvAct
  repeat' first
    | with_reducible intro _
    | with_reducible assumption
    | with_reducible apply fail_keeps
    | with_reducible apply modQp_keeps
    | with_reducible apply ok_keeps
    | with_reducible apply wakeQp_keeps
    | with_reducible apply Keeps.ite
    | with_reducible apply Keeps.fold
    | with_reducible apply Keeps.same_id
    | (extract_lets +onlyGivenNames x; clear_value x)
    | with_reducible apply hk
    | split

theorem recvPostFx_keeps {s₀ : State} (a1 : Pkt) (s : State) (h : Keeps s₀ s) :
    Keeps s₀ (recvPostFx a1 s) := by
  unfold recvPostFx
  repeat' first
    | with_reducible intro _
    | with_reducible assumption
    | with_reducible apply orFormat_keeps
    | with_reducible apply receive_keeps
    | with_reducible apply recvAct_keeps

theorem execRecvPost_keeps {s₀ : State} (a1 : Pkt) (s : State) (h : Keeps s₀ s) :
    KeepsX s₀ (execRecvPost a1 s) := by
  unfold execRecvPost
  repeat' first
    | with_reducible intro _
    | with_reducible assumption
    | with_reducible apply recvPostFx_keeps
    | with_reducible apply Keeps.ite
    | with_reducible apply KeepsX.mk

theorem regionDeregisterFx_keeps {s₀ : State} (a1 : Pkt) (s : State) (h : Keeps s₀ s) :
    Keeps s₀ (regionDeregisterFx a1 s) := by
  unfold regionDeregisterFx
  repeat' first
    | with_reducible intro _
    | with_reducible assumption
    | with_reducible apply deregisterAct_keeps
    | with_reducible apply orFormat_keeps
    | with_reducible apply receive_keeps

theorem execRegionDeregister_keeps {s₀ : State} (a1 : Pkt) (s : State) (h : Keeps s₀ s) :
    KeepsX s₀ (execRegionDeregister a1 s) := by
  unfold execRegionDeregister
  repeat' first
    | with_reducible intro _
    | with_reducible assumption
    | with_reducible apply regionDeregisterFx_keeps
    | with_reducible apply Keeps.ite
    | with_reducible apply KeepsX.mk

theorem regionPut_keeps {s₀ : State} (a1 : ℕ) (a2 : Region) (s : State) (h : Keeps s₀ s) :
    Keeps s₀ (regionPut a1 a2 s) := by
  unfold regionPut
  repeat' first
    | with_reducible intro _
    | with_reducible assumption
    | exact FabKeeps.mk fun _ h => h
    | with_reducible apply modFab_keeps

theorem registerAct_keeps {s₀ : State} (a1 : Pkt) (s : State) (h : Keeps s₀ s) :
    Keeps s₀ (registerAct a1 s) := by
  unfold registerAct
  repeat' first
    | with_reducible intro _
    | with_reducible assumption
    | with_reducible apply fail_keeps
    | with_reducible apply ok_keeps
    | with_reducible apply regionPut_keeps
    | with_reducible apply Keeps.ite
    | with_reducible apply Keeps.fold
    | with_reducible apply Keeps.same_id
    | with_reducible apply hk
    | split

theorem regionRegisterFx_keeps {s₀ : State} (a1 : Pkt) (s : State) (h : Keeps s₀ s) :
    Keeps s₀ (regionRegisterFx a1 s) := by
  unfold regionRegisterFx
  repeat' first
    | with_reducible intro _
    | with_reducible assumption
    | with_reducible apply orFormat_keeps
    | with_reducible apply receive_keeps
    | with_reducible apply registerAct_keeps

theorem execRegionRegister_keeps {s₀ : State} (a1 : Pkt) (s : State) (h : Keeps s₀ s) :
    KeepsX s₀ (execRegionRegister a1 s) := by
  unfold execRegionRegister
  repeat' first
    | with_reducible intro _
    | with_reducible assumption
    | with_reducible apply regionRegisterFx_keeps
    | with_reducible apply Keeps.ite
    | with_reducible apply KeepsX.mk

theorem schShaperFx_keeps {s₀ : State} (a1 : Pkt) (s : State) (h : Keeps s₀ s) :
    Keeps s₀ (schShaperFx a1 s) := by
  unfold schShaperFx
  repeat' first
    | with_reducible intro _
    | with_reducible assumption
    | with_reducible apply onContext_keeps
    | with_reducible apply orFormat_keeps
    | with_reducible apply receive_keeps

theorem execSchShaper_keeps {s₀ : State} (a1 : Pkt) (s : State) (h : Keeps s₀ s) :
    KeepsX s₀ (execSchShaper a1 s) := by
  unfold execSchShaper
  repeat' first
    | with_reducible intro _
    | with_reducible assumption
    | with_reducible apply schShaperFx_keeps
    | with_reducible apply Keeps.ite
    | with_reducible apply KeepsX.mk

theorem sendAct_keeps {s₀ : State} (a1 : Pkt) (s : State) (h : Keeps s₀ s) :
    Keeps s₀ (sendAct a1 s) := by
  unfold sendAct
  repeat' first
    | with_reducible intro _
    | with_reducible assumption
    | with_reducible apply boundDone_keeps
    | with_reducible apply bufferPlace_keeps
    | with_reducible apply fail_keeps
    | with_reducible apply ok_keeps
    | with_reducible apply Keeps.ite
    | with_reducible apply Keeps.fold
    | with_reducible apply Keeps.same_id
    | with_reducible apply hk
    | split

theorem sendMsgFx_keeps {s₀ : State} (a1 : Pkt) (s : State) (h : Keeps s₀ s) :
    Keeps s₀ (sendMsgFx a1 s) := by
  unfold sendMsgFx
  repeat' first
    | with_reducible intro _
    | with_reducible assumption
    | with_reducible apply atTick_keeps
    | with_reducible apply boundDone_keeps
    | with_reducible apply orFormat_keeps
    | with_reducible apply receive_keeps
    | with_reducible apply sendAct_keeps
    | with_reducible apply Keeps.ite
    | with_reducible apply Keeps.fold
    | with_reducible apply Keeps.same_id
    | with_reducible apply hk
    | split

theorem execSendMsg_keeps {s₀ : State} (a1 : Pkt) (s : State) (h : Keeps s₀ s) :
    KeepsX s₀ (execSendMsg a1 s) := by
  unfold execSendMsg
  repeat' first
    | with_reducible intro _
    | with_reducible assumption
    | with_reducible apply sendMsgFx_keeps
    | with_reducible apply Keeps.ite
    | with_reducible apply KeepsX.mk

theorem sysCapsFx_keeps {s₀ : State} (a1 : Pkt) (s : State) (h : Keeps s₀ s) :
    Keeps s₀ (sysCapsFx a1 s) := by
  unfold sysCapsFx
  repeat' first
    | with_reducible intro _
    | with_reducible assumption
    | with_reducible apply orFormat_keeps
    | with_reducible apply receive_keeps
    | with_reducible apply respond_keeps

theorem execSysCaps_keeps {s₀ : State} (a1 : Pkt) (s : State) (h : Keeps s₀ s) :
    KeepsX s₀ (execSysCaps a1 s) := by
  unfold execSysCaps
  repeat' first
    | with_reducible intro _
    | with_reducible assumption
    | with_reducible apply sysCapsFx_keeps
    | with_reducible apply Keeps.ite
    | with_reducible apply KeepsX.mk

theorem helloOnQp_keeps {s₀ : State} (a1 : ℕ) (a2 : Pkt) (s : State) (h : Keeps s₀ s) :
    Keeps s₀ (helloOnQp a1 a2 s) := by
  unfold helloOnQp
  repeat' first
    | with_reducible intro _
    | with_reducible assumption
    | with_reducible apply afterHello_keeps
    | with_reducible apply fail_keeps
    | with_reducible apply modQp_keeps
    | with_reducible apply ok_keeps
    | with_reducible apply qpError_keeps
    | with_reducible apply Keeps.ite
    | with_reducible apply Keeps.fold
    | with_reducible apply Keeps.same_id
    | with_reducible apply hk
    | split

theorem helloAct_keeps {s₀ : State} (a1 : Pkt) (s : State) (h : Keeps s₀ s) :
    Keeps s₀ (helloAct a1 s) := by
  unfold helloAct
  repeat' first
    | with_reducible intro _
    | with_reducible assumption
    | with_reducible apply fail_keeps
    | with_reducible apply helloOnQp_keeps
    | with_reducible apply ok_keeps
    | with_reducible apply Keeps.ite
    | with_reducible apply Keeps.fold
    | with_reducible apply Keeps.same_id
    | with_reducible apply hk
    | split

theorem sysHelloFx_keeps {s₀ : State} (a1 : Pkt) (s : State) (h : Keeps s₀ s) :
    Keeps s₀ (sysHelloFx a1 s) := by
  unfold sysHelloFx
  repeat' first
    | with_reducible intro _
    | with_reducible assumption
    | with_reducible apply helloAct_keeps
    | with_reducible apply orFormat_keeps
    | with_reducible apply receive_keeps

theorem execSysHello_keeps {s₀ : State} (a1 : Pkt) (s : State) (h : Keeps s₀ s) :
    KeepsX s₀ (execSysHello a1 s) := by
  unfold execSysHello
  repeat' first
    | with_reducible intro _
    | with_reducible assumption
    | with_reducible apply sysHelloFx_keeps
    | with_reducible apply Keeps.ite
    | with_reducible apply KeepsX.mk

end Sys2Proof.Machine
end

