-- ==== Sys2Proof/Laws/KeepsUnits.lean ====
section
/-! SUPPORT. What every operation keeps (`Keeps`): trust, the host interface, power, memory tiers and cores. -/

set_option linter.all false

namespace Sys2Proof.Machine

theorem attestSign_keeps {s₀ : State} (a1 : Pkt) (s : State) (h : Keeps s₀ s) :
    Keeps s₀ (attestSign a1 s) := by
  unfold attestSign
  repeat' first
    | with_reducible intro _
    | with_reducible assumption
    | exact DevKeeps.mk fun _ h => h
    | with_reducible apply bump_keeps
    | with_reducible apply modDev_keeps
    | with_reducible apply modFlash_keeps
    | with_reducible apply respond_keeps

theorem failReason_keeps {s₀ : State} (a1 : ℕ) (a2 : Pkt) (a3 : ℕ) (a4 : ℕ) (s : State) (h : Keeps s₀ s) :
    Keeps s₀ (failReason a1 a2 a3 a4 s) := by
  unfold failReason
  repeat' first
    | with_reducible intro _
    | with_reducible assumption
    | with_reducible apply answer_keeps
    | with_reducible apply takeFree_keeps
    | with_reducible apply Keeps.ite
    | with_reducible apply Keeps.fold
    | with_reducible apply Keeps.same_id
    | with_reducible apply KeepsR.ite
    | with_reducible apply KeepsR.fold
    | with_reducible refine KeepsR.get (by assumption) ?_
    | (with_reducible apply KeepsR.snd; with_reducible apply takeFree_keeps)

theorem attestTree_keeps {s₀ : State} (a1 : Pkt) (a2 : ℕ) (s : State) (h : Keeps s₀ s) :
    Keeps s₀ (attestTree a1 a2 s) := by
  unfold attestTree
  repeat' first
    | with_reducible intro _
    | with_reducible assumption
    | exact DevKeeps.mk fun _ h => h
    | with_reducible apply failReason_keeps
    | with_reducible apply modDev_keeps
    | with_reducible apply modFlash_keeps
    | with_reducible apply regPut_keeps
    | with_reducible apply Keeps.ite

theorem attestAct_keeps {s₀ : State} (a1 : Pkt) (s : State) (h : Keeps s₀ s) :
    Keeps s₀ (attestAct a1 s) := by
  unfold attestAct
  repeat' first
    | with_reducible intro _
    | with_reducible assumption
    | with_reducible apply attestSign_keeps
    | with_reducible apply attestTree_keeps
    | with_reducible apply bump_keeps
    | with_reducible apply failReason_keeps
    | with_reducible apply Keeps.ite

theorem bottomTreeGeneratedFx_keeps {s₀ : State} (a1 : ℕ) (s : State) (h : Keeps s₀ s) :
    Keeps s₀ (bottomTreeGeneratedFx a1 s) := by
  unfold bottomTreeGeneratedFx
  repeat' first
    | with_reducible intro _
    | with_reducible assumption
    | exact DevKeeps.mk fun _ h => h
    | with_reducible apply atTick_keeps
    | with_reducible apply attestSign_keeps
    | with_reducible apply modDev_keeps
    | with_reducible apply modFlash_keeps
    | with_reducible apply Keeps.ite
    | with_reducible apply Keeps.fold
    | with_reducible apply Keeps.same_id
    | (extract_lets +onlyGivenNames x; clear_value (hx : x = _); refine Keeps.via (s := s₀) hx ?_ (fun _ => ?_); clear hx)
    | (extract_lets +onlyGivenNames x; clear_value x)
    | with_reducible apply hk
    | split

theorem flashFree_keeps {s₀ : State} (s : State) (h : Keeps s₀ s) :
    Keeps s₀ (flashFree s) := by
  unfold flashFree
  repeat' first
    | with_reducible intro _
    | with_reducible assumption
    | with_reducible apply modFlash_keeps

theorem flashTake_keeps {s₀ : State} (a1 : FlashJob) (a2 : Pkt) (s : State) (h : Keeps s₀ s) :
    Keeps s₀ (flashTake a1 a2 s) := by
  unfold flashTake
  repeat' first
    | with_reducible intro _
    | with_reducible assumption
    | with_reducible apply modFlash_keeps

theorem cfgDone_keeps {s₀ : State} (a1 : Bool) (a2 : Bytes) (a3 : Bool) (a4 : Bool) (a5 : Pkt) (s : State) (h : Keeps s₀ s) :
    Keeps s₀ (cfgDone a1 a2 a3 a4 a5 s) := by
  unfold cfgDone
  repeat' first
    | with_reducible intro _
    | with_reducible assumption
    | with_reducible apply fail_keeps
    | with_reducible apply flashFree_keeps
    | with_reducible apply flashTake_keeps
    | with_reducible apply modFlash_keeps
    | with_reducible apply ok_keeps
    | with_reducible apply Keeps.ite

theorem cfgReadFx_keeps {s₀ : State} (a1 : Pkt) (s : State) (h : Keeps s₀ s) :
    Keeps s₀ (cfgReadFx a1 s) := by
  unfold cfgReadFx
  repeat' first
    | with_reducible intro _
    | with_reducible assumption
    | with_reducible apply orFormat_keeps
    | with_reducible apply receive_keeps
    | with_reducible apply respond_keeps

theorem cfgWriteAct_keeps {s₀ : State} (a1 : Pkt) (s : State) (h : Keeps s₀ s) :
    Keeps s₀ (cfgWriteAct a1 s) := by
  unfold cfgWriteAct
  repeat' first
    | with_reducible intro _
    | with_reducible assumption
    | with_reducible apply fail_keeps
    | with_reducible apply flashTake_keeps
    | with_reducible apply modFlash_keeps
    | with_reducible apply Keeps.ite

theorem cfgWriteFx_keeps {s₀ : State} (a1 : Pkt) (s : State) (h : Keeps s₀ s) :
    Keeps s₀ (cfgWriteFx a1 s) := by
  unfold cfgWriteFx
  repeat' first
    | with_reducible intro _
    | with_reducible assumption
    | with_reducible apply cfgWriteAct_keeps
    | with_reducible apply orFormat_keeps
    | with_reducible apply receive_keeps

theorem commitAct_keeps {s₀ : State} (a1 : Pkt) (s : State) (h : Keeps s₀ s) :
    Keeps s₀ (commitAct a1 s) := by
  unfold commitAct
  repeat' first
    | with_reducible intro _
    | with_reducible assumption
    | with_reducible apply fail_keeps
    | with_reducible apply flashTake_keeps
    | with_reducible apply Keeps.ite

theorem commitDone_keeps {s₀ : State} (a1 : List ℕ) (a2 : Bool) (a3 : Pkt) (s : State) (h : Keeps s₀ s) :
    Keeps s₀ (commitDone a1 a2 a3 s) := by
  unfold commitDone
  repeat' first
    | with_reducible intro _
    | with_reducible assumption
    | with_reducible apply fail_keeps
    | with_reducible apply flashFree_keeps
    | with_reducible apply modFlash_keeps
    | with_reducible apply ok_keeps
    | with_reducible apply Keeps.ite

theorem execBottomTreeGenerated_keeps {s₀ : State} (a1 : ℕ) (s : State) (h : Keeps s₀ s) :
    KeepsX s₀ (execBottomTreeGenerated a1 s) := by
  unfold execBottomTreeGenerated
  repeat' first
    | with_reducible intro _
    | with_reducible assumption
    | with_reducible apply bottomTreeGeneratedFx_keeps
    | with_reducible apply Keeps.ite
    | with_reducible apply KeepsX.mk

theorem execCfgRead_keeps {s₀ : State} (a1 : Pkt) (s : State) (h : Keeps s₀ s) :
    KeepsX s₀ (execCfgRead a1 s) := by
  unfold execCfgRead
  repeat' first
    | with_reducible intro _
    | with_reducible assumption
    | with_reducible apply cfgReadFx_keeps
    | with_reducible apply Keeps.ite
    | with_reducible apply KeepsX.mk

theorem execCfgWrite_keeps {s₀ : State} (a1 : Pkt) (s : State) (h : Keeps s₀ s) :
    KeepsX s₀ (execCfgWrite a1 s) := by
  unfold execCfgWrite
  repeat' first
    | with_reducible intro _
    | with_reducible assumption
    | with_reducible apply cfgWriteFx_keeps
    | with_reducible apply Keeps.ite
    | with_reducible apply KeepsX.mk

theorem flashScrubTickFx_keeps {s₀ : State} (a1 : ℕ) (s : State) (h : Keeps s₀ s) :
    Keeps s₀ (flashScrubTickFx a1 s) := by
  unfold flashScrubTickFx
  repeat' first
    | with_reducible intro _
    | with_reducible assumption
    | exact DevKeeps.mk fun _ h => h
    | with_reducible apply atTick_keeps
    | with_reducible apply modDev_keeps
    | with_reducible apply Keeps.ite

theorem execFlashScrubTick_keeps {s₀ : State} (a1 : ℕ) (s : State) (h : Keeps s₀ s) :
    KeepsX s₀ (execFlashScrubTick a1 s) := by
  unfold execFlashScrubTick
  repeat' first
    | with_reducible intro _
    | with_reducible assumption
    | with_reducible apply flashScrubTickFx_keeps
    | with_reducible apply Keeps.ite
    | with_reducible apply KeepsX.mk

theorem licDone_keeps {s₀ : State} (a1 : ℕ) (a2 : Bytes) (a3 : Bool) (a4 : Pkt) (s : State) (h : Keeps s₀ s) :
    Keeps s₀ (licDone a1 a2 a3 a4 s) := by
  unfold licDone
  repeat' first
    | with_reducible intro _
    | with_reducible assumption
    | exact DevKeeps.mk fun _ h => h
    | with_reducible apply fail_keeps
    | with_reducible apply flashFree_keeps
    | with_reducible apply modDev_keeps
    | with_reducible apply modFlash_keeps
    | with_reducible apply ok_keeps
    | with_reducible apply Keeps.ite

theorem stageDone_keeps {s₀ : State} (a1 : ℕ) (a2 : Bytes) (a3 : Bool) (a4 : Pkt) (s : State) (h : Keeps s₀ s) :
    Keeps s₀ (stageDone a1 a2 a3 a4 s) := by
  unfold stageDone
  repeat' first
    | with_reducible intro _
    | with_reducible assumption
    | with_reducible apply fail_keeps
    | with_reducible apply flashFree_keeps
    | with_reducible apply modFlash_keeps
    | with_reducible apply ok_keeps
    | with_reducible apply Keeps.ite

theorem flashDone_keeps {s₀ : State} (a1 : Bool) (s : State) (h : Keeps s₀ s) :
    Keeps s₀ (flashDone a1 s) := by
  unfold flashDone
  repeat' first
    | with_reducible intro _
    | with_reducible assumption
    | with_reducible apply cfgDone_keeps
    | with_reducible apply commitDone_keeps
    | with_reducible apply licDone_keeps
    | with_reducible apply stageDone_keeps
    | with_reducible apply Keeps.ite
    | with_reducible apply Keeps.fold
    | with_reducible apply Keeps.same_id
    | with_reducible apply hk
    | split

theorem flashWriteCompleteFx_keeps {s₀ : State} (a1 : ℕ) (a2 : Bool) (s : State) (h : Keeps s₀ s) :
    Keeps s₀ (flashWriteCompleteFx a1 a2 s) := by
  unfold flashWriteCompleteFx
  repeat' first
    | with_reducible intro _
    | with_reducible assumption
    | with_reducible apply atTick_keeps
    | with_reducible apply flashDone_keeps
    | with_reducible apply Keeps.ite

theorem execFlashWriteComplete_keeps {s₀ : State} (a1 : ℕ) (a2 : Bool) (s : State) (h : Keeps s₀ s) :
    KeepsX s₀ (execFlashWriteComplete a1 a2 s) := by
  unfold execFlashWriteComplete
  repeat' first
    | with_reducible intro _
    | with_reducible assumption
    | with_reducible apply flashWriteCompleteFx_keeps
    | with_reducible apply Keeps.ite
    | with_reducible apply KeepsX.mk

theorem fwCommitFx_keeps {s₀ : State} (a1 : Pkt) (s : State) (h : Keeps s₀ s) :
    Keeps s₀ (fwCommitFx a1 s) := by
  unfold fwCommitFx
  repeat' first
    | with_reducible intro _
    | with_reducible assumption
    | with_reducible apply atTick_keeps
    | with_reducible apply commitAct_keeps
    | with_reducible apply orFormat_keeps
    | with_reducible apply receive_keeps
    | with_reducible apply Keeps.ite

theorem execFwCommit_keeps {s₀ : State} (a1 : Pkt) (s : State) (h : Keeps s₀ s) :
    KeepsX s₀ (execFwCommit a1 s) := by
  unfold execFwCommit
  repeat' first
    | with_reducible intro _
    | with_reducible assumption
    | with_reducible apply fwCommitFx_keeps
    | with_reducible apply Keeps.ite
    | with_reducible apply KeepsX.mk

theorem stagePlace_keeps {s₀ : State} (a1 : ℕ) (a2 : List (ℕ × Bytes)) (a3 : Option ℕ) (a4 : Pkt) (a5 : Pkt) (s : State) (h : Keeps s₀ s) :
    Keeps s₀ (stagePlace a1 a2 a3 a4 a5 s) := by
  unfold stagePlace
  repeat' first
    | with_reducible intro _
    | with_reducible assumption
    | with_reducible apply flashTake_keeps
    | with_reducible apply ok_keeps
    | with_reducible apply pend_keeps
    | with_reducible apply Keeps.ite
    | with_reducible apply Keeps.fold
    | with_reducible apply Keeps.same_id
    | (extract_lets +onlyGivenNames x; clear_value x)
    | with_reducible apply hk
    | split

theorem stageAct_keeps {s₀ : State} (a1 : Pkt) (s : State) (h : Keeps s₀ s) :
    Keeps s₀ (stageAct a1 s) := by
  unfold stageAct
  repeat' first
    | with_reducible intro _
    | with_reducible assumption
    | with_reducible apply failMsg_keeps
    | with_reducible apply modFlash_keeps
    | with_reducible apply stagePlace_keeps
    | with_reducible apply Keeps.ite
    | with_reducible apply Keeps.fold
    | with_reducible apply Keeps.same_id
    | (extract_lets +onlyGivenNames x; clear_value x)
    | with_reducible apply hk
    | split

theorem stageDrop_keeps {s₀ : State} (a1 : Pkt) (s : State) (s2 : State) (h : Keeps s₀ s) (h2 : Keeps s₀ s2) :
    Keeps s₀ (stageDrop a1 s s2) := by
  unfold stageDrop
  repeat' first
    | with_reducible intro _
    | with_reducible assumption
    | with_reducible apply flashFree_keeps
    | with_reducible apply Keeps.ite
    | with_reducible apply Keeps.fold
    | with_reducible apply Keeps.same_id
    | with_reducible apply hk
    | split

theorem fwStageFx_keeps {s₀ : State} (a1 : Pkt) (s : State) (h : Keeps s₀ s) :
    Keeps s₀ (fwStageFx a1 s) := by
  unfold fwStageFx
  repeat' first
    | with_reducible intro _
    | with_reducible assumption
    | with_reducible apply atTick_keeps
    | with_reducible apply receive_keeps
    | with_reducible apply stageAct_keeps
    | with_reducible apply stageDrop_keeps
    | with_reducible apply Keeps.ite

theorem execFwStage_keeps {s₀ : State} (a1 : Pkt) (s : State) (h : Keeps s₀ s) :
    KeepsX s₀ (execFwStage a1 s) := by
  unfold execFwStage
  repeat' first
    | with_reducible intro _
    | with_reducible assumption
    | with_reducible apply fwStageFx_keeps
    | with_reducible apply Keeps.ite
    | with_reducible apply KeepsX.mk

theorem licAct_keeps {s₀ : State} (a1 : Pkt) (s : State) (h : Keeps s₀ s) :
    Keeps s₀ (licAct a1 s) := by
  unfold licAct
  repeat' first
    | with_reducible intro _
    | with_reducible assumption
    | with_reducible apply fail_keeps
    | with_reducible apply flashTake_keeps
    | with_reducible apply Keeps.ite
    | with_reducible apply Keeps.fold
    | with_reducible apply Keeps.same_id
    | with_reducible apply hk
    | split

theorem licInstallFx_keeps {s₀ : State} (a1 : Pkt) (s : State) (h : Keeps s₀ s) :
    Keeps s₀ (licInstallFx a1 s) := by
  unfold licInstallFx
  repeat' first
    | with_reducible intro _
    | with_reducible assumption
    | with_reducible apply licAct_keeps
    | with_reducible apply orFormat_keeps
    | with_reducible apply receive_keeps

theorem execLicInstall_keeps {s₀ : State} (a1 : Pkt) (s : State) (h : Keeps s₀ s) :
    KeepsX s₀ (execLicInstall a1 s) := by
  unfold execLicInstall
  repeat' first
    | with_reducible intro _
    | with_reducible assumption
    | with_reducible apply licInstallFx_keeps
    | with_reducible apply Keeps.ite
    | with_reducible apply KeepsX.mk

theorem secAttestFx_keeps {s₀ : State} (a1 : Pkt) (s : State) (h : Keeps s₀ s) :
    Keeps s₀ (secAttestFx a1 s) := by
  unfold secAttestFx
  repeat' first
    | with_reducible intro _
    | with_reducible assumption
    | with_reducible apply attestAct_keeps
    | with_reducible apply orFormat_keeps
    | with_reducible apply receive_keeps

theorem execSecAttest_keeps {s₀ : State} (a1 : Pkt) (s : State) (h : Keeps s₀ s) :
    KeepsX s₀ (execSecAttest a1 s) := by
  unfold execSecAttest
  repeat' first
    | with_reducible intro _
    | with_reducible assumption
    | with_reducible apply secAttestFx_keeps
    | with_reducible apply Keeps.ite
    | with_reducible apply KeepsX.mk

theorem telemetryTickFx_keeps {s₀ : State} (a1 : ℕ) (s : State) (h : Keeps s₀ s) :
    Keeps s₀ (telemetryTickFx a1 s) := by
  unfold telemetryTickFx
  repeat' first
    | with_reducible intro _
    | with_reducible assumption
    | exact DevKeeps.mk fun _ h => h
    | with_reducible apply atTick_keeps
    | with_reducible apply emit_keeps
    | with_reducible apply modDev_keeps
    | with_reducible apply Keeps.ite
    | with_reducible apply Keeps.fold

theorem execTelemetryTick_keeps {s₀ : State} (a1 : ℕ) (s : State) (h : Keeps s₀ s) :
    KeepsX s₀ (execTelemetryTick a1 s) := by
  unfold execTelemetryTick
  repeat' first
    | with_reducible intro _
    | with_reducible assumption
    | with_reducible apply telemetryTickFx_keeps
    | with_reducible apply Keeps.ite
    | with_reducible apply KeepsX.mk

theorem drainAll_keeps {s₀ : State} (s : State) (h : Keeps s₀ s) :
    Keeps s₀ (drainAll s) := by
  unfold drainAll
  repeat' first
    | with_reducible intro _
    | with_reducible assumption
    | with_reducible apply cqDrain_keeps
    | with_reducible apply Keeps.ite
    | with_reducible apply Keeps.fold

theorem flrCompleteFx_keeps {s₀ : State} (a1 : ℕ) (s : State) (h : Keeps s₀ s) :
    Keeps s₀ (flrCompleteFx a1 s) := by
  unfold flrCompleteFx
  repeat' first
    | with_reducible intro _
    | with_reducible assumption
    | with_reducible apply bump_keeps
    | with_reducible apply modPcie_keeps
    | with_reducible apply Keeps.ite

theorem execFlrComplete_keeps {s₀ : State} (a1 : ℕ) (s : State) (h : Keeps s₀ s) :
    KeepsX s₀ (execFlrComplete a1 s) := by
  unfold execFlrComplete
  repeat' first
    | with_reducible intro _
    | with_reducible assumption
    | with_reducible apply flrCompleteFx_keeps
    | with_reducible apply Keeps.ite
    | with_reducible apply KeepsX.mk

theorem ringRegsReset_keeps {s₀ : State} (a1 : (ℕ → Bool)) (s : State) (h : Keeps s₀ s) :
    Keeps s₀ (ringRegsReset a1 s) := by
  unfold ringRegsReset
  repeat' first
    | with_reducible intro _
    | with_reducible assumption
    | with_reducible apply resetRegs_keeps

theorem ringsReset_keeps {s₀ : State} (a1 : (ℕ → Bool)) (s : State) (h : Keeps s₀ s) :
    Keeps s₀ (ringsReset a1 s) := by
  unfold ringsReset
  repeat' first
    | with_reducible intro _
    | with_reducible assumption
    | with_reducible apply cqDisableFx_keeps
    | with_reducible apply sqDisableFx_keeps
    | with_reducible apply Keeps.ite
    | with_reducible apply Keeps.fold
    | with_reducible apply Keeps.same_id
    | (extract_lets +onlyGivenNames x; clear_value (hx : x = _); refine Keeps.via (s := s₀) hx ?_ (fun _ => ?_); clear hx)
    | with_reducible apply hk
    | split
    | with_reducible apply Keeps.upd

theorem vfSet_keeps {s₀ : State} (a1 : Bool) (a2 : ℕ) (s : State) (h : Keeps s₀ s) :
    Keeps s₀ (vfSet a1 a2 s) := by
  unfold vfSet
  repeat' first
    | with_reducible intro _
    | with_reducible assumption
    | with_reducible apply modPcie_keeps
    | with_reducible apply ringRegsReset_keeps
    | with_reducible apply ringsReset_keeps

theorem windowObjectLost_keeps {s₀ : State} (s : State) (a2 : WinUse) (h : Keeps s₀ s) :
    Keeps s₀ (windowObjectLost s a2) := by
  unfold windowObjectLost
  repeat' first
    | with_reducible intro _
    | with_reducible assumption
    | with_reducible apply evictAbandon_keeps
    | with_reducible apply loseSoon_keeps
    | with_reducible apply modBerth_keeps
    | with_reducible apply qpError_keeps
    | with_reducible apply qpcFetchFailFx_keeps
    | with_reducible apply snapGone_keeps
    | with_reducible apply swapAnswer_keeps
    | with_reducible apply swapInCompleteFx_keeps
    | with_reducible apply winFree_keeps
    | with_reducible apply Keeps.ite
    | with_reducible apply Keeps.fold
    | with_reducible apply Keeps.same_id
    | (extract_lets +onlyGivenNames x; clear_value (hx : x = _); refine Keeps.via (s := s₀) hx ?_ (fun _ => ?_); clear hx)
    | with_reducible apply hk
    | split

theorem flrFx_keeps {s₀ : State} (a1 : ℕ) (s : State) (h : Keeps s₀ s) :
    Keeps s₀ (flrFx a1 s) := by
  unfold flrFx
  repeat' first
    | with_reducible intro _
    | with_reducible assumption
    | with_reducible apply modPcie_keeps
    | with_reducible apply qpError_keeps
    | with_reducible apply resetRegs_keeps
    | with_reducible apply ringRegsReset_keeps
    | with_reducible apply ringsReset_keeps
    | with_reducible apply settle_keeps
    | with_reducible apply vfSet_keeps
    | with_reducible apply windowObjectLost_keeps
    | with_reducible apply Keeps.ite
    | with_reducible apply Keeps.fold

theorem functionLevelResetFx_keeps {s₀ : State} (a1 : ℕ) (a2 : ℕ) (s : State) (h : Keeps s₀ s) :
    Keeps s₀ (functionLevelResetFx a1 a2 s) := by
  unfold functionLevelResetFx
  repeat' first
    | with_reducible intro _
    | with_reducible assumption
    | with_reducible apply atTick_keeps
    | with_reducible apply flrFx_keeps
    | with_reducible apply Keeps.ite

theorem execFunctionLevelReset_keeps {s₀ : State} (a1 : ℕ) (a2 : ℕ) (s : State) (h : Keeps s₀ s) :
    KeepsX s₀ (execFunctionLevelReset a1 a2 s) := by
  unfold execFunctionLevelReset
  repeat' first
    | with_reducible intro _
    | with_reducible assumption
    | with_reducible apply functionLevelResetFx_keeps
    | with_reducible apply Keeps.ite
    | with_reducible apply KeepsX.mk

theorem i3cClkStatusReadFx_keeps {s₀ : State} (s : State) (h : Keeps s₀ s) :
    Keeps s₀ (i3cClkStatusReadFx s) := by
  unfold i3cClkStatusReadFx
  repeat' first
    | with_reducible intro _
    | with_reducible assumption
    | with_reducible apply emit_keeps
    | with_reducible apply Keeps.ite

theorem execI3cClkStatusRead_keeps {s₀ : State} (s : State) (h : Keeps s₀ s) :
    KeepsX s₀ (execI3cClkStatusRead s) := by
  unfold execI3cClkStatusRead
  repeat' first
    | with_reducible intro _
    | with_reducible assumption
    | with_reducible apply i3cClkStatusReadFx_keeps
    | with_reducible apply Keeps.ite
    | with_reducible apply KeepsX.mk

theorem i3cEntdaaFx_keeps {s₀ : State} (a1 : ℕ) (s : State) (h : Keeps s₀ s) :
    Keeps s₀ (i3cEntdaaFx a1 s) := by
  unfold i3cEntdaaFx
  repeat' first
    | with_reducible intro _
    | with_reducible assumption
    | with_reducible apply emit_keeps
    | with_reducible apply modMgmt_keeps
    | with_reducible apply Keeps.ite

theorem execI3cEntdaa_keeps {s₀ : State} (a1 : ℕ) (s : State) (h : Keeps s₀ s) :
    KeepsX s₀ (execI3cEntdaa a1 s) := by
  unfold execI3cEntdaa
  repeat' first
    | with_reducible intro _
    | with_reducible assumption
    | with_reducible apply i3cEntdaaFx_keeps
    | with_reducible apply Keeps.ite
    | with_reducible apply KeepsX.mk

theorem icmpv6EchoRequestFx_keeps {s₀ : State} (a1 : ℕ) (a2 : Bytes) (a3 : Bytes) (s : State) (h : Keeps s₀ s) :
    Keeps s₀ (icmpv6EchoRequestFx a1 a2 a3 s) := by
  unfold icmpv6EchoRequestFx
  repeat' first
    | with_reducible intro _
    | with_reducible assumption
    | with_reducible apply emit_keeps
    | with_reducible apply Keeps.ite

theorem execIcmpv6EchoRequest_keeps {s₀ : State} (a1 : ℕ) (a2 : Bytes) (a3 : Bytes) (s : State) (h : Keeps s₀ s) :
    KeepsX s₀ (execIcmpv6EchoRequest a1 a2 a3 s) := by
  unfold execIcmpv6EchoRequest
  repeat' first
    | with_reducible intro _
    | with_reducible assumption
    | with_reducible apply icmpv6EchoRequestFx_keeps
    | with_reducible apply Keeps.ite
    | with_reducible apply KeepsX.mk

theorem jtagInstructionFx_keeps {s₀ : State} (a1 : JtagInstr) (s : State) (h : Keeps s₀ s) :
    Keeps s₀ (jtagInstructionFx a1 s) := by
  unfold jtagInstructionFx
  repeat' first
    | with_reducible intro _
    | with_reducible assumption
    | with_reducible apply emit_keeps
    | with_reducible apply modMgmt_keeps

theorem execJtagInstruction_keeps {s₀ : State} (a1 : JtagInstr) (s : State) (h : Keeps s₀ s) :
    KeepsX s₀ (execJtagInstruction a1 s) := by
  unfold execJtagInstruction
  repeat' first
    | with_reducible intro _
    | with_reducible assumption
    | with_reducible apply jtagInstructionFx_keeps
    | with_reducible apply Keeps.ite
    | with_reducible apply KeepsX.mk

theorem mctpControlMessageFx_keeps {s₀ : State} (a1 : Bytes) (s : State) (h : Keeps s₀ s) :
    Keeps s₀ (mctpControlMessageFx a1 s) := by
  unfold mctpControlMessageFx
  repeat' first
    | with_reducible intro _
    | with_reducible assumption
    | with_reducible apply emit_keeps
    | with_reducible apply Keeps.ite
    | with_reducible apply Keeps.fold
    | with_reducible apply Keeps.same_id
    | with_reducible apply hk
    | split

theorem execMctpControlMessage_keeps {s₀ : State} (a1 : Bytes) (s : State) (h : Keeps s₀ s) :
    KeepsX s₀ (execMctpControlMessage a1 s) := by
  unfold execMctpControlMessage
  repeat' first
    | with_reducible intro _
    | with_reducible assumption
    | with_reducible apply mctpControlMessageFx_keeps
    | with_reducible apply Keeps.ite
    | with_reducible apply KeepsX.mk

theorem msixUnmaskFx_keeps {s₀ : State} (a1 : ℕ) (a2 : ℕ) (s : State) (h : Keeps s₀ s) :
    Keeps s₀ (msixUnmaskFx a1 a2 s) := by
  unfold msixUnmaskFx
  repeat' first
    | with_reducible intro _
    | with_reducible assumption
    | with_reducible apply modPcie_keeps
    | with_reducible apply msixRaise_keeps
    | with_reducible apply Keeps.ite

theorem execMsixUnmask_keeps {s₀ : State} (a1 : ℕ) (a2 : ℕ) (s : State) (h : Keeps s₀ s) :
    KeepsX s₀ (execMsixUnmask a1 a2 s) := by
  unfold execMsixUnmask
  repeat' first
    | with_reducible intro _
    | with_reducible assumption
    | with_reducible apply msixUnmaskFx_keeps
    | with_reducible apply Keeps.ite
    | with_reducible apply KeepsX.mk

theorem neighbourDiscoveryMessageFx_keeps {s₀ : State} (a1 : ℕ) (a2 : Bytes) (a3 : Bytes) (s : State) (h : Keeps s₀ s) :
    Keeps s₀ (neighbourDiscoveryMessageFx a1 a2 a3 s) := by
  unfold neighbourDiscoveryMessageFx
  repeat' first
    | with_reducible intro _
    | with_reducible assumption
    | with_reducible apply emit_keeps
    | with_reducible apply Keeps.ite

theorem execNeighbourDiscoveryMessage_keeps {s₀ : State} (a1 : ℕ) (a2 : Bytes) (a3 : Bytes) (s : State) (h : Keeps s₀ s) :
    KeepsX s₀ (execNeighbourDiscoveryMessage a1 a2 a3 s) := by
  unfold execNeighbourDiscoveryMessage
  repeat' first
    | with_reducible intro _
    | with_reducible assumption
    | with_reducible apply neighbourDiscoveryMessageFx_keeps
    | with_reducible apply Keeps.ite
    | with_reducible apply KeepsX.mk

theorem pcieHotResetFx_keeps {s₀ : State} (a1 : ℕ) (s : State) (h : Keeps s₀ s) :
    Keeps s₀ (pcieHotResetFx a1 s) := by
  unfold pcieHotResetFx
  repeat' first
    | with_reducible intro _
    | with_reducible assumption
    | with_reducible apply atTick_keeps
    | with_reducible apply flrFx_keeps
    | with_reducible apply Keeps.ite

theorem execPcieHotReset_keeps {s₀ : State} (a1 : ℕ) (s : State) (h : Keeps s₀ s) :
    KeepsX s₀ (execPcieHotReset a1 s) := by
  unfold execPcieHotReset
  repeat' first
    | with_reducible intro _
    | with_reducible assumption
    | with_reducible apply pcieHotResetFx_keeps
    | with_reducible apply Keeps.ite
    | with_reducible apply KeepsX.mk

theorem linkSet_keeps {s₀ : State} (a1 : Bool) (a2 : Bool) (a3 : ℕ) (a4 : ℕ) (s : State) (h : Keeps s₀ s) :
    Keeps s₀ (linkSet a1 a2 a3 a4 s) := by
  unfold linkSet
  repeat' first
    | with_reducible intro _
    | with_reducible assumption
    | with_reducible apply modPcie_keeps

theorem pcieLinkDownFx_keeps {s₀ : State} (s : State) (h : Keeps s₀ s) :
    Keeps s₀ (pcieLinkDownFx s) := by
  unfold pcieLinkDownFx
  repeat' first
    | with_reducible intro _
    | with_reducible assumption
    | with_reducible apply bump_keeps
    | with_reducible apply linkSet_keeps
    | with_reducible apply Keeps.ite

theorem execPcieLinkDown_keeps {s₀ : State} (s : State) (h : Keeps s₀ s) :
    KeepsX s₀ (execPcieLinkDown s) := by
  unfold execPcieLinkDown
  repeat' first
    | with_reducible intro _
    | with_reducible assumption
    | with_reducible apply pcieLinkDownFx_keeps
    | with_reducible apply Keeps.ite
    | with_reducible apply KeepsX.mk

theorem pcieLinkUpFx_keeps {s₀ : State} (a1 : Bool) (a2 : ℕ) (a3 : ℕ) (s : State) (h : Keeps s₀ s) :
    Keeps s₀ (pcieLinkUpFx a1 a2 a3 s) := by
  unfold pcieLinkUpFx
  repeat' first
    | with_reducible intro _
    | with_reducible assumption
    | with_reducible apply drainAll_keeps
    | with_reducible apply linkSet_keeps
    | with_reducible apply Keeps.ite

theorem execPcieLinkUp_keeps {s₀ : State} (a1 : Bool) (a2 : ℕ) (a3 : ℕ) (s : State) (h : Keeps s₀ s) :
    KeepsX s₀ (execPcieLinkUp a1 a2 a3 s) := by
  unfold execPcieLinkUp
  repeat' first
    | with_reducible intro _
    | with_reducible assumption
    | with_reducible apply pcieLinkUpFx_keeps
    | with_reducible apply Keeps.ite
    | with_reducible apply KeepsX.mk

theorem perstAssertFx_keeps {s₀ : State} (a1 : ℕ) (s : State) (h : Keeps s₀ s) :
    Keeps s₀ (perstAssertFx a1 s) := by
  unfold perstAssertFx
  repeat' first
    | with_reducible intro _
    | with_reducible assumption
    | exact DevKeeps.mk fun _ h => h
    | with_reducible apply atTick_keeps
    | with_reducible apply flrFx_keeps
    | with_reducible apply linkSet_keeps
    | with_reducible apply modDev_keeps
    | with_reducible apply Keeps.ite

theorem execPerstAssert_keeps {s₀ : State} (a1 : ℕ) (s : State) (h : Keeps s₀ s) :
    KeepsX s₀ (execPerstAssert a1 s) := by
  unfold execPerstAssert
  repeat' first
    | with_reducible intro _
    | with_reducible assumption
    | with_reducible apply perstAssertFx_keeps
    | with_reducible apply Keeps.ite
    | with_reducible apply KeepsX.mk

theorem perstDeassertFx_keeps {s₀ : State} (a1 : Bool) (a2 : ℕ) (a3 : ℕ) (s : State) (h : Keeps s₀ s) :
    Keeps s₀ (perstDeassertFx a1 a2 a3 s) := by
  unfold perstDeassertFx
  repeat' first
    | with_reducible intro _
    | with_reducible assumption
    | exact DevKeeps.mk fun _ h => h
    | with_reducible apply drainAll_keeps
    | with_reducible apply linkSet_keeps
    | with_reducible apply modDev_keeps
    | with_reducible apply Keeps.ite

theorem execPerstDeassert_keeps {s₀ : State} (a1 : Bool) (a2 : ℕ) (a3 : ℕ) (s : State) (h : Keeps s₀ s) :
    KeepsX s₀ (execPerstDeassert a1 a2 a3 s) := by
  unfold execPerstDeassert
  repeat' first
    | with_reducible intro _
    | with_reducible assumption
    | with_reducible apply perstDeassertFx_keeps
    | with_reducible apply Keeps.ite
    | with_reducible apply KeepsX.mk

theorem traceTrigInputFx_keeps {s₀ : State} (a1 : ℕ) (a2 : Bool) (s : State) (h : Keeps s₀ s) :
    Keeps s₀ (traceTrigInputFx a1 a2 s) := by
  unfold traceTrigInputFx
  repeat' first
    | with_reducible intro _
    | with_reducible assumption
    | with_reducible apply modMgmt_keeps
    | with_reducible apply Keeps.ite

theorem execTraceTrigInput_keeps {s₀ : State} (a1 : ℕ) (a2 : Bool) (s : State) (h : Keeps s₀ s) :
    KeepsX s₀ (execTraceTrigInput a1 a2 s) := by
  unfold execTraceTrigInput
  repeat' first
    | with_reducible intro _
    | with_reducible assumption
    | with_reducible apply traceTrigInputFx_keeps
    | with_reducible apply Keeps.ite
    | with_reducible apply KeepsX.mk

theorem uartRxFx_keeps {s₀ : State} (a1 : Bytes) (s : State) (h : Keeps s₀ s) :
    Keeps s₀ (uartRxFx a1 s) := by
  unfold uartRxFx
  repeat' first
    | with_reducible intro _
    | with_reducible assumption
    | with_reducible apply modMgmt_keeps
    | with_reducible apply Keeps.ite

theorem execUartRx_keeps {s₀ : State} (a1 : Bytes) (s : State) (h : Keeps s₀ s) :
    KeepsX s₀ (execUartRx a1 s) := by
  unfold execUartRx
  repeat' first
    | with_reducible intro _
    | with_reducible assumption
    | with_reducible apply uartRxFx_keeps
    | with_reducible apply Keeps.ite
    | with_reducible apply KeepsX.mk

theorem vfEnableChangeFx_keeps {s₀ : State} (a1 : Bool) (a2 : ℕ) (s : State) (h : Keeps s₀ s) :
    Keeps s₀ (vfEnableChangeFx a1 a2 s) := by
  unfold vfEnableChangeFx
  repeat' first
    | with_reducible intro _
    | with_reducible assumption
    | with_reducible apply vfSet_keeps
    | with_reducible apply Keeps.ite

theorem execVfEnableChange_keeps {s₀ : State} (a1 : Bool) (a2 : ℕ) (s : State) (h : Keeps s₀ s) :
    KeepsX s₀ (execVfEnableChange a1 a2 s) := by
  unfold execVfEnableChange
  repeat' first
    | with_reducible intro _
    | with_reducible assumption
    | with_reducible apply vfEnableChangeFx_keeps
    | with_reducible apply Keeps.ite
    | with_reducible apply KeepsX.mk

theorem avsSet_keeps {s₀ : State} (a1 : ℕ) (a2 : ℕ) (a3 : Bool) (s : State) (h : Keeps s₀ s) :
    Keeps s₀ (avsSet a1 a2 a3 s) := by
  unfold avsSet
  repeat' first
    | with_reducible intro _
    | with_reducible assumption
    | exact PwrKeeps.mk id
    | with_reducible apply emit_keeps
    | with_reducible apply modPwr_keeps
    | with_reducible apply regPut_keeps
    | with_reducible apply Keeps.ite

theorem avsAdjustFx_keeps {s₀ : State} (a1 : ℕ) (a2 : ℕ) (a3 : Bool) (a4 : Bool) (s : State) (h : Keeps s₀ s) :
    Keeps s₀ (avsAdjustFx a1 a2 a3 a4 s) := by
  unfold avsAdjustFx
  repeat' first
    | with_reducible intro _
    | with_reducible assumption
    | exact PwrKeeps.mk id
    | with_reducible apply atTick_keeps
    | with_reducible apply avsSet_keeps
    | with_reducible apply modPwr_keeps
    | with_reducible apply Keeps.ite

theorem fatalShutdown_keeps {s₀ : State} (a1 : RecWords) (s : State) (h : Keeps s₀ s) :
    Keeps s₀ (fatalShutdown a1 s) := by
  unfold fatalShutdown
  repeat' first
    | with_reducible intro _
    | with_reducible assumption
    | exact DevKeeps.mk fun _ h => h
    | with_reducible apply emit_keeps
    | with_reducible apply irqEvent_keeps
    | with_reducible apply modDev_keeps
    | with_reducible apply record_keeps

theorem clockLost_keeps {s₀ : State} (s : State) (h : Keeps s₀ s) :
    Keeps s₀ (clockLost s) := by
  unfold clockLost
  repeat' first
    | with_reducible intro _
    | with_reducible assumption
    | exact DevKeeps.mk fun _ h => h
    | with_reducible apply fatalShutdown_keeps
    | with_reducible apply modDev_keeps

theorem execAvsAdjust_keeps {s₀ : State} (a1 : ℕ) (a2 : ℕ) (a3 : Bool) (a4 : Bool) (s : State) (h : Keeps s₀ s) :
    KeepsX s₀ (execAvsAdjust a1 a2 a3 a4 s) := by
  unfold execAvsAdjust
  repeat' first
    | with_reducible intro _
    | with_reducible assumption
    | with_reducible apply avsAdjustFx_keeps
    | with_reducible apply Keeps.ite
    | with_reducible apply KeepsX.mk

theorem ioDieFatalErrorFx_keeps {s₀ : State} (a1 : ℕ) (a2 : ℕ) (s : State) (h : Keeps s₀ s) :
    Keeps s₀ (ioDieFatalErrorFx a1 a2 s) := by
  unfold ioDieFatalErrorFx
  repeat' first
    | with_reducible intro _
    | with_reducible assumption
    | with_reducible apply atTick_keeps
    | with_reducible apply fatalShutdown_keeps
    | with_reducible apply Keeps.ite

theorem execIoDieFatalError_keeps {s₀ : State} (a1 : ℕ) (a2 : ℕ) (s : State) (h : Keeps s₀ s) :
    KeepsX s₀ (execIoDieFatalError a1 a2 s) := by
  unfold execIoDieFatalError
  repeat' first
    | with_reducible intro _
    | with_reducible assumption
    | with_reducible apply ioDieFatalErrorFx_keeps
    | with_reducible apply Keeps.ite
    | with_reducible apply KeepsX.mk

theorem powerEstimateFx_keeps {s₀ : State} (a1 : ℕ) (a2 : ℕ) (a3 : List ℕ) (s : State) (h : Keeps s₀ s) :
    Keeps s₀ (powerEstimateFx a1 a2 a3 s) := by
  unfold powerEstimateFx
  repeat' first
    | with_reducible intro _
    | with_reducible assumption
    | with_reducible apply atTick_keeps
    | with_reducible apply regPut_keeps
    | with_reducible apply Keeps.ite
    | with_reducible apply Keeps.fold

theorem execPowerEstimate_keeps {s₀ : State} (a1 : ℕ) (a2 : ℕ) (a3 : List ℕ) (s : State) (h : Keeps s₀ s) :
    KeepsX s₀ (execPowerEstimate a1 a2 a3 s) := by
  unfold execPowerEstimate
  repeat' first
    | with_reducible intro _
    | with_reducible assumption
    | with_reducible apply powerEstimateFx_keeps
    | with_reducible apply Keeps.ite
    | with_reducible apply KeepsX.mk

theorem ref100LossFx_keeps {s₀ : State} (a1 : ℕ) (s : State) (h : Keeps s₀ s) :
    Keeps s₀ (ref100LossFx a1 s) := by
  unfold ref100LossFx
  repeat' first
    | with_reducible intro _
    | with_reducible assumption
    | with_reducible apply atTick_keeps
    | with_reducible apply clockLost_keeps
    | with_reducible apply Keeps.ite

theorem execRef100Loss_keeps {s₀ : State} (a1 : ℕ) (s : State) (h : Keeps s₀ s) :
    KeepsX s₀ (execRef100Loss a1 s) := by
  unfold execRef100Loss
  repeat' first
    | with_reducible intro _
    | with_reducible assumption
    | with_reducible apply ref100LossFx_keeps
    | with_reducible apply Keeps.ite
    | with_reducible apply KeepsX.mk

theorem rootLockLossFx_keeps {s₀ : State} (a1 : ℕ) (s : State) (h : Keeps s₀ s) :
    Keeps s₀ (rootLockLossFx a1 s) := by
  unfold rootLockLossFx
  repeat' first
    | with_reducible intro _
    | with_reducible assumption
    | with_reducible apply atTick_keeps
    | with_reducible apply clockLost_keeps
    | with_reducible apply Keeps.ite

theorem execRootLockLoss_keeps {s₀ : State} (a1 : ℕ) (s : State) (h : Keeps s₀ s) :
    KeepsX s₀ (execRootLockLoss a1 s) := by
  unfold execRootLockLoss
  repeat' first
    | with_reducible intro _
    | with_reducible assumption
    | with_reducible apply rootLockLossFx_keeps
    | with_reducible apply Keeps.ite
    | with_reducible apply KeepsX.mk

theorem tempsPut_keeps {s₀ : State} (a1 : List ℕ) (s : State) (h : Keeps s₀ s) :
    Keeps s₀ (tempsPut a1 s) := by
  unfold tempsPut
  repeat' first
    | with_reducible intro _
    | with_reducible assumption
    | with_reducible apply regPut_keeps
    | with_reducible apply Keeps.ite
    | with_reducible apply Keeps.fold

theorem levelAfter_within (s : State) (l : List ℕ) (q : Bool) (h : 4 ≤ s.pwr.level ∧ s.pwr.level ≤ 16) :
    4 ≤ levelAfter s l q ∧ levelAfter s l q ≤ 16 := by
  unfold levelAfter
  dsimp only
  split
  · omega
  · split <;> omega

theorem regPuts_pwr (f g : ℕ → ℕ) (l : List ℕ) : ∀ s : State, (l.foldl (fun t n => regPut (f n) (g n) t) s).pwr = s.pwr := by
  induction l with
  | nil => exact fun _ => rfl
  | cons a l ih => exact fun s => ih _

theorem thermalSampleFx_keeps {s₀ : State} (a1 : ℕ) (a2 : List ℕ) (a3 : Bool) (s : State) (h : Keeps s₀ s) :
    Keeps s₀ (thermalSampleFx a1 a2 a3 s) := by
  unfold thermalSampleFx
  have h1 : Keeps s₀ (atTick a1 s) := atTick_keeps _ _ h
  generalize atTick a1 s = t at h1
  extract_lets z q hot thermal n s1 s2 s3
  have e1 : s1.pwr = t.pwr := regPuts_pwr _ _ _ _
  have k1 : Keeps s₀ s1 := bump_keeps _ _ _ (tempsPut_keeps _ _ h1)
  have e : s2.pwr = t.pwr := by
    dsimp only [s2]
    split <;> exact e1
  have h2 : Keeps s₀ s2 := Keeps.ite (bump_keeps _ _ _ k1) k1
  have h3 : Keeps s₀ s3 := by
    refine modPwr_keeps _ _ h2 ?_
    unfold PwrKeeps
    rw [e]
    exact levelAfter_within t a2 q
  exact Keeps.ite h1 (Keeps.ite (irqEvent_keeps _ _ (bump_keeps _ _ _ h3)) h3)

theorem execThermalSample_keeps {s₀ : State} (a1 : ℕ) (a2 : List ℕ) (a3 : Bool) (s : State) (h : Keeps s₀ s) :
    KeepsX s₀ (execThermalSample a1 a2 a3 s) := by
  unfold execThermalSample
  repeat' first
    | with_reducible intro _
    | with_reducible assumption
    | with_reducible apply thermalSampleFx_keeps
    | with_reducible apply Keeps.ite
    | with_reducible apply KeepsX.mk

theorem thermtripFx_keeps {s₀ : State} (a1 : ℕ) (a2 : ℕ) (s : State) (h : Keeps s₀ s) :
    Keeps s₀ (thermtripFx a1 a2 s) := by
  unfold thermtripFx
  repeat' first
    | with_reducible intro _
    | with_reducible assumption
    | exact DevKeeps.mk fun _ h => h
    | with_reducible apply atTick_keeps
    | with_reducible apply emit_keeps
    | with_reducible apply fatalShutdown_keeps
    | with_reducible apply modDev_keeps
    | with_reducible apply Keeps.ite

theorem execThermtrip_keeps {s₀ : State} (a1 : ℕ) (a2 : ℕ) (s : State) (h : Keeps s₀ s) :
    KeepsX s₀ (execThermtrip a1 a2 s) := by
  unfold execThermtrip
  repeat' first
    | with_reducible intro _
    | with_reducible assumption
    | with_reducible apply thermtripFx_keeps
    | with_reducible apply Keeps.ite
    | with_reducible apply KeepsX.mk

theorem chargeMan_keeps {s₀ : State} (s : State) (a2 : ℕ × ℕ) (h : Keeps s₀ s) :
    Keeps s₀ (chargeMan s a2) := by
  unfold chargeMan
  repeat' first
    | with_reducible intro _
    | with_reducible assumption
    | with_reducible apply bump_keeps
    | with_reducible apply modBerth_keeps
    | with_reducible apply modCnt_keeps
    | with_reducible apply Keeps.ite
    | with_reducible apply Keeps.fold
    | with_reducible apply Keeps.same_id
    | (extract_lets +onlyGivenNames x; clear_value (hx : x = _); refine Keeps.via (s := s₀) hx ?_ (fun _ => ?_); clear hx)
    | with_reducible apply hk
    | split

theorem chargeStep_keeps {s₀ : State} (a1 : StepRun) (a2 : ℕ) (s : State) (h : Keeps s₀ s) :
    Keeps s₀ (chargeStep a1 a2 s) := by
  unfold chargeStep
  repeat' first
    | with_reducible intro _
    | with_reducible assumption
    | with_reducible apply chargeMan_keeps
    | with_reducible apply modSched_keeps
    | with_reducible apply Keeps.ite
    | with_reducible apply Keeps.fold
    | with_reducible apply Keeps.same_id
    | (extract_lets +onlyGivenNames x; clear_value (hx : x = _); refine Keeps.via (s := s₀) hx ?_ (fun _ => ?_); clear hx)
    | (extract_lets +onlyGivenNames x; clear_value x)
    | with_reducible apply hk
    | split

theorem closeExchanges_keeps {s₀ : State} (s : State) (h : Keeps s₀ s) :
    Keeps s₀ (closeExchanges s) := by
  unfold closeExchanges
  repeat' first
    | with_reducible intro _
    | with_reducible assumption
    | exact FabKeeps.mk fun _ h => h
    | with_reducible apply modEng_keeps
    | with_reducible apply modFab_keeps

theorem feedWaitTo_keeps {s₀ : State} (a1 : ℕ) (a2 : ℕ) (s : State) (a4 : ℕ × ℕ) (h : Keeps s₀ s) :
    Keeps s₀ (feedWaitTo a1 a2 s a4) := by
  unfold feedWaitTo
  repeat' first
    | with_reducible intro _
    | with_reducible assumption
    | with_reducible apply bump_keeps

theorem meterStep_keeps {s₀ : State} (a1 : StepRun) (s : State) (h : Keeps s₀ s) :
    Keeps s₀ (meterStep a1 s) := by
  unfold meterStep
  repeat' first
    | with_reducible intro _
    | with_reducible assumption
    | with_reducible apply meterActive_keeps

theorem runsEnd_keeps {s₀ : State} (s : State) (h : Keeps s₀ s) :
    Keeps s₀ (runsEnd s) := by
  unfold runsEnd
  repeat' first
    | with_reducible intro _
    | with_reducible assumption
    | with_reducible apply modEng_keeps
    | with_reducible apply rollBack_keeps
    | with_reducible apply Keeps.ite
    | with_reducible apply Keeps.fold
    | with_reducible apply Keeps.same_id
    | with_reducible apply hk
    | split

theorem shapeCheck_keeps {s₀ : State} (s : State) (h : Keeps s₀ s) :
    Keeps s₀ (shapeCheck s) := by
  unfold shapeCheck
  repeat' first
    | with_reducible intro _
    | with_reducible assumption
    | with_reducible apply restrictEnter_keeps
    | with_reducible apply restrictLeave_keeps
    | with_reducible apply Keeps.ite
    | with_reducible apply Keeps.fold
    | with_reducible apply Keeps.same_id
    | with_reducible apply hk
    | split

theorem shapeChanged_keeps {s₀ : State} (s : State) (h : Keeps s₀ s) :
    Keeps s₀ (shapeChanged s) := by
  unfold shapeChanged
  repeat' first
    | with_reducible intro _
    | with_reducible assumption
    | with_reducible apply modCore_keeps
    | with_reducible apply shapeCheck_keeps

theorem stepDiscard_keeps {s₀ : State} (a1 : Bool) (s : State) (h : Keeps s₀ s) :
    Keeps s₀ (stepDiscard a1 s) := by
  unfold stepDiscard
  repeat' first
    | with_reducible intro _
    | with_reducible assumption
    | with_reducible apply closeExchanges_keeps
    | with_reducible apply modCore_keeps
    | with_reducible apply modEng_keeps
    | with_reducible apply modRun_keeps
    | with_reducible apply Keeps.ite
    | with_reducible apply Keeps.fold
    | with_reducible apply Keeps.same_id
    | with_reducible apply hk
    | split
    | with_reducible apply Keeps.upd

theorem waitsCounted_keeps {s₀ : State} (a1 : ℕ) (s : State) (a3 : ℕ) (h : Keeps s₀ s) :
    Keeps s₀ (waitsCounted a1 s a3) := by
  unfold waitsCounted
  repeat' first
    | with_reducible intro _
    | with_reducible assumption
    | with_reducible apply feedWaitTo_keeps
    | with_reducible apply stallTo_keeps
    | with_reducible apply Keeps.ite
    | with_reducible apply Keeps.fold
    | with_reducible apply Keeps.same_id
    | with_reducible apply hk
    | split

theorem stepAbort_keeps {s₀ : State} (a1 : ℕ) (s : State) (h : Keeps s₀ s) :
    Keeps s₀ (stepAbort a1 s) := by
  unfold stepAbort
  repeat' first
    | with_reducible intro _
    | with_reducible assumption
    | with_reducible apply chargeStep_keeps
    | with_reducible apply meterStep_keeps
    | with_reducible apply stepDiscard_keeps
    | with_reducible apply waitsCounted_keeps
    | with_reducible apply Keeps.ite
    | with_reducible apply Keeps.fold
    | with_reducible apply Keeps.same_id
    | with_reducible apply hk
    | split

theorem copyKeep_keeps {s₀ : State} (a1 : ℕ) (a2 : List ℕ) (a3 : Bytes) (s : State) (h : Keeps s₀ s) :
    Keeps s₀ (copyKeep a1 a2 a3 s) := by
  unfold copyKeep
  repeat' first
    | with_reducible intro _
    | with_reducible assumption
    | with_reducible apply extFree_keeps
    | with_reducible apply extWrite_keeps
    | with_reducible apply modTier_keeps

theorem copyRead_keeps {s₀ : State} (a1 : ℕ) (f2 : (State → State)) (s : State) (hf2 : ∀ x0, Keeps s₀ x0 → Keeps s₀ (f2 x0)) (h : Keeps s₀ s) :
    Keeps s₀ (copyRead a1 f2 s) := by
  unfold copyRead
  repeat' first
    | with_reducible intro _
    | with_reducible assumption
    | with_reducible apply modTier_keeps
    | with_reducible apply hf2

theorem placedLost_keeps {s₀ : State} (a1 : ℕ) (a2 : ℕ) (s : State) (h : Keeps s₀ s) :
    Keeps s₀ (placedLost a1 a2 s) := by
  unfold placedLost
  repeat' first
    | with_reducible intro _
    | with_reducible assumption
    | with_reducible apply modMan_keeps
    | with_reducible apply reservedBack_keeps

theorem frameDamaged_keeps {s₀ : State} (a1 : ℕ) (s : State) (h : Keeps s₀ s) :
    Keeps s₀ (frameDamaged a1 s) := by
  unfold frameDamaged
  repeat' first
    | with_reducible intro _
    | with_reducible assumption
    | with_reducible apply arrivingLost_keeps
    | with_reducible apply loseSoon_keeps
    | with_reducible apply ownCopyLost_keeps
    | with_reducible apply placedLost_keeps
    | with_reducible apply Keeps.ite
    | with_reducible apply Keeps.fold
    | with_reducible apply Keeps.same_id
    | with_reducible apply hk
    | split

theorem stakeLost_keeps {s₀ : State} (a1 : ℕ) (s : State) (h : Keeps s₀ s) :
    Keeps s₀ (stakeLost a1 s) := by
  unfold stakeLost
  repeat' first
    | with_reducible intro _
    | with_reducible assumption
    | with_reducible apply modTier_keeps
    | with_reducible apply restrictEnter_keeps

theorem stakeDamage_keeps {s₀ : State} (a1 : ℕ) (a2 : ℕ) (s : State) (h : Keeps s₀ s) :
    Keeps s₀ (stakeDamage a1 a2 s) := by
  unfold stakeDamage
  repeat' first
    | with_reducible intro _
    | with_reducible assumption
    | with_reducible apply modTier_keeps
    | with_reducible apply stakeLost_keeps
    | with_reducible apply Keeps.ite
    | with_reducible apply Keeps.fold
    | with_reducible apply Keeps.same_id
    | (extract_lets +onlyGivenNames x; clear_value x)
    | with_reducible apply hk
    | split

theorem withyDamage_keeps {s₀ : State} (a1 : ℕ) (s : State) (h : Keeps s₀ s) :
    Keeps s₀ (withyDamage a1 s) := by
  unfold withyDamage
  repeat' first
    | with_reducible intro _
    | with_reducible assumption
    | with_reducible apply failSoon_keeps
    | with_reducible apply modWithy_keeps
    | with_reducible apply withyFree_keeps
    | with_reducible apply Keeps.ite
    | with_reducible apply Keeps.fold
    | with_reducible apply Keeps.same_id
    | (extract_lets +onlyGivenNames x; clear_value (hx : x = _); refine Keeps.via (s := s₀) hx ?_ (fun _ => ?_); clear hx)
    | (extract_lets +onlyGivenNames x; clear_value x)
    | with_reducible apply hk
    | split

theorem damageAt_keeps {s₀ : State} (s : State) (a2 : ℕ) (h : Keeps s₀ s) :
    Keeps s₀ (damageAt s a2) := by
  unfold damageAt
  repeat' first
    | with_reducible intro _
    | with_reducible assumption
    | with_reducible apply frameDamaged_keeps
    | with_reducible apply stakeDamage_keeps
    | with_reducible apply withyDamage_keeps
    | with_reducible apply Keeps.ite
    | with_reducible apply Keeps.fold
    | with_reducible apply Keeps.same_id
    | with_reducible apply hk
    | split

theorem damageEnds_keeps {s₀ : State} (s : State) (h : Keeps s₀ s) :
    Keeps s₀ (damageEnds s) := by
  unfold damageEnds
  repeat' first
    | with_reducible intro _
    | with_reducible assumption
    | with_reducible apply restrictLeave_keeps
    | with_reducible apply Keeps.ite

theorem segDrop_keeps {s₀ : State} (a1 : MsgKey) (s : State) (h : Keeps s₀ s) :
    Keeps s₀ (segDrop a1 s) := by
  unfold segDrop
  repeat' first
    | with_reducible intro _
    | with_reducible assumption
    | with_reducible apply modTier_keeps

theorem loadReceive_keeps {s₀ : State} (a1 : OpRow) (a2 : Pkt) (f3 : (State → State)) (s : State) (hf3 : ∀ x0, Keeps s₀ x0 → Keeps s₀ (f3 x0)) (h : Keeps s₀ s) :
    Keeps s₀ (loadReceive a1 a2 f3 s) := by
  unfold loadReceive
  repeat' first
    | with_reducible intro _
    | with_reducible assumption
    | with_reducible apply atTick_keeps
    | with_reducible apply receive_keeps
    | with_reducible apply segDrop_keeps
    | with_reducible apply hf3
    | with_reducible apply Keeps.ite

theorem loadFail_keeps {s₀ : State} (a1 : OpRow) (a2 : Pkt) (a3 : ℕ) (s : State) (h : Keeps s₀ s) :
    Keeps s₀ (loadFail a1 a2 a3 s) := by
  unfold loadFail
  repeat' first
    | with_reducible intro _
    | with_reducible assumption
    | with_reducible apply failMsg_keeps
    | with_reducible apply segDrop_keeps

theorem loadDel_keeps {s₀ : State} (a1 : LoadName) (s : State) (h : Keeps s₀ s) :
    Keeps s₀ (loadDel a1 s) := by
  unfold loadDel
  repeat' first
    | with_reducible intro _
    | with_reducible assumption
    | with_reducible apply modTier_keeps

theorem loadEnd_keeps {s₀ : State} (a1 : LoadName) (s : State) (h : Keeps s₀ s) :
    Keeps s₀ (loadEnd a1 s) := by
  unfold loadEnd
  repeat' first
    | with_reducible intro _
    | with_reducible assumption
    | with_reducible apply extFree_keeps
    | with_reducible apply loadDel_keeps
    | with_reducible apply Keeps.ite
    | with_reducible apply Keeps.fold
    | with_reducible apply Keeps.same_id
    | with_reducible apply hk
    | split

theorem loadPut_keeps {s₀ : State} (a1 : ImgLoad) (s : State) (h : Keeps s₀ s) :
    Keeps s₀ (loadPut a1 s) := by
  unfold loadPut
  repeat' first
    | with_reducible intro _
    | with_reducible assumption
    | with_reducible apply modTier_keeps

theorem placeDir_keeps {s₀ : State} (img : Bytes) (l : List ℕ) (s : State) (h : Keeps s₀ s) : KeepsOR s₀ (placeDir img l s) := by
  induction l generalizing s with
  | nil => exact KeepsOR.mk h
  | cons t l ih => exact KeepsOR.bindR (extTake_keeps _ _ _ h) fun x k => KeepsOR.mapR (ih _ (extWrite_keeps _ _ _ k)) fun _ a => a

theorem takeEach_keeps {s₀ : State} (a1 : List (ℕ × ℕ)) (s : State) (h : Keeps s₀ s) :
    KeepsOR s₀ (takeEach a1 s) := by
  induction a1 generalizing s with
  | nil =>
    unfold takeEach
    repeat' first
      | with_reducible intro _
      | with_reducible assumption
      | with_reducible apply extTake_keeps
      | with_reducible apply Keeps.ite
      | with_reducible apply Keeps.fold
      | with_reducible apply Keeps.same_id
      | with_reducible apply KeepsR.ite
      | with_reducible apply KeepsR.fold
      | with_reducible exact KeepsOR.no
      | with_reducible apply KeepsOR.ite
      | with_reducible apply KeepsOR.mapR
      | with_reducible apply KeepsOR.map
      | with_reducible apply KeepsOR.getD
      | with_reducible refine KeepsOR.get2 (by assumption) ?_
      | with_reducible refine KeepsOR.get (by assumption) ?_
      | with_reducible refine KeepsR.get (by assumption) ?_
      | with_reducible apply hk
      | split
      | with_reducible apply KeepsR.mk
      | with_reducible apply KeepsOR.mk
  | cons e l ih =>
    unfold takeEach
    repeat' first
      | with_reducible intro _
      | with_reducible assumption
      | with_reducible apply ih
      | with_reducible apply extTake_keeps
      | with_reducible apply Keeps.ite
      | with_reducible apply Keeps.fold
      | with_reducible apply Keeps.same_id
      | with_reducible apply KeepsR.ite
      | with_reducible apply KeepsR.fold
      | with_reducible exact KeepsOR.no
      | with_reducible apply KeepsOR.ite
      | with_reducible apply KeepsOR.mapR
      | with_reducible apply KeepsOR.map
      | with_reducible apply KeepsOR.getD
      | with_reducible refine KeepsOR.get2 (by assumption) ?_
      | with_reducible refine KeepsOR.get (by assumption) ?_
      | with_reducible refine KeepsR.get (by assumption) ?_
      | (with_reducible apply KeepsR.snd; with_reducible assumption)
      | with_reducible apply hk
      | split
      | with_reducible apply KeepsR.mk

theorem placeEntry_keeps {s₀ : State} (a1 : Bytes) (a2 : Bytes) (s : State) (h : Keeps s₀ s) :
    KeepsOR s₀ (placeEntry a1 a2 s) := by
  unfold placeEntry
  repeat' first
    | with_reducible intro _
    | with_reducible assumption
    | with_reducible apply extWrite_keeps
    | with_reducible apply takeEach_keeps
    | with_reducible apply Keeps.ite
    | with_reducible apply Keeps.fold
    | with_reducible apply Keeps.same_id
    | with_reducible apply KeepsR.ite
    | with_reducible apply KeepsR.fold
    | with_reducible exact KeepsOR.no
    | with_reducible apply KeepsOR.ite
    | with_reducible apply KeepsOR.mapR
    | with_reducible apply KeepsOR.map
    | with_reducible apply KeepsOR.getD
    | with_reducible refine KeepsOR.get2 (by assumption) ?_
    | with_reducible refine KeepsOR.get (by assumption) ?_
    | with_reducible refine KeepsR.get (by assumption) ?_
    | (with_reducible apply KeepsR.snd; with_reducible assumption)
    | (extract_lets +onlyGivenNames x; clear_value x)
    | with_reducible apply hk
    | split
    | with_reducible apply KeepsR.mk

theorem placeEntries_keeps {s₀ : State} (img : Bytes) (i : ℕ) (l : List Bytes) (s : State) (h : Keeps s₀ s) :
    KeepsOR s₀ (placeEntries img i l s) := by
  induction l generalizing i s with
  | nil => exact KeepsOR.mk h
  | cons e l ih => exact KeepsOR.bindR (placeEntry_keeps _ _ _ h) fun x k => KeepsOR.mapR (ih _ _ k) fun _ a => a

theorem placeStake_keeps {s₀ : State} (a1 : Bytes) (s : State) (h : Keeps s₀ s) :
    KeepsOR s₀ (placeStake a1 s) := by
  unfold placeStake
  repeat' first
    | with_reducible intro _
    | with_reducible assumption
    | with_reducible apply placeDir_keeps
    | with_reducible apply placeEntries_keeps
    | with_reducible apply Keeps.ite
    | with_reducible apply Keeps.fold
    | with_reducible apply Keeps.same_id
    | with_reducible apply KeepsR.ite
    | with_reducible apply KeepsR.fold
    | with_reducible exact KeepsOR.no
    | with_reducible apply KeepsOR.ite
    | with_reducible apply KeepsOR.mapR
    | with_reducible apply KeepsOR.map
    | with_reducible apply KeepsOR.getD
    | with_reducible refine KeepsOR.get2 (by assumption) ?_
    | with_reducible refine KeepsOR.get (by assumption) ?_
    | with_reducible refine KeepsR.get (by assumption) ?_
    | (with_reducible apply KeepsR.snd; with_reducible assumption)
    | with_reducible apply hk
    | split
    | with_reducible apply KeepsR.mk

theorem stakeLoaded_keeps {s₀ : State} (a1 : ℕ) (s : State) (h : Keeps s₀ s) :
    Keeps s₀ (stakeLoaded a1 s) := by
  unfold stakeLoaded
  repeat' first
    | with_reducible intro _
    | with_reducible assumption
    | with_reducible apply damageEnds_keeps
    | with_reducible apply modCore_keeps
    | with_reducible apply modTier_keeps

theorem stkPlace_keeps {s₀ : State} (a1 : Pkt) (a2 : ℕ) (a3 : Bytes) (f4 : (State → State)) (f5 : (State → State)) (s : State) (hf4 : ∀ x0, Keeps s₀ x0 → Keeps s₀ (f4 x0)) (hf5 : ∀ x0, Keeps s₀ x0 → Keeps s₀ (f5 x0)) (h : Keeps s₀ s) :
    Keeps s₀ (stkPlace a1 a2 a3 f4 f5 s) := by
  unfold stkPlace
  repeat' first
    | with_reducible intro _
    | with_reducible assumption
    | with_reducible apply fail_keeps
    | with_reducible apply modTier_keeps
    | with_reducible apply ok_keeps
    | with_reducible apply placeStake_keeps
    | with_reducible apply refsNow_keeps
    | with_reducible apply stakeLoaded_keeps
    | with_reducible apply hf4
    | with_reducible apply hf5
    | with_reducible apply Keeps.ite
    | with_reducible apply Keeps.fold
    | with_reducible apply Keeps.same_id
    | with_reducible apply KeepsR.ite
    | with_reducible apply KeepsR.fold
    | with_reducible exact KeepsOR.no
    | with_reducible apply KeepsOR.ite
    | with_reducible apply KeepsOR.mapR
    | with_reducible apply KeepsOR.map
    | with_reducible apply KeepsOR.getD
    | with_reducible refine KeepsOR.get2 (by assumption) ?_
    | with_reducible refine KeepsOR.get (by assumption) ?_
    | with_reducible refine KeepsR.get (by assumption) ?_
    | with_reducible apply hk
    | split

theorem stkComplete_keeps {s₀ : State} (a1 : Pkt) (a2 : ℕ) (a3 : ImgLoad) (s : State) (h : Keeps s₀ s) :
    Keeps s₀ (stkComplete a1 a2 a3 s) := by
  unfold stkComplete
  repeat' first
    | with_reducible intro _
    | with_reducible assumption
    | with_reducible apply copyKeep_keeps
    | with_reducible apply fail_keeps
    | with_reducible apply loadDel_keeps
    | with_reducible apply loadEnd_keeps
    | with_reducible apply pend_keeps
    | with_reducible apply stkPlace_keeps
    | with_reducible apply Keeps.ite

theorem stkReceive_keeps {s₀ : State} (keep : Bool) (n : ℕ) (s : State) (h : Keeps s₀ s) : Keeps s₀ (stkReceive keep n s).2.2 := by
  have k : ∀ a, KeepsOR s₀ (extTake a n s) := fun a => extTake_keeps a n s h
  unfold stkReceive
  split
  · split
    · exact h
    · rename_i j _
      have := k [stakeLpx s j]
      generalize extTake [stakeLpx s j] n s = o at this
      cases o with
      | none => exact h
      | some x => exact this _ rfl
  · have := k (((List.range 12).filter (hbmServes s)).map (stakeArea s))
    generalize extTake (((List.range 12).filter (hbmServes s)).map (stakeArea s)) n s = o at this
    cases o with
    | none => exact h
    | some x => exact this _ rfl

theorem stkAfter_keeps {s₀ : State} (a1 : Pkt) (a2 : ImgLoad) (s : State) (h : Keeps s₀ s) :
    Keeps s₀ (stkAfter a1 a2 s) := by
  unfold stkAfter
  repeat' first
    | with_reducible intro _
    | with_reducible assumption
    | with_reducible apply failMsg_keeps
    | with_reducible apply loadEnd_keeps
    | with_reducible apply loadPut_keeps
    | with_reducible apply ok_keeps
    | with_reducible apply stkComplete_keeps
    | with_reducible apply stkReceive_keeps
    | with_reducible apply Keeps.ite

theorem stkFromCopy_keeps {s₀ : State} (a1 : Pkt) (s : State) (h : Keeps s₀ s) :
    Keeps s₀ (stkFromCopy a1 s) := by
  unfold stkFromCopy
  repeat' first
    | with_reducible intro _
    | with_reducible assumption
    | with_reducible apply copyRead_keeps
    | with_reducible apply fail_keeps
    | with_reducible apply pend_keeps
    | with_reducible apply stkPlace_keeps
    | with_reducible apply Keeps.ite
    | with_reducible apply Keeps.fold
    | with_reducible apply Keeps.same_id
    | (extract_lets +onlyGivenNames x; clear_value (hx : x = _); refine Keeps.via (s := s₀) hx ?_ (fun _ => ?_); clear hx)
    | with_reducible apply hk
    | split

theorem stkLoadAct_keeps {s₀ : State} (a1 : Pkt) (s : State) (h : Keeps s₀ s) :
    Keeps s₀ (stkLoadAct a1 s) := by
  unfold stkLoadAct
  repeat' first
    | with_reducible intro _
    | with_reducible assumption
    | with_reducible apply loadFail_keeps
    | with_reducible apply stkAfter_keeps
    | with_reducible apply stkFromCopy_keeps
    | with_reducible apply Keeps.ite

theorem stkLoadFx_keeps {s₀ : State} (a1 : Pkt) (s : State) (h : Keeps s₀ s) :
    Keeps s₀ (stkLoadFx a1 s) := by
  unfold stkLoadFx
  repeat' first
    | with_reducible intro _
    | with_reducible assumption
    | with_reducible apply loadReceive_keeps
    | with_reducible apply stkLoadAct_keeps

theorem execStkLoad_keeps {s₀ : State} (a1 : Pkt) (s : State) (h : Keeps s₀ s) :
    KeepsX s₀ (execStkLoad a1 s) := by
  unfold execStkLoad
  repeat' first
    | with_reducible intro _
    | with_reducible assumption
    | with_reducible apply stkLoadFx_keeps
    | with_reducible apply Keeps.ite
    | with_reducible apply KeepsX.mk

theorem stkRetireAct_keeps {s₀ : State} (a1 : Pkt) (s : State) (h : Keeps s₀ s) :
    Keeps s₀ (stkRetireAct a1 s) := by
  unfold stkRetireAct
  repeat' first
    | with_reducible intro _
    | with_reducible assumption
    | with_reducible apply fail_keeps
    | with_reducible apply loadEnd_keeps
    | with_reducible apply modTier_keeps
    | with_reducible apply ok_keeps
    | with_reducible apply refsNow_keeps
    | with_reducible apply Keeps.ite
    | with_reducible apply Keeps.fold
    | with_reducible apply Keeps.same_id
    | with_reducible apply hk
    | split

theorem stkRetireFx_keeps {s₀ : State} (a1 : Pkt) (s : State) (h : Keeps s₀ s) :
    Keeps s₀ (stkRetireFx a1 s) := by
  unfold stkRetireFx
  repeat' first
    | with_reducible intro _
    | with_reducible assumption
    | with_reducible apply orFormat_keeps
    | with_reducible apply receive_keeps
    | with_reducible apply stkRetireAct_keeps

theorem execStkRetire_keeps {s₀ : State} (a1 : Pkt) (s : State) (h : Keeps s₀ s) :
    KeepsX s₀ (execStkRetire a1 s) := by
  unfold execStkRetire
  repeat' first
    | with_reducible intro _
    | with_reducible assumption
    | with_reducible apply stkRetireFx_keeps
    | with_reducible apply Keeps.ite
    | with_reducible apply KeepsX.mk

theorem extentRepaired_keeps {s₀ : State} (a1 : ℕ) (a2 : ℕ) (a3 : ℕ) (s : State) (h : Keeps s₀ s) :
    Keeps s₀ (extentRepaired a1 a2 a3 s) := by
  unfold extentRepaired
  repeat' first
    | with_reducible intro _
    | with_reducible assumption
    | with_reducible apply extFree_keeps
    | with_reducible apply modTier_keeps

theorem stakeRepair_keeps {s₀ : State} (a1 : ℕ) (s : State) (a3 : ℕ) (h : Keeps s₀ s) :
    Keeps s₀ (stakeRepair a1 s a3) := by
  unfold stakeRepair
  repeat' first
    | with_reducible intro _
    | with_reducible assumption
    | with_reducible apply copyRead_keeps
    | with_reducible apply extTake_keeps
    | with_reducible apply extentRepaired_keeps
    | with_reducible apply memStore_keeps
    | with_reducible apply stakeLost_keeps
    | with_reducible apply Keeps.ite
    | with_reducible apply Keeps.fold
    | with_reducible apply Keeps.same_id
    | with_reducible apply KeepsR.ite
    | with_reducible apply KeepsR.fold
    | with_reducible exact KeepsOR.no
    | with_reducible apply KeepsOR.ite
    | with_reducible apply KeepsOR.mapR
    | with_reducible apply KeepsOR.map
    | with_reducible apply KeepsOR.getD
    | with_reducible refine KeepsOR.get2 (by assumption) ?_
    | with_reducible refine KeepsOR.get (by assumption) ?_
    | with_reducible refine KeepsR.get (by assumption) ?_
    | with_reducible apply hk
    | split

theorem repairAll_keeps {s₀ : State} (s : State) (h : Keeps s₀ s) :
    Keeps s₀ (repairAll s) := by
  unfold repairAll
  repeat' first
    | with_reducible intro _
    | with_reducible assumption
    | with_reducible apply damageAt_keeps
    | with_reducible apply modTier_keeps
    | with_reducible apply stakeRepair_keeps
    | with_reducible apply Keeps.ite
    | with_reducible apply Keeps.fold

theorem repairNow_keeps {s₀ : State} (s : State) (h : Keeps s₀ s) :
    Keeps s₀ (repairNow s) := by
  unfold repairNow
  repeat' first
    | with_reducible intro _
    | with_reducible assumption
    | with_reducible apply repairAll_keeps
    | with_reducible apply settle_keeps
    | with_reducible apply Keeps.ite

theorem tableDamage_keeps {s₀ : State} (a1 : ℕ) (a2 : ℕ) (a3 : ℕ) (s : State) (h : Keeps s₀ s) :
    Keeps s₀ (tableDamage a1 a2 a3 s) := by
  unfold tableDamage
  repeat' first
    | with_reducible intro _
    | with_reducible assumption
    | with_reducible apply memStore_keeps
    | with_reducible apply modTier_keeps
    | with_reducible apply restrictEnter_keeps
    | with_reducible apply Keeps.ite

theorem tableLoaded_keeps {s₀ : State} (s : State) (h : Keeps s₀ s) :
    Keeps s₀ (tableLoaded s) := by
  unfold tableLoaded
  repeat' first
    | with_reducible intro _
    | with_reducible assumption
    | with_reducible apply damageEnds_keeps
    | with_reducible apply modCore_keeps

theorem activateEnd_keeps {s₀ : State} (s : State) (h : Keeps s₀ s) :
    Keeps s₀ (activateEnd s) := by
  unfold activateEnd
  repeat' first
    | with_reducible intro _
    | with_reducible assumption
    | with_reducible apply modCore_keeps
    | with_reducible apply modTier_keeps
    | with_reducible apply ok_keeps
    | with_reducible apply refsNow_keeps
    | with_reducible apply shapeCheck_keeps
    | with_reducible apply tableLoaded_keeps
    | with_reducible apply Keeps.ite
    | with_reducible apply Keeps.fold
    | with_reducible apply Keeps.same_id
    | (extract_lets +onlyGivenNames x; clear_value (hx : x = _); refine Keeps.via (s := s₀) hx ?_ (fun _ => ?_); clear hx)
    | with_reducible apply hk
    | split

theorem modTbl_keeps {s₀ : State} (a1 : ℕ) (a2 : (TblSlot → TblSlot)) (s : State) (h : Keeps s₀ s) :
    Keeps s₀ (modTbl a1 a2 s) := by
  unfold modTbl
  repeat' first
    | with_reducible intro _
    | with_reducible assumption
    | with_reducible apply modTier_keeps

theorem activateSwap_keeps {s₀ : State} (s : State) (h : Keeps s₀ s) :
    Keeps s₀ (activateSwap s) := by
  unfold activateSwap
  repeat' first
    | with_reducible intro _
    | with_reducible assumption
    | with_reducible apply modTbl_keeps
    | with_reducible apply refsNow_keeps
    | with_reducible apply Keeps.ite
    | with_reducible apply Keeps.fold
    | with_reducible apply Keeps.same_id
    | (extract_lets +onlyGivenNames x; clear_value (hx : x = _); refine Keeps.via (s := s₀) hx ?_ (fun _ => ?_); clear hx)
    | with_reducible apply hk
    | split

theorem activateNow_keeps {s₀ : State} (s : State) (h : Keeps s₀ s) :
    Keeps s₀ (activateNow s) := by
  unfold activateNow
  repeat' first
    | with_reducible intro _
    | with_reducible assumption
    | with_reducible apply activateEnd_keeps
    | with_reducible apply activateSwap_keeps

theorem activateBlocked_keeps {s₀ : State} (s : State) (h : Keeps s₀ s) :
    Keeps s₀ (activateBlocked s) := by
  unfold activateBlocked
  repeat' first
    | with_reducible intro _
    | with_reducible assumption
    | with_reducible apply activateNow_keeps
    | with_reducible apply runsEnd_keeps
    | with_reducible apply Keeps.ite

theorem activateSoon_keeps {s₀ : State} (s : State) (h : Keeps s₀ s) :
    Keeps s₀ (activateSoon s) := by
  unfold activateSoon
  repeat' first
    | with_reducible intro _
    | with_reducible assumption
    | with_reducible apply activateBlocked_keeps
    | with_reducible apply activateNow_keeps
    | with_reducible apply Keeps.ite

theorem activateAct_keeps {s₀ : State} (a1 : Pkt) (s : State) (h : Keeps s₀ s) :
    Keeps s₀ (activateAct a1 s) := by
  unfold activateAct
  repeat' first
    | with_reducible intro _
    | with_reducible assumption
    | with_reducible apply activateSoon_keeps
    | with_reducible apply fail_keeps
    | with_reducible apply modTier_keeps
    | with_reducible apply ok_keeps
    | with_reducible apply pend_keeps
    | with_reducible apply shapeCheck_keeps
    | with_reducible apply tableLoaded_keeps
    | with_reducible apply Keeps.ite
    | with_reducible apply Keeps.fold
    | with_reducible apply Keeps.same_id
    | with_reducible apply hk
    | split

theorem tblActivateFx_keeps {s₀ : State} (a1 : Pkt) (s : State) (h : Keeps s₀ s) :
    Keeps s₀ (tblActivateFx a1 s) := by
  unfold tblActivateFx
  repeat' first
    | with_reducible intro _
    | with_reducible assumption
    | with_reducible apply activateAct_keeps
    | with_reducible apply orFormat_keeps
    | with_reducible apply receive_keeps

theorem execTblActivate_keeps {s₀ : State} (a1 : Pkt) (s : State) (h : Keeps s₀ s) :
    KeepsX s₀ (execTblActivate a1 s) := by
  unfold execTblActivate
  repeat' first
    | with_reducible intro _
    | with_reducible assumption
    | with_reducible apply tblActivateFx_keeps
    | with_reducible apply Keeps.ite
    | with_reducible apply KeepsX.mk

theorem slotClear_keeps {s₀ : State} (a1 : ℕ) (a2 : ℕ) (s : State) (h : Keeps s₀ s) :
    Keeps s₀ (slotClear a1 a2 s) := by
  unfold slotClear
  repeat' first
    | with_reducible intro _
    | with_reducible assumption
    | with_reducible apply loadEnd_keeps
    | with_reducible apply modTbl_keeps
    | with_reducible apply refsNow_keeps

theorem tblComplete_keeps {s₀ : State} (a1 : Pkt) (a2 : ℕ) (a3 : ImgLoad) (s : State) (h : Keeps s₀ s) :
    Keeps s₀ (tblComplete a1 a2 a3 s) := by
  unfold tblComplete
  repeat' first
    | with_reducible intro _
    | with_reducible assumption
    | with_reducible apply damageEnds_keeps
    | with_reducible apply fail_keeps
    | with_reducible apply loadDel_keeps
    | with_reducible apply memStore_keeps
    | with_reducible apply modTbl_keeps
    | with_reducible apply ok_keeps
    | with_reducible apply pend_keeps
    | with_reducible apply refsNow_keeps
    | with_reducible apply slotClear_keeps
    | with_reducible apply Keeps.ite
    | with_reducible apply Keeps.fold

theorem tblAfter_keeps {s₀ : State} (a1 : Pkt) (a2 : ℕ) (a3 : ImgLoad) (s : State) (h : Keeps s₀ s) :
    Keeps s₀ (tblAfter a1 a2 a3 s) := by
  unfold tblAfter
  repeat' first
    | with_reducible intro _
    | with_reducible assumption
    | with_reducible apply failMsg_keeps
    | with_reducible apply loadPut_keeps
    | with_reducible apply modTbl_keeps
    | with_reducible apply ok_keeps
    | with_reducible apply slotClear_keeps
    | with_reducible apply tblComplete_keeps
    | with_reducible apply Keeps.ite

theorem tblLoadAct_keeps {s₀ : State} (a1 : Pkt) (s : State) (h : Keeps s₀ s) :
    Keeps s₀ (tblLoadAct a1 s) := by
  unfold tblLoadAct
  repeat' first
    | with_reducible intro _
    | with_reducible assumption
    | with_reducible apply loadFail_keeps
    | with_reducible apply modTbl_keeps
    | with_reducible apply tblAfter_keeps
    | with_reducible apply Keeps.ite
    | with_reducible apply Keeps.fold
    | with_reducible apply Keeps.same_id
    | with_reducible apply hk
    | split

theorem tblLoadFx_keeps {s₀ : State} (a1 : Pkt) (s : State) (h : Keeps s₀ s) :
    Keeps s₀ (tblLoadFx a1 s) := by
  unfold tblLoadFx
  repeat' first
    | with_reducible intro _
    | with_reducible assumption
    | with_reducible apply loadReceive_keeps
    | with_reducible apply tblLoadAct_keeps

theorem execTblLoad_keeps {s₀ : State} (a1 : Pkt) (s : State) (h : Keeps s₀ s) :
    KeepsX s₀ (execTblLoad a1 s) := by
  unfold execTblLoad
  repeat' first
    | with_reducible intro _
    | with_reducible assumption
    | with_reducible apply tblLoadFx_keeps
    | with_reducible apply Keeps.ite
    | with_reducible apply KeepsX.mk

theorem tblRetireAct_keeps {s₀ : State} (a1 : Pkt) (s : State) (h : Keeps s₀ s) :
    Keeps s₀ (tblRetireAct a1 s) := by
  unfold tblRetireAct
  repeat' first
    | with_reducible intro _
    | with_reducible assumption
    | with_reducible apply fail_keeps
    | with_reducible apply ok_keeps
    | with_reducible apply slotClear_keeps
    | with_reducible apply Keeps.ite
    | with_reducible apply Keeps.fold
    | with_reducible apply Keeps.same_id
    | with_reducible apply hk
    | split

theorem tblRetireFx_keeps {s₀ : State} (a1 : Pkt) (s : State) (h : Keeps s₀ s) :
    Keeps s₀ (tblRetireFx a1 s) := by
  unfold tblRetireFx
  repeat' first
    | with_reducible intro _
    | with_reducible assumption
    | with_reducible apply orFormat_keeps
    | with_reducible apply receive_keeps
    | with_reducible apply tblRetireAct_keeps

theorem execTblRetire_keeps {s₀ : State} (a1 : Pkt) (s : State) (h : Keeps s₀ s) :
    KeepsX s₀ (execTblRetire a1 s) := by
  unfold execTblRetire
  repeat' first
    | with_reducible intro _
    | with_reducible assumption
    | with_reducible apply tblRetireFx_keeps
    | with_reducible apply Keeps.ite
    | with_reducible apply KeepsX.mk

theorem modWslot_keeps {s₀ : State} (a1 : ℕ) (a2 : (WSlot → WSlot)) (s : State) (h : Keeps s₀ s) :
    Keeps s₀ (modWslot a1 a2 s) := by
  unfold modWslot
  repeat' first
    | with_reducible intro _
    | with_reducible assumption
    | with_reducible apply modTier_keeps

theorem wslotClear_keeps {s₀ : State} (a1 : ℕ) (s : State) (h : Keeps s₀ s) :
    Keeps s₀ (wslotClear a1 s) := by
  unfold wslotClear
  repeat' first
    | with_reducible intro _
    | with_reducible assumption
    | with_reducible apply extFree_keeps
    | with_reducible apply modTier_keeps
    | with_reducible apply Keeps.ite
    | with_reducible apply Keeps.fold
    | with_reducible apply Keeps.same_id
    | with_reducible apply hk
    | split

theorem promotionVerifiedFx_keeps {s₀ : State} (a1 : ℕ) (a2 : Bool) (s : State) (h : Keeps s₀ s) :
    Keeps s₀ (promotionVerifiedFx a1 a2 s) := by
  unfold promotionVerifiedFx
  repeat' first
    | with_reducible intro _
    | with_reducible assumption
    | with_reducible apply bump_keeps
    | with_reducible apply extWrite_keeps
    | with_reducible apply modWslot_keeps
    | with_reducible apply wslotClear_keeps
    | with_reducible apply Keeps.ite
    | with_reducible apply Keeps.fold
    | with_reducible apply Keeps.same_id
    | with_reducible apply hk
    | split

theorem execPromotionVerified_keeps {s₀ : State} (a1 : ℕ) (a2 : Bool) (s : State) (h : Keeps s₀ s) :
    KeepsX s₀ (execPromotionVerified a1 a2 s) := by
  unfold execPromotionVerified
  repeat' first
    | with_reducible intro _
    | with_reducible assumption
    | with_reducible apply promotionVerifiedFx_keeps
    | with_reducible apply Keeps.ite
    | with_reducible apply KeepsX.mk

theorem supersede_keeps {s₀ : State} (a1 : ℕ) (s : State) (h : Keeps s₀ s) :
    Keeps s₀ (supersede a1 s) := by
  unfold supersede
  repeat' first
    | with_reducible intro _
    | with_reducible assumption
    | with_reducible apply modWithy_keeps
    | with_reducible apply withyFree_keeps
    | with_reducible apply Keeps.ite
    | with_reducible apply Keeps.fold

theorem wthBecome_keeps {s₀ : State} (a1 : ℕ) (a2 : ImgLoad) (a3 : Bytes) (s : State) (h : Keeps s₀ s) :
    Keeps s₀ (wthBecome a1 a2 a3 s) := by
  unfold wthBecome
  repeat' first
    | with_reducible intro _
    | with_reducible assumption
    | with_reducible apply bump_keeps
    | with_reducible apply extWrite_keeps
    | with_reducible apply loadDel_keeps
    | with_reducible apply modCore_keeps
    | with_reducible apply modTier_keeps
    | with_reducible apply supersede_keeps

theorem wthEnd_keeps {s₀ : State} (a1 : ℕ) (s : State) (h : Keeps s₀ s) :
    Keeps s₀ (wthEnd a1 s) := by
  unfold wthEnd
  repeat' first
    | with_reducible intro _
    | with_reducible assumption
    | with_reducible apply loadEnd_keeps
    | with_reducible apply modTier_keeps
    | with_reducible apply withyFree_keeps
    | with_reducible apply Keeps.ite
    | with_reducible apply Keeps.fold
    | with_reducible apply Keeps.same_id
    | (extract_lets +onlyGivenNames x; clear_value (hx : x = _); refine Keeps.via (s := s₀) hx ?_ (fun _ => ?_); clear hx)
    | with_reducible apply hk
    | split

theorem wthComplete_keeps {s₀ : State} (a1 : Pkt) (a2 : ℕ) (a3 : ImgLoad) (s : State) (h : Keeps s₀ s) :
    Keeps s₀ (wthComplete a1 a2 a3 s) := by
  unfold wthComplete
  repeat' first
    | with_reducible intro _
    | with_reducible assumption
    | with_reducible apply fail_keeps
    | with_reducible apply ok_keeps
    | with_reducible apply wthBecome_keeps
    | with_reducible apply wthEnd_keeps
    | with_reducible apply Keeps.ite
    | with_reducible apply Keeps.fold
    | with_reducible apply Keeps.same_id
    | with_reducible apply hk
    | split

theorem extTakeOne_keeps {s₀ : State} (areas : List (ℕ × ℕ)) (n : ℕ) (s : State) (h : Keeps s₀ s) :
    KeepsOR s₀ (extTakeOne areas n s) := by
  unfold extTakeOne
  intro t e
  obtain ⟨_, a, _, _, k, _⟩ := List.findSome?_eq_some_iff.1 e
  exact extTake_keeps [a] n s h t k

theorem wthSpace_keeps {s₀ : State} (a1 : ℕ) (a2 : ℕ) (s : State) (h : Keeps s₀ s) :
    KeepsOR s₀ (wthSpace a1 a2 s) := by
  unfold wthSpace
  repeat' first
    | with_reducible intro _
    | with_reducible assumption
    | with_reducible apply extTake_keeps
    | with_reducible apply extTakeOne_keeps
    | with_reducible apply Keeps.ite
    | with_reducible apply Keeps.fold
    | with_reducible apply Keeps.same_id
    | with_reducible apply KeepsR.ite
    | with_reducible apply KeepsR.fold
    | with_reducible exact KeepsOR.no
    | with_reducible apply KeepsOR.ite
    | with_reducible apply KeepsOR.mapR
    | with_reducible apply KeepsOR.map
    | with_reducible apply KeepsOR.getD
    | with_reducible refine KeepsOR.get2 (by assumption) ?_
    | with_reducible refine KeepsOR.get (by assumption) ?_
    | with_reducible refine KeepsR.get (by assumption) ?_
    | (with_reducible apply KeepsR.snd; with_reducible assumption)
    | with_reducible apply hk
    | split
    | with_reducible apply KeepsR.mk
    | with_reducible apply KeepsOR.mk

theorem wthAfter_keeps {s₀ : State} (a1 : Pkt) (a2 : ℕ) (a3 : ImgLoad) (s : State) (h : Keeps s₀ s) :
    Keeps s₀ (wthAfter a1 a2 a3 s) := by
  unfold wthAfter
  repeat' first
    | with_reducible intro _
    | with_reducible assumption
    | with_reducible apply failMsg_keeps
    | with_reducible apply loadPut_keeps
    | with_reducible apply ok_keeps
    | with_reducible apply wthComplete_keeps
    | with_reducible apply wthEnd_keeps
    | with_reducible apply wthSpace_keeps
    | with_reducible apply Keeps.ite
    | with_reducible apply Keeps.fold
    | with_reducible apply Keeps.same_id
    | with_reducible apply KeepsR.ite
    | with_reducible apply KeepsR.fold
    | with_reducible exact KeepsOR.no
    | with_reducible apply KeepsOR.ite
    | with_reducible apply KeepsOR.mapR
    | with_reducible apply KeepsOR.map
    | with_reducible apply KeepsOR.getD
    | with_reducible refine KeepsOR.get2 (by assumption) ?_
    | with_reducible refine KeepsOR.get (by assumption) ?_
    | with_reducible refine KeepsR.get (by assumption) ?_
    | with_reducible apply hk
    | split

theorem wslotPut_keeps {s₀ : State} (a1 : ℕ) (a2 : WSlot) (s : State) (h : Keeps s₀ s) :
    Keeps s₀ (wslotPut a1 a2 s) := by
  unfold wslotPut
  repeat' first
    | with_reducible intro _
    | with_reducible assumption
    | with_reducible apply modTier_keeps

theorem wthTake_keeps {s₀ : State} (a1 : ℕ) (a2 : ℕ) (a3 : ℕ) (s : State) (h : Keeps s₀ s) :
    KeepsR s₀ (wthTake a1 a2 a3 s) := by
  unfold wthTake
  repeat' first
    | with_reducible intro _
    | with_reducible assumption
    | with_reducible apply wslotPut_keeps
    | with_reducible apply Keeps.ite
    | with_reducible apply Keeps.fold
    | with_reducible apply Keeps.same_id
    | with_reducible apply KeepsR.ite
    | with_reducible apply KeepsR.fold
    | with_reducible refine KeepsR.get (by assumption) ?_
    | with_reducible apply hk
    | split
    | with_reducible apply KeepsR.mk

theorem wthBegin_keeps {s₀ : State} (a1 : Pkt) (a2 : ℕ) (a3 : ImgLoad) (s : State) (h : Keeps s₀ s) :
    Keeps s₀ (wthBegin a1 a2 a3 s) := by
  unfold wthBegin
  repeat' first
    | with_reducible intro _
    | with_reducible assumption
    | with_reducible apply loadFail_keeps
    | with_reducible apply loadPut_keeps
    | with_reducible apply modTier_keeps
    | with_reducible apply wthAfter_keeps
    | with_reducible apply wthTake_keeps
    | with_reducible apply Keeps.ite
    | with_reducible apply Keeps.fold
    | with_reducible apply Keeps.same_id
    | with_reducible apply KeepsR.ite
    | with_reducible apply KeepsR.fold
    | with_reducible refine KeepsR.get (by assumption) ?_
    | (with_reducible apply KeepsR.snd; with_reducible apply wthTake_keeps)

theorem wthLoadAct_keeps {s₀ : State} (a1 : Pkt) (s : State) (h : Keeps s₀ s) :
    Keeps s₀ (wthLoadAct a1 s) := by
  unfold wthLoadAct
  repeat' first
    | with_reducible intro _
    | with_reducible assumption
    | with_reducible apply loadEnd_keeps
    | with_reducible apply loadFail_keeps
    | with_reducible apply wthAfter_keeps
    | with_reducible apply wthBegin_keeps
    | with_reducible apply Keeps.ite
    | with_reducible apply Keeps.fold
    | with_reducible apply Keeps.same_id
    | with_reducible apply hk
    | split

theorem wthLoadFx_keeps {s₀ : State} (a1 : Pkt) (s : State) (h : Keeps s₀ s) :
    Keeps s₀ (wthLoadFx a1 s) := by
  unfold wthLoadFx
  repeat' first
    | with_reducible intro _
    | with_reducible assumption
    | with_reducible apply loadReceive_keeps
    | with_reducible apply wthLoadAct_keeps

theorem execWthLoad_keeps {s₀ : State} (a1 : Pkt) (s : State) (h : Keeps s₀ s) :
    KeepsX s₀ (execWthLoad a1 s) := by
  unfold execWthLoad
  repeat' first
    | with_reducible intro _
    | with_reducible assumption
    | with_reducible apply wthLoadFx_keeps
    | with_reducible apply Keeps.ite
    | with_reducible apply KeepsX.mk

theorem wthQueryFx_keeps {s₀ : State} (a1 : Pkt) (s : State) (h : Keeps s₀ s) :
    Keeps s₀ (wthQueryFx a1 s) := by
  unfold wthQueryFx
  repeat' first
    | with_reducible intro _
    | with_reducible assumption
    | with_reducible apply orFormat_keeps
    | with_reducible apply receive_keeps
    | with_reducible apply respond_keeps

theorem execWthQuery_keeps {s₀ : State} (a1 : Pkt) (s : State) (h : Keeps s₀ s) :
    KeepsX s₀ (execWthQuery a1 s) := by
  unfold execWthQuery
  repeat' first
    | with_reducible intro _
    | with_reducible assumption
    | with_reducible apply wthQueryFx_keeps
    | with_reducible apply Keeps.ite
    | with_reducible apply KeepsX.mk

theorem retireOne_keeps {s₀ : State} (s : State) (a2 : ℕ) (h : Keeps s₀ s) :
    Keeps s₀ (retireOne s a2) := by
  unfold retireOne
  repeat' first
    | with_reducible intro _
    | with_reducible assumption
    | with_reducible apply modWithy_keeps
    | with_reducible apply withyFree_keeps
    | with_reducible apply wthEnd_keeps
    | with_reducible apply Keeps.ite
    | with_reducible apply Keeps.fold
    | with_reducible apply Keeps.same_id
    | with_reducible apply hk
    | split

theorem wthRetireFx_keeps {s₀ : State} (a1 : Pkt) (s : State) (h : Keeps s₀ s) :
    Keeps s₀ (wthRetireFx a1 s) := by
  unfold wthRetireFx
  repeat' first
    | with_reducible intro _
    | with_reducible assumption
    | with_reducible apply ok_keeps
    | with_reducible apply orFormat_keeps
    | with_reducible apply receive_keeps
    | with_reducible apply retireOne_keeps
    | with_reducible apply Keeps.ite
    | with_reducible apply Keeps.fold

theorem execWthRetire_keeps {s₀ : State} (a1 : Pkt) (s : State) (h : Keeps s₀ s) :
    KeepsX s₀ (execWthRetire a1 s) := by
  unfold execWthRetire
  repeat' first
    | with_reducible intro _
    | with_reducible assumption
    | with_reducible apply wthRetireFx_keeps
    | with_reducible apply Keeps.ite
    | with_reducible apply KeepsX.mk

theorem wthSlotSelWriteFx_keeps {s₀ : State} (a1 : ℕ) (s : State) (h : Keeps s₀ s) :
    Keeps s₀ (wthSlotSelWriteFx a1 s) := by
  unfold wthSlotSelWriteFx
  repeat' first
    | with_reducible intro _
    | with_reducible assumption
    | with_reducible apply regPut_keeps
    | with_reducible apply regSet_keeps
    | with_reducible apply Keeps.ite

theorem execWthSlotSelWrite_keeps {s₀ : State} (a1 : ℕ) (s : State) (h : Keeps s₀ s) :
    KeepsX s₀ (execWthSlotSelWrite a1 s) := by
  unfold execWthSlotSelWrite
  repeat' first
    | with_reducible intro _
    | with_reducible assumption
    | with_reducible apply wthSlotSelWriteFx_keeps
    | with_reducible apply Keeps.ite
    | with_reducible apply KeepsX.mk

theorem promote_keeps {s₀ : State} (a1 : ℕ) (a2 : ℕ) (s : State) (h : Keeps s₀ s) :
    Keeps s₀ (promote a1 a2 s) := by
  unfold promote
  repeat' first
    | with_reducible intro _
    | with_reducible assumption
    | with_reducible apply bump_keeps
    | with_reducible apply extTake_keeps
    | with_reducible apply wslotClear_keeps
    | with_reducible apply wslotPut_keeps
    | with_reducible apply Keeps.ite
    | with_reducible apply Keeps.fold
    | with_reducible apply Keeps.same_id
    | with_reducible apply KeepsR.ite
    | with_reducible apply KeepsR.fold
    | with_reducible exact KeepsOR.no
    | with_reducible apply KeepsOR.ite
    | with_reducible apply KeepsOR.mapR
    | with_reducible apply KeepsOR.map
    | with_reducible apply KeepsOR.getD
    | with_reducible refine KeepsOR.get2 (by assumption) ?_
    | with_reducible refine KeepsOR.get (by assumption) ?_
    | with_reducible refine KeepsR.get (by assumption) ?_
    | (extract_lets +onlyGivenNames x; clear_value (hx : x = _); refine Keeps.via (s := s₀) hx ?_ (fun _ => ?_); clear hx)
    | with_reducible apply hk
    | split

theorem wthLoadHit_keeps {s₀ : State} (a1 : ℕ) (s : State) (h : Keeps s₀ s) :
    Keeps s₀ (wthLoadHit a1 s) := by
  unfold wthLoadHit
  repeat' first
    | with_reducible intro _
    | with_reducible assumption
    | with_reducible apply loadPut_keeps
    | with_reducible apply wthEnd_keeps
    | with_reducible apply Keeps.ite
    | with_reducible apply Keeps.fold
    | with_reducible apply Keeps.same_id
    | with_reducible apply hk
    | split

theorem defectAppend_keeps {s₀ : State} (a1 : ℕ) (a2 : ℕ) (s : State) (h : Keeps s₀ s) :
    Keeps s₀ (defectAppend a1 a2 s) := by
  unfold defectAppend
  repeat' first
    | with_reducible intro _
    | with_reducible assumption
    | with_reducible apply modFlash_keeps
    | with_reducible apply Keeps.ite

theorem rowRemap_keeps {s₀ : State} (a1 : ℕ) (s : State) (h : Keeps s₀ s) :
    Keeps s₀ (rowRemap a1 s) := by
  unfold rowRemap
  repeat' first
    | with_reducible intro _
    | with_reducible assumption
    | with_reducible apply bump_keeps
    | with_reducible apply defectAppend_keeps
    | with_reducible apply modTier_keeps
    | with_reducible apply record_keeps
    | with_reducible apply regPut_keeps

theorem frameRelocate_keeps {s₀ : State} (a1 : ℕ) (a2 : ℕ) (s : State) (h : Keeps s₀ s) :
    Keeps s₀ (frameRelocate a1 a2 s) := by
  unfold frameRelocate
  repeat' first
    | with_reducible intro _
    | with_reducible assumption
    | with_reducible apply memWrite_keeps
    | with_reducible apply modEng_keeps
    | with_reducible apply modMan_keeps
    | with_reducible apply Keeps.ite
    | with_reducible apply Keeps.fold
    | with_reducible apply Keeps.same_id
    | (extract_lets +onlyGivenNames x; clear_value (hx : x = _); refine Keeps.via (s := s₀) hx ?_ (fun _ => ?_); clear hx)
    | (extract_lets +onlyGivenNames x; clear_value x)
    | with_reducible apply hk
    | split

theorem moveOpenNow_keeps {s₀ : State} (s : State) (h : Keeps s₀ s) :
    Keeps s₀ (moveOpenNow s) := by
  unfold moveOpenNow
  repeat' first
    | with_reducible intro _
    | with_reducible assumption
    | with_reducible apply frameRelocate_keeps
    | with_reducible apply modTier_keeps
    | with_reducible apply Keeps.ite
    | with_reducible apply Keeps.fold
    | with_reducible apply Keeps.same_id
    | with_reducible apply hk
    | split

theorem extentMove_keeps {s₀ : State} (s : State) (a2 : ℕ × ℕ) (h : Keeps s₀ s) :
    Keeps s₀ (extentMove s a2) := by
  unfold extentMove
  repeat' first
    | with_reducible intro _
    | with_reducible assumption
    | with_reducible apply extFree_keeps
    | with_reducible apply memWrite_keeps
    | with_reducible apply modTier_keeps

theorem moveExtentOff_keeps {s₀ : State} (a1 : ℕ) (s : State) (h : Keeps s₀ s) :
    KeepsL s₀ (moveExtentOff a1 s) := by
  unfold moveExtentOff
  repeat' first
    | with_reducible intro _
    | with_reducible assumption
    | with_reducible apply extTake_keeps
    | with_reducible apply extentMove_keeps
    | with_reducible apply modTier_keeps
    | with_reducible apply takeEach_keeps
    | with_reducible apply Keeps.ite
    | with_reducible apply Keeps.fold
    | with_reducible apply Keeps.same_id
    | with_reducible apply KeepsR.ite
    | with_reducible apply KeepsR.fold
    | with_reducible apply KeepsL.ite
    | with_reducible apply KeepsL.fold
    | with_reducible exact KeepsOR.no
    | with_reducible apply KeepsOR.ite
    | with_reducible apply KeepsOR.mapR
    | with_reducible apply KeepsOR.map
    | with_reducible apply KeepsOR.getD
    | with_reducible refine KeepsOR.get2 (by assumption) ?_
    | with_reducible refine KeepsOR.get (by assumption) ?_
    | with_reducible refine KeepsR.get (by assumption) ?_
    | with_reducible refine KeepsL.get (by assumption) ?_
    | with_reducible apply hk
    | split
    | with_reducible apply KeepsR.mk
    | with_reducible apply KeepsL.mk

theorem moveFrameOff_keeps {s₀ : State} (a1 : ℕ) (a2 : Frame) (s : State) (h : Keeps s₀ s) :
    KeepsL s₀ (moveFrameOff a1 a2 s) := by
  unfold moveFrameOff
  repeat' first
    | with_reducible intro _
    | with_reducible assumption
    | with_reducible apply modMan_keeps
    | with_reducible apply modTier_keeps
    | with_reducible apply Keeps.ite
    | with_reducible apply Keeps.fold
    | with_reducible apply Keeps.same_id
    | with_reducible apply KeepsL.ite
    | with_reducible apply KeepsL.fold
    | with_reducible refine KeepsL.get (by assumption) ?_
    | with_reducible apply hk
    | split
    | with_reducible apply KeepsL.mk

theorem movePiece_keeps {s₀ : State} (p1 : State × ℕ) (a2 : ℕ) (h : KeepsL s₀ p1) :
    KeepsL s₀ (movePiece p1 a2) := by
  unfold movePiece
  repeat' first
    | with_reducible intro _
    | with_reducible assumption
    | with_reducible apply moveExtentOff_keeps
    | with_reducible apply moveFrameOff_keeps
    | with_reducible apply Keeps.ite
    | with_reducible apply Keeps.fold
    | with_reducible apply Keeps.same_id
    | with_reducible apply KeepsL.ite
    | with_reducible apply KeepsL.fold
    | with_reducible refine KeepsL.get (by assumption) ?_
    | (with_reducible apply KeepsL.fst; with_reducible assumption)
    | (extract_lets +onlyGivenNames x; clear_value (hx : x = _); refine Keeps.via (s := s₀) hx ?_ (fun _ => ?_); clear hx)
    | (extract_lets +onlyGivenNames x; clear_value (hx : x = _); refine KeepsL.via (s := s₀) hx ?_ (fun _ => ?_); clear hx)
    | with_reducible apply hk
    | split
    | with_reducible apply KeepsL.mk

theorem rowWithdraw_keeps {s₀ : State} (a1 : ℕ) (s : State) (h : Keeps s₀ s) :
    Keeps s₀ (rowWithdraw a1 s) := by
  unfold rowWithdraw
  repeat' first
    | with_reducible intro _
    | with_reducible assumption
    | with_reducible apply demoteCheck_keeps
    | with_reducible apply modTier_keeps
    | with_reducible apply moveOpenNow_keeps
    | with_reducible apply movePiece_keeps
    | with_reducible apply record_keeps
    | with_reducible apply Keeps.ite
    | with_reducible apply Keeps.fold
    | with_reducible apply Keeps.same_id
    | with_reducible apply KeepsL.ite
    | with_reducible apply KeepsL.fold
    | with_reducible refine KeepsL.get (by assumption) ?_
    | (with_reducible apply KeepsL.fst; with_reducible apply KeepsL.fold)
    | with_reducible apply hk
    | split
    | with_reducible apply KeepsL.mk

theorem hbmCorrectedErrorFx_keeps {s₀ : State} (a1 : ℕ) (a2 : ℕ) (a3 : ℕ) (s : State) (h : Keeps s₀ s) :
    Keeps s₀ (hbmCorrectedErrorFx a1 a2 a3 s) := by
  unfold hbmCorrectedErrorFx
  repeat' first
    | with_reducible intro _
    | with_reducible assumption
    | exact ErrKeeps.mk fun _ h => h
    | with_reducible apply atTick_keeps
    | with_reducible apply bump_keeps
    | with_reducible apply modErr_keeps
    | with_reducible apply record_keeps
    | with_reducible apply rowRemap_keeps
    | with_reducible apply rowWithdraw_keeps
    | with_reducible apply Keeps.ite

theorem execHbmCorrectedError_keeps {s₀ : State} (a1 : ℕ) (a2 : ℕ) (a3 : ℕ) (s : State) (h : Keeps s₀ s) :
    KeepsX s₀ (execHbmCorrectedError a1 a2 a3 s) := by
  unfold execHbmCorrectedError
  repeat' first
    | with_reducible intro _
    | with_reducible assumption
    | with_reducible apply hbmCorrectedErrorFx_keeps
    | with_reducible apply Keeps.ite
    | with_reducible apply KeepsX.mk

theorem hbmRowCopyDoneFx_keeps {s₀ : State} (a1 : ℕ) (a2 : ℕ) (s : State) (h : Keeps s₀ s) :
    Keeps s₀ (hbmRowCopyDoneFx a1 a2 s) := by
  unfold hbmRowCopyDoneFx
  repeat' first
    | with_reducible intro _
    | with_reducible assumption
    | with_reducible apply atTick_keeps
    | with_reducible apply modTier_keeps

theorem execHbmRowCopyDone_keeps {s₀ : State} (a1 : ℕ) (a2 : ℕ) (s : State) (h : Keeps s₀ s) :
    KeepsX s₀ (execHbmRowCopyDone a1 a2 s) := by
  unfold execHbmRowCopyDone
  repeat' first
    | with_reducible intro _
    | with_reducible assumption
    | with_reducible apply hbmRowCopyDoneFx_keeps
    | with_reducible apply Keeps.ite
    | with_reducible apply KeepsX.mk

theorem winErrSet_keeps {s₀ : State} (s : State) (h : Keeps s₀ s) :
    Keeps s₀ (winErrSet s) := by
  unfold winErrSet
  repeat' first
    | with_reducible intro _
    | with_reducible assumption
    | with_reducible apply modTier_keeps

theorem winCtrlWrite_keeps {s₀ : State} (a1 : ℕ) (a2 : ℕ) (s : State) (h : Keeps s₀ s) :
    Keeps s₀ (winCtrlWrite a1 a2 s) := by
  unfold winCtrlWrite
  repeat' first
    | with_reducible intro _
    | with_reducible assumption
    | with_reducible apply regPut_keeps
    | with_reducible apply regSet_keeps
    | with_reducible apply winErrSet_keeps
    | with_reducible apply Keeps.ite

theorem hostwinEnableWriteFx_keeps {s₀ : State} (a1 : ℕ) (a2 : ℕ) (s : State) (h : Keeps s₀ s) :
    Keeps s₀ (hostwinEnableWriteFx a1 a2 s) := by
  unfold hostwinEnableWriteFx
  repeat' first
    | with_reducible intro _
    | with_reducible assumption
    | with_reducible apply winCtrlWrite_keeps
    | with_reducible apply Keeps.ite

theorem execHostwinEnableWrite_keeps {s₀ : State} (a1 : ℕ) (a2 : ℕ) (s : State) (h : Keeps s₀ s) :
    KeepsX s₀ (execHostwinEnableWrite a1 a2 s) := by
  unfold execHostwinEnableWrite
  repeat' first
    | with_reducible intro _
    | with_reducible assumption
    | with_reducible apply hostwinEnableWriteFx_keeps
    | with_reducible apply Keeps.ite
    | with_reducible apply KeepsX.mk

theorem wordWrite_keeps {s₀ : State} (a1 : ℕ) (a2 : ℕ) (s : State) (h : Keeps s₀ s) :
    Keeps s₀ (wordWrite a1 a2 s) := by
  unfold wordWrite
  repeat' first
    | with_reducible intro _
    | with_reducible assumption
    | with_reducible apply regSet_keeps
    | with_reducible apply Keeps.ite
    | with_reducible apply Keeps.fold
    | with_reducible apply Keeps.same_id
    | with_reducible apply hk
    | split

theorem winFieldWrite_keeps {s₀ : State} (a1 : ℕ) (a2 : ℕ) (s : State) (h : Keeps s₀ s) :
    Keeps s₀ (winFieldWrite a1 a2 s) := by
  unfold winFieldWrite
  repeat' first
    | with_reducible intro _
    | with_reducible assumption
    | with_reducible apply winCtrlWrite_keeps
    | with_reducible apply winErrSet_keeps
    | with_reducible apply wordWrite_keeps
    | with_reducible apply Keeps.ite
    | with_reducible apply Keeps.fold
    | with_reducible apply Keeps.same_id
    | with_reducible apply hk
    | split

theorem hostwinFieldWriteFx_keeps {s₀ : State} (a1 : ℕ) (a2 : ℕ) (s : State) (h : Keeps s₀ s) :
    Keeps s₀ (hostwinFieldWriteFx a1 a2 s) := by
  unfold hostwinFieldWriteFx
  repeat' first
    | with_reducible intro _
    | with_reducible assumption
    | with_reducible apply winFieldWrite_keeps
    | with_reducible apply Keeps.ite

theorem execHostwinFieldWrite_keeps {s₀ : State} (a1 : ℕ) (a2 : ℕ) (s : State) (h : Keeps s₀ s) :
    KeepsX s₀ (execHostwinFieldWrite a1 a2 s) := by
  unfold execHostwinFieldWrite
  repeat' first
    | with_reducible intro _
    | with_reducible assumption
    | with_reducible apply hostwinFieldWriteFx_keeps
    | with_reducible apply Keeps.ite
    | with_reducible apply KeepsX.mk

theorem lpxCorrectedErrorFx_keeps {s₀ : State} (a1 : ℕ) (a2 : ℕ) (a3 : ℕ) (s : State) (h : Keeps s₀ s) :
    Keeps s₀ (lpxCorrectedErrorFx a1 a2 a3 s) := by
  unfold lpxCorrectedErrorFx
  repeat' first
    | with_reducible intro _
    | with_reducible assumption
    | with_reducible apply atTick_keeps
    | with_reducible apply bump_keeps
    | with_reducible apply record_keeps
    | with_reducible apply Keeps.ite

theorem execLpxCorrectedError_keeps {s₀ : State} (a1 : ℕ) (a2 : ℕ) (a3 : ℕ) (s : State) (h : Keeps s₀ s) :
    KeepsX s₀ (execLpxCorrectedError a1 a2 a3 s) := by
  unfold execLpxCorrectedError
  repeat' first
    | with_reducible intro _
    | with_reducible assumption
    | with_reducible apply lpxCorrectedErrorFx_keeps
    | with_reducible apply Keeps.ite
    | with_reducible apply KeepsX.mk

theorem objectDamage_keeps {s₀ : State} (a1 : ℕ) (a2 : DamagedObject) (s : State) (h : Keeps s₀ s) :
    Keeps s₀ (objectDamage a1 a2 s) := by
  unfold objectDamage
  repeat' first
    | with_reducible intro _
    | with_reducible assumption
    | with_reducible apply frameDamaged_keeps
    | with_reducible apply stakeDamage_keeps
    | with_reducible apply tableDamage_keeps
    | with_reducible apply withyDamage_keeps
    | with_reducible apply wthLoadHit_keeps
    | with_reducible apply Keeps.ite
    | with_reducible apply Keeps.fold
    | with_reducible apply Keeps.same_id
    | with_reducible apply hk
    | split

theorem memoryUeFx_keeps {s₀ : State} (a1 : ℕ) (a2 : ℕ) (a3 : Bool) (a4 : DamagedObject) (s : State) (h : Keeps s₀ s) :
    Keeps s₀ (memoryUeFx a1 a2 a3 a4 s) := by
  unfold memoryUeFx
  repeat' first
    | with_reducible intro _
    | with_reducible assumption
    | with_reducible apply atTick_keeps
    | with_reducible apply bump_keeps
    | with_reducible apply objectDamage_keeps
    | with_reducible apply record_keeps
    | with_reducible apply repairNow_keeps
    | with_reducible apply Keeps.ite
    | with_reducible apply Keeps.fold
    | with_reducible apply Keeps.same_id
    | with_reducible apply hk
    | split
    | with_reducible apply Keeps.upd

theorem execMemoryUe_keeps {s₀ : State} (a1 : ℕ) (a2 : ℕ) (a3 : Bool) (a4 : DamagedObject) (s : State) (h : Keeps s₀ s) :
    KeepsX s₀ (execMemoryUe a1 a2 a3 a4 s) := by
  unfold execMemoryUe
  repeat' first
    | with_reducible intro _
    | with_reducible assumption
    | with_reducible apply memoryUeFx_keeps
    | with_reducible apply Keeps.ite
    | with_reducible apply KeepsX.mk

theorem granuleFree_keeps {s₀ : State} (a1 : MovedObject) (a2 : ℕ) (s : State) (h : Keeps s₀ s) :
    Keeps s₀ (granuleFree a1 a2 s) := by
  unfold granuleFree
  repeat' first
    | with_reducible intro _
    | with_reducible assumption
    | with_reducible apply extFree_keeps
    | with_reducible apply modMan_keeps
    | with_reducible apply Keeps.ite
    | with_reducible apply Keeps.fold
    | with_reducible apply Keeps.same_id
    | with_reducible apply hk
    | split

theorem granuleMove_keeps {s₀ : State} (a1 : MovedObject) (s : State) (a3 : ℕ × ℕ) (h : Keeps s₀ s) :
    Keeps s₀ (granuleMove a1 s a3) := by
  unfold granuleMove
  repeat' first
    | with_reducible intro _
    | with_reducible assumption
    | with_reducible apply extentMove_keeps
    | with_reducible apply frameRelocate_keeps
    | with_reducible apply Keeps.ite
    | with_reducible apply Keeps.fold
    | with_reducible apply Keeps.same_id
    | with_reducible apply hk
    | split

theorem moveEnds_keeps {s₀ : State} (a1 : ObjMove) (a2 : Bool) (s : State) (h : Keeps s₀ s) :
    Keeps s₀ (moveEnds a1 a2 s) := by
  unfold moveEnds
  repeat' first
    | with_reducible intro _
    | with_reducible assumption
    | with_reducible apply granuleFree_keeps
    | with_reducible apply granuleMove_keeps
    | with_reducible apply Keeps.ite
    | with_reducible apply Keeps.fold

theorem objectMoveCompleteFx_keeps {s₀ : State} (a1 : MovedObject) (a2 : ℕ) (a3 : Bool) (s : State) (h : Keeps s₀ s) :
    Keeps s₀ (objectMoveCompleteFx a1 a2 a3 s) := by
  unfold objectMoveCompleteFx
  repeat' first
    | with_reducible intro _
    | with_reducible assumption
    | with_reducible apply atTick_keeps
    | with_reducible apply modTier_keeps
    | with_reducible apply moveEnds_keeps
    | with_reducible apply Keeps.ite
    | with_reducible apply Keeps.fold
    | with_reducible apply Keeps.same_id
    | (extract_lets +onlyGivenNames x; clear_value (hx : x = _); refine Keeps.via (s := s₀) hx ?_ (fun _ => ?_); clear hx)
    | with_reducible apply hk
    | split

theorem execObjectMoveComplete_keeps {s₀ : State} (a1 : MovedObject) (a2 : ℕ) (a3 : Bool) (s : State) (h : Keeps s₀ s) :
    KeepsX s₀ (execObjectMoveComplete a1 a2 a3 s) := by
  unfold execObjectMoveComplete
  repeat' first
    | with_reducible intro _
    | with_reducible assumption
    | with_reducible apply objectMoveCompleteFx_keeps
    | with_reducible apply Keeps.ite
    | with_reducible apply KeepsX.mk

theorem sramCorrectedErrorFx_keeps {s₀ : State} (a1 : Bool) (a2 : ℕ) (a3 : ℕ) (a4 : ℕ) (s : State) (h : Keeps s₀ s) :
    Keeps s₀ (sramCorrectedErrorFx a1 a2 a3 a4 s) := by
  unfold sramCorrectedErrorFx
  repeat' first
    | with_reducible intro _
    | with_reducible assumption
    | with_reducible apply atTick_keeps
    | with_reducible apply bump_keeps
    | with_reducible apply record_keeps
    | with_reducible apply Keeps.ite

theorem execSramCorrectedError_keeps {s₀ : State} (a1 : Bool) (a2 : ℕ) (a3 : ℕ) (a4 : ℕ) (s : State) (h : Keeps s₀ s) :
    KeepsX s₀ (execSramCorrectedError a1 a2 a3 a4 s) := by
  unfold execSramCorrectedError
  repeat' first
    | with_reducible intro _
    | with_reducible assumption
    | with_reducible apply sramCorrectedErrorFx_keeps
    | with_reducible apply Keeps.ite
    | with_reducible apply KeepsX.mk

theorem sramUeFx_keeps {s₀ : State} (a1 : ℕ) (a2 : ℕ) (a3 : SramOwner) (s : State) (h : Keeps s₀ s) :
    Keeps s₀ (sramUeFx a1 a2 a3 s) := by
  unfold sramUeFx
  repeat' first
    | with_reducible intro _
    | with_reducible assumption
    | with_reducible apply atTick_keeps
    | with_reducible apply failSoon_keeps
    | with_reducible apply linePoison_keeps
    | with_reducible apply qpError_keeps
    | with_reducible apply record_keeps
    | with_reducible apply settle_keeps
    | with_reducible apply Keeps.ite
    | with_reducible apply Keeps.fold
    | with_reducible apply Keeps.same_id
    | with_reducible apply hk
    | split

theorem execSramUe_keeps {s₀ : State} (a1 : ℕ) (a2 : ℕ) (a3 : SramOwner) (s : State) (h : Keeps s₀ s) :
    KeepsX s₀ (execSramUe a1 a2 a3 s) := by
  unfold execSramUe
  repeat' first
    | with_reducible intro _
    | with_reducible assumption
    | with_reducible apply sramUeFx_keeps
    | with_reducible apply Keeps.ite
    | with_reducible apply KeepsX.mk

theorem testAnswer_keeps {s₀ : State} (a1 : ℕ) (a2 : ℕ) (s : State) (h : Keeps s₀ s) :
    Keeps s₀ (testAnswer a1 a2 s) := by
  unfold testAnswer
  repeat' first
    | with_reducible intro _
    | with_reducible assumption
    | with_reducible apply modSlot_keeps
    | with_reducible apply ok_keeps
    | with_reducible apply record_keeps
    | with_reducible apply Keeps.ite
    | with_reducible apply Keeps.fold

theorem testDropped_keeps {s₀ : State} (a1 : ℕ) (s : State) (h : Keeps s₀ s) :
    Keeps s₀ (testDropped a1 s) := by
  unfold testDropped
  repeat' first
    | with_reducible intro _
    | with_reducible assumption
    | with_reducible apply testAnswer_keeps
    | with_reducible apply Keeps.ite

theorem slotAbsent_keeps {s₀ : State} (a1 : ℕ) (s : State) (h : Keeps s₀ s) :
    Keeps s₀ (slotAbsent a1 s) := by
  unfold slotAbsent
  repeat' first
    | with_reducible intro _
    | with_reducible assumption
    | with_reducible apply modSlot_keeps
    | with_reducible apply testDropped_keeps
    | with_reducible apply Keeps.ite

theorem reloadsDue_keeps {s₀ : State} (a1 : ℕ) (s : State) (h : Keeps s₀ s) :
    Keeps s₀ (reloadsDue a1 s) := by
  unfold reloadsDue
  repeat' first
    | with_reducible intro _
    | with_reducible assumption
    | with_reducible apply modCore_keeps

theorem stackMemoryGone_keeps {s₀ : State} (a1 : ℕ) (s : State) (h : Keeps s₀ s) :
    KeepsL s₀ (stackMemoryGone a1 s) := by
  unfold stackMemoryGone
  repeat' first
    | with_reducible intro _
    | with_reducible assumption
    | with_reducible apply arrivingGone_keeps
    | with_reducible apply frameDamaged_keeps
    | with_reducible apply loadEnd_keeps
    | with_reducible apply modTier_keeps
    | with_reducible apply withyDamage_keeps
    | with_reducible apply wslotClear_keeps
    | with_reducible apply wthEnd_keeps
    | with_reducible apply Keeps.ite
    | with_reducible apply Keeps.fold
    | with_reducible apply Keeps.same_id
    | with_reducible apply KeepsL.ite
    | with_reducible apply KeepsL.fold
    | with_reducible refine KeepsL.get (by assumption) ?_
    | (extract_lets +onlyGivenNames x; clear_value x)
    | with_reducible apply hk
    | split
    | with_reducible apply KeepsL.mk

theorem stackGone_keeps {s₀ : State} (a1 : ℕ) (a2 : ℕ) (s : State) (h : Keeps s₀ s) :
    Keeps s₀ (stackGone a1 a2 s) := by
  unfold stackGone
  repeat' first
    | with_reducible intro _
    | with_reducible assumption
    | with_reducible apply demoteCheck_keeps
    | with_reducible apply modCore_keeps
    | with_reducible apply modSlot_keeps
    | with_reducible apply record_keeps
    | with_reducible apply reloadsDue_keeps
    | with_reducible apply runsEnd_keeps
    | with_reducible apply settle_keeps
    | with_reducible apply shapeChanged_keeps
    | with_reducible apply slotAbsent_keeps
    | with_reducible apply stackMemoryGone_keeps
    | with_reducible apply stepAbort_keeps
    | with_reducible apply Keeps.ite
    | with_reducible apply Keeps.fold
    | with_reducible apply Keeps.same_id
    | with_reducible apply KeepsL.ite
    | with_reducible apply KeepsL.fold
    | with_reducible refine KeepsL.get (by assumption) ?_
    | (with_reducible apply KeepsL.fst; with_reducible apply stackMemoryGone_keeps)

theorem clusterGone_keeps {s₀ : State} (a1 : ℕ) (a2 : ℕ) (s : State) (h : Keeps s₀ s) :
    Keeps s₀ (clusterGone a1 a2 s) := by
  unfold clusterGone
  repeat' first
    | with_reducible intro _
    | with_reducible assumption
    | with_reducible apply modCore_keeps
    | with_reducible apply record_keeps
    | with_reducible apply shapeChanged_keeps
    | with_reducible apply slotAbsent_keeps
    | with_reducible apply stackGone_keeps
    | with_reducible apply Keeps.ite
    | with_reducible apply Keeps.fold

theorem testAbandon_keeps {s₀ : State} (a1 : ℕ) (s : State) (h : Keeps s₀ s) :
    Keeps s₀ (testAbandon a1 s) := by
  unfold testAbandon
  repeat' first
    | with_reducible intro _
    | with_reducible assumption
    | with_reducible apply modSlot_keeps
    | with_reducible apply testAnswer_keeps
    | with_reducible apply Keeps.ite

theorem spareFreed_keeps {s₀ : State} (a1 : ℕ) (s : State) (h : Keeps s₀ s) :
    Keeps s₀ (spareFreed a1 s) := by
  unfold spareFreed
  repeat' first
    | with_reducible intro _
    | with_reducible assumption
    | with_reducible apply modSlot_keeps
    | with_reducible apply testAbandon_keeps

theorem testedResumes_keeps {s₀ : State} (a1 : ℕ) (s : State) (h : Keeps s₀ s) :
    Keeps s₀ (testedResumes a1 s) := by
  unfold testedResumes
  repeat' first
    | with_reducible intro _
    | with_reducible assumption
    | with_reducible apply modCluster_keeps
    | with_reducible apply modSlot_keeps
    | with_reducible apply testAbandon_keeps
    | with_reducible apply Keeps.ite
    | with_reducible apply Keeps.fold
    | with_reducible apply Keeps.same_id
    | with_reducible apply hk
    | split

theorem spareFor_keeps {s₀ : State} (a1 : ℕ) (s : State) (h : Keeps s₀ s) :
    KeepsOR s₀ (spareFor a1 s) := by
  unfold spareFor
  repeat' first
    | with_reducible intro _
    | with_reducible assumption
    | with_reducible apply spareFreed_keeps
    | with_reducible apply testedResumes_keeps
    | with_reducible apply Keeps.ite
    | with_reducible apply Keeps.fold
    | with_reducible apply Keeps.same_id
    | with_reducible apply KeepsR.ite
    | with_reducible apply KeepsR.fold
    | with_reducible exact KeepsOR.no
    | with_reducible apply KeepsOR.ite
    | with_reducible apply KeepsOR.mapR
    | with_reducible apply KeepsOR.map
    | with_reducible apply KeepsOR.getD
    | with_reducible refine KeepsOR.get2 (by assumption) ?_
    | with_reducible refine KeepsOR.get (by assumption) ?_
    | with_reducible refine KeepsR.get (by assumption) ?_
    | with_reducible apply hk
    | split
    | with_reducible apply KeepsR.mk
    | with_reducible apply KeepsOR.mk

theorem idMoves_keeps {s₀ : State} (a1 : ℕ) (a2 : ℕ) (s : State) (h : Keeps s₀ s) :
    Keeps s₀ (idMoves a1 a2 s) := by
  unfold idMoves
  repeat' first
    | with_reducible intro _
    | with_reducible assumption
    | with_reducible apply clusterGone_keeps
    | with_reducible apply modCluster_keeps
    | with_reducible apply modSlot_keeps
    | with_reducible apply shapeChanged_keeps
    | with_reducible apply spareFor_keeps
    | with_reducible apply Keeps.ite
    | with_reducible apply Keeps.fold
    | with_reducible apply Keeps.same_id
    | with_reducible apply KeepsR.ite
    | with_reducible apply KeepsR.fold
    | with_reducible exact KeepsOR.no
    | with_reducible apply KeepsOR.ite
    | with_reducible apply KeepsOR.mapR
    | with_reducible apply KeepsOR.map
    | with_reducible apply KeepsOR.getD
    | with_reducible refine KeepsOR.get2 (by assumption) ?_
    | with_reducible refine KeepsOR.get (by assumption) ?_
    | with_reducible refine KeepsR.get (by assumption) ?_
    | with_reducible apply hk
    | split

theorem fenceOne_keeps {s₀ : State} (a1 : ℕ) (a2 : ℕ) (s : State) (h : Keeps s₀ s) :
    Keeps s₀ (fenceOne a1 a2 s) := by
  unfold fenceOne
  repeat' first
    | with_reducible intro _
    | with_reducible assumption
    | with_reducible apply defectAppend_keeps
    | with_reducible apply idMoves_keeps
    | with_reducible apply modCluster_keeps
    | with_reducible apply modSlot_keeps
    | with_reducible apply record_keeps
    | with_reducible apply testDropped_keeps
    | with_reducible apply testedResumes_keeps
    | with_reducible apply Keeps.ite
    | with_reducible apply Keeps.fold
    | with_reducible apply Keeps.same_id
    | with_reducible apply hk
    | split

theorem fencesDue_keeps {s₀ : State} (s : State) (h : Keeps s₀ s) :
    Keeps s₀ (fencesDue s) := by
  unfold fencesDue
  repeat' first
    | with_reducible intro _
    | with_reducible assumption
    | with_reducible apply fenceOne_keeps
    | with_reducible apply Keeps.ite
    | with_reducible apply Keeps.fold

theorem testsPassed_keeps {s₀ : State} (s : State) (h : Keeps s₀ s) :
    Keeps s₀ (testsPassed s) := by
  unfold testsPassed
  repeat' first
    | with_reducible intro _
    | with_reducible assumption
    | with_reducible apply testedResumes_keeps
    | with_reducible apply Keeps.ite
    | with_reducible apply Keeps.fold

theorem testWaits_keeps {s₀ : State} (a1 : Bool) (a2 : ℕ) (s : State) (h : Keeps s₀ s) :
    Keeps s₀ (testWaits a1 a2 s) := by
  unfold testWaits
  repeat' first
    | with_reducible intro _
    | with_reducible assumption
    | with_reducible apply fenceOne_keeps
    | with_reducible apply modSlot_keeps
    | with_reducible apply testAnswer_keeps
    | with_reducible apply Keeps.ite

theorem testStart_keeps {s₀ : State} (a1 : Bool) (a2 : ℕ) (s : State) (h : Keeps s₀ s) :
    Keeps s₀ (testStart a1 a2 s) := by
  unfold testStart
  repeat' first
    | with_reducible intro _
    | with_reducible assumption
    | with_reducible apply modCluster_keeps
    | with_reducible apply modSlot_keeps
    | with_reducible apply testAnswer_keeps
    | with_reducible apply testWaits_keeps
    | with_reducible apply Keeps.ite
    | with_reducible apply Keeps.fold
    | with_reducible apply Keeps.same_id
    | with_reducible apply hk
    | split

theorem testsStart_keeps {s₀ : State} (a1 : Bool) (s : State) (h : Keeps s₀ s) :
    Keeps s₀ (testsStart a1 s) := by
  unfold testsStart
  repeat' first
    | with_reducible intro _
    | with_reducible assumption
    | with_reducible apply testStart_keeps
    | with_reducible apply Keeps.ite
    | with_reducible apply Keeps.fold

theorem coreBoundary_keeps {s₀ : State} (a1 : Bool) (s : State) (h : Keeps s₀ s) :
    Keeps s₀ (coreBoundary a1 s) := by
  unfold coreBoundary
  repeat' first
    | with_reducible intro _
    | with_reducible assumption
    | with_reducible apply fencesDue_keeps
    | with_reducible apply testsPassed_keeps
    | with_reducible apply testsStart_keeps

theorem fenceAbort_keeps {s₀ : State} (a1 : ℕ) (s : State) (h : Keeps s₀ s) :
    Keeps s₀ (fenceAbort a1 s) := by
  unfold fenceAbort
  repeat' first
    | with_reducible intro _
    | with_reducible assumption
    | with_reducible apply bump_keeps
    | with_reducible apply repairAll_keeps
    | with_reducible apply stepAbort_keeps
    | with_reducible apply Keeps.ite

theorem clusterUe_keeps {s₀ : State} (a1 : ℕ) (a2 : ℕ) (s : State) (h : Keeps s₀ s) :
    Keeps s₀ (clusterUe a1 a2 s) := by
  unfold clusterUe
  repeat' first
    | with_reducible intro _
    | with_reducible assumption
    | with_reducible apply activateBlocked_keeps
    | with_reducible apply clusterGone_keeps
    | with_reducible apply coreBoundary_keeps
    | with_reducible apply fenceAbort_keeps
    | with_reducible apply settle_keeps
    | with_reducible apply Keeps.ite

theorem clusterUeFx_keeps {s₀ : State} (a1 : ℕ) (a2 : ℕ) (a3 : ClusterPart) (s : State) (h : Keeps s₀ s) :
    Keeps s₀ (clusterUeFx a1 a2 a3 s) := by
  unfold clusterUeFx
  repeat' first
    | with_reducible intro _
    | with_reducible assumption
    | with_reducible apply atTick_keeps
    | with_reducible apply clusterUe_keeps
    | with_reducible apply Keeps.ite

theorem compressorUe_keeps {s₀ : State} (a1 : ℕ) (s : State) (h : Keeps s₀ s) :
    Keeps s₀ (compressorUe a1 s) := by
  unfold compressorUe
  repeat' first
    | with_reducible intro _
    | with_reducible assumption
    | with_reducible apply modRegion_keeps
    | with_reducible apply record_keeps
    | with_reducible apply Keeps.ite

theorem compressorUeFx_keeps {s₀ : State} (a1 : ℕ) (a2 : ℕ) (s : State) (h : Keeps s₀ s) :
    Keeps s₀ (compressorUeFx a1 a2 s) := by
  unfold compressorUeFx
  repeat' first
    | with_reducible intro _
    | with_reducible assumption
    | with_reducible apply atTick_keeps
    | with_reducible apply compressorUe_keeps
    | with_reducible apply Keeps.ite

theorem coresNow_keeps {s₀ : State} (s : State) (h : Keeps s₀ s) :
    Keeps s₀ (coresNow s) := by
  unfold coresNow
  repeat' first
    | with_reducible intro _
    | with_reducible assumption
    | with_reducible apply coreBoundary_keeps
    | with_reducible apply Keeps.ite

theorem testDue_keeps {s₀ : State} (a1 : ℕ) (a2 : Bool) (s : State) (h : Keeps s₀ s) :
    Keeps s₀ (testDue a1 a2 s) := by
  unfold testDue
  repeat' first
    | with_reducible intro _
    | with_reducible assumption
    | with_reducible apply modSlot_keeps

theorem coreCorrectedErrorFx_keeps {s₀ : State} (a1 : ℕ) (a2 : ℕ) (s : State) (h : Keeps s₀ s) :
    Keeps s₀ (coreCorrectedErrorFx a1 a2 s) := by
  unfold coreCorrectedErrorFx
  repeat' first
    | with_reducible intro _
    | with_reducible assumption
    | exact ErrKeeps.mk fun _ h => h
    | with_reducible apply atTick_keeps
    | with_reducible apply bump_keeps
    | with_reducible apply coresNow_keeps
    | with_reducible apply modErr_keeps
    | with_reducible apply modSlot_keeps
    | with_reducible apply record_keeps
    | with_reducible apply testDue_keeps
    | with_reducible apply Keeps.ite

theorem coreUncorrectedErrorFx_keeps {s₀ : State} (a1 : ℕ) (a2 : ℕ) (a3 : List ℕ) (s : State) (h : Keeps s₀ s) :
    Keeps s₀ (coreUncorrectedErrorFx a1 a2 a3 s) := by
  unfold coreUncorrectedErrorFx
  repeat' first
    | with_reducible intro _
    | with_reducible assumption
    | with_reducible apply activateBlocked_keeps
    | with_reducible apply atTick_keeps
    | with_reducible apply fenceAbort_keeps
    | with_reducible apply fenceOne_keeps
    | with_reducible apply fencesDue_keeps
    | with_reducible apply record_keeps
    | with_reducible apply settle_keeps
    | with_reducible apply testsPassed_keeps
    | with_reducible apply testsStart_keeps
    | with_reducible apply Keeps.ite
    | with_reducible apply Keeps.fold

theorem stackFence_keeps {s₀ : State} (a1 : ℕ) (a2 : ℕ) (s : State) (h : Keeps s₀ s) :
    Keeps s₀ (stackFence a1 a2 s) := by
  unfold stackFence
  repeat' first
    | with_reducible intro _
    | with_reducible assumption
    | with_reducible apply coreBoundary_keeps
    | with_reducible apply settle_keeps
    | with_reducible apply stackGone_keeps
    | with_reducible apply Keeps.ite

theorem dieStackFenceFx_keeps {s₀ : State} (a1 : ℕ) (a2 : ℕ) (a3 : StackCause) (s : State) (h : Keeps s₀ s) :
    Keeps s₀ (dieStackFenceFx a1 a2 a3 s) := by
  unfold dieStackFenceFx
  repeat' first
    | with_reducible intro _
    | with_reducible assumption
    | with_reducible apply atTick_keeps
    | with_reducible apply stackFence_keeps
    | with_reducible apply Keeps.ite

theorem execClusterUe_keeps {s₀ : State} (a1 : ℕ) (a2 : ℕ) (a3 : ClusterPart) (s : State) (h : Keeps s₀ s) :
    KeepsX s₀ (execClusterUe a1 a2 a3 s) := by
  unfold execClusterUe
  repeat' first
    | with_reducible intro _
    | with_reducible assumption
    | with_reducible apply clusterUeFx_keeps
    | with_reducible apply Keeps.ite
    | with_reducible apply KeepsX.mk

theorem execCompressorUe_keeps {s₀ : State} (a1 : ℕ) (a2 : ℕ) (s : State) (h : Keeps s₀ s) :
    KeepsX s₀ (execCompressorUe a1 a2 s) := by
  unfold execCompressorUe
  repeat' first
    | with_reducible intro _
    | with_reducible assumption
    | with_reducible apply compressorUeFx_keeps
    | with_reducible apply Keeps.ite
    | with_reducible apply KeepsX.mk

theorem execCoreCorrectedError_keeps {s₀ : State} (a1 : ℕ) (a2 : ℕ) (s : State) (h : Keeps s₀ s) :
    KeepsX s₀ (execCoreCorrectedError a1 a2 s) := by
  unfold execCoreCorrectedError
  repeat' first
    | with_reducible intro _
    | with_reducible assumption
    | with_reducible apply coreCorrectedErrorFx_keeps
    | with_reducible apply Keeps.ite
    | with_reducible apply KeepsX.mk

theorem execCoreUncorrectedError_keeps {s₀ : State} (a1 : ℕ) (a2 : ℕ) (a3 : List ℕ) (s : State) (h : Keeps s₀ s) :
    KeepsX s₀ (execCoreUncorrectedError a1 a2 a3 s) := by
  unfold execCoreUncorrectedError
  repeat' first
    | with_reducible intro _
    | with_reducible assumption
    | with_reducible apply coreUncorrectedErrorFx_keeps
    | with_reducible apply Keeps.ite
    | with_reducible apply KeepsX.mk

theorem execDieStackFence_keeps {s₀ : State} (a1 : ℕ) (a2 : ℕ) (a3 : StackCause) (s : State) (h : Keeps s₀ s) :
    KeepsX s₀ (execDieStackFence a1 a2 a3 s) := by
  unfold execDieStackFence
  repeat' first
    | with_reducible intro _
    | with_reducible assumption
    | with_reducible apply dieStackFenceFx_keeps
    | with_reducible apply Keeps.ite
    | with_reducible apply KeepsX.mk

theorem putAbandon_keeps {s₀ : State} (a1 : ℕ) (a2 : ℕ) (s : State) (h : Keeps s₀ s) :
    Keeps s₀ (putAbandon a1 a2 s) := by
  unfold putAbandon
  repeat' first
    | with_reducible intro _
    | with_reducible assumption
    | exact FabKeeps.mk fun _ h => h
    | with_reducible apply modFab_keeps
    | with_reducible apply modQp_keeps
    | with_reducible apply modShaper_keeps
    | with_reducible apply Keeps.ite
    | with_reducible apply Keeps.fold
    | with_reducible apply Keeps.same_id
    | with_reducible apply hk
    | split

theorem putRestart_keeps {s₀ : State} (a1 : ℕ × ℕ) (s : State) (h : Keeps s₀ s) :
    Keeps s₀ (putRestart a1 s) := by
  unfold putRestart
  repeat' first
    | with_reducible intro _
    | with_reducible assumption
    | with_reducible apply modTgt_keeps
    | with_reducible apply putAbandon_keeps
    | with_reducible apply sendPut_keeps

theorem lighterUe_keeps {s₀ : State} (a1 : ℕ) (s : State) (h : Keeps s₀ s) :
    Keeps s₀ (lighterUe a1 s) := by
  unfold lighterUe
  repeat' first
    | with_reducible intro _
    | with_reducible assumption
    | with_reducible apply modCore_keeps
    | with_reducible apply modRegion_keeps
    | with_reducible apply putRestart_keeps
    | with_reducible apply record_keeps
    | with_reducible apply stackFence_keeps
    | with_reducible apply Keeps.ite
    | with_reducible apply Keeps.fold

theorem lighterUeFx_keeps {s₀ : State} (a1 : ℕ) (a2 : ℕ) (s : State) (h : Keeps s₀ s) :
    Keeps s₀ (lighterUeFx a1 a2 s) := by
  unfold lighterUeFx
  repeat' first
    | with_reducible intro _
    | with_reducible assumption
    | with_reducible apply atTick_keeps
    | with_reducible apply lighterUe_keeps
    | with_reducible apply Keeps.ite

theorem execLighterUe_keeps {s₀ : State} (a1 : ℕ) (a2 : ℕ) (s : State) (h : Keeps s₀ s) :
    KeepsX s₀ (execLighterUe a1 a2 s) := by
  unfold execLighterUe
  repeat' first
    | with_reducible intro _
    | with_reducible assumption
    | with_reducible apply lighterUeFx_keeps
    | with_reducible apply Keeps.ite
    | with_reducible apply KeepsX.mk

theorem regionStopFailFx_keeps {s₀ : State} (a1 : ℕ) (a2 : ℕ) (s : State) (h : Keeps s₀ s) :
    Keeps s₀ (regionStopFailFx a1 a2 s) := by
  unfold regionStopFailFx
  repeat' first
    | with_reducible intro _
    | with_reducible assumption
    | with_reducible apply atTick_keeps
    | with_reducible apply modRegion_keeps
    | with_reducible apply stackFence_keeps
    | with_reducible apply Keeps.ite

theorem execRegionStopFail_keeps {s₀ : State} (a1 : ℕ) (a2 : ℕ) (s : State) (h : Keeps s₀ s) :
    KeepsX s₀ (execRegionStopFail a1 a2 s) := by
  unfold execRegionStopFail
  repeat' first
    | with_reducible intro _
    | with_reducible assumption
    | with_reducible apply regionStopFailFx_keeps
    | with_reducible apply Keeps.ite
    | with_reducible apply KeepsX.mk

theorem sentinelTestEndFx_keeps {s₀ : State} (a1 : ℕ) (a2 : ℕ) (a3 : Bool) (s : State) (h : Keeps s₀ s) :
    Keeps s₀ (sentinelTestEndFx a1 a2 a3 s) := by
  unfold sentinelTestEndFx
  repeat' first
    | with_reducible intro _
    | with_reducible assumption
    | exact ErrKeeps.mk fun _ h => h
    | with_reducible apply atTick_keeps
    | with_reducible apply coresNow_keeps
    | with_reducible apply fenceOne_keeps
    | with_reducible apply modErr_keeps
    | with_reducible apply modSlot_keeps
    | with_reducible apply testAnswer_keeps
    | with_reducible apply Keeps.ite

theorem execSentinelTestEnd_keeps {s₀ : State} (a1 : ℕ) (a2 : ℕ) (a3 : Bool) (s : State) (h : Keeps s₀ s) :
    KeepsX s₀ (execSentinelTestEnd a1 a2 a3 s) := by
  unfold execSentinelTestEnd
  repeat' first
    | with_reducible intro _
    | with_reducible assumption
    | with_reducible apply sentinelTestEndFx_keeps
    | with_reducible apply Keeps.ite
    | with_reducible apply KeepsX.mk

theorem spareLoadCompleteFx_keeps {s₀ : State} (a1 : ℕ) (a2 : ℕ) (a3 : Bool) (s : State) (h : Keeps s₀ s) :
    Keeps s₀ (spareLoadCompleteFx a1 a2 a3 s) := by
  unfold spareLoadCompleteFx
  repeat' first
    | with_reducible intro _
    | with_reducible assumption
    | with_reducible apply atTick_keeps
    | with_reducible apply modCluster_keeps
    | with_reducible apply modSlot_keeps
    | with_reducible apply Keeps.ite
    | with_reducible apply Keeps.fold

theorem execSpareLoadComplete_keeps {s₀ : State} (a1 : ℕ) (a2 : ℕ) (a3 : Bool) (s : State) (h : Keeps s₀ s) :
    KeepsX s₀ (execSpareLoadComplete a1 a2 a3 s) := by
  unfold execSpareLoadComplete
  repeat' first
    | with_reducible intro _
    | with_reducible assumption
    | with_reducible apply spareLoadCompleteFx_keeps
    | with_reducible apply Keeps.ite
    | with_reducible apply KeepsX.mk

theorem katAct_keeps {s₀ : State} (a1 : Pkt) (s : State) (h : Keeps s₀ s) :
    Keeps s₀ (katAct a1 s) := by
  unfold katAct
  repeat' first
    | with_reducible intro _
    | with_reducible assumption
    | with_reducible apply fail_keeps
    | with_reducible apply modCore_keeps
    | with_reducible apply pend_keeps
    | with_reducible apply Keeps.ite

theorem testKatFx_keeps {s₀ : State} (a1 : Pkt) (s : State) (h : Keeps s₀ s) :
    Keeps s₀ (testKatFx a1 s) := by
  unfold testKatFx
  repeat' first
    | with_reducible intro _
    | with_reducible assumption
    | with_reducible apply katAct_keeps
    | with_reducible apply orFormat_keeps
    | with_reducible apply receive_keeps

theorem execTestKat_keeps {s₀ : State} (a1 : Pkt) (s : State) (h : Keeps s₀ s) :
    KeepsX s₀ (execTestKat a1 s) := by
  unfold execTestKat
  repeat' first
    | with_reducible intro _
    | with_reducible assumption
    | with_reducible apply testKatFx_keeps
    | with_reducible apply Keeps.ite
    | with_reducible apply KeepsX.mk

theorem sentinelAct_keeps {s₀ : State} (a1 : Pkt) (s : State) (h : Keeps s₀ s) :
    Keeps s₀ (sentinelAct a1 s) := by
  unfold sentinelAct
  repeat' first
    | with_reducible intro _
    | with_reducible assumption
    | with_reducible apply coresNow_keeps
    | with_reducible apply fail_keeps
    | with_reducible apply modSlot_keeps
    | with_reducible apply pend_keeps
    | with_reducible apply testDue_keeps
    | with_reducible apply Keeps.ite
    | with_reducible apply Keeps.fold
    | with_reducible apply Keeps.same_id
    | with_reducible apply hk
    | split

theorem testSentinelFx_keeps {s₀ : State} (a1 : Pkt) (s : State) (h : Keeps s₀ s) :
    Keeps s₀ (testSentinelFx a1 s) := by
  unfold testSentinelFx
  repeat' first
    | with_reducible intro _
    | with_reducible assumption
    | with_reducible apply orFormat_keeps
    | with_reducible apply receive_keeps
    | with_reducible apply sentinelAct_keeps

theorem execTestSentinel_keeps {s₀ : State} (a1 : Pkt) (s : State) (h : Keeps s₀ s) :
    KeepsX s₀ (execTestSentinel a1 s) := by
  unfold execTestSentinel
  repeat' first
    | with_reducible intro _
    | with_reducible assumption
    | with_reducible apply testSentinelFx_keeps
    | with_reducible apply Keeps.ite
    | with_reducible apply KeepsX.mk

end Sys2Proof.Machine
end

