-- ==== Sys2Proof/Laws/KeepsSteps.lean ====
section
/-! SUPPORT. What every operation keeps (`Keeps`): steps, verification, scheduling, bring-up and registers. -/

set_option linter.all false

namespace Sys2Proof.Machine

theorem commitSlots_keeps {s₀ : State} (a1 : ℕ) (s : State) (h : Keeps s₀ s) :
    Keeps s₀ (commitSlots a1 s) := by
  unfold commitSlots
  repeat' first
    | with_reducible intro _
    | with_reducible assumption
    | with_reducible apply bump_keeps
    | with_reducible apply modFrame_keeps
    | with_reducible apply Keeps.ite
    | with_reducible apply Keeps.fold
    | with_reducible apply Keeps.same_id
    | with_reducible apply hk
    | split

theorem growTable_keeps {s₀ : State} (a1 : ℕ) (a2 : ℕ) (s : State) (h : Keeps s₀ s) :
    KeepsO s₀ (growTable a1 a2 s) := by
  unfold growTable
  repeat' first
    | with_reducible intro _
    | with_reducible assumption
    | with_reducible apply modTable_keeps
    | with_reducible apply takeManFrames_keeps
    | with_reducible apply Keeps.ite
    | with_reducible apply Keeps.fold
    | with_reducible apply Keeps.same_id
    | with_reducible apply KeepsR.ite
    | with_reducible apply KeepsR.fold
    | with_reducible exact KeepsO.no
    | with_reducible apply KeepsO.mapS
    | with_reducible apply KeepsO.mapR
    | with_reducible apply KeepsO.map
    | with_reducible apply KeepsO.bindS
    | with_reducible apply KeepsO.bind
    | with_reducible apply KeepsO.getD
    | with_reducible apply KeepsO.ite
    | with_reducible apply KeepsO.mk
    | with_reducible refine KeepsO.get (by assumption) ?_
    | with_reducible exact KeepsOR.no
    | with_reducible apply KeepsOR.ite
    | with_reducible apply KeepsOR.mapR
    | with_reducible apply KeepsOR.map
    | with_reducible apply KeepsOR.getD
    | with_reducible refine KeepsOR.get2 (by assumption) ?_
    | with_reducible refine KeepsOR.get (by assumption) ?_
    | with_reducible refine KeepsR.get (by assumption) ?_
    | (with_reducible apply KeepsR.snd; with_reducible assumption)
    | with_reducible apply hk
    | split

theorem takeOverflow_keeps {s₀ : State} (a1 : ℕ) (a2 : ℕ) (s : State) (h : Keeps s₀ s) :
    Keeps s₀ (takeOverflow a1 a2 s) := by
  unfold takeOverflow
  repeat' first
    | with_reducible intro _
    | with_reducible assumption
    | with_reducible apply memStore_keeps
    | with_reducible apply memWrite_keeps
    | with_reducible apply Keeps.ite
    | with_reducible apply Keeps.fold

theorem openNew_keeps {s₀ : State} (a1 : ℕ) (a2 : ℕ) (a3 : ℕ) (s : State) (h : Keeps s₀ s) :
    KeepsO s₀ (openNew a1 a2 a3 s) := by
  unfold openNew
  repeat' first
    | with_reducible intro _
    | with_reducible assumption
    | with_reducible apply memStore_keeps
    | with_reducible apply modPt_keeps
    | with_reducible apply takeFrame_keeps
    | with_reducible apply takeOverflow_keeps
    | with_reducible apply Keeps.ite
    | with_reducible apply Keeps.fold
    | with_reducible apply Keeps.same_id
    | with_reducible apply KeepsR.ite
    | with_reducible apply KeepsR.fold
    | with_reducible exact KeepsO.no
    | with_reducible apply KeepsO.mapS
    | with_reducible apply KeepsO.mapR
    | with_reducible apply KeepsO.map
    | with_reducible apply KeepsO.bindS
    | with_reducible apply KeepsO.bind
    | with_reducible apply KeepsO.getD
    | with_reducible apply KeepsO.ite
    | with_reducible apply KeepsO.mk
    | with_reducible refine KeepsO.get (by assumption) ?_
    | with_reducible exact KeepsOR.no
    | with_reducible apply KeepsOR.ite
    | with_reducible apply KeepsOR.mapR
    | with_reducible apply KeepsOR.map
    | with_reducible apply KeepsOR.getD
    | with_reducible refine KeepsOR.get2 (by assumption) ?_
    | with_reducible refine KeepsOR.get (by assumption) ?_
    | with_reducible refine KeepsR.get (by assumption) ?_
    | (with_reducible apply KeepsR.snd; with_reducible assumption)
    | with_reducible apply hk
    | split

theorem openAll_keeps {s₀ : State} (a1 : ℕ) (a2 : List (ℕ × ℕ)) (s : State) (h : Keeps s₀ s) :
    KeepsO s₀ (openAll a1 a2 s) := by
  induction a2 generalizing a1 s with
  | nil =>
    unfold openAll
    repeat' first
      | with_reducible intro _
      | with_reducible assumption
      | with_reducible apply openNew_keeps
      | with_reducible apply Keeps.ite
      | with_reducible apply Keeps.fold
      | with_reducible apply Keeps.same_id
      | with_reducible exact KeepsO.no
      | with_reducible apply KeepsO.mapS
      | with_reducible apply KeepsO.mapR
      | with_reducible apply KeepsO.map
      | with_reducible apply KeepsO.bindS
      | with_reducible apply KeepsO.bind
      | with_reducible apply KeepsO.getD
      | with_reducible apply KeepsO.ite
      | with_reducible apply KeepsO.mk
  | cons e l ih =>
    unfold openAll
    repeat' first
      | with_reducible intro _
      | with_reducible assumption
      | with_reducible apply ih
      | with_reducible apply openNew_keeps
      | with_reducible apply Keeps.ite
      | with_reducible apply Keeps.fold
      | with_reducible apply Keeps.same_id
      | with_reducible exact KeepsO.no
      | with_reducible apply KeepsO.mapS
      | with_reducible apply KeepsO.mapR
      | with_reducible apply KeepsO.map
      | with_reducible apply KeepsO.bindS
      | with_reducible apply KeepsO.bind
      | with_reducible apply KeepsO.getD
      | with_reducible apply KeepsO.ite
      | with_reducible apply KeepsO.mk
      | with_reducible refine KeepsO.get (by assumption) ?_
      | with_reducible apply hk
      | split

theorem openReach_keeps {s₀ : State} (a1 : ℕ) (a2 : ℕ) (s : State) (h : Keeps s₀ s) :
    KeepsO s₀ (openReach a1 a2 s) := by
  unfold openReach
  repeat' first
    | with_reducible intro _
    | with_reducible assumption
    | with_reducible apply growTable_keeps
    | with_reducible apply openAll_keeps
    | with_reducible apply Keeps.ite
    | with_reducible apply Keeps.fold
    | with_reducible apply Keeps.same_id
    | with_reducible exact KeepsO.no
    | with_reducible apply KeepsO.mapS
    | with_reducible apply KeepsO.mapR
    | with_reducible apply KeepsO.map
    | with_reducible apply KeepsO.bindS
    | with_reducible apply KeepsO.bind
    | with_reducible apply KeepsO.getD
    | with_reducible apply KeepsO.ite
    | with_reducible apply KeepsO.mk
    | with_reducible refine KeepsO.get (by assumption) ?_
    | with_reducible apply hk
    | split

theorem takeSerial_keeps {s₀ : State} (s : State) (h : Keeps s₀ s) :
    KeepsO s₀ (takeSerial s) := by
  unfold takeSerial
  repeat' first
    | with_reducible intro _
    | with_reducible assumption
    | with_reducible apply modMan_keeps
    | with_reducible apply Keeps.ite
    | with_reducible apply Keeps.fold
    | with_reducible apply Keeps.same_id
    | with_reducible exact KeepsO.no
    | with_reducible apply KeepsO.mapS
    | with_reducible apply KeepsO.mapR
    | with_reducible apply KeepsO.map
    | with_reducible apply KeepsO.bindS
    | with_reducible apply KeepsO.bind
    | with_reducible apply KeepsO.getD
    | with_reducible apply KeepsO.ite
    | with_reducible apply KeepsO.mk

theorem sealAs_keeps {s₀ : State} (a1 : ℕ) (s : State) (h : Keeps s₀ s) :
    KeepsO s₀ (sealAs a1 s) := by
  unfold sealAs
  repeat' first
    | with_reducible intro _
    | with_reducible assumption
    | with_reducible apply bump_keeps
    | with_reducible apply modFrame_keeps
    | with_reducible apply takeSerial_keeps
    | with_reducible apply Keeps.ite
    | with_reducible apply Keeps.fold
    | with_reducible apply Keeps.same_id
    | with_reducible exact KeepsO.no
    | with_reducible apply KeepsO.mapS

theorem serialsOut_keeps {s₀ : State} (s : State) (h : Keeps s₀ s) :
    Keeps s₀ (serialsOut s) := by
  unfold serialsOut
  repeat' first
    | with_reducible intro _
    | with_reducible assumption
    | with_reducible apply modMan_keeps
    | with_reducible apply restrictEnter_keeps
    | with_reducible apply Keeps.ite

theorem sealOne_keeps {s₀ : State} (a1 : ℕ) (a2 : ℕ) (a3 : ℕ) (s : State) (h : Keeps s₀ s) :
    Keeps s₀ (sealOne a1 a2 a3 s) := by
  unfold sealOne
  repeat' first
    | with_reducible intro _
    | with_reducible assumption
    | with_reducible apply growTable_keeps
    | with_reducible apply modPt_keeps
    | with_reducible apply openNew_keeps
    | with_reducible apply rowStalled_keeps
    | with_reducible apply sealAs_keeps
    | with_reducible apply serialsOut_keeps
    | with_reducible apply Keeps.ite
    | with_reducible apply Keeps.fold
    | with_reducible apply Keeps.same_id
    | with_reducible exact KeepsO.no
    | with_reducible apply KeepsO.mapS
    | with_reducible apply KeepsO.mapR
    | with_reducible apply KeepsO.map
    | with_reducible apply KeepsO.bindS
    | with_reducible apply KeepsO.bind
    | with_reducible apply KeepsO.getD
    | with_reducible apply KeepsO.ite
    | with_reducible apply KeepsO.mk
    | with_reducible refine KeepsO.get (by assumption) ?_
    | (extract_lets +onlyGivenNames x; clear_value (hx : x = _); refine Keeps.via (s := s₀) hx ?_ (fun _ => ?_); clear hx)
    | with_reducible apply hk
    | split

theorem sealBerth_keeps {s₀ : State} (a1 : ℕ) (s : State) (h : Keeps s₀ s) :
    Keeps s₀ (sealBerth a1 s) := by
  unfold sealBerth
  repeat' first
    | with_reducible intro _
    | with_reducible assumption
    | with_reducible apply modTable_keeps
    | with_reducible apply sealAs_keeps
    | with_reducible apply sealOne_keeps
    | with_reducible apply serialsOut_keeps
    | with_reducible apply Keeps.ite
    | with_reducible apply Keeps.fold
    | with_reducible apply Keeps.same_id
    | with_reducible exact KeepsO.no
    | with_reducible apply KeepsO.mapS
    | with_reducible apply KeepsO.mapR
    | with_reducible apply KeepsO.map
    | with_reducible apply KeepsO.bindS
    | with_reducible apply KeepsO.bind
    | with_reducible apply KeepsO.getD
    | with_reducible apply KeepsO.ite
    | with_reducible apply KeepsO.mk
    | with_reducible refine KeepsO.get (by assumption) ?_
    | with_reducible apply hk
    | split

theorem sealAll_keeps {s₀ : State} (s : State) (h : Keeps s₀ s) :
    Keeps s₀ (sealAll s) := by
  unfold sealAll
  repeat' first
    | with_reducible intro _
    | with_reducible assumption
    | with_reducible apply sealBerth_keeps
    | with_reducible apply Keeps.ite
    | with_reducible apply Keeps.fold

theorem specSlotsSet_keeps {s₀ : State} (a1 : ℕ) (a2 : ℕ) (a3 : List (ℕ × ℕ)) (s : State) (h : Keeps s₀ s) :
    Keeps s₀ (specSlotsSet a1 a2 a3 s) := by
  unfold specSlotsSet
  repeat' first
    | with_reducible intro _
    | with_reducible assumption
    | with_reducible apply modFrame_keeps
    | with_reducible apply Keeps.ite
    | with_reducible apply Keeps.fold
    | with_reducible apply Keeps.same_id
    | with_reducible apply hk
    | split

theorem unstall_keeps {s₀ : State} (a1 : ℕ) (s : State) (h : Keeps s₀ s) :
    Keeps s₀ (unstall a1 s) := by
  unfold unstall
  repeat' first
    | with_reducible intro _
    | with_reducible assumption
    | with_reducible apply modBerth_keeps
    | with_reducible apply openReach_keeps
    | with_reducible apply Keeps.ite
    | with_reducible apply Keeps.fold
    | with_reducible apply Keeps.same_id
    | with_reducible exact KeepsO.no
    | with_reducible apply KeepsO.mapS
    | with_reducible apply KeepsO.mapR
    | with_reducible apply KeepsO.map
    | with_reducible apply KeepsO.bindS
    | with_reducible apply KeepsO.bind
    | with_reducible apply KeepsO.getD
    | with_reducible apply KeepsO.ite
    | with_reducible apply KeepsO.mk
    | with_reducible refine KeepsO.get (by assumption) ?_
    | with_reducible apply hk
    | split

theorem windowBerth_keeps {s₀ : State} (a1 : ℕ) (s : State) (h : Keeps s₀ s) :
    Keeps s₀ (windowBerth a1 s) := by
  unfold windowBerth
  repeat' first
    | with_reducible intro _
    | with_reducible assumption
    | with_reducible apply startMove_keeps
    | with_reducible apply Keeps.ite
    | with_reducible apply Keeps.fold
    | with_reducible apply Keeps.same_id
    | with_reducible apply hk
    | split

theorem windowAll_keeps {s₀ : State} (s : State) (h : Keeps s₀ s) :
    Keeps s₀ (windowAll s) := by
  unfold windowAll
  repeat' first
    | with_reducible intro _
    | with_reducible assumption
    | with_reducible apply windowBerth_keeps
    | with_reducible apply Keeps.ite
    | with_reducible apply Keeps.fold

theorem beginToken_keeps {s₀ : State} (s : State) (a2 : Pick) (h : Keeps s₀ s) :
    Keeps s₀ (beginToken s a2) := by
  unfold beginToken
  repeat' first
    | with_reducible intro _
    | with_reducible assumption
    | with_reducible apply bump_keeps
    | with_reducible apply modBerth_keeps
    | with_reducible apply modCnt_keeps
    | with_reducible apply ok_keeps
    | with_reducible apply wasteDraft_keeps
    | with_reducible apply Keeps.ite
    | with_reducible apply Keeps.fold
    | with_reducible apply Keeps.same_id
    | (extract_lets +onlyGivenNames x; clear_value (hx : x = _); refine KeepsF.via2 (s := s₀) hx ?_ (fun hk => ?_); clear hx)
    | with_reducible apply hk
    | split

theorem preemptFor_keeps {s₀ : State} (a1 : ℕ) (a2 : ℕ) (s : State) (h : Keeps s₀ s) :
    Keeps s₀ (preemptFor a1 a2 s) := by
  induction a2 generalizing a1 s with
  | zero =>
    unfold preemptFor
    repeat' first
      | with_reducible intro _
      | with_reducible assumption
  | succ k ih =>
    unfold preemptFor
    repeat' first
      | with_reducible intro _
      | with_reducible assumption
      | with_reducible apply ih
      | with_reducible apply preempt_keeps
      | with_reducible apply Keeps.ite
      | with_reducible apply Keeps.fold
      | with_reducible apply Keeps.same_id
      | with_reducible apply hk
      | split

theorem prepare_keeps {s₀ : State} (s : State) (a2 : Pick) (h : Keeps s₀ s) :
    Keeps s₀ (prepare s a2) := by
  unfold prepare
  repeat' first
    | with_reducible intro _
    | with_reducible assumption
    | with_reducible apply openReach_keeps
    | with_reducible apply rowStalled_keeps
    | with_reducible apply Keeps.ite
    | with_reducible apply Keeps.fold
    | with_reducible apply Keeps.same_id
    | with_reducible exact KeepsO.no
    | with_reducible apply KeepsO.mapS
    | with_reducible apply KeepsO.mapR
    | with_reducible apply KeepsO.map
    | with_reducible apply KeepsO.bindS
    | with_reducible apply KeepsO.bind
    | with_reducible apply KeepsO.getD
    | with_reducible apply KeepsO.ite
    | with_reducible apply KeepsO.mk
    | with_reducible refine KeepsO.get (by assumption) ?_
    | with_reducible apply hk
    | split

theorem countRows_keeps {s₀ : State} (s : State) (a2 : Pick) (h : Keeps s₀ s) :
    Keeps s₀ (countRows s a2) := by
  unfold countRows
  repeat' first
    | with_reducible intro _
    | with_reducible assumption
    | with_reducible apply bump_keeps
    | with_reducible apply Keeps.ite
    | with_reducible apply Keeps.fold
    | with_reducible apply Keeps.same_id
    | with_reducible apply hk
    | split

theorem publish_keeps {s₀ : State} (a1 : ℕ) (a2 : ℕ) (a3 : List Pick) (s : State) (h : Keeps s₀ s) :
    Keeps s₀ (publish a1 a2 a3 s) := by
  unfold publish
  repeat' first
    | with_reducible intro _
    | with_reducible assumption
    | with_reducible apply beginToken_keeps
    | with_reducible apply bump_keeps
    | with_reducible apply countRows_keeps
    | with_reducible apply modEng_keeps
    | with_reducible apply modSched_keeps
    | with_reducible apply modWslot_keeps
    | with_reducible apply Keeps.ite
    | with_reducible apply Keeps.fold
    | with_reducible apply Keeps.same_id
    | (extract_lets +onlyGivenNames x; clear_value (hx : x = _); refine Keeps.via (s := s₀) hx ?_ (fun _ => ?_); clear hx)
    | (extract_lets +onlyGivenNames x; clear_value x)
    | with_reducible apply hk
    | split

theorem buildWeave_keeps {s₀ : State} (a1 : ℕ) (s : State) (h : Keeps s₀ s) :
    Keeps s₀ (buildWeave a1 s) := by
  unfold buildWeave
  repeat' first
    | with_reducible intro _
    | with_reducible assumption
    | with_reducible apply preemptFor_keeps
    | with_reducible apply prepare_keeps
    | with_reducible apply publish_keeps
    | with_reducible apply Keeps.ite
    | with_reducible apply Keeps.fold
    | with_reducible apply Keeps.same_id
    | (extract_lets +onlyGivenNames x; clear_value (hx : x = _); refine Keeps.via (s := s₀) hx ?_ (fun _ => ?_); clear hx)
    | (extract_lets +onlyGivenNames x; clear_value x)
    | with_reducible apply hk
    | split

theorem setCredit_keeps {s₀ : State} (a1 : ℕ) (a2 : ℤ) (s : State) (h : Keeps s₀ s) :
    Keeps s₀ (setCredit a1 a2 s) := by
  unfold setCredit
  repeat' first
    | with_reducible intro _
    | with_reducible assumption
    | with_reducible apply modSched_keeps

theorem turn_keeps {s₀ : State} (ready : List ℕ) (r : Option ℕ × State) (k : ℕ) (h : KeepsR s₀ r) :
    KeepsR s₀ (turn ready r k) := by
  unfold turn
  split
  · exact h
  · split
    · exact KeepsR.mk (Keeps.ite (setCredit_keeps _ _ _ h) h)
    · extract_lets v s1
      have h1 : Keeps s₀ s1 := setCredit_keeps _ _ _ h
      split
      · exact h1
      · exact bump_keeps _ _ _ h1

theorem turns_keeps {s₀ : State} (ready order : List ℕ) (k : ℕ) (r : Option ℕ × State) (h : KeepsR s₀ r) :
    KeepsR s₀ (turns ready order k r) := by
  induction k generalizing r with
  | zero => exact h
  | succ k ih =>
    unfold turns
    split
    · exact h
    · exact ih _ (KeepsR.fold _ _ h fun _ _ h => turn_keeps _ _ _ h)

theorem chooseNext_keeps {s₀ : State} (a1 : ℕ) (a2 : List ℕ) (s : State) (h : Keeps s₀ s) :
    KeepsR s₀ (chooseNext a1 a2 s) := by
  unfold chooseNext
  repeat' first
    | with_reducible intro _
    | with_reducible assumption
    | with_reducible apply turns_keeps
    | with_reducible apply Keeps.ite
    | with_reducible apply Keeps.fold
    | with_reducible apply Keeps.same_id
    | with_reducible apply KeepsR.ite
    | with_reducible apply KeepsR.fold
    | with_reducible refine KeepsR.get (by assumption) ?_
    | with_reducible apply hk
    | split
    | with_reducible apply KeepsR.mk

theorem preemptStalled_keeps {s₀ : State} (s : State) (h : Keeps s₀ s) :
    Keeps s₀ (preemptStalled s) := by
  unfold preemptStalled
  repeat' first
    | with_reducible intro _
    | with_reducible assumption
    | with_reducible apply preemptFor_keeps
    | with_reducible apply Keeps.ite
    | with_reducible apply Keeps.fold

theorem promoteBerth_keeps {s₀ : State} (s : State) (a2 : ℕ × Berth) (h : Keeps s₀ s) :
    Keeps s₀ (promoteBerth s a2) := by
  unfold promoteBerth
  repeat' first
    | with_reducible intro _
    | with_reducible assumption
    | with_reducible apply promote_keeps

theorem promoteRows_keeps {s₀ : State} (s : State) (h : Keeps s₀ s) :
    Keeps s₀ (promoteRows s) := by
  unfold promoteRows
  repeat' first
    | with_reducible intro _
    | with_reducible assumption
    | with_reducible apply promoteBerth_keeps
    | with_reducible apply Keeps.ite
    | with_reducible apply Keeps.fold

theorem promoteAll_keeps {s₀ : State} (s : State) (h : Keeps s₀ s) :
    Keeps s₀ (promoteAll s) := by
  unfold promoteAll
  repeat' first
    | with_reducible intro _
    | with_reducible assumption
    | with_reducible apply bump_keeps
    | with_reducible apply promoteRows_keeps
    | with_reducible apply Keeps.ite

theorem tagCandidates_keeps {s₀ : State} (s : State) (h : Keeps s₀ s) :
    Keeps s₀ (tagCandidates s) := by
  unfold tagCandidates
  repeat' first
    | with_reducible intro _
    | with_reducible assumption
    | with_reducible apply modBerth_keeps
    | with_reducible apply Keeps.ite
    | with_reducible apply Keeps.fold

theorem transfersNow_keeps {s₀ : State} (s : State) (h : Keeps s₀ s) :
    Keeps s₀ (transfersNow s) := by
  unfold transfersNow
  repeat' first
    | with_reducible intro _
    | with_reducible assumption
    | with_reducible apply transferCheck_keeps
    | with_reducible apply Keeps.ite
    | with_reducible apply Keeps.fold

theorem afterCommit_keeps {s₀ : State} (s : State) (h : Keeps s₀ s) :
    Keeps s₀ (afterCommit s) := by
  unfold afterCommit
  repeat' first
    | with_reducible intro _
    | with_reducible assumption
    | with_reducible apply sealAll_keeps
    | with_reducible apply transfersNow_keeps
    | with_reducible apply windowAll_keeps

theorem releaseTo_keeps {s₀ : State} (a1 : ℕ) (a2 : ℕ) (s : State) (h : Keeps s₀ s) :
    KeepsR s₀ (releaseTo a1 a2 s) := by
  unfold releaseTo
  repeat' first
    | with_reducible intro _
    | with_reducible assumption
    | with_reducible apply bump_keeps
    | with_reducible apply modBerth_keeps
    | with_reducible apply slackUpdate_keeps
    | with_reducible apply Keeps.ite
    | with_reducible apply Keeps.fold
    | with_reducible apply Keeps.same_id
    | with_reducible apply KeepsR.ite
    | with_reducible apply KeepsR.fold
    | with_reducible refine KeepsR.get (by assumption) ?_
    | (extract_lets +onlyGivenNames x; clear_value (hx : x = _); refine Keeps.via (s := s₀) hx ?_ (fun _ => ?_); clear hx)
    | with_reducible apply hk
    | split
    | with_reducible apply KeepsR.mk

theorem budgetEnd_keeps {s₀ : State} (a1 : ℕ) (s : State) (h : Keeps s₀ s) :
    Keeps s₀ (budgetEnd a1 s) := by
  unfold budgetEnd
  repeat' first
    | with_reducible intro _
    | with_reducible assumption
    | with_reducible apply manEnd_keeps
    | with_reducible apply releaseTo_keeps
    | with_reducible apply Keeps.ite
    | with_reducible apply Keeps.fold
    | with_reducible apply Keeps.same_id
    | with_reducible apply KeepsR.ite
    | with_reducible apply KeepsR.fold
    | with_reducible refine KeepsR.get (by assumption) ?_
    | (with_reducible apply KeepsR.snd; with_reducible apply KeepsR.ite)
    | with_reducible apply hk
    | split
    | with_reducible apply KeepsR.mk

theorem budgetAll_keeps {s₀ : State} (s : State) (h : Keeps s₀ s) :
    Keeps s₀ (budgetAll s) := by
  unfold budgetAll
  repeat' first
    | with_reducible intro _
    | with_reducible assumption
    | with_reducible apply budgetEnd_keeps
    | with_reducible apply Keeps.ite
    | with_reducible apply Keeps.fold

theorem staleDraft_keeps {s₀ : State} (a1 : ℕ) (s : State) (h : Keeps s₀ s) :
    Keeps s₀ (staleDraft a1 s) := by
  unfold staleDraft
  repeat' first
    | with_reducible intro _
    | with_reducible assumption
    | with_reducible apply wasteDraft_keeps
    | with_reducible apply Keeps.ite
    | with_reducible apply Keeps.fold
    | with_reducible apply Keeps.same_id
    | with_reducible apply hk
    | split

theorem commitTokens_keeps {s₀ : State} (a1 : ℕ) (a2 : ℕ) (a3 : List ℕ) (a4 : ℕ) (a5 : ℕ) (a6 : ℕ) (s : State) (h : Keeps s₀ s) :
    Keeps s₀ (commitTokens a1 a2 a3 a4 a5 a6 s) := by
  unfold commitTokens
  repeat' first
    | with_reducible intro _
    | with_reducible assumption
    | with_reducible apply bump_keeps
    | with_reducible apply commitSlots_keeps
    | with_reducible apply logAppend_keeps
    | with_reducible apply manEnd_keeps
    | with_reducible apply manFail_keeps
    | with_reducible apply modBerth_keeps
    | with_reducible apply releaseTo_keeps
    | with_reducible apply rollBack_keeps
    | with_reducible apply rowStalled_keeps
    | with_reducible apply staleDraft_keeps
    | with_reducible apply tokStream_keeps
    | with_reducible apply Keeps.ite
    | with_reducible apply Keeps.fold
    | with_reducible apply Keeps.same_id
    | with_reducible apply KeepsR.ite
    | with_reducible apply KeepsR.fold
    | with_reducible exact KeepsO.no
    | with_reducible apply KeepsO.mapS
    | with_reducible apply KeepsO.mapR
    | with_reducible apply KeepsO.map
    | with_reducible apply KeepsO.bindS
    | with_reducible apply KeepsO.bind
    | with_reducible apply KeepsO.getD
    | with_reducible apply KeepsO.ite
    | with_reducible apply KeepsO.mk
    | with_reducible refine KeepsO.get (by assumption) ?_
    | with_reducible refine KeepsR.get (by assumption) ?_
    | (with_reducible apply KeepsR.snd; with_reducible apply releaseTo_keeps)
    | with_reducible apply hk
    | split

theorem commitGen_keeps {s₀ : State} (a1 : ℕ) (a2 : ℕ) (a3 : Run) (s : State) (h : Keeps s₀ s) :
    Keeps s₀ (commitGen a1 a2 a3 s) := by
  unfold commitGen
  repeat' first
    | with_reducible intro _
    | with_reducible assumption
    | with_reducible apply commitTokens_keeps
    | with_reducible apply rollBack_keeps
    | with_reducible apply Keeps.ite
    | with_reducible apply Keeps.fold
    | with_reducible apply Keeps.same_id
    | (extract_lets +onlyGivenNames x; clear_value x)
    | with_reducible apply hk
    | split

theorem commitPrompt_keeps {s₀ : State} (a1 : ℕ) (a2 : ℕ) (a3 : Run) (s : State) (h : Keeps s₀ s) :
    Keeps s₀ (commitPrompt a1 a2 a3 s) := by
  unfold commitPrompt
  repeat' first
    | with_reducible intro _
    | with_reducible assumption
    | with_reducible apply commitSlots_keeps
    | with_reducible apply enterState_keeps
    | with_reducible apply modProg_keeps
    | with_reducible apply Keeps.ite
    | with_reducible apply Keeps.fold
    | with_reducible apply Keeps.same_id
    | (extract_lets +onlyGivenNames x; clear_value (hx : x = _); refine Keeps.via (s := s₀) hx ?_ (fun _ => ?_); clear hx)
    | with_reducible apply hk
    | split

theorem commitRun_keeps {s₀ : State} (a1 : Run) (s : State) (h : Keeps s₀ s) :
    Keeps s₀ (commitRun a1 s) := by
  unfold commitRun
  repeat' first
    | with_reducible intro _
    | with_reducible assumption
    | with_reducible apply commitGen_keeps
    | with_reducible apply commitPrompt_keeps
    | with_reducible apply Keeps.ite
    | with_reducible apply Keeps.fold

theorem heldWrite_keeps {s₀ : State} (a1 : Batch) (s : State) (a3 : SlotData) (h : Keeps s₀ s) :
    Keeps s₀ (heldWrite a1 s a3) := by
  unfold heldWrite
  repeat' first
    | with_reducible intro _
    | with_reducible assumption
    | with_reducible apply emit_keeps
    | with_reducible apply memWrite_keeps
    | with_reducible apply modTier_keeps
    | with_reducible apply Keeps.ite
    | with_reducible apply Keeps.fold
    | with_reducible apply Keeps.same_id
    | with_reducible apply hk
    | split

theorem heldRelease_keeps {s₀ : State} (a1 : Batch) (a2 : List SlotData) (s : State) (h : Keeps s₀ s) :
    Keeps s₀ (heldRelease a1 a2 s) := by
  unfold heldRelease
  repeat' first
    | with_reducible intro _
    | with_reducible assumption
    | with_reducible apply heldWrite_keeps
    | with_reducible apply Keeps.ite
    | with_reducible apply Keeps.fold

theorem markSpec_keeps {s₀ : State} (a1 : Batch) (a2 : List SlotData) (s : State) (h : Keeps s₀ s) :
    Keeps s₀ (markSpec a1 a2 s) := by
  unfold markSpec
  repeat' first
    | with_reducible intro _
    | with_reducible assumption
    | with_reducible apply specSlotsSet_keeps
    | with_reducible apply Keeps.ite
    | with_reducible apply Keeps.fold
    | with_reducible apply Keeps.same_id
    | with_reducible apply hk
    | split

theorem turnRun_keeps {s₀ : State} (a1 : ℕ) (s : State) (h : Keeps s₀ s) :
    Keeps s₀ (turnRun a1 s) := by
  unfold turnRun
  repeat' first
    | with_reducible intro _
    | with_reducible assumption
    | with_reducible apply bump_keeps
    | with_reducible apply modEng_keeps
    | with_reducible apply rollBack_keeps
    | with_reducible apply Keeps.ite
    | with_reducible apply Keeps.fold
    | with_reducible apply Keeps.same_id
    | with_reducible apply hk
    | split

theorem turnRows_keeps {s₀ : State} (s : State) (h : Keeps s₀ s) :
    Keeps s₀ (turnRows s) := by
  unfold turnRows
  repeat' first
    | with_reducible intro _
    | with_reducible assumption
    | with_reducible apply turnRun_keeps
    | with_reducible apply Keeps.ite
    | with_reducible apply Keeps.fold

theorem commitOne_keeps {s₀ : State} (s : State) (a2 : ℕ × Run) (h : Keeps s₀ s) :
    Keeps s₀ (commitOne s a2) := by
  unfold commitOne
  repeat' first
    | with_reducible intro _
    | with_reducible assumption
    | with_reducible apply bump_keeps
    | with_reducible apply commitRun_keeps
    | with_reducible apply heldRelease_keeps
    | with_reducible apply modEng_keeps
    | with_reducible apply Keeps.ite

theorem commitAwaited_keeps {s₀ : State} (s : State) (h : Keeps s₀ s) :
    Keeps s₀ (commitAwaited s) := by
  unfold commitAwaited
  repeat' first
    | with_reducible intro _
    | with_reducible assumption
    | with_reducible apply commitOne_keeps
    | with_reducible apply Keeps.ite
    | with_reducible apply Keeps.fold

theorem runDropped_keeps {s₀ : State} (a1 : ℕ) (s : State) (h : Keeps s₀ s) :
    Keeps s₀ (runDropped a1 s) := by
  unfold runDropped
  repeat' first
    | with_reducible intro _
    | with_reducible assumption
    | with_reducible apply modEng_keeps
    | with_reducible apply rollBack_keeps
    | with_reducible apply Keeps.ite
    | with_reducible apply Keeps.fold
    | with_reducible apply Keeps.same_id
    | (extract_lets +onlyGivenNames x; clear_value (hx : x = _); refine Keeps.via (s := s₀) hx ?_ (fun _ => ?_); clear hx)
    | with_reducible apply hk
    | split

theorem restartOne_keeps {s₀ : State} (s : State) (a2 : ℕ × Run) (h : Keeps s₀ s) :
    Keeps s₀ (restartOne s a2) := by
  unfold restartOne
  repeat' first
    | with_reducible intro _
    | with_reducible assumption
    | with_reducible apply modEng_keeps
    | with_reducible apply runDropped_keeps
    | with_reducible apply Keeps.ite

theorem restartRuns_keeps {s₀ : State} (s : State) (h : Keeps s₀ s) :
    Keeps s₀ (restartRuns s) := by
  unfold restartRuns
  repeat' first
    | with_reducible intro _
    | with_reducible assumption
    | with_reducible apply restartOne_keeps
    | with_reducible apply Keeps.ite
    | with_reducible apply Keeps.fold

theorem verdictNow_keeps {s₀ : State} (s : State) (h : Keeps s₀ s) :
    Keeps s₀ (verdictNow s) := by
  unfold verdictNow
  repeat' first
    | with_reducible intro _
    | with_reducible assumption
    | with_reducible apply afterCommit_keeps
    | with_reducible apply commitAwaited_keeps
    | with_reducible apply restartRuns_keeps
    | with_reducible apply settle_keeps
    | with_reducible apply Keeps.ite

theorem agreed_keeps {s₀ : State} (a1 : ℕ) (s : State) (h : Keeps s₀ s) :
    Keeps s₀ (agreed a1 s) := by
  unfold agreed
  repeat' first
    | with_reducible intro _
    | with_reducible assumption
    | with_reducible apply bump_keeps
    | with_reducible apply modEng_keeps
    | with_reducible apply verdictNow_keeps
    | with_reducible apply Keeps.ite
    | with_reducible apply Keeps.fold
    | with_reducible apply Keeps.same_id
    | with_reducible apply hk
    | split

theorem awaitTag_keeps {s₀ : State} (a1 : ℕ) (s : State) (h : Keeps s₀ s) :
    Keeps s₀ (awaitTag a1 s) := by
  unfold awaitTag
  repeat' first
    | with_reducible intro _
    | with_reducible assumption
    | exact FabKeeps.mk fun _ h => h
    | with_reducible apply modFab_keeps

theorem modSuspect_keeps {s₀ : State} (a1 : ℕ) (a2 : (Suspect → Suspect)) (s : State) (h : Keeps s₀ s) :
    Keeps s₀ (modSuspect a1 a2 s) := by
  unfold modSuspect
  repeat' first
    | with_reducible intro _
    | with_reducible assumption
    | with_reducible apply modEng_keeps
    | with_reducible apply Keeps.ite
    | with_reducible apply Keeps.fold
    | with_reducible apply Keeps.same_id
    | with_reducible apply hk
    | split

theorem goLocal_keeps {s₀ : State} (a1 : ℕ) (s : State) (h : Keeps s₀ s) :
    Keeps s₀ (goLocal a1 s) := by
  unfold goLocal
  repeat' first
    | with_reducible intro _
    | with_reducible assumption
    | with_reducible apply modSuspect_keeps

theorem sendPart_keeps {s₀ : State} (a1 : ℕ) (a2 : ℕ) (p3 : List ℕ × State) (a4 : Bytes) (h : KeepsR s₀ p3) :
    KeepsR s₀ (sendPart a1 a2 p3 a4) := by
  unfold sendPart
  repeat' first
    | with_reducible intro _
    | with_reducible assumption
    | with_reducible apply sendMsgOn_keeps
    | with_reducible apply takeTag_keeps
    | with_reducible apply Keeps.ite
    | with_reducible apply Keeps.fold
    | with_reducible apply Keeps.same_id
    | with_reducible apply KeepsR.ite
    | with_reducible apply KeepsR.fold
    | with_reducible refine KeepsR.get (by assumption) ?_
    | (with_reducible apply KeepsR.snd; with_reducible assumption)
    | (extract_lets +onlyGivenNames x; clear_value (hx : x = _); refine KeepsR.via (s := s₀) hx ?_ (fun _ => ?_); clear hx)
    | with_reducible apply hk
    | split
    | with_reducible apply KeepsR.mk

theorem sendRound_keeps {s₀ : State} (a1 : ℕ) (a2 : ℕ) (a3 : ℕ) (s : State) (h : Keeps s₀ s) :
    Keeps s₀ (sendRound a1 a2 a3 s) := by
  unfold sendRound
  repeat' first
    | with_reducible intro _
    | with_reducible assumption
    | with_reducible apply bump_keeps
    | with_reducible apply modSuspect_keeps
    | with_reducible apply sendPart_keeps
    | with_reducible apply Keeps.ite
    | with_reducible apply Keeps.fold
    | with_reducible apply Keeps.same_id
    | with_reducible apply KeepsR.ite
    | with_reducible apply KeepsR.fold
    | with_reducible refine KeepsR.get (by assumption) ?_
    | (with_reducible apply KeepsR.snd; with_reducible apply KeepsR.fold)
    | with_reducible apply hk
    | split
    | with_reducible apply KeepsR.mk

theorem beginVerify_keeps {s₀ : State} (a1 : ℕ) (s : State) (h : Keeps s₀ s) :
    Keeps s₀ (beginVerify a1 s) := by
  unfold beginVerify
  repeat' first
    | with_reducible intro _
    | with_reducible assumption
    | with_reducible apply goLocal_keeps
    | with_reducible apply sendRound_keeps
    | with_reducible apply Keeps.ite

theorem testAll_keeps {s₀ : State} (s : State) (h : Keeps s₀ s) :
    Keeps s₀ (testAll s) := by
  unfold testAll
  repeat' first
    | with_reducible intro _
    | with_reducible assumption
    | with_reducible apply coresNow_keeps
    | with_reducible apply testDue_keeps
    | with_reducible apply Keeps.ite
    | with_reducible apply Keeps.fold

theorem lossNoted_keeps {s₀ : State} (a1 : ℕ) (a2 : ℕ) (a3 : ℕ) (s : State) (h : Keeps s₀ s) :
    Keeps s₀ (lossNoted a1 a2 a3 s) := by
  unfold lossNoted
  repeat' first
    | with_reducible intro _
    | with_reducible assumption
    | with_reducible apply bump_keeps
    | with_reducible apply record_keeps
    | with_reducible apply testAll_keeps

theorem localLoss_keeps {s₀ : State} (a1 : ℕ) (a2 : ℕ) (a3 : ℕ) (s : State) (h : Keeps s₀ s) :
    Keeps s₀ (localLoss a1 a2 a3 s) := by
  unfold localLoss
  repeat' first
    | with_reducible intro _
    | with_reducible assumption
    | with_reducible apply lossNoted_keeps
    | with_reducible apply modEng_keeps
    | with_reducible apply restrictEnter_keeps
    | with_reducible apply runDropped_keeps
    | with_reducible apply verdictNow_keeps
    | with_reducible apply Keeps.ite
    | with_reducible apply Keeps.fold
    | with_reducible apply Keeps.same_id
    | (extract_lets +onlyGivenNames x; clear_value (hx : x = _); refine Keeps.via (s := s₀) hx ?_ (fun _ => ?_); clear hx)
    | with_reducible apply hk
    | split

theorem sendVerdict_keeps {s₀ : State} (a1 : ℕ) (a2 : ℕ) (a3 : ℕ) (a4 : ℕ) (s : State) (h : Keeps s₀ s) :
    Keeps s₀ (sendVerdict a1 a2 a3 a4 s) := by
  unfold sendVerdict
  repeat' first
    | with_reducible intro _
    | with_reducible assumption
    | with_reducible apply awaitTag_keeps
    | with_reducible apply sendMsgOn_keeps
    | with_reducible apply takeTag_keeps
    | with_reducible apply Keeps.ite
    | with_reducible apply Keeps.fold
    | with_reducible apply Keeps.same_id
    | with_reducible apply KeepsR.ite
    | with_reducible apply KeepsR.fold
    | with_reducible refine KeepsR.get (by assumption) ?_
    | (with_reducible apply KeepsR.snd; with_reducible apply takeTag_keeps)

theorem digestIn_keeps {s₀ : State} (a1 : ℕ) (a2 : Bytes) (s : State) (h : Keeps s₀ s) :
    Keeps s₀ (digestIn a1 a2 s) := by
  unfold digestIn
  repeat' first
    | with_reducible intro _
    | with_reducible assumption
    | with_reducible apply agreed_keeps
    | with_reducible apply localLoss_keeps
    | with_reducible apply modSuspect_keeps
    | with_reducible apply sendRound_keeps
    | with_reducible apply sendVerdict_keeps
    | with_reducible apply Keeps.ite
    | with_reducible apply Keeps.fold
    | with_reducible apply Keeps.same_id
    | with_reducible apply hk
    | split

theorem replayPartsTimeoutFx_keeps {s₀ : State} (a1 : ℕ) (a2 : ℕ) (a3 : ℕ) (s : State) (h : Keeps s₀ s) :
    Keeps s₀ (replayPartsTimeoutFx a1 a2 a3 s) := by
  unfold replayPartsTimeoutFx
  repeat' first
    | with_reducible intro _
    | with_reducible assumption
    | with_reducible apply atTick_keeps
    | with_reducible apply modEng_keeps
    | with_reducible apply Keeps.ite

theorem execReplayPartsTimeout_keeps {s₀ : State} (a1 : ℕ) (a2 : ℕ) (a3 : ℕ) (s : State) (h : Keeps s₀ s) :
    KeepsX s₀ (execReplayPartsTimeout a1 a2 a3 s) := by
  unfold execReplayPartsTimeout
  repeat' first
    | with_reducible intro _
    | with_reducible assumption
    | with_reducible apply replayPartsTimeoutFx_keeps
    | with_reducible apply Keeps.ite
    | with_reducible apply KeepsX.mk

theorem roundFailed_keeps {s₀ : State} (a1 : ℕ) (s : State) (h : Keeps s₀ s) :
    Keeps s₀ (roundFailed a1 s) := by
  unfold roundFailed
  repeat' first
    | with_reducible intro _
    | with_reducible assumption
    | with_reducible apply bump_keeps
    | with_reducible apply goLocal_keeps
    | with_reducible apply localLoss_keeps
    | with_reducible apply record_keeps
    | with_reducible apply sendRound_keeps
    | with_reducible apply Keeps.ite
    | with_reducible apply Keeps.fold
    | with_reducible apply Keeps.same_id
    | (extract_lets +onlyGivenNames x; clear_value (hx : x = _); refine Keeps.via (s := s₀) hx ?_ (fun _ => ?_); clear hx)
    | with_reducible apply hk
    | split

theorem replayRoundTimeoutFx_keeps {s₀ : State} (a1 : ℕ) (a2 : ℕ) (s : State) (h : Keeps s₀ s) :
    Keeps s₀ (replayRoundTimeoutFx a1 a2 s) := by
  unfold replayRoundTimeoutFx
  repeat' first
    | with_reducible intro _
    | with_reducible assumption
    | with_reducible apply atTick_keeps
    | with_reducible apply roundFailed_keeps
    | with_reducible apply Keeps.ite
    | with_reducible apply Keeps.fold
    | with_reducible apply Keeps.same_id
    | (extract_lets +onlyGivenNames x; clear_value (hx : x = _); refine Keeps.via (s := s₀) hx ?_ (fun _ => ?_); clear hx)
    | with_reducible apply hk
    | split

theorem execReplayRoundTimeout_keeps {s₀ : State} (a1 : ℕ) (a2 : ℕ) (s : State) (h : Keeps s₀ s) :
    KeepsX s₀ (execReplayRoundTimeout a1 a2 s) := by
  unfold execReplayRoundTimeout
  repeat' first
    | with_reducible intro _
    | with_reducible assumption
    | with_reducible apply replayRoundTimeoutFx_keeps
    | with_reducible apply Keeps.ite
    | with_reducible apply KeepsX.mk

theorem replayTake_keeps {s₀ : State} (a1 : Pkt) (s : State) (h : Keeps s₀ s) :
    Keeps s₀ (replayTake a1 s) := by
  unfold replayTake
  repeat' first
    | with_reducible intro _
    | with_reducible assumption
    | with_reducible apply modEng_keeps
    | with_reducible apply ok_keeps
    | with_reducible apply pend_keeps
    | with_reducible apply Keeps.ite

theorem replayAct_keeps {s₀ : State} (a1 : Pkt) (s : State) (h : Keeps s₀ s) :
    Keeps s₀ (replayAct a1 s) := by
  unfold replayAct
  repeat' first
    | with_reducible intro _
    | with_reducible assumption
    | with_reducible apply failAt_keeps
    | with_reducible apply replayTake_keeps
    | with_reducible apply Keeps.ite

theorem verifyReplayFx_keeps {s₀ : State} (a1 : Pkt) (s : State) (h : Keeps s₀ s) :
    Keeps s₀ (verifyReplayFx a1 s) := by
  unfold verifyReplayFx
  repeat' first
    | with_reducible intro _
    | with_reducible assumption
    | with_reducible apply receive_keeps
    | with_reducible apply replayAct_keeps

theorem execVerifyReplay_keeps {s₀ : State} (a1 : Pkt) (s : State) (h : Keeps s₀ s) :
    KeepsX s₀ (execVerifyReplay a1 s) := by
  unfold execVerifyReplay
  repeat' first
    | with_reducible intro _
    | with_reducible assumption
    | with_reducible apply verifyReplayFx_keeps
    | with_reducible apply Keeps.ite
    | with_reducible apply KeepsX.mk

theorem resultAct_keeps {s₀ : State} (a1 : Pkt) (s : State) (h : Keeps s₀ s) :
    Keeps s₀ (resultAct a1 s) := by
  unfold resultAct
  repeat' first
    | with_reducible intro _
    | with_reducible assumption
    | with_reducible apply bump_keeps
    | with_reducible apply digestIn_keeps
    | with_reducible apply lossNoted_keeps
    | with_reducible apply roundFailed_keeps
    | with_reducible apply Keeps.ite

theorem verifyResultFx_keeps {s₀ : State} (a1 : Pkt) (s : State) (h : Keeps s₀ s) :
    Keeps s₀ (verifyResultFx a1 s) := by
  unfold verifyResultFx
  repeat' first
    | with_reducible intro _
    | with_reducible assumption
    | with_reducible apply ok_keeps
    | with_reducible apply orFormat_keeps
    | with_reducible apply receive_keeps
    | with_reducible apply resultAct_keeps

theorem execVerifyResult_keeps {s₀ : State} (a1 : Pkt) (s : State) (h : Keeps s₀ s) :
    KeepsX s₀ (execVerifyResult a1 s) := by
  unfold execVerifyResult
  repeat' first
    | with_reducible intro _
    | with_reducible assumption
    | with_reducible apply verifyResultFx_keeps
    | with_reducible apply Keeps.ite
    | with_reducible apply KeepsX.mk

theorem localDone_keeps {s₀ : State} (a1 : ℕ) (a2 : Run) (s : State) (h : Keeps s₀ s) :
    Keeps s₀ (localDone a1 a2 s) := by
  unfold localDone
  repeat' first
    | with_reducible intro _
    | with_reducible assumption
    | with_reducible apply agreed_keeps
    | with_reducible apply localLoss_keeps
    | with_reducible apply modEng_keeps
    | with_reducible apply Keeps.ite
    | with_reducible apply Keeps.fold
    | with_reducible apply Keeps.same_id
    | (extract_lets +onlyGivenNames x; clear_value (hx : x = _); refine Keeps.via (s := s₀) hx ?_ (fun _ => ?_); clear hx)
    | with_reducible apply hk
    | split

theorem serviceDone_keeps {s₀ : State} (a1 : ℕ) (a2 : Run) (s : State) (h : Keeps s₀ s) :
    Keeps s₀ (serviceDone a1 a2 s) := by
  unfold serviceDone
  repeat' first
    | with_reducible intro _
    | with_reducible assumption
    | with_reducible apply awaitTag_keeps
    | with_reducible apply bump_keeps
    | with_reducible apply modEng_keeps
    | with_reducible apply ok_keeps
    | with_reducible apply sendBack_keeps
    | with_reducible apply takeTag_keeps
    | with_reducible apply Keeps.ite
    | with_reducible apply Keeps.fold
    | with_reducible apply Keeps.same_id
    | with_reducible apply KeepsR.ite
    | with_reducible apply KeepsR.fold
    | with_reducible refine KeepsR.get (by assumption) ?_
    | (extract_lets +onlyGivenNames x; clear_value (hx : x = _); refine Keeps.via (s := s₀) hx ?_ (fun _ => ?_); clear hx)
    | (extract_lets +onlyGivenNames x; clear_value (hx : x = _); refine KeepsR.via (s := s₀) hx ?_ (fun _ => ?_); clear hx)
    | (extract_lets +onlyGivenNames x; clear_value x)
    | with_reducible apply hk
    | split

theorem serviceFailed_keeps {s₀ : State} (a1 : ℕ) (a2 : ℕ) (s : State) (h : Keeps s₀ s) :
    Keeps s₀ (serviceFailed a1 a2 s) := by
  unfold serviceFailed
  repeat' first
    | with_reducible intro _
    | with_reducible assumption
    | with_reducible apply awaitTag_keeps
    | with_reducible apply fail_keeps
    | with_reducible apply modEng_keeps
    | with_reducible apply sendBack_keeps
    | with_reducible apply takeTag_keeps
    | with_reducible apply Keeps.ite
    | with_reducible apply Keeps.fold
    | with_reducible apply Keeps.same_id
    | with_reducible apply KeepsR.ite
    | with_reducible apply KeepsR.fold
    | with_reducible refine KeepsR.get (by assumption) ?_
    | (extract_lets +onlyGivenNames x; clear_value (hx : x = _); refine Keeps.via (s := s₀) hx ?_ (fun _ => ?_); clear hx)
    | (extract_lets +onlyGivenNames x; clear_value (hx : x = _); refine KeepsR.via (s := s₀) hx ?_ (fun _ => ?_); clear hx)
    | (extract_lets +onlyGivenNames x; clear_value x)
    | with_reducible apply hk
    | split

theorem swapsNow_keeps {s₀ : State} (s : State) (h : Keeps s₀ s) :
    Keeps s₀ (swapsNow s) := by
  unfold swapsNow
  repeat' first
    | with_reducible intro _
    | with_reducible assumption
    | with_reducible apply swapInBegin_keeps
    | with_reducible apply swapOutDue_keeps
    | with_reducible apply swapOutTry_keeps
    | with_reducible apply Keeps.ite
    | with_reducible apply Keeps.fold
    | with_reducible apply Keeps.same_id
    | with_reducible exact KeepsO.no
    | with_reducible apply KeepsO.mapS
    | with_reducible apply KeepsO.mapR
    | with_reducible apply KeepsO.map
    | with_reducible apply KeepsO.bindS
    | with_reducible apply KeepsO.bind
    | with_reducible apply KeepsO.getD
    | with_reducible apply KeepsO.ite
    | with_reducible apply KeepsO.mk
    | with_reducible refine KeepsO.get (by assumption) ?_
    | (extract_lets +onlyGivenNames x; clear_value (hx : x = _); refine Keeps.via (s := s₀) hx ?_ (fun _ => ?_); clear hx)
    | with_reducible apply hk
    | split

theorem framesCome_keeps {s₀ : State} (s : State) (h : Keeps s₀ s) :
    Keeps s₀ (framesCome s) := by
  unfold framesCome
  repeat' first
    | with_reducible intro _
    | with_reducible assumption
    | with_reducible apply swapsNow_keeps
    | with_reducible apply unstall_keeps
    | with_reducible apply Keeps.ite
    | with_reducible apply Keeps.fold

theorem unfence_keeps {s₀ : State} (s : State) (h : Keeps s₀ s) :
    Keeps s₀ (unfence s) := by
  unfold unfence
  repeat' first
    | with_reducible intro _
    | with_reducible assumption
    | with_reducible apply modProg_keeps
    | with_reducible apply Keeps.ite
    | with_reducible apply Keeps.fold

theorem boundaryTail_keeps {s₀ : State} (s : State) (h : Keeps s₀ s) :
    Keeps s₀ (boundaryTail s) := by
  unfold boundaryTail
  repeat' first
    | with_reducible intro _
    | with_reducible assumption
    | with_reducible apply activateBlocked_keeps
    | with_reducible apply activateEnd_keeps
    | with_reducible apply activateSwap_keeps
    | with_reducible apply afterCommit_keeps
    | with_reducible apply budgetAll_keeps
    | with_reducible apply commitAwaited_keeps
    | with_reducible apply coreBoundary_keeps
    | with_reducible apply framesCome_keeps
    | with_reducible apply moveOpenNow_keeps
    | with_reducible apply repairAll_keeps
    | with_reducible apply restartRuns_keeps
    | with_reducible apply settle_keeps
    | with_reducible apply turnRows_keeps
    | with_reducible apply unfence_keeps
    | with_reducible apply Keeps.ite

theorem commitCounts_keeps {s₀ : State} (s : State) (h : Keeps s₀ s) :
    Keeps s₀ (commitCounts s) := by
  unfold commitCounts
  repeat' first
    | with_reducible intro _
    | with_reducible assumption
    | with_reducible apply bump_keeps
    | with_reducible apply Keeps.ite
    | with_reducible apply Keeps.fold
    | with_reducible apply Keeps.same_id
    | (extract_lets +onlyGivenNames x; clear_value (hx : x = _); refine Keeps.via (s := s₀) hx ?_ (fun _ => ?_); clear hx)
    | with_reducible apply hk
    | split
    | with_reducible apply Keeps.upd

theorem countDone_keeps {s₀ : State} (a1 : ℕ) (a2 : ℕ) (s : State) (h : Keeps s₀ s) :
    Keeps s₀ (countDone a1 a2 s) := by
  unfold countDone
  repeat' first
    | with_reducible intro _
    | with_reducible assumption
    | with_reducible apply bump_keeps
    | with_reducible apply keepMax_keeps
    | with_reducible apply modEng_keeps
    | with_reducible apply regPut_keeps

theorem poisonRerun_keeps {s₀ : State} (a1 : Run) (s : State) (h : Keeps s₀ s) :
    Keeps s₀ (poisonRerun a1 s) := by
  unfold poisonRerun
  repeat' first
    | with_reducible intro _
    | with_reducible assumption
    | with_reducible apply bump_keeps
    | with_reducible apply modEng_keeps
    | with_reducible apply modRun_keeps
    | with_reducible apply record_keeps
    | with_reducible apply restrictEnter_keeps
    | with_reducible apply runDropped_keeps
    | with_reducible apply serviceFailed_keeps
    | with_reducible apply stepDiscard_keeps
    | with_reducible apply Keeps.ite
    | with_reducible apply Keeps.fold
    | with_reducible apply Keeps.same_id
    | (extract_lets +onlyGivenNames x; clear_value (hx : x = _); refine Keeps.via (s := s₀) hx ?_ (fun _ => ?_); clear hx)
    | (extract_lets +onlyGivenNames x; clear_value x)
    | with_reducible apply hk
    | split

theorem countRowsRun_keeps {s₀ : State} (a1 : Run) (s : State) (h : Keeps s₀ s) :
    Keeps s₀ (countRowsRun a1 s) := by
  unfold countRowsRun
  repeat' first
    | with_reducible intro _
    | with_reducible assumption
    | with_reducible apply bump_keeps
    | with_reducible apply modCnt_keeps
    | with_reducible apply Keeps.ite
    | with_reducible apply Keeps.fold

theorem releaseRun_keeps {s₀ : State} (a1 : ℕ) (s : State) (h : Keeps s₀ s) :
    Keeps s₀ (releaseRun a1 s) := by
  unfold releaseRun
  repeat' first
    | with_reducible intro _
    | with_reducible assumption
    | with_reducible apply heldRelease_keeps
    | with_reducible apply markSpec_keeps
    | with_reducible apply modEng_keeps
    | with_reducible apply Keeps.ite
    | with_reducible apply Keeps.fold
    | with_reducible apply Keeps.same_id
    | with_reducible apply hk
    | split

theorem runEnds_keeps {s₀ : State} (a1 : ℕ) (s : State) (h : Keeps s₀ s) :
    Keeps s₀ (runEnds a1 s) := by
  unfold runEnds
  repeat' first
    | with_reducible intro _
    | with_reducible assumption
    | with_reducible apply commitRun_keeps
    | with_reducible apply modEng_keeps
    | with_reducible apply Keeps.ite
    | with_reducible apply Keeps.fold
    | with_reducible apply Keeps.same_id
    | (extract_lets +onlyGivenNames x; clear_value (hx : x = _); refine Keeps.via (s := s₀) hx ?_ (fun _ => ?_); clear hx)
    | with_reducible apply hk
    | split

theorem verifyNew_keeps {s₀ : State} (s : State) (h : Keeps s₀ s) :
    Keeps s₀ (verifyNew s) := by
  unfold verifyNew
  repeat' first
    | with_reducible intro _
    | with_reducible assumption
    | with_reducible apply beginVerify_keeps
    | with_reducible apply Keeps.ite
    | with_reducible apply Keeps.fold

theorem runBoundary_keeps {s₀ : State} (a1 : ℕ) (a2 : Run) (s : State) (h : Keeps s₀ s) :
    Keeps s₀ (runBoundary a1 a2 s) := by
  unfold runBoundary
  repeat' first
    | with_reducible intro _
    | with_reducible assumption
    | with_reducible apply commitCounts_keeps
    | with_reducible apply countRowsRun_keeps
    | with_reducible apply loseSoon_keeps
    | with_reducible apply modEng_keeps
    | with_reducible apply releaseRun_keeps
    | with_reducible apply runEnds_keeps
    | with_reducible apply settle_keeps
    | with_reducible apply turnRows_keeps
    | with_reducible apply verifyNew_keeps
    | with_reducible apply Keeps.ite
    | with_reducible apply Keeps.fold
    | with_reducible apply Keeps.same_id
    | with_reducible apply hk
    | split

theorem slackAll_keeps {s₀ : State} (s : State) (h : Keeps s₀ s) :
    Keeps s₀ (slackAll s) := by
  unfold slackAll
  repeat' first
    | with_reducible intro _
    | with_reducible assumption
    | with_reducible apply slackUpdate_keeps
    | with_reducible apply Keeps.ite
    | with_reducible apply Keeps.fold

theorem weaveNext_keeps {s₀ : State} (s : State) (h : Keeps s₀ s) :
    Keeps s₀ (weaveNext s) := by
  unfold weaveNext
  repeat' first
    | with_reducible intro _
    | with_reducible assumption
    | with_reducible apply buildWeave_keeps
    | with_reducible apply modEng_keeps
    | with_reducible apply promoteAll_keeps
    | with_reducible apply tagCandidates_keeps
    | with_reducible apply Keeps.ite
    | with_reducible apply Keeps.fold
    | with_reducible apply Keeps.same_id
    | with_reducible apply hk
    | split

theorem boundaryFx_keeps {s₀ : State} (a1 : ℕ) (s : State) (h : Keeps s₀ s) :
    Keeps s₀ (boundaryFx a1 s) := by
  unfold boundaryFx
  repeat' first
    | with_reducible intro _
    | with_reducible assumption
    | with_reducible apply boundaryTail_keeps
    | with_reducible apply chargeStep_keeps
    | with_reducible apply closeExchanges_keeps
    | with_reducible apply commitCounts_keeps
    | with_reducible apply countDone_keeps
    | with_reducible apply localDone_keeps
    | with_reducible apply meterStep_keeps
    | with_reducible apply modEng_keeps
    | with_reducible apply poisonRerun_keeps
    | with_reducible apply runBoundary_keeps
    | with_reducible apply serviceDone_keeps
    | with_reducible apply slackAll_keeps
    | with_reducible apply weaveNext_keeps
    | with_reducible apply Keeps.ite
    | with_reducible apply Keeps.fold
    | with_reducible apply Keeps.same_id
    | (extract_lets +onlyGivenNames x; clear_value (hx : x = _); refine Keeps.via (s := s₀) hx ?_ (fun _ => ?_); clear hx)
    | with_reducible apply hk
    | split

theorem clusterReset_keeps {s₀ : State} (s : State) (a2 : ℕ) (h : Keeps s₀ s) :
    Keeps s₀ (clusterReset s a2) := by
  unfold clusterReset
  repeat' first
    | with_reducible intro _
    | with_reducible assumption
    | with_reducible apply bump_keeps
    | with_reducible apply modCluster_keeps

theorem clusterResetCompleteFx_keeps {s₀ : State} (a1 : ℕ) (s : State) (h : Keeps s₀ s) :
    Keeps s₀ (clusterResetCompleteFx a1 s) := by
  unfold clusterResetCompleteFx
  repeat' first
    | with_reducible intro _
    | with_reducible assumption
    | with_reducible apply modCluster_keeps
    | with_reducible apply Keeps.ite

theorem execClusterResetComplete_keeps {s₀ : State} (a1 : ℕ) (s : State) (h : Keeps s₀ s) :
    KeepsX s₀ (execClusterResetComplete a1 s) := by
  unfold execClusterResetComplete
  repeat' first
    | with_reducible intro _
    | with_reducible assumption
    | with_reducible apply clusterResetCompleteFx_keeps
    | with_reducible apply Keeps.ite
    | with_reducible apply KeepsX.mk

theorem stepBoundaryFx_keeps {s₀ : State} (a1 : ℕ) (a2 : ℕ) (s : State) (h : Keeps s₀ s) :
    Keeps s₀ (stepBoundaryFx a1 a2 s) := by
  unfold stepBoundaryFx
  repeat' first
    | with_reducible intro _
    | with_reducible assumption
    | with_reducible apply atTick_keeps
    | with_reducible apply boundaryFx_keeps
    | with_reducible apply modEng_keeps
    | with_reducible apply Keeps.ite
    | with_reducible apply Keeps.fold
    | with_reducible apply Keeps.same_id
    | (extract_lets +onlyGivenNames x; clear_value (hx : x = _); refine Keeps.via (s := s₀) hx ?_ (fun _ => ?_); clear hx)
    | with_reducible apply hk
    | split

theorem execStepBoundary_keeps {s₀ : State} (a1 : ℕ) (a2 : ℕ) (s : State) (h : Keeps s₀ s) :
    KeepsX s₀ (execStepBoundary a1 a2 s) := by
  unfold execStepBoundary
  repeat' first
    | with_reducible intro _
    | with_reducible assumption
    | with_reducible apply stepBoundaryFx_keeps
    | with_reducible apply Keeps.ite
    | with_reducible apply KeepsX.mk

theorem stepOverrunFx_keeps {s₀ : State} (s : State) (h : Keeps s₀ s) :
    Keeps s₀ (stepOverrunFx s) := by
  unfold stepOverrunFx
  repeat' first
    | with_reducible intro _
    | with_reducible assumption
    | with_reducible apply bump_keeps
    | with_reducible apply modEng_keeps
    | with_reducible apply Keeps.ite
    | with_reducible apply Keeps.fold
    | with_reducible apply Keeps.same_id
    | with_reducible apply hk
    | split

theorem execStepOverrun_keeps {s₀ : State} (s : State) (h : Keeps s₀ s) :
    KeepsX s₀ (execStepOverrun s) := by
  unfold execStepOverrun
  repeat' first
    | with_reducible intro _
    | with_reducible assumption
    | with_reducible apply stepOverrunFx_keeps
    | with_reducible apply Keeps.ite
    | with_reducible apply KeepsX.mk

theorem idleTakesUp_keeps {s₀ : State} (s : State) (h : Keeps s₀ s) :
    Keeps s₀ (idleTakesUp s) := by
  unfold idleTakesUp
  repeat' first
    | with_reducible intro _
    | with_reducible assumption
    | with_reducible apply framesCome_keeps
    | with_reducible apply preemptStalled_keeps
    | with_reducible apply promoteRows_keeps
    | with_reducible apply tagCandidates_keeps

theorem idleChoice_keeps {s₀ : State} (s : State) (h : Keeps s₀ s) :
    KeepsR s₀ (idleChoice s) := by
  unfold idleChoice
  repeat' first
    | with_reducible intro _
    | with_reducible assumption
    | with_reducible apply buildWeave_keeps
    | with_reducible apply chooseNext_keeps
    | with_reducible apply idleTakesUp_keeps
    | with_reducible apply Keeps.ite
    | with_reducible apply Keeps.fold
    | with_reducible apply Keeps.same_id
    | with_reducible apply KeepsR.ite
    | with_reducible apply KeepsR.fold
    | with_reducible refine KeepsR.get (by assumption) ?_
    | (extract_lets +onlyGivenNames x; clear_value (hx : x = _); refine Keeps.via (s := s₀) hx ?_ (fun _ => ?_); clear hx)
    | (extract_lets +onlyGivenNames x; clear_value (hx : x = _); refine KeepsR.via (s := s₀) hx ?_ (fun _ => ?_); clear hx)
    | with_reducible apply hk
    | split
    | with_reducible apply KeepsR.mk

theorem inputFlags_keeps {s₀ : State} (a1 : Run) (s : State) (h : Keeps s₀ s) :
    Keeps s₀ (inputFlags a1 s) := by
  unfold inputFlags
  repeat' first
    | with_reducible intro _
    | with_reducible assumption
    | with_reducible apply flagArrival_keeps
    | with_reducible apply Keeps.ite
    | with_reducible apply Keeps.fold

theorem idleEnds_keeps {s₀ : State} (s : State) (h : Keeps s₀ s) :
    Keeps s₀ (idleEnds s) := by
  unfold idleEnds
  repeat' first
    | with_reducible intro _
    | with_reducible assumption
    | with_reducible apply bump_keeps
    | with_reducible apply modEng_keeps
    | with_reducible apply Keeps.ite
    | with_reducible apply Keeps.fold
    | with_reducible apply Keeps.same_id
    | with_reducible apply hk
    | split

theorem startStep_keeps {s₀ : State} (a1 : Running) (a2 : Run) (a3 : Bool) (s : State) (h : Keeps s₀ s) :
    Keeps s₀ (startStep a1 a2 a3 s) := by
  unfold startStep
  repeat' first
    | with_reducible intro _
    | with_reducible assumption
    | with_reducible apply bump_keeps
    | with_reducible apply idleEnds_keeps
    | with_reducible apply modCore_keeps
    | with_reducible apply modEng_keeps
    | with_reducible apply refsNow_keeps
    | with_reducible apply setCredit_keeps
    | with_reducible apply Keeps.ite
    | with_reducible apply Keeps.fold
    | with_reducible apply Keeps.same_id
    | with_reducible apply hk
    | split
    | with_reducible apply Keeps.upd

theorem startChosen_keeps {s₀ : State} (a1 : ℕ) (s : State) (h : Keeps s₀ s) :
    Keeps s₀ (startChosen a1 s) := by
  unfold startChosen
  repeat' first
    | with_reducible intro _
    | with_reducible assumption
    | with_reducible apply chooseNext_keeps
    | with_reducible apply modEng_keeps
    | with_reducible apply modSched_keeps
    | with_reducible apply startStep_keeps
    | with_reducible apply Keeps.ite
    | with_reducible apply Keeps.fold
    | with_reducible apply Keeps.same_id
    | with_reducible apply KeepsR.ite
    | with_reducible apply KeepsR.fold
    | with_reducible refine KeepsR.get (by assumption) ?_
    | (with_reducible apply KeepsR.snd; with_reducible apply chooseNext_keeps)
    | with_reducible apply hk
    | split

theorem startReplay_keeps {s₀ : State} (a1 : Running) (s : State) (h : Keeps s₀ s) :
    Keeps s₀ (startReplay a1 s) := by
  unfold startReplay
  repeat' first
    | with_reducible intro _
    | with_reducible assumption
    | with_reducible apply inputFlags_keeps
    | with_reducible apply modEng_keeps
    | with_reducible apply startStep_keeps
    | with_reducible apply Keeps.ite
    | with_reducible apply Keeps.fold
    | with_reducible apply Keeps.same_id
    | with_reducible apply hk
    | split

theorem stepStartFx_keeps {s₀ : State} (a1 : ℕ) (s : State) (h : Keeps s₀ s) :
    Keeps s₀ (stepStartFx a1 s) := by
  unfold stepStartFx
  repeat' first
    | with_reducible intro _
    | with_reducible assumption
    | with_reducible apply atTick_keeps
    | with_reducible apply idleChoice_keeps
    | with_reducible apply inputFlags_keeps
    | with_reducible apply modEng_keeps
    | with_reducible apply startChosen_keeps
    | with_reducible apply startReplay_keeps
    | with_reducible apply startStep_keeps
    | with_reducible apply Keeps.ite
    | with_reducible apply Keeps.fold
    | with_reducible apply Keeps.same_id
    | with_reducible apply KeepsR.ite
    | with_reducible apply KeepsR.fold
    | with_reducible refine KeepsR.get (by assumption) ?_
    | (extract_lets +onlyGivenNames x; clear_value (hx : x = _); refine KeepsR.via (s := s₀) hx ?_ (fun _ => ?_); clear hx)
    | with_reducible apply hk
    | split

theorem execStepStart_keeps {s₀ : State} (a1 : ℕ) (s : State) (h : Keeps s₀ s) :
    KeepsX s₀ (execStepStart a1 s) := by
  unfold execStepStart
  repeat' first
    | with_reducible intro _
    | with_reducible assumption
    | with_reducible apply stepStartFx_keeps
    | with_reducible apply Keeps.ite
    | with_reducible apply KeepsX.mk

theorem watchdogEnds_keeps {s₀ : State} (a1 : Running) (s : State) (h : Keeps s₀ s) :
    Keeps s₀ (watchdogEnds a1 s) := by
  unfold watchdogEnds
  repeat' first
    | with_reducible intro _
    | with_reducible assumption
    | with_reducible apply failSoon_keeps
    | with_reducible apply localLoss_keeps
    | with_reducible apply modEng_keeps
    | with_reducible apply serviceFailed_keeps
    | with_reducible apply Keeps.ite
    | with_reducible apply Keeps.fold
    | with_reducible apply Keeps.same_id
    | with_reducible apply hk
    | split

theorem stepWatchdogFx_keeps {s₀ : State} (a1 : ℕ) (s : State) (h : Keeps s₀ s) :
    Keeps s₀ (stepWatchdogFx a1 s) := by
  unfold stepWatchdogFx
  repeat' first
    | with_reducible intro _
    | with_reducible assumption
    | with_reducible apply atTick_keeps
    | with_reducible apply boundaryTail_keeps
    | with_reducible apply bump_keeps
    | with_reducible apply clusterReset_keeps
    | with_reducible apply record_keeps
    | with_reducible apply stepAbort_keeps
    | with_reducible apply watchdogEnds_keeps
    | with_reducible apply weaveNext_keeps
    | with_reducible apply Keeps.ite
    | with_reducible apply Keeps.fold
    | with_reducible apply Keeps.same_id
    | (extract_lets +onlyGivenNames x; clear_value (hx : x = _); refine Keeps.via (s := s₀) hx ?_ (fun _ => ?_); clear hx)
    | (extract_lets +onlyGivenNames x; clear_value x)
    | with_reducible apply hk
    | split

theorem execStepWatchdog_keeps {s₀ : State} (a1 : ℕ) (s : State) (h : Keeps s₀ s) :
    KeepsX s₀ (execStepWatchdog a1 s) := by
  unfold execStepWatchdog
  repeat' first
    | with_reducible intro _
    | with_reducible assumption
    | with_reducible apply stepWatchdogFx_keeps
    | with_reducible apply Keeps.ite
    | with_reducible apply KeepsX.mk

theorem binUp_keeps {s₀ : State} (a1 : ℕ) (s : State) (h : Keeps s₀ s) :
    Keeps s₀ (binUp a1 s) := by
  unfold binUp
  repeat' first
    | with_reducible intro _
    | with_reducible assumption
    | with_reducible apply regPut_keeps

theorem compCreateAct_keeps {s₀ : State} (a1 : Pkt) (s : State) (h : Keeps s₀ s) :
    Keeps s₀ (compCreateAct a1 s) := by
  unfold compCreateAct
  repeat' first
    | with_reducible intro _
    | with_reducible assumption
    | with_reducible apply fail_keeps
    | with_reducible apply modSched_keeps
    | with_reducible apply ok_keeps
    | with_reducible apply Keeps.ite

theorem compCreateFx_keeps {s₀ : State} (a1 : Pkt) (s : State) (h : Keeps s₀ s) :
    Keeps s₀ (compCreateFx a1 s) := by
  unfold compCreateFx
  repeat' first
    | with_reducible intro _
    | with_reducible assumption
    | with_reducible apply compCreateAct_keeps
    | with_reducible apply orFormat_keeps
    | with_reducible apply receive_keeps

theorem meterNow_keeps {s₀ : State} (a1 : ℕ) (s : State) (h : Keeps s₀ s) :
    Keeps s₀ (meterNow a1 s) := by
  unfold meterNow
  repeat' first
    | with_reducible intro _
    | with_reducible assumption
    | with_reducible apply meterActive_keeps
    | with_reducible apply modEng_keeps
    | with_reducible apply modSched_keeps
    | with_reducible apply Keeps.ite
    | with_reducible apply Keeps.fold
    | with_reducible apply Keeps.same_id
    | (extract_lets +onlyGivenNames x; clear_value (hx : x = _); refine Keeps.via (s := s₀) hx ?_ (fun _ => ?_); clear hx)
    | with_reducible apply hk
    | split

theorem compMeterAct_keeps {s₀ : State} (a1 : Pkt) (s : State) (h : Keeps s₀ s) :
    Keeps s₀ (compMeterAct a1 s) := by
  unfold compMeterAct
  repeat' first
    | with_reducible intro _
    | with_reducible assumption
    | with_reducible apply meterNow_keeps
    | with_reducible apply modSched_keeps
    | with_reducible apply respond_keeps
    | with_reducible apply Keeps.ite

theorem compMeterFx_keeps {s₀ : State} (a1 : Pkt) (s : State) (h : Keeps s₀ s) :
    Keeps s₀ (compMeterFx a1 s) := by
  unfold compMeterFx
  repeat' first
    | with_reducible intro _
    | with_reducible assumption
    | with_reducible apply compMeterAct_keeps
    | with_reducible apply orFormat_keeps
    | with_reducible apply receive_keeps

theorem leaveWeaves_keeps {s₀ : State} (s : State) (h : Keeps s₀ s) :
    Keeps s₀ (leaveWeaves s) := by
  unfold leaveWeaves
  repeat' first
    | with_reducible intro _
    | with_reducible assumption
    | with_reducible apply settle_keeps
    | with_reducible apply turnRows_keeps
    | with_reducible apply Keeps.ite

theorem drainEnds_keeps {s₀ : State} (s : State) (h : Keeps s₀ s) :
    Keeps s₀ (drainEnds s) := by
  unfold drainEnds
  repeat' first
    | with_reducible intro _
    | with_reducible assumption
    | with_reducible apply failSoon_keeps
    | with_reducible apply leaveWeaves_keeps
    | with_reducible apply modSched_keeps
    | with_reducible apply msaDiscard_keeps
    | with_reducible apply Keeps.ite
    | with_reducible apply Keeps.fold

theorem drainWindowEndFx_keeps {s₀ : State} (a1 : ℕ) (s : State) (h : Keeps s₀ s) :
    Keeps s₀ (drainWindowEndFx a1 s) := by
  unfold drainWindowEndFx
  repeat' first
    | with_reducible intro _
    | with_reducible assumption
    | with_reducible apply atTick_keeps
    | with_reducible apply drainEnds_keeps
    | with_reducible apply Keeps.ite
    | with_reducible apply Keeps.fold
    | with_reducible apply Keeps.same_id
    | (extract_lets +onlyGivenNames x; clear_value (hx : x = _); refine Keeps.via (s := s₀) hx ?_ (fun _ => ?_); clear hx)
    | with_reducible apply hk
    | split

theorem wheelReturn_keeps {s₀ : State} (s : State) (h : Keeps s₀ s) :
    Keeps s₀ (wheelReturn s) := by
  unfold wheelReturn
  repeat' first
    | with_reducible intro _
    | with_reducible assumption
    | with_reducible apply wheelEval_keeps
    | with_reducible apply Keeps.ite
    | with_reducible apply Keeps.fold

theorem epochNext_keeps {s₀ : State} (a1 : ℕ) (a2 : ℕ) (a3 : Tab ℕ) (s : State) (h : Keeps s₀ s) :
    Keeps s₀ (epochNext a1 a2 a3 s) := by
  unfold epochNext
  repeat' first
    | with_reducible intro _
    | with_reducible assumption
    | with_reducible apply drainEnds_keeps
    | with_reducible apply modSched_keeps
    | with_reducible apply regPut_keeps
    | with_reducible apply unfence_keeps
    | with_reducible apply wheelReturn_keeps
    | with_reducible apply Keeps.ite

theorem epochAct_keeps {s₀ : State} (a1 : Pkt) (s : State) (h : Keeps s₀ s) :
    Keeps s₀ (epochAct a1 s) := by
  unfold epochAct
  repeat' first
    | with_reducible intro _
    | with_reducible assumption
    | with_reducible apply bump_keeps
    | with_reducible apply epochNext_keeps
    | with_reducible apply fail_keeps
    | with_reducible apply ok_keeps
    | with_reducible apply Keeps.ite

theorem execCompCreate_keeps {s₀ : State} (a1 : Pkt) (s : State) (h : Keeps s₀ s) :
    KeepsX s₀ (execCompCreate a1 s) := by
  unfold execCompCreate
  repeat' first
    | with_reducible intro _
    | with_reducible assumption
    | with_reducible apply compCreateFx_keeps
    | with_reducible apply Keeps.ite
    | with_reducible apply KeepsX.mk

theorem execCompMeter_keeps {s₀ : State} (a1 : Pkt) (s : State) (h : Keeps s₀ s) :
    KeepsX s₀ (execCompMeter a1 s) := by
  unfold execCompMeter
  repeat' first
    | with_reducible intro _
    | with_reducible assumption
    | with_reducible apply compMeterFx_keeps
    | with_reducible apply Keeps.ite
    | with_reducible apply KeepsX.mk

theorem execDrainWindowEnd_keeps {s₀ : State} (a1 : ℕ) (s : State) (h : Keeps s₀ s) :
    KeepsX s₀ (execDrainWindowEnd a1 s) := by
  unfold execDrainWindowEnd
  repeat' first
    | with_reducible intro _
    | with_reducible assumption
    | with_reducible apply drainWindowEndFx_keeps
    | with_reducible apply Keeps.ite
    | with_reducible apply KeepsX.mk

theorem meterPageMsTickFx_keeps {s₀ : State} (a1 : ℕ) (s : State) (h : Keeps s₀ s) :
    Keeps s₀ (meterPageMsTickFx a1 s) := by
  unfold meterPageMsTickFx
  repeat' first
    | with_reducible intro _
    | with_reducible assumption
    | with_reducible apply atTick_keeps
    | with_reducible apply modSched_keeps
    | with_reducible apply Keeps.ite

theorem execMeterPageMsTick_keeps {s₀ : State} (a1 : ℕ) (s : State) (h : Keeps s₀ s) :
    KeepsX s₀ (execMeterPageMsTick a1 s) := by
  unfold execMeterPageMsTick
  repeat' first
    | with_reducible intro _
    | with_reducible assumption
    | with_reducible apply meterPageMsTickFx_keeps
    | with_reducible apply Keeps.ite
    | with_reducible apply KeepsX.mk

theorem markReady_keeps {s₀ : State} (s : State) (h : Keeps s₀ s) :
    Keeps s₀ (markReady s) := by
  unfold markReady
  repeat' first
    | with_reducible intro _
    | with_reducible assumption
    | with_reducible apply modBerth_keeps
    | with_reducible apply Keeps.ite
    | with_reducible apply Keeps.fold

theorem queueSampleTickFx_keeps {s₀ : State} (a1 : ℕ) (s : State) (h : Keeps s₀ s) :
    Keeps s₀ (queueSampleTickFx a1 s) := by
  unfold queueSampleTickFx
  repeat' first
    | with_reducible intro _
    | with_reducible assumption
    | with_reducible apply atTick_keeps
    | with_reducible apply binUp_keeps
    | with_reducible apply markReady_keeps
    | with_reducible apply modSched_keeps
    | with_reducible apply Keeps.ite
    | with_reducible apply Keeps.fold

theorem execQueueSampleTick_keeps {s₀ : State} (a1 : ℕ) (s : State) (h : Keeps s₀ s) :
    KeepsX s₀ (execQueueSampleTick a1 s) := by
  unfold execQueueSampleTick
  repeat' first
    | with_reducible intro _
    | with_reducible assumption
    | with_reducible apply queueSampleTickFx_keeps
    | with_reducible apply Keeps.ite
    | with_reducible apply KeepsX.mk

theorem schHistClearFx_keeps {s₀ : State} (s : State) (h : Keeps s₀ s) :
    Keeps s₀ (schHistClearFx s) := by
  unfold schHistClearFx
  repeat' first
    | with_reducible intro _
    | with_reducible assumption
    | with_reducible apply modSched_keeps
    | with_reducible apply regPut_keeps
    | with_reducible apply Keeps.ite
    | with_reducible apply Keeps.fold

theorem execSchHistClear_keeps {s₀ : State} (s : State) (h : Keeps s₀ s) :
    KeepsX s₀ (execSchHistClear s) := by
  unfold execSchHistClear
  repeat' first
    | with_reducible intro _
    | with_reducible assumption
    | with_reducible apply schHistClearFx_keeps
    | with_reducible apply Keeps.ite
    | with_reducible apply KeepsX.mk

theorem schShapeSelWriteFx_keeps {s₀ : State} (a1 : ℕ) (s : State) (h : Keeps s₀ s) :
    Keeps s₀ (schShapeSelWriteFx a1 s) := by
  unfold schShapeSelWriteFx
  repeat' first
    | with_reducible intro _
    | with_reducible assumption
    | with_reducible apply regPut_keeps
    | with_reducible apply regSet_keeps
    | with_reducible apply Keeps.ite

theorem execSchShapeSelWrite_keeps {s₀ : State} (a1 : ℕ) (s : State) (h : Keeps s₀ s) :
    KeepsX s₀ (execSchShapeSelWrite a1 s) := by
  unfold execSchShapeSelWrite
  repeat' first
    | with_reducible intro _
    | with_reducible assumption
    | with_reducible apply schShapeSelWriteFx_keeps
    | with_reducible apply Keeps.ite
    | with_reducible apply KeepsX.mk

theorem sharesAct_keeps {s₀ : State} (a1 : Pkt) (s : State) (h : Keeps s₀ s) :
    Keeps s₀ (sharesAct a1 s) := by
  unfold sharesAct
  repeat' first
    | with_reducible intro _
    | with_reducible assumption
    | with_reducible apply fail_keeps
    | with_reducible apply modSched_keeps
    | with_reducible apply ok_keeps
    | with_reducible apply Keeps.ite

theorem schSharesFx_keeps {s₀ : State} (a1 : Pkt) (s : State) (h : Keeps s₀ s) :
    Keeps s₀ (schSharesFx a1 s) := by
  unfold schSharesFx
  repeat' first
    | with_reducible intro _
    | with_reducible assumption
    | with_reducible apply orFormat_keeps
    | with_reducible apply receive_keeps
    | with_reducible apply sharesAct_keeps

theorem execSchShares_keeps {s₀ : State} (a1 : Pkt) (s : State) (h : Keeps s₀ s) :
    KeepsX s₀ (execSchShares a1 s) := by
  unfold execSchShares
  repeat' first
    | with_reducible intro _
    | with_reducible assumption
    | with_reducible apply schSharesFx_keeps
    | with_reducible apply Keeps.ite
    | with_reducible apply KeepsX.mk

theorem sysEpochFx_keeps {s₀ : State} (a1 : Pkt) (s : State) (h : Keeps s₀ s) :
    Keeps s₀ (sysEpochFx a1 s) := by
  unfold sysEpochFx
  repeat' first
    | with_reducible intro _
    | with_reducible assumption
    | with_reducible apply epochAct_keeps
    | with_reducible apply orFormat_keeps
    | with_reducible apply receive_keeps

theorem execSysEpoch_keeps {s₀ : State} (a1 : Pkt) (s : State) (h : Keeps s₀ s) :
    KeepsX s₀ (execSysEpoch a1 s) := by
  unfold execSysEpoch
  repeat' first
    | with_reducible intro _
    | with_reducible assumption
    | with_reducible apply sysEpochFx_keeps
    | with_reducible apply Keeps.ite
    | with_reducible apply KeepsX.mk

theorem wheelLeave_keeps {s₀ : State} (a1 : ℕ) (s : State) (h : Keeps s₀ s) :
    Keeps s₀ (wheelLeave a1 s) := by
  unfold wheelLeave
  repeat' first
    | with_reducible intro _
    | with_reducible assumption
    | with_reducible apply modShaper_keeps
    | with_reducible apply Keeps.ite
    | with_reducible apply Keeps.fold

theorem fenceComp_keeps {s₀ : State} (a1 : ℕ) (s : State) (h : Keeps s₀ s) :
    Keeps s₀ (fenceComp a1 s) := by
  unfold fenceComp
  repeat' first
    | with_reducible intro _
    | with_reducible assumption
    | with_reducible apply leaveWeaves_keeps
    | with_reducible apply modProg_keeps
    | with_reducible apply modSched_keeps
    | with_reducible apply msaDiscard_keeps
    | with_reducible apply wheelLeave_keeps
    | with_reducible apply Keeps.ite
    | with_reducible apply Keeps.fold

theorem sysFenceFx_keeps {s₀ : State} (a1 : Pkt) (s : State) (h : Keeps s₀ s) :
    Keeps s₀ (sysFenceFx a1 s) := by
  unfold sysFenceFx
  repeat' first
    | with_reducible intro _
    | with_reducible assumption
    | with_reducible apply bump_keeps
    | with_reducible apply fenceComp_keeps
    | with_reducible apply ok_keeps
    | with_reducible apply orFormat_keeps
    | with_reducible apply receive_keeps

theorem execSysFence_keeps {s₀ : State} (a1 : Pkt) (s : State) (h : Keeps s₀ s) :
    KeepsX s₀ (execSysFence a1 s) := by
  unfold execSysFence
  repeat' first
    | with_reducible intro _
    | with_reducible assumption
    | with_reducible apply sysFenceFx_keeps
    | with_reducible apply Keeps.ite
    | with_reducible apply KeepsX.mk

theorem heldBoundary_keeps {s₀ : State} (s : State) (h : Keeps s₀ s) :
    Keeps s₀ (heldBoundary s) := by
  unfold heldBoundary
  repeat' first
    | with_reducible intro _
    | with_reducible assumption
    | with_reducible apply boundaryFx_keeps
    | with_reducible apply boundaryTail_keeps
    | with_reducible apply weaveNext_keeps
    | with_reducible apply Keeps.ite
    | with_reducible apply Keeps.fold
    | with_reducible apply Keeps.same_id
    | with_reducible apply hk
    | split

theorem cpRestartCompleteFx_keeps {s₀ : State} (a1 : ℕ) (s : State) (h : Keeps s₀ s) :
    Keeps s₀ (cpRestartCompleteFx a1 s) := by
  unfold cpRestartCompleteFx
  repeat' first
    | with_reducible intro _
    | with_reducible assumption
    | exact ErrKeeps.mk fun _ h => h
    | with_reducible apply atTick_keeps
    | with_reducible apply bump_keeps
    | with_reducible apply fail_keeps
    | with_reducible apply heldBoundary_keeps
    | with_reducible apply irqEvent_keeps
    | with_reducible apply modErr_keeps
    | with_reducible apply record_keeps
    | with_reducible apply Keeps.ite
    | with_reducible apply Keeps.fold

theorem foldsEnd_keeps {s₀ : State} (s : State) (h : Keeps s₀ s) :
    Keeps s₀ (foldsEnd s) := by
  unfold foldsEnd
  repeat' first
    | with_reducible intro _
    | with_reducible assumption
    | with_reducible apply frameUnref_keeps
    | with_reducible apply modEng_keeps
    | with_reducible apply serveEnds_keeps
    | with_reducible apply Keeps.ite
    | with_reducible apply Keeps.fold

theorem loadsEnd_keeps {s₀ : State} (s : State) (h : Keeps s₀ s) :
    Keeps s₀ (loadsEnd s) := by
  unfold loadsEnd
  repeat' first
    | with_reducible intro _
    | with_reducible assumption
    | with_reducible apply loadEnd_keeps
    | with_reducible apply modTier_keeps
    | with_reducible apply wslotClear_keeps
    | with_reducible apply wthEnd_keeps
    | with_reducible apply Keeps.ite
    | with_reducible apply Keeps.fold
    | with_reducible apply Keeps.same_id
    | (extract_lets +onlyGivenNames x; clear_value (hx : x = _); refine Keeps.via (s := s₀) hx ?_ (fun _ => ?_); clear hx)
    | with_reducible apply hk
    | split
    | with_reducible apply Keeps.upd

theorem servicesEnd_keeps {s₀ : State} (s : State) (h : Keeps s₀ s) :
    Keeps s₀ (servicesEnd s) := by
  unfold servicesEnd
  repeat' first
    | with_reducible intro _
    | with_reducible assumption
    | with_reducible apply modEng_keeps

theorem stageEnds_keeps {s₀ : State} (s : State) (h : Keeps s₀ s) :
    Keeps s₀ (stageEnds s) := by
  unfold stageEnds
  repeat' first
    | with_reducible intro _
    | with_reducible assumption
    | with_reducible apply flashFree_keeps
    | with_reducible apply Keeps.ite
    | with_reducible apply Keeps.fold
    | with_reducible apply Keeps.same_id
    | with_reducible apply hk
    | split

theorem restartStart_keeps {s₀ : State} (a1 : ℕ) (s : State) (h : Keeps s₀ s) :
    Keeps s₀ (restartStart a1 s) := by
  unfold restartStart
  repeat' first
    | with_reducible intro _
    | with_reducible assumption
    | exact ErrKeeps.mk fun _ h => h
    | with_reducible apply foldsEnd_keeps
    | with_reducible apply loadsEnd_keeps
    | with_reducible apply modErr_keeps
    | with_reducible apply modMan_keeps
    | with_reducible apply resetRegs_keeps
    | with_reducible apply servicesEnd_keeps
    | with_reducible apply stageEnds_keeps
    | with_reducible apply Keeps.ite

theorem cpWatchdogExpireFx_keeps {s₀ : State} (a1 : ℕ) (a2 : ℕ) (s : State) (h : Keeps s₀ s) :
    Keeps s₀ (cpWatchdogExpireFx a1 a2 s) := by
  unfold cpWatchdogExpireFx
  repeat' first
    | with_reducible intro _
    | with_reducible assumption
    | exact ErrKeeps.mk fun _ h => h
    | with_reducible apply atTick_keeps
    | with_reducible apply bump_keeps
    | with_reducible apply modErr_keeps
    | with_reducible apply record_keeps
    | with_reducible apply restartStart_keeps
    | with_reducible apply Keeps.ite

theorem execCpRestartComplete_keeps {s₀ : State} (a1 : ℕ) (s : State) (h : Keeps s₀ s) :
    KeepsX s₀ (execCpRestartComplete a1 s) := by
  unfold execCpRestartComplete
  repeat' first
    | with_reducible intro _
    | with_reducible assumption
    | with_reducible apply cpRestartCompleteFx_keeps
    | with_reducible apply Keeps.ite
    | with_reducible apply KeepsX.mk

theorem execCpWatchdogExpire_keeps {s₀ : State} (a1 : ℕ) (a2 : ℕ) (s : State) (h : Keeps s₀ s) :
    KeepsX s₀ (execCpWatchdogExpire a1 a2 s) := by
  unfold execCpWatchdogExpire
  repeat' first
    | with_reducible intro _
    | with_reducible assumption
    | with_reducible apply cpWatchdogExpireFx_keeps
    | with_reducible apply Keeps.ite
    | with_reducible apply KeepsX.mk

theorem fifoUnitFails_keeps {s₀ : State} (a1 : FifoPlace) (a2 : ℕ) (a3 : ℕ) (s : State) (h : Keeps s₀ s) :
    Keeps s₀ (fifoUnitFails a1 a2 a3 s) := by
  unfold fifoUnitFails
  repeat' first
    | with_reducible intro _
    | with_reducible assumption
    | with_reducible apply clusterUeFx_keeps
    | with_reducible apply compressorUeFx_keeps
    | with_reducible apply fatalShutdown_keeps
    | with_reducible apply lighterUeFx_keeps
    | with_reducible apply Keeps.ite
    | with_reducible apply Keeps.fold
    | with_reducible apply Keeps.same_id
    | with_reducible apply hk
    | split

theorem fifoOverrunFx_keeps {s₀ : State} (a1 : FifoPlace) (a2 : ℕ) (a3 : ℕ) (s : State) (h : Keeps s₀ s) :
    Keeps s₀ (fifoOverrunFx a1 a2 a3 s) := by
  unfold fifoOverrunFx
  repeat' first
    | with_reducible intro _
    | with_reducible assumption
    | exact ErrKeeps.mk fun _ h => h
    | with_reducible apply atTick_keeps
    | with_reducible apply bump_keeps
    | with_reducible apply fifoUnitFails_keeps
    | with_reducible apply modErr_keeps
    | with_reducible apply record_keeps
    | with_reducible apply Keeps.ite
    | with_reducible apply Keeps.fold
    | with_reducible apply Keeps.same_id
    | with_reducible apply hk
    | split

theorem execFifoOverrun_keeps {s₀ : State} (a1 : FifoPlace) (a2 : ℕ) (a3 : ℕ) (s : State) (h : Keeps s₀ s) :
    KeepsX s₀ (execFifoOverrun a1 a2 a3 s) := by
  unfold execFifoOverrun
  repeat' first
    | with_reducible intro _
    | with_reducible assumption
    | with_reducible apply fifoOverrunFx_keeps
    | with_reducible apply Keeps.ite
    | with_reducible apply KeepsX.mk

theorem fifoDamage_keeps {s₀ : State} (a1 : FifoPlace) (s : State) (h : Keeps s₀ s) :
    Keeps s₀ (fifoDamage a1 s) := by
  unfold fifoDamage
  repeat' first
    | with_reducible intro _
    | with_reducible assumption
    | with_reducible apply takeFree_keeps
    | with_reducible apply Keeps.ite
    | with_reducible apply Keeps.fold
    | with_reducible apply Keeps.same_id
    | with_reducible apply KeepsR.ite
    | with_reducible apply KeepsR.fold
    | with_reducible refine KeepsR.get (by assumption) ?_
    | (extract_lets +onlyGivenNames x; clear_value (hx : x = _); refine Keeps.via (s := s₀) hx ?_ (fun _ => ?_); clear hx)
    | (extract_lets +onlyGivenNames x; clear_value (hx : x = _); refine KeepsR.via (s := s₀) hx ?_ (fun _ => ?_); clear hx)
    | (extract_lets +onlyGivenNames x; clear_value x)
    | with_reducible apply hk
    | split
    | with_reducible apply KeepsR.mk
    | with_reducible apply Keeps.upd

theorem fifoParityErrorFx_keeps {s₀ : State} (a1 : FifoPlace) (a2 : ℕ) (a3 : ℕ) (s : State) (h : Keeps s₀ s) :
    Keeps s₀ (fifoParityErrorFx a1 a2 a3 s) := by
  unfold fifoParityErrorFx
  repeat' first
    | with_reducible intro _
    | with_reducible assumption
    | with_reducible apply atTick_keeps
    | with_reducible apply bump_keeps
    | with_reducible apply fifoDamage_keeps
    | with_reducible apply record_keeps
    | with_reducible apply Keeps.ite

theorem execFifoParityError_keeps {s₀ : State} (a1 : FifoPlace) (a2 : ℕ) (a3 : ℕ) (s : State) (h : Keeps s₀ s) :
    KeepsX s₀ (execFifoParityError a1 a2 a3 s) := by
  unfold execFifoParityError
  repeat' first
    | with_reducible intro _
    | with_reducible assumption
    | with_reducible apply fifoParityErrorFx_keeps
    | with_reducible apply Keeps.ite
    | with_reducible apply KeepsX.mk

theorem mgtWatchdogExpireFx_keeps {s₀ : State} (a1 : ℕ) (s : State) (h : Keeps s₀ s) :
    Keeps s₀ (mgtWatchdogExpireFx a1 s) := by
  unfold mgtWatchdogExpireFx
  repeat' first
    | with_reducible intro _
    | with_reducible assumption
    | exact ErrKeeps.mk fun _ h => h
    | with_reducible apply atTick_keeps
    | with_reducible apply modErr_keeps
    | with_reducible apply Keeps.ite

theorem execMgtWatchdogExpire_keeps {s₀ : State} (a1 : ℕ) (s : State) (h : Keeps s₀ s) :
    KeepsX s₀ (execMgtWatchdogExpire a1 s) := by
  unfold execMgtWatchdogExpire
  repeat' first
    | with_reducible intro _
    | with_reducible assumption
    | with_reducible apply mgtWatchdogExpireFx_keeps
    | with_reducible apply Keeps.ite
    | with_reducible apply KeepsX.mk

theorem helloAnswered_keeps {s₀ : State} (a1 : ℕ) (a2 : ℕ) (a3 : ℕ) (s : State) (h : Keeps s₀ s) :
    Keeps s₀ (helloAnswered a1 a2 a3 s) := by
  unfold helloAnswered
  repeat' first
    | with_reducible intro _
    | with_reducible assumption
    | with_reducible apply afterHello_keeps
    | with_reducible apply modQp_keeps

theorem replyAct_keeps {s₀ : State} (a1 : Rep) (a2 : ℕ) (s : State) (h : Keeps s₀ s) :
    Keeps s₀ (replyAct a1 a2 s) := by
  unfold replyAct
  repeat' first
    | with_reducible intro _
    | with_reducible assumption
    | exact FabKeeps.mk fun _ h => h
    | with_reducible apply dropAnswered_keeps
    | with_reducible apply helloAnswered_keeps
    | with_reducible apply modFab_keeps
    | with_reducible apply Keeps.ite
    | with_reducible apply Keeps.fold
    | with_reducible apply Keeps.same_id
    | with_reducible apply hk
    | split

theorem replyReceivedFx_keeps {s₀ : State} (a1 : Rep) (s : State) (h : Keeps s₀ s) :
    Keeps s₀ (replyReceivedFx a1 s) := by
  unfold replyReceivedFx
  repeat' first
    | with_reducible intro _
    | with_reducible assumption
    | with_reducible apply onReply_keeps
    | with_reducible apply replyAct_keeps

theorem execReplyReceived_keeps {s₀ : State} (a1 : Rep) (s : State) (h : Keeps s₀ s) :
    KeepsX s₀ (execReplyReceived a1 s) := by
  unfold execReplyReceived
  repeat' first
    | with_reducible intro _
    | with_reducible assumption
    | with_reducible apply replyReceivedFx_keeps
    | with_reducible apply Keeps.ite
    | with_reducible apply KeepsX.mk

theorem responsePacketReceivedFx_keeps {s₀ : State} (a1 : ℕ) (a2 : ℕ) (a3 : RespName) (a4 : ℕ) (a5 : ℕ) (a6 : Bool) (a7 : Bytes) (s : State) (h : Keeps s₀ s) :
    Keeps s₀ (responsePacketReceivedFx a1 a2 a3 a4 a5 a6 a7 s) := by
  unfold responsePacketReceivedFx
  repeat' first
    | with_reducible intro _
    | with_reducible assumption
    | exact FabKeeps.mk fun _ h => h
    | with_reducible apply atTick_keeps
    | with_reducible apply bump_keeps
    | with_reducible apply modFab_keeps
    | with_reducible apply Keeps.ite

theorem execResponsePacketReceived_keeps {s₀ : State} (a1 : ℕ) (a2 : ℕ) (a3 : RespName) (a4 : ℕ) (a5 : ℕ) (a6 : Bool) (a7 : Bytes) (s : State) (h : Keeps s₀ s) :
    KeepsX s₀ (execResponsePacketReceived a1 a2 a3 a4 a5 a6 a7 s) := by
  unfold execResponsePacketReceived
  repeat' first
    | with_reducible intro _
    | with_reducible assumption
    | with_reducible apply responsePacketReceivedFx_keeps
    | with_reducible apply Keeps.ite
    | with_reducible apply KeepsX.mk

theorem areaStep_keeps {s₀ : State} (s : State) (h : Keeps s₀ s) :
    Keeps s₀ (areaStep s) := by
  unfold areaStep
  repeat' first
    | with_reducible intro _
    | with_reducible assumption
    | with_reducible apply modTier_keeps
    | with_reducible apply record_keeps
    | with_reducible apply Keeps.ite

theorem clusterSorted_keeps {s₀ : State} (a1 : ℕ) (s : State) (h : Keeps s₀ s) :
    Keeps s₀ (clusterSorted a1 s) := by
  unfold clusterSorted
  repeat' first
    | with_reducible intro _
    | with_reducible assumption
    | with_reducible apply modCore_keeps
    | with_reducible apply modSlot_keeps
    | with_reducible apply record_keeps
    | with_reducible apply Keeps.ite
    | with_reducible apply Keeps.fold

theorem configStep_keeps {s₀ : State} (s : State) (h : Keeps s₀ s) :
    Keeps s₀ (configStep s) := by
  unfold configStep
  repeat' first
    | with_reducible intro _
    | with_reducible assumption
    | exact DevKeeps.mk fun _ h => h
    | with_reducible apply modDev_keeps
    | with_reducible apply record_keeps
    | with_reducible apply regPut_keeps
    | with_reducible apply Keeps.ite

theorem deviceReset_keeps {s₀ : State} (s : State) (h : Keeps s₀ s) : Keeps s₀ (deviceReset s) :=
  ⟨fun _ => reset_wf.1, fun _ => reset_wf.2, fun _ => ⟨show 4 ≤ (16 : ℕ) by decide, show (16 : ℕ) ≤ 16 by decide⟩,
    fun _ => show (0 : ℕ) ≤ 3 by decide, fun _ => show (0 : ℕ) < 1024 by decide, fun _ => show (0 : ℕ) < 2 ^ 32 by decide, h.queue⟩

theorem devResetWrite_keeps {s₀ : State} (a1 : ℕ) (s : State) (h : Keeps s₀ s) :
    Keeps s₀ (devResetWrite a1 s) := by
  unfold devResetWrite
  repeat' first
    | with_reducible intro _
    | with_reducible assumption
    | with_reducible apply deviceReset_keeps
    | with_reducible apply reservedWritten_keeps
    | with_reducible apply restartStart_keeps
    | with_reducible apply Keeps.ite

theorem devResetCpRestartFx_keeps {s₀ : State} (a1 : ℕ) (s : State) (h : Keeps s₀ s) :
    Keeps s₀ (devResetCpRestartFx a1 s) := by
  unfold devResetCpRestartFx
  repeat' first
    | with_reducible intro _
    | with_reducible assumption
    | with_reducible apply devResetWrite_keeps

theorem devResetDeviceFx_keeps {s₀ : State} (a1 : ℕ) (s : State) (h : Keeps s₀ s) :
    Keeps s₀ (devResetDeviceFx a1 s) := by
  unfold devResetDeviceFx
  repeat' first
    | with_reducible intro _
    | with_reducible assumption
    | with_reducible apply devResetWrite_keeps

theorem execDevResetCpRestart_keeps {s₀ : State} (a1 : ℕ) (s : State) (h : Keeps s₀ s) :
    KeepsX s₀ (execDevResetCpRestart a1 s) := by
  unfold execDevResetCpRestart
  repeat' first
    | with_reducible intro _
    | with_reducible assumption
    | with_reducible apply devResetCpRestartFx_keeps
    | with_reducible apply Keeps.ite
    | with_reducible apply KeepsX.mk

theorem execDevResetDevice_keeps {s₀ : State} (a1 : ℕ) (s : State) (h : Keeps s₀ s) :
    KeepsX s₀ (execDevResetDevice a1 s) := by
  unfold execDevResetDevice
  repeat' first
    | with_reducible intro _
    | with_reducible assumption
    | with_reducible apply devResetDeviceFx_keeps
    | with_reducible apply Keeps.ite
    | with_reducible apply KeepsX.mk

theorem katFailed_keeps {s₀ : State} (s : State) (a2 : ℕ × ℕ) (h : Keeps s₀ s) :
    Keeps s₀ (katFailed s a2) := by
  unfold katFailed
  repeat' first
    | with_reducible intro _
    | with_reducible assumption
    | with_reducible apply defectAppend_keeps
    | with_reducible apply modSlot_keeps
    | with_reducible apply record_keeps
    | with_reducible apply Keeps.ite

theorem listedFenced_keeps {s₀ : State} (a1 : List (ℕ × ℕ)) (s : State) (h : Keeps s₀ s) :
    Keeps s₀ (listedFenced a1 s) := by
  unfold listedFenced
  repeat' first
    | with_reducible intro _
    | with_reducible assumption
    | with_reducible apply modSlot_keeps
    | with_reducible apply Keeps.ite
    | with_reducible apply Keeps.fold

theorem numbered_keeps {s₀ : State} (s : State) (h : Keeps s₀ s) :
    Keeps s₀ (numbered s) := by
  unfold numbered
  repeat' first
    | with_reducible intro _
    | with_reducible assumption
    | with_reducible apply modCluster_keeps
    | with_reducible apply modSlot_keeps
    | with_reducible apply Keeps.ite
    | with_reducible apply Keeps.fold

theorem stackFails_keeps {s₀ : State} (a1 : ℕ) (a2 : ℕ) (s : State) (h : Keeps s₀ s) :
    Keeps s₀ (stackFails a1 a2 s) := by
  unfold stackFails
  repeat' first
    | with_reducible intro _
    | with_reducible assumption
    | with_reducible apply modCore_keeps
    | with_reducible apply record_keeps
    | with_reducible apply Keeps.ite

theorem stackSlots_keeps {s₀ : State} (a1 : ℕ) (s : State) (h : Keeps s₀ s) :
    Keeps s₀ (stackSlots a1 s) := by
  unfold stackSlots
  repeat' first
    | with_reducible intro _
    | with_reducible assumption
    | with_reducible apply modSlot_keeps
    | with_reducible apply Keeps.ite
    | with_reducible apply Keeps.fold

theorem stackSecond_keeps {s₀ : State} (s : State) (a2 : ℕ) (h : Keeps s₀ s) :
    Keeps s₀ (stackSecond s a2) := by
  unfold stackSecond
  repeat' first
    | with_reducible intro _
    | with_reducible assumption
    | with_reducible apply modTier_keeps
    | with_reducible apply stackFails_keeps
    | with_reducible apply stackSlots_keeps
    | with_reducible apply Keeps.ite

theorem katPowerUp_keeps {s₀ : State} (a1 : List (ℕ × ℕ)) (s : State) (h : Keeps s₀ s) :
    Keeps s₀ (katPowerUp a1 s) := by
  unfold katPowerUp
  repeat' first
    | with_reducible intro _
    | with_reducible assumption
    | exact DevKeeps.mk fun _ h => h
    | with_reducible apply clusterSorted_keeps
    | with_reducible apply katFailed_keeps
    | with_reducible apply listedFenced_keeps
    | with_reducible apply modDev_keeps
    | with_reducible apply numbered_keeps
    | with_reducible apply shapeCheck_keeps
    | with_reducible apply stackSecond_keeps
    | with_reducible apply stackSlots_keeps
    | with_reducible apply Keeps.ite
    | with_reducible apply Keeps.fold

theorem katCompleteFx_keeps {s₀ : State} (a1 : List (ℕ × ℕ)) (s : State) (h : Keeps s₀ s) :
    Keeps s₀ (katCompleteFx a1 s) := by
  unfold katCompleteFx
  repeat' first
    | with_reducible intro _
    | with_reducible assumption
    | with_reducible apply katPowerUp_keeps
    | with_reducible apply modCore_keeps
    | with_reducible apply ok_keeps
    | with_reducible apply Keeps.ite
    | with_reducible apply Keeps.fold

theorem execKatComplete_keeps {s₀ : State} (a1 : List (ℕ × ℕ)) (s : State) (h : Keeps s₀ s) :
    KeepsX s₀ (execKatComplete a1 s) := by
  unfold execKatComplete
  repeat' first
    | with_reducible intro _
    | with_reducible assumption
    | with_reducible apply katCompleteFx_keeps
    | with_reducible apply Keeps.ite
    | with_reducible apply KeepsX.mk

theorem hbmTrained_keeps {s₀ : State} (a1 : List ℕ) (s : State) (h : Keeps s₀ s) :
    Keeps s₀ (hbmTrained a1 s) := by
  unfold hbmTrained
  repeat' first
    | with_reducible intro _
    | with_reducible assumption
    | with_reducible apply modTier_keeps
    | with_reducible apply stackFails_keeps
    | with_reducible apply Keeps.ite
    | with_reducible apply Keeps.fold

theorem lpxTrained_keeps {s₀ : State} (a1 : List ℕ) (s : State) (h : Keeps s₀ s) :
    Keeps s₀ (lpxTrained a1 s) := by
  unfold lpxTrained
  repeat' first
    | with_reducible intro _
    | with_reducible assumption
    | with_reducible apply modTier_keeps

theorem remapsApplied_keeps {s₀ : State} (s : State) (h : Keeps s₀ s) :
    Keeps s₀ (remapsApplied s) := by
  unfold remapsApplied
  repeat' first
    | with_reducible intro _
    | with_reducible assumption
    | with_reducible apply modTier_keeps
    | with_reducible apply Keeps.ite
    | with_reducible apply Keeps.fold

theorem memoryTrainingDoneFx_keeps {s₀ : State} (a1 : List ℕ) (a2 : List ℕ) (a3 : List ℕ) (s : State) (h : Keeps s₀ s) :
    Keeps s₀ (memoryTrainingDoneFx a1 a2 a3 s) := by
  unfold memoryTrainingDoneFx
  repeat' first
    | with_reducible intro _
    | with_reducible assumption
    | exact DevKeeps.mk fun _ h => h
    | with_reducible apply avsSet_keeps
    | with_reducible apply hbmTrained_keeps
    | with_reducible apply lpxTrained_keeps
    | with_reducible apply modDev_keeps
    | with_reducible apply remapsApplied_keeps
    | with_reducible apply Keeps.ite
    | with_reducible apply Keeps.fold
    | with_reducible apply Keeps.same_id
    | with_reducible apply hk
    | split

theorem execMemoryTrainingDone_keeps {s₀ : State} (a1 : List ℕ) (a2 : List ℕ) (a3 : List ℕ) (s : State) (h : Keeps s₀ s) :
    KeepsX s₀ (execMemoryTrainingDone a1 a2 a3 s) := by
  unfold execMemoryTrainingDone
  repeat' first
    | with_reducible intro _
    | with_reducible assumption
    | with_reducible apply memoryTrainingDoneFx_keeps
    | with_reducible apply Keeps.ite
    | with_reducible apply KeepsX.mk

theorem microcodeBroadcastDoneFx_keeps {s₀ : State} (a1 : List ℕ) (s : State) (h : Keeps s₀ s) :
    Keeps s₀ (microcodeBroadcastDoneFx a1 s) := by
  unfold microcodeBroadcastDoneFx
  repeat' first
    | with_reducible intro _
    | with_reducible assumption
    | exact DevKeeps.mk fun _ h => h
    | with_reducible apply fenceOne_keeps
    | with_reducible apply modDev_keeps
    | with_reducible apply portTo_keeps
    | with_reducible apply Keeps.ite
    | with_reducible apply Keeps.fold

theorem execMicrocodeBroadcastDone_keeps {s₀ : State} (a1 : List ℕ) (s : State) (h : Keeps s₀ s) :
    KeepsX s₀ (execMicrocodeBroadcastDone a1 s) := by
  unfold execMicrocodeBroadcastDone
  repeat' first
    | with_reducible intro _
    | with_reducible assumption
    | with_reducible apply microcodeBroadcastDoneFx_keeps
    | with_reducible apply Keeps.ite
    | with_reducible apply KeepsX.mk

theorem pkgResetAssertFx_keeps {s₀ : State} (s : State) (h : Keeps s₀ s) :
    Keeps s₀ (pkgResetAssertFx s) := by
  unfold pkgResetAssertFx
  repeat' first
    | with_reducible intro _
    | with_reducible assumption
    | exact DevKeeps.mk fun _ h => h
    | with_reducible apply deviceReset_keeps
    | with_reducible apply modDev_keeps

theorem execPkgResetAssert_keeps {s₀ : State} (s : State) (h : Keeps s₀ s) :
    KeepsX s₀ (execPkgResetAssert s) := by
  unfold execPkgResetAssert
  repeat' first
    | with_reducible intro _
    | with_reducible assumption
    | with_reducible apply pkgResetAssertFx_keeps
    | with_reducible apply Keeps.ite
    | with_reducible apply KeepsX.mk

theorem powerLoss_keeps {s₀ : State} (s : State) (h : Keeps s₀ s) : Keeps s₀ (powerLoss s) :=
  ⟨fun _ => reset_wf.1, fun _ => reset_wf.2, fun _ => ⟨show 4 ≤ (16 : ℕ) by decide, show (16 : ℕ) ≤ 16 by decide⟩,
    fun _ => show (0 : ℕ) ≤ 3 by decide, fun _ => show (0 : ℕ) < 1024 by decide, fun _ => show (0 : ℕ) < 2 ^ 32 by decide, h.queue⟩

theorem pkgResetReleaseFx_keeps {s₀ : State} (a1 : PowerOn) (s : State) (h : Keeps s₀ s) :
    Keeps s₀ (pkgResetReleaseFx a1 s) := by
  unfold pkgResetReleaseFx
  repeat' first
    | with_reducible intro _
    | with_reducible assumption
    | exact DevKeeps.mk fun _ h => h
    | with_reducible apply modDev_keeps
    | with_reducible apply powerLoss_keeps
    | with_reducible apply Keeps.ite

theorem execPkgResetRelease_keeps {s₀ : State} (a1 : PowerOn) (s : State) (h : Keeps s₀ s) :
    KeepsX s₀ (execPkgResetRelease a1 s) := by
  unfold execPkgResetRelease
  repeat' first
    | with_reducible intro _
    | with_reducible assumption
    | with_reducible apply pkgResetReleaseFx_keeps
    | with_reducible apply Keeps.ite
    | with_reducible apply KeepsX.mk

theorem portTrainingStepEndFx_keeps {s₀ : State} (a1 : ℕ) (s : State) (h : Keeps s₀ s) :
    Keeps s₀ (portTrainingStepEndFx a1 s) := by
  unfold portTrainingStepEndFx
  repeat' first
    | with_reducible intro _
    | with_reducible assumption
    | exact FabKeeps.mk fun _ h => h
    | exact DevKeeps.mk fun _ h => h
    | with_reducible apply atTick_keeps
    | with_reducible apply irqEvent_keeps
    | with_reducible apply modDev_keeps
    | with_reducible apply modFab_keeps
    | with_reducible apply record_keeps
    | with_reducible apply serviceBegins_keeps
    | with_reducible apply Keeps.ite

theorem execPortTrainingStepEnd_keeps {s₀ : State} (a1 : ℕ) (s : State) (h : Keeps s₀ s) :
    KeepsX s₀ (execPortTrainingStepEnd a1 s) := by
  unfold execPortTrainingStepEnd
  repeat' first
    | with_reducible intro _
    | with_reducible assumption
    | with_reducible apply portTrainingStepEndFx_keeps
    | with_reducible apply Keeps.ite
    | with_reducible apply KeepsX.mk

theorem rootLockTimeoutFx_keeps {s₀ : State} (s : State) (h : Keeps s₀ s) :
    Keeps s₀ (rootLockTimeoutFx s) := by
  unfold rootLockTimeoutFx
  repeat' first
    | with_reducible intro _
    | with_reducible assumption
    | exact DevKeeps.mk fun _ h => h
    | with_reducible apply modDev_keeps
    | with_reducible apply Keeps.ite

theorem execRootLockTimeout_keeps {s₀ : State} (s : State) (h : Keeps s₀ s) :
    KeepsX s₀ (execRootLockTimeout s) := by
  unfold execRootLockTimeout
  repeat' first
    | with_reducible intro _
    | with_reducible assumption
    | with_reducible apply rootLockTimeoutFx_keeps
    | with_reducible apply Keeps.ite
    | with_reducible apply KeepsX.mk

theorem featureStep_keeps {s₀ : State} (s : State) (h : Keeps s₀ s) :
    Keeps s₀ (featureStep s) := by
  unfold featureStep
  repeat' first
    | with_reducible intro _
    | with_reducible assumption
    | exact DevKeeps.mk fun _ h => h
    | with_reducible apply modDev_keeps

theorem fwBootOne_keeps {s₀ : State} (a1 : ℕ) (s : State) (h : Keeps s₀ s) :
    Keeps s₀ (fwBootOne a1 s) := by
  unfold fwBootOne
  repeat' first
    | with_reducible intro _
    | with_reducible assumption
    | exact DevKeeps.mk fun _ h => h
    | with_reducible apply modDev_keeps
    | with_reducible apply modFlash_keeps

theorem firmwareStep_keeps {s₀ : State} (s : State) (h : Keeps s₀ s) :
    Keeps s₀ (firmwareStep s) := by
  unfold firmwareStep
  repeat' first
    | with_reducible intro _
    | with_reducible assumption
    | exact DevKeeps.mk fun _ h => h
    | with_reducible apply fwBootOne_keeps
    | with_reducible apply modDev_keeps
    | with_reducible apply restrictEnter_keeps
    | with_reducible apply Keeps.ite
    | with_reducible apply Keeps.fold

theorem gradeStep_keeps {s₀ : State} (s : State) (h : Keeps s₀ s) :
    Keeps s₀ (gradeStep s) := by
  unfold gradeStep
  repeat' first
    | with_reducible intro _
    | with_reducible assumption
    | exact DevKeeps.mk fun _ h => h
    | with_reducible apply modCore_keeps
    | with_reducible apply modDev_keeps
    | with_reducible apply restrictEnter_keeps
    | with_reducible apply Keeps.ite

theorem identityStep_keeps {s₀ : State} (a1 : Bool) (s : State) (h : Keeps s₀ s) :
    Keeps s₀ (identityStep a1 s) := by
  unfold identityStep
  repeat' first
    | with_reducible intro _
    | with_reducible assumption
    | exact DevKeeps.mk fun _ h => h
    | with_reducible apply modDev_keeps
    | with_reducible apply modFlash_keeps
    | with_reducible apply modMan_keeps

theorem licenceStep_keeps {s₀ : State} (s : State) (h : Keeps s₀ s) : Keeps s₀ (licenceStep s) := by
  unfold licenceStep
  extract_lets l bodies g top want runs s1 s2
  have h1 : Keeps s₀ s1 := by
    refine modDev_keeps _ _ h (DevKeeps.mk fun d _ => ?_)
    show (if runs = true then want else 0) ≤ 3
    split
    · rename_i k
      have : decide (want ≤ 3) = true := by
        have k2 := (Bool.and_eq_true _ _ ▸ k : _ ∧ _).1
        exact (Bool.and_eq_true _ _ ▸ k2 : _ ∧ _).2
      exact of_decide_eq_true this
    · omega
  have h2 : Keeps s₀ s2 := Keeps.ite h1 (restrictEnter_keeps _ _ h1)
  exact Keeps.ite (restrictEnter_keeps _ _ h2) h2

theorem rootSynthLockFx_keeps {s₀ : State} (a1 : ℕ) (a2 : Bool) (s : State) (h : Keeps s₀ s) :
    Keeps s₀ (rootSynthLockFx a1 a2 s) := by
  unfold rootSynthLockFx
  repeat' first
    | with_reducible intro _
    | with_reducible assumption
    | exact DevKeeps.mk fun _ h => h
    | with_reducible apply areaStep_keeps
    | with_reducible apply atTick_keeps
    | with_reducible apply configStep_keeps
    | with_reducible apply featureStep_keeps
    | with_reducible apply firmwareStep_keeps
    | with_reducible apply gradeStep_keeps
    | with_reducible apply identityStep_keeps
    | with_reducible apply licenceStep_keeps
    | with_reducible apply modDev_keeps
    | with_reducible apply Keeps.ite

theorem execRootSynthLock_keeps {s₀ : State} (a1 : ℕ) (a2 : Bool) (s : State) (h : Keeps s₀ s) :
    KeepsX s₀ (execRootSynthLock a1 a2 s) := by
  unfold execRootSynthLock
  repeat' first
    | with_reducible intro _
    | with_reducible assumption
    | with_reducible apply rootSynthLockFx_keeps
    | with_reducible apply Keeps.ite
    | with_reducible apply KeepsX.mk

theorem restartAct_keeps {s₀ : State} (a1 : Pkt) (s : State) (h : Keeps s₀ s) :
    Keeps s₀ (restartAct a1 s) := by
  unfold restartAct
  repeat' first
    | with_reducible intro _
    | with_reducible assumption
    | with_reducible apply deviceReset_keeps
    | with_reducible apply ok_keeps
    | with_reducible apply restartStart_keeps
    | with_reducible apply Keeps.ite

theorem sysRestart_keeps {s₀ : State} (a1 : Pkt) (s : State) (h : Keeps s₀ s) :
    Keeps s₀ (sysRestart a1 s) := by
  unfold sysRestart
  repeat' first
    | with_reducible intro _
    | with_reducible assumption
    | with_reducible apply orFormat_keeps
    | with_reducible apply receive_keeps
    | with_reducible apply restartAct_keeps

theorem sysRestartDeviceResetFx_keeps {s₀ : State} (a1 : Pkt) (s : State) (h : Keeps s₀ s) :
    Keeps s₀ (sysRestartDeviceResetFx a1 s) := by
  unfold sysRestartDeviceResetFx
  repeat' first
    | with_reducible intro _
    | with_reducible assumption
    | with_reducible apply sysRestart_keeps

theorem execSysRestartDeviceReset_keeps {s₀ : State} (a1 : Pkt) (s : State) (h : Keeps s₀ s) :
    KeepsX s₀ (execSysRestartDeviceReset a1 s) := by
  unfold execSysRestartDeviceReset
  repeat' first
    | with_reducible intro _
    | with_reducible assumption
    | with_reducible apply sysRestartDeviceResetFx_keeps
    | with_reducible apply Keeps.ite
    | with_reducible apply KeepsX.mk

theorem sysRestartWarmFx_keeps {s₀ : State} (a1 : Pkt) (s : State) (h : Keeps s₀ s) :
    Keeps s₀ (sysRestartWarmFx a1 s) := by
  unfold sysRestartWarmFx
  repeat' first
    | with_reducible intro _
    | with_reducible assumption
    | with_reducible apply sysRestart_keeps

theorem execSysRestartWarm_keeps {s₀ : State} (a1 : Pkt) (s : State) (h : Keeps s₀ s) :
    KeepsX s₀ (execSysRestartWarm a1 s) := by
  unfold execSysRestartWarm
  repeat' first
    | with_reducible intro _
    | with_reducible assumption
    | with_reducible apply sysRestartWarmFx_keeps
    | with_reducible apply Keeps.ite
    | with_reducible apply KeepsX.mk

theorem irqEnableWrite_keeps {s₀ : State} (a1 : ℕ) (s : State) (h : Keeps s₀ s) :
    Keeps s₀ (irqEnableWrite a1 s) := by
  unfold irqEnableWrite
  repeat' first
    | with_reducible intro _
    | with_reducible assumption
    | with_reducible apply msixRaise_keeps
    | with_reducible apply regSet_keeps
    | with_reducible apply Keeps.ite
    | with_reducible apply Keeps.fold

theorem irqStatusWrite_keeps {s₀ : State} (a1 : ℕ) (a2 : ℕ) (s : State) (h : Keeps s₀ s) :
    Keeps s₀ (irqStatusWrite a1 a2 s) := by
  unfold irqStatusWrite
  repeat' first
    | with_reducible intro _
    | with_reducible assumption
    | with_reducible apply irqEvent_keeps
    | with_reducible apply regSet_keeps
    | with_reducible apply Keeps.ite
    | with_reducible apply Keeps.fold

theorem logSelWrite_keeps {s₀ : State} (a1 : ℕ) (s : State) (h : Keeps s₀ s) :
    Keeps s₀ (logSelWrite a1 s) := by
  unfold logSelWrite
  repeat' first
    | with_reducible intro _
    | with_reducible assumption
    | with_reducible apply putWords_keeps
    | with_reducible apply regSet_keeps

theorem actWrite_keeps {s₀ : State} (a1 : ℕ) (a2 : ℕ) (s : State) (h : Keeps s₀ s) :
    KeepsO s₀ (actWrite a1 a2 s) := by
  unfold actWrite
  repeat' first
    | with_reducible intro _
    | with_reducible assumption
    | with_reducible apply devResetWrite_keeps
    | with_reducible apply irqEnableWrite_keeps
    | with_reducible apply irqStatusWrite_keeps
    | with_reducible apply logSelWrite_keeps
    | with_reducible apply manBerthSelWriteFx_keeps
    | with_reducible apply qpcSelWriteFx_keeps
    | with_reducible apply retrainFx_keeps
    | with_reducible apply schHistClearFx_keeps
    | with_reducible apply schShapeSelWriteFx_keeps
    | with_reducible apply winFieldWrite_keeps
    | with_reducible apply wthSlotSelWriteFx_keeps
    | with_reducible apply Keeps.ite
    | with_reducible apply Keeps.fold
    | with_reducible apply Keeps.same_id
    | with_reducible exact KeepsO.no
    | with_reducible apply KeepsO.mapS
    | with_reducible apply KeepsO.mapR
    | with_reducible apply KeepsO.map
    | with_reducible apply KeepsO.bindS
    | with_reducible apply KeepsO.bind
    | with_reducible apply KeepsO.getD
    | with_reducible apply KeepsO.ite
    | with_reducible apply KeepsO.mk

theorem bar0BadAccessFx_keeps {s₀ : State} (a1 : Bool) (a2 : ℕ) (a3 : ℕ) (s : State) (h : Keeps s₀ s) :
    Keeps s₀ (bar0BadAccessFx a1 a2 a3 s) := by
  unfold bar0BadAccessFx
  repeat' first
    | with_reducible intro _
    | with_reducible assumption
    | with_reducible apply bump_keeps
    | with_reducible apply emit_keeps
    | with_reducible apply Keeps.ite

theorem bar4Bytes_keeps {s₀ : State} (a1 : ℕ) (a2 : ℕ) (s : State) (h : Keeps s₀ s) :
    KeepsR s₀ (bar4Bytes a1 a2 s) := by
  induction a2 generalizing a1 s with
  | zero =>
    unfold bar4Bytes
    repeat' first
      | with_reducible intro _
      | with_reducible assumption
      | with_reducible apply takeFree_keeps
      | with_reducible apply Keeps.ite
      | with_reducible apply Keeps.fold
      | with_reducible apply Keeps.same_id
      | with_reducible apply KeepsR.ite
      | with_reducible apply KeepsR.fold
      | with_reducible refine KeepsR.get (by assumption) ?_
      | with_reducible apply hk
      | split
      | with_reducible apply KeepsR.mk
  | succ k ih =>
    unfold bar4Bytes
    repeat' first
      | with_reducible intro _
      | with_reducible assumption
      | with_reducible apply ih
      | with_reducible apply takeFree_keeps
      | with_reducible apply Keeps.ite
      | with_reducible apply Keeps.fold
      | with_reducible apply Keeps.same_id
      | with_reducible apply KeepsR.ite
      | with_reducible apply KeepsR.fold
      | with_reducible refine KeepsR.get (by assumption) ?_
      | (extract_lets +onlyGivenNames x; clear_value (hx : x = _); refine KeepsR.via (s := s₀) hx ?_ (fun _ => ?_); clear hx)
      | with_reducible apply hk
      | split
      | with_reducible apply KeepsR.mk

theorem bar4Put_keeps {s₀ : State} (a1 : ℕ) (a2 : Byte) (s : State) (h : Keeps s₀ s) :
    Keeps s₀ (bar4Put a1 a2 s) := by
  unfold bar4Put
  repeat' first
    | with_reducible intro _
    | with_reducible assumption
    | with_reducible apply memStore_keeps
    | with_reducible apply modTbl_keeps
    | with_reducible apply modWithy_keeps
    | with_reducible apply Keeps.ite
    | with_reducible apply Keeps.fold
    | with_reducible apply Keeps.same_id
    | (extract_lets +onlyGivenNames x; clear_value (hx : x = _); refine Keeps.via (s := s₀) hx ?_ (fun _ => ?_); clear hx)
    | with_reducible apply hk
    | split
    | with_reducible apply Keeps.upd

theorem bar4Puts_keeps {s₀ : State} (a1 : ℕ) (a2 : List (Option Byte)) (s : State) (h : Keeps s₀ s) :
    Keeps s₀ (bar4Puts a1 a2 s) := by
  induction a2 generalizing a1 s with
  | nil =>
    unfold bar4Puts
    repeat' first
      | with_reducible intro _
      | with_reducible assumption
  | cons e l ih =>
    unfold bar4Puts
    repeat' first
      | with_reducible intro _
      | with_reducible assumption
      | with_reducible apply ih
      | with_reducible apply bar4Put_keeps
      | with_reducible apply Keeps.ite
      | with_reducible apply Keeps.fold
      | with_reducible apply Keeps.same_id
      | with_reducible apply hk
      | split
      | (fail_if_no_progress beta_reduce)
      | (obtain ⟨_, rfl⟩ := List.cons.inj ‹e :: l = _›)

theorem bar4Ue_keeps {s₀ : State} (a1 : ℕ) (s : State) (h : Keeps s₀ s) :
    Keeps s₀ (bar4Ue a1 s) := by
  unfold bar4Ue
  repeat' first
    | with_reducible intro _
    | with_reducible assumption
    | with_reducible apply bump_keeps
    | with_reducible apply damageAt_keeps
    | with_reducible apply record_keeps
    | with_reducible apply repairNow_keeps
    | with_reducible apply sramUeFx_keeps
    | with_reducible apply tableDamage_keeps
    | with_reducible apply Keeps.ite
    | with_reducible apply Keeps.fold
    | with_reducible apply Keeps.same_id
    | (extract_lets +onlyGivenNames x; clear_value (hx : x = _); refine Keeps.via (s := s₀) hx ?_ (fun _ => ?_); clear hx)
    | with_reducible apply hk
    | split
    | with_reducible apply Keeps.upd

theorem bar4ReadFx_keeps {s₀ : State} (a1 : ℕ) (a2 : ℕ) (a3 : Bool) (s : State) (h : Keeps s₀ s) :
    Keeps s₀ (bar4ReadFx a1 a2 a3 s) := by
  unfold bar4ReadFx
  repeat' first
    | with_reducible intro _
    | with_reducible assumption
    | with_reducible apply bar4Bytes_keeps
    | with_reducible apply bar4Ue_keeps
    | with_reducible apply emit_keeps
    | with_reducible apply Keeps.ite
    | with_reducible apply Keeps.fold
    | with_reducible apply Keeps.same_id
    | with_reducible apply KeepsR.ite
    | with_reducible apply KeepsR.fold
    | with_reducible refine KeepsR.get (by assumption) ?_
    | (with_reducible apply KeepsR.snd; with_reducible apply bar4Bytes_keeps)

theorem bar4WriteFx_keeps {s₀ : State} (a1 : ℕ) (a2 : List (Option Byte)) (s : State) (h : Keeps s₀ s) :
    Keeps s₀ (bar4WriteFx a1 a2 s) := by
  unfold bar4WriteFx
  repeat' first
    | with_reducible intro _
    | with_reducible assumption
    | with_reducible apply bar4Puts_keeps
    | with_reducible apply bump_keeps
    | with_reducible apply Keeps.ite

theorem cqWordWrite_keeps {s₀ : State} (a1 : ℕ) (a2 : ℕ) (a3 : ℕ) (a4 : ℕ) (s : State) (h : Keeps s₀ s) :
    Keeps s₀ (cqWordWrite a1 a2 a3 a4 s) := by
  unfold cqWordWrite
  repeat' first
    | with_reducible intro _
    | with_reducible assumption
    | with_reducible apply cqCtrlFx_keeps
    | with_reducible apply modCq_keeps
    | with_reducible apply wordWrite_keeps
    | with_reducible apply Keeps.ite

theorem devIrqEnableWriteFx_keeps {s₀ : State} (a1 : ℕ) (s : State) (h : Keeps s₀ s) :
    Keeps s₀ (devIrqEnableWriteFx a1 s) := by
  unfold devIrqEnableWriteFx
  repeat' first
    | with_reducible intro _
    | with_reducible assumption
    | with_reducible apply irqEnableWrite_keeps
    | with_reducible apply Keeps.ite

theorem devIrqStatusWriteFx_keeps {s₀ : State} (a1 : ℕ) (a2 : ℕ) (s : State) (h : Keeps s₀ s) :
    Keeps s₀ (devIrqStatusWriteFx a1 a2 s) := by
  unfold devIrqStatusWriteFx
  repeat' first
    | with_reducible intro _
    | with_reducible assumption
    | with_reducible apply irqStatusWrite_keeps
    | with_reducible apply Keeps.ite

theorem errLogSelWriteFx_keeps {s₀ : State} (a1 : ℕ) (s : State) (h : Keeps s₀ s) :
    Keeps s₀ (errLogSelWriteFx a1 s) := by
  unfold errLogSelWriteFx
  repeat' first
    | with_reducible intro _
    | with_reducible assumption
    | with_reducible apply logSelWrite_keeps
    | with_reducible apply Keeps.ite

theorem errStatusReadFx_keeps {s₀ : State} (s : State) (h : Keeps s₀ s) :
    Keeps s₀ (errStatusReadFx s) := by
  unfold errStatusReadFx
  repeat' first
    | with_reducible intro _
    | with_reducible assumption
    | exact DevKeeps.mk fun _ h => h
    | with_reducible apply emit_keeps
    | with_reducible apply modDev_keeps
    | with_reducible apply Keeps.ite
    | with_reducible apply Keeps.fold
    | with_reducible apply Keeps.same_id
    | (extract_lets +onlyGivenNames x; clear_value (hx : x = _); refine Keeps.via (s := s₀) hx ?_ (fun _ => ?_); clear hx)
    | with_reducible apply hk
    | split

theorem execBar0BadAccess_keeps {s₀ : State} (a1 : Bool) (a2 : ℕ) (a3 : ℕ) (s : State) (h : Keeps s₀ s) :
    KeepsX s₀ (execBar0BadAccess a1 a2 a3 s) := by
  unfold execBar0BadAccess
  repeat' first
    | with_reducible intro _
    | with_reducible assumption
    | with_reducible apply bar0BadAccessFx_keeps
    | with_reducible apply Keeps.ite
    | with_reducible apply KeepsX.mk

theorem execBar4Read_keeps {s₀ : State} (a1 : ℕ) (a2 : ℕ) (a3 : Bool) (s : State) (h : Keeps s₀ s) :
    KeepsX s₀ (execBar4Read a1 a2 a3 s) := by
  unfold execBar4Read
  repeat' first
    | with_reducible intro _
    | with_reducible assumption
    | with_reducible apply bar4ReadFx_keeps
    | with_reducible apply Keeps.ite
    | with_reducible apply KeepsX.mk

theorem execBar4Write_keeps {s₀ : State} (a1 : ℕ) (a2 : List (Option Byte)) (s : State) (h : Keeps s₀ s) :
    KeepsX s₀ (execBar4Write a1 a2 s) := by
  unfold execBar4Write
  repeat' first
    | with_reducible intro _
    | with_reducible assumption
    | with_reducible apply bar4WriteFx_keeps
    | with_reducible apply Keeps.ite
    | with_reducible apply KeepsX.mk

theorem execDevIrqEnableWrite_keeps {s₀ : State} (a1 : ℕ) (s : State) (h : Keeps s₀ s) :
    KeepsX s₀ (execDevIrqEnableWrite a1 s) := by
  unfold execDevIrqEnableWrite
  repeat' first
    | with_reducible intro _
    | with_reducible assumption
    | with_reducible apply devIrqEnableWriteFx_keeps
    | with_reducible apply Keeps.ite
    | with_reducible apply KeepsX.mk

theorem execDevIrqStatusWrite_keeps {s₀ : State} (a1 : ℕ) (a2 : ℕ) (s : State) (h : Keeps s₀ s) :
    KeepsX s₀ (execDevIrqStatusWrite a1 a2 s) := by
  unfold execDevIrqStatusWrite
  repeat' first
    | with_reducible intro _
    | with_reducible assumption
    | with_reducible apply devIrqStatusWriteFx_keeps
    | with_reducible apply Keeps.ite
    | with_reducible apply KeepsX.mk

theorem execErrLogSelWrite_keeps {s₀ : State} (a1 : ℕ) (s : State) (h : Keeps s₀ s) :
    KeepsX s₀ (execErrLogSelWrite a1 s) := by
  unfold execErrLogSelWrite
  repeat' first
    | with_reducible intro _
    | with_reducible assumption
    | with_reducible apply errLogSelWriteFx_keeps
    | with_reducible apply Keeps.ite
    | with_reducible apply KeepsX.mk

theorem execErrStatusRead_keeps {s₀ : State} (s : State) (h : Keeps s₀ s) :
    KeepsX s₀ (execErrStatusRead s) := by
  unfold execErrStatusRead
  repeat' first
    | with_reducible intro _
    | with_reducible assumption
    | with_reducible apply errStatusReadFx_keeps
    | with_reducible apply Keeps.ite
    | with_reducible apply KeepsX.mk

theorem mboxAct_keeps {s₀ : State} (a1 : ℕ) (a2 : Pkt) (s : State) (h : Keeps s₀ s) :
    Keeps s₀ (mboxAct a1 a2 s) := by
  unfold mboxAct
  repeat' first
    | with_reducible intro _
    | with_reducible assumption
    | with_reducible apply bump_keeps
    | with_reducible apply cfgReadFx_keeps
    | with_reducible apply fail_keeps
    | with_reducible apply ok_keeps
    | with_reducible apply orFormat_keeps
    | with_reducible apply receive_keeps
    | with_reducible apply secAttestFx_keeps
    | with_reducible apply sysCapsFx_keeps
    | with_reducible apply sysRestart_keeps
    | with_reducible apply Keeps.ite

theorem mboxRun_keeps {s₀ : State} (a1 : ℕ) (a2 : Pkt) (s : State) (h : Keeps s₀ s) :
    Keeps s₀ (mboxRun a1 a2 s) := by
  unfold mboxRun
  repeat' first
    | with_reducible intro _
    | with_reducible assumption
    | exact ErrKeeps.mk fun _ h => h
    | with_reducible apply mboxAct_keeps
    | with_reducible apply modErr_keeps
    | with_reducible apply Keeps.ite

theorem mgtMboxGoFx_keeps {s₀ : State} (a1 : ℕ) (a2 : Pkt) (s : State) (h : Keeps s₀ s) :
    Keeps s₀ (mgtMboxGoFx a1 a2 s) := by
  unfold mgtMboxGoFx
  repeat' first
    | with_reducible intro _
    | with_reducible assumption
    | with_reducible apply atTick_keeps
    | with_reducible apply mboxRun_keeps
    | with_reducible apply modMgmt_keeps
    | with_reducible apply regPut_keeps
    | with_reducible apply Keeps.ite

theorem execMgtMboxGo_keeps {s₀ : State} (a1 : ℕ) (a2 : Pkt) (s : State) (h : Keeps s₀ s) :
    KeepsX s₀ (execMgtMboxGo a1 a2 s) := by
  unfold execMgtMboxGo
  repeat' first
    | with_reducible intro _
    | with_reducible assumption
    | with_reducible apply mgtMboxGoFx_keeps
    | with_reducible apply Keeps.ite
    | with_reducible apply KeepsX.mk

theorem mgtRestartCompleteFx_keeps {s₀ : State} (a1 : ℕ) (s : State) (h : Keeps s₀ s) :
    Keeps s₀ (mgtRestartCompleteFx a1 s) := by
  unfold mgtRestartCompleteFx
  repeat' first
    | with_reducible intro _
    | with_reducible assumption
    | exact ErrKeeps.mk fun _ h => h
    | with_reducible apply atTick_keeps
    | with_reducible apply mboxRun_keeps
    | with_reducible apply modErr_keeps
    | with_reducible apply modMgmt_keeps
    | with_reducible apply recSend_keeps
    | with_reducible apply record_keeps
    | with_reducible apply Keeps.ite
    | with_reducible apply Keeps.fold
    | with_reducible apply Keeps.same_id
    | (extract_lets +onlyGivenNames x; clear_value (hx : x = _); refine Keeps.via (s := s₀) hx ?_ (fun _ => ?_); clear hx)
    | with_reducible apply hk
    | split

theorem execMgtRestartComplete_keeps {s₀ : State} (a1 : ℕ) (s : State) (h : Keeps s₀ s) :
    KeepsX s₀ (execMgtRestartComplete a1 s) := by
  unfold execMgtRestartComplete
  repeat' first
    | with_reducible intro _
    | with_reducible assumption
    | with_reducible apply mgtRestartCompleteFx_keeps
    | with_reducible apply Keeps.ite
    | with_reducible apply KeepsX.mk

theorem reg64LowHalfReadFx_keeps {s₀ : State} (a1 : ℕ) (s : State) (h : Keeps s₀ s) :
    Keeps s₀ (reg64LowHalfReadFx a1 s) := by
  unfold reg64LowHalfReadFx
  repeat' first
    | with_reducible intro _
    | with_reducible assumption
    | with_reducible apply emit_keeps
    | with_reducible apply modPcie_keeps
    | with_reducible apply Keeps.ite
    | with_reducible apply Keeps.fold
    | with_reducible apply Keeps.same_id
    | (extract_lets +onlyGivenNames x; clear_value x)
    | with_reducible apply hk
    | split

theorem execReg64LowHalfRead_keeps {s₀ : State} (a1 : ℕ) (s : State) (h : Keeps s₀ s) :
    KeepsX s₀ (execReg64LowHalfRead a1 s) := by
  unfold execReg64LowHalfRead
  repeat' first
    | with_reducible intro _
    | with_reducible assumption
    | with_reducible apply reg64LowHalfReadFx_keeps
    | with_reducible apply Keeps.ite
    | with_reducible apply KeepsX.mk

theorem mirrorWrite_keeps {s₀ : State} (a1 : ℕ) (a2 : ℕ) (s : State) (h : Keeps s₀ s) :
    KeepsO s₀ (mirrorWrite a1 a2 s) := by
  unfold mirrorWrite
  repeat' first
    | with_reducible intro _
    | with_reducible assumption
    | exact ErrKeeps.mk fun _ h => h
    | exact PwrKeeps.mk id
    | with_reducible apply demoteCheck_keeps
    | with_reducible apply modErr_keeps
    | with_reducible apply modPwr_keeps
    | with_reducible apply modTier_keeps
    | with_reducible apply regPut_keeps
    | with_reducible apply regSet_keeps
    | with_reducible apply reservedWritten_keeps
    | with_reducible apply Keeps.ite
    | with_reducible apply Keeps.fold
    | with_reducible apply Keeps.same_id
    | with_reducible exact KeepsO.no
    | with_reducible apply KeepsO.mapS
    | with_reducible apply KeepsO.mapR
    | with_reducible apply KeepsO.map
    | with_reducible apply KeepsO.bindS
    | with_reducible apply KeepsO.bind
    | with_reducible apply KeepsO.getD
    | with_reducible apply KeepsO.ite
    | with_reducible apply KeepsO.mk

theorem sqWordWrite_keeps {s₀ : State} (a1 : ℕ) (a2 : ℕ) (a3 : ℕ) (a4 : ℕ) (s : State) (h : Keeps s₀ s) :
    Keeps s₀ (sqWordWrite a1 a2 a3 a4 s) := by
  unfold sqWordWrite
  repeat' first
    | with_reducible intro _
    | with_reducible assumption
    | with_reducible apply modSq_keeps
    | with_reducible apply sqCtrlFx_keeps
    | with_reducible apply wordWrite_keeps
    | with_reducible apply Keeps.ite

theorem writeWord_keeps {s₀ : State} (a1 : ℕ) (a2 : ℕ) (s : State) (h : Keeps s₀ s) :
    Keeps s₀ (writeWord a1 a2 s) := by
  unfold writeWord
  repeat' first
    | with_reducible intro _
    | with_reducible assumption
    | with_reducible apply actWrite_keeps
    | with_reducible apply cqWordWrite_keeps
    | with_reducible apply mirrorWrite_keeps
    | with_reducible apply sqWordWrite_keeps
    | with_reducible apply wordWrite_keeps
    | with_reducible apply Keeps.ite
    | with_reducible apply Keeps.fold
    | with_reducible apply Keeps.same_id
    | with_reducible exact KeepsO.no
    | with_reducible apply KeepsO.mapS
    | with_reducible apply KeepsO.mapR
    | with_reducible apply KeepsO.map
    | with_reducible apply KeepsO.bindS
    | with_reducible apply KeepsO.bind
    | with_reducible apply KeepsO.getD
    | with_reducible apply KeepsO.ite
    | with_reducible apply KeepsO.mk
    | with_reducible refine KeepsO.get (by assumption) ?_
    | with_reducible apply hk
    | split

theorem writeLong_keeps {s₀ : State} (a1 : ℕ) (a2 : ℕ) (s : State) (h : Keeps s₀ s) :
    Keeps s₀ (writeLong a1 a2 s) := by
  unfold writeLong
  repeat' first
    | with_reducible intro _
    | with_reducible assumption
    | with_reducible apply regSet_keeps
    | with_reducible apply winErrSet_keeps
    | with_reducible apply writeWord_keeps
    | with_reducible apply Keeps.ite
    | with_reducible apply Keeps.fold
    | with_reducible apply Keeps.same_id
    | with_reducible apply hk
    | split

theorem regWriteFx_keeps {s₀ : State} (a1 : ℕ) (a2 : ℕ) (a3 : ℕ) (a4 : ℕ) (s : State) (h : Keeps s₀ s) :
    Keeps s₀ (regWriteFx a1 a2 a3 a4 s) := by
  unfold regWriteFx
  repeat' first
    | with_reducible intro _
    | with_reducible assumption
    | with_reducible apply bump_keeps
    | with_reducible apply writeLong_keeps
    | with_reducible apply writeWord_keeps
    | with_reducible apply Keeps.ite
    | with_reducible apply Keeps.fold
    | with_reducible apply Keeps.same_id
    | with_reducible apply hk
    | split

theorem regReservedWriteFx_keeps {s₀ : State} (a1 : ℕ) (a2 : ℕ) (a3 : ℕ) (s : State) (h : Keeps s₀ s) :
    Keeps s₀ (regReservedWriteFx a1 a2 a3 s) := by
  unfold regReservedWriteFx
  repeat' first
    | with_reducible intro _
    | with_reducible assumption
    | with_reducible apply regWriteFx_keeps

theorem execRegReservedWrite_keeps {s₀ : State} (a1 : ℕ) (a2 : ℕ) (a3 : ℕ) (s : State) (h : Keeps s₀ s) :
    KeepsX s₀ (execRegReservedWrite a1 a2 a3 s) := by
  unfold execRegReservedWrite
  repeat' first
    | with_reducible intro _
    | with_reducible assumption
    | with_reducible apply regReservedWriteFx_keeps
    | with_reducible apply Keeps.ite
    | with_reducible apply KeepsX.mk

theorem execRegWrite_keeps {s₀ : State} (a1 : ℕ) (a2 : ℕ) (a3 : ℕ) (a4 : ℕ) (s : State) (h : Keeps s₀ s) :
    KeepsX s₀ (execRegWrite a1 a2 a3 a4 s) := by
  unfold execRegWrite
  repeat' first
    | with_reducible intro _
    | with_reducible assumption
    | with_reducible apply regWriteFx_keeps
    | with_reducible apply Keeps.ite
    | with_reducible apply KeepsX.mk

theorem seqStepMaxReadFx_keeps {s₀ : State} (s : State) (h : Keeps s₀ s) :
    Keeps s₀ (seqStepMaxReadFx s) := by
  unfold seqStepMaxReadFx
  repeat' first
    | with_reducible intro _
    | with_reducible assumption
    | with_reducible apply readClear_keeps
    | with_reducible apply Keeps.ite

theorem execSeqStepMaxRead_keeps {s₀ : State} (s : State) (h : Keeps s₀ s) :
    KeepsX s₀ (execSeqStepMaxRead s) := by
  unfold execSeqStepMaxRead
  repeat' first
    | with_reducible intro _
    | with_reducible assumption
    | with_reducible apply seqStepMaxReadFx_keeps
    | with_reducible apply Keeps.ite
    | with_reducible apply KeepsX.mk

end Sys2Proof.Machine
end

