-- ==== Sys2Proof/WellFormed.lean ====
section
/-! DEFINITION. Well-formed commands: every operand fits the width or the range that the spec gives it. The machine does
not ask for it; statements about the syntax do. -/

namespace Sys2Proof

/-- A CLK_MGT tick (R36). -/
def tickOk (n : Nat) : Bool := decide (n < 2 ^ 64)

/-- A host ring (R334). -/
def ringOk (n : Nat) : Bool := decide (n < 1024)

/-- A function (R487). -/
def fnOk (n : Nat) : Bool := decide (n < 32)

/-- A 32-bit word. -/
def wordOk (n : Nat) : Bool := decide (n < 2 ^ 32)

/-- A 16-bit word. -/
def halfOk (n : Nat) : Bool := decide (n < 65536)

/-- An 8-bit value. -/
def byteOk (n : Nat) : Bool := decide (n < 256)

/-- A fabric port (R344). -/
def portOk (n : Nat) : Bool := decide (n < 8)

/-- A lane of a port (R344). -/
def laneOk (n : Nat) : Bool := decide (n < 4)

/-- A device ID (R14). -/
def devOk (n : Nat) : Bool := decide (n < 4096)

/-- A queue pair (R365). -/
def qpOk (n : Nat) : Bool := decide (n < 2 ^ 20)

/-- A PSN (R361). -/
def psnOk (n : Nat) : Bool := decide (n < 2 ^ 24)

/-- A memory-semantic line (R381). -/
def lineOk (n : Nat) : Bool := decide (n < 32768)

/-- A physical core slot (R116). -/
def coreOk (n : Nat) : Bool := decide (n < 1152)

/-- A cluster (R43). -/
def clusterOk (n : Nat) : Bool := decide (n < 128)

/-- A region (R43). -/
def dieRegionOk (n : Nat) : Bool := decide (n < 32)

/-- A die stack (R43). -/
def stackOk (n : Nat) : Bool := decide (n < 4)

/-- An HBM3E stack (R167). -/
def hbmOk (n : Nat) : Bool := decide (n < 12)

/-- An LPDDR5X device (R169). -/
def lpxOk (n : Nat) : Bool := decide (n < 16)

/-- A device physical address (R167). -/
def dpaOk (n : Nat) : Bool := decide (n < 2 ^ 48)

/-- A page-frame number (R242). -/
def frameOk (n : Nat) : Bool := decide (n < 2 ^ 32)

/-- A berth (R203). -/
def berthOk (n : Nat) : Bool := decide (n < 16384)

/-- A resident withy slot (R288). -/
def wslotOk (n : Nat) : Bool := decide (n < 1024)

/-- A sequencer flag (R139). -/
def flagOk (n : Nat) : Bool := decide (n < 64)

/-- A batch slot (R133). -/
def bslotOk (n : Nat) : Bool := decide (n < 4096)

/-- A command processor (R449). -/
def cpOk (n : Nat) : Bool := decide (n < 8)

/-- An opcode (R307). -/
def opcodeOk (n : Nat) : Bool := decide (n < 256)

/-- A BAR0 offset (R495). -/
def off0Ok (n : Nat) : Bool := decide (n < 0x1000000)

/-- A BAR4 offset (R498). -/
def off4Ok (n : Nat) : Bool := decide (n < 2 ^ 48)

/-- An MSI-X vector (R492). -/
def vecOk (n : Nat) : Bool := decide (n < 2048)

/-- A GPIO pin (R469). -/
def pinOk (n : Nat) : Bool := decide (n < 16)

/-- An I/O die (R43). -/
def dieOk (n : Nat) : Bool := decide (n < 2)

/-- A temperature sensor (R516). -/
def sensorOk (n : Nat) : Bool := decide (n < 22)

/-- An I3C address (R503). -/
def addr7Ok (n : Nat) : Bool := decide (n < 128)

/-- A table slot (R151). -/
def tblOk (n : Nat) : Bool := decide (n < 4)

/-- A step cycle (R137). -/
def stepOk (n : Nat) : Bool := decide (n < 2 ^ 32)

/-- A path of arrival (R322). -/
def Path.wf : Path → Bool
  | .ring n => ringOk n
  | .fabric qp src port => qpOk qp && devOk src && portOk port
  | .mgmt _ => true
  | .i3c => true
  | .mbox => true

/-- The header fields have the widths of R307, and the FLAGS and reserved bytes hold no bits that R308 and R307 lack room
for. -/
def Pkt.wf (p : Pkt) : Bool :=
  p.path.wf && tickOk p.now && byteOk p.format && byteOk p.minor && decide (p.flagsRsvd < 32) && wordOk p.tag && wordOk p.mid &&
    wordOk p.epoch && wordOk p.pd && tickOk p.offset && wordOk p.p0 && wordOk p.p1 && wordOk p.p2 && wordOk p.p3 && wordOk p.slack &&
    wordOk p.seq && wordOk p.rsvd && wordOk p.payload.length

/-- The fields of a reply have the widths of R315. -/
def Rep.wf (r : Rep) : Bool :=
  qpOk r.qp && tickOk r.now && wordOk r.tag && byteOk r.opcode && wordOk r.mid && halfOk r.status && halfOk r.detail &&
    tickOk r.result && wordOk r.seq

/-- The fields of a fabric header have the widths of R352. -/
def Fab.wf (f : Fab) : Bool :=
  portOk f.port && tickOk f.now && devOk f.dstDev && devOk f.srcDev && qpOk f.dstQp && qpOk f.srcQp && psnOk f.psn && wordOk f.msgId &&
    halfOk f.pktIdx && halfOk f.pktCount && byteOk f.opcode && tickOk f.offset && wordOk f.len && wordOk f.tag

/-- What a ring read returned: the slots and opcode of a packet. -/
def SqRead.wf : SqRead → Bool
  | .packet slots opcode => halfOk slots && byteOk opcode
  | .hcrcFail => true
  | .poison => true

/-- The number of a damaged object. -/
def DamagedObject.wf : DamagedObject → Bool
  | .sealedPage f => frameOk f
  | .stakeExtent stakeId => wordOk stakeId
  | .withy w v => decide (w < 2 ^ 20) && decide (v < 2 ^ 12)
  | .tableImage slot stack => tblOk slot && stackOk stack
  | .openPage f => frameOk f

/-- The number of a moved object. -/
def MovedObject.wf : MovedObject → Bool
  | .page f => frameOk f
  | .stake stakeId => wordOk stakeId
  | .withy w v => decide (w < 2 ^ 20) && decide (v < 2 ^ 12)

/-- A cluster's step cycle. -/
def ClusterCycle.wf (c : ClusterCycle) : Bool := clusterOk c.m && stepOk c.cyc

/-- The header fields of a response have the widths of R307. -/
def RespName.wf (r : RespName) : Bool := wordOk r.tag && wordOk r.mid

/-- The owner of a context-SRAM word. -/
def SramOwner.wf : SramOwner → Bool
  | .berth b => berthOk b
  | .qp n => qpOk n
  | .msaLine l => lineOk l

/-- The unit that holds an internal FIFO. -/
def FifoPlace.wf : FifoPlace → Bool
  | .cluster m => clusterOk m
  | .lighter r => dieRegionOk r
  | .compressor r => dieRegionOk r
  | .ioDie d => dieOk d

/-- Every operand of a command or event fits what the spec gives it. -/
def Instr.wf : Instr → Bool
  | .nop p => p.wf
  | .sysHello p => p.wf
  | .sysCaps p => p.wf
  | .sysFence p => p.wf
  | .sysEpoch p => p.wf
  | .sysRestartWarm p => p.wf
  | .sysRestartDeviceReset p => p.wf
  | .cfgRead p => p.wf
  | .cfgWrite p => p.wf
  | .licInstall p => p.wf
  | .fwStage p => p.wf
  | .fwCommit p => p.wf
  | .secAttest p => p.wf
  | .tblLoad p => p.wf
  | .tblActivate p => p.wf
  | .tblRetire p => p.wf
  | .stkLoad p => p.wf
  | .stkRetire p => p.wf
  | .wthLoad p => p.wf
  | .wthRetire p => p.wf
  | .wthQuery p => p.wf
  | .reqAdmit p => p.wf
  | .reqAppend p => p.wf
  | .reqHandoffRetarget p => p.wf
  | .reqHandoffTransfer p => p.wf
  | .reqAccept p => p.wf
  | .reqCancel p => p.wf
  | .reqQuery p => p.wf
  | .reqRebuild p => p.wf
  | .reqRelease p => p.wf
  | .reqDraft p => p.wf
  | .pagePut p => p.wf
  | .pageGet p => p.wf
  | .pageSeal p => p.wf
  | .pageMirrorCopy p => p.wf
  | .pageMirrorClose p => p.wf
  | .pageMirrorRepair p => p.wf
  | .pageMirrorDone p => p.wf
  | .pageMirrorPartial p => p.wf
  | .pageDrop p => p.wf
  | .pageSwapOut p => p.wf
  | .pageSwapIn p => p.wf
  | .attPartial p => p.wf
  | .attResult p => p.wf
  | .tokStreamReceived p => p.wf
  | .qpCreate p => p.wf
  | .qpModify p => p.wf
  | .qpDestroy p => p.wf
  | .pdCreate p => p.wf
  | .regionRegister p => p.wf
  | .regionDeregister p => p.wf
  | .recvPost p => p.wf
  | .sendMsg p => p.wf
  | .memLoad p => p.wf
  | .memStore p => p.wf
  | .memAtomic p => p.wf
  | .memGateway p => p.wf
  | .schShares p => p.wf
  | .schShaper p => p.wf
  | .compCreate p => p.wf
  | .compMeter p => p.wf
  | .testSentinel p => p.wf
  | .testKat p => p.wf
  | .errRecordReceived p => p.wf
  | .verifyReplay p => p.wf
  | .verifyResult p => p.wf
  | .evoestHcrcFail path slot => path.wf && halfOk slot
  | .replyReceived r => r.wf
  | .responsePacketReceived qp now name opcode offset _ _ => qpOk qp && tickOk now && name.wf && opcodeOk opcode && tickOk offset
  | .handoffTransferReply r => r.wf
  | .acceptReply r => r.wf
  | .pageMoveReply r => r.wf
  | .pageDropReply r => r.wf
  | .attPartialStatusReply r => r.wf
  | .msaForwardReply r _ => r.wf
  | .sqDoorbellWrite fn ring value _ => fnOk fn && ringOk ring && wordOk value
  | .sqTailConsume ring reads => ringOk ring && reads.all SqRead.wf
  | .cqHeadDoorbellWrite fn ring value => fnOk fn && ringOk ring && wordOk value
  | .cqStallTimeout ring now => ringOk ring && tickOk now
  | .cqCoalTimeout ring now => ringOk ring && tickOk now
  | .sqEnable fn ring value => fnOk fn && ringOk ring && wordOk value
  | .sqDisable fn ring value => fnOk fn && ringOk ring && wordOk value
  | .cqEnable fn ring value => fnOk fn && ringOk ring && wordOk value
  | .cqDisable fn ring value => fnOk fn && ringOk ring && wordOk value
  | .hostwinEnableWrite n value => pinOk n && wordOk value
  | .hostwinFieldWrite offset value => off0Ok offset && wordOk value
  | .manBerthSelWrite value => wordOk value
  | .wthSlotSelWrite value => wordOk value
  | .qpcSelWrite value => wordOk value
  | .schShapeSelWrite value => wordOk value
  | .errLogSelWrite value => wordOk value
  | .portRetrainWrite port => portOk port
  | .schHistClear => true
  | .devResetDevice value => wordOk value
  | .devResetCpRestart value => wordOk value
  | .devIrqStatusWrite value eventsNow => wordOk value && wordOk eventsNow
  | .devIrqEnableWrite value => wordOk value
  | .mgtMboxGo opcode p => opcodeOk opcode && p.wf
  | .bar4Read offset len _ => off4Ok offset && off4Ok len
  | .bar4Write offset _ => off4Ok offset
  | .bar0BadAccess _ offset size => off0Ok offset && byteOk size
  | .regReservedWrite fn offset value => fnOk fn && off0Ok offset && wordOk value
  | .regWrite fn offset size value => fnOk fn && off0Ok offset && byteOk size && tickOk value
  | .reg64LowHalfRead offset => off0Ok offset
  | .seqStepMaxRead => true
  | .attRttMaxRead => true
  | .qpcFetchMaxRead => true
  | .msaLineMaxRead => true
  | .functionLevelReset fn now => fnOk fn && tickOk now
  | .flrComplete fn => fnOk fn
  | .vfEnableChange _ numVfs => fnOk numVfs
  | .msixUnmask fn vector => fnOk fn && vecOk vector
  | .perstAssert now => tickOk now
  | .perstDeassert _ width speed => byteOk width && byteOk speed
  | .pcieHotReset now => tickOk now
  | .pcieLinkDown => true
  | .pcieLinkUp _ width speed => byteOk width && byteOk speed
  | .i3cEntdaa address => addr7Ok address
  | .mctpControlMessage _ => true
  | .i3cClkStatusRead => true
  | .uartRx _ => true
  | .jtagInstruction _ => true
  | .pkgResetRelease _ => true
  | .pkgResetAssert => true
  | .rootSynthLock us _ => wordOk us
  | .rootLockTimeout => true
  | .rootLockLoss now => tickOk now
  | .ref100Loss now => tickOk now
  | .memoryTrainingDone hbmFailed lpxFailed cmpTargets => hbmFailed.all hbmOk && lpxFailed.all lpxOk && cmpTargets.all halfOk
  | .katComplete failed => (failed.all fun e => coreOk e.1)
  | .microcodeBroadcastDone stillDiffer => stillDiffer.all coreOk
  | .portTrainingStepEnd now => tickOk now
  | .thermalSample now celsius _ => tickOk now && celsius.all byteOk
  | .powerEstimate now watts railsMv => tickOk now && wordOk watts && railsMv.all halfOk
  | .avsAdjust now stack _ _ => tickOk now && stackOk stack
  | .thermtrip now sensor => tickOk now && sensorOk sensor
  | .ioDieFatalError now die => tickOk now && dieOk die
  | .portSignalDetect port => portOk port
  | .portDetectTimeout port now => portOk port && tickOk now
  | .portLaneLock port lanes _ => portOk port && lanes.all laneOk
  | .portRateFallbackTimeout port now => portOk port && tickOk now
  | .portTrainTimeout port now => portOk port && tickOk now
  | .portNegotiateDone port now major minor plane => portOk port && tickOk now && byteOk major && byteOk minor && byteOk plane
  | .portNegotiateTimeout port now => portOk port && tickOk now
  | .laneLossOfLock port lane now => portOk port && laneOk lane && tickOk now
  | .laneRetrainLock port lane => portOk port && laneOk lane
  | .keepaliveSend port now => portOk port && tickOk now
  | .keepaliveReceived port now plane txTick echoTick hold => portOk port && tickOk now && byteOk plane && tickOk txTick && tickOk echoTick && wordOk hold
  | .keepaliveMiss port now => portOk port && tickOk now
  | .creditReceived port credits => portOk port && wordOk credits
  | .pauseReceived port now _ _ time => portOk port && tickOk now && halfOk time
  | .pauseExpire port now => portOk port && tickOk now
  | .frameSendStart port now _ => portOk port && tickOk now
  | .linkFrameInvalid port _ => portOk port
  | .tclDataReceived f => f.wf
  | .tcsDataReceived f => f.wf
  | .ackReceived qp port psn now => qpOk qp && portOk port && psnOk psn && tickOk now
  | .nakReceived qp port psn now _ => qpOk qp && portOk port && psnOk psn && tickOk now
  | .sackReceived qp port msgId base now _ _ bitmap => qpOk qp && portOk port && wordOk msgId && wordOk base && tickOk now && bitmap.all halfOk
  | .tclAckTimeout qp now => qpOk qp && tickOk now
  | .tclAckDelayExpire qp now => qpOk qp && tickOk now
  | .tclNoContextResend qp now => qpOk qp && tickOk now
  | .tcsRetransmitTimeout qp msgId pktIdx now => qpOk qp && wordOk msgId && halfOk pktIdx && tickOk now
  | .tcsSackTimer qp msgId now => qpOk qp && wordOk msgId && tickOk now
  | .tcsAssemblyTimeout qp msgId now => qpOk qp && wordOk msgId && tickOk now
  | .portExclusionExpire port dest now => portOk port && devOk dest && tickOk now
  | .qpcEvictVerified qp => qpOk qp
  | .qpcFetchComplete qp now => qpOk qp && tickOk now
  | .qpcFetchFail qp now => qpOk qp && tickOk now
  | .qpcHoldTimeout qp now => qpOk qp && tickOk now
  | .shaperWheelSlot now => tickOk now
  | .queueSampleTick now => tickOk now
  | .msaLineApply line now => lineOk line && tickOk now
  | .msaOpTimeout tag now => wordOk tag && tickOk now
  | .msaGwTimeout tag now => wordOk tag && tickOk now
  | .stepStart now => tickOk now
  | .stepBoundary now cycles => tickOk now && stepOk cycles
  | .stepOverrun => true
  | .stepWatchdog now => tickOk now
  | .clusterResetComplete m => clusterOk m
  | .drainWindowEnd now => tickOk now
  | .loadTile m cyc => clusterOk m && stepOk cyc
  | .expandTile m cyc => clusterOk m && stepOk cyc
  | .mma m cyc => clusterOk m && stepOk cyc
  | .vec m cyc => clusterOk m && stepOk cyc
  | .sampleEntry m cyc => clusterOk m && stepOk cyc
  | .sendEntry m cyc now => clusterOk m && stepOk cyc && tickOk now
  | .waitEntry m cyc => clusterOk m && stepOk cyc
  | .signalEntry m cyc => clusterOk m && stepOk cyc
  | .signalDelivered target flag cyc => clusterOk target && flagOk flag && stepOk cyc
  | .barrierEntry m cyc => clusterOk m && stepOk cyc
  | .sentinelEntry m cyc => clusterOk m && stepOk cyc
  | .endEntry m cyc => clusterOk m && stepOk cyc
  | .entryDeadline m cyc _ _ => clusterOk m && stepOk cyc
  | .hostArrivalComplete slot => bslotOk slot
  | .stagerTileStart m => clusterOk m
  | .stagingComplete c => c.wf
  | .directPathComplete c => c.wf
  | .expanderBlockDone c => c.wf
  | .compressorObjectReady region => dieRegionOk region
  | .coreUncorrectedError now cyc slots => tickOk now && stepOk cyc && slots.all coreOk
  | .coreCorrectedError slot now => coreOk slot && tickOk now
  | .spareLoadComplete m now _ => clusterOk m && tickOk now
  | .sentinelTestEnd slot now _ => coreOk slot && tickOk now
  | .clusterUe m now _ => clusterOk m && tickOk now
  | .lighterUe region now => dieRegionOk region && tickOk now
  | .compressorUe region now => dieRegionOk region && tickOk now
  | .regionStopFail region now => dieRegionOk region && tickOk now
  | .dieStackFence stack now _ => stackOk stack && tickOk now
  | .hbmCorrectedError stack dpa now => hbmOk stack && dpaOk dpa && tickOk now
  | .hbmRowCopyDone dpa now => dpaOk dpa && tickOk now
  | .objectMoveComplete object now _ => object.wf && tickOk now
  | .memoryUe now dpa _ obj => tickOk now && dpaOk dpa && obj.wf
  | .lpxCorrectedError device dpa now => lpxOk device && dpaOk dpa && tickOk now
  | .sramCorrectedError _ unit address now => coreOk unit && dpaOk address && tickOk now
  | .sramUe now address owner => tickOk now && dpaOk address && owner.wf
  | .fifoParityError place index now => place.wf && byteOk index && tickOk now
  | .fifoOverrun place index now => place.wf && byteOk index && tickOk now
  | .cpWatchdogExpire cp now => cpOk cp && tickOk now
  | .cpRestartComplete now => tickOk now
  | .mgtWatchdogExpire now => tickOk now
  | .mgtRestartComplete now => tickOk now
  | .replayRoundTimeout stepSeq now => wordOk stepSeq && tickOk now
  | .replayPartsTimeout qp stepSeq now => qpOk qp && wordOk stepSeq && tickOk now
  | .pageMoveTimeout move now => wordOk move && tickOk now
  | .pageMoveRetry move now => wordOk move && tickOk now
  | .pageDropRetry drop now => wordOk drop && tickOk now
  | .arrivingFrameTimeout frame now => frameOk frame && tickOk now
  | .demotionVerified frame now _ => frameOk frame && tickOk now
  | .swapOutVerified berth now _ => berthOk berth && tickOk now
  | .swapInComplete berth now _ => berthOk berth && tickOk now
  | .handoffTimeout berth now => berthOk berth && tickOk now
  | .awaitConfirmTimeout berth now => berthOk berth && tickOk now
  | .reservedBerthTimeout berth now => berthOk berth && tickOk now
  | .promotionVerified slot _ => wslotOk slot
  | .attExchangeTimeout tag now => wordOk tag && tickOk now
  | .attServiceComplete service now poisoned => wordOk service && tickOk now && poisoned.all frameOk
  | .flashWriteComplete now _ => tickOk now
  | .bottomTreeGenerated now => tickOk now
  | .telemetryTick now => tickOk now
  | .flashScrubTick now => tickOk now
  | .meterPageMsTick now => tickOk now
  | .errStatusRead => true
  | .icmpv6EchoRequest src _ _ => wordOk src
  | .neighbourDiscoveryMessage src _ _ => wordOk src
  | .traceTrigInput pin _ => pinOk pin

/-- The packet that a command brings. -/
def Instr.pkt? : Instr → Option Pkt
  | .nop p => some p
  | .sysHello p => some p
  | .sysCaps p => some p
  | .sysFence p => some p
  | .sysEpoch p => some p
  | .sysRestartWarm p => some p
  | .sysRestartDeviceReset p => some p
  | .cfgRead p => some p
  | .cfgWrite p => some p
  | .licInstall p => some p
  | .fwStage p => some p
  | .fwCommit p => some p
  | .secAttest p => some p
  | .tblLoad p => some p
  | .tblActivate p => some p
  | .tblRetire p => some p
  | .stkLoad p => some p
  | .stkRetire p => some p
  | .wthLoad p => some p
  | .wthRetire p => some p
  | .wthQuery p => some p
  | .reqAdmit p => some p
  | .reqAppend p => some p
  | .reqHandoffRetarget p => some p
  | .reqHandoffTransfer p => some p
  | .reqAccept p => some p
  | .reqCancel p => some p
  | .reqQuery p => some p
  | .reqRebuild p => some p
  | .reqRelease p => some p
  | .reqDraft p => some p
  | .pagePut p => some p
  | .pageGet p => some p
  | .pageSeal p => some p
  | .pageMirrorCopy p => some p
  | .pageMirrorClose p => some p
  | .pageMirrorRepair p => some p
  | .pageMirrorDone p => some p
  | .pageMirrorPartial p => some p
  | .pageDrop p => some p
  | .pageSwapOut p => some p
  | .pageSwapIn p => some p
  | .attPartial p => some p
  | .attResult p => some p
  | .tokStreamReceived p => some p
  | .qpCreate p => some p
  | .qpModify p => some p
  | .qpDestroy p => some p
  | .pdCreate p => some p
  | .regionRegister p => some p
  | .regionDeregister p => some p
  | .recvPost p => some p
  | .sendMsg p => some p
  | .memLoad p => some p
  | .memStore p => some p
  | .memAtomic p => some p
  | .memGateway p => some p
  | .schShares p => some p
  | .schShaper p => some p
  | .compCreate p => some p
  | .compMeter p => some p
  | .testSentinel p => some p
  | .testKat p => some p
  | .errRecordReceived p => some p
  | .verifyReplay p => some p
  | .verifyResult p => some p
  | .evoestHcrcFail _ _ => none
  | .replyReceived _ => none
  | .responsePacketReceived _ _ _ _ _ _ _ => none
  | .handoffTransferReply _ => none
  | .acceptReply _ => none
  | .pageMoveReply _ => none
  | .pageDropReply _ => none
  | .attPartialStatusReply _ => none
  | .msaForwardReply _ _ => none
  | .sqDoorbellWrite _ _ _ _ => none
  | .sqTailConsume _ _ => none
  | .cqHeadDoorbellWrite _ _ _ => none
  | .cqStallTimeout _ _ => none
  | .cqCoalTimeout _ _ => none
  | .sqEnable _ _ _ => none
  | .sqDisable _ _ _ => none
  | .cqEnable _ _ _ => none
  | .cqDisable _ _ _ => none
  | .hostwinEnableWrite _ _ => none
  | .hostwinFieldWrite _ _ => none
  | .manBerthSelWrite _ => none
  | .wthSlotSelWrite _ => none
  | .qpcSelWrite _ => none
  | .schShapeSelWrite _ => none
  | .errLogSelWrite _ => none
  | .portRetrainWrite _ => none
  | .schHistClear => none
  | .devResetDevice _ => none
  | .devResetCpRestart _ => none
  | .devIrqStatusWrite _ _ => none
  | .devIrqEnableWrite _ => none
  | .mgtMboxGo _ p => some p
  | .bar4Read _ _ _ => none
  | .bar4Write _ _ => none
  | .bar0BadAccess _ _ _ => none
  | .regReservedWrite _ _ _ => none
  | .regWrite _ _ _ _ => none
  | .reg64LowHalfRead _ => none
  | .seqStepMaxRead => none
  | .attRttMaxRead => none
  | .qpcFetchMaxRead => none
  | .msaLineMaxRead => none
  | .functionLevelReset _ _ => none
  | .flrComplete _ => none
  | .vfEnableChange _ _ => none
  | .msixUnmask _ _ => none
  | .perstAssert _ => none
  | .perstDeassert _ _ _ => none
  | .pcieHotReset _ => none
  | .pcieLinkDown => none
  | .pcieLinkUp _ _ _ => none
  | .i3cEntdaa _ => none
  | .mctpControlMessage _ => none
  | .i3cClkStatusRead => none
  | .uartRx _ => none
  | .jtagInstruction _ => none
  | .pkgResetRelease _ => none
  | .pkgResetAssert => none
  | .rootSynthLock _ _ => none
  | .rootLockTimeout => none
  | .rootLockLoss _ => none
  | .ref100Loss _ => none
  | .memoryTrainingDone _ _ _ => none
  | .katComplete _ => none
  | .microcodeBroadcastDone _ => none
  | .portTrainingStepEnd _ => none
  | .thermalSample _ _ _ => none
  | .powerEstimate _ _ _ => none
  | .avsAdjust _ _ _ _ => none
  | .thermtrip _ _ => none
  | .ioDieFatalError _ _ => none
  | .portSignalDetect _ => none
  | .portDetectTimeout _ _ => none
  | .portLaneLock _ _ _ => none
  | .portRateFallbackTimeout _ _ => none
  | .portTrainTimeout _ _ => none
  | .portNegotiateDone _ _ _ _ _ => none
  | .portNegotiateTimeout _ _ => none
  | .laneLossOfLock _ _ _ => none
  | .laneRetrainLock _ _ => none
  | .keepaliveSend _ _ => none
  | .keepaliveReceived _ _ _ _ _ _ => none
  | .keepaliveMiss _ _ => none
  | .creditReceived _ _ => none
  | .pauseReceived _ _ _ _ _ => none
  | .pauseExpire _ _ => none
  | .frameSendStart _ _ _ => none
  | .linkFrameInvalid _ _ => none
  | .tclDataReceived _ => none
  | .tcsDataReceived _ => none
  | .ackReceived _ _ _ _ => none
  | .nakReceived _ _ _ _ _ => none
  | .sackReceived _ _ _ _ _ _ _ _ => none
  | .tclAckTimeout _ _ => none
  | .tclAckDelayExpire _ _ => none
  | .tclNoContextResend _ _ => none
  | .tcsRetransmitTimeout _ _ _ _ => none
  | .tcsSackTimer _ _ _ => none
  | .tcsAssemblyTimeout _ _ _ => none
  | .portExclusionExpire _ _ _ => none
  | .qpcEvictVerified _ => none
  | .qpcFetchComplete _ _ => none
  | .qpcFetchFail _ _ => none
  | .qpcHoldTimeout _ _ => none
  | .shaperWheelSlot _ => none
  | .queueSampleTick _ => none
  | .msaLineApply _ _ => none
  | .msaOpTimeout _ _ => none
  | .msaGwTimeout _ _ => none
  | .stepStart _ => none
  | .stepBoundary _ _ => none
  | .stepOverrun => none
  | .stepWatchdog _ => none
  | .clusterResetComplete _ => none
  | .drainWindowEnd _ => none
  | .loadTile _ _ => none
  | .expandTile _ _ => none
  | .mma _ _ => none
  | .vec _ _ => none
  | .sampleEntry _ _ => none
  | .sendEntry _ _ _ => none
  | .waitEntry _ _ => none
  | .signalEntry _ _ => none
  | .signalDelivered _ _ _ => none
  | .barrierEntry _ _ => none
  | .sentinelEntry _ _ => none
  | .endEntry _ _ => none
  | .entryDeadline _ _ _ _ => none
  | .hostArrivalComplete _ => none
  | .stagerTileStart _ => none
  | .stagingComplete _ => none
  | .directPathComplete _ => none
  | .expanderBlockDone _ => none
  | .compressorObjectReady _ => none
  | .coreUncorrectedError _ _ _ => none
  | .coreCorrectedError _ _ => none
  | .spareLoadComplete _ _ _ => none
  | .sentinelTestEnd _ _ _ => none
  | .clusterUe _ _ _ => none
  | .lighterUe _ _ => none
  | .compressorUe _ _ => none
  | .regionStopFail _ _ => none
  | .dieStackFence _ _ _ => none
  | .hbmCorrectedError _ _ _ => none
  | .hbmRowCopyDone _ _ => none
  | .objectMoveComplete _ _ _ => none
  | .memoryUe _ _ _ _ => none
  | .lpxCorrectedError _ _ _ => none
  | .sramCorrectedError _ _ _ _ => none
  | .sramUe _ _ _ => none
  | .fifoParityError _ _ _ => none
  | .fifoOverrun _ _ _ => none
  | .cpWatchdogExpire _ _ => none
  | .cpRestartComplete _ => none
  | .mgtWatchdogExpire _ => none
  | .mgtRestartComplete _ => none
  | .replayRoundTimeout _ _ => none
  | .replayPartsTimeout _ _ _ => none
  | .pageMoveTimeout _ _ => none
  | .pageMoveRetry _ _ => none
  | .pageDropRetry _ _ => none
  | .arrivingFrameTimeout _ _ => none
  | .demotionVerified _ _ _ => none
  | .swapOutVerified _ _ _ => none
  | .swapInComplete _ _ _ => none
  | .handoffTimeout _ _ => none
  | .awaitConfirmTimeout _ _ => none
  | .reservedBerthTimeout _ _ => none
  | .promotionVerified _ _ => none
  | .attExchangeTimeout _ _ => none
  | .attServiceComplete _ _ _ => none
  | .flashWriteComplete _ _ => none
  | .bottomTreeGenerated _ => none
  | .telemetryTick _ => none
  | .flashScrubTick _ => none
  | .meterPageMsTick _ => none
  | .errStatusRead => none
  | .icmpv6EchoRequest _ _ _ => none
  | .neighbourDiscoveryMessage _ _ _ => none
  | .traceTrigInput _ _ => none

/-- The CLK_MGT tick that a command or event brings. -/
def Instr.now? : Instr → Option Nat
  | .nop p => some p.now
  | .sysHello p => some p.now
  | .sysCaps p => some p.now
  | .sysFence p => some p.now
  | .sysEpoch p => some p.now
  | .sysRestartWarm p => some p.now
  | .sysRestartDeviceReset p => some p.now
  | .cfgRead p => some p.now
  | .cfgWrite p => some p.now
  | .licInstall p => some p.now
  | .fwStage p => some p.now
  | .fwCommit p => some p.now
  | .secAttest p => some p.now
  | .tblLoad p => some p.now
  | .tblActivate p => some p.now
  | .tblRetire p => some p.now
  | .stkLoad p => some p.now
  | .stkRetire p => some p.now
  | .wthLoad p => some p.now
  | .wthRetire p => some p.now
  | .wthQuery p => some p.now
  | .reqAdmit p => some p.now
  | .reqAppend p => some p.now
  | .reqHandoffRetarget p => some p.now
  | .reqHandoffTransfer p => some p.now
  | .reqAccept p => some p.now
  | .reqCancel p => some p.now
  | .reqQuery p => some p.now
  | .reqRebuild p => some p.now
  | .reqRelease p => some p.now
  | .reqDraft p => some p.now
  | .pagePut p => some p.now
  | .pageGet p => some p.now
  | .pageSeal p => some p.now
  | .pageMirrorCopy p => some p.now
  | .pageMirrorClose p => some p.now
  | .pageMirrorRepair p => some p.now
  | .pageMirrorDone p => some p.now
  | .pageMirrorPartial p => some p.now
  | .pageDrop p => some p.now
  | .pageSwapOut p => some p.now
  | .pageSwapIn p => some p.now
  | .attPartial p => some p.now
  | .attResult p => some p.now
  | .tokStreamReceived p => some p.now
  | .qpCreate p => some p.now
  | .qpModify p => some p.now
  | .qpDestroy p => some p.now
  | .pdCreate p => some p.now
  | .regionRegister p => some p.now
  | .regionDeregister p => some p.now
  | .recvPost p => some p.now
  | .sendMsg p => some p.now
  | .memLoad p => some p.now
  | .memStore p => some p.now
  | .memAtomic p => some p.now
  | .memGateway p => some p.now
  | .schShares p => some p.now
  | .schShaper p => some p.now
  | .compCreate p => some p.now
  | .compMeter p => some p.now
  | .testSentinel p => some p.now
  | .testKat p => some p.now
  | .errRecordReceived p => some p.now
  | .verifyReplay p => some p.now
  | .verifyResult p => some p.now
  | .evoestHcrcFail _ _ => none
  | .replyReceived p => some p.now
  | .responsePacketReceived _ now _ _ _ _ _ => some now
  | .handoffTransferReply p => some p.now
  | .acceptReply p => some p.now
  | .pageMoveReply p => some p.now
  | .pageDropReply p => some p.now
  | .attPartialStatusReply p => some p.now
  | .msaForwardReply p _ => some p.now
  | .sqDoorbellWrite _ _ _ _ => none
  | .sqTailConsume _ _ => none
  | .cqHeadDoorbellWrite _ _ _ => none
  | .cqStallTimeout _ now => some now
  | .cqCoalTimeout _ now => some now
  | .sqEnable _ _ _ => none
  | .sqDisable _ _ _ => none
  | .cqEnable _ _ _ => none
  | .cqDisable _ _ _ => none
  | .hostwinEnableWrite _ _ => none
  | .hostwinFieldWrite _ _ => none
  | .manBerthSelWrite _ => none
  | .wthSlotSelWrite _ => none
  | .qpcSelWrite _ => none
  | .schShapeSelWrite _ => none
  | .errLogSelWrite _ => none
  | .portRetrainWrite _ => none
  | .schHistClear => none
  | .devResetDevice _ => none
  | .devResetCpRestart _ => none
  | .devIrqStatusWrite _ _ => none
  | .devIrqEnableWrite _ => none
  | .mgtMboxGo _ p => some p.now
  | .bar4Read _ _ _ => none
  | .bar4Write _ _ => none
  | .bar0BadAccess _ _ _ => none
  | .regReservedWrite _ _ _ => none
  | .regWrite _ _ _ _ => none
  | .reg64LowHalfRead _ => none
  | .seqStepMaxRead => none
  | .attRttMaxRead => none
  | .qpcFetchMaxRead => none
  | .msaLineMaxRead => none
  | .functionLevelReset _ now => some now
  | .flrComplete _ => none
  | .vfEnableChange _ _ => none
  | .msixUnmask _ _ => none
  | .perstAssert now => some now
  | .perstDeassert _ _ _ => none
  | .pcieHotReset now => some now
  | .pcieLinkDown => none
  | .pcieLinkUp _ _ _ => none
  | .i3cEntdaa _ => none
  | .mctpControlMessage _ => none
  | .i3cClkStatusRead => none
  | .uartRx _ => none
  | .jtagInstruction _ => none
  | .pkgResetRelease _ => none
  | .pkgResetAssert => none
  | .rootSynthLock _ _ => none
  | .rootLockTimeout => none
  | .rootLockLoss now => some now
  | .ref100Loss now => some now
  | .memoryTrainingDone _ _ _ => none
  | .katComplete _ => none
  | .microcodeBroadcastDone _ => none
  | .portTrainingStepEnd now => some now
  | .thermalSample now _ _ => some now
  | .powerEstimate now _ _ => some now
  | .avsAdjust now _ _ _ => some now
  | .thermtrip now _ => some now
  | .ioDieFatalError now _ => some now
  | .portSignalDetect _ => none
  | .portDetectTimeout _ now => some now
  | .portLaneLock _ _ _ => none
  | .portRateFallbackTimeout _ now => some now
  | .portTrainTimeout _ now => some now
  | .portNegotiateDone _ now _ _ _ => some now
  | .portNegotiateTimeout _ now => some now
  | .laneLossOfLock _ _ now => some now
  | .laneRetrainLock _ _ => none
  | .keepaliveSend _ now => some now
  | .keepaliveReceived _ now _ _ _ _ => some now
  | .keepaliveMiss _ now => some now
  | .creditReceived _ _ => none
  | .pauseReceived _ now _ _ _ => some now
  | .pauseExpire _ now => some now
  | .frameSendStart _ now _ => some now
  | .linkFrameInvalid _ _ => none
  | .tclDataReceived p => some p.now
  | .tcsDataReceived p => some p.now
  | .ackReceived _ _ _ now => some now
  | .nakReceived _ _ _ now _ => some now
  | .sackReceived _ _ _ _ now _ _ _ => some now
  | .tclAckTimeout _ now => some now
  | .tclAckDelayExpire _ now => some now
  | .tclNoContextResend _ now => some now
  | .tcsRetransmitTimeout _ _ _ now => some now
  | .tcsSackTimer _ _ now => some now
  | .tcsAssemblyTimeout _ _ now => some now
  | .portExclusionExpire _ _ now => some now
  | .qpcEvictVerified _ => none
  | .qpcFetchComplete _ now => some now
  | .qpcFetchFail _ now => some now
  | .qpcHoldTimeout _ now => some now
  | .shaperWheelSlot now => some now
  | .queueSampleTick now => some now
  | .msaLineApply _ now => some now
  | .msaOpTimeout _ now => some now
  | .msaGwTimeout _ now => some now
  | .stepStart now => some now
  | .stepBoundary now _ => some now
  | .stepOverrun => none
  | .stepWatchdog now => some now
  | .clusterResetComplete _ => none
  | .drainWindowEnd now => some now
  | .loadTile _ _ => none
  | .expandTile _ _ => none
  | .mma _ _ => none
  | .vec _ _ => none
  | .sampleEntry _ _ => none
  | .sendEntry _ _ now => some now
  | .waitEntry _ _ => none
  | .signalEntry _ _ => none
  | .signalDelivered _ _ _ => none
  | .barrierEntry _ _ => none
  | .sentinelEntry _ _ => none
  | .endEntry _ _ => none
  | .entryDeadline _ _ _ _ => none
  | .hostArrivalComplete _ => none
  | .stagerTileStart _ => none
  | .stagingComplete _ => none
  | .directPathComplete _ => none
  | .expanderBlockDone _ => none
  | .compressorObjectReady _ => none
  | .coreUncorrectedError now _ _ => some now
  | .coreCorrectedError _ now => some now
  | .spareLoadComplete _ now _ => some now
  | .sentinelTestEnd _ now _ => some now
  | .clusterUe _ now _ => some now
  | .lighterUe _ now => some now
  | .compressorUe _ now => some now
  | .regionStopFail _ now => some now
  | .dieStackFence _ now _ => some now
  | .hbmCorrectedError _ _ now => some now
  | .hbmRowCopyDone _ now => some now
  | .objectMoveComplete _ now _ => some now
  | .memoryUe now _ _ _ => some now
  | .lpxCorrectedError _ _ now => some now
  | .sramCorrectedError _ _ _ now => some now
  | .sramUe now _ _ => some now
  | .fifoParityError _ _ now => some now
  | .fifoOverrun _ _ now => some now
  | .cpWatchdogExpire _ now => some now
  | .cpRestartComplete now => some now
  | .mgtWatchdogExpire now => some now
  | .mgtRestartComplete now => some now
  | .replayRoundTimeout _ now => some now
  | .replayPartsTimeout _ _ now => some now
  | .pageMoveTimeout _ now => some now
  | .pageMoveRetry _ now => some now
  | .pageDropRetry _ now => some now
  | .arrivingFrameTimeout _ now => some now
  | .demotionVerified _ now _ => some now
  | .swapOutVerified _ now _ => some now
  | .swapInComplete _ now _ => some now
  | .handoffTimeout _ now => some now
  | .awaitConfirmTimeout _ now => some now
  | .reservedBerthTimeout _ now => some now
  | .promotionVerified _ _ => none
  | .attExchangeTimeout _ now => some now
  | .attServiceComplete _ now _ => some now
  | .flashWriteComplete now _ => some now
  | .bottomTreeGenerated now => some now
  | .telemetryTick now => some now
  | .flashScrubTick now => some now
  | .meterPageMsTick now => some now
  | .errStatusRead => none
  | .icmpv6EchoRequest _ _ _ => none
  | .neighbourDiscoveryMessage _ _ _ => none
  | .traceTrigInput _ _ => none

end Sys2Proof
end

