-- ==== Sys2Proof/Laws/PerInstr.lean ====
section
/-! SUPPORT. One lemma per command for the family Wf: what well-formedness gives of the packet and the tick it brings. -/

set_option Elab.async false

namespace Sys2Proof.Laws.Wf

/-- The packet of a well-formed command has the header widths of R307, and its tick is a 64-bit count (R36). -/
def Statement (i : Instr) : Prop :=
  i.wf = true → (∀ p, i.pkt? = some p → p.wf = true) ∧ (∀ t, i.now? = some t → t < 2 ^ 64)

/-- A packet's tick is 64 bits wide. -/
theorem pkt_now (p : Pkt) (h : p.wf = true) : p.now < 2 ^ 64 := by
  simp only [Pkt.wf, Bool.and_eq_true] at h
  exact of_decide_eq_true h.1.1.1.1.1.1.1.1.1.1.1.1.1.1.1.1.2

/-- A reply's tick is 64 bits wide. -/
theorem rep_now (r : Rep) (h : r.wf = true) : r.now < 2 ^ 64 := by
  simp only [Rep.wf, Bool.and_eq_true] at h
  exact of_decide_eq_true h.1.1.1.1.1.1.1.2

/-- A fabric frame's tick is 64 bits wide. -/
theorem fab_now (f : Fab) (h : f.wf = true) : f.now < 2 ^ 64 := by
  simp only [Fab.wf, Bool.and_eq_true] at h
  exact of_decide_eq_true h.1.1.1.1.1.1.1.1.1.1.1.1.2

theorem nop (p : Pkt) : Statement (.nop p) := by
  intro h
  exact ⟨(by intro q e; cases e; exact h), (by intro t e; cases e; exact pkt_now _ h)⟩

theorem sysHello (p : Pkt) : Statement (.sysHello p) := by
  intro h
  exact ⟨(by intro q e; cases e; exact h), (by intro t e; cases e; exact pkt_now _ h)⟩

theorem sysCaps (p : Pkt) : Statement (.sysCaps p) := by
  intro h
  exact ⟨(by intro q e; cases e; exact h), (by intro t e; cases e; exact pkt_now _ h)⟩

theorem sysFence (p : Pkt) : Statement (.sysFence p) := by
  intro h
  exact ⟨(by intro q e; cases e; exact h), (by intro t e; cases e; exact pkt_now _ h)⟩

theorem sysEpoch (p : Pkt) : Statement (.sysEpoch p) := by
  intro h
  exact ⟨(by intro q e; cases e; exact h), (by intro t e; cases e; exact pkt_now _ h)⟩

theorem sysRestartWarm (p : Pkt) : Statement (.sysRestartWarm p) := by
  intro h
  exact ⟨(by intro q e; cases e; exact h), (by intro t e; cases e; exact pkt_now _ h)⟩

theorem sysRestartDeviceReset (p : Pkt) : Statement (.sysRestartDeviceReset p) := by
  intro h
  exact ⟨(by intro q e; cases e; exact h), (by intro t e; cases e; exact pkt_now _ h)⟩

theorem cfgRead (p : Pkt) : Statement (.cfgRead p) := by
  intro h
  exact ⟨(by intro q e; cases e; exact h), (by intro t e; cases e; exact pkt_now _ h)⟩

theorem cfgWrite (p : Pkt) : Statement (.cfgWrite p) := by
  intro h
  exact ⟨(by intro q e; cases e; exact h), (by intro t e; cases e; exact pkt_now _ h)⟩

theorem licInstall (p : Pkt) : Statement (.licInstall p) := by
  intro h
  exact ⟨(by intro q e; cases e; exact h), (by intro t e; cases e; exact pkt_now _ h)⟩

theorem fwStage (p : Pkt) : Statement (.fwStage p) := by
  intro h
  exact ⟨(by intro q e; cases e; exact h), (by intro t e; cases e; exact pkt_now _ h)⟩

theorem fwCommit (p : Pkt) : Statement (.fwCommit p) := by
  intro h
  exact ⟨(by intro q e; cases e; exact h), (by intro t e; cases e; exact pkt_now _ h)⟩

theorem secAttest (p : Pkt) : Statement (.secAttest p) := by
  intro h
  exact ⟨(by intro q e; cases e; exact h), (by intro t e; cases e; exact pkt_now _ h)⟩

theorem tblLoad (p : Pkt) : Statement (.tblLoad p) := by
  intro h
  exact ⟨(by intro q e; cases e; exact h), (by intro t e; cases e; exact pkt_now _ h)⟩

theorem tblActivate (p : Pkt) : Statement (.tblActivate p) := by
  intro h
  exact ⟨(by intro q e; cases e; exact h), (by intro t e; cases e; exact pkt_now _ h)⟩

theorem tblRetire (p : Pkt) : Statement (.tblRetire p) := by
  intro h
  exact ⟨(by intro q e; cases e; exact h), (by intro t e; cases e; exact pkt_now _ h)⟩

theorem stkLoad (p : Pkt) : Statement (.stkLoad p) := by
  intro h
  exact ⟨(by intro q e; cases e; exact h), (by intro t e; cases e; exact pkt_now _ h)⟩

theorem stkRetire (p : Pkt) : Statement (.stkRetire p) := by
  intro h
  exact ⟨(by intro q e; cases e; exact h), (by intro t e; cases e; exact pkt_now _ h)⟩

theorem wthLoad (p : Pkt) : Statement (.wthLoad p) := by
  intro h
  exact ⟨(by intro q e; cases e; exact h), (by intro t e; cases e; exact pkt_now _ h)⟩

theorem wthRetire (p : Pkt) : Statement (.wthRetire p) := by
  intro h
  exact ⟨(by intro q e; cases e; exact h), (by intro t e; cases e; exact pkt_now _ h)⟩

theorem wthQuery (p : Pkt) : Statement (.wthQuery p) := by
  intro h
  exact ⟨(by intro q e; cases e; exact h), (by intro t e; cases e; exact pkt_now _ h)⟩

theorem reqAdmit (p : Pkt) : Statement (.reqAdmit p) := by
  intro h
  exact ⟨(by intro q e; cases e; exact h), (by intro t e; cases e; exact pkt_now _ h)⟩

theorem reqAppend (p : Pkt) : Statement (.reqAppend p) := by
  intro h
  exact ⟨(by intro q e; cases e; exact h), (by intro t e; cases e; exact pkt_now _ h)⟩

theorem reqHandoffRetarget (p : Pkt) : Statement (.reqHandoffRetarget p) := by
  intro h
  exact ⟨(by intro q e; cases e; exact h), (by intro t e; cases e; exact pkt_now _ h)⟩

theorem reqHandoffTransfer (p : Pkt) : Statement (.reqHandoffTransfer p) := by
  intro h
  exact ⟨(by intro q e; cases e; exact h), (by intro t e; cases e; exact pkt_now _ h)⟩

theorem reqAccept (p : Pkt) : Statement (.reqAccept p) := by
  intro h
  exact ⟨(by intro q e; cases e; exact h), (by intro t e; cases e; exact pkt_now _ h)⟩

theorem reqCancel (p : Pkt) : Statement (.reqCancel p) := by
  intro h
  exact ⟨(by intro q e; cases e; exact h), (by intro t e; cases e; exact pkt_now _ h)⟩

theorem reqQuery (p : Pkt) : Statement (.reqQuery p) := by
  intro h
  exact ⟨(by intro q e; cases e; exact h), (by intro t e; cases e; exact pkt_now _ h)⟩

theorem reqRebuild (p : Pkt) : Statement (.reqRebuild p) := by
  intro h
  exact ⟨(by intro q e; cases e; exact h), (by intro t e; cases e; exact pkt_now _ h)⟩

theorem reqRelease (p : Pkt) : Statement (.reqRelease p) := by
  intro h
  exact ⟨(by intro q e; cases e; exact h), (by intro t e; cases e; exact pkt_now _ h)⟩

theorem reqDraft (p : Pkt) : Statement (.reqDraft p) := by
  intro h
  exact ⟨(by intro q e; cases e; exact h), (by intro t e; cases e; exact pkt_now _ h)⟩

theorem pagePut (p : Pkt) : Statement (.pagePut p) := by
  intro h
  exact ⟨(by intro q e; cases e; exact h), (by intro t e; cases e; exact pkt_now _ h)⟩

theorem pageGet (p : Pkt) : Statement (.pageGet p) := by
  intro h
  exact ⟨(by intro q e; cases e; exact h), (by intro t e; cases e; exact pkt_now _ h)⟩

theorem pageSeal (p : Pkt) : Statement (.pageSeal p) := by
  intro h
  exact ⟨(by intro q e; cases e; exact h), (by intro t e; cases e; exact pkt_now _ h)⟩

theorem pageMirrorCopy (p : Pkt) : Statement (.pageMirrorCopy p) := by
  intro h
  exact ⟨(by intro q e; cases e; exact h), (by intro t e; cases e; exact pkt_now _ h)⟩

theorem pageMirrorClose (p : Pkt) : Statement (.pageMirrorClose p) := by
  intro h
  exact ⟨(by intro q e; cases e; exact h), (by intro t e; cases e; exact pkt_now _ h)⟩

theorem pageMirrorRepair (p : Pkt) : Statement (.pageMirrorRepair p) := by
  intro h
  exact ⟨(by intro q e; cases e; exact h), (by intro t e; cases e; exact pkt_now _ h)⟩

theorem pageMirrorDone (p : Pkt) : Statement (.pageMirrorDone p) := by
  intro h
  exact ⟨(by intro q e; cases e; exact h), (by intro t e; cases e; exact pkt_now _ h)⟩

theorem pageMirrorPartial (p : Pkt) : Statement (.pageMirrorPartial p) := by
  intro h
  exact ⟨(by intro q e; cases e; exact h), (by intro t e; cases e; exact pkt_now _ h)⟩

theorem pageDrop (p : Pkt) : Statement (.pageDrop p) := by
  intro h
  exact ⟨(by intro q e; cases e; exact h), (by intro t e; cases e; exact pkt_now _ h)⟩

theorem pageSwapOut (p : Pkt) : Statement (.pageSwapOut p) := by
  intro h
  exact ⟨(by intro q e; cases e; exact h), (by intro t e; cases e; exact pkt_now _ h)⟩

theorem pageSwapIn (p : Pkt) : Statement (.pageSwapIn p) := by
  intro h
  exact ⟨(by intro q e; cases e; exact h), (by intro t e; cases e; exact pkt_now _ h)⟩

theorem attPartial (p : Pkt) : Statement (.attPartial p) := by
  intro h
  exact ⟨(by intro q e; cases e; exact h), (by intro t e; cases e; exact pkt_now _ h)⟩

theorem attResult (p : Pkt) : Statement (.attResult p) := by
  intro h
  exact ⟨(by intro q e; cases e; exact h), (by intro t e; cases e; exact pkt_now _ h)⟩

theorem tokStreamReceived (p : Pkt) : Statement (.tokStreamReceived p) := by
  intro h
  exact ⟨(by intro q e; cases e; exact h), (by intro t e; cases e; exact pkt_now _ h)⟩

theorem qpCreate (p : Pkt) : Statement (.qpCreate p) := by
  intro h
  exact ⟨(by intro q e; cases e; exact h), (by intro t e; cases e; exact pkt_now _ h)⟩

theorem qpModify (p : Pkt) : Statement (.qpModify p) := by
  intro h
  exact ⟨(by intro q e; cases e; exact h), (by intro t e; cases e; exact pkt_now _ h)⟩

theorem qpDestroy (p : Pkt) : Statement (.qpDestroy p) := by
  intro h
  exact ⟨(by intro q e; cases e; exact h), (by intro t e; cases e; exact pkt_now _ h)⟩

theorem pdCreate (p : Pkt) : Statement (.pdCreate p) := by
  intro h
  exact ⟨(by intro q e; cases e; exact h), (by intro t e; cases e; exact pkt_now _ h)⟩

theorem regionRegister (p : Pkt) : Statement (.regionRegister p) := by
  intro h
  exact ⟨(by intro q e; cases e; exact h), (by intro t e; cases e; exact pkt_now _ h)⟩

theorem regionDeregister (p : Pkt) : Statement (.regionDeregister p) := by
  intro h
  exact ⟨(by intro q e; cases e; exact h), (by intro t e; cases e; exact pkt_now _ h)⟩

theorem recvPost (p : Pkt) : Statement (.recvPost p) := by
  intro h
  exact ⟨(by intro q e; cases e; exact h), (by intro t e; cases e; exact pkt_now _ h)⟩

theorem sendMsg (p : Pkt) : Statement (.sendMsg p) := by
  intro h
  exact ⟨(by intro q e; cases e; exact h), (by intro t e; cases e; exact pkt_now _ h)⟩

theorem memLoad (p : Pkt) : Statement (.memLoad p) := by
  intro h
  exact ⟨(by intro q e; cases e; exact h), (by intro t e; cases e; exact pkt_now _ h)⟩

theorem memStore (p : Pkt) : Statement (.memStore p) := by
  intro h
  exact ⟨(by intro q e; cases e; exact h), (by intro t e; cases e; exact pkt_now _ h)⟩

theorem memAtomic (p : Pkt) : Statement (.memAtomic p) := by
  intro h
  exact ⟨(by intro q e; cases e; exact h), (by intro t e; cases e; exact pkt_now _ h)⟩

theorem memGateway (p : Pkt) : Statement (.memGateway p) := by
  intro h
  exact ⟨(by intro q e; cases e; exact h), (by intro t e; cases e; exact pkt_now _ h)⟩

theorem schShares (p : Pkt) : Statement (.schShares p) := by
  intro h
  exact ⟨(by intro q e; cases e; exact h), (by intro t e; cases e; exact pkt_now _ h)⟩

theorem schShaper (p : Pkt) : Statement (.schShaper p) := by
  intro h
  exact ⟨(by intro q e; cases e; exact h), (by intro t e; cases e; exact pkt_now _ h)⟩

theorem compCreate (p : Pkt) : Statement (.compCreate p) := by
  intro h
  exact ⟨(by intro q e; cases e; exact h), (by intro t e; cases e; exact pkt_now _ h)⟩

theorem compMeter (p : Pkt) : Statement (.compMeter p) := by
  intro h
  exact ⟨(by intro q e; cases e; exact h), (by intro t e; cases e; exact pkt_now _ h)⟩

theorem testSentinel (p : Pkt) : Statement (.testSentinel p) := by
  intro h
  exact ⟨(by intro q e; cases e; exact h), (by intro t e; cases e; exact pkt_now _ h)⟩

theorem testKat (p : Pkt) : Statement (.testKat p) := by
  intro h
  exact ⟨(by intro q e; cases e; exact h), (by intro t e; cases e; exact pkt_now _ h)⟩

theorem errRecordReceived (p : Pkt) : Statement (.errRecordReceived p) := by
  intro h
  exact ⟨(by intro q e; cases e; exact h), (by intro t e; cases e; exact pkt_now _ h)⟩

theorem verifyReplay (p : Pkt) : Statement (.verifyReplay p) := by
  intro h
  exact ⟨(by intro q e; cases e; exact h), (by intro t e; cases e; exact pkt_now _ h)⟩

theorem verifyResult (p : Pkt) : Statement (.verifyResult p) := by
  intro h
  exact ⟨(by intro q e; cases e; exact h), (by intro t e; cases e; exact pkt_now _ h)⟩

theorem evoestHcrcFail (path : Path) (slot : Nat) : Statement (.evoestHcrcFail path slot) := by
  intro h
  exact ⟨(by intro q e; cases e), (by intro t e; cases e)⟩

theorem replyReceived (r : Rep) : Statement (.replyReceived r) := by
  intro h
  exact ⟨(by intro q e; cases e), (by intro t e; cases e; exact rep_now _ h)⟩

theorem responsePacketReceived (qp : Nat) (now : Nat) (name : RespName) (opcode : Nat) (offset : Nat) (last : Bool) (payload : Bytes) : Statement (.responsePacketReceived qp now name opcode offset last payload) := by
  intro h
  simp only [Instr.wf, Bool.and_eq_true] at h
  exact ⟨(by intro q e; cases e), (by intro t e; cases e; exact of_decide_eq_true h.1.1.1.2)⟩

theorem handoffTransferReply (r : Rep) : Statement (.handoffTransferReply r) := by
  intro h
  exact ⟨(by intro q e; cases e), (by intro t e; cases e; exact rep_now _ h)⟩

theorem acceptReply (r : Rep) : Statement (.acceptReply r) := by
  intro h
  exact ⟨(by intro q e; cases e), (by intro t e; cases e; exact rep_now _ h)⟩

theorem pageMoveReply (r : Rep) : Statement (.pageMoveReply r) := by
  intro h
  exact ⟨(by intro q e; cases e), (by intro t e; cases e; exact rep_now _ h)⟩

theorem pageDropReply (r : Rep) : Statement (.pageDropReply r) := by
  intro h
  exact ⟨(by intro q e; cases e), (by intro t e; cases e; exact rep_now _ h)⟩

theorem attPartialStatusReply (r : Rep) : Statement (.attPartialStatusReply r) := by
  intro h
  exact ⟨(by intro q e; cases e), (by intro t e; cases e; exact rep_now _ h)⟩

theorem msaForwardReply (r : Rep) (response : Bytes) : Statement (.msaForwardReply r response) := by
  intro h
  exact ⟨(by intro q e; cases e), (by intro t e; cases e; exact rep_now _ h)⟩

theorem sqDoorbellWrite (fn : Nat) (ring : Nat) (value : Nat) (parityGood : Bool) : Statement (.sqDoorbellWrite fn ring value parityGood) := by
  intro h
  exact ⟨(by intro q e; cases e), (by intro t e; cases e)⟩

theorem sqTailConsume (ring : Nat) (reads : List SqRead) : Statement (.sqTailConsume ring reads) := by
  intro h
  exact ⟨(by intro q e; cases e), (by intro t e; cases e)⟩

theorem cqHeadDoorbellWrite (fn : Nat) (ring : Nat) (value : Nat) : Statement (.cqHeadDoorbellWrite fn ring value) := by
  intro h
  exact ⟨(by intro q e; cases e), (by intro t e; cases e)⟩

theorem cqStallTimeout (ring : Nat) (now : Nat) : Statement (.cqStallTimeout ring now) := by
  intro h
  simp only [Instr.wf, Bool.and_eq_true] at h
  exact ⟨(by intro q e; cases e), (by intro t e; cases e; exact of_decide_eq_true h.2)⟩

theorem cqCoalTimeout (ring : Nat) (now : Nat) : Statement (.cqCoalTimeout ring now) := by
  intro h
  simp only [Instr.wf, Bool.and_eq_true] at h
  exact ⟨(by intro q e; cases e), (by intro t e; cases e; exact of_decide_eq_true h.2)⟩

theorem sqEnable (fn : Nat) (ring : Nat) (value : Nat) : Statement (.sqEnable fn ring value) := by
  intro h
  exact ⟨(by intro q e; cases e), (by intro t e; cases e)⟩

theorem sqDisable (fn : Nat) (ring : Nat) (value : Nat) : Statement (.sqDisable fn ring value) := by
  intro h
  exact ⟨(by intro q e; cases e), (by intro t e; cases e)⟩

theorem cqEnable (fn : Nat) (ring : Nat) (value : Nat) : Statement (.cqEnable fn ring value) := by
  intro h
  exact ⟨(by intro q e; cases e), (by intro t e; cases e)⟩

theorem cqDisable (fn : Nat) (ring : Nat) (value : Nat) : Statement (.cqDisable fn ring value) := by
  intro h
  exact ⟨(by intro q e; cases e), (by intro t e; cases e)⟩

theorem hostwinEnableWrite (n : Nat) (value : Nat) : Statement (.hostwinEnableWrite n value) := by
  intro h
  exact ⟨(by intro q e; cases e), (by intro t e; cases e)⟩

theorem hostwinFieldWrite (offset : Nat) (value : Nat) : Statement (.hostwinFieldWrite offset value) := by
  intro h
  exact ⟨(by intro q e; cases e), (by intro t e; cases e)⟩

theorem manBerthSelWrite (value : Nat) : Statement (.manBerthSelWrite value) := by
  intro h
  exact ⟨(by intro q e; cases e), (by intro t e; cases e)⟩

theorem wthSlotSelWrite (value : Nat) : Statement (.wthSlotSelWrite value) := by
  intro h
  exact ⟨(by intro q e; cases e), (by intro t e; cases e)⟩

theorem qpcSelWrite (value : Nat) : Statement (.qpcSelWrite value) := by
  intro h
  exact ⟨(by intro q e; cases e), (by intro t e; cases e)⟩

theorem schShapeSelWrite (value : Nat) : Statement (.schShapeSelWrite value) := by
  intro h
  exact ⟨(by intro q e; cases e), (by intro t e; cases e)⟩

theorem errLogSelWrite (value : Nat) : Statement (.errLogSelWrite value) := by
  intro h
  exact ⟨(by intro q e; cases e), (by intro t e; cases e)⟩

theorem portRetrainWrite (port : Nat) : Statement (.portRetrainWrite port) := by
  intro h
  exact ⟨(by intro q e; cases e), (by intro t e; cases e)⟩

theorem schHistClear : Statement (.schHistClear ) := by
  intro h
  exact ⟨(by intro q e; cases e), (by intro t e; cases e)⟩

theorem devResetDevice (value : Nat) : Statement (.devResetDevice value) := by
  intro h
  exact ⟨(by intro q e; cases e), (by intro t e; cases e)⟩

theorem devResetCpRestart (value : Nat) : Statement (.devResetCpRestart value) := by
  intro h
  exact ⟨(by intro q e; cases e), (by intro t e; cases e)⟩

theorem devIrqStatusWrite (value : Nat) (eventsNow : Nat) : Statement (.devIrqStatusWrite value eventsNow) := by
  intro h
  exact ⟨(by intro q e; cases e), (by intro t e; cases e)⟩

theorem devIrqEnableWrite (value : Nat) : Statement (.devIrqEnableWrite value) := by
  intro h
  exact ⟨(by intro q e; cases e), (by intro t e; cases e)⟩

theorem mgtMboxGo (opcode : Nat) (p : Pkt) : Statement (.mgtMboxGo opcode p) := by
  intro h
  simp only [Instr.wf, Bool.and_eq_true] at h
  exact ⟨(by intro q e; cases e; exact h.2), (by intro t e; cases e; exact pkt_now _ h.2)⟩

theorem bar4Read (offset : Nat) (len : Nat) (uncorrected : Bool) : Statement (.bar4Read offset len uncorrected) := by
  intro h
  exact ⟨(by intro q e; cases e), (by intro t e; cases e)⟩

theorem bar4Write (offset : Nat) (bytes : List (Option Byte)) : Statement (.bar4Write offset bytes) := by
  intro h
  exact ⟨(by intro q e; cases e), (by intro t e; cases e)⟩

theorem bar0BadAccess (write : Bool) (offset : Nat) (size : Nat) : Statement (.bar0BadAccess write offset size) := by
  intro h
  exact ⟨(by intro q e; cases e), (by intro t e; cases e)⟩

theorem regReservedWrite (fn : Nat) (offset : Nat) (value : Nat) : Statement (.regReservedWrite fn offset value) := by
  intro h
  exact ⟨(by intro q e; cases e), (by intro t e; cases e)⟩

theorem regWrite (fn : Nat) (offset : Nat) (size : Nat) (value : Nat) : Statement (.regWrite fn offset size value) := by
  intro h
  exact ⟨(by intro q e; cases e), (by intro t e; cases e)⟩

theorem reg64LowHalfRead (offset : Nat) : Statement (.reg64LowHalfRead offset) := by
  intro h
  exact ⟨(by intro q e; cases e), (by intro t e; cases e)⟩

theorem seqStepMaxRead : Statement (.seqStepMaxRead ) := by
  intro h
  exact ⟨(by intro q e; cases e), (by intro t e; cases e)⟩

theorem attRttMaxRead : Statement (.attRttMaxRead ) := by
  intro h
  exact ⟨(by intro q e; cases e), (by intro t e; cases e)⟩

theorem qpcFetchMaxRead : Statement (.qpcFetchMaxRead ) := by
  intro h
  exact ⟨(by intro q e; cases e), (by intro t e; cases e)⟩

theorem msaLineMaxRead : Statement (.msaLineMaxRead ) := by
  intro h
  exact ⟨(by intro q e; cases e), (by intro t e; cases e)⟩

theorem functionLevelReset (fn : Nat) (now : Nat) : Statement (.functionLevelReset fn now) := by
  intro h
  simp only [Instr.wf, Bool.and_eq_true] at h
  exact ⟨(by intro q e; cases e), (by intro t e; cases e; exact of_decide_eq_true h.2)⟩

theorem flrComplete (fn : Nat) : Statement (.flrComplete fn) := by
  intro h
  exact ⟨(by intro q e; cases e), (by intro t e; cases e)⟩

theorem vfEnableChange (enable : Bool) (numVfs : Nat) : Statement (.vfEnableChange enable numVfs) := by
  intro h
  exact ⟨(by intro q e; cases e), (by intro t e; cases e)⟩

theorem msixUnmask (fn : Nat) (vector : Nat) : Statement (.msixUnmask fn vector) := by
  intro h
  exact ⟨(by intro q e; cases e), (by intro t e; cases e)⟩

theorem perstAssert (now : Nat) : Statement (.perstAssert now) := by
  intro h
  exact ⟨(by intro q e; cases e), (by intro t e; cases e; exact of_decide_eq_true h)⟩

theorem perstDeassert (flit : Bool) (width : Nat) (speed : Nat) : Statement (.perstDeassert flit width speed) := by
  intro h
  exact ⟨(by intro q e; cases e), (by intro t e; cases e)⟩

theorem pcieHotReset (now : Nat) : Statement (.pcieHotReset now) := by
  intro h
  exact ⟨(by intro q e; cases e), (by intro t e; cases e; exact of_decide_eq_true h)⟩

theorem pcieLinkDown : Statement (.pcieLinkDown ) := by
  intro h
  exact ⟨(by intro q e; cases e), (by intro t e; cases e)⟩

theorem pcieLinkUp (flit : Bool) (width : Nat) (speed : Nat) : Statement (.pcieLinkUp flit width speed) := by
  intro h
  exact ⟨(by intro q e; cases e), (by intro t e; cases e)⟩

theorem i3cEntdaa (address : Nat) : Statement (.i3cEntdaa address) := by
  intro h
  exact ⟨(by intro q e; cases e), (by intro t e; cases e)⟩

theorem mctpControlMessage (body : Bytes) : Statement (.mctpControlMessage body) := by
  intro h
  exact ⟨(by intro q e; cases e), (by intro t e; cases e)⟩

theorem i3cClkStatusRead : Statement (.i3cClkStatusRead ) := by
  intro h
  exact ⟨(by intro q e; cases e), (by intro t e; cases e)⟩

theorem uartRx (bytes : Bytes) : Statement (.uartRx bytes) := by
  intro h
  exact ⟨(by intro q e; cases e), (by intro t e; cases e)⟩

theorem jtagInstruction (instr : JtagInstr) : Statement (.jtagInstruction instr) := by
  intro h
  exact ⟨(by intro q e; cases e), (by intro t e; cases e)⟩

theorem pkgResetRelease (power : PowerOn) : Statement (.pkgResetRelease power) := by
  intro h
  exact ⟨(by intro q e; cases e), (by intro t e; cases e)⟩

theorem pkgResetAssert : Statement (.pkgResetAssert ) := by
  intro h
  exact ⟨(by intro q e; cases e), (by intro t e; cases e)⟩

theorem rootSynthLock (us : Nat) (pufGood : Bool) : Statement (.rootSynthLock us pufGood) := by
  intro h
  exact ⟨(by intro q e; cases e), (by intro t e; cases e)⟩

theorem rootLockTimeout : Statement (.rootLockTimeout ) := by
  intro h
  exact ⟨(by intro q e; cases e), (by intro t e; cases e)⟩

theorem rootLockLoss (now : Nat) : Statement (.rootLockLoss now) := by
  intro h
  exact ⟨(by intro q e; cases e), (by intro t e; cases e; exact of_decide_eq_true h)⟩

theorem ref100Loss (now : Nat) : Statement (.ref100Loss now) := by
  intro h
  exact ⟨(by intro q e; cases e), (by intro t e; cases e; exact of_decide_eq_true h)⟩

theorem memoryTrainingDone (hbmFailed : List Nat) (lpxFailed : List Nat) (cmpTargets : List Nat) : Statement (.memoryTrainingDone hbmFailed lpxFailed cmpTargets) := by
  intro h
  exact ⟨(by intro q e; cases e), (by intro t e; cases e)⟩

theorem katComplete (failed : List (Nat × Nat)) : Statement (.katComplete failed) := by
  intro h
  exact ⟨(by intro q e; cases e), (by intro t e; cases e)⟩

theorem microcodeBroadcastDone (stillDiffer : List Nat) : Statement (.microcodeBroadcastDone stillDiffer) := by
  intro h
  exact ⟨(by intro q e; cases e), (by intro t e; cases e)⟩

theorem portTrainingStepEnd (now : Nat) : Statement (.portTrainingStepEnd now) := by
  intro h
  exact ⟨(by intro q e; cases e), (by intro t e; cases e; exact of_decide_eq_true h)⟩

theorem thermalSample (now : Nat) (celsius : List Nat) (throttleIn : Bool) : Statement (.thermalSample now celsius throttleIn) := by
  intro h
  simp only [Instr.wf, Bool.and_eq_true] at h
  exact ⟨(by intro q e; cases e), (by intro t e; cases e; exact of_decide_eq_true h.1)⟩

theorem powerEstimate (now : Nat) (watts : Nat) (railsMv : List Nat) : Statement (.powerEstimate now watts railsMv) := by
  intro h
  simp only [Instr.wf, Bool.and_eq_true] at h
  exact ⟨(by intro q e; cases e), (by intro t e; cases e; exact of_decide_eq_true h.1.1)⟩

theorem avsAdjust (now : Nat) (stack : Nat) (up : Bool) (acked : Bool) : Statement (.avsAdjust now stack up acked) := by
  intro h
  simp only [Instr.wf, Bool.and_eq_true] at h
  exact ⟨(by intro q e; cases e), (by intro t e; cases e; exact of_decide_eq_true h.1)⟩

theorem thermtrip (now : Nat) (sensor : Nat) : Statement (.thermtrip now sensor) := by
  intro h
  simp only [Instr.wf, Bool.and_eq_true] at h
  exact ⟨(by intro q e; cases e), (by intro t e; cases e; exact of_decide_eq_true h.1)⟩

theorem ioDieFatalError (now : Nat) (die : Nat) : Statement (.ioDieFatalError now die) := by
  intro h
  simp only [Instr.wf, Bool.and_eq_true] at h
  exact ⟨(by intro q e; cases e), (by intro t e; cases e; exact of_decide_eq_true h.1)⟩

theorem portSignalDetect (port : Nat) : Statement (.portSignalDetect port) := by
  intro h
  exact ⟨(by intro q e; cases e), (by intro t e; cases e)⟩

theorem portDetectTimeout (port : Nat) (now : Nat) : Statement (.portDetectTimeout port now) := by
  intro h
  simp only [Instr.wf, Bool.and_eq_true] at h
  exact ⟨(by intro q e; cases e), (by intro t e; cases e; exact of_decide_eq_true h.2)⟩

theorem portLaneLock (port : Nat) (lanes : List Nat) (fast : Bool) : Statement (.portLaneLock port lanes fast) := by
  intro h
  exact ⟨(by intro q e; cases e), (by intro t e; cases e)⟩

theorem portRateFallbackTimeout (port : Nat) (now : Nat) : Statement (.portRateFallbackTimeout port now) := by
  intro h
  simp only [Instr.wf, Bool.and_eq_true] at h
  exact ⟨(by intro q e; cases e), (by intro t e; cases e; exact of_decide_eq_true h.2)⟩

theorem portTrainTimeout (port : Nat) (now : Nat) : Statement (.portTrainTimeout port now) := by
  intro h
  simp only [Instr.wf, Bool.and_eq_true] at h
  exact ⟨(by intro q e; cases e), (by intro t e; cases e; exact of_decide_eq_true h.2)⟩

theorem portNegotiateDone (port : Nat) (now : Nat) (major : Nat) (minor : Nat) (plane : Nat) : Statement (.portNegotiateDone port now major minor plane) := by
  intro h
  simp only [Instr.wf, Bool.and_eq_true] at h
  exact ⟨(by intro q e; cases e), (by intro t e; cases e; exact of_decide_eq_true h.1.1.1.2)⟩

theorem portNegotiateTimeout (port : Nat) (now : Nat) : Statement (.portNegotiateTimeout port now) := by
  intro h
  simp only [Instr.wf, Bool.and_eq_true] at h
  exact ⟨(by intro q e; cases e), (by intro t e; cases e; exact of_decide_eq_true h.2)⟩

theorem laneLossOfLock (port : Nat) (lane : Nat) (now : Nat) : Statement (.laneLossOfLock port lane now) := by
  intro h
  simp only [Instr.wf, Bool.and_eq_true] at h
  exact ⟨(by intro q e; cases e), (by intro t e; cases e; exact of_decide_eq_true h.2)⟩

theorem laneRetrainLock (port : Nat) (lane : Nat) : Statement (.laneRetrainLock port lane) := by
  intro h
  exact ⟨(by intro q e; cases e), (by intro t e; cases e)⟩

theorem keepaliveSend (port : Nat) (now : Nat) : Statement (.keepaliveSend port now) := by
  intro h
  simp only [Instr.wf, Bool.and_eq_true] at h
  exact ⟨(by intro q e; cases e), (by intro t e; cases e; exact of_decide_eq_true h.2)⟩

theorem keepaliveReceived (port : Nat) (now : Nat) (plane : Nat) (txTick : Nat) (echoTick : Nat) (hold : Nat) : Statement (.keepaliveReceived port now plane txTick echoTick hold) := by
  intro h
  simp only [Instr.wf, Bool.and_eq_true] at h
  exact ⟨(by intro q e; cases e), (by intro t e; cases e; exact of_decide_eq_true h.1.1.1.1.2)⟩

theorem keepaliveMiss (port : Nat) (now : Nat) : Statement (.keepaliveMiss port now) := by
  intro h
  simp only [Instr.wf, Bool.and_eq_true] at h
  exact ⟨(by intro q e; cases e), (by intro t e; cases e; exact of_decide_eq_true h.2)⟩

theorem creditReceived (port : Nat) (credits : Nat) : Statement (.creditReceived port credits) := by
  intro h
  exact ⟨(by intro q e; cases e), (by intro t e; cases e)⟩

theorem pauseReceived (port : Nat) (now : Nat) (tcl : Bool) (tcs : Bool) (time : Nat) : Statement (.pauseReceived port now tcl tcs time) := by
  intro h
  simp only [Instr.wf, Bool.and_eq_true] at h
  exact ⟨(by intro q e; cases e), (by intro t e; cases e; exact of_decide_eq_true h.1.2)⟩

theorem pauseExpire (port : Nat) (now : Nat) : Statement (.pauseExpire port now) := by
  intro h
  simp only [Instr.wf, Bool.and_eq_true] at h
  exact ⟨(by intro q e; cases e), (by intro t e; cases e; exact of_decide_eq_true h.2)⟩

theorem frameSendStart (port : Nat) (now : Nat) (tcs : Bool) : Statement (.frameSendStart port now tcs) := by
  intro h
  simp only [Instr.wf, Bool.and_eq_true] at h
  exact ⟨(by intro q e; cases e), (by intro t e; cases e; exact of_decide_eq_true h.2)⟩

theorem linkFrameInvalid (port : Nat) (otherDevice : Bool) : Statement (.linkFrameInvalid port otherDevice) := by
  intro h
  exact ⟨(by intro q e; cases e), (by intro t e; cases e)⟩

theorem tclDataReceived (f : Fab) : Statement (.tclDataReceived f) := by
  intro h
  exact ⟨(by intro q e; cases e), (by intro t e; cases e; exact fab_now _ h)⟩

theorem tcsDataReceived (f : Fab) : Statement (.tcsDataReceived f) := by
  intro h
  exact ⟨(by intro q e; cases e), (by intro t e; cases e; exact fab_now _ h)⟩

theorem ackReceived (qp : Nat) (port : Nat) (psn : Nat) (now : Nat) : Statement (.ackReceived qp port psn now) := by
  intro h
  simp only [Instr.wf, Bool.and_eq_true] at h
  exact ⟨(by intro q e; cases e), (by intro t e; cases e; exact of_decide_eq_true h.2)⟩

theorem nakReceived (qp : Nat) (port : Nat) (psn : Nat) (now : Nat) (code : NakCode) : Statement (.nakReceived qp port psn now code) := by
  intro h
  simp only [Instr.wf, Bool.and_eq_true] at h
  exact ⟨(by intro q e; cases e), (by intro t e; cases e; exact of_decide_eq_true h.2)⟩

theorem sackReceived (qp : Nat) (port : Nat) (msgId : Nat) (base : Nat) (now : Nat) (complete : Bool) (noBuffer : Bool) (bitmap : List Nat) : Statement (.sackReceived qp port msgId base now complete noBuffer bitmap) := by
  intro h
  simp only [Instr.wf, Bool.and_eq_true] at h
  exact ⟨(by intro q e; cases e), (by intro t e; cases e; exact of_decide_eq_true h.1.2)⟩

theorem tclAckTimeout (qp : Nat) (now : Nat) : Statement (.tclAckTimeout qp now) := by
  intro h
  simp only [Instr.wf, Bool.and_eq_true] at h
  exact ⟨(by intro q e; cases e), (by intro t e; cases e; exact of_decide_eq_true h.2)⟩

theorem tclAckDelayExpire (qp : Nat) (now : Nat) : Statement (.tclAckDelayExpire qp now) := by
  intro h
  simp only [Instr.wf, Bool.and_eq_true] at h
  exact ⟨(by intro q e; cases e), (by intro t e; cases e; exact of_decide_eq_true h.2)⟩

theorem tclNoContextResend (qp : Nat) (now : Nat) : Statement (.tclNoContextResend qp now) := by
  intro h
  simp only [Instr.wf, Bool.and_eq_true] at h
  exact ⟨(by intro q e; cases e), (by intro t e; cases e; exact of_decide_eq_true h.2)⟩

theorem tcsRetransmitTimeout (qp : Nat) (msgId : Nat) (pktIdx : Nat) (now : Nat) : Statement (.tcsRetransmitTimeout qp msgId pktIdx now) := by
  intro h
  simp only [Instr.wf, Bool.and_eq_true] at h
  exact ⟨(by intro q e; cases e), (by intro t e; cases e; exact of_decide_eq_true h.2)⟩

theorem tcsSackTimer (qp : Nat) (msgId : Nat) (now : Nat) : Statement (.tcsSackTimer qp msgId now) := by
  intro h
  simp only [Instr.wf, Bool.and_eq_true] at h
  exact ⟨(by intro q e; cases e), (by intro t e; cases e; exact of_decide_eq_true h.2)⟩

theorem tcsAssemblyTimeout (qp : Nat) (msgId : Nat) (now : Nat) : Statement (.tcsAssemblyTimeout qp msgId now) := by
  intro h
  simp only [Instr.wf, Bool.and_eq_true] at h
  exact ⟨(by intro q e; cases e), (by intro t e; cases e; exact of_decide_eq_true h.2)⟩

theorem portExclusionExpire (port : Nat) (dest : Nat) (now : Nat) : Statement (.portExclusionExpire port dest now) := by
  intro h
  simp only [Instr.wf, Bool.and_eq_true] at h
  exact ⟨(by intro q e; cases e), (by intro t e; cases e; exact of_decide_eq_true h.2)⟩

theorem qpcEvictVerified (qp : Nat) : Statement (.qpcEvictVerified qp) := by
  intro h
  exact ⟨(by intro q e; cases e), (by intro t e; cases e)⟩

theorem qpcFetchComplete (qp : Nat) (now : Nat) : Statement (.qpcFetchComplete qp now) := by
  intro h
  simp only [Instr.wf, Bool.and_eq_true] at h
  exact ⟨(by intro q e; cases e), (by intro t e; cases e; exact of_decide_eq_true h.2)⟩

theorem qpcFetchFail (qp : Nat) (now : Nat) : Statement (.qpcFetchFail qp now) := by
  intro h
  simp only [Instr.wf, Bool.and_eq_true] at h
  exact ⟨(by intro q e; cases e), (by intro t e; cases e; exact of_decide_eq_true h.2)⟩

theorem qpcHoldTimeout (qp : Nat) (now : Nat) : Statement (.qpcHoldTimeout qp now) := by
  intro h
  simp only [Instr.wf, Bool.and_eq_true] at h
  exact ⟨(by intro q e; cases e), (by intro t e; cases e; exact of_decide_eq_true h.2)⟩

theorem shaperWheelSlot (now : Nat) : Statement (.shaperWheelSlot now) := by
  intro h
  exact ⟨(by intro q e; cases e), (by intro t e; cases e; exact of_decide_eq_true h)⟩

theorem queueSampleTick (now : Nat) : Statement (.queueSampleTick now) := by
  intro h
  exact ⟨(by intro q e; cases e), (by intro t e; cases e; exact of_decide_eq_true h)⟩

theorem msaLineApply (line : Nat) (now : Nat) : Statement (.msaLineApply line now) := by
  intro h
  simp only [Instr.wf, Bool.and_eq_true] at h
  exact ⟨(by intro q e; cases e), (by intro t e; cases e; exact of_decide_eq_true h.2)⟩

theorem msaOpTimeout (tag : Nat) (now : Nat) : Statement (.msaOpTimeout tag now) := by
  intro h
  simp only [Instr.wf, Bool.and_eq_true] at h
  exact ⟨(by intro q e; cases e), (by intro t e; cases e; exact of_decide_eq_true h.2)⟩

theorem msaGwTimeout (tag : Nat) (now : Nat) : Statement (.msaGwTimeout tag now) := by
  intro h
  simp only [Instr.wf, Bool.and_eq_true] at h
  exact ⟨(by intro q e; cases e), (by intro t e; cases e; exact of_decide_eq_true h.2)⟩

theorem stepStart (now : Nat) : Statement (.stepStart now) := by
  intro h
  exact ⟨(by intro q e; cases e), (by intro t e; cases e; exact of_decide_eq_true h)⟩

theorem stepBoundary (now : Nat) (cycles : Nat) : Statement (.stepBoundary now cycles) := by
  intro h
  simp only [Instr.wf, Bool.and_eq_true] at h
  exact ⟨(by intro q e; cases e), (by intro t e; cases e; exact of_decide_eq_true h.1)⟩

theorem stepOverrun : Statement (.stepOverrun ) := by
  intro h
  exact ⟨(by intro q e; cases e), (by intro t e; cases e)⟩

theorem stepWatchdog (now : Nat) : Statement (.stepWatchdog now) := by
  intro h
  exact ⟨(by intro q e; cases e), (by intro t e; cases e; exact of_decide_eq_true h)⟩

theorem clusterResetComplete (m : Nat) : Statement (.clusterResetComplete m) := by
  intro h
  exact ⟨(by intro q e; cases e), (by intro t e; cases e)⟩

theorem drainWindowEnd (now : Nat) : Statement (.drainWindowEnd now) := by
  intro h
  exact ⟨(by intro q e; cases e), (by intro t e; cases e; exact of_decide_eq_true h)⟩

theorem loadTile (m : Nat) (cyc : Nat) : Statement (.loadTile m cyc) := by
  intro h
  exact ⟨(by intro q e; cases e), (by intro t e; cases e)⟩

theorem expandTile (m : Nat) (cyc : Nat) : Statement (.expandTile m cyc) := by
  intro h
  exact ⟨(by intro q e; cases e), (by intro t e; cases e)⟩

theorem mma (m : Nat) (cyc : Nat) : Statement (.mma m cyc) := by
  intro h
  exact ⟨(by intro q e; cases e), (by intro t e; cases e)⟩

theorem vec (m : Nat) (cyc : Nat) : Statement (.vec m cyc) := by
  intro h
  exact ⟨(by intro q e; cases e), (by intro t e; cases e)⟩

theorem sampleEntry (m : Nat) (cyc : Nat) : Statement (.sampleEntry m cyc) := by
  intro h
  exact ⟨(by intro q e; cases e), (by intro t e; cases e)⟩

theorem sendEntry (m : Nat) (cyc : Nat) (now : Nat) : Statement (.sendEntry m cyc now) := by
  intro h
  simp only [Instr.wf, Bool.and_eq_true] at h
  exact ⟨(by intro q e; cases e), (by intro t e; cases e; exact of_decide_eq_true h.2)⟩

theorem waitEntry (m : Nat) (cyc : Nat) : Statement (.waitEntry m cyc) := by
  intro h
  exact ⟨(by intro q e; cases e), (by intro t e; cases e)⟩

theorem signalEntry (m : Nat) (cyc : Nat) : Statement (.signalEntry m cyc) := by
  intro h
  exact ⟨(by intro q e; cases e), (by intro t e; cases e)⟩

theorem signalDelivered (target : Nat) (flag : Nat) (cyc : Nat) : Statement (.signalDelivered target flag cyc) := by
  intro h
  exact ⟨(by intro q e; cases e), (by intro t e; cases e)⟩

theorem barrierEntry (m : Nat) (cyc : Nat) : Statement (.barrierEntry m cyc) := by
  intro h
  exact ⟨(by intro q e; cases e), (by intro t e; cases e)⟩

theorem sentinelEntry (m : Nat) (cyc : Nat) : Statement (.sentinelEntry m cyc) := by
  intro h
  exact ⟨(by intro q e; cases e), (by intro t e; cases e)⟩

theorem endEntry (m : Nat) (cyc : Nat) : Statement (.endEntry m cyc) := by
  intro h
  exact ⟨(by intro q e; cases e), (by intro t e; cases e)⟩

theorem entryDeadline (m : Nat) (cyc : Nat) (delivered : Bool) (onCycle : Bool) : Statement (.entryDeadline m cyc delivered onCycle) := by
  intro h
  exact ⟨(by intro q e; cases e), (by intro t e; cases e)⟩

theorem hostArrivalComplete (slot : Nat) : Statement (.hostArrivalComplete slot) := by
  intro h
  exact ⟨(by intro q e; cases e), (by intro t e; cases e)⟩

theorem stagerTileStart (m : Nat) : Statement (.stagerTileStart m) := by
  intro h
  exact ⟨(by intro q e; cases e), (by intro t e; cases e)⟩

theorem stagingComplete (c : ClusterCycle) : Statement (.stagingComplete c) := by
  intro h
  exact ⟨(by intro q e; cases e), (by intro t e; cases e)⟩

theorem directPathComplete (c : ClusterCycle) : Statement (.directPathComplete c) := by
  intro h
  exact ⟨(by intro q e; cases e), (by intro t e; cases e)⟩

theorem expanderBlockDone (c : ClusterCycle) : Statement (.expanderBlockDone c) := by
  intro h
  exact ⟨(by intro q e; cases e), (by intro t e; cases e)⟩

theorem compressorObjectReady (region : Nat) : Statement (.compressorObjectReady region) := by
  intro h
  exact ⟨(by intro q e; cases e), (by intro t e; cases e)⟩

theorem coreUncorrectedError (now : Nat) (cyc : Nat) (slots : List Nat) : Statement (.coreUncorrectedError now cyc slots) := by
  intro h
  simp only [Instr.wf, Bool.and_eq_true] at h
  exact ⟨(by intro q e; cases e), (by intro t e; cases e; exact of_decide_eq_true h.1.1)⟩

theorem coreCorrectedError (slot : Nat) (now : Nat) : Statement (.coreCorrectedError slot now) := by
  intro h
  simp only [Instr.wf, Bool.and_eq_true] at h
  exact ⟨(by intro q e; cases e), (by intro t e; cases e; exact of_decide_eq_true h.2)⟩

theorem spareLoadComplete (m : Nat) (now : Nat) (checksumMatches : Bool) : Statement (.spareLoadComplete m now checksumMatches) := by
  intro h
  simp only [Instr.wf, Bool.and_eq_true] at h
  exact ⟨(by intro q e; cases e), (by intro t e; cases e; exact of_decide_eq_true h.2)⟩

theorem sentinelTestEnd (slot : Nat) (now : Nat) (passed : Bool) : Statement (.sentinelTestEnd slot now passed) := by
  intro h
  simp only [Instr.wf, Bool.and_eq_true] at h
  exact ⟨(by intro q e; cases e), (by intro t e; cases e; exact of_decide_eq_true h.2)⟩

theorem clusterUe (m : Nat) (now : Nat) (part : ClusterPart) : Statement (.clusterUe m now part) := by
  intro h
  simp only [Instr.wf, Bool.and_eq_true] at h
  exact ⟨(by intro q e; cases e), (by intro t e; cases e; exact of_decide_eq_true h.2)⟩

theorem lighterUe (region : Nat) (now : Nat) : Statement (.lighterUe region now) := by
  intro h
  simp only [Instr.wf, Bool.and_eq_true] at h
  exact ⟨(by intro q e; cases e), (by intro t e; cases e; exact of_decide_eq_true h.2)⟩

theorem compressorUe (region : Nat) (now : Nat) : Statement (.compressorUe region now) := by
  intro h
  simp only [Instr.wf, Bool.and_eq_true] at h
  exact ⟨(by intro q e; cases e), (by intro t e; cases e; exact of_decide_eq_true h.2)⟩

theorem regionStopFail (region : Nat) (now : Nat) : Statement (.regionStopFail region now) := by
  intro h
  simp only [Instr.wf, Bool.and_eq_true] at h
  exact ⟨(by intro q e; cases e), (by intro t e; cases e; exact of_decide_eq_true h.2)⟩

theorem dieStackFence (stack : Nat) (now : Nat) (cause : StackCause) : Statement (.dieStackFence stack now cause) := by
  intro h
  simp only [Instr.wf, Bool.and_eq_true] at h
  exact ⟨(by intro q e; cases e), (by intro t e; cases e; exact of_decide_eq_true h.2)⟩

theorem hbmCorrectedError (stack : Nat) (dpa : Nat) (now : Nat) : Statement (.hbmCorrectedError stack dpa now) := by
  intro h
  simp only [Instr.wf, Bool.and_eq_true] at h
  exact ⟨(by intro q e; cases e), (by intro t e; cases e; exact of_decide_eq_true h.2)⟩

theorem hbmRowCopyDone (dpa : Nat) (now : Nat) : Statement (.hbmRowCopyDone dpa now) := by
  intro h
  simp only [Instr.wf, Bool.and_eq_true] at h
  exact ⟨(by intro q e; cases e), (by intro t e; cases e; exact of_decide_eq_true h.2)⟩

theorem objectMoveComplete (object : MovedObject) (now : Nat) (verified : Bool) : Statement (.objectMoveComplete object now verified) := by
  intro h
  simp only [Instr.wf, Bool.and_eq_true] at h
  exact ⟨(by intro q e; cases e), (by intro t e; cases e; exact of_decide_eq_true h.2)⟩

theorem memoryUe (now : Nat) (dpa : Nat) (lpx : Bool) (obj : DamagedObject) : Statement (.memoryUe now dpa lpx obj) := by
  intro h
  simp only [Instr.wf, Bool.and_eq_true] at h
  exact ⟨(by intro q e; cases e), (by intro t e; cases e; exact of_decide_eq_true h.1.1)⟩

theorem lpxCorrectedError (device : Nat) (dpa : Nat) (now : Nat) : Statement (.lpxCorrectedError device dpa now) := by
  intro h
  simp only [Instr.wf, Bool.and_eq_true] at h
  exact ⟨(by intro q e; cases e), (by intro t e; cases e; exact of_decide_eq_true h.2)⟩

theorem sramCorrectedError (slice : Bool) (unit : Nat) (address : Nat) (now : Nat) : Statement (.sramCorrectedError slice unit address now) := by
  intro h
  simp only [Instr.wf, Bool.and_eq_true] at h
  exact ⟨(by intro q e; cases e), (by intro t e; cases e; exact of_decide_eq_true h.2)⟩

theorem sramUe (now : Nat) (address : Nat) (owner : SramOwner) : Statement (.sramUe now address owner) := by
  intro h
  simp only [Instr.wf, Bool.and_eq_true] at h
  exact ⟨(by intro q e; cases e), (by intro t e; cases e; exact of_decide_eq_true h.1.1)⟩

theorem fifoParityError (place : FifoPlace) (index : Nat) (now : Nat) : Statement (.fifoParityError place index now) := by
  intro h
  simp only [Instr.wf, Bool.and_eq_true] at h
  exact ⟨(by intro q e; cases e), (by intro t e; cases e; exact of_decide_eq_true h.2)⟩

theorem fifoOverrun (place : FifoPlace) (index : Nat) (now : Nat) : Statement (.fifoOverrun place index now) := by
  intro h
  simp only [Instr.wf, Bool.and_eq_true] at h
  exact ⟨(by intro q e; cases e), (by intro t e; cases e; exact of_decide_eq_true h.2)⟩

theorem cpWatchdogExpire (cp : Nat) (now : Nat) : Statement (.cpWatchdogExpire cp now) := by
  intro h
  simp only [Instr.wf, Bool.and_eq_true] at h
  exact ⟨(by intro q e; cases e), (by intro t e; cases e; exact of_decide_eq_true h.2)⟩

theorem cpRestartComplete (now : Nat) : Statement (.cpRestartComplete now) := by
  intro h
  exact ⟨(by intro q e; cases e), (by intro t e; cases e; exact of_decide_eq_true h)⟩

theorem mgtWatchdogExpire (now : Nat) : Statement (.mgtWatchdogExpire now) := by
  intro h
  exact ⟨(by intro q e; cases e), (by intro t e; cases e; exact of_decide_eq_true h)⟩

theorem mgtRestartComplete (now : Nat) : Statement (.mgtRestartComplete now) := by
  intro h
  exact ⟨(by intro q e; cases e), (by intro t e; cases e; exact of_decide_eq_true h)⟩

theorem replayRoundTimeout (stepSeq : Nat) (now : Nat) : Statement (.replayRoundTimeout stepSeq now) := by
  intro h
  simp only [Instr.wf, Bool.and_eq_true] at h
  exact ⟨(by intro q e; cases e), (by intro t e; cases e; exact of_decide_eq_true h.2)⟩

theorem replayPartsTimeout (qp : Nat) (stepSeq : Nat) (now : Nat) : Statement (.replayPartsTimeout qp stepSeq now) := by
  intro h
  simp only [Instr.wf, Bool.and_eq_true] at h
  exact ⟨(by intro q e; cases e), (by intro t e; cases e; exact of_decide_eq_true h.2)⟩

theorem pageMoveTimeout (move : Nat) (now : Nat) : Statement (.pageMoveTimeout move now) := by
  intro h
  simp only [Instr.wf, Bool.and_eq_true] at h
  exact ⟨(by intro q e; cases e), (by intro t e; cases e; exact of_decide_eq_true h.2)⟩

theorem pageMoveRetry (move : Nat) (now : Nat) : Statement (.pageMoveRetry move now) := by
  intro h
  simp only [Instr.wf, Bool.and_eq_true] at h
  exact ⟨(by intro q e; cases e), (by intro t e; cases e; exact of_decide_eq_true h.2)⟩

theorem pageDropRetry (drop : Nat) (now : Nat) : Statement (.pageDropRetry drop now) := by
  intro h
  simp only [Instr.wf, Bool.and_eq_true] at h
  exact ⟨(by intro q e; cases e), (by intro t e; cases e; exact of_decide_eq_true h.2)⟩

theorem arrivingFrameTimeout (frame : Nat) (now : Nat) : Statement (.arrivingFrameTimeout frame now) := by
  intro h
  simp only [Instr.wf, Bool.and_eq_true] at h
  exact ⟨(by intro q e; cases e), (by intro t e; cases e; exact of_decide_eq_true h.2)⟩

theorem demotionVerified (frame : Nat) (now : Nat) (verified : Bool) : Statement (.demotionVerified frame now verified) := by
  intro h
  simp only [Instr.wf, Bool.and_eq_true] at h
  exact ⟨(by intro q e; cases e), (by intro t e; cases e; exact of_decide_eq_true h.2)⟩

theorem swapOutVerified (berth : Nat) (now : Nat) (verified : Bool) : Statement (.swapOutVerified berth now verified) := by
  intro h
  simp only [Instr.wf, Bool.and_eq_true] at h
  exact ⟨(by intro q e; cases e), (by intro t e; cases e; exact of_decide_eq_true h.2)⟩

theorem swapInComplete (berth : Nat) (now : Nat) (read : SnapRead) : Statement (.swapInComplete berth now read) := by
  intro h
  simp only [Instr.wf, Bool.and_eq_true] at h
  exact ⟨(by intro q e; cases e), (by intro t e; cases e; exact of_decide_eq_true h.2)⟩

theorem handoffTimeout (berth : Nat) (now : Nat) : Statement (.handoffTimeout berth now) := by
  intro h
  simp only [Instr.wf, Bool.and_eq_true] at h
  exact ⟨(by intro q e; cases e), (by intro t e; cases e; exact of_decide_eq_true h.2)⟩

theorem awaitConfirmTimeout (berth : Nat) (now : Nat) : Statement (.awaitConfirmTimeout berth now) := by
  intro h
  simp only [Instr.wf, Bool.and_eq_true] at h
  exact ⟨(by intro q e; cases e), (by intro t e; cases e; exact of_decide_eq_true h.2)⟩

theorem reservedBerthTimeout (berth : Nat) (now : Nat) : Statement (.reservedBerthTimeout berth now) := by
  intro h
  simp only [Instr.wf, Bool.and_eq_true] at h
  exact ⟨(by intro q e; cases e), (by intro t e; cases e; exact of_decide_eq_true h.2)⟩

theorem promotionVerified (slot : Nat) (verified : Bool) : Statement (.promotionVerified slot verified) := by
  intro h
  exact ⟨(by intro q e; cases e), (by intro t e; cases e)⟩

theorem attExchangeTimeout (tag : Nat) (now : Nat) : Statement (.attExchangeTimeout tag now) := by
  intro h
  simp only [Instr.wf, Bool.and_eq_true] at h
  exact ⟨(by intro q e; cases e), (by intro t e; cases e; exact of_decide_eq_true h.2)⟩

theorem attServiceComplete (service : Nat) (now : Nat) (poisoned : List Nat) : Statement (.attServiceComplete service now poisoned) := by
  intro h
  simp only [Instr.wf, Bool.and_eq_true] at h
  exact ⟨(by intro q e; cases e), (by intro t e; cases e; exact of_decide_eq_true h.1.2)⟩

theorem flashWriteComplete (now : Nat) (verified : Bool) : Statement (.flashWriteComplete now verified) := by
  intro h
  exact ⟨(by intro q e; cases e), (by intro t e; cases e; exact of_decide_eq_true h)⟩

theorem bottomTreeGenerated (now : Nat) : Statement (.bottomTreeGenerated now) := by
  intro h
  exact ⟨(by intro q e; cases e), (by intro t e; cases e; exact of_decide_eq_true h)⟩

theorem telemetryTick (now : Nat) : Statement (.telemetryTick now) := by
  intro h
  exact ⟨(by intro q e; cases e), (by intro t e; cases e; exact of_decide_eq_true h)⟩

theorem flashScrubTick (now : Nat) : Statement (.flashScrubTick now) := by
  intro h
  exact ⟨(by intro q e; cases e), (by intro t e; cases e; exact of_decide_eq_true h)⟩

theorem meterPageMsTick (now : Nat) : Statement (.meterPageMsTick now) := by
  intro h
  exact ⟨(by intro q e; cases e), (by intro t e; cases e; exact of_decide_eq_true h)⟩

theorem errStatusRead : Statement (.errStatusRead ) := by
  intro h
  exact ⟨(by intro q e; cases e), (by intro t e; cases e)⟩

theorem icmpv6EchoRequest (src : Nat) (dst : Bytes) (body : Bytes) : Statement (.icmpv6EchoRequest src dst body) := by
  intro h
  exact ⟨(by intro q e; cases e), (by intro t e; cases e)⟩

theorem neighbourDiscoveryMessage (src : Nat) (target : Bytes) (body : Bytes) : Statement (.neighbourDiscoveryMessage src target body) := by
  intro h
  exact ⟨(by intro q e; cases e), (by intro t e; cases e)⟩

theorem traceTrigInput (pin : Nat) (rising : Bool) : Statement (.traceTrigInput pin rising) := by
  intro h
  exact ⟨(by intro q e; cases e), (by intro t e; cases e)⟩

end Sys2Proof.Laws.Wf
end

