-- ==== Sys2Proof/Laws/Receive.lean ====
section
/-! SUPPORT. What the reception of a packet does, once and for all: an accepted packet's own effect starts from `taken`. -/

namespace Sys2Proof.Machine

theorem endDiscards_dev (p : Pkt) (s : State) : (endDiscards p s).dev = s.dev := rfl

theorem meterRx_dev (p : Pkt) (s : State) : (meterRx p s).dev = s.dev := by
  unfold meterRx
  split <;> rfl

/-- The liveness of the device is a matter of bring-up alone. -/
theorem alive_of_dev {s t : State} (h : t.dev = s.dev) : alive t = alive s := by
  unfold alive
  rw [h]

/-- An accepted packet takes its own effect. -/
theorem receiveWith_accepted {chk : State → OpRow → Pkt → Option (Nat × Nat)} {r : OpRow} {p : Pkt} {s : State} (act : State → State)
    (h : AcceptedBy chk r s p) : receiveWith chk r p act s = act (taken r p s) := by
  have a : alive (atTick p.now s) = true := (alive_of_dev (rfl : (atTick p.now s).dev = s.dev)).trans h.alive
  have b : ((atTick p.now s).err.restarting && !passesRestart r.code p) = false := by
    show (s.err.restarting && !passesRestart r.code p) = false
    rcases h.serves with e | e <;> simp [e]
  unfold receiveWith
  have c := h.fresh
  have d := h.checks
  have e := h.alone
  unfold arrived at c d e
  simp only [a, b, c, d, e, h.command]
  rfl

theorem receive_accepted {r : OpRow} {p : Pkt} {s : State} (act : State → State) (h : Accepted r s p) :
    receive r p act s = act (taken r p s) := receiveWith_accepted act h

end Sys2Proof.Machine
end

