-- ==== Sys2Proof/Tests/Slice0.lean ====
section
/-! SUPPORT. Tests: for each statement with hypotheses a state and operands that meet them (theorems witness_…, one conjunct for each
clause, or for several clauses over one state), the worked examples of the spec, and an ill-formed term for each check of WellFormed. -/

open Sys2Proof Sys2Proof.Machine
namespace Sys2Proof.Tests

/-! ## Small states that the witnesses build on -/

/-- A running device of personality G, every capability granted, with one composition in the map. -/
def live : State :=
  { dev := { held := false, phase := 11, ready := true, personality := 2, deviceId := 0x52, grants := 0x3F },
    sched := { epoch := 1, map := [(0, 1)] } }

/-- The same device with personality P, and with personality C. -/
def liveP : State := { live with dev := { live.dev with personality := 1 } }
def liveC : State := { live with dev := { live.dev with personality := 3 } }

/-- A whole command on host ring 0, with MANIFEST_ID, parameters and payload. -/
def cmd (mid p0 p1 p2 p3 : Nat) (b : Bytes) : Pkt :=
  { path := .ring 0, now := 5, format := 3, minor := 2, flagsRsvd := 0, resp := false, noReply := false, last := true,
    tag := 7, mid := mid, epoch := 1, pd := 0, offset := 0, p0 := p0, p1 := p1, p2 := p2, p3 := p3, slack := 0, seq := 9,
    rsvd := 0, payload := b, crcOk := true }

/-- The same on queue pair `qp`, from device `d` over port 0. -/
def cmdOn (qp d mid p0 p1 p2 p3 : Nat) (b : Bytes) : Pkt := { cmd mid p0 p1 p2 p3 b with path := .fabric qp d 0 }

/-- A final reply with a TAG and a status. -/
def rep (tag status : Nat) : Rep :=
  { qp := 4, now := 5, tag := tag, opcode := 0, mid := 0xFFFFFFFF, status := status, detail := 0, result := 0, seq := 0, final := true, rcrcOk := true }

/-- A negotiated queue pair in RTS to device 0x53. -/
def pair : Qp := { state := 2, peerDev := 0x53, peerQp := 9, evoest := 0x302 }

/-- `live` with a queue pair at number 4. -/
def withQp (q : Qp) (s : State) : State := { s with fab := { s.fab with qps := [(4, q)] } }

/-- What `AcceptedBy` says, computed. -/
def takes (chk : State → OpRow → Pkt → Option (Nat × Nat)) (r : OpRow) (s : State) (p : Pkt) : Bool :=
  alive s && (!s.err.restarting || passesRestart r.code p) && !discarding (arrived p s) r.code p && !p.resp &&
    decide (chk (arrived p s) r p = none) && !tagClash (arrived p s) r.code p

theorem taking {chk : State → OpRow → Pkt → Option (Nat × Nat)} {r : OpRow} {s : State} {p : Pkt} (h : takes chk r s p = true) :
    AcceptedBy chk r s p := by
  unfold takes at h
  simp only [Bool.and_eq_true, Bool.or_eq_true, Bool.not_eq_true', decide_eq_true_eq] at h
  obtain ⟨⟨⟨⟨⟨a, b⟩, c⟩, d⟩, e⟩, f⟩ := h
  exact ⟨a, b, c, d, e, f⟩

/-- A batch descriptor of composition 0 for program 1 with the given slots. -/
def batch (l : List SlotRec) : Batch :=
  { stepSeq := 1, programId := 1, steps := 1, bucket := 0, liveRows := 0, tokenRows := 0, comp := 0, setSlot := 0, rows := [], slots := l,
    withies := [], fwd := [], inv := [], bind := [], alpha := [] }

/-- A run of that batch. -/
def runOf (l : List SlotRec) : Run :=
  { batch := batch l, step := 0, held := [], heldNow := [], pass := [], passNow := [], readNow := [], samples := [], lost := [],
    suspectNow := false, drift := none, suspects := [], allSuspect := false, losses := 0, wdogOnce := false, poisons := 0,
    replay := false, ended := false, minTag := 0 }

/-- A table-set image whose program 1 has one variant, with the entries given. -/
def table (l : List Bytes) : Bytes :=
  zeros 16 ++ toLe 2 1 ++ zeros 2 ++ toLe 4 32 ++ zeros 8 ++
    (toLe 2 1 ++ zeros 2 ++ toLe 4 1 ++ toLe 8 48) ++
    (zeros 2 ++ toLe 2 (l.length - 1) ++ toLe 4 15 ++ zeros 4 ++ toLe 4 2) ++ l.flatten

/-- The step that the engine runs: that of composition 0's run. -/
def stepOf0 : StepRun := { what := .run 0, stepSeq := 1, since := 0, comp := 0, plan := 0, overrun := false }

/-- One cluster with one core that runs a step of a run, its sequencer at the first of the entries. -/
def running (l : List Bytes) (sl : List SlotRec) (c : Cluster) : State :=
  { live with
    core := { slots := [(0, { state := 1, lid := some 0 })], clusters := [(0, { c with present := true })] },
    tier := { slots := [{ state := 3, setId := 1, image := table l, stakeId := 1 }] },
    eng := { runs := [(0, runOf sl)], step := some stepOf0 } }

/-- Ring 0 with both its rings active and size 256, a tail waiting. -/
def ringsOn : State :=
  { live with sq := [(0, { state := 1, tail := 2, fifo := [(2, true)] })], cq := [(0, { state := 1 })], tick := 100 }
theorem witness_StepKeepsGood :
    (Good State.reset ∧ step State.reset = .next (atTick 1 State.reset)) := by
  refine (⟨⟨rfl, rfl, ⟨by decide, by decide⟩, by decide, by decide, by decide⟩, rfl⟩)

theorem witness_ExecLeavesQueue :
    (exec .pkgResetAssert State.reset = .next (pkgResetAssertFx State.reset)) := by
  refine (rfl)

theorem witness_EmptyQueueIdles :
    (live.pending = []) := by
  refine ?_
  decide

theorem witness_StreamAndRecordPacketsAreDiscarded :
    (alive live = true ∧ live.err.restarting = false ∧ (cmd 0 0 0 0 0 []).resp = false ∧ discarding (arrived (cmd 0 0 0 0 0 []) live) 0x40 (cmd 0 0 0 0 0 []) = false) ∧
    (discarding (arrived (cmd 0 0 0 0 0 []) live) 0x68 (cmd 0 0 0 0 0 []) = false) := by
  refine ⟨?_, ?_⟩ <;> decide

theorem witness_RingsAreEnabledAndDisabled :
    (windowHeard live 0 0 = true ∧ bit (regGet live (CMD_SQ_CTRL 0)) 31 = false ∧ (sqRing live 0).state = 0) ∧
    (windowHeard live 0 1023 = true ∧ bit (regGet live (CMD_CQ_CTRL 1023)) 31 = false ∧ (cqRing live 1023).state = 0 ∧ (0 = 0 ∨ bits (setBits 0 31 31 1) 21 11 ≤ 63)) := by
  refine ⟨?_, ?_⟩ <;> decide

theorem witness_DoorbellsAreHeard :
    (windowHeard ringsOn 0 0 = true ∧ (sqRing ringsOn 0).state ≠ 0 ∧ (sqRing ringsOn 0).fifo.length < 32 ∧ 255 < sqSlots ringsOn 0 ∧ 255 ≠ (sqRing ringsOn 0).tail) ∧
    (alive ringsOn = true ∧ ringsOn.err.restarting = false ∧ (sqRing ringsOn 0).state = 1 ∧ (sqRing ringsOn 0).fifo = (2, true) :: [] ∧
     (0x50 ≤ 0x52 → 0x52 ≤ 0x52 → ringsOn.msa.fwd.length < 4096) ∧ (cqRing ringsOn (sqCq ringsOn 0)).held = [] ∧
     2 ≤ (2 + sqSlots ringsOn 0 - (sqRing ringsOn 0).head) % sqSlots ringsOn 0) ∧
    ((cqRing ringsOn 0).state = 1 ∧ (cqRing ringsOn 0).held = []) := by
  refine ⟨?_, ?_, ?_⟩ <;> decide

/-- A completion ring that holds an entry and is coalescing. -/
def cqWaits : State := regPut (CMD_CQ_COAL 0) 1 { live with cq := [(0, { state := 1, held := [⟨[], 0⟩], coal := 1 })], sq := [(0, { state := 1 })] }
theorem witness_RingTimesAndHeaderChecks :
    (alive cqWaits = true ∧ (cqRing cqWaits 0).held = ⟨[], 0⟩ :: [] ∧ (cqRing cqWaits 0).stalled = false ∧
     0 + msTicks (regField cqWaits CMD_CQ_STALL_TMO 13 0) ≤ max cqWaits.tick (msTicks (regField cqWaits CMD_CQ_STALL_TMO 13 0))) ∧
    ((cqRing cqWaits 0).coal ≠ 0 ∧ regField cqWaits (CMD_CQ_COAL 0) 15 0 ≠ 0 ∧ (cqRing cqWaits 0).coalSince + usTicks (regField cqWaits (CMD_CQ_COAL 0) 15 0) ≤ max cqWaits.tick 100) ∧
    (Path.i3c ≠ .ring 0 ∧ (sqRing cqWaits 0).state = 1) := by
  refine ⟨?_, ?_, ?_⟩ <;> decide

/-- An exchange with device 0x53 for pages 0 and 1. -/
def exch : Exchange :=
  { berth := 0, mid := 0, comp := 0, stepSeq := 1, cluster := 0, slot := 0, msg := zeros 64, state := [], tag := 7, first := 0, count := 0, last := 0,
    holder := 0x53, qp := 4, core := 0, group := 0, seg := 0, sentAt := some 0 }
/-- `live` with that exchange outstanding. -/
def exchOut : State := { withQp pair live with eng := { exch := [(7, exch)], groups := [(0, ⟨1, []⟩)] } }
/-- A SEND to batch slot 0, HELD, and a cluster whose sequencer stands at it. -/
def sendEnt : Bytes := toLe 1 5 ++ zeros 15 ++ toLe 8 (0xF000 * 2 ^ 48) ++ zeros 8
def heldSlot : SlotRec := ⟨1, 0, 0, 0, 0, 0⟩
def atSend : State := running [sendEnt] [heldSlot] {}
/-- The ATT.RESULT that ends the exchange. -/
def attAnswer : Pkt := cmdOn 4 0x53 0 0 0 0 0 (resultHead (zeros 8 ++ toLe 4 1 ++ zeros 52) stOk 0xFFFFFFFF)
theorem witness_AttentionSenderRuns :
    (entryOf (atTick 5 atSend) 0 opSend = some sendEnt ∧ loadsCome (atTick 5 atSend) 0 sendEnt = true ∧ curRun (atTick 5 atSend) = some (runOf [heldSlot]) ∧ (atTick 5 atSend).eng.step = some stepOf0 ∧
     (slotRec (runOf [heldSlot]).batch (refHandle (sendDest sendEnt) - 0xF000)).kind = 1 ∧ sendCode sendEnt = false) ∧
    (Accepted rowAttResult exchOut attAnswer ∧
      paramsZero attAnswer false false false false = true ∧ tabGet (taken rowAttResult attAnswer exchOut).eng.exch attAnswer.tag = some exch ∧
     exch.qp ≠ 2 ^ 20 ∧ resultOk exch attAnswer = true ∧ arStatus attAnswer.payload = stOk ∧ exch.last ≤ exch.first + exch.count ∧
     tabGet (taken rowAttResult attAnswer exchOut).eng.groups exch.group ≠ none) ∧
    (alive exchOut = true ∧ (rep 7 stPending).rcrcOk = true ∧ (rep 7 stPending).status = stPending ∧ tabGet exchOut.eng.exch (rep 7 stPending).tag = some exch ∧
     staleAnswer exchOut (rep 7 stPending).opcode (rep 7 stPending).mid = false) ∧
    (exch.sentAt ≠ none ∧ usTicks (regField exchOut ATT_TMO 13 0) ≤ exchangeAge (atTick (usTicks (regField exchOut ATT_TMO 13 0)) exchOut) exch ∧
     resultArrives (atTick (usTicks (regField exchOut ATT_TMO 13 0)) exchOut) 7 = false ∧ replyArrives (atTick (usTicks (regField exchOut ATT_TMO 13 0)) exchOut) 7 = false) := by
  refine ⟨?_, ⟨taking ?_, ?_⟩, ?_, ?_⟩ <;> decide

/-- A service of an ATT.PARTIAL that reads no page. -/
def serving : State := { live with eng := { folds := [(0, ⟨cmd 0 0 0 0 0 [], []⟩)] } }
def partialMsg : Bytes :=
  zeros 14 ++ toLe 2 1 ++ toLe 1 1 ++ toLe 1 1 ++ toLe 2 64 ++ toLe 4 0x3F800000 ++ zeros 4 ++ toLe 4 1 ++ zeros 32 ++ toLe 4 1024 ++ zeros 66
set_option maxRecDepth 8192 in
theorem witness_AttentionIsServed :
    (Accepted rowAttPartial liveC (cmd 0 0 0 0 0 partialMsg) ∧
      paramsZero (cmd 0 0 0 0 0 partialMsg) false false false false = true ∧ partialOk partialMsg = true) ∧
    (alive serving = true ∧ tabGet serving.eng.folds 0 = some ⟨cmd 0 0 0 0 0 [], []⟩ ∧ servedBad (atTick 5 serving) ⟨cmd 0 0 0 0 0 [], []⟩ [] = none ∧
     servedReads serving ⟨cmd 0 0 0 0 0 [], []⟩ = [] ∧ foldNan (escIgnore serving) [] (servedPages (atTick 5 serving) ⟨cmd 0 0 0 0 0 [], []⟩) = false) ∧
    (readable live = true) := by
  refine ⟨⟨taking ?_, ?_⟩, ?_, ?_⟩ <;> decide

/-- `live` with the restart's conditions met or a restart in progress. -/
def cpDown : State := { live with err := { restarting := true } }
theorem witness_DeviceResetLeaves :
    (readable live = true ∧ bits (0x0840 * 2 ^ 16 + 2) 31 16 = 0x0840 ∧ bit (0x0840 * 2 ^ 16 + 2) 1 = true) ∧
    (Accepted rowRestart live (cmd 0 1 0 0 0 []) ∧
      (cmd 0 1 0 0 0 []).p0 = 1 ∧ (cmd 0 1 0 0 0 []).p1 = 0 ∧ (cmd 0 1 0 0 0 []).p2 = 0 ∧ (cmd 0 1 0 0 0 []).p3 = 0) ∧
    ((regRow? LGT_PAGE_GEN).map (·.dom) = some .pwr) := by
  refine ⟨?_, ⟨taking ?_, ?_⟩, ?_⟩ <;> decide

theorem witness_ControlPlaneRestarts :
    (readable live = true ∧ live.dev.fatal = false ∧ live.err.restarting = false ∧ bits (0x0840 * 2 ^ 16 + 1) 31 16 = 0x0840 ∧
     bit (0x0840 * 2 ^ 16 + 1) 1 = false ∧ bit (0x0840 * 2 ^ 16 + 1) 0 = true) ∧
    (Accepted rowRestart live (cmd 0 0 0 0 0 []) ∧
      live.err.restarting = false ∧ (cmd 0 0 0 0 0 []).p0 = 0 ∧ (cmd 0 0 0 0 0 []).p1 = 0 ∧ (cmd 0 0 0 0 0 []).p2 = 0 ∧ (cmd 0 0 0 0 0 []).p3 = 0) ∧
    (alive live = true ∧ 7 < 8) ∧
    (alive cpDown = true ∧ cpDown.err.restarting = true) := by
  refine ⟨?_, ⟨taking ?_, ?_⟩, ?_, ?_⟩ <;> decide

/-- Devices at steps of power-up. -/
def poweringUp (k : Nat) : State := { live with dev := { live.dev with phase := k, ready := false, portsMin := 0, portsMax := 0 } }
theorem witness_PowerUpProceeds :
    (State.reset.dev.held = true) ∧
    (atStep2 { State.reset with dev := { held := false } } = true) ∧
    (alive (poweringUp 6) = true ∧ (poweringUp 6).dev.phase = 6) ∧
    (alive (poweringUp 7) = true ∧ (poweringUp 7).dev.phase = 7) ∧
    (alive (poweringUp 9) = true ∧ (poweringUp 9).dev.phase = 9 ∧ (poweringUp 9).dev.phase ≠ 7) ∧
    (alive (poweringUp 10) = true ∧ (poweringUp 10).dev.phase = 10 ∧ (∀ p, p < min (poweringUp 10).dev.portsMax 8 → (portOf (poweringUp 10) p).state = 4) ∧
     (poweringUp 10).dev.portsMin ≤ (portsUp (poweringUp 10)).length) := by
  refine ⟨?_, ?_, ?_, ?_, ?_, ?_⟩ <;> decide

/-- A SYS.HELLO outstanding on queue pair 4, another command of the device open, and a forwarded operation. -/
def answersDue : State :=
  { withQp { pair with helloTag := some 7 } live with
    fab := { (withQp { pair with helloTag := some 7 } live).fab with openTags := [8] },
    msa := { fwd := [(9, ⟨0x50, cmd 0 0 0 0 0 [], 4, 0x53, none⟩)] } }
theorem witness_FaultsAndAnswersAreTaken :
    (alive answersDue = true ∧ fifoThere (.ioDie 1) = true ∧ FifoPlace.ioDie 1 ≠ .cluster 0) ∧
    (fifoThere (.cluster 127) = true ∧ FifoPlace.cluster 127 ≠ .ioDie 0 ∧ answersDue.err.fifoOvr.contains (.cluster 127, 0) = false) ∧
    ((rep 7 stOk).rcrcOk = true ∧ statusListed (rep 7 stOk).status = true ∧ (rep 7 stOk).now = 5 ∧ staleAnswer answersDue (rep 7 stOk).opcode (rep 7 stOk).mid = false ∧ helloOf answersDue (rep 7 stOk).tag = some 4) ∧
    ((rep 8 stOk).rcrcOk = true ∧ statusListed (rep 8 stOk).status = true ∧ (rep 8 stOk).now = 5 ∧ helloOf answersDue (rep 8 stOk).tag = none ∧
     dropOfTag answersDue (rep 8 stOk).tag = none ∧ answersDue.fab.openTags.contains (rep 8 stOk).tag = true ∧ (rep 8 stOk).final = true) ∧
    (staleAnswer answersDue 0x50 0xFFFFFFFF = false ∧ tabGet answersDue.msa.fwd 9 = some ⟨0x50, cmd 0 0 0 0 0 [], 4, 0x53, none⟩) := by
  refine ⟨?_, ?_, ?_, ?_, ?_⟩ <;> decide

/-- Cores in their states: slot 0 serves under ID 0, slot 1151 is under test. -/
def cores : State :=
  { live with core := { slots := [(0, { state := 1, lid := some 0 }), (1151, { state := 4, testState := 4 })],
                        clusters := [(0, { present := true, loading := true })] } }
theorem witness_UnitErrorsAreContained :
    (alive cores = true ∧ 1151 < 1152 ∧ (coreSlot cores 1151).state ≠ 0 ∧ (coreSlot cores 1151).state ≠ 5 ∧ cores.eng.step = none ∧ cores.eng.runs = [] ∧ runsId cores 1151 = false) ∧
    ((coreSlot cores 0).state ≠ 0 ∧ (coreSlot cores 0).state ≠ 5 ∧
     histReached (histAdd [] 0 0 |>.headD (0, [])).2 (regField cores ERR_TH_CORE_SUSPECT 7 0) (1000 * regField cores ERR_TH_CORE_SUSPECT 27 16) = false ∧
     histReached (histAdd [] 0 0 |>.headD (0, [])).2 (regField cores ERR_TH_CORE_FENCE 7 0) (1000 * regField cores ERR_TH_CORE_FENCE 27 16) = false) ∧
    (31 < 32 ∧ (regionSt cores 31).lost = false) := by
  refine ⟨?_, ?_, ?_⟩ <;> decide

theorem witness_CoreTestsRun :
    (Accepted rowSentinel cores (cmd 0 0 0 0 0 []) ∧
      paramsZero (cmd 0 0 0 0 0 []) true false false false = true ∧ bits (cmd 0 0 0 0 0 []).p0 30 11 = 0 ∧ (cmd 0 0 0 0 0 []).p0 < 2 ^ 32 ∧
     sentinelSlot (taken rowSentinel (cmd 0 0 0 0 0 []) cores) 0 = some 0 ∧ (coreSlot (taken rowSentinel (cmd 0 0 0 0 0 []) cores) 0).state ≠ 0 ∧
     (coreSlot (taken rowSentinel (cmd 0 0 0 0 0 []) cores) 0).state ≠ 5) ∧
    (Accepted rowKat cores (cmd 0 127 0 0 0 []) ∧
      paramsZero (cmd 0 127 0 0 0 []) true false false false = true ∧ 127 < 128 ∧ (taken rowKat (cmd 0 127 0 0 0 []) cores).core.kats = []) ∧
    (Accepted rowKat cores (cmd 0 0 0 0 0 []) ∧
      (cluster (taken rowKat (cmd 0 0 0 0 0 []) cores) 0).present = true) ∧
    (alive cores = true ∧ (cluster cores 0).loading = true) ∧
    ((coreSlot cores 1151).state = 4 ∧ (coreSlot cores 1151).testState = 4 ∧ (coreSlot cores 1151).ended = none ∧ (coreSlot cores 1151).home = none) := by
  refine ⟨⟨taking ?_, ?_⟩, ⟨taking ?_, ?_⟩, ⟨taking ?_, ?_⟩, ?_, ?_⟩ <;> decide

/-- A batch slot that passes data on, one that is bound to device memory at an address, and a SEND-held one. -/
def passSlot : SlotRec := ⟨3, 0, 0, 0, 0, 0⟩
def inputSlot (a : Nat) : SlotRec := ⟨0, 0, 0, 0, 0, a⟩
/-- An entry with its opcode, cores mask 1, and bytes from 8 on. -/
def entry (op : Nat) (l : Bytes) : Bytes := toLe 1 op ++ zeros 1 ++ toLe 1 1 ++ zeros 5 ++ (l ++ zeros 24).take 24
/-- The cluster's step at one entry, with batch slot 0. -/
def at1 (e : Bytes) (sl : SlotRec) : State := running [e] [sl] {}
/-- Entries that name batch slot 0, and an MMA of one row through FP8 tiles. -/
def loadE : Bytes := entry 0 (toLe 8 (0xF000 * 2 ^ 48) ++ zeros 4 ++ toLe 4 1)
def expandE : Bytes := entry 1 (toLe 8 (0xF000 * 2 ^ 48) ++ toLe 1 0x33)
def mmaE : Bytes := entry 2 (zeros 8 ++ toLe 2 1 ++ toLe 1 0x33)
/-- A cluster whose core 0 holds an FP8 tile. -/
def tileHeld : State := running [mmaE] [passSlot] { bufs := [(0, ⟨3, 3, 0, [], [], [], 0, 0, false⟩)] }
/-- A SENTINEL of one row over a tensor with a tolerance. -/
def sentLive : Bytes := entry 9 (zeros 20 ++ toLe 2 1)
def tolStake : Stake :=
  { header := [], directory := zeros 42 ++ toLe 2 0x3C00 ++ zeros 20, len := 0, crc := 0, dirExt := [], ext := [], refs := 0, damaged := [] }
def sentAt : State :=
  { running [sentLive] [passSlot] { staged := [⟨0, 2 ^ 16, 0, 0, 0, 0, 0⟩] } with
    tier := { slots := [{ state := 3, setId := 1, image := table [sentLive], stakeId := 1 }], stakes := [(1, tolStake)] } }
set_option maxRecDepth 8192 in
theorem witness_TableEntriesTakeEffect :
    (entryOf (at1 loadE passSlot) 0 opLoadTile = some loadE ∧ (cluster (at1 loadE passSlot) 0).switched = false ∧ tileReady (at1 loadE passSlot) 0 loadE = true ∧ loadsCome (at1 loadE passSlot) 0 loadE = true ∧
     (fetchRef (at1 loadE passSlot) (enRef loadE) (leAt loadE 20 4)).isSome = true) ∧
    (entryOf (at1 expandE passSlot) 0 opExpand = some expandE ∧ (cluster (at1 expandE passSlot) 0).switched = false ∧ tileReady (at1 expandE passSlot) 0 expandE = true ∧ loadsCome (at1 expandE passSlot) 0 expandE = true ∧
     (fetchRef (at1 expandE passSlot) (enRef expandE) (enTileLen (at1 expandE passSlot) expandE)).isSome = true) ∧
    (entryOf (at1 (entry 2 []) passSlot) 0 opMma = some (entry 2 []) ∧ mmaRows (at1 (entry 2 []) passSlot) (entry 2 []) = 0) ∧
    (entryOf tileHeld 0 opMma = some mmaE ∧ mmaReady tileHeld 0 mmaE = true ∧ enginesFree tileHeld 0 0 mmaE = true ∧ 0 < mmaRows tileHeld mmaE ∧ namedCores tileHeld 0 mmaE = [(0, 0)]) ∧
    (entryOf (at1 (entry 3 []) passSlot) 0 opVec = some (entry 3 []) ∧ loadsCome (at1 (entry 3 []) passSlot) 0 (entry 3 []) = true) ∧
    (entryOf (at1 (entry 4 []) passSlot) 0 opSample = some (entry 4 []) ∧ loadsCome (at1 (entry 4 []) passSlot) 0 (entry 4 []) = true ∧ curRun (at1 (entry 4 []) passSlot) = some (runOf [passSlot])) ∧
    (entryOf (at1 (entry 9 []) passSlot) 0 opSentinel = some (entry 9 []) ∧ sentIdle (at1 (entry 9 []) passSlot) (entry 9 []) = true) := by
  refine ⟨?_, ?_, ?_, ?_, ?_, ?_, ?_⟩ <;> decide

-- A SENTINEL that is not idle and finds no drift meets the last clause.
set_option maxRecDepth 8192 in
theorem witness_TableEntriesTakeEffect_sentinel :
    (entryOf sentAt 0 opSentinel = some sentLive ∧ sentIdle sentAt sentLive = false ∧ (cluster sentAt 0).switched = false ∧ tileReady sentAt 0 sentLive = true ∧ loadsCome sentAt 0 sentLive = true ∧
     sentIdle (issue 0 0 sentLive sentAt) sentLive = false ∧ curRun (issue 0 0 sentLive sentAt) = some (runOf [passSlot]) ∧ (curStake (issue 0 0 sentLive sentAt)).isSome = true ∧
     (fetchRef sentAt (enRef sentLive) (enTileLen sentAt sentLive)).isSome = true ∧ entryCores (issue 0 0 sentLive sentAt) 0 sentLive = [0]) ∧
    ((let q := sentTiles (issue 0 0 sentLive sentAt) 0 sentLive (runOf [passSlot]) [] [] 1 0
     driftFails 0x3C00 (driftSums q.narrow q.ref).1.bits (driftSums q.narrow q.ref).2.bits = false)) := by
  refine ⟨?_, (by decide +kernel)⟩
  decide

/-- SIGNALs on their way, and entries that wait. -/
def waitE : Bytes := entry 6 (zeros 8 ++ toLe 2 1)
def endE : Bytes := entry 10 []
def sigE (k : Nat) : Bytes := entry 7 (zeros 2 ++ toLe 2 k)
def dueE : Bytes := toLe 1 3 ++ zeros 3 ++ toLe 4 9 ++ zeros 24
set_option maxRecDepth 8192 in
theorem witness_EntriesMeetEachOther :
    (entryOf (running [waitE] [] { flags := [(0, 1)] }) 0 opWait = some waitE ∧ leAt waitE 16 2 ≤ flagOf (running [waitE] [] { flags := [(0, 1)] }) 0 (leAt waitE 8 1)) ∧
    (entryOf (at1 (sigE 0) passSlot) 0 opSignal = some (sigE 0) ∧ (cluster (at1 (sigE 0) passSlot) (leAt (sigE 0) 10 2)).present = true) ∧
    (entryOf (at1 (sigE 1) passSlot) 0 opSignal = some (sigE 1) ∧ (cluster (at1 (sigE 1) passSlot) (leAt (sigE 1) 10 2)).present = false) ∧
    ((List.range 128).find? (fun m => hasSignal ⟨0, 3, 9⟩ (cluster (running [endE] [] { signals := [⟨0, 3, 9⟩] }) m)) = some 0 ∧
     (cluster (running [endE] [] { signals := [⟨0, 3, 9⟩] }) 0).present = true) ∧
    (entryOf (at1 (entry 8 []) passSlot) 0 opBarrier = some (entry 8 [])) ∧
    (curEntry (at1 dueE passSlot) 0 = some dueE ∧ enDeadline dueE ≠ 0xFFFFFFFF ∧ enDeadline dueE ≤ 9) ∧
    (curRun (running [endE] [⟨0, 56, 0, 0, 0, 0⟩, ⟨0, 63, 0, 0, 0, 0⟩] {}) = some (runOf [⟨0, 56, 0, 0, 0, 0⟩, ⟨0, 63, 0, 0, 0, 0⟩]) ∧
     56 ≤ (slotRec (runOf [⟨0, 56, 0, 0, 0, 0⟩, ⟨0, 63, 0, 0, 0, 0⟩]).batch 0).flag ∧ (slotRec (runOf [⟨0, 56, 0, 0, 0, 0⟩, ⟨0, 63, 0, 0, 0, 0⟩]).batch 1).flag ≤ 63) ∧
    (entryOf (at1 endE passSlot) 0 opEnd = some endE ∧ entriesDone (at1 endE passSlot) 0 0 = true) := by
  refine ⟨?_, ?_, ?_, ?_, ?_, ?_, ?_, ?_⟩ <;> decide

/-- A cluster with units at work, and one whose LOAD_TILE has been switched to the direct path. -/
def unitsBusy : State :=
  running [loadE] [inputSlot 0] { staging := some ⟨0, 0xF000, 0, 1, 1, 0, 0⟩, expander := [⟨0, false, 32, none, [], 0⟩] }
def switchedTo : State := running [loadE] [inputSlot 0] { direct := some 0 }
set_option maxRecDepth 8192 in
theorem witness_TilesAreStaged :
    ((cluster (at1 loadE (inputSlot 0)) 0).present = true ∧ (cluster (at1 loadE (inputSlot 0)) 0).staging = none ∧ (stageVariant (at1 loadE (inputSlot 0)) 0).isSome = true ∧
     (match stageVariant (at1 loadE (inputSlot 0)) 0 with
     | some (r, img, v) => decide (stageNext (at1 loadE (inputSlot 0)) r img v (varEntries v) 0 = some (0, loadE)) && inSlice (cluster (at1 loadE (inputSlot 0)) 0) (tileName (at1 loadE (inputSlot 0)) r (enRef loadE)) (tileLenIn (at1 loadE (inputSlot 0)) r loadE) = none &&
     decide (sliceUsed (cluster (at1 loadE (inputSlot 0)) 0) + refStored (at1 loadE (inputSlot 0)) r (enRef loadE) (tileLenIn (at1 loadE (inputSlot 0)) r loadE) ≤ 24 * 2 ^ 20)
     | none => false) = true) ∧
    ((cluster unitsBusy 0).staging = some ⟨0, 0xF000, 0, 1, 1, 0, 0⟩) ∧
    (directEntry switchedTo 0 = some loadE ∧ enOp loadE = opLoadTile ∧ (fetchRef switchedTo (enRef loadE) (enTileLen switchedTo loadE)).isSome = true) ∧
    ((cluster unitsBusy 0).expander = ⟨0, false, 32, none, [], 0⟩ :: [] ∧ (⟨0, false, 32, none, [], 0⟩ : ExpBlock).mismatch = none) ∧
    ((regionSt { live with core := { regions := [(0, { coding := [(1, 2, 3)] })] } } 0).coding = (1, 2, 3) :: []) := by
  refine ⟨?_, ?_, ?_, ?_, ?_⟩ <;> decide

/-- A LOAD_TILE, an EXPAND and a SENTINEL of a slot bound to a reserved DPA, staged already. -/
def stuck (e : Bytes) : State := running [e] [inputSlot 0x9000000000] { staged := [⟨0, 0xF000, 0x9000000000, 1, 1, 0, 0⟩] }
/-- A SENTINEL of one row that names the slot, over a tensor with a tolerance. -/
def sentSlotE : Bytes := entry 9 (toLe 8 (0xF000 * 2 ^ 48) ++ zeros 12 ++ toLe 2 1)
def stuckSent : State :=
  { stuck sentSlotE with tier := { slots := [{ state := 3, setId := 1, image := table [sentSlotE], stakeId := 1 }], stakes := [(1, tolStake)] } }
set_option maxRecDepth 8192 in
theorem witness_ReservedSourcesStop :
    ((cluster (stuck loadE) 0).switched = false ∧ tileReady (stuck loadE) 0 loadE = true ∧ loadsCome (stuck loadE) 0 loadE = true ∧ entryOf (stuck loadE) 0 opLoadTile = some loadE ∧
     fetchRef (stuck loadE) (enRef loadE) (leAt loadE 20 4) = none) ∧
    ((cluster (stuck expandE) 0).switched = false ∧ tileReady (stuck expandE) 0 expandE = true ∧ loadsCome (stuck expandE) 0 expandE = true ∧ entryOf (stuck expandE) 0 opExpand = some expandE ∧ fetchRef (stuck expandE) (enRef expandE) (enTileLen (stuck expandE) expandE) = none) ∧
    ((cluster stuckSent 0).switched = false ∧ tileReady stuckSent 0 sentSlotE = true ∧ loadsCome stuckSent 0 sentSlotE = true ∧ entryOf stuckSent 0 opSentinel = some sentSlotE ∧
     sentIdle stuckSent sentSlotE = false ∧ fetchRef stuckSent (enRef sentSlotE) (enTileLen stuckSent sentSlotE) = none) := by
  refine ⟨?_, ?_, ?_⟩ <;> decide

/-- `live` with port 0 UP, and queue pair 4 over it. -/
def onPort (q : Qp) : State := { withQp q live with fab := { (withQp q live).fab with ports := [{ state := 4 }] } }
/-- A single-packet frame for queue pair 4 with a PSN. -/
def frameOf (psn : Nat) : Fab :=
  { port := 0, now := 5, dstDev := 0x52, srcDev := 0x53, dstQp := 4, srcQp := 9, psn := psn, msgId := 1, pktIdx := 0, pktCount := 1,
    opcode := 0, offset := 0, last := true, len := 0, tag := 7, answer := false }
/-- A message of one packet that no SACK has covered. -/
def msg3 : TcsOut := ⟨3, [⟨0, 0, 0, 100⟩], .plain, {}, 1⟩
/-- A queue pair with one packet unacknowledged and one message open. -/
def sending : Qp :=
  { pair with unacked := [⟨0, 0, 100, .plain, {}⟩], tcsOut := [msg3], ackOwed := 1, resend := some (7, 0),
              tcsIn := [{ msgId := 6, placed := [0], expect := none, firstAt := 0, sackAt := 0, fresh := true, opcode := 0, tag := 7, src := 0x53,
                          buffer := none }] }
theorem witness_FramesAreTaken :
    (portUp (onPort pair) (frameOf 0).port = true ∧ (frameOf 0).dstDev = (onPort pair).dev.deviceId ∧ qpOf (onPort pair) (frameOf 0).dstQp = some pair ∧
     pair.state = 2 ∧ pair.loc = 0 ∧ (frameOf 0).psn = pair.expPsn ∧ (onPort pair).err.restarting = false ∧ (frameOf 0).opcode ≠ 0x53 ∧ pair.ackOwed < 7) ∧
    (portUp (onPort pair) (frameOf 1).port = true ∧ (frameOf 1).dstDev = (onPort pair).dev.deviceId ∧ qpOf (onPort pair) (frameOf 1).dstQp = some pair ∧
     1 ≤ ((frameOf 1).psn + 2 ^ 24 - pair.expPsn) % 2 ^ 24 ∧ ((frameOf 1).psn + 2 ^ 24 - pair.expPsn) % 2 ^ 24 < 2 ^ 23 ∧ pair.nakSent = false) ∧
    (portUp (onPort sending) 0 = true ∧ qpOf (onPort sending) 4 = some sending ∧ sending.state = 2 ∧ 0 < sending.unacked.length ∧ sending.ackedPsn < 2 ^ 24 ∧
     sending.tcsOut.find? (fun x => x.msgId = 3) = some msg3) := by
  refine ⟨?_, ?_, ?_⟩ <;> decide

theorem witness_TransportTimersAct :
    (alive (onPort sending) = true ∧ qpOf (onPort sending) 4 = some sending ∧ tclDue (atTick 1000000000 (onPort sending)) 4 sending = some 0 ∧
     ackArrives (atTick 1000000000 (onPort sending)) 4 sending = false) ∧
    (sending.ackOwed ≠ 0 ∧ sending.ackSince + usTicks 2 ≤ max (onPort sending).tick 200) ∧
    (sending.resend = some (7, 0) ∧ 7 ≤ max (onPort sending).tick 7) ∧
    (sending.tcsOut.find? (fun o => o.msgId = 3) = some msg3 ∧
     msg3.open'.find? (fun p => p.idx = 0) = some ⟨0, 0, 0, 100⟩ ∧
     0 + usTicks (regField (onPort sending) FAB_TMO 25 16) ≤ max (onPort sending).tick 1000000000 ∧ frameWaits (onPort sending) 4 true 3 0 = false ∧
     0 < retryLimit (onPort sending) ∧ sackArrives (atTick 1000000000 (onPort sending)) 4 3 0 = false ∧ allExcluded (onPort sending) sending.peerDev = false) ∧
    (sending.tcsIn.find? (fun t => t.msgId = 6) = sending.tcsIn.head? ∧ (sending.tcsIn.head?.map fun t => (t.fresh, t.sackAt, t.buffer)) = some (true, 0, none) ∧
     0 + usTicks (regField (onPort sending) FAB_ASM_TMO 13 0) ≤ max (onPort sending).tick 1000000000 ∧
     (sending.tcsIn.head?.map (asmArrives (atTick 1000000000 (onPort sending)) 4)) = some false) := by
  refine ⟨?_, ?_, ?_, ?_, ?_⟩ <;> decide

theorem witness_ContextsComeAndGo :
    (alive live = true ∧ qpOf (withQp { pair with loc := 3 } live) 4 = some { pair with loc := 3 }) ∧
    (qpOf (withQp { pair with parked := [⟨frameOf 0, false, 0⟩] } live) 4 = some { pair with parked := [⟨frameOf 0, false, 0⟩] } ∧
     (frameOf 0).now + usTicks (regField live QPC_HOLD_TMO 7 0) ≤ max live.tick 1000000000) := by
  refine ⟨?_, ?_⟩ <;> decide

/-- `live` with VF 1 enabled, a reset of VF 3 in progress, and the link up. -/
def withVfs : State := { live with pcie := { live.pcie with vfEnable := true, numVfs := 31, inFlr := [3], up := true }, dev := { live.dev with perst := false } }
theorem witness_LinkAndFunctions :
    (readable withVfs = true ∧ fnExists withVfs 1 = true ∧ fnExists withVfs 31 = true ∧ fnQps withVfs 31 = [] ∧ withVfs.dev.perst = false ∧
     withVfs.pcie.inFlr.contains 3 = true ∧ 63 < (if (1 : Nat) = 0 then 2048 else 64) ∧ withVfs.pcie.fnMasked.contains 1 = false ∧ withVfs.pcie.up = true) ∧
    (31 < 32) := by
  refine ⟨?_, ?_⟩ <;> decide

/-- A device that owns its UART and a pin. -/
def managed : State :=
  { live with dev := { live.dev with featuresOn := 0x110, owns := [(4, 2)] }, mgmt := { live.mgmt with i3cAddr := some 0x20 } }
theorem witness_ManagementPathsAnswer :
    (managed.dev.held = false ∧ 127 < 128 ∧ mgtRuns managed = true ∧ managed.mgmt.i3cAddr = some 0x20 ∧ alive managed = true ∧ featureOn managed 8 = true ∧
     ownedPin managed 4 = some 2) ∧
    ((mgtAddresses managed).head? = some (toLe 8 0x80FE ++ interfaceId managed)) := by
  refine ⟨?_, ?_⟩ <;> decide

theorem witness_HostReachesRegisters :
    (hostHeard live = true ∧ (regRow? ERR_TH_CORE_FENCE).map (·.width) = some 32 ∧ ERR_TH_CORE_FENCE % 4 = 0 ∧ live.pcie.inFlr.contains 0 = false ∧
     ERR_TH_CORE_FENCE ≥ 0x130000 ∧ (actWrite ERR_TH_CORE_FENCE 1 live).isNone = true ∧ (mirrorWrite ERR_TH_CORE_FENCE 1 live).isNone = true) ∧
    ((regRow? CMD_DISCARD_CNT).map (·.width) = some 64) ∧
    (live.dev.faultLow = false ∧ badAccess 2 4 = true ∧ badAccess 0 3 = true) := by
  refine ⟨?_, (by decide), ?_⟩ <;> decide

/-- `live` with the debug window open at the context SRAM, and the management controller down. -/
def windowOpen : State := { live with regs := [(DEV_BAR4_CTRL, 0x02000003)], err := { mgtDown := true } }
theorem witness_MailboxAndWindow :
    (hostHeard windowOpen = true ∧ regField windowOpen MGT_MBOX_STATUS 0 0 = 0 ∧ windowOpen.err.mgtDown = true ∧ windowOpen.mgmt.mboxWait.isNone = true ∧
     bar4Open windowOpen = true ∧ 4 ≠ 0 ∧ (2 ^ 24 - 4) + 4 ≤ 2 ^ 28 ∧ (∀ i, i < 4 → bar4Reaches windowOpen (bar4Base windowOpen + (2 ^ 24 - 4) + i) = true)) := by
  refine ?_
  decide

/-- Port 7 in a state that it entered at tick 0, with its lanes 0 to 2 up and lane 3 retraining. -/
def aPort (k : Nat) : Port :=
  { state := k, lanesUp := 7, slow := true, kaMiss := 2, credGranted := 9, tcl := [⟨4, false, 0, 0, 100, false, 0, {}, 0, 0⟩] }
def at7 (q : Port) : State :=
  { live with fab := { live.fab with ports := List.replicate 7 {} ++ [q], lanes := List.replicate 28 0 ++ [1, 1, 1, 2] } }
def port7 (k : Nat) : State := at7 (aPort k)
theorem witness_PortsTrain :
    (alive (port7 1) = true ∧ 7 < 8 ∧ (portOf (port7 1) 7).state = 1) ∧
    ((portOf (port7 2) 7).state = 2 ∧ bitmap 4 (fun l => [0, 3].contains l && !bit (portOf (port7 2) 7).lanesDis l) ≠ 0 ∧ (portOf (port7 2) 7).slow = true) ∧
    ((portOf (port7 3) 7).state = 3 ∧ linkSpoken 2 0 = true ∧ linkSpoken 2 1 = false) ∧
    ((portOf (port7 2) 7).since + msTicks 25 ≤ max (port7 2).tick 2500000 ∧ (portOf (port7 2) 7).since + msTicks 50 ≤ max (port7 2).tick 5000000 ∧
     (portOf (port7 3) 7).since + msTicks 10 ≤ max (port7 3).tick 1000000) ∧
    (2 < 4 ∧ bit (portOf (port7 4) 7).lanesUp 2 = true ∧ (port7 4).fab.lanes.getD (4 * 7 + 3) 0 = 2 ∧ (portOf (port7 4) 7).state = 4) ∧
    ((portOf (port7 6) 7).state = 6 ∧ (portOf (port7 7) 7).state = 7) := by
  refine ⟨?_, ?_, ?_, ?_, ?_, ?_⟩ <;> decide

/-- Port 7 UP with one TC-S frame waiting. -/
def tcsWaits : State := at7 { state := 4, width := 3, linkVer := 32, tcs := [⟨4, true, 1, 0, 100, false, 0, {}, 0, 0⟩] }
theorem witness_LinkLayerRuns :
    (portUp (port7 4) 7 = true ∧ (portOf (port7 4) 7).kaTx + usTicks 100 ≤ max (port7 4).tick 10000 ∧
     (portOf (port7 4) 7).kaRx + usTicks 100 * ((portOf (port7 4) 7).kaMiss + 1) ≤ max (port7 4).tick 30000 ∧ 15 < 16) ∧
    ((portOf (port7 4) 7).tcl = [⟨4, false, 0, 0, 100, false, 0, {}, 0, 0⟩] ∧ shapedOut (atTick 5 (port7 4)) ⟨4, false, 0, 0, 100, false, 0, {}, 0, 0⟩ = false ∧
     (portOf (port7 4) 7).pauseTcl = none ∧ frameCredits 100 ≤ creditsLeft (portOf (port7 4) 7)) ∧
    (portUp tcsWaits 7 = true ∧ (portOf tcsWaits 7).tcs = [⟨4, true, 1, 0, 100, false, 0, {}, 0, 0⟩] ∧ shapedOut (atTick 1000 tcsWaits) ⟨4, true, 1, 0, 100, false, 0, {}, 0, 0⟩ = false ∧
     (portOf tcsWaits 7).pauseTcs = none ∧ tclReady (atTick 1000 tcsWaits) 7 = false ∧ gateAllows (atTick 1000 tcsWaits) 7 100 = true) ∧
    (max tcsWaits.tick 8 = tcsWaits.sched.wheelAt + 8) := by
  refine ⟨?_, ?_, ?_, ?_⟩ <;> decide

/-- An admission record without stop set and tokens, and one with a stop set; withy `w`. -/
def admBytes (w hs : Nat) : Bytes :=
  toLe 8 77 ++ zeros 2 ++ toLe 1 hs ++ zeros 1 ++ toLe 4 w ++ zeros 12 ++ toLe 4 1 ++ toLe 4 1 ++ zeros 52 ++ toLe 4 0xFFFFFFFF ++ zeros 36 ++
    (if hs = 1 then toLe 2 1 ++ zeros 586 else [])
def admitP (w hs : Nat) : Pkt := cmd 0 0 0 0 0 (admBytes w hs)
def admRow' : OpRow := ⟨0x20, true, false, false, 8908, false⟩
def noWithy : Nat := 0xFFFFFFFF
/-- `liveP` whose berth 0 holds request 77, one whose berths are all reserved to another composition, and one without room for a stop set. -/
def heldP : State := { liveP with man := { liveP.man with berths := [(0, { id := { requestId := 77 } })] } }
def fullP : State := { liveP with sched := { liveP.sched with comps := [(1, { berthRsv := 16384 })] } }
def stopsP : State := { liveP with man := { liveP.man with stops := (List.range 1024).map fun i => (i, ([], 1)) } }
set_option maxRecDepth 8192 in
theorem witness_AdmissionFollowsItsChecks :
    (AcceptedBy admChecks admRow' liveP (cmd 0 0 0 0 0 []) ∧
      paramsZero (cmd 0 0 0 0 0 []) false false false false = true ∧ admFormatOk (taken admRow' (cmd 0 0 0 0 0 []) liveP) false [] (admRec []) = false) ∧
    (AcceptedBy admChecks admRow' heldP (admitP noWithy 0) ∧
      paramsZero (admitP noWithy 0) false false false false = true ∧
     admFormatOk (taken admRow' (admitP noWithy 0) heldP) false (admBytes noWithy 0) (admRec (admBytes noWithy 0)) = true ∧
     berthOfRequest (taken admRow' (admitP noWithy 0) heldP) (admRec (admBytes noWithy 0)).requestId = some 0 ∧ (berthAt (taken admRow' (admitP noWithy 0) heldP) 0).isSome = true) ∧
    (AcceptedBy admChecks admRow' liveP (admitP 0 0) ∧
      admFormatOk (taken admRow' (admitP 0 0) liveP) false (admBytes 0 0) (admRec (admBytes 0 0)) = true ∧
     berthOfRequest (taken admRow' (admitP 0 0) liveP) (admRec (admBytes 0 0)).requestId = none ∧ admWithy (taken admRow' (admitP 0 0) liveP) false (admRec (admBytes 0 0)).withy = none) ∧
    (AcceptedBy admChecks admRow' fullP (admitP noWithy 0) ∧
      admFormatOk (taken admRow' (admitP noWithy 0) fullP) false (admBytes noWithy 0) (admRec (admBytes noWithy 0)) = true ∧
     berthOfRequest (taken admRow' (admitP noWithy 0) fullP) 77 = none ∧ admWithy (taken admRow' (admitP noWithy 0) fullP) false noWithy = some 0 ∧
     berthAllowed (taken admRow' (admitP noWithy 0) fullP) (compOfQp (taken admRow' (admitP noWithy 0) fullP) 0) = false) ∧
    (AcceptedBy admChecks admRow' liveP (admitP noWithy 0) ∧
      berthOfRequest (taken admRow' (admitP noWithy 0) liveP) 77 = none ∧
     admWithy (taken admRow' (admitP noWithy 0) liveP) false noWithy = some 0 ∧ berthFree (taken admRow' (admitP noWithy 0) liveP) = some 0 ∧
     berthAllowed (taken admRow' (admitP noWithy 0) liveP) (compOfQp (taken admRow' (admitP noWithy 0) liveP) 0) = true ∧ (admRec (admBytes noWithy 0)).hasStop = 0) := by
  refine ⟨⟨taking ?_, ?_⟩, ⟨taking ?_, ?_⟩, ⟨taking ?_, ?_⟩, ⟨taking ?_, ?_⟩, ⟨taking ?_, ?_⟩⟩ <;> decide

-- A record with a stop set, for which no slot is free, meets the other clause.
theorem witness_AdmissionFollowsItsChecks_stop :
    AcceptedBy admChecks admRow' stopsP (admitP noWithy 1) ∧
      (let u := taken admRow' (admitP noWithy 1) stopsP
       let a := admRec (admBytes noWithy 1)
       admFormatOk u false (admBytes noWithy 1) a = true ∧ berthOfRequest u a.requestId = none ∧ admWithy u false a.withy = some 0 ∧
         berthFree u = some 0 ∧ berthAllowed u (compOfQp u a.ownerQp) = true ∧ a.hasStop = 1 ∧ stopSlot u a.stop = none) := by
  refine ⟨taking ?_, ?_⟩ <;> decide +kernel
/-- Berth 3 with a manifest at a state. -/
def man3 (k : Nat) (st : State) : State :=
  { st with man := { st.man with berths := [(3, { id := { requestId := 77, admitEpoch := 1, specMax := 2, genDev := 0x53 }, target := 1,
                                                  prog := { state := k, await := true, logLen := 0 }, table := { logFrames := [0] }, acceptTag := 7,
                                                  acceptAt := some 0, xfer := some ⟨some 0, 7, 4⟩ })],
                                 incarn := [(3, 1)] } }
def on3 (p0 p1 : Nat) (b : Bytes) : Pkt := cmd 0x4003 p0 p1 0 0 b
def rowAppend' : OpRow := ⟨0x21, true, false, false, 8192, false⟩
def rowCancel' : OpRow := ⟨0x24, true, true, false, 0, false⟩
def rowQuery' : OpRow := ⟨0x25, true, true, false, 0, false⟩
def rowRelease' : OpRow := ⟨0x27, true, true, false, 0, false⟩
def rowDraft' : OpRow := ⟨0x28, false, true, false, 8192, false⟩
def named3 (r : OpRow) (s : State) (p : Pkt) : Bool :=
  decide (berthNamed (taken r p s) p.mid = some 3) && (match berthAt (taken r p s) 3 with | some x => manEpochOk (taken r p s) x p | none => false)
set_option maxRecDepth 8192 in
theorem witness_RequestsActOnTheirBerth :
    (Accepted rowAppend' (man3 1 liveP) (on3 0 0 [1, 0, 0, 0]) ∧
      named3 rowAppend' (man3 1 liveP) (on3 0 0 [1, 0, 0, 0]) = true ∧
     (payloadTokens [1, 0, 0, 0]).length = 1 ∧ (logAppend 3 [1] (taken rowAppend' (on3 0 0 [1, 0, 0, 0]) (man3 1 liveP))).isSome = true) ∧
    (Accepted rowCancel' (man3 8 live) (on3 0 0 []) ∧
      named3 rowCancel' (man3 8 live) (on3 0 0 []) = true) ∧
    (Accepted rowCancel' (man3 4 live) (on3 0 0 []) ∧
      named3 rowCancel' (man3 4 live) (on3 0 0 []) = true) ∧
    (Accepted rowCancel' (man3 1 live) (on3 0 0 []) ∧
      named3 rowCancel' (man3 1 live) (on3 0 0 []) = true) ∧
    (Accepted rowQuery' (man3 4 live) (on3 0 0 []) ∧
      named3 rowQuery' (man3 4 live) (on3 0 0 []) = true) ∧
    (Accepted rowRelease' (man3 8 live) (on3 0 0 []) ∧
      named3 rowRelease' (man3 8 live) (on3 0 0 []) = true) ∧
    (Accepted rowDraft' (man3 4 live) (on3 0 1 [1, 0, 0, 0]) ∧
      named3 rowDraft' (man3 4 live) (on3 0 1 [1, 0, 0, 0]) = true ∧ (on3 0 1 [1, 0, 0, 0]).p1 = 1 ∧
     paramsZero (on3 0 1 [1, 0, 0, 0]) true true false false = true) ∧
    (Accepted rowQuery' live (on3 0 0 []) ∧
      berthNamed (taken rowQuery' (on3 0 0 []) live) 0x4003 = none ∧ paramsZero (on3 0 0 []) false false false false = true) := by
  refine ⟨⟨taking ?_, ?_⟩, ⟨taking ?_, ?_⟩, ⟨taking ?_, ?_⟩, ⟨taking ?_, ?_⟩, ⟨taking ?_, ?_⟩, ⟨taking ?_, ?_⟩, ⟨taking ?_, ?_⟩, ⟨taking ?_, ?_⟩⟩ <;> decide

def rowRetarget' : OpRow := ⟨0x22, true, true, false, 8389452, false⟩
def rowAccept' : OpRow := ⟨0x23, true, false, false, 0, false⟩
/-- An incoming transfer whose berth 5 is reserved. -/
def incoming : XferIn :=
  { id := {}, prog := {}, cnt := {}, log := [], stop := none, sender := (4, 0x53), restore := none, frames := 0, layers := 0, first := 0,
    openIdx := none, ovf := [], placed := [], at' := 0, comp := 0, pkt := cmd 0 0 0 0 0 [], stopSet := 0 }
def arriving : State := { live with man := { live.man with xfers := [(5, incoming)] } }
set_option maxRecDepth 8192 in
theorem witness_HandoffsRun :
    (Accepted rowRetarget' (man3 2 liveP) (on3 4095 0 []) ∧
      named3 rowRetarget' (man3 2 liveP) (on3 4095 0 []) = true ∧ (on3 4095 0 []).payload = [] ∧
     paramsZero (on3 4095 0 []) true false false false = true ∧ 4095 < 4096) ∧
    (AcceptedBy firstFail6 transferRow live (cmd 0 0 0 0 0 [])) ∧
    (Accepted rowAccept' (man3 3 liveP) (on3 0 0 []) ∧
      named3 rowAccept' (man3 3 liveP) (on3 0 0 []) = true) ∧
    (alive (man3 3 liveP) = true ∧ berthOfXfer (man3 3 liveP) (rep 7 stPending).tag = some 3 ∧ staleAnswer (man3 3 liveP) 0 0xFFFFFFFF = false ∧ berthOfAccept (man3 4 live) (rep 7 stOk).tag = some 3) ∧
    ((berthAt (man3 3 liveP) 3).map (·.xfer) = some (some ⟨some 0, 7, 4⟩) ∧ handoffLate (atTick 1000000000 (man3 3 liveP)) (some 0) = true ∧
     acceptArrives (atTick 1000000000 (man3 3 liveP)) 3 = false ∧ replyArrives (atTick 1000000000 (man3 3 liveP)) 7 = false) ∧
    ((berthAt (man3 4 live) 3).map (fun x => (x.prog.await, x.prog.state, x.acceptAt)) = some (true, 4, some 0)) ∧
    (tabGet arriving.man.xfers 5 = some incoming ∧ incoming.at' + handoffTmo arriving ≤ 1000000000) := by
  refine ⟨⟨taking ?_, ?_⟩, taking ?_, ⟨taking ?_, ?_⟩, ?_, ?_, ?_, ?_⟩ <;> decide

/-- `live` with an HBM3E stack in service. -/
def liveH : State := { live with tier := { live.tier with hbm := [1] } }
/-- A frame of key (77, 0, 1), ARRIVING with bytes placed, or sealed. -/
def frameX (k : Nat) : Frame := { requestId := 77, index := 0, layer := 1, state := k, placed := [(0, 64)], demote := some 8, refs := 1 }
def frames7 (k : Nat) (st : State) : State := { st with man := { st.man with frames := [(7, frameX k)] } }
def sealB : Bytes := toLe 8 77 ++ zeros 8 ++ toLe 4 0 ++ toLe 1 1 ++ zeros 11
def getRow' : OpRow := ⟨0x31, true, true, true, 0, false⟩
def sealRow' : OpRow := ⟨0x32, true, true, true, 32, false⟩
def dropRow' : OpRow := ⟨0x34, true, true, true, 8192, false⟩
def onPair (p : Pkt) : Pkt := { p with path := .fabric 4 0x53 0 }
set_option maxRecDepth 8192 in
theorem witness_PagesAreHeld :
    (Accepted putRow liveH (cmd 0 77 0 (2 ^ 20 - 256) 1 (zeros 64)) ∧
      noTranscode (taken putRow (cmd 0 77 0 (2 ^ 20 - 256) 1 (zeros 64)) liveH) (cmd 0 77 0 (2 ^ 20 - 256) 1 (zeros 64)) = false ∧ arrivingOf (taken putRow (cmd 0 77 0 (2 ^ 20 - 256) 1 (zeros 64)) liveH) 77 1 0 = none ∧
     ((taken putRow (cmd 0 77 0 (2 ^ 20 - 256) 1 (zeros 64)) liveH).man.arrivalsLost.contains (77, 1, 0)) = false ∧
     (takeArriving (cmd 0 77 0 (2 ^ 20 - 256) 1 (zeros 64)) 77 0 1 4095 (arrivalAnew (77, 1, 0) (taken putRow (cmd 0 77 0 (2 ^ 20 - 256) 1 (zeros 64)) liveH))).isSome = true) ∧
    (Accepted putRow (frames7 4 live) (cmd 0 77 0 0xFFF01 0 (zeros 64)) ∧
      (0xFFF01 : Nat) < 2 ^ 20 ∧ noTranscode (taken putRow (cmd 0 77 0 0xFFF01 0 (zeros 64)) (frames7 4 live)) (cmd 0 77 0 0xFFF01 0 (zeros 64)) = false ∧
     arrivingOf (taken putRow (cmd 0 77 0 0xFFF01 0 (zeros 64)) (frames7 4 live)) 77 0 1 = some 7 ∧
     ((taken putRow (cmd 0 77 0 0xFFF01 0 (zeros 64)) (frames7 4 live)).man.arrivalsLost.contains (77, 0, 1)) = false) ∧
    (Accepted sealRow' (frames7 4 live) (cmd 0 0 0 0 0 sealB) ∧
      noTranscode (taken sealRow' (cmd 0 0 0 0 0 sealB) (frames7 4 live)) (cmd 0 0 0 0 0 sealB) = false ∧
     arrivingOf (taken sealRow' (cmd 0 0 0 0 0 sealB) (frames7 4 live)) (leAt sealB 0 8) (leAt sealB 16 4) (leAt sealB 20 1) = some 7 ∧
     (frameAt (taken sealRow' (cmd 0 0 0 0 0 sealB) (frames7 4 live)) 7).isSome = true) ∧
    (Accepted getRow' (frames7 2 (withQp pair live)) (onPair (cmd 0 77 0 1 0 [])) ∧
      copyOf (taken getRow' (onPair (cmd 0 77 0 1 0 [])) (frames7 2 (withQp pair live))) 77 0 1 = some 7) ∧
    (Accepted getRow' (frames7 2 live) (cmd 0 77 0 1 0 []) ∧
      (1 : Nat) < 256 ∧ copyOf (taken getRow' (cmd 0 77 0 1 0 []) (frames7 2 live)) 77 0 1 = some 7) ∧
    (Accepted dropRow' (frames7 2 live) (cmd 0 0 0 0 0 (toLe 8 77)) ∧
      dropOk (cmd 0 0 0 0 0 (toLe 8 77)) = true) ∧
    (alive (frames7 4 live) = true ∧ (frameAt (frames7 4 live) 7).map (fun x => (x.state, x.placed, x.putAt)) = some (4, [(0, 64)], 0) ∧ 0 + moveTmoTicks (frames7 4 live) ≤ 1000000000) := by
  refine ⟨⟨taking ?_, ?_⟩, ⟨taking ?_, ?_⟩, ⟨taking ?_, ?_⟩, ⟨taking ?_, ?_⟩, ⟨taking ?_, ?_⟩, ⟨taking ?_, ?_⟩, ?_⟩ <;> decide

def mirC : OpRow := ⟨0x33, false, false, true, 131104, false⟩
def mirO : OpRow := ⟨0x33, true, true, false, 131104, false⟩
def dv (d : Nat) : Nat := 0x54 * 4096 + d
set_option maxRecDepth 8192 in
theorem witness_MirrorsAreRepaired :
    (Accepted mirC liveC (cmd 0 0 (dv 4095) 0 0 []) ∧
      mirrorOk (cmd 0 0 (dv 4095) 0 0 []) 0 = true) ∧
    (Accepted mirC liveC (cmd 0 1 4095 0 0 []) ∧
      mirrorOk (cmd 0 1 4095 0 0 []) 1 = true ∧ (4095 : Nat) < 4096) ∧
    (Accepted mirO live (cmd 0 2 (dv 9) 4095 0 (zeros 32)) ∧
      mirrorOk (cmd 0 2 (dv 9) 4095 0 (zeros 32)) 2 = true ∧ (cmd 0 2 (dv 9) 4095 0 (zeros 32)).payload.length = 32) ∧
    (Accepted mirO (man3 4 live) (cmd 0 3 (dv 9) 0 0 (toLe 8 77)) ∧
      mirrorOk (cmd 0 3 (dv 9) 0 0 (toLe 8 77)) 3 = true ∧ (toLe 8 77).length = 8 ∧ berthOfRequest (taken mirO (cmd 0 3 (dv 9) 0 0 (toLe 8 77)) (man3 4 live)) (leAt (toLe 8 77) 0 8) = some 3) ∧
    (Accepted mirO (man3 4 live) (cmd 0 4 (dv 9) 0 0 (toLe 8 77 ++ zeros 8)) ∧
      mirrorOk (cmd 0 4 (dv 9) 0 0 (toLe 8 77 ++ zeros 8)) 4 = true ∧ leAt (toLe 8 77 ++ zeros 8) 13 3 = 0 ∧
     berthOfRequest (taken mirO (cmd 0 4 (dv 9) 0 0 (toLe 8 77 ++ zeros 8)) (man3 4 live)) (leAt (toLe 8 77 ++ zeros 8) 0 8) = some 3) := by
  refine ⟨⟨taking ?_, ?_⟩, ⟨taking ?_, ?_⟩, ⟨taking ?_, ?_⟩, ⟨taking ?_, ?_⟩, ⟨taking ?_, ?_⟩⟩ <;> decide

/-- A page move with one holder, and a drop that was refused. -/
def moves1 (st : Nat) : State :=
  { live with man := { live.man with moves := [(1, ⟨7, .window, none, 0, [⟨0x53, st, 4, 7, 0, 0, (false, 0, 0), 0, some 0⟩], false⟩)],
                                     drops := [(2, ⟨0x53, 77, [], 0, 8, none, none, false⟩)] } }
def dropLater : State := { live with man := { live.man with drops := [(2, ⟨0x53, 77, [], 0, 8, some 6, none, false⟩)] } }
def outRow' : OpRow := ⟨0x35, false, true, false, 0, false⟩
def inRow' : OpRow := ⟨0x36, false, true, false, 0, false⟩
/-- Berth 3 with a snapshot and a state; a swap out, or in, may be in progress. -/
def swapBerth (k : Nat) (o i : Bool) : Berth :=
  { id := { requestId := 77, admitEpoch := 1 }, prog := { state := k }, snap := some ⟨0, 0, 64, 0, []⟩, swapOut := o, swapIn := i }
def swapped (k : Nat) (o i : Bool) : State := { liveH with man := { live.man with berths := [(3, swapBerth k o i)], incarn := [(3, 1)] } }
set_option maxRecDepth 8192 in
theorem witness_MovesAndSwapsEnd :
    (alive (frames7 2 live) = true ∧ frameAt (frames7 2 live) 7 = some (frameX 2) ∧ (frameX 2).demote = some 8) ∧
    (alive (moves1 2) = true ∧ moveOfTag (moves1 2) (rep 7 stOk).tag = some (1, 0) ∧ dropOfTag (moves1 2) (rep 8 stOk).tag = some 2 ∧ staleAnswer (moves1 2) 0 0xFFFFFFFF = false ∧
     moveAt (moves1 2) 1 = some ⟨7, .window, none, 0, [⟨0x53, 2, 4, 7, 0, 0, (false, 0, 0), 0, some 0⟩], false⟩) ∧
    (tgtsWhere (atTick 1000000000 (moves1 1)) 1 (fun t => or (t.st = 1) (t.st = 2) && sentBefore t.sentAt (moveTmoTicks (moves1 1)) 1000000000 &&
     !replyArrives (atTick 1000000000 (moves1 1)) t.tag) = [0]) ∧
    (tgtsWhere (atTick 0 (moves1 4)) 1 (fun t => t.st = 4 && decide (t.at' ≤ 0)) = [0]) ∧
    (dropAt dropLater 2 = some ⟨0x53, 77, [], 0, 8, some 6, none, false⟩ ∧ 6 ≤ 6) ∧
    (Accepted outRow' (man3 4 live) (on3 0 0 []) ∧
      named3 outRow' (man3 4 live) (on3 0 0 []) = true ∧
     (berthAt (taken outRow' (on3 0 0 []) (man3 4 live)) 3).map (fun x => (x.swapPkt.isNone, pagesMoving (taken outRow' (on3 0 0 []) (man3 4 live)) 3 x)) = some (true, false)) ∧
    (Accepted inRow' (swapped 6 false false) (on3 0 0 []) ∧
      named3 inRow' (swapped 6 false false) (on3 0 0 []) = true ∧
     (swapInBegin 3 (modBerth 3 (fun y => { y with swapPkt := some (on3 0 0 []) }) (taken inRow' (on3 0 0 []) (swapped 6 false false)))).isSome = true) ∧
    ((berthAt (swapped 5 true false) 3).map (fun x => (x.snap.isSome, x.prog.state, x.swapOut)) = some (true, 5, true)) ∧
    ((berthAt (swapped 5 false true) 3).map (fun x => (x.snap.isSome, x.prog.state, x.swapIn)) = some (true, 5, true)) := by
  refine ⟨?_, ?_, ?_, ?_, ?_, ⟨taking ?_, ?_⟩, ⟨taking ?_, ?_⟩, ?_, ?_⟩ <;> decide

/-- `live` with region 0 of domain 0 open to every access, ring 0 forwarded to queue pair 4 or not, and operations out. -/
def areaR (f : Bool) : State :=
  { withQp pair live with
    regs := if f then [(MSA_SQ_QP 0, 0x80000004), (MSA_GW_CAP, 1)] else [],
    fab := { (withQp pair live).fab with regions := [(0, ⟨0, 128, 0, 7, 0⟩)], pds := [0, 1] },
    msa := { (withQp pair live).msa with fwd := [(7, ⟨0x50, cmd 0 0 0 0 0 [], 4, 0x53, some 0⟩)], gwOut := [(8, ⟨cmd 0 0 0 0 0 [], 4, some 0⟩)],
                                         lines := [(1, [⟨.load, 1, 0, .entry 0 0⟩])] } }
def memRow' (op : Nat) : OpRow := ⟨op, true, true, true, if op = 0x50 then 0 else if op = 0x51 then 64 else 16, false⟩
def ldP : Pkt := cmd 0 0 64 0 0 []
def stP : Pkt := cmd 0 0 64 0 0 (zeros 64)
def atP : Pkt := cmd 0 0 120 0 0x10000 (zeros 16)
def homeTakes (op : Nat) (p : Pkt) (a : Nat) : Bool :=
  let u := taken (memRow' op) p (areaR false)
  takes firstFail (memRow' op) (areaR false) p && !memStale (memRow' op) p (atTick p.now (areaR false)) && (forwards u p).isNone && !farSource u p.path &&
    (match memKind op p with | some k => decide (keyAddr u p.p0 p.pd (memAccess k) (memOff p) (memLen k) = some a) | none => false)
def issuerTakes (op : Nat) (p : Pkt) : Bool :=
  let u := taken (memRow' op) p (areaR true)
  takes firstFail (memRow' op) (areaR true) p && !memStale (memRow' op) p (atTick p.now (areaR true)) && decide (forwards u p = some 0) && (fwdCheck u 0).isNone &&
    fwdNear u 0 op p && (qpOf u (fwdQp u 0)).isSome && (memKind op p).isSome
def gwRow' : OpRow := ⟨0x53, true, true, true, 20496, false⟩
def gwB : Bytes := toLe 2 1 ++ zeros 30
def gwRing : Pkt := cmd 0 4095 0 0 0 gwB
set_option maxRecDepth 8192 in
theorem witness_MemoryPacketsAreServed :
    (homeTakes 0x50 ldP 64 = true) ∧
    (homeTakes 0x51 stP 64 = true) ∧
    (homeTakes 0x52 atP 120 = true) ∧
    (issuerTakes 0x50 ldP = true ∧ issuerTakes 0x51 stP = true ∧ issuerTakes 0x52 atP = true) ∧
    (Accepted gwRow' (areaR true) gwRing ∧
      gwShare (taken gwRow' gwRing (areaR true)) 0 ≠ 0 ∧ paramsZero gwRing true false false false = true ∧ gwRing.p0 < 4096 ∧ (gwBatch gwB).isSome = true) ∧
    (Accepted gwRow' (areaR true) (onPair gwRing) ∧
      gwShare (taken gwRow' (onPair gwRing) (areaR true)) 0 ≠ 0) ∧
    (tabGet (areaR true).msa.fwd (rep 7 stOk).tag = some ⟨0x50, cmd 0 0 0 0 0 [], 4, 0x53, some 0⟩ ∧ staleAnswer (areaR true) 0 0xFFFFFFFF = false ∧
     sentBefore (some 0) (10 * regField (areaR true) MSA_TMO 6 0) (max (areaR true).tick 1000000000) = true ∧ replyArrives (atTick 1000000000 (areaR true)) 7 = false) ∧
    (tabGet (areaR true).msa.gwOut 8 = some ⟨cmd 0 0 0 0 0 [], 4, some 0⟩ ∧ sentBefore (some 0) (msTicks (regField (areaR true) MSA_GW_TMO 9 0)) (max (areaR true).tick 1000000000) = true ∧
     replyArrives (atTick 1000000000 (areaR true)) 8 = false) := by
  refine ⟨?_, ?_, ?_, ?_, ⟨taking ?_, ?_⟩, ⟨taking ?_, ?_⟩, ?_, ?_⟩ <;> decide

/-- `live` with one operation waiting for line 16383, the last of the area's first half. -/
def oneOp (k : MsaKind) : State := { live with msa := { live.msa with lines := [(16383, [⟨k, 1, 0, .entry 0 0⟩])] } }
theorem witness_LinesAreAppliedInPlace :
    (lineQueue (oneOp .load) 16383 = [⟨.load, 1, 0, .entry 0 0⟩] ∧ (oneOp .load).msa.ingress = [] ∧ alive (oneOp .load) = true ∧ 16383 ∉ (oneOp .load).msa.poisoned) ∧
    (lineQueue (oneOp (.store (zeros 64))) 16383 = [⟨.store (zeros 64), 1, 0, .entry 0 0⟩] ∧ (zeros 64).length = 64) ∧
    (lineQueue (oneOp (.atomic 0 1 0 56 1)) 16383 = [⟨.atomic 0 1 0 56 1, 1, 0, .entry 0 0⟩] ∧ 56 + 8 ≤ 64) := by
  refine ⟨?_, ?_, ?_⟩ <;> decide

def helloP (lo : Nat) : Pkt := cmd 0 (0x302 * 65536 + lo) 4095 (2 ^ 24 - 1) 0 []
def capsRow' : OpRow := ⟨0x02, true, true, true, 0, false⟩
/-- `live` with queue pair 4 not negotiated, and one that is at a state and place. -/
def rawPair : Qp := { state := 2, peerDev := 0x53, peerQp := 9 }
def pairAt (k l : Nat) : Qp := { pair with state := k, loc := l }
def withPds (s : State) : State := { s with fab := { s.fab with pds := [0, 1], regions := [(0, ⟨0, 128, 0, 15, 0⟩)] } }
def regionB : Bytes := zeros 8 ++ toLe 8 64 ++ zeros 1 ++ toLe 1 15 ++ zeros 14
set_option maxRecDepth 8192 in
theorem witness_SessionsAndRegions :
    (Accepted rowHello live (helloP 0x203) ∧
      paramsZero (helloP 0x203) true true true false = true ∧ (helloP 0x203).p1 < 4096 ∧ (helloP 0x203).p2 < 2 ^ 24 ∧ helloChoice (helloP 0x203).p0 = some 0x302) ∧
    (Accepted rowHello (withQp rawPair live) (onPair (helloP 0x203)) ∧
      qpOf (taken rowHello (onPair (helloP 0x203)) (withQp rawPair live)) 4 = some rawPair ∧ rawPair.evoest = 0) ∧
    (Accepted rowHello (withQp pair live) (onPair (helloP 0x302)) ∧
      (qpOf (taken rowHello (onPair (helloP 0x302)) (withQp pair live)) 4).map (·.evoest) = some 0x302 ∧ helloKeeps (helloP 0x302).p0 0x302 = true) ∧
    (Accepted rowCaps live (cmd 0 0 0 0 0 []) ∧
      paramsZero (cmd 0 0 0 0 0 []) false false false false = true) ∧
    (Accepted rowPdCreate live (cmd 0 4095 0 0 0 []) ∧
      (taken rowPdCreate (cmd 0 4095 0 0 0 []) live).fab.pds.contains 4095 = false) ∧
    (Accepted rowRegister (withPds live) (cmd 0 1 0 0 0 regionB) ∧
      regionOk regionB = true ∧ (taken rowRegister (cmd 0 1 0 0 0 regionB) (withPds live)).fab.pds.contains 1 = true ∧
     tabFree (taken rowRegister (cmd 0 1 0 0 0 regionB) (withPds live)).fab.regions 262144 = some 1) ∧
    (Accepted rowDeregister (withPds live) (cmd 0 0 0 0 0 []) ∧
      regionOfKey (taken rowDeregister (cmd 0 0 0 0 0 []) (withPds live)) 0 ≠ none) := by
  refine ⟨⟨taking ?_, ?_⟩, ⟨taking ?_, ?_⟩, ⟨taking ?_, ?_⟩, ⟨taking ?_, ?_⟩, ⟨taking ?_, ?_⟩, ⟨taking ?_, ?_⟩, ⟨taking ?_, ?_⟩⟩ <;> decide

/-- A queue-pair record: its target state, its flags, its peer device and peer queue pair. -/
def qpRec (t f : Nat) : Bytes := toLe 1 t ++ zeros 1 ++ toLe 1 f ++ zeros 1 ++ toLe 4 9 ++ toLe 2 0x53 ++ zeros 22
def shapeRec (on : Nat) : Bytes := toLe 4 200000 ++ toLe 4 1024 ++ toLe 1 on ++ zeros 7
def at4 (q : Qp) : State := withPds (withQp q live)
set_option maxRecDepth 8192 in
theorem witness_QueuePairsLiveAndEnd :
    (Accepted rowCreate (withPds live) (cmd 0 (2 ^ 20 - 1) 1 0 0x53 (qpRec 2 0)) ∧
      createOk (cmd 0 (2 ^ 20 - 1) 1 0 0x53 (qpRec 2 0)) = true ∧
     (taken rowCreate (cmd 0 (2 ^ 20 - 1) 1 0 0x53 (qpRec 2 0)) (withPds live)).fab.pds.contains 1 = true ∧ (qpOf (taken rowCreate (cmd 0 (2 ^ 20 - 1) 1 0 0x53 (qpRec 2 0)) (withPds live)) (2 ^ 20 - 1)).isNone = true ∧
     bit (recFlags (qpRec 2 0)) 1 = false) ∧
    (diePinned (at4 pair) 1 < 2048) ∧
    (Accepted rowModify (at4 (pairAt 1 2)) (cmd 0 4 0 0 0 (qpRec 2 0)) ∧
      recOk (qpRec 2 0) = true ∧ (qpOf (wakeQp 4 (taken rowModify (cmd 0 4 0 0 0 (qpRec 2 0)) (at4 (pairAt 1 2)))) 4).map (fun q => decide (q.loc ≠ 0)) = some true) ∧
    (Accepted rowModify (at4 (pairAt 1 0)) (cmd 0 4 0 0 0 (qpRec 2 0)) ∧
      (qpOf (wakeQp 4 (taken rowModify (cmd 0 4 0 0 0 (qpRec 2 0)) (at4 (pairAt 1 0)))) 4).map (fun q => (q.loc, q.state)) = some (0, 1) ∧
     bit (recFlags (qpRec 2 0)) 1 = false ∧ (qpMove 4 2 (qpRec 2 0) (pairAt 1 0) (at4 (pairAt 1 0))).isSome = true) ∧
    (Accepted rowShaper (at4 (pairAt 2 2)) (cmd 0 4 0 0 0 (shapeRec 1)) ∧
      shaperOk (shapeRec 1) = true ∧ (qpOf (wakeQp 4 (taken rowShaper (cmd 0 4 0 0 0 (shapeRec 1)) (at4 (pairAt 2 2)))) 4).map (fun q => decide (q.loc ≠ 0)) = some true) ∧
    (Accepted rowShaper (at4 (pairAt 2 0)) (cmd 0 4 0 0 0 (shapeRec 0)) ∧
      shaperOk (shapeRec 0) = true ∧ (qpOf (wakeQp 4 (taken rowShaper (cmd 0 4 0 0 0 (shapeRec 0)) (at4 (pairAt 2 0)))) 4).map (·.loc) = some 0) ∧
    (Accepted rowDestroy (at4 pair) (cmd 0 4 0 0 0 []) ∧
      (qpOf (taken rowDestroy (cmd 0 4 0 0 0 []) (at4 pair)) 4).isSome = true) ∧
    (alive (at4 (pairAt 2 2)) = true ∧ qpOf (at4 (pairAt 2 2)) 4 = some (pairAt 2 2) ∧ (pairAt 2 2).loc = 2) := by
  refine ⟨⟨taking ?_, ?_⟩, ?_, ⟨taking ?_, ?_⟩, ⟨taking ?_, ?_⟩, ⟨taking ?_, ?_⟩, ⟨taking ?_, ?_⟩, ⟨taking ?_, ?_⟩, ?_⟩ <;> decide

def bufB : Bytes := toLe 4 0 ++ toLe 4 128 ++ zeros 8
def boundPair : Qp := { pair with bound := [(7, some ⟨0, 128, 0, 0⟩)] }
set_option maxRecDepth 8192 in
theorem witness_MessagesReachBuffers :
    (Accepted rowRecv (at4 pair) (cmd 0 4 0 0 0 bufB) ∧
      (cmd 0 4 0 0 0 bufB).payload.length % 16 = 0 ∧ ((records 16 bufB).map bufferRec).all bufferOk = true ∧ qpOf (taken rowRecv (cmd 0 4 0 0 0 bufB) (at4 pair)) 4 = some pair ∧
     pair.state = 2 ∧ pair.posted.length + ((records 16 bufB).map bufferRec).length ≤ 256 ∧
     (((records 16 bufB).map bufferRec).all fun x => (bufferKey (taken rowRecv (cmd 0 4 0 0 0 bufB) (at4 pair)) pair.pd x x.len).isSome) = true) ∧
    (Accepted rowSend (at4 boundPair) (onPair (cmd 0 0 0 0 0 (zeros 128))) ∧
      paramsZero (onPair (cmd 0 0 0 0 0 (zeros 128))) true false false false = true ∧
     qpOf (taken rowSend (onPair (cmd 0 0 0 0 0 (zeros 128))) (at4 boundPair)) 4 = some boundPair ∧ boundOf boundPair 7 = some ⟨0, 128, 0, 0⟩ ∧
     (bufferKey (taken rowSend (onPair (cmd 0 0 0 0 0 (zeros 128))) (at4 boundPair)) 0 ⟨0, 128, 0, 0⟩ 128).isSome = true ∧ firstFail (atTick 5 (at4 boundPair)) rowSend (onPair (cmd 0 0 0 0 0 (zeros 128))) = none) := by
  refine ⟨⟨taking ?_, ?_⟩, ⟨taking ?_, ?_⟩⟩ <;> decide

theorem witness_ClocksPowerAndTemperatures :
    (alive live = true ∧ 1 < 2 ∧ 9 < 10 ∧ live.dev.thermtrip = false ∧ 3 < 4 ∧ live.core.stacksGone.contains 3 = false ∧ tabGet live.pwr.avsAt 3 = none ∧
     620 ≤ regField live (PWR_CMP_MV 3) 9 0 - 5 ∧ regField live (PWR_CMP_MV 3) 9 0 + 5 ≤ 800) := by
  refine ?_
  decide

/-- A class record, and a composition record that reserves every berth. -/
def classB : Bytes := toLe 1 1 ++ toLe 1 16 ++ zeros 6 ++ toLe 4 1 ++ toLe 4 16384 ++ zeros 16
def compB : Bytes := toLe 2 16384 ++ zeros 30
def newWindow : State := { live with sched := { live.sched with drainEnd := some 7 } }
set_option maxRecDepth 8192 in
theorem witness_ClassesAndCompositions :
    (Accepted rowShares live (cmd 0 255 0 0 0 classB) ∧
      classOk classB = true ∧ classHeld (taken rowShares (cmd 0 255 0 0 0 classB) live) 255 = 0) ∧
    (Accepted rowShares heldP (cmd 0 0 0 0 0 (toLe 1 1 ++ toLe 1 16 ++ zeros 6 ++ toLe 4 1 ++ toLe 4 1024 ++ zeros 16)) ∧
      classHeld heldP 0 ≠ 0 ∧
     (classOf (toLe 1 1 ++ toLe 1 16 ++ zeros 6 ++ toLe 4 1 ++ toLe 4 1024 ++ zeros 16)).window = (classRec heldP 0).window) ∧
    (Accepted rowCompCreate live (cmd 0 4095 0 0 0 compB) ∧
      compOk compB = true ∧
     rsvSum (taken rowCompCreate (cmd 0 4095 0 0 0 compB) live) 4095 (compOfBytes compB) CompRec.berthRsv ≤ 16384 ∧
     rsvSum (taken rowCompCreate (cmd 0 4095 0 0 0 compB) live) 4095 (compOfBytes compB) CompRec.frameRsv ≤ framesInService (taken rowCompCreate (cmd 0 4095 0 0 0 compB) live) ∧
     rsvSum (taken rowCompCreate (cmd 0 4095 0 0 0 compB) live) 4095 (compOfBytes compB) CompRec.withyRsv ≤ 1024) ∧
    (Accepted rowMeter live (cmd 0 4095 1 0 0 []) ∧
      paramsZero (cmd 0 4095 1 0 0 []) true true false false = true ∧ 4095 < 4096 ∧ 1 < 2) ∧
    (live.sched.pageMsAt / msTicks 1 < max live.tick 100000 / msTicks 1) := by
  refine ⟨⟨taking ?_, ?_⟩, ⟨taking ?_, ?_⟩, ⟨taking ?_, ?_⟩, ⟨taking ?_, ?_⟩, ?_⟩ <;> decide

set_option maxRecDepth 8192 in
theorem witness_EpochsAndFences :
    (Accepted rowFence live (cmd 0 4095 0 0 0 []) ∧
      paramsZero (cmd 0 4095 0 0 0 []) true false false false = true) ∧
    (live.sched.drainEnd = none ∧ newWindow.sched.drainEnd = some 7 ∧ 7 ≤ max newWindow.tick 7) := by
  refine ⟨⟨taking ?_, ?_⟩, ?_⟩ <;> decide

-- SYS.EPOCH brings a map of 4,096 entries; the checks look only at its length.
theorem leNat_zeros : ∀ n, leNat (zeros n) = 0
  | 0 => rfl
  | n + 1 => by simp [zeros, List.replicate_succ, leNat]; exact leNat_zeros n
theorem mapEntries_zeros : ∀ n c k, (mapEntries n c (zeros k)).all (fun e => mapEntryOk e.2) = true
  | 0, _, _ => rfl
  | n + 1, c, k => by
    have hd : (zeros k).drop 16 = zeros (k - 16) := List.drop_replicate
    have ht : (zeros k).take 16 = zeros (min 16 k) := List.take_replicate
    have hz : ∀ m i j, leAt (zeros m) i j = 0 := fun m i j => by
      have : slice (zeros m) i j = zeros (min j (m - i)) := by simp [slice, zeros, List.drop_replicate, List.take_replicate]
      rw [leAt, this, leNat_zeros]
    rw [mapEntries, List.all_cons, hd, ht, mapEntries_zeros n (c + 1) (k - 16)]
    simp [mapEntryOk, hz]
set_option maxRecDepth 8192 in
theorem takes_map (b : Bytes) (h : b.length = 65536) : takes firstFail rowEpoch live (cmd 0 2 1000 0 0 b) = true := by
  simp only [takes, arrived, packetsOf, meterRx, firstFail, headerBad, evoBytes, cmd, h]
  with_unfolding_all rfl
theorem witness_EpochsAndFences_epoch :
    Accepted rowEpoch live (cmd 0 2 1000 0 0 (zeros 65536)) ∧ mapOk (zeros 65536) = true ∧
      ∀ b, (taken rowEpoch (cmd 0 2 1000 0 0 b) live).sched.epoch < (cmd 0 2 1000 0 0 b).p0 ∧ (cmd 0 2 1000 0 0 b).p1 ≤ 1000 := by
  refine ⟨taking (takes_map _ List.length_replicate), ?_, fun b => ⟨?_, Nat.le_refl 1000⟩⟩
  · rw [mapOk, Bool.and_eq_true]; exact ⟨decide_eq_true List.length_replicate, mapEntries_zeros _ _ _⟩
  · have : (taken rowEpoch (cmd 0 2 1000 0 0 b) live).sched.epoch = 1 := by
      simp only [taken, arrived, packetsOf, meterRx, evoBytes, cmd]; with_unfolding_all rfl
    rw [this]; exact (by decide : 1 < 2)
theorem witness_HistogramsAndShaperWindow :
    (alive live = true ∧ hostHeard live = true ∧ live.sched.sampleAt / 100 < max live.tick 100 / 100) := by
  refine ?_
  decide

/-- Between two steps: a run to replay, a local re-run that waits, and a composition chosen. -/
def between (r : Run) (n : Option Nat) : State :=
  let s := running [endE] [] {}
  { s with eng := { runs := [(0, r)], next := n } }
def toReplay : Run := { runOf [] with replay := true }
def toRerun : Run := { runOf [] with suspects := [⟨0, 1, [], [], [], 3, none, none⟩] }
def inStep (c : Cluster) : State := running [endE] [] c
set_option maxRecDepth 8192 in
theorem witness_EngineSteps :
    (mayStart (between toReplay none) = true ∧ aheadOf (atTick 5 (between toReplay none)) = .replay (.run 0)) ∧
    (mayStart (between toRerun none) = true ∧ (match aheadOf (atTick 5 (between toRerun none)) with | .ahead _ _ => true | _ => false) = true) ∧
    (mayStart (between (runOf []) (some 0)) = true ∧ (match aheadOf (atTick 5 (between (runOf []) (some 0))) with | .none => true | _ => false) = true ∧
     stepReady (between (runOf []) (some 0)) 0 = true) ∧
    (alive (inStep { finished := true }) = true ∧ (inStep { finished := true }).eng.step = some stepOf0 ∧ stepOf0.held = none ∧ stepOf0.overrun = false ∧ allFinished (inStep { finished := true }) = true) ∧
    (allFinished (inStep {}) = false ∧ endsAtWatchdog (atTick 5 (inStep {})) = false ∧ fenceAtWatchdog (atTick 5 (inStep {})) = false) := by
  refine ⟨?_, ?_, ?_, ?_, ?_⟩ <;> decide

/-- An image load with pieces placed, its header read or not. -/
def loading (n : LoadName) (h : Bool) : ImgLoad := ⟨n, 0, [⟨⟨.ring 9, 0, 0, 0⟩, 0, zeros 200⟩], h, [], 0⟩
def withLoad (n : LoadName) (st : State) : State := { st with tier := { st.tier with loads := [loading n true] } }
def withStake : State := { live with tier := { live.tier with stakes := [(5, tolStake)] } }
def withTbl (k : Nat) : State :=
  { live with tier := { live.tier with slots := [{}, {}, {}, { state := k, setId := 5, stakeId := 5 }], stakes := [(5, tolStake)] } }
def imgP (n : Nat) : Pkt := cmd 0 5 0 0 0 (zeros n)
def rowStkRet' : OpRow := rowStkRetire
set_option maxRecDepth 8192 in
theorem witness_StakesAndTables :
    (Accepted rowStkLoad live (imgP 127) ∧
      firstFail (atTick 5 live) rowStkLoad (imgP 127) = none ∧ paramsZero (imgP 127) true false false true = true ∧ tabGet (taken rowStkLoad (imgP 127) live).tier.stakes 5 = none ∧
     loadOf (taken rowStkLoad (imgP 127) live) (.stake 5) = none ∧ covers (loadPieces (loadPlace 0x14 (imgP 127) ⟨.stake 5, 0, [], false, [], 0⟩)) 128 = false) ∧
    (Accepted rowStkLoad (withLoad (.stake 5) live) (imgP 4) ∧
      firstFail (atTick 5 (withLoad (.stake 5) live)) rowStkLoad (imgP 4) = none ∧
     loadOf (taken rowStkLoad (imgP 4) (withLoad (.stake 5) live)) (.stake 5) = some (loading (.stake 5) true) ∧ segAt (imgP 4) + 4 ≤ stkMax + 65536 ∧
     loadWhole (loadPlace 0x14 (imgP 4) (loading (.stake 5) true)) (stkLen (assemble (loadPieces (loadPlace 0x14 (imgP 4) (loading (.stake 5) true))))) = true) ∧
    (Accepted rowStkRetire withStake (imgP 0) ∧
      loadOf (taken rowStkRetire (imgP 0) withStake) (.stake 5) = none ∧ tabGet (taken rowStkRetire (imgP 0) withStake).tier.stakes 5 = some tolStake ∧ setNames (taken rowStkRetire (imgP 0) withStake) 5 = false) ∧
    (Accepted rowTblLoad live (imgP 31) ∧
      firstFail (atTick 5 live) rowTblLoad (imgP 31) = none ∧ slotOfSet (taken rowTblLoad (imgP 31) live) 5 = none ∧ slotEmpty (taken rowTblLoad (imgP 31) live) = some 0 ∧
     covers (loadPieces (loadPlace 0x10 (imgP 31) ⟨.table 5, 0, [], false, [], 0⟩)) 32 = false) ∧
    (Accepted rowTblLoad (withLoad (.table 5) (withTbl 1)) (imgP 4) ∧
      slotOfSet (taken rowTblLoad (imgP 4) (withLoad (.table 5) (withTbl 1))) 5 = some 3 ∧ (tblSlot (taken rowTblLoad (imgP 4) (withLoad (.table 5) (withTbl 1))) 3).state = 1 ∧
     loadWhole (loadPlace 0x10 (imgP 4) (loading (.table 5) true)) (tblLen (assemble (loadPieces (loadPlace 0x10 (imgP 4) (loading (.table 5) true))))) = true) ∧
    (Accepted rowActivate (withTbl 3) (imgP 0) ∧
      slotOfSet (taken rowActivate (imgP 0) (withTbl 3)) 5 = some 3 ∧ (tblSlot (taken rowActivate (imgP 0) (withTbl 3)) 3).state = 3 ∧ (taken rowActivate (imgP 0) (withTbl 3)).tier.pendAct = none ∧
     tabGet (taken rowActivate (imgP 0) (withTbl 3)).tier.stakes (tblSlot (taken rowActivate (imgP 0) (withTbl 3)) 3).stakeId = some tolStake ∧ tensorsOk (tblSlot (taken rowActivate (imgP 0) (withTbl 3)) 3).image tolStake = true) ∧
    (Accepted rowActivate (withTbl 2) (imgP 0) ∧
      slotOfSet (taken rowActivate (imgP 0) (withTbl 2)) 5 = some 3 ∧ (tblSlot (taken rowActivate (imgP 0) (withTbl 2)) 3).state = 2 ∧ (taken rowActivate (imgP 0) (withTbl 2)).tier.pendAct = none ∧
     tabGet (taken rowActivate (imgP 0) (withTbl 2)).tier.stakes (tblSlot (taken rowActivate (imgP 0) (withTbl 2)) 3).stakeId = some tolStake ∧ tensorsOk (tblSlot (taken rowActivate (imgP 0) (withTbl 2)) 3).image tolStake = true) ∧
    (Accepted rowTblRetire (withTbl 2) (imgP 0) ∧
      slotOfSet (taken rowTblRetire (imgP 0) (withTbl 2)) 5 = some 3 ∧ (tblSlot (taken rowTblRetire (imgP 0) (withTbl 2)) 3).state = 2 ∧ (taken rowTblRetire (imgP 0) (withTbl 2)).tier.pendAct = none) := by
  refine ⟨⟨taking ?_, ?_⟩, ⟨taking ?_, ?_⟩, ⟨taking ?_, ?_⟩, ⟨taking ?_, ?_⟩, ⟨taking ?_, ?_⟩, ⟨taking ?_, ?_⟩, ⟨taking ?_, ?_⟩, ⟨taking ?_, ?_⟩⟩ <;> decide

/-- A stack in service whose rows are retired at the first error, with `n` rows of the first channel retired. -/
def rowsGone (n : Nat) : State :=
  { liveH with regs := [(ERR_TH_HBM_ROW, 0x10001)], tier := { liveH.tier with remaps := List.replicate n { row := 0, copying := false } } }
def afterError (s : State) : State :=
  modErr (fun e => { e with rowHist := histAdd e.rowHist (rowBase 0) (msNow (atTick 5 s)) })
    (record { cause := 0x12, cls := 0, kind := 5, unit := stackOf 0, addr := 0 } (bump (MEM_HBM_CE_CNT (stackOf 0)) 1 (atTick 5 s)))
def reached (s : State) : Bool :=
  histReached (tabGetD (afterError s).err.rowHist (rowBase 0) []) (regField s ERR_TH_HBM_ROW 7 0) (3600000 * regField s ERR_TH_HBM_ROW 23 16)
def withLpx (st : State) : State := { st with tier := { st.tier with lpx := List.replicate 16 1 } }
def movedObj : State := { frames7 2 live with tier := { live.tier with objMoves := [⟨.page 7, [(0, 9)]⟩] } }
set_option maxRecDepth 8192 in
theorem witness_CorrectedMemoryErrors :
    (readable liveH = true ∧ hbmServes liveH (stackOf 0) = true ∧ reached liveH = false) ∧
    (reached (rowsGone 128) = true ∧ remapsLeft (afterError (rowsGone 128)) 0 = 0) ∧
    (reached (rowsGone 127) = true ∧ remapsLeft (afterError (rowsGone 127)) 0 ≠ 0) ∧
    (alive movedObj = true ∧ movedObj.tier.objMoves.find? (fun v => v.obj = .page 7) = some ⟨.page 7, [(0, 9)]⟩) ∧
    ((cluster (inStep {}) 0).present = true ∧ inContext 1 0x20000FFFFFF = true ∧ inContext 0 0x20000000000 = true) ∧
    (lpxDeviceServes (withLpx live) 15 = true ∧ lpxBase (15 / 8) ≤ lpxBase 1 + 7 * 4096 ∧ lpxBase 1 + 7 * 4096 < lpxBase (15 / 8 + 1) ∧ lpxDeviceOf (lpxBase 1 + 7 * 4096) = 15) := by
  refine ⟨?_, ?_, ?_, ?_, ?_, ?_⟩ <;> decide

/-- Objects that an error damages: a table image, and a withy version in LPDDR5X. -/
def tblDamaged : State := { liveH with tier := { liveH.tier with slots := [{ state := 3, setId := 5, stakeId := 5 }] } }
def withyAt (n : Nat) (l : List Nat) : WithyVer :=
  { state := n, rank := 0, proj := 0, stakeId := 5, alpha := 0, len := 0, crc := 0, image := [], widths := [], lib := none, libExt := l, pins := 0, born := 0 }
def withyLpx : State := { withLpx live with tier := { (withLpx live).tier with withies := [(withyKey 3 1, withyAt 1 [lpxBase 1])] } }
set_option maxRecDepth 8192 in
theorem witness_UncorrectedMemoryErrors :
    (alive tblDamaged = true ∧ objectHolds tblDamaged (tableDpa 0 0) (.tableImage 0 0) = true ∧ hbmServes tblDamaged (stackOf (tableDpa 0 0)) = true) ∧
    (alive withyLpx = true ∧ objectHolds withyLpx (lpxBase 1) (.withy 3 1) = true ∧ lpxBase 0 ≤ lpxBase 1 ∧ lpxBase 1 < lpxBase 2 ∧ lpxServes withyLpx (if lpxBase 1 < lpxBase 1 then 0 else 1) = true) ∧
    (alive (man3 4 live) = true ∧ sramHolds (man3 4 live) 0x200007FFFFF (.berth 3) = true ∧ sramHolds (withQp pair live) 0x20000000000 (.qp 4) = true ∧
     sramHolds live 0 (.msaLine 32767) = true) ∧
    (hostHeard live = true ∧ 15 < 16 ∧ winEnabled live 15 = false ∧ bit 1 0 = true ∧ winAligned (regSet (MEM_HOSTWIN_CTRL 15) (setBits 1 0 0 0) live) 15 = true) ∧
    (winOf (0x400600 + 0x20 * 15 + 8) = some 15 ∧ 8 ≤ (0x400600 + 0x20 * 15 + 8) % 0x20 ∧ (0x400600 + 0x20 * 15 + 8) % 0x20 < 0x18) := by
  refine ⟨?_, ?_, ?_, ?_, ?_⟩ <;> decide

/-- A configuration record that keeps its layout. -/
def cfgB' : Bytes := toLe 4 0x47464E43 ++ toLe 2 1 ++ zeros 70 ++ toLe 2 1 ++ toLe 2 1 ++ zeros 4016
def licB' : Bytes := toLe 4 0x43494C50 ++ toLe 2 1 ++ zeros 2 ++ toLe 4 9 ++ zeros 164
def stagedAll : State := { live with flash := { live.flash with staged := 7 } }
def writing (j : FlashJob) : State := { live with flash := { live.flash with holder := some j, holderPkt := some (cmd 0 0 0 0 0 []) } }
def ticking : State := { live with dev := { live.dev with featuresOn := 0x60 } }
-- A record of 4,096 bytes is evaluated by the kernel.
theorem witness_FlashIsWritten_cfg :
    Accepted rowCfgWrite live (cmd 0 0 0 0 0 cfgB') ∧ cfgWriteOk cfgB' = true ∧ (taken rowCfgWrite (cmd 0 0 0 0 0 cfgB') live).flash.holder = none ∧
      cfgTop (taken rowCfgWrite (cmd 0 0 0 0 0 cfgB') live).flash + 1 ≠ 2 ^ 64 - 1 := by
  refine ⟨taking ?_, ?_, ?_, ?_⟩ <;> decide +kernel
set_option maxRecDepth 8192 in
theorem witness_FlashIsWritten :
    (Accepted rowCfgRead live (cmd 0 2 0 0 0 []) ∧
      paramsZero (cmd 0 2 0 0 0 []) true false false false = true ∧ 2 < 3) ∧
    (Accepted rowLic live (cmd 0 0 0 0 0 licB') ∧
      licLayout licB' = true ∧ (taken rowLic (cmd 0 0 0 0 0 licB') live).flash.holder = none ∧ licSlot (taken rowLic (cmd 0 0 0 0 0 licB') live).flash (licId licB') = some 0) ∧
    (Accepted rowStage live (cmd 0 2 0 0 0 []) ∧
      recoveryTakes live (cmd 0 2 0 0 0 []) = false ∧ live.flash.holder = none ∧ (taken rowStage (cmd 0 2 0 0 0 []) live).flash.holder = none) ∧
    (Accepted rowCommit stagedAll (cmd 0 15 0 0 0 []) ∧
      recoveryTakes stagedAll (cmd 0 15 0 0 0 []) = false ∧ commitOk (cmd 0 15 0 0 0 []) = true ∧ commitComps (taken rowCommit (cmd 0 15 0 0 0 []) stagedAll) 15 = [0, 1, 2]) ∧
    (alive (writing (.cfg true [] false)) = true ∧ (writing (.cfg true [] false)).flash.holderPkt = some (cmd 0 0 0 0 0 []) ∧ (writing (.cfg true [] false)).flash.holder = some (.cfg true [] false)) ∧
    ((writing (.lic 0 [])).flash.holder = some (.lic 0 []) ∧ (writing (.stage 0 [] none true)).flash.holder = some (.stage 0 [] none true) ∧ (writing (.commit [0])).flash.holder = some (.commit [0])) ∧
    (alive ticking = true ∧ featureOn ticking 5 = true ∧ featureOn ticking 6 = true ∧ ticking.dev.telemetryDue ≤ max ticking.tick 0 ∧ ticking.dev.scrubDue ≤ max ticking.tick 0) := by
  refine ⟨⟨taking ?_, ?_⟩, ⟨taking ?_, ?_⟩, ⟨taking ?_, ?_⟩, ⟨taking ?_, ?_⟩, ?_, ?_, ?_⟩ <;> decide

/-- A device with an identity and one signature left, whose bottom tree stands or not. -/
def identity (t : Option Nat) : State :=
  { live with dev := { live.dev with idValid := true }, flash := { live.flash with counters := [2 ^ 30 - 1, 0, 0, 0, 0, 0, 0, 0], idTree := t } }
set_option maxRecDepth 8192 in
theorem witness_AttestationSigns :
    (Accepted rowAttest (identity (some (2 ^ 15 - 1))) (cmd 0 0 0 0 0 (zeros 32)) ∧
      (taken rowAttest (cmd 0 0 0 0 0 (zeros 32)) (identity (some (2 ^ 15 - 1)))).flash.counters.getD 0 0 = 2 ^ 30 - 1 ∧
     (taken rowAttest (cmd 0 0 0 0 0 (zeros 32)) (identity (some (2 ^ 15 - 1)))).dev.idValid = true ∧ (2 ^ 30 - 1) / 2 ^ 15 = 2 ^ 15 - 1 ∧
     (sigRecent (taken rowAttest (cmd 0 0 0 0 0 (zeros 32)) (identity none)).dev 5).length < 100) ∧
    (Accepted rowAttest (identity none) (cmd 0 0 0 0 0 (zeros 32)) ∧
      (taken rowAttest (cmd 0 0 0 0 0 (zeros 32)) (identity none)).flash.idTree = none) ∧
    (alive { live with dev := { live.dev with keygen := true } } = true) := by
  refine ⟨⟨taking ?_, ?_⟩, ⟨taking ?_, ?_⟩, ?_⟩ <;> decide

/-- A suspect step of composition 0's run, sent to the replayer at entry 0 over queue pair 4; and a replay with one part. -/
def aSuspect : Suspect := ⟨0, 9, [], [], [], 1, some (0, [8], 0), none⟩
def suspecting : State := { withQp pair live with regs := [(ERR_REPLAY_PEER 0, 0x80000004)], eng := { live.eng with runs := [(0, { runOf [] with suspects := [aSuspect] })] } }
def resB (k st : Nat) : Bytes := toLe 4 9 ++ toLe 1 k ++ toLe 1 1 ++ toLe 2 st ++ zeros 56
def resP (k st : Nat) : Pkt := onPair (cmd 0 9 0 0 0 (resB k st))
def repB (parts : Nat) : Bytes :=
  toLe 4 9 ++ zeros 3 ++ toLe 1 1 ++ toLe 4 5 ++ toLe 4 5 ++ toLe 2 1 ++ zeros 1 ++ toLe 1 parts ++ zeros 4 ++ toLe 4 (3 * 2 ^ 16) ++ zeros 4 ++
    toLe 1 2 ++ zeros 31 ++ zeros 16 ++ toLe 4 0xFFFFFFFF
def repP (parts : Nat) : Pkt := onPair (cmd 0 9 0 0 0 (repB parts))
def aReplay : ReplaySvc := ⟨.fabric 4 0x53 0, 9, 1, 0, 0, 5, 1, [], 2, 0, 0, none⟩
def replayer (l : Tab ReplaySvc) : State := { withQp pair (withTbl 2) with eng := { live.eng with services := l } }
set_option maxRecDepth 8192 in
theorem witness_VerdictsAndReplays :
    (Accepted rowVerifyResult suspecting (resP 0 stOk) ∧
      resultLayout (resP 0 stOk) = true ∧ suspectOf (ok 0x6A (resP 0 stOk) 0 (taken rowVerifyResult (resP 0 stOk) suspecting)) 9 = some aSuspect ∧
     leAt (resB 0 stOk) 5 1 = aSuspect.round ∧ arrivalQp (resP 0 stOk) = some (peerQpn (ok 0x6A (resP 0 stOk) 0 (taken rowVerifyResult (resP 0 stOk) suspecting)) 0) ∧ leAt (resB 0 stOk) 6 2 = stOk) ∧
    (Accepted rowVerifyResult suspecting (resP 0 stBusy) ∧
      resultLayout (resP 0 stBusy) = true ∧ leAt (resB 0 stBusy) 6 2 ≠ stOk ∧ suspectOf (ok 0x6A (resP 0 stBusy) 0 (taken rowVerifyResult (resP 0 stBusy) suspecting)) 9 = some aSuspect) ∧
    (Accepted rowVerifyResult (withQp pair live) (resP 0 stOk) ∧
      suspectOf (ok 0x6A (resP 0 stOk) 0 (taken rowVerifyResult (resP 0 stOk) (withQp pair live))) 9 = none) ∧
    (Accepted rowVerifyResult suspecting (resP 1 stOk) ∧
      resultLayout (resP 1 stOk) = true) ∧
    (Accepted rowVerifyResult suspecting (resP 2 stOk) ∧
      resultLayout (resP 2 stOk) = true) ∧
    (Accepted rowVerifyReplay (replayer []) (repP 1) ∧
      replayLayout (taken rowVerifyReplay (repP 1) (replayer [])) (repP 1) = true ∧ replayHolds (taken rowVerifyReplay (repP 1) (replayer [])) (repB 1) = true ∧
     leAt (repB 1) 28 4 = (taken rowVerifyReplay (repP 1) (replayer [])).dev.fwGen ∧ servicesBusy (taken rowVerifyReplay (repP 1) (replayer [])) < 4 ∧
     replayFind (taken rowVerifyReplay (repP 1) (replayer [])) (repP 1) = none ∧ leAt (repB 1) 19 1 = 1) ∧
    (Accepted rowVerifyReplay (replayer [(6, aReplay)]) (repP 2) ∧
      replayFind (taken rowVerifyReplay (repP 2) (replayer [(6, aReplay)])) (repP 2) = some (6, aReplay) ∧ (tabPut aReplay.parts (leAt (repB 2) 18 1) (repB 2)).length < aReplay.count ∧
     replayLayout (taken rowVerifyReplay (repP 2) (replayer [(6, aReplay)])) (repP 2) = true ∧ replayHolds (taken rowVerifyReplay (repP 2) (replayer [(6, aReplay)])) (repB 2) = true) ∧
    (alive suspecting = true ∧ suspectOf suspecting 9 = some aSuspect ∧ aSuspect.peer = some (0, [8], 0) ∧ 0 + msTicks (regField suspecting ERR_REPLAY_TMO 9 0) ≤ max suspecting.tick 1000000000 ∧
     roundArrives (atTick 1000000000 suspecting) 9 0 1 = false) := by
  refine ⟨⟨taking ?_, ?_⟩, ⟨taking ?_, ?_⟩, ⟨taking ?_, ?_⟩, ⟨taking ?_, ?_⟩, ⟨taking ?_, ?_⟩, ⟨taking ?_, ?_⟩, ⟨taking ?_, ?_⟩, ?_⟩ <;> decide

/-- Withy version 1 of withy 3: its load with its header read, and a slot that a promotion fills. -/
def wthP (k n : Nat) : Pkt := cmd 0 k (withyKey 3 1) 0 0 (zeros n)
def withyLoading : State := withLoad (.withy 3 1) live
def promoting : State :=
  { live with tier := { live.tier with withies := [(withyKey 3 1, withyAt 1 [])], wslots := [(1023, { state := 1, ver := withyKey 3 1, promo := true })] } }
set_option maxRecDepth 8192 in
theorem witness_WithiesAreHeld :
    (Accepted rowWthLoad live (wthP 0 31) ∧
      firstFail (atTick 5 live) rowWthLoad (wthP 0 31) = none ∧ paramsZero (wthP 0 31) true true false true = true ∧ withyKey 3 1 / 4096 ≠ 0xFFFFF ∧ withyKey 3 1 % 4096 ≠ 0xFFF ∧
     loadOf (taken rowWthLoad (wthP 0 31) live) (.withy 3 1) = none ∧ (wthTake 0 (withyKey 3 1) 0 (taken rowWthLoad (wthP 0 31) live)).1 = stOk ∧
     covers (loadPieces (loadPlace 0x18 (wthP 0 31) ⟨.withy 3 1, 0, [], false, [], 0⟩)) 32 = false ∧
     withyHeld (loadPut ⟨.withy 3 1, 0, [], false, [], 0⟩ (wthTake 0 (withyKey 3 1) 0 (taken rowWthLoad (wthP 0 31) live)).2) (withyKey 3 1) = none) ∧
    (Accepted rowWthLoad withyLoading (wthP 0 4) ∧
      loadOf (taken rowWthLoad (wthP 0 4) withyLoading) (.withy 3 1) = some (loading (.withy 3 1) true) ∧
     loadWhole (loadPlace 0x18 (wthP 0 4) (loading (.withy 3 1) true)) (wthLen (assemble (loadPieces (loadPlace 0x18 (wthP 0 4) (loading (.withy 3 1) true))))) = true) ∧
    (Accepted rowWthRetire live (wthP 0 0) ∧
      wthNameOk (wthP 0 0) = true) ∧
    (Accepted rowWthQuery live (wthP 0 0) ∧
      wthNameOk (wthP 0 0) = true) ∧
    (hostHeard live = true ∧ alive promoting = true ∧ (tabGet promoting.tier.wslots 1023).map (fun w => (w.state, w.promo)) = some (1, true) ∧ withyHeld promoting (withyKey 3 1) = some (withyAt 1 [])) := by
  refine ⟨⟨taking ?_, ?_⟩, ⟨taking ?_, ?_⟩, ⟨taking ?_, ?_⟩, ⟨taking ?_, ?_⟩, ?_⟩ <;> decide

def onMgmt (p : Pkt) : Pkt := { p with path := .mgmt 3 }
def restrictedDev : State := { live with dev := { live.dev with restrict := 1 } }
set_option maxRecDepth 8192 in
theorem witness_PathsAcceptTheirOpcodes :
    (versionOk live 5 (onPair (cmd 0 0 0 0 0 [])) = false ∧ versionOk (withQp pair live) 5 (onPair (cmd 0 0 0 0 0 [])) = true ∧ headerBad rowRestart (onPair (cmd 0 0 0 0 0 [])) = false ∧ opLacking 3 2 5 = false ∧
     pathOk 5 (onPair (cmd 0 0 0 0 0 [])).path = false ∧ neverAnswered 5 = false ∧ alive (withQp pair live) = true ∧ (withQp pair live).err.restarting = false ∧
     discarding (arrived (onPair (cmd 0 0 0 0 0 [])) (withQp pair live)) 5 (onPair (cmd 0 0 0 0 0 [])) = false) ∧
    (versionOk restrictedDev 0x24 (on3 0 0 []) = true ∧ headerBad rowCancel' (on3 0 0 []) = false ∧ opLacking 3 2 0x24 = false ∧ (on3 0 0 []).crcOk = true ∧ pathOk 0x24 (on3 0 0 []).path = true ∧
     pdOk restrictedDev (on3 0 0 []) = true ∧ restricted restrictedDev = true ∧ mgmtClass 0x24 = false) ∧
    (mgmtClass rowQuery'.code = true) := by
  refine ⟨?_, ?_, ?_⟩ <;> decide

def onI3c (p : Pkt) : Pkt := { p with path := .i3c }
set_option maxRecDepth 8192 in
theorem witness_CommandsAreAnswered :
    (Accepted rowNop live (cmd 0 0 0 0 0 []) ∧
      (cmd 0 0 0 0 0 []).p0 = 0) ∧
    (firstFail (arrived (cmd 0 0 0 0 0 []) restrictedDev) rowCancel' (cmd 0 0 0 0 0 []) = some (stRestricted, 7) ∧ neverAnswered rowCancel'.code = false ∧ alive restrictedDev = true ∧
     discarding (arrived (cmd 0 0 0 0 0 []) restrictedDev) rowCancel'.code (cmd 0 0 0 0 0 []) = false) ∧
    ((cmd 0 0 0 0 0 []).noReply = false ∧ stRestricted ≠ stOk ∧ stRestricted ≠ stInternal ∧ (onI3c (cmd 0 0 0 0 0 [])).path = .i3c) := by
  refine ⟨⟨taking ?_, ?_⟩, ?_, ?_⟩ <;> decide

set_option maxRecDepth 8192 in
theorem witness_MisalignedAccessesAreAnswered :
    (Accepted (memRow' 0x50) live (cmd 0 0 63 0 0 []) ∧
      memStale (memRow' 0x50) (cmd 0 0 63 0 0 []) (atTick 5 live) = false ∧ memOff (cmd 0 0 63 0 0 []) % 64 ≠ 0) ∧
    (Accepted (memRow' 0x51) live (cmd 0 0 1 0 0 (zeros 64)) ∧
      memStale (memRow' 0x51) (cmd 0 0 1 0 0 (zeros 64)) (atTick 5 live) = false ∧ memOff (cmd 0 0 1 0 0 (zeros 64)) % 64 ≠ 0) ∧
    (Accepted (memRow' 0x52) live (cmd 0 0 7 0 0 (zeros 16)) ∧
      memStale (memRow' 0x52) (cmd 0 0 7 0 0 (zeros 16)) (atTick 5 live) = false ∧ memOff (cmd 0 0 7 0 0 (zeros 16)) % 8 ≠ 0) ∧
    ((memKind 0x50 ldP).isSome = true ∧ (memKind 0x51 stP).isSome = true ∧ (memKind 0x52 atP).isSome = true) := by
  refine ⟨⟨taking ?_, ?_⟩, ⟨taking ?_, ?_⟩, ⟨taking ?_, ?_⟩, ?_⟩ <;> decide

/-- A step runs, so that a swap out waits for its boundary. -/
def stepping (s : State) : State := { s with eng := { s.eng with step := some stepOf0 } }
set_option maxRecDepth 8192 in
theorem witness_SwapsNeedTheirState :
    (Accepted outRow' (man3 2 live) (on3 0 0 []) ∧
      named3 outRow' (man3 2 live) (on3 0 0 []) = true ∧ (berthAt (taken outRow' (on3 0 0 []) (man3 2 live)) 3).map (·.prog.state) = some 2) ∧
    (Accepted outRow' (stepping (man3 4 live)) (on3 0 0 []) ∧
      named3 outRow' (stepping (man3 4 live)) (on3 0 0 []) = true ∧ (taken outRow' (on3 0 0 []) (stepping (man3 4 live))).eng.step ≠ none ∧
     (berthAt (taken outRow' (on3 0 0 []) (stepping (man3 4 live))) 3).map (fun x => (x.prog.state, x.swapPkt, pagesMoving (taken outRow' (on3 0 0 []) (stepping (man3 4 live))) 3 x)) = some (4, none, false)) ∧
    (Accepted inRow' (man3 4 live) (on3 0 0 []) ∧
      named3 inRow' (man3 4 live) (on3 0 0 []) = true ∧ (berthAt (taken inRow' (on3 0 0 []) (man3 4 live)) 3).map (·.prog.state) = some 4) ∧
    (Accepted inRow' (swapped 6 false false) (on3 0 0 []) ∧
      (swapInBegin 3 (modBerth 3 (fun y => { y with swapPkt := some (on3 0 0 []) }) (taken inRow' (on3 0 0 []) (swapped 6 false false)))).isSome = true) := by
  refine ⟨⟨taking ?_, ?_⟩, ⟨taking ?_, ?_⟩, ⟨taking ?_, ?_⟩, ⟨taking ?_, ?_⟩⟩ <;> decide

theorem witness_FieldsFollowTheirAccess :
    ((fieldsOf ERR_TH_CORE_FENCE).length = 2) ∧
    (fieldsRsvd (fieldsOf THM_IN_LEVEL) 16 = false ∧ fieldsRsvd (fieldsOf THM_IN_LEVEL) 17 = true) := by
  refine ⟨?_, ?_⟩ <;> decide

/-! ## Worked examples and check values of the spec -/
-- The check value of R309.
theorem test_crc32c : crc32c [0x31, 0x32, 0x33, 0x34, 0x35, 0x36, 0x37, 0x38, 0x39] = 0xE3069283 := by decide +kernel
-- The byte of R75's example: +1, 0, -1, -1, +1.
theorem test_trits : (List.range 5).map (trit 0xA7) = [2, 1, 0, 0, 2] := by decide
/-- The key block of chapter 3's worked example. -/
def keyBlock : List Dyad :=
  [f32Val 0x3E99999A, f32Val 0xBF1EB852] ++ List.replicate 3 dyZero ++ [f32Val 0xBFB33333] ++ List.replicate 11 dyZero ++ [f32Val 0x4134CCCD]
-- With its escape: scale 125, payload byte 0 0xC2, the record 0x7D, 0x63, 0x31 of the example.
theorem test_block_with_escape :
    (writeBlock false 0x7 1 keyBlock).elems.take 1 = [0xC2] ∧ (writeBlock false 0x7 1 keyBlock).recd = [0x7D, 0x63, 0x31] := by decide +kernel
-- Without: scale 128, payload byte 0 0x90.
theorem test_block_without_escape :
    (writeBlock false 0x7 0 keyBlock).elems.take 1 = [0x90] ∧ (writeBlock false 0x7 0 keyBlock).recd = [0x80] := by decide +kernel
-- The code table of chapter 7's worked example: 0x0 has code 00, 0x9 100, 0xB 1101, 0xF 1111111.
theorem test_canonical_codes :
    [(2, 0, 0x0), (3, 4, 0x9), (4, 13, 0xB), (7, 127, 0xF)].all (fun x =>
      (canonCodes 0 0 (canonOrder [2, 3, 3, 4, 5, 6, 7, 7, 0, 3, 3, 4, 5, 6, 7, 7])).contains x) = true := by decide
-- A combined FETCH_ADD of multiplicity 32 over 4,096 leaves 4,128 (chapter 14's worked example).
theorem test_fetch_add : atomicNew 0 1 0 32 4096 = 4128 := by decide
/-- Berth 0x123 in use, its incarnation 5. -/
def berth123 : State := { live with man := { live.man with berths := [(0x123, {})], incarn := [(0x123, 5)] } }
-- MANIFEST_ID 0x0001_4123 names berth 0x123, incarnation 5 (chapter 12's worked example).
theorem test_manifest_id : berthNamed berth123 0x14123 = some 0x123 ∧ berthNamed berth123 0x10123 = none := by decide
/-- Ring 12 of chapter 12's worked example: 1,024 slots, HEAD 1,010, one doorbell with tail 4. -/
def ring12 : State :=
  { live with regs := [(CMD_SQ_CTRL 12, 2 * 2 ^ 24)], sq := [(12, { state := 1, head := 1010, tail := 4, reach := 1010, fifo := [(4, true)] })],
              pending := [.sqTailConsume 12 [.packet 18 0x21]] }
/-- The state that a step leaves. -/
def after (o : Host.Outcome State Fault Refusal) : State := match o with | .next t => t | _ => State.reset
-- The packet's 18 slots move HEAD from 1,010 to 4, and the queue of commands is empty again.
theorem test_append_slots : sqSlots ring12 12 = 1024 ∧ (sqRing (after (step ring12)) 12).head = 4 ∧ (after (step ring12)).pending = [] := by decide
-- A NOP on the management port is answered ST_OK on the path on which it came (R324).
theorem test_nop_answered : (after (exec (.nop (onMgmt (cmd 0 0 0 0 0 []))) live)).out = [.reply (.mgmt 3) ⟨3, 2, 0, true, 7, 0, 0, 0, 0, 9⟩] := by decide
-- A NOP with a parameter that R324 does not list is rejected with ST_FORMAT.
theorem test_nop_format : ((after (exec (.nop (onMgmt (cmd 0 1 0 0 0 []))) live)).out.map fun o => match o with | .reply _ r => r.status | _ => 0) = [stFormat] := by decide
-- A sensor at 100 degrees takes the issue level one down (R517); the level does not fall below 4.
theorem test_throttle : (after (exec (.thermalSample 5 [100] false) live)).pwr.level = 15 ∧
    (after (exec (.thermalSample 5 [100] false) { live with pwr := { live.pwr with level := 4 } })).pwr.level = 4 := by decide +kernel
-- Package reset in service: held, no longer ready, and an empty epoch map (R515).
theorem test_package_reset : (after (exec .pkgResetAssert live)).dev.held = true ∧ (after (exec .pkgResetAssert live)).sched.map = [] := by decide
-- While the device is held no command packet is heard.
theorem test_held : (after (exec (.nop (cmd 0 0 0 0 0 [])) State.reset)).out = [] := by decide
-- The third failed attempt of the root to lock leaves the package in ROM (R457).
theorem test_third_try : (after (exec .rootLockTimeout { State.reset with dev := { held := false, rootTries := 2 } })).dev.inRom = true ∧
    (after (exec .rootLockTimeout { State.reset with dev := { held := false, rootTries := 1 } })).dev.inRom = false := by decide
/-! ## Well-formedness refuses -/
def aPkt : Pkt := cmd 0 0 0 0 0 []
def aRep : Rep := rep 0 0
def aFab : Fab := frameOf 0
theorem test_wf_ring : (Instr.cqStallTimeout 1024 0).wf = false ∧ (Instr.cqStallTimeout 1023 0).wf = true := by decide
theorem test_wf_fn : (Instr.flrComplete 32).wf = false ∧ (Instr.flrComplete 31).wf = true := by decide
theorem test_wf_word : (Instr.manBerthSelWrite (2 ^ 32)).wf = false ∧ (Instr.manBerthSelWrite (2 ^ 32 - 1)).wf = true := by decide
theorem test_wf_half : (Instr.evoestHcrcFail .mbox 65536).wf = false ∧ (Instr.evoestHcrcFail .mbox 65535).wf = true := by decide
theorem test_wf_byte : (Instr.bar0BadAccess true 0 256).wf = false ∧ (Instr.bar0BadAccess true 0 255).wf = true := by decide
theorem test_wf_tick : (Instr.perstAssert (2 ^ 64)).wf = false ∧ (Instr.perstAssert (2 ^ 64 - 1)).wf = true := by decide
theorem test_wf_port : (Instr.portSignalDetect 8).wf = false ∧ (Instr.portSignalDetect 7).wf = true := by decide
theorem test_wf_lane : (Instr.laneRetrainLock 0 4).wf = false ∧ (Instr.laneRetrainLock 0 3).wf = true := by decide
theorem test_wf_dev : (Instr.portExclusionExpire 0 4096 0).wf = false ∧ (Instr.portExclusionExpire 0 4095 0).wf = true := by decide
theorem test_wf_qp : (Instr.qpcEvictVerified (2 ^ 20)).wf = false ∧ (Instr.qpcEvictVerified (2 ^ 20 - 1)).wf = true := by decide
theorem test_wf_psn : (Instr.ackReceived 0 0 (2 ^ 24) 0).wf = false ∧ (Instr.ackReceived 0 0 (2 ^ 24 - 1) 0).wf = true := by decide
theorem test_wf_line : (Instr.msaLineApply 32768 0).wf = false ∧ (Instr.msaLineApply 32767 0).wf = true := by decide
theorem test_wf_core : (Instr.coreCorrectedError 1152 0).wf = false ∧ (Instr.coreCorrectedError 1151 0).wf = true := by decide
theorem test_wf_cluster : (Instr.clusterResetComplete 128).wf = false ∧ (Instr.clusterResetComplete 127).wf = true := by decide
theorem test_wf_region : (Instr.compressorObjectReady 32).wf = false ∧ (Instr.compressorObjectReady 31).wf = true := by decide
theorem test_wf_stack : (Instr.dieStackFence 4 0 .hbmStack).wf = false ∧ (Instr.dieStackFence 3 0 .hbmStack).wf = true := by decide
theorem test_wf_hbm : (Instr.hbmCorrectedError 12 0 0).wf = false ∧ (Instr.hbmCorrectedError 11 0 0).wf = true := by decide
theorem test_wf_lpx : (Instr.lpxCorrectedError 16 0 0).wf = false ∧ (Instr.lpxCorrectedError 15 0 0).wf = true := by decide
theorem test_wf_dpa : (Instr.hbmRowCopyDone (2 ^ 48) 0).wf = false ∧ (Instr.hbmRowCopyDone (2 ^ 48 - 1) 0).wf = true := by decide
theorem test_wf_frame : (Instr.arrivingFrameTimeout (2 ^ 32) 0).wf = false ∧ (Instr.arrivingFrameTimeout (2 ^ 32 - 1) 0).wf = true := by decide
theorem test_wf_berth : (Instr.handoffTimeout 16384 0).wf = false ∧ (Instr.handoffTimeout 16383 0).wf = true := by decide
theorem test_wf_wslot : (Instr.promotionVerified 1024 true).wf = false ∧ (Instr.promotionVerified 1023 true).wf = true := by decide
theorem test_wf_flag : (Instr.signalDelivered 0 64 0).wf = false ∧ (Instr.signalDelivered 0 63 0).wf = true := by decide
theorem test_wf_bslot : (Instr.hostArrivalComplete 4096).wf = false ∧ (Instr.hostArrivalComplete 4095).wf = true := by decide
theorem test_wf_cp : (Instr.cpWatchdogExpire 8 0).wf = false ∧ (Instr.cpWatchdogExpire 7 0).wf = true := by decide
theorem test_wf_opcode : (Instr.mgtMboxGo 256 (cmd 0 0 0 0 0 [])).wf = false ∧ (Instr.mgtMboxGo 255 (cmd 0 0 0 0 0 [])).wf = true := by decide
theorem test_wf_off0 : (Instr.reg64LowHalfRead 0x1000000).wf = false ∧ (Instr.reg64LowHalfRead 16777215).wf = true := by decide
theorem test_wf_off4 : (Instr.bar4Write (2 ^ 48) []).wf = false ∧ (Instr.bar4Write (2 ^ 48 - 1) []).wf = true := by decide
theorem test_wf_vec : (Instr.msixUnmask 0 2048).wf = false ∧ (Instr.msixUnmask 0 2047).wf = true := by decide
theorem test_wf_pin : (Instr.traceTrigInput 16 true).wf = false ∧ (Instr.traceTrigInput 15 true).wf = true := by decide
theorem test_wf_die : (Instr.ioDieFatalError 0 2).wf = false ∧ (Instr.ioDieFatalError 0 1).wf = true := by decide
theorem test_wf_sensor : (Instr.thermtrip 0 22).wf = false ∧ (Instr.thermtrip 0 21).wf = true := by decide
theorem test_wf_addr7 : (Instr.i3cEntdaa 128).wf = false ∧ (Instr.i3cEntdaa 127).wf = true := by decide
theorem test_wf_step : (Instr.stepBoundary 0 (2 ^ 32)).wf = false ∧ (Instr.stepBoundary 0 (2 ^ 32 - 1)).wf = true := by decide
theorem test_wf_tbl : (Instr.memoryUe 0 0 true (.tableImage 4 0)).wf = false ∧ (Instr.memoryUe 0 0 true (.tableImage 3 3)).wf = true := by decide
theorem test_wf_path : (Path.ring 1024).wf = false ∧ (Path.fabric (2 ^ 20) 0 0).wf = false ∧ (Path.fabric 0 4096 0).wf = false ∧ (Path.fabric 0 0 8).wf = false := by decide
theorem test_wf_pkt : (Instr.nop aPkt).wf = true ∧
    (Instr.nop { aPkt with path := .ring 1024 }).wf = false ∧
    (Instr.nop { aPkt with now := 2 ^ 64 }).wf = false ∧
    (Instr.nop { aPkt with format := 256 }).wf = false ∧
    (Instr.nop { aPkt with minor := 256 }).wf = false ∧
    (Instr.nop { aPkt with flagsRsvd := 32 }).wf = false ∧
    (Instr.nop { aPkt with tag := 2 ^ 32 }).wf = false ∧
    (Instr.nop { aPkt with mid := 2 ^ 32 }).wf = false ∧
    (Instr.nop { aPkt with epoch := 2 ^ 32 }).wf = false ∧
    (Instr.nop { aPkt with pd := 2 ^ 32 }).wf = false ∧
    (Instr.nop { aPkt with offset := 2 ^ 64 }).wf = false ∧
    (Instr.nop { aPkt with p0 := 2 ^ 32 }).wf = false ∧
    (Instr.nop { aPkt with p1 := 2 ^ 32 }).wf = false ∧
    (Instr.nop { aPkt with p2 := 2 ^ 32 }).wf = false ∧
    (Instr.nop { aPkt with p3 := 2 ^ 32 }).wf = false ∧
    (Instr.nop { aPkt with slack := 2 ^ 32 }).wf = false ∧
    (Instr.nop { aPkt with seq := 2 ^ 32 }).wf = false ∧
    (Instr.nop { aPkt with rsvd := 2 ^ 32 }).wf = false := by decide
theorem test_wf_rep : (Instr.replyReceived aRep).wf = true ∧
    (Instr.replyReceived { aRep with qp := 2 ^ 20 }).wf = false ∧
    (Instr.replyReceived { aRep with now := 2 ^ 64 }).wf = false ∧
    (Instr.replyReceived { aRep with tag := 2 ^ 32 }).wf = false ∧
    (Instr.replyReceived { aRep with opcode := 256 }).wf = false ∧
    (Instr.replyReceived { aRep with mid := 2 ^ 32 }).wf = false ∧
    (Instr.replyReceived { aRep with status := 65536 }).wf = false ∧
    (Instr.replyReceived { aRep with detail := 65536 }).wf = false ∧
    (Instr.replyReceived { aRep with result := 2 ^ 64 }).wf = false ∧
    (Instr.replyReceived { aRep with seq := 2 ^ 32 }).wf = false := by decide
theorem test_wf_fab : (Instr.tclDataReceived aFab).wf = true ∧
    (Instr.tclDataReceived { aFab with port := 8 }).wf = false ∧
    (Instr.tclDataReceived { aFab with now := 2 ^ 64 }).wf = false ∧
    (Instr.tclDataReceived { aFab with dstDev := 4096 }).wf = false ∧
    (Instr.tclDataReceived { aFab with srcDev := 4096 }).wf = false ∧
    (Instr.tclDataReceived { aFab with dstQp := 2 ^ 20 }).wf = false ∧
    (Instr.tclDataReceived { aFab with srcQp := 2 ^ 20 }).wf = false ∧
    (Instr.tclDataReceived { aFab with psn := 2 ^ 24 }).wf = false ∧
    (Instr.tclDataReceived { aFab with msgId := 2 ^ 32 }).wf = false ∧
    (Instr.tclDataReceived { aFab with pktIdx := 65536 }).wf = false ∧
    (Instr.tclDataReceived { aFab with pktCount := 65536 }).wf = false ∧
    (Instr.tclDataReceived { aFab with opcode := 256 }).wf = false ∧
    (Instr.tclDataReceived { aFab with offset := 2 ^ 64 }).wf = false ∧
    (Instr.tclDataReceived { aFab with len := 2 ^ 32 }).wf = false ∧
    (Instr.tclDataReceived { aFab with tag := 2 ^ 32 }).wf = false := by decide
theorem test_wf_read : (Instr.sqTailConsume 0 [.packet 65536 0]).wf = false ∧ (Instr.sqTailConsume 0 [.packet 0 256]).wf = false ∧ (Instr.sqTailConsume 0 [.poison, .packet 1 1]).wf = true := by decide
theorem test_wf_object : (DamagedObject.sealedPage (2 ^ 32)).wf = false ∧ (DamagedObject.stakeExtent (2 ^ 32)).wf = false ∧ (DamagedObject.withy (2 ^ 20) 0).wf = false ∧
    (DamagedObject.withy 0 4096).wf = false ∧ (DamagedObject.tableImage 0 4).wf = false ∧ (DamagedObject.openPage (2 ^ 32)).wf = false := by decide
theorem test_wf_moved : (MovedObject.page (2 ^ 32)).wf = false ∧ (MovedObject.stake (2 ^ 32)).wf = false ∧ (MovedObject.withy (2 ^ 20) 0).wf = false ∧ (MovedObject.withy 0 4096).wf = false := by decide
theorem test_wf_cycle : (ClusterCycle.mk 128 0).wf = false ∧ (ClusterCycle.mk 0 (2 ^ 32)).wf = false ∧ (ClusterCycle.mk 127 0).wf = true := by decide
theorem test_wf_resp : (RespName.mk (2 ^ 32) 0).wf = false ∧ (RespName.mk 0 (2 ^ 32)).wf = false ∧ (RespName.mk 0 0).wf = true := by decide
theorem test_wf_owner : (SramOwner.berth 16384).wf = false ∧ (SramOwner.qp (2 ^ 20)).wf = false ∧ (SramOwner.msaLine 32768).wf = false := by decide
theorem test_wf_fifo : (FifoPlace.cluster 128).wf = false ∧ (FifoPlace.lighter 32).wf = false ∧ (FifoPlace.compressor 32).wf = false ∧ (FifoPlace.ioDie 2).wf = false := by decide
end Sys2Proof.Tests
end

section
/-! PROOF. What every command keeps, every step keeps: the invariant of R9, R446 and R517 (O5). -/
namespace Sys2Proof.Machine

/-- Every command keeps what `Keeps` names: the canonical memories, the ranges of R9, R446, R517 and R307, and the queue. -/
theorem exec_keeps {s₀ : State} (c : Instr) (s : State) (h : Keeps s₀ s) : KeepsX s₀ (exec c s) := by
  cases c with
  | nop p => exact execNop_keeps p s h
  | sysHello p => exact execSysHello_keeps p s h
  | sysCaps p => exact execSysCaps_keeps p s h
  | sysFence p => exact execSysFence_keeps p s h
  | sysEpoch p => exact execSysEpoch_keeps p s h
  | sysRestartWarm p => exact execSysRestartWarm_keeps p s h
  | sysRestartDeviceReset p => exact execSysRestartDeviceReset_keeps p s h
  | cfgRead p => exact execCfgRead_keeps p s h
  | cfgWrite p => exact execCfgWrite_keeps p s h
  | licInstall p => exact execLicInstall_keeps p s h
  | fwStage p => exact execFwStage_keeps p s h
  | fwCommit p => exact execFwCommit_keeps p s h
  | secAttest p => exact execSecAttest_keeps p s h
  | tblLoad p => exact execTblLoad_keeps p s h
  | tblActivate p => exact execTblActivate_keeps p s h
  | tblRetire p => exact execTblRetire_keeps p s h
  | stkLoad p => exact execStkLoad_keeps p s h
  | stkRetire p => exact execStkRetire_keeps p s h
  | wthLoad p => exact execWthLoad_keeps p s h
  | wthRetire p => exact execWthRetire_keeps p s h
  | wthQuery p => exact execWthQuery_keeps p s h
  | reqAdmit p => exact execReqAdmit_keeps p s h
  | reqAppend p => exact execReqAppend_keeps p s h
  | reqHandoffRetarget p => exact execReqHandoffRetarget_keeps p s h
  | reqHandoffTransfer p => exact execReqHandoffTransfer_keeps p s h
  | reqAccept p => exact execReqAccept_keeps p s h
  | reqCancel p => exact execReqCancel_keeps p s h
  | reqQuery p => exact execReqQuery_keeps p s h
  | reqRebuild p => exact execReqRebuild_keeps p s h
  | reqRelease p => exact execReqRelease_keeps p s h
  | reqDraft p => exact execReqDraft_keeps p s h
  | pagePut p => exact execPagePut_keeps p s h
  | pageGet p => exact execPageGet_keeps p s h
  | pageSeal p => exact execPageSeal_keeps p s h
  | pageMirrorCopy p => exact execPageMirrorCopy_keeps p s h
  | pageMirrorClose p => exact execPageMirrorClose_keeps p s h
  | pageMirrorRepair p => exact execPageMirrorRepair_keeps p s h
  | pageMirrorDone p => exact execPageMirrorDone_keeps p s h
  | pageMirrorPartial p => exact execPageMirrorPartial_keeps p s h
  | pageDrop p => exact execPageDrop_keeps p s h
  | pageSwapOut p => exact execPageSwapOut_keeps p s h
  | pageSwapIn p => exact execPageSwapIn_keeps p s h
  | attPartial p => exact execAttPartial_keeps p s h
  | attResult p => exact execAttResult_keeps p s h
  | tokStreamReceived p => exact execTokStreamReceived_keeps p s h
  | qpCreate p => exact execQpCreate_keeps p s h
  | qpModify p => exact execQpModify_keeps p s h
  | qpDestroy p => exact execQpDestroy_keeps p s h
  | pdCreate p => exact execPdCreate_keeps p s h
  | regionRegister p => exact execRegionRegister_keeps p s h
  | regionDeregister p => exact execRegionDeregister_keeps p s h
  | recvPost p => exact execRecvPost_keeps p s h
  | sendMsg p => exact execSendMsg_keeps p s h
  | memLoad p => exact execMemLoad_keeps p s h
  | memStore p => exact execMemStore_keeps p s h
  | memAtomic p => exact execMemAtomic_keeps p s h
  | memGateway p => exact execMemGateway_keeps p s h
  | schShares p => exact execSchShares_keeps p s h
  | schShaper p => exact execSchShaper_keeps p s h
  | compCreate p => exact execCompCreate_keeps p s h
  | compMeter p => exact execCompMeter_keeps p s h
  | testSentinel p => exact execTestSentinel_keeps p s h
  | testKat p => exact execTestKat_keeps p s h
  | errRecordReceived p => exact execErrRecordReceived_keeps p s h
  | verifyReplay p => exact execVerifyReplay_keeps p s h
  | verifyResult p => exact execVerifyResult_keeps p s h
  | evoestHcrcFail path slot => exact execEvoestHcrcFail_keeps path slot s h
  | replyReceived r => exact execReplyReceived_keeps r s h
  | responsePacketReceived qp now name opcode offset last payload => exact execResponsePacketReceived_keeps qp now name opcode offset last payload s h
  | handoffTransferReply r => exact execHandoffTransferReply_keeps r s h
  | acceptReply r => exact execAcceptReply_keeps r s h
  | pageMoveReply r => exact execPageMoveReply_keeps r s h
  | pageDropReply r => exact execPageDropReply_keeps r s h
  | attPartialStatusReply r => exact execAttPartialStatusReply_keeps r s h
  | msaForwardReply r response => exact execMsaForwardReply_keeps r response s h
  | sqDoorbellWrite fn ring value parityGood => exact execSqDoorbellWrite_keeps fn ring value parityGood s h
  | sqTailConsume ring reads => exact execSqTailConsume_keeps ring reads s h
  | cqHeadDoorbellWrite fn ring value => exact execCqHeadDoorbellWrite_keeps fn ring value s h
  | cqStallTimeout ring now => exact execCqStallTimeout_keeps ring now s h
  | cqCoalTimeout ring now => exact execCqCoalTimeout_keeps ring now s h
  | sqEnable fn ring value => exact execSqEnable_keeps fn ring value s h
  | sqDisable fn ring value => exact execSqDisable_keeps fn ring value s h
  | cqEnable fn ring value => exact execCqEnable_keeps fn ring value s h
  | cqDisable fn ring value => exact execCqDisable_keeps fn ring value s h
  | hostwinEnableWrite n value => exact execHostwinEnableWrite_keeps n value s h
  | hostwinFieldWrite offset value => exact execHostwinFieldWrite_keeps offset value s h
  | manBerthSelWrite value => exact execManBerthSelWrite_keeps value s h
  | wthSlotSelWrite value => exact execWthSlotSelWrite_keeps value s h
  | qpcSelWrite value => exact execQpcSelWrite_keeps value s h
  | schShapeSelWrite value => exact execSchShapeSelWrite_keeps value s h
  | errLogSelWrite value => exact execErrLogSelWrite_keeps value s h
  | portRetrainWrite port => exact execPortRetrainWrite_keeps port s h
  | schHistClear => exact execSchHistClear_keeps s h
  | devResetDevice value => exact execDevResetDevice_keeps value s h
  | devResetCpRestart value => exact execDevResetCpRestart_keeps value s h
  | devIrqStatusWrite value eventsNow => exact execDevIrqStatusWrite_keeps value eventsNow s h
  | devIrqEnableWrite value => exact execDevIrqEnableWrite_keeps value s h
  | mgtMboxGo opcode p => exact execMgtMboxGo_keeps opcode p s h
  | bar4Read offset len uncorrected => exact execBar4Read_keeps offset len uncorrected s h
  | bar4Write offset bytes => exact execBar4Write_keeps offset bytes s h
  | bar0BadAccess write offset size => exact execBar0BadAccess_keeps write offset size s h
  | regReservedWrite fn offset value => exact execRegReservedWrite_keeps fn offset value s h
  | regWrite fn offset size value => exact execRegWrite_keeps fn offset size value s h
  | reg64LowHalfRead offset => exact execReg64LowHalfRead_keeps offset s h
  | seqStepMaxRead => exact execSeqStepMaxRead_keeps s h
  | attRttMaxRead => exact execAttRttMaxRead_keeps s h
  | qpcFetchMaxRead => exact execQpcFetchMaxRead_keeps s h
  | msaLineMaxRead => exact execMsaLineMaxRead_keeps s h
  | functionLevelReset fn now => exact execFunctionLevelReset_keeps fn now s h
  | flrComplete fn => exact execFlrComplete_keeps fn s h
  | vfEnableChange enable numVfs => exact execVfEnableChange_keeps enable numVfs s h
  | msixUnmask fn vector => exact execMsixUnmask_keeps fn vector s h
  | perstAssert now => exact execPerstAssert_keeps now s h
  | perstDeassert flit width speed => exact execPerstDeassert_keeps flit width speed s h
  | pcieHotReset now => exact execPcieHotReset_keeps now s h
  | pcieLinkDown => exact execPcieLinkDown_keeps s h
  | pcieLinkUp flit width speed => exact execPcieLinkUp_keeps flit width speed s h
  | i3cEntdaa address => exact execI3cEntdaa_keeps address s h
  | mctpControlMessage body => exact execMctpControlMessage_keeps body s h
  | i3cClkStatusRead => exact execI3cClkStatusRead_keeps s h
  | uartRx bytes => exact execUartRx_keeps bytes s h
  | jtagInstruction instr => exact execJtagInstruction_keeps instr s h
  | pkgResetRelease power => exact execPkgResetRelease_keeps power s h
  | pkgResetAssert => exact execPkgResetAssert_keeps s h
  | rootSynthLock us pufGood => exact execRootSynthLock_keeps us pufGood s h
  | rootLockTimeout => exact execRootLockTimeout_keeps s h
  | rootLockLoss now => exact execRootLockLoss_keeps now s h
  | ref100Loss now => exact execRef100Loss_keeps now s h
  | memoryTrainingDone hbmFailed lpxFailed cmpTargets => exact execMemoryTrainingDone_keeps hbmFailed lpxFailed cmpTargets s h
  | katComplete failed => exact execKatComplete_keeps failed s h
  | microcodeBroadcastDone stillDiffer => exact execMicrocodeBroadcastDone_keeps stillDiffer s h
  | portTrainingStepEnd now => exact execPortTrainingStepEnd_keeps now s h
  | thermalSample now celsius throttleIn => exact execThermalSample_keeps now celsius throttleIn s h
  | powerEstimate now watts railsMv => exact execPowerEstimate_keeps now watts railsMv s h
  | avsAdjust now stack up acked => exact execAvsAdjust_keeps now stack up acked s h
  | thermtrip now sensor => exact execThermtrip_keeps now sensor s h
  | ioDieFatalError now die => exact execIoDieFatalError_keeps now die s h
  | portSignalDetect port => exact execPortSignalDetect_keeps port s h
  | portDetectTimeout port now => exact execPortDetectTimeout_keeps port now s h
  | portLaneLock port lanes fast => exact execPortLaneLock_keeps port lanes fast s h
  | portRateFallbackTimeout port now => exact execPortRateFallbackTimeout_keeps port now s h
  | portTrainTimeout port now => exact execPortTrainTimeout_keeps port now s h
  | portNegotiateDone port now major minor plane => exact execPortNegotiateDone_keeps port now major minor plane s h
  | portNegotiateTimeout port now => exact execPortNegotiateTimeout_keeps port now s h
  | laneLossOfLock port lane now => exact execLaneLossOfLock_keeps port lane now s h
  | laneRetrainLock port lane => exact execLaneRetrainLock_keeps port lane s h
  | keepaliveSend port now => exact execKeepaliveSend_keeps port now s h
  | keepaliveReceived port now plane txTick echoTick hold => exact execKeepaliveReceived_keeps port now plane txTick echoTick hold s h
  | keepaliveMiss port now => exact execKeepaliveMiss_keeps port now s h
  | creditReceived port credits => exact execCreditReceived_keeps port credits s h
  | pauseReceived port now tcl tcs time => exact execPauseReceived_keeps port now tcl tcs time s h
  | pauseExpire port now => exact execPauseExpire_keeps port now s h
  | frameSendStart port now tcs => exact execFrameSendStart_keeps port now tcs s h
  | linkFrameInvalid port otherDevice => exact execLinkFrameInvalid_keeps port otherDevice s h
  | tclDataReceived f => exact execTclDataReceived_keeps f s h
  | tcsDataReceived f => exact execTcsDataReceived_keeps f s h
  | ackReceived qp port psn now => exact execAckReceived_keeps qp port psn now s h
  | nakReceived qp port psn now code => exact execNakReceived_keeps qp port psn now code s h
  | sackReceived qp port msgId base now complete noBuffer bitmap => exact execSackReceived_keeps qp port msgId base now complete noBuffer bitmap s h
  | tclAckTimeout qp now => exact execTclAckTimeout_keeps qp now s h
  | tclAckDelayExpire qp now => exact execTclAckDelayExpire_keeps qp now s h
  | tclNoContextResend qp now => exact execTclNoContextResend_keeps qp now s h
  | tcsRetransmitTimeout qp msgId pktIdx now => exact execTcsRetransmitTimeout_keeps qp msgId pktIdx now s h
  | tcsSackTimer qp msgId now => exact execTcsSackTimer_keeps qp msgId now s h
  | tcsAssemblyTimeout qp msgId now => exact execTcsAssemblyTimeout_keeps qp msgId now s h
  | portExclusionExpire port dest now => exact execPortExclusionExpire_keeps port dest now s h
  | qpcEvictVerified qp => exact execQpcEvictVerified_keeps qp s h
  | qpcFetchComplete qp now => exact execQpcFetchComplete_keeps qp now s h
  | qpcFetchFail qp now => exact execQpcFetchFail_keeps qp now s h
  | qpcHoldTimeout qp now => exact execQpcHoldTimeout_keeps qp now s h
  | shaperWheelSlot now => exact execShaperWheelSlot_keeps now s h
  | queueSampleTick now => exact execQueueSampleTick_keeps now s h
  | msaLineApply line now => exact execMsaLineApply_keeps line now s h
  | msaOpTimeout tag now => exact execMsaOpTimeout_keeps tag now s h
  | msaGwTimeout tag now => exact execMsaGwTimeout_keeps tag now s h
  | stepStart now => exact execStepStart_keeps now s h
  | stepBoundary now cycles => exact execStepBoundary_keeps now cycles s h
  | stepOverrun => exact execStepOverrun_keeps s h
  | stepWatchdog now => exact execStepWatchdog_keeps now s h
  | clusterResetComplete m => exact execClusterResetComplete_keeps m s h
  | drainWindowEnd now => exact execDrainWindowEnd_keeps now s h
  | loadTile m cyc => exact execLoadTile_keeps m cyc s h
  | expandTile m cyc => exact execExpandTile_keeps m cyc s h
  | mma m cyc => exact execMma_keeps m cyc s h
  | vec m cyc => exact execVec_keeps m cyc s h
  | sampleEntry m cyc => exact execSampleEntry_keeps m cyc s h
  | sendEntry m cyc now => exact execSendEntry_keeps m cyc now s h
  | waitEntry m cyc => exact execWaitEntry_keeps m cyc s h
  | signalEntry m cyc => exact execSignalEntry_keeps m cyc s h
  | signalDelivered target flag cyc => exact execSignalDelivered_keeps target flag cyc s h
  | barrierEntry m cyc => exact execBarrierEntry_keeps m cyc s h
  | sentinelEntry m cyc => exact execSentinelEntry_keeps m cyc s h
  | endEntry m cyc => exact execEndEntry_keeps m cyc s h
  | entryDeadline m cyc delivered onCycle => exact execEntryDeadline_keeps m cyc delivered onCycle s h
  | hostArrivalComplete slot => exact execHostArrivalComplete_keeps slot s h
  | stagerTileStart m => exact execStagerTileStart_keeps m s h
  | stagingComplete c => exact execStagingComplete_keeps c s h
  | directPathComplete c => exact execDirectPathComplete_keeps c s h
  | expanderBlockDone c => exact execExpanderBlockDone_keeps c s h
  | compressorObjectReady region => exact execCompressorObjectReady_keeps region s h
  | coreUncorrectedError now cyc slots => exact execCoreUncorrectedError_keeps now cyc slots s h
  | coreCorrectedError slot now => exact execCoreCorrectedError_keeps slot now s h
  | spareLoadComplete m now checksumMatches => exact execSpareLoadComplete_keeps m now checksumMatches s h
  | sentinelTestEnd slot now passed => exact execSentinelTestEnd_keeps slot now passed s h
  | clusterUe m now part => exact execClusterUe_keeps m now part s h
  | lighterUe region now => exact execLighterUe_keeps region now s h
  | compressorUe region now => exact execCompressorUe_keeps region now s h
  | regionStopFail region now => exact execRegionStopFail_keeps region now s h
  | dieStackFence stack now cause => exact execDieStackFence_keeps stack now cause s h
  | hbmCorrectedError stack dpa now => exact execHbmCorrectedError_keeps stack dpa now s h
  | hbmRowCopyDone dpa now => exact execHbmRowCopyDone_keeps dpa now s h
  | objectMoveComplete object now verified => exact execObjectMoveComplete_keeps object now verified s h
  | memoryUe now dpa lpx obj => exact execMemoryUe_keeps now dpa lpx obj s h
  | lpxCorrectedError device dpa now => exact execLpxCorrectedError_keeps device dpa now s h
  | sramCorrectedError slice unit address now => exact execSramCorrectedError_keeps slice unit address now s h
  | sramUe now address owner => exact execSramUe_keeps now address owner s h
  | fifoParityError place index now => exact execFifoParityError_keeps place index now s h
  | fifoOverrun place index now => exact execFifoOverrun_keeps place index now s h
  | cpWatchdogExpire cp now => exact execCpWatchdogExpire_keeps cp now s h
  | cpRestartComplete now => exact execCpRestartComplete_keeps now s h
  | mgtWatchdogExpire now => exact execMgtWatchdogExpire_keeps now s h
  | mgtRestartComplete now => exact execMgtRestartComplete_keeps now s h
  | replayRoundTimeout stepSeq now => exact execReplayRoundTimeout_keeps stepSeq now s h
  | replayPartsTimeout qp stepSeq now => exact execReplayPartsTimeout_keeps qp stepSeq now s h
  | pageMoveTimeout move now => exact execPageMoveTimeout_keeps move now s h
  | pageMoveRetry move now => exact execPageMoveRetry_keeps move now s h
  | pageDropRetry drop now => exact execPageDropRetry_keeps drop now s h
  | arrivingFrameTimeout frame now => exact execArrivingFrameTimeout_keeps frame now s h
  | demotionVerified frame now verified => exact execDemotionVerified_keeps frame now verified s h
  | swapOutVerified berth now verified => exact execSwapOutVerified_keeps berth now verified s h
  | swapInComplete berth now read => exact execSwapInComplete_keeps berth now read s h
  | handoffTimeout berth now => exact execHandoffTimeout_keeps berth now s h
  | awaitConfirmTimeout berth now => exact execAwaitConfirmTimeout_keeps berth now s h
  | reservedBerthTimeout berth now => exact execReservedBerthTimeout_keeps berth now s h
  | promotionVerified slot verified => exact execPromotionVerified_keeps slot verified s h
  | attExchangeTimeout tag now => exact execAttExchangeTimeout_keeps tag now s h
  | attServiceComplete service now poisoned => exact execAttServiceComplete_keeps service now poisoned s h
  | flashWriteComplete now verified => exact execFlashWriteComplete_keeps now verified s h
  | bottomTreeGenerated now => exact execBottomTreeGenerated_keeps now s h
  | telemetryTick now => exact execTelemetryTick_keeps now s h
  | flashScrubTick now => exact execFlashScrubTick_keeps now s h
  | meterPageMsTick now => exact execMeterPageMsTick_keeps now s h
  | errStatusRead => exact execErrStatusRead_keeps s h
  | icmpv6EchoRequest src dst body => exact execIcmpv6EchoRequest_keeps src dst body s h
  | neighbourDiscoveryMessage src target body => exact execNeighbourDiscoveryMessage_keeps src target body s h
  | traceTrigInput pin rising => exact execTraceTrigInput_keeps pin rising s h

/-- Taking the front command off the queue leaves the invariant, which speaks of no waiting command. -/
theorem Good.withPending {s : State} (h : Good s) (q : List Instr) : Good (s.withPending q) :=
  ⟨h.mem, h.coreMem, h.level, h.mode, h.log, h.tag⟩

/-- An operation that keeps each part of the invariant keeps it whole. -/
theorem Good.of_keeps {s t : State} (h : Good s) (k : Keeps s t) : Good t :=
  ⟨k.mem h.mem, k.coreMem h.coreMem, k.level h.level, k.mode h.mode, k.log h.log, k.tag h.tag⟩

/-- No command breaks the invariant. -/
theorem exec_good {c : Instr} {s t : State} (h : Good s) (e : exec c s = .next t) : Good t :=
  h.of_keeps (exec_keeps c s (Keeps.refl s) t e)

/-- Settles O5: an idle step moves the clock alone, and any other step is the front command's `exec` (`exec_good`). -/
theorem stepKeepsGood : Obligations.StepKeepsGood := by
  intro s t good ran
  unfold step at ran
  split at ran
  case h_1 =>
    cases ran
    exact good.of_keeps (idle_keeps s (Keeps.refl s))
  case h_2 c rest _ => exact exec_good (good.withPending rest) ran

end Sys2Proof.Machine
end

section
/-! PROOF. Writes by access code (R22, R23): the bit ranges of a register's fields are apart, so that each field follows its own
code (O60). -/
namespace Sys2Proof.Machine

/-! ## Bit ranges of a word -/

theorem testBit_bits (v hi lo i : Nat) : (bits v hi lo).testBit i = (decide (lo + i < hi + 1) && v.testBit (lo + i)) := by
  have h : i < hi + 1 - lo ↔ lo + i < hi + 1 := by omega
  unfold bits
  rw [Nat.testBit_mod_two_pow, Nat.testBit_div_two_pow, decide_eq_decide.2 h, Nat.add_comm i lo]

/-- The bits written are the value's, and all others stand. -/
theorem testBit_setBits (w hi lo x i : Nat) :
    (setBits w hi lo x).testBit i = if lo ≤ i ∧ i < hi + 1 then x.testBit (i - lo) else w.testBit i := by
  have parts : w = 2 ^ lo * (2 ^ (hi + 1 - lo) * (w / 2 ^ lo / 2 ^ (hi + 1 - lo)) + bits w hi lo) + w % 2 ^ lo := by
    unfold bits
    rw [Nat.div_add_mod, Nat.div_add_mod]
  have after : setBits w hi lo x =
      2 ^ lo * (2 ^ (hi + 1 - lo) * (w / 2 ^ lo / 2 ^ (hi + 1 - lo)) + x % 2 ^ (hi + 1 - lo)) + w % 2 ^ lo := by
    unfold setBits
    rw [Nat.mul_add] at parts ⊢
    rw [Nat.mul_comm (bits w hi lo), Nat.mul_comm (x % _)]
    omega
  have low : w % 2 ^ lo < 2 ^ lo := Nat.mod_lt _ (Nat.two_pow_pos lo)
  have mid : ∀ y, y % 2 ^ (hi + 1 - lo) < 2 ^ (hi + 1 - lo) := fun y => Nat.mod_lt _ (Nat.two_pow_pos _)
  rw [after, Nat.testBit_two_pow_mul_add _ low, Nat.testBit_two_pow_mul_add _ (mid x), Nat.testBit_mod_two_pow]
  by_cases below : i < lo
  · simp [below]
  by_cases above : i < hi + 1
  · have inside : i - lo < hi + 1 - lo := by omega
    rw [if_neg below, if_pos inside, if_pos ⟨by omega, above⟩]
    simp [inside]
  · have outside : ¬ i - lo < hi + 1 - lo := by omega
    rw [if_neg below, if_neg outside, if_neg (fun h => above h.2), Nat.testBit_div_two_pow, Nat.testBit_div_two_pow]
    congr 1
    omega

theorem bits_lt (v hi lo : Nat) : bits v hi lo < 2 ^ (hi + 1 - lo) := Nat.mod_lt _ (Nat.two_pow_pos _)

/-- A range reads back what was written to it, cut to its width. -/
theorem bits_setBits_same (w hi lo x : Nat) : bits (setBits w hi lo x) hi lo = x % 2 ^ (hi + 1 - lo) := by
  apply Nat.eq_of_testBit_eq
  intro i
  rw [testBit_bits, testBit_setBits, Nat.testBit_mod_two_pow]
  by_cases inside : lo + i < hi + 1
  · have h : i < hi + 1 - lo := by omega
    simp [inside, h]
  · have h : ¬ i < hi + 1 - lo := by omega
    simp [inside, h]

/-- A write to one range leaves a range apart from it. -/
theorem bits_setBits_apart {hi lo hi' lo' : Nat} (w x : Nat) (h : hi < lo' ∨ hi' < lo) :
    bits (setBits w hi lo x) hi' lo' = bits w hi' lo' := by
  apply Nat.eq_of_testBit_eq
  intro i
  rw [testBit_bits, testBit_bits, testBit_setBits]
  by_cases inside : lo' + i < hi' + 1
  · have : ¬ (lo ≤ lo' + i ∧ lo' + i < hi + 1) := by omega
    rw [if_neg this]
  · simp [inside]

/-! ## The fields of a register -/

/-- No two fields of a register share a bit. -/
def FieldsApart (l : List FieldDef) : Prop := l.Pairwise fun f g => f.hi < g.lo ∨ g.hi < f.lo

/-- The register tables give no bit to two fields. -/
theorem regRows_fieldsApart : ∀ d ∈ regRows, FieldsApart d.fields := by
  unfold FieldsApart
  decide +kernel

theorem fieldsOf_fieldsApart (off : Nat) : FieldsApart (fieldsOf off) := by
  unfold fieldsOf
  split
  next d found => exact regRows_fieldsApart d (List.mem_of_find?_eq_some found)
  next => exact List.Pairwise.nil

/-- Writes to other fields leave a field alone. -/
theorem bits_foldl_apart (x : FieldDef → Nat) (f : FieldDef) (l : List FieldDef) (w : Nat)
    (h : ∀ g ∈ l, f.hi < g.lo ∨ g.hi < f.lo) :
    bits (l.foldl (fun w g => setBits w g.hi g.lo (x g)) w) f.hi f.lo = bits w f.hi f.lo := by
  induction l generalizing w with
  | nil => rfl
  | cons g l ih =>
    rw [List.foldl_cons, ih _ fun g' m => h g' (List.mem_cons_of_mem g m)]
    exact bits_setBits_apart w (x g) (h g List.mem_cons_self).symm

/-- After writes to fields that are apart, each field holds what was written to it. -/
theorem bits_foldl_mem (x : FieldDef → Nat) (f : FieldDef) (l : List FieldDef) (w : Nat) (h : FieldsApart l) (m : f ∈ l) :
    bits (l.foldl (fun w g => setBits w g.hi g.lo (x g)) w) f.hi f.lo = x f % 2 ^ (f.hi + 1 - f.lo) := by
  induction l generalizing w with
  | nil => cases m
  | cons g l ih =>
    obtain ⟨first, rest⟩ := List.pairwise_cons.1 h
    rw [List.foldl_cons]
    rcases List.mem_cons.1 m with rfl | m
    · rw [bits_foldl_apart x f l _ first, bits_setBits_same]
    · exact ih _ rest m

/-- What a write leaves in a field fits the field. -/
theorem fieldAfter_lt (f : FieldDef) {n a b : Nat} (ha : a < 2 ^ n) (hb : b < 2 ^ n) : fieldAfter f a b < 2 ^ n := by
  unfold fieldAfter
  cases f.acc with
  | rw => dsimp only; split <;> assumption
  | rw1c => exact Nat.lt_of_le_of_lt (Nat.sub_le _ _) ha
  | rw1s => exact Nat.or_lt_two_pow ha hb
  | ro => exact ha
  | wo => exact ha
  | rc => exact ha

/-- A write leaves in each field of a register what the field's access code says. -/
theorem bits_fieldsAfter (off old v : Nat) (f : FieldDef) (m : f ∈ fieldsOf off) :
    bits (fieldsAfter (fieldsOf off) old v) f.hi f.lo = fieldAfter f (bits old f.hi f.lo) (bits v f.hi f.lo) := by
  unfold fieldsAfter
  rw [bits_foldl_mem (fun f => fieldAfter f (bits old f.hi f.lo) (bits v f.hi f.lo)) f _ _ (fieldsOf_fieldsApart off) m]
  exact Nat.mod_eq_of_lt (fieldAfter_lt f (bits_lt old f.hi f.lo) (bits_lt v f.hi f.lo))

/-! ## The register file -/

/-- A stored word is a matter of the registers alone. -/
theorem regPut_onlyParts (off v : Nat) (s : State) : OnlyParts [.regs] s (regPut off v s) := by
  intro part other
  cases part with
  | regs => exact absurd List.mem_cons_self other
  | _ => rfl

theorem regSet_of_legal {off v : Nat} (s : State) (h : fieldsRsvd (fieldsOf off) v = false) :
    regSet off v s = regPut off (fieldsAfter (fieldsOf off) (regGet s off) v) s := by
  simp only [regSet, h]
  rfl

theorem regSet_of_reserved {off v : Nat} (s : State) (h : fieldsRsvd (fieldsOf off) v = true) :
    regSet off v s = reservedWritten off v (regPut off (fieldsAfter (fieldsOf off) (regGet s off) v) s) := by
  simp only [regSet, h]
  rfl

/-- Settles O60: the fields of a row are apart (`bits_fieldsAfter`), and a write with no reserved value is one stored word. -/
theorem fieldsFollowTheirAccess : Obligations.FieldsFollowTheirAccess := by
  refine ⟨fun off old v f m => ?_, fun s off v => ⟨fun legal => ?_, fun reserved => regSet_of_reserved s reserved⟩⟩
  · rw [bits_fieldsAfter off old v f m]
    unfold fieldAfter
    cases f.acc <;> simp
  · rw [regSet_of_legal s legal]
    refine ⟨regPut_onlyParts _ _ s, ?_, fun j other => ?_⟩
    · rw [regGet_regPut, if_pos rfl]
    · rw [regGet_regPut, if_neg (Ne.symm other)]

end Sys2Proof.Machine
end

section
/-! PROOF. The state right after reset, and what a device reset leaves (O3, O14). -/
namespace Sys2Proof.Machine

/-- A register that holds no word reads its reset value. -/
theorem regGet_of_regs_nil {s : State} (h : s.regs = []) (off : Nat) : regGet s off = regReset off := by
  unfold regGet
  rw [h]
  rfl

/-- Settles O3: no register holds a word after reset (`regGet_of_regs_nil`). -/
theorem resetLeaves : Obligations.ResetLeaves :=
  ⟨rfl, rfl, rfl, rfl, rfl, rfl, rfl, rfl, regGet_of_regs_nil rfl⟩

/-! ## Registers through a device reset -/

/-- Keeping the entries whose key passes keeps what those keys read, and the others read nothing. -/
theorem tabGet_filter_key {α : Type} (t : Tab α) (p : Nat → Bool) (j : Nat) :
    tabGet (t.filter fun e => p e.1) j = if p j then tabGet t j else none := by
  induction t with
  | nil => simp [tabGet]
  | cons e t ih =>
    obtain ⟨k, v⟩ := e
    by_cases here : k = j
    · subst here
      cases kept : p k <;> simp [kept, tabGet, ih]
    · cases kept : p k <;> simp [kept, tabGet, ih, here]

/-- Whether a reset of the domains that `p` selects leaves the register at an offset: it has a row, in no such domain. -/
def keptBy (p : Dom → Nat → Bool) (off : Nat) : Bool := match regRow? off with | some d => !p d.dom off | none => false

/-- A reset of domains returns their registers, and what no table lists, to the reset value, and leaves the others (R24). -/
theorem regGet_resetRegs (p : Dom → Nat → Bool) (s : State) (off : Nat) :
    regGet (resetRegs p s) off = if keptBy p off then regGet s off else regReset off := by
  have kept : (resetRegs p s).regs = s.regs.filter fun e => keptBy p e.1 := rfl
  unfold regGet tabGetD
  rw [kept, tabGet_filter_key]
  split <;> rfl

/-- A device reset reads the registers as the reset of every domain but PWR leaves them. -/
theorem regGet_deviceReset (s : State) (off : Nat) :
    regGet (deviceReset s) off = regGet (resetRegs (fun d _ => d ≠ .pwr) s) off := rfl

/-- PWR registers stand through a device reset. -/
theorem regGet_deviceReset_pwr (s : State) {off : Nat} {d : RegDef} (row : regRow? off = some d) (pwr : d.dom = .pwr) :
    regGet (deviceReset s) off = regGet s off := by
  have kept : keptBy (fun d _ => d ≠ .pwr) off = true := by simp [keptBy, row, pwr]
  rw [regGet_deviceReset, regGet_resetRegs, if_pos kept]

/-- Every other register takes its reset value. -/
theorem regGet_deviceReset_other (s : State) {off : Nat} (other : ∀ d, regRow? off = some d → d.dom ≠ .pwr) :
    regGet (deviceReset s) off = regReset off := by
  have lost : keptBy (fun d _ => d ≠ .pwr) off = false := by
    unfold keptBy
    split
    next d row => simp [other d row]
    next => rfl
  rw [regGet_deviceReset, regGet_resetRegs, lost]
  rfl

/-! ## The three ways to ask for a device reset -/

/-- DEV_RESET with its KEY and DEVICE is heard even after FATAL (R494, R507). -/
theorem devResetWrite_device {s : State} {v : Nat} (heard : readable s = true) (key : bits v 31 16 = 0x0840) (device : bit v 1 = true) :
    devResetWrite v s = deviceReset s := by
  simp [devResetWrite, heard, key, device]

/-- SYS.RESTART with P0 1 is answered, and then resets the device. -/
theorem sysRestart_device {s : State} {p : Pkt} (acc : Accepted rowRestart s p) (h0 : p.p0 = 1) (h1 : p.p1 = 0) (h2 : p.p2 = 0)
    (h3 : p.p3 = 0) : sysRestart p s = deviceReset (ok 5 p 0 (taken rowRestart p s)) := by
  unfold sysRestart
  rw [receive_accepted _ acc]
  simp [orFormat, restartAct, paramsZero, h0, h1, h2, h3]

/-- Settles O14: each request is a `deviceReset`, whose registers `regGet_deviceReset_pwr` and `regGet_deviceReset_other` give. -/
theorem deviceResetLeaves : Obligations.DeviceResetLeaves := by
  intro s after
  have leaves : ∀ u, after u (deviceReset u) := fun u =>
    ⟨fun _ _ => regGet_deviceReset_pwr u, fun _ => regGet_deviceReset_other u, rfl, rfl, rfl, rfl, rfl, rfl, rfl, rfl, rfl, rfl, rfl,
      rfl, rfl, rfl, rfl, rfl, rfl, rfl, rfl, rfl, rfl⟩
  refine ⟨⟨_, rfl, ?_, rfl⟩, fun v heard key device => ⟨_, ?_, leaves s, rfl⟩, fun p acc h0 h1 h2 h3 => ⟨_, ?_, leaves _, rfl⟩⟩
  · exact leaves s
  · exact congrArg Host.Outcome.next (devResetWrite_device heard key device)
  · exact congrArg Host.Outcome.next (sysRestart_device acc h0 h1 h2 h3)

end Sys2Proof.Machine
end

section
/-! PROOF. Power-up step by step (O16): what the steps between the root's lock and step 6 leave of its progress. -/
namespace Sys2Proof.Machine

/-! ## Events leave the progress of power-up -/

/-- The root's lock, ROM recovery and the step reached are the same in both states. -/
structure SameProgress (s t : State) : Prop where
  lock : t.dev.lock = s.dev.lock
  recovery : t.dev.recovery = s.dev.recovery
  phase : t.dev.phase = s.dev.phase

namespace SameProgress

theorem refl (s : State) : SameProgress s s := ⟨rfl, rfl, rfl⟩

/-- An operation that leaves the device's own state leaves its progress. -/
theorem of_dev {s t u : State} (h : SameProgress s t) (e : u.dev = t.dev) : SameProgress s u :=
  ⟨(congrArg _ e).trans h.lock, (congrArg _ e).trans h.recovery, (congrArg _ e).trans h.phase⟩

/-- A plain update that sets none of the three. -/
theorem upd {s t u : State} (h : SameProgress s t) (lock : u.dev.lock = t.dev.lock) (recovery : u.dev.recovery = t.dev.recovery)
    (phase : u.dev.phase = t.dev.phase) : SameProgress s u :=
  ⟨lock.trans h.lock, recovery.trans h.recovery, phase.trans h.phase⟩

theorem ite {c : Prop} [Decidable c] {s t u : State} (h : SameProgress s t) (k : SameProgress s u) :
    SameProgress s (if c then t else u) := by
  split <;> assumption

end SameProgress

theorem msixRaise_dev (fn v : Nat) (s : State) : (msixRaise fn v s).dev = s.dev := by
  unfold msixRaise
  split <;> rfl

theorem irqEvent_dev (b : Nat) (s : State) : (irqEvent b s).dev = s.dev := by
  unfold irqEvent
  split
  · rfl
  · dsimp only
    split
    · exact msixRaise_dev _ _ _
    · rfl

theorem irqEvent_sameProgress {s₀ s : State} (b : Nat) (h : SameProgress s₀ s) : SameProgress s₀ (irqEvent b s) :=
  h.of_dev (irqEvent_dev b s)

theorem emitRecords_dev (b : Bytes) (l : List Nat) (s : State) : (l.foldl (fun t n => emit (.record n b) t) s).dev = s.dev := by
  induction l generalizing s with
  | nil => rfl
  | cons n l ih => exact ih _

/-- A record that leaves can drive FAULT_OUT, and nothing else of the device's state. -/
theorem recSend_sameProgress {s₀ s : State} (r : ErrRec) (h : SameProgress s₀ s) : SameProgress s₀ (recSend r s) := by
  have sent : SameProgress s₀ (bump ERR_REC_SENT_CNT 1 ((collectors s).foldl (fun t n => emit (.record n (cperBytes s r)) t) s)) :=
    h.of_dev (emitRecords_dev _ _ s)
  have raised := SameProgress.ite (c := r.cls = 1) (irqEvent_sameProgress 2 sent) sent
  unfold recSend
  dsimp only
  split
  · exact raised
  · exact raised.upd rfl rfl rfl
  · exact raised

theorem record_sameProgress {s₀ s : State} (w : RecWords) (h : SameProgress s₀ s) : SameProgress s₀ (record w s) := by
  unfold record
  dsimp only
  apply SameProgress.ite
  · exact h.of_dev rfl
  · apply SameProgress.ite
    · exact h.of_dev rfl
    · exact recSend_sameProgress _ (h.of_dev rfl)

theorem restrictEnter_sameProgress {s₀ s : State} (cause : Nat) (h : SameProgress s₀ s) : SameProgress s₀ (restrictEnter cause s) := by
  unfold restrictEnter
  apply SameProgress.ite
  · exact h.upd rfl rfl rfl
  · exact irqEvent_sameProgress 3 (record_sameProgress _ (h.upd rfl rfl rfl))

/-! ## Steps 3 and 5 -/

theorem identityStep_sameProgress (pufGood : Bool) (s : State) : SameProgress s (identityStep pufGood s) := ⟨rfl, rfl, rfl⟩

theorem regPut_sameProgress {s₀ s : State} (off v : Nat) (h : SameProgress s₀ s) : SameProgress s₀ (regPut off v s) := h.of_dev rfl

theorem modDev_sameProgress {s₀ s : State} {f : DevSt → DevSt} (h : SameProgress s₀ s)
    (k : ∀ d, (f d).lock = d.lock ∧ (f d).recovery = d.recovery ∧ (f d).phase = d.phase) : SameProgress s₀ (modDev f s) :=
  h.upd (k _).1 (k _).2.1 (k _).2.2

theorem configStep_sameProgress {s₀ s : State} (h : SameProgress s₀ s) : SameProgress s₀ (configStep s) := by
  unfold configStep
  dsimp only
  apply SameProgress.ite
  on_goal 1 => apply record_sameProgress
  all_goals
    refine regPut_sameProgress _ _ (regPut_sameProgress _ _ (regPut_sameProgress _ _ ?_))
    apply modDev_sameProgress
    apply modDev_sameProgress h
    · exact fun _ => ⟨rfl, rfl, rfl⟩
    · exact fun _ => ⟨rfl, rfl, rfl⟩

theorem gradeStep_sameProgress {s₀ s : State} (h : SameProgress s₀ s) : SameProgress s₀ (gradeStep s) := by
  unfold gradeStep
  dsimp only
  apply SameProgress.ite
  · exact h.upd rfl rfl rfl
  · exact restrictEnter_sameProgress _ (h.upd rfl rfl rfl)

theorem licenceStep_sameProgress {s₀ s : State} (h : SameProgress s₀ s) : SameProgress s₀ (licenceStep s) := by
  have granted : ∀ (c : Prop) [Decidable c] (t : State), SameProgress s₀ t → SameProgress s₀ (if c then t else restrictEnter 2 t) :=
    fun _ _ _ k => k.ite (restrictEnter_sameProgress 2 k)
  unfold licenceStep
  dsimp only
  apply SameProgress.ite
  · exact restrictEnter_sameProgress 8 (granted _ _ (h.upd rfl rfl rfl))
  · exact granted _ _ (h.upd rfl rfl rfl)

theorem featureStep_sameProgress {s₀ s : State} (h : SameProgress s₀ s) : SameProgress s₀ (featureStep s) := h.upd rfl rfl rfl

theorem areaStep_sameProgress {s₀ s : State} (h : SameProgress s₀ s) : SameProgress s₀ (areaStep s) := by
  have laid : ∀ f, SameProgress s₀ (modTier f s) := fun _ => h.of_dev rfl
  unfold areaStep
  exact SameProgress.ite (record_sameProgress _ (laid _)) (laid _)

/-- Step 5 as a whole. -/
theorem stepFive_sameProgress (s : State) : SameProgress s (areaStep (featureStep (licenceStep (gradeStep (configStep s))))) :=
  areaStep_sameProgress (featureStep_sameProgress (licenceStep_sameProgress (gradeStep_sameProgress (configStep_sameProgress (.refl s)))))

/-! ## Step 4: firmware -/

/-- The power-up counter is no security version, so step 3 leaves every component's choice of slot. -/
theorem identityStep_fwChoice (pufGood : Bool) (s : State) (c : Nat) : fwChoice (identityStep pufGood s).flash c = fwChoice s.flash c := by
  have counter : ∀ n, (listSet s.flash.counters 1 n).getD (2 + c) 0 = s.flash.counters.getD (2 + c) 0 := by
    intro n
    have : 1 ≠ 2 + c := by omega
    simp [listSet, List.getD_eq_getElem?_getD, List.getElem?_set_ne this]
  have boots : ∀ slot, fwBoots (identityStep pufGood s).flash slot c = fwBoots s.flash slot c := by
    intro slot
    unfold fwBoots
    exact congrArg (fun n => fwSigned (fwImage s.flash slot c) && decide (n ≤ Config.fwSecurity (fwImage s.flash slot c))) (counter _)
  unfold fwChoice
  simp only [boots]
  rfl

theorem fwBootOne_sameProgress {s₀ s : State} (c : Nat) (h : SameProgress s₀ s) : SameProgress s₀ (fwBootOne c s) :=
  h.upd rfl rfl rfl

/-- The components boot, whichever slots they take. -/
theorem fwBootAll_sameProgress (s : State) : SameProgress s ([0, 1, 2].foldl (fun t c => fwBootOne c t) s) :=
  fwBootOne_sameProgress 2 (fwBootOne_sameProgress 1 (fwBootOne_sameProgress 0 (.refl s)))

/-- Without a management component step 4 ends in ROM recovery. -/
theorem firmwareStep_none {s : State} (h : fwChoice s.flash 0 = none) :
    (firmwareStep s).dev.recovery = true ∧ (firmwareStep s).dev.lock = s.dev.lock ∧ (firmwareStep s).dev.phase = s.dev.phase := by
  have booted := fwBootAll_sameProgress s
  unfold firmwareStep
  simp only [h, Option.isSome_none, Bool.not_false, if_true]
  exact ⟨rfl, booted.lock, booted.phase⟩

/-- With one, power-up goes on, in restricted mode where the components do not belong together. -/
theorem firmwareStep_some {s : State} {x : Nat × Bool} (h : fwChoice s.flash 0 = some x) : SameProgress s (firmwareStep s) := by
  have booted := fwBootAll_sameProgress s
  unfold firmwareStep
  simp only [h, Option.isSome_some, Bool.not_true, Bool.false_eq_true, if_false]
  apply SameProgress.ite
  · exact booted.upd rfl rfl rfl
  · exact restrictEnter_sameProgress 3 (booted.upd rfl rfl rfl)

/-- The state in which step 3 begins: the root has locked. -/
def rootLocked (us : Nat) (s : State) : State :=
  modDev (fun d => { d with lock := 31, lockUs := us % 2 ^ 32 }) (atTick (usTicks us) s)

/-- The root has locked when step 3 ends, and nothing else has changed of the progress. -/
theorem identityStep_rootLocked (us : Nat) (puf : Bool) (s : State) :
    (identityStep puf (rootLocked us s)).dev.lock = 31 ∧ (identityStep puf (rootLocked us s)).dev.recovery = s.dev.recovery ∧
      (identityStep puf (rootLocked us s)).dev.phase = s.dev.phase := by
  simp [identityStep, rootLocked]

theorem rootSynthLockFx_atStep2 {s : State} (us : Nat) (puf : Bool) (h : atStep2 s = true) :
    rootSynthLockFx us puf s =
      if (firmwareStep (identityStep puf (rootLocked us s))).dev.recovery then firmwareStep (identityStep puf (rootLocked us s))
      else modDev (fun d => { d with phase := 6 })
        (areaStep (featureStep (licenceStep (gradeStep (configStep (firmwareStep (identityStep puf (rootLocked us s)))))))) := by
  unfold rootSynthLockFx
  rw [h]
  rfl

/-- The root's lock takes the device to step 6 with a management component, and to ROM recovery without one. -/
theorem rootSynthLockFx_progress {s : State} (us : Nat) (puf : Bool) (h : atStep2 s = true) :
    (rootSynthLockFx us puf s).dev.lock = 31 ∧ (rootSynthLockFx us puf s).dev.recovery = (fwChoice s.flash 0).isNone ∧
      (rootSynthLockFx us puf s).dev.phase = if (fwChoice s.flash 0).isSome then 6 else 0 := by
  rw [rootSynthLockFx_atStep2 us puf h]
  simp only [atStep2, Bool.and_eq_true, Bool.not_eq_true', decide_eq_true_eq] at h
  obtain ⟨⟨⟨-, -⟩, notRecovering⟩, phase0⟩ := h
  obtain ⟨lock31, sameRecovery, samePhase⟩ := identityStep_rootLocked us puf s
  have choice : fwChoice (identityStep puf (rootLocked us s)).flash 0 = fwChoice s.flash 0 := identityStep_fwChoice puf (rootLocked us s) 0
  cases found : fwChoice s.flash 0 with
  | none =>
    obtain ⟨recovers, lock, phase⟩ := firmwareStep_none (s := identityStep puf (rootLocked us s)) (choice.trans found)
    rw [if_pos recovers]
    exact ⟨lock.trans lock31, recovers, phase.trans (samePhase.trans phase0)⟩
  | some x =>
    have booted := firmwareStep_some (s := identityStep puf (rootLocked us s)) (choice.trans found)
    have goesOn : (firmwareStep (identityStep puf (rootLocked us s))).dev.recovery = false :=
      booted.recovery.trans (sameRecovery.trans notRecovering)
    have five := stepFive_sameProgress (firmwareStep (identityStep puf (rootLocked us s)))
    rw [if_neg (by simp [goesOn])]
    generalize areaStep _ = t at five ⊢
    exact ⟨five.lock.trans (booted.lock.trans lock31), five.recovery.trans goesOn, rfl⟩

/-! ## Release of PKG_RESET_N, failed locks and the end of port training -/

/-- The root is tried three times before the package stays in ROM. -/
theorem rootLockTimeoutFx_atStep2 {s : State} (h : atStep2 s = true) :
    rootLockTimeoutFx s =
      modDev (fun d => if d.rootTries < 2 then { d with rootTries := d.rootTries + 1 } else { d with inRom := true }) s := by
  by_cases more : s.dev.rootTries < 2 <;> simp [rootLockTimeoutFx, modDev, h, more]

/-- PKG_RESET_N rises: with bad rails the ROM stands as after a third failed lock. -/
theorem pkgResetReleaseFx_held {s : State} (good lost : Bool) (h : s.dev.held = true) :
    pkgResetReleaseFx ⟨good, lost⟩ s =
      modDev (fun d => { d with held := false, inRom := d.inRom || !good, rootTries := if good then d.rootTries else 2 })
        (if lost then powerLoss s else s) := by
  cases good <;> simp [pkgResetReleaseFx, h]

/-- The step of port training ends when every licensed port is UP, MISWIRED or DOWN, and service begins with enough of them UP. -/
theorem portTrainingStepEndFx_enough {s : State} (now : Nat) (live : alive s = true) (at10 : s.dev.phase = 10)
    (ended : ∀ p, p < min s.dev.portsMax 8 → (portOf s p).state = 4 ∨ (portOf s p).state = 6 ∨ (portOf s p).state = 7)
    (enough : s.dev.portsMin ≤ (portsUp s).length) :
    portTrainingStepEndFx now s = serviceBegins (modDev (fun d => { d with phase := 11 }) (atTick now s)) := by
  refine (if_neg ?_).trans (if_pos enough)
  simp only [alive_atTick, live, atTick_dev, at10, portOf_atTick, Bool.not_true, Bool.false_or, ne_eq, not_true_eq_false, decide_false,
    Bool.not_eq_true', Bool.not_eq_false, List.all_eq_true, List.mem_range]
  intro p inside
  rcases ended p inside with h | h | h <;> simp [h]

/-- Settles O16: the root's lock by `rootSynthLockFx_progress`, and each other step by the equation of its command. -/
theorem powerUpProceeds : Obligations.PowerUpProceeds := by
  intro s
  refine ⟨?release, rfl, rfl, rfl, rfl, rfl, rfl, rfl, rfl, fun h => congrArg Host.Outcome.next (rootLockTimeoutFx_atStep2 h),
    fun us puf h => ⟨_, rfl, rootSynthLockFx_progress us puf h⟩,
    fun hbm lpx mv live at6 => ⟨_, rfl, ?training⟩, fun l live at7 => ?kat, fun l live not7 => ?katAsked,
    fun l live at9 => ⟨_, ?microcode, rfl⟩, fun now live at10 ended enough => ?portTraining⟩
  case release =>
    rintro good lost u held rfl
    exact congrArg Host.Outcome.next (pkgResetReleaseFx_held good lost held)
  case training => simp [memoryTrainingDoneFx, live, at6]
  case kat => simp [exec_katComplete, execKatComplete, katCompleteFx, live, at7]
  case katAsked => simp [exec_katComplete, execKatComplete, katCompleteFx, live, not7]
  case portTraining => exact congrArg Host.Outcome.next (portTrainingStepEndFx_enough now live at10 ended enough)
  case microcode => simp [exec_microcodeBroadcastDone, execMicrocodeBroadcastDone, microcodeBroadcastDoneFx, live, at9]

end Sys2Proof.Machine
end

section
/-! PROOF. The hold timer of parked packets: a fetch that arrives on the same tick wins over it (R364), so that O26 fails. -/
namespace Sys2Proof.Machine

/-- When the context that parked packets await arrives on the timer's tick, the timer does nothing but pass the time (R364). -/
theorem execQpcHoldTimeout_of_fetchArrives {s : State} {n now : Nat} (h : fetchArrives (atTick now s) n = true) :
    execQpcHoldTimeout n now s = .next (atTick now s) := by
  unfold execQpcHoldTimeout qpcHoldTimeoutFx
  dsimp only
  split
  next => rfl
  next => simp [h]

/-- A TC-S packet from device 0x53 that has come for queue pair 4 at tick 0. -/
def parkedTcs : ParkedPkt where
  frame := { port := 0, now := 0, dstDev := 0x52, srcDev := 0x53, dstQp := 4, srcQp := 9, psn := 0, msgId := 0, pktIdx := 0, pktCount := 1,
             opcode := 0, offset := 0, last := true, len := 0, tag := 0, answer := false }
  tcs := true
  die := 0

/-- A serving device whose queue pair 4 is being fetched for a parked packet; the fetch completes at tick 100,000, when QPC_HOLD_TMO
has passed. -/
def fetchAtHoldTimeout : State :=
  { dev := { held := false, phase := 11, ready := true, personality := 2, deviceId := 0x52 },
    fab := { qps := [(4, { state := 2, loc := 2, peerDev := 0x53, peerQp := 9, parked := [parkedTcs] })] },
    pending := [.qpcFetchComplete 4 100000] }

/-- Refutes O26: a packet parked past QPC_HOLD_TMO stays parked when its context arrives on the timer's own tick, as in
`fetchAtHoldTimeout`; the second clause has it discarded. -/
theorem not_contextsComeAndGo : ¬ Obligations.ContextsComeAndGo := by
  intro claim
  obtain ⟨-, holdTimeout, -⟩ := claim fetchAtHoldTimeout 4 100000 (by decide)
  have discarded := holdTimeout _ parkedTcs rfl rfl (by decide)
  rw [exec_qpcHoldTimeout, execQpcHoldTimeout_of_fetchArrives (by decide)] at discarded
  have parked := congrArg (fun t => (qpOf t 4).map (·.parked)) (Host.Outcome.next.inj discarded)
  exact absurd parked (by decide)

end Sys2Proof.Machine
end

section
/-! PROOF. What host software reaches at the registers while the device is heard (O29). -/
namespace Sys2Proof.Machine

/-- A device whose writes are heard can be read. -/
theorem readable_of_hostHeard {s : State} (h : hostHeard s = true) : readable s = true := by
  unfold hostHeard alive at h
  unfold readable
  simp_all

/-- A write at a register that holds no part of a ring's window, and is no act and no mirror, changes the register alone. -/
theorem writeWord_plain {s : State} {off v : Nat} {d : RegDef} (row : regRow? off = some d) (width : d.width = 32) (small : v < 2 ^ 32)
    (outside : off < 0x110000 ∨ 0x130000 ≤ off) (noAct : actWrite off v s = none) (noMirror : mirrorWrite off v s = none) :
    writeWord off v s = regSet off v s := by
  have noSq : ¬ (0x110000 ≤ off ∧ off < 0x120000) := by omega
  have noCq : ¬ (0x120000 ≤ off ∧ off < 0x130000) := by omega
  have whole : v % 4294967296 = v := Nat.mod_eq_of_lt small
  simp [writeWord, noSq, noCq, noAct, noMirror, wordWrite, row, width, whole]

/-- An aligned word that PF0 writes outside the rings' windows reaches the register at its offset. -/
theorem regWriteFx_word {s : State} {off v : Nat} (heard : hostHeard s = true) (noFlr : s.pcie.inFlr.contains 0 = false)
    (aligned : off % 4 = 0) (small : v < 2 ^ 32) (outside : off < 0x110000 ∨ 0x130000 ≤ off) :
    regWriteFx 0 off 4 v s = writeWord off v s := by
  have hears : writeHeard s 0 off v = true := by
    simp only [writeHeard, fnAnswers, fnExists, heard, noFlr]
    rfl
  have good : badAccess off 4 = false := by simp [badAccess, aligned]
  have noWindow : windowRing off = none := by
    have : ¬ (0x110000 ≤ off ∧ off < 0x130000) := by omega
    simp [windowRing, this]
  have whole : v % 4294967296 = v := Nat.mod_eq_of_lt small
  simp [regWriteFx, hears, good, pfOffset, mayWrite, noWindow, whole]

/-- With FAULT_OUT high, a read of ERR_STATUS is a read alone. -/
theorem errStatusReadFx_high {s : State} (h : readable s = true) (high : s.dev.faultLow = false) :
    errStatusReadFx s = emit (.readData (toLe 4 (readReg s ERR_STATUS)) false) s := by
  simp [errStatusReadFx, h, high]

/-- A read of ERR_STATUS leaves FAULT_OUT high. -/
theorem errStatusReadFx_faultLow {s : State} (h : readable s = true) : (errStatusReadFx s).dev.faultLow = false := by
  cases low : s.dev.faultLow with
  | false =>
    rw [errStatusReadFx_high h low]
    exact low
  | true =>
    simp only [errStatusReadFx, h, low, Bool.not_true, Bool.false_eq_true, if_false]
    split <;> rfl

/-- Settles O29: each access is its register's own operation once the device is heard; `regWriteFx_word` and `writeWord_plain` give the
write of a word. -/
theorem hostReachesRegisters : Obligations.HostReachesRegisters := by
  intro s heard
  have reads := readable_of_hostHeard heard
  refine ⟨fun v now => ?irqStatus, fun v => ?irqEnable, fun v => ⟨_, ?logSel, rfl⟩, ?word, fun off d row width => ?half, ?stepMax,
    ⟨_, rfl, errStatusReadFx_faultLow reads, errStatusReadFx_high reads⟩, fun off size bad => ⟨?badWrite, ?badRead⟩⟩
  case irqStatus => exact congrArg Host.Outcome.next (if_pos heard)
  case irqEnable => exact congrArg Host.Outcome.next (if_pos heard)
  case logSel => exact congrArg Host.Outcome.next (if_pos heard)
  case word =>
    intro off v d row width aligned small noFlr outside noAct noMirror
    have write : regWriteFx 0 off 4 v s = regSet off v s :=
      (regWriteFx_word heard noFlr aligned small outside).trans (writeWord_plain row width small outside noAct noMirror)
    exact ⟨congrArg Host.Outcome.next write, congrArg Host.Outcome.next write⟩
  case half => simp [exec_reg64LowHalfRead, execReg64LowHalfRead, reg64LowHalfReadFx, row, width, reads]
  case stepMax => exact congrArg Host.Outcome.next (if_pos reads)
  case badWrite => simp [exec_bar0BadAccess, execBar0BadAccess, bar0BadAccessFx, reads, bad, heard]
  case badRead => simp [exec_bar0BadAccess, execBar0BadAccess, bar0BadAccessFx, reads, bad]

end Sys2Proof.Machine
end

section
/-! PROOF. What an empty queue does (O2), and handoffs from both ends (O35). -/
namespace Sys2Proof.Machine

theorem step_of_pending_nil {s : State} (h : s.pending = []) : step s = .next (idle s) := by
  unfold step
  rw [h]

/-- An idle tick moves the clock alone. -/
theorem idle_onlyParts_tick (s : State) : OnlyParts [.tick] s (idle s) := by
  intro p notTick
  cases p with
  | tick => simp at notTick
  | _ => rfl

/-- Settles O2: the step is `idle`, and `idle` changes the clock alone. -/
theorem emptyQueueIdles : Obligations.EmptyQueueIdles := fun s empty =>
  ⟨idle s, step_of_pending_nil empty, idle_tick s, idle_onlyParts_tick s⟩

/-- An accepted command that names a manifest of this epoch, in its layout, takes its effect on that manifest (R205, R229). -/
theorem receiveMan_named {r : OpRow} {p : Pkt} {lay : Bool} {s : State} {b : Nat} {x : Berth} (act : Nat → Berth → State → State)
    (h : Accepted r s p) (named : berthNamed (taken r p s) p.mid = some b) (held : berthAt (taken r p s) b = some x)
    (epoch : manEpochOk (taken r p s) x p = true) (layout : lay = true) : receiveMan r p lay act s = act b x (taken r p s) := by
  simp [receiveMan, receive_accepted _ h, onManifest, named, held, epoch, layout]

/-- A good answer to an outstanding command takes its effect with the status that it carries (R205, R317). -/
theorem onReply_listed {r : Rep} {s : State} (known : State → Bool) (act : Nat → State → State) (live : alive s = true)
    (good : r.rcrcOk = true) (fresh : staleAnswer s r.opcode r.mid = false) (tag : known (atTick r.now s) = true)
    (listed : statusListed r.status = true) : onReply r known act s = act r.status (atTick r.now s) := by
  simp [onReply, live, good, fresh, tag, listed]

/-- ST_PENDING sends what the transfer keeps back, a failing status refuses it (R29, R221). -/
theorem handoffTransferReplyFx_listed {r : Rep} {s : State} {b : Nat} (live : alive s = true) (good : r.rcrcOk = true)
    (fresh : staleAnswer s r.opcode r.mid = false) (sent : berthOfXfer s r.tag = some b) (listed : statusListed r.status = true) :
    handoffTransferReplyFx r s =
      if r.status = stPending then sendWindow b (atTick r.now s)
      else if r.status = stOk then atTick r.now s else handoffRefused b r.status (atTick r.now s) := by
  unfold handoffTransferReplyFx
  rw [onReply_listed _ _ live good fresh (by simp [sent]) listed]
  simp only [berthOfXfer_atTick, sent]

/-- A final ST_OK to REQ.ACCEPT ends the wait for it (R211, R222). -/
theorem acceptReplyFx_ok {r : Rep} {s : State} {b : Nat} (live : alive s = true) (good : r.rcrcOk = true)
    (fresh : staleAnswer s r.opcode r.mid = false) (sent : berthOfAccept s r.tag = some b) (ok : r.status = stOk) :
    acceptReplyFx r s = modProg b (fun p => { p with await := false }) (atTick r.now s) := by
  unfold acceptReplyFx
  rw [onReply_listed _ _ live good fresh (by simp [sent]) (by rw [ok]; decide)]
  simp only [berthOfAccept_atTick, sent, ok]
  rfl

/-- In PROMPT a retarget replaces GEN_DEV and does nothing else (R210). -/
theorem retargetAct_prompt {p : Pkt} {b : Nat} {x : Berth} (s : State) (prompt : x.prog.state = 2) :
    retargetAct p b x s = ok 0x22 p 0 (modBerth b (fun y => { y with id := { y.id with genDev := p.p0 } }) s) :=
  if_pos prompt

/-- REQ.ACCEPT of a transfer whose sending has begun ends the handoff when it comes from GEN_DEV, or not over the fabric (R28, R222). -/
theorem acceptAct_sent {p : Pkt} {b : Nat} {x : Berth} (s : State) (handoff : x.prog.state = 3)
    (sent : (x.xfer.bind (·.at')).isSome = true) (source : ∀ qp d port, p.path = .fabric qp d port → d = x.id.genDev) :
    acceptAct p b x s = manEnd b 8 6 stOk x.prog.released [] (ok 0x23 p 0 (modBerth b (fun y => { y with xfer := none }) s)) := by
  have fromGenDev : (match p.path with | .fabric _ d _ => d | _ => x.id.genDev) = x.id.genDev := by
    split
    next qp d port path => exact source qp d port path
    next => rfl
  refine if_pos ?_
  simp only [handoff, sent, decide_true, Bool.true_and, decide_eq_true_eq]
  exact fromGenDev

/-- A transfer that nothing has answered or accepted in time is refused (R224). -/
theorem handoffTimeoutFx_late {s : State} {b now : Nat} {y : Berth} {x : XferOut} (live : alive s = true) (held : berthAt s b = some y)
    (sent : y.xfer = some x) (late : handoffLate (atTick now s) x.at' = true) (noAccept : acceptArrives (atTick now s) b = false)
    (noReply : replyArrives (atTick now s) x.tag = false) :
    handoffTimeoutFx b now s = handoffRefused b stTimeout (bump MAN_HANDOFF_TMO_CNT 1 (atTick now s)) := by
  simp [handoffTimeoutFx, live, held, sent, late, noAccept, noReply]

/-- A REQ.ACCEPT that is not confirmed in time voids the handoff of a manifest in GENERATING or REBUILD (R224). -/
theorem awaitConfirmTimeoutFx_late {s : State} {b now : Nat} {x : Berth} (live : alive s = true) (held : berthAt s b = some x)
    (await : x.prog.await = true) (state : x.prog.state = 4 ∨ x.prog.state = 7) (late : handoffLate (atTick now s) x.acceptAt = true)
    (noReply : replyArrives (atTick now s) x.acceptTag = false) :
    awaitConfirmTimeoutFx b now s = manVoid b (bump MAN_HANDOFF_TMO_CNT 1 (atTick now s)) := by
  simp [awaitConfirmTimeoutFx, live, held, await, state, late, noReply]

/-- A reserved berth whose pages are late is given up (R224). -/
theorem reservedBerthTimeoutFx_late {s : State} {b now : Nat} {x : XferIn} (live : alive s = true) (reserved : tabGet s.man.xfers b = some x)
    (late : x.at' + handoffTmo s ≤ now) :
    reservedBerthTimeoutFx b now s =
      xferEnd b stTimeout (bump MAN_HANDOFF_REFUSED_CNT 1 (bump MAN_HANDOFF_TMO_CNT 1 (atTick now s))) := by
  simp [reservedBerthTimeoutFx, live, reserved, late]

theorem fieldsOf_manBerthSel : fieldsOf MAN_BERTH_SEL = [⟨13, 0, .rw, 0, 0, 16383⟩] := by decide

/-- BERTH has no reserved value, so that a write of MAN_BERTH_SEL is one stored word (R235). -/
theorem regSet_manBerthSel (v : Nat) (s : State) :
    regSet MAN_BERTH_SEL v s =
      regPut MAN_BERTH_SEL (fieldsAfter (fieldsOf MAN_BERTH_SEL) (regGet s MAN_BERTH_SEL) v) s := by
  have small : bits v 13 0 < 2 ^ 14 := bits_lt v 13 0
  refine regSet_of_legal s ?_
  simp only [fieldsOf_manBerthSel, fieldsRsvd, fieldRsvd, List.any_cons, List.any_nil, Bool.or_false, decide_true, Bool.true_and,
    Bool.not_eq_false', Bool.and_eq_true, decide_eq_true_eq]
  omega

theorem berthAt_regSet_manBerthSel (v : Nat) (s : State) (b : Nat) : berthAt (regSet MAN_BERTH_SEL v s) b = berthAt s b := by
  rw [regSet_manBerthSel]
  rfl

/-- While the host is heard, a write of MAN_BERTH_SEL shows the manifest of the berth that the register then holds (R235). -/
theorem manBerthSelWriteFx_heard {s : State} (v : Nat) (heard : hostHeard s = true) :
    manBerthSelWriteFx v s = putWords (MAN_BERTH_IMG 0)
      (match berthAt s (regField (regSet MAN_BERTH_SEL v s) MAN_BERTH_SEL 13 0) with | some x => manImage x | none => zeros 256)
      (regSet MAN_BERTH_SEL v s) := by
  simp only [manBerthSelWriteFx, heard, berthAt_regSet_manBerthSel]
  rfl

/-- Settles O35: the commands act as `receiveMan_named` and `receiveWith_accepted` have it, the answers as `onReply_listed`, and each timer
by the equation of its late case. -/
theorem handoffsRun : Obligations.HandoffsRun := by
  refine ⟨?retarget, fun s p h => ?transfer, ?accept, fun s r b live good => ⟨?pending, ?noBerth, ?confirmed⟩,
    fun s b now live => ⟨?handoff, ?confirm, ?reserved⟩,
    fun s v heard => ⟨_, rfl, congrArg Host.Outcome.next (manBerthSelWriteFx_heard v heard)⟩⟩
  case retarget =>
    rintro s p b x r rfl h named held epoch empty params dev prompt
    have layout : (p.payload.isEmpty && paramsZero p true false false false && decide (p.p0 < 4096)) = true := by simp [empty, params, dev]
    exact congrArg Host.Outcome.next ((receiveMan_named _ h named held epoch layout).trans (retargetAct_prompt _ prompt))
  case transfer =>
    refine congrArg Host.Outcome.next ((receiveWith_accepted _ h).trans ?_)
    unfold transferGate
    cases firstFail (taken transferRow p s) transferRow p <;> rfl
  case accept =>
    rintro s p b x r rfl h named held epoch params handoff sent source
    exact congrArg Host.Outcome.next ((receiveMan_named _ h named held epoch params).trans (acceptAct_sent _ handoff sent source))
  case pending =>
    intro fresh sent pending
    refine congrArg Host.Outcome.next ((handoffTransferReplyFx_listed live good fresh sent ?_).trans (if_pos pending))
    rw [pending]; decide
  case noBerth =>
    intro fresh sent refused
    refine congrArg Host.Outcome.next ((handoffTransferReplyFx_listed live good fresh sent ?_).trans ?_) <;> rw [refused]
    · decide
    · rfl
  case confirmed => exact fun fresh sent ok => congrArg Host.Outcome.next (acceptReplyFx_ok live good fresh sent ok)
  case handoff =>
    exact fun y x held sent late noAccept noReply => congrArg Host.Outcome.next (handoffTimeoutFx_late live held sent late noAccept noReply)
  case confirm =>
    exact fun x held await state late noReply => congrArg Host.Outcome.next (awaitConfirmTimeoutFx_late live held await state late noReply)
  case reserved => exact fun x reserved late => congrArg Host.Outcome.next (reservedBerthTimeoutFx_late live reserved late)

end Sys2Proof.Machine
end

section
/-! PROOF. How demotions, moves, drops and swaps end (O38). -/
namespace Sys2Proof.Machine

/-- A demotion's end: good, the references move to the new frame; bad, the new frame is freed (R158, R254). -/
theorem demotionVerifiedFx_demoting {s : State} {f g now : Nat} {x : Frame} (verified : Bool) (live : alive s = true)
    (held : frameAt s f = some x) (demoting : x.demote = some g) :
    demotionVerifiedFx f now verified s =
      demoteCheck (if verified then
        bump LGT_DEMOTED_CNT 1 (frameUnref f (modFrame f (fun y => { y with requestId := 0 }) (reframe f g
          (demoteWrite f g x (modFrame f (fun y => { y with demote := none }) (atTick now s))))))
      else modMan (fun m => { m with frames := tabDel m.frames g }) (modFrame f (fun y => { y with demote := none }) (atTick now s))) := by
  simp [demotionVerifiedFx, live, held, demoting]

/-- ST_OK to the PAGE.SEAL of a holder is its acceptance (R252). -/
theorem pageMoveReplyFx_sealed {s : State} {r : Rep} {m h : Nat} {x : Move} {g : MoveTgt} (live : alive s = true) (good : r.rcrcOk = true)
    (fresh : staleAnswer s r.opcode r.mid = false) (sent : moveOfTag s r.tag = some (m, h)) (held : moveAt s m = some x)
    (target : x.tgts[h]? = some g) (sealing : g.st = 2) (tag : g.tag = r.tag) (ok : r.status = stOk) :
    pageMoveReplyFx r s = accepted m h (atTick r.now s) := by
  unfold pageMoveReplyFx
  rw [onReply_listed _ _ live good fresh (by simp [sent]) (by rw [ok]; decide)]
  simp [sent, held, List.getD_eq_getElem?_getD, target, sealing, tag, ok]

/-- A listed answer to a drop is taken with its status (R253). -/
theorem pageDropReplyFx_listed {s : State} {r : Rep} {d : Nat} (live : alive s = true) (good : r.rcrcOk = true)
    (fresh : staleAnswer s r.opcode r.mid = false) (sent : dropOfTag s r.tag = some d) (listed : statusListed r.status = true) :
    pageDropReplyFx r s = dropAnswered d r.status (atTick r.now s) := by
  unfold pageDropReplyFx
  rw [onReply_listed _ _ live good fresh (by simp [sent]) listed]
  simp only [dropOfTag_atTick, sent]

/-- The one holder that is late is refused with ST_TIMEOUT (R252). -/
theorem pageMoveTimeoutFx_single {s : State} {m now h : Nat} (live : alive s = true)
    (late : (tgtsWhere (atTick now s) m fun t => (t.st = 1 || t.st = 2) && sentBefore t.sentAt (moveTmoTicks s) now &&
      !replyArrives (atTick now s) t.tag) = [h]) : pageMoveTimeoutFx m now s = tgtRefused m h stTimeout (atTick now s) := by
  unfold pageMoveTimeoutFx
  simp only [alive_atTick, live, moveTmoTicks_atTick, late]
  rfl

/-- The one holder whose retry is due is sent the page anew (R252). -/
theorem pageMoveRetryFx_single {s : State} {m now h : Nat} (live : alive s = true)
    (due : (tgtsWhere (atTick now s) m fun t => t.st = 4 && decide (t.at' ≤ now)) = [h]) :
    pageMoveRetryFx m now s = sendPut m h (modTgt m h (fun g => { g with st := 0, sentAt := none }) (atTick now s)) := by
  unfold pageMoveRetryFx
  simp only [alive_atTick, live, due]
  rfl

/-- A drop whose retry is due is sent again (R253). -/
theorem pageDropRetryFx_due {s : State} {d now t : Nat} {x : DropJob} (live : alive s = true) (held : dropAt s d = some x)
    (retry : x.retryAt = some t) (due : t ≤ now) : pageDropRetryFx d now s = sendDrop d (atTick now s) := by
  simp [pageDropRetryFx, live, held, retry, due]

/-- A swap-out of a GENERATING manifest is answered ST_PENDING, and begins at once when no step runs (R259, R262). -/
theorem swapOutAct_generating {p : Pkt} {b : Nat} {x : Berth} (s : State) (generating : x.prog.state = 4) (still : pagesMoving s b x = false)
    (noSwap : x.swapPkt = none) :
    swapOutAct p b x s =
      if s.eng.step.isSome then pend 0x35 p (modBerth b (fun y => { y with swapPkt := some p }) s)
      else swapOutDue b (pend 0x35 p (modBerth b (fun y => { y with swapPkt := some p }) s)) := by
  simp [swapOutAct, generating, still, noSwap]

/-- A swap-in of a SWAPPED manifest that finds its frames is answered ST_PENDING (R261, R262). -/
theorem swapInAct_swapped {p : Pkt} {b : Nat} {x : Berth} {s v : State} (swapped : x.prog.state = 6) (still : pagesMoving s b x = false)
    (begun : swapInBegin b (modBerth b (fun y => { y with swapPkt := some p }) s) = some v) : swapInAct p b x s = pend 0x36 p v := by
  simp [swapInAct, swapped, still, begun]

/-- A good snapshot of a PREEMPTED manifest makes it SWAPPED (R260). -/
theorem swapOutVerifiedFx_good {s : State} {b now : Nat} {x : Berth} {q : Snapshot} (live : alive s = true) (held : berthAt s b = some x)
    (snap : x.snap = some q) (preempted : x.prog.state = 5) (out : x.swapOut = true) :
    swapOutVerifiedFx b now true s = swapAnswer b 0x35 stOk (bump LGT_SWAP_BYTES q.bytes
      (bump LGT_SWAPOUT_CNT 1 (enterState b 6 (swapFree b x (modBerth b (fun y => { y with swapOut := false }) (atTick now s)))))) := by
  simp [swapOutVerifiedFx, live, held, snap, preempted, out]

/-- A snapshot read back whole restores the pages and makes the manifest GENERATING (R261). -/
theorem swapInCompleteFx_whole {s : State} {b now : Nat} {x : Berth} {q : Snapshot} (live : alive s = true) (held : berthAt s b = some x)
    (snap : x.snap = some q) (preempted : x.prog.state = 5) (swapIn : x.swapIn = true) :
    swapInCompleteFx b now .whole s = swapAnswer b 0x36 stOk (bump LGT_SWAP_BYTES q.bytes
      (bump LGT_SWAPIN_CNT 1 (snapGone b (enterState b 4 (logStore x.table.logFrames 0 x.log (q.pages.foldl (swapRestore b x)
        (modBerth b (fun y => { y with swapIn := false }) (atTick now s)))))))) := by
  simp [swapInCompleteFx, live, held, snap, preempted, swapIn]

/-- Settles O38: the two swap commands act as `receiveMan_named` has it, the answers as `onReply_listed`, and every other event by the
equation of its case. -/
theorem movesAndSwapsEnd : Obligations.MovesAndSwapsEnd := by
  refine ⟨?demotion, fun s r m h d x g live good fresh => ⟨?moveReply, ?dropReply⟩, fun s m now d live => ⟨?timeout, ?retry, ?dropRetry⟩,
    fun s p b x => ⟨?swapOut, ?swapIn⟩, fun s b now x q live held snap preempted => ⟨?verified, ?complete⟩⟩
  case demotion =>
    intro s f g now x live held demoting
    exact ⟨congrArg Host.Outcome.next (demotionVerifiedFx_demoting true live held demoting),
      congrArg Host.Outcome.next (demotionVerifiedFx_demoting false live held demoting)⟩
  case moveReply =>
    exact fun sent held target sealing tag ok =>
      congrArg Host.Outcome.next (pageMoveReplyFx_sealed live good fresh sent held target sealing tag ok)
  case dropReply => exact fun sent listed => congrArg Host.Outcome.next (pageDropReplyFx_listed live good fresh sent listed)
  case timeout => exact fun h late => congrArg Host.Outcome.next (pageMoveTimeoutFx_single live late)
  case retry => exact fun h due => congrArg Host.Outcome.next (pageMoveRetryFx_single live due)
  case dropRetry => exact fun x t held retry due => congrArg Host.Outcome.next (pageDropRetryFx_due live held retry due)
  case swapOut =>
    rintro r u rfl rfl h named held epoch params generating still noSwap
    exact ⟨_, rfl, congrArg Host.Outcome.next
      ((receiveMan_named _ h named held epoch params).trans (swapOutAct_generating _ generating still noSwap))⟩
  case swapIn =>
    rintro r u v rfl rfl h named held epoch params swapped still begun
    exact congrArg Host.Outcome.next ((receiveMan_named _ h named held epoch params).trans (swapInAct_swapped swapped still begun))
  case verified => exact fun out => congrArg Host.Outcome.next (swapOutVerifiedFx_good live held snap preempted out)
  case complete => exact fun swapIn => congrArg Host.Outcome.next (swapInCompleteFx_whole live held snap preempted swapIn)

end Sys2Proof.Machine
end

section
/-! PROOF. What an error of one core starts, and that an error of a larger unit takes that unit out (O18). -/
namespace Sys2Proof.Machine

/-- A single core struck, NOT_PRESENT and FENCED slots left out, is the whole list that the error is about (R46). -/
theorem struckSlots_singleton {s : State} {n : Nat} (slot : n < 1152) (present : (coreSlot s n).state ≠ 0) (unfenced : (coreSlot s n).state ≠ 5) :
    ((List.range 1152).filter fun k => [n].contains k && (coreSlot s k).state ≠ 0 && (coreSlot s k).state ≠ 5) = [n] := by
  have onlyN : (fun k => [n].contains k && decide ((coreSlot s k).state ≠ 0) && decide ((coreSlot s k).state ≠ 5)) = (· == n) := by
    funext k
    by_cases same : k = n
    · simp [same, present, unfenced]
    · simp [same]
  rw [onlyN, List.filter_beq, List.count_eq_one_of_mem List.nodup_range (List.mem_range.mpr slot), List.replicate_one]

/-- The error of one core is recorded, aborts the step when the core runs step work, and fences the core; without a step left, what
waited for the boundary follows (R46, R66, R119). -/
theorem coreUncorrectedErrorFx_singleton {s u v : State} {now cyc n : Nat} (live : alive s = true) (slot : n < 1152)
    (present : (coreSlot s n).state ≠ 0) (unfenced : (coreSlot s n).state ≠ 5)
    (recorded : u = record { cause := 2, cls := 1, flags := 2, kind := 1, unit := n, c0 := cyc } (atTick now s))
    (aborted : v = if runsId s n then testsPassed (fenceAbort cyc u) else u) :
    coreUncorrectedErrorFx now cyc [n] s =
      if v.eng.step.isNone then settle (activateBlocked (testsStart s.eng.step.isSome (fencesDue (fenceOne n 2 v)))) else fenceOne n 2 v := by
  subst recorded aborted
  unfold coreUncorrectedErrorFx
  simp only [struckSlots_singleton (s := atTick now s) slot present unfenced]
  simp [live]

/-- A corrected error below both thresholds is counted, recorded and kept in the histories, and nothing more (R424, R425). -/
theorem coreCorrectedErrorFx_below {s t u : State} {now n : Nat} (live : alive s = true) (slot : n < 1152)
    (present : (coreSlot s n).state ≠ 0) (unfenced : (coreSlot s n).state ≠ 5) (counted : t = bump (SEQ_CORE_CE_CNT n) 1 (atTick now s))
    (kept : u = modErr (fun e => { e with coreHist := histAdd e.coreHist n (msNow (atTick now s)),
                                          coreSince := histAdd e.coreSince n (msNow (atTick now s)) })
      (record { cause := 1, cls := 0, kind := 1, unit := n, c0 := regGet t (SEQ_CORE_CE_CNT n) } t))
    (unsuspected : histReached (tabGetD u.err.coreSince n []) (regField s ERR_TH_CORE_SUSPECT 7 0)
      (1000 * regField s ERR_TH_CORE_SUSPECT 27 16) = false)
    (unfencing : histReached (tabGetD u.err.coreHist n []) (regField s ERR_TH_CORE_FENCE 7 0)
      (1000 * regField s ERR_TH_CORE_FENCE 27 16) = false) :
    coreCorrectedErrorFx n now s = coresNow u := by
  subst counted kept
  unfold coreCorrectedErrorFx
  simp only [alive_atTick, coreSlot_atTick, regField_atTick, live, slot.not_ge, present, unfenced, unsuspected, unfencing, decide_false,
    Bool.not_true, Bool.or_self, Bool.false_eq_true, if_false]

theorem clusterUeFx_alive {s : State} (m now : Nat) (part : ClusterPart) (live : alive s = true) :
    clusterUeFx m now part s = clusterUe m (partCode part) (atTick now s) := if_pos live

theorem lighterUeFx_alive {s : State} (r now : Nat) (live : alive s = true) : lighterUeFx r now s = lighterUe r (atTick now s) := if_pos live

theorem compressorUeFx_alive {s : State} (r now : Nat) (live : alive s = true) : compressorUeFx r now s = compressorUe r (atTick now s) :=
  if_pos live

/-- A region whose stop fails is lost, and its die stack is fenced for cause 2 (R53). -/
theorem regionStopFailFx_notLost {s : State} {r : Nat} (now : Nat) (live : alive s = true) (region : r < 32) (notLost : (regionSt s r).lost = false) :
    regionStopFailFx r now s = stackFence (r / 8) 2 (modRegion r (fun x => { x with lost := true }) (atTick now s)) := by
  simp [regionStopFailFx, live, region, notLost]

theorem dieStackFenceFx_alive {s : State} (k now : Nat) (cause : StackCause) (live : alive s = true) :
    dieStackFenceFx k now cause s = stackFence k (match cause with | .baseNetwork => 1 | .hbmStack => 3) (atTick now s) := if_pos live

/-- Settles O18: each event takes the effect that the equation of its case gives. -/
theorem unitErrorsAreContained : Obligations.UnitErrorsAreContained := by
  refine fun s now live => ⟨?uncorrected, ?corrected, ?cluster, ?lighter, ?compressor, ?region, ?stack⟩
  case uncorrected =>
    exact fun n cyc u v slot present unfenced recorded aborted =>
      congrArg Host.Outcome.next (coreUncorrectedErrorFx_singleton live slot present unfenced recorded aborted)
  case corrected =>
    exact fun n slot present unfenced unsuspected unfencing =>
      congrArg Host.Outcome.next (coreCorrectedErrorFx_below live slot present unfenced rfl rfl unsuspected unfencing)
  case cluster => exact fun m part => congrArg Host.Outcome.next (clusterUeFx_alive m now part live)
  case lighter => exact fun r => congrArg Host.Outcome.next (lighterUeFx_alive r now live)
  case compressor => exact fun r => congrArg Host.Outcome.next (compressorUeFx_alive r now live)
  case region => exact fun r region notLost => congrArg Host.Outcome.next (regionStopFailFx_notLost now live region notLost)
  case stack => exact fun k cause => congrArg Host.Outcome.next (dieStackFenceFx_alive k now cause live)

end Sys2Proof.Machine
end

section
/-! PROOF. What a table entry does once the loads that it depends on have come and its tile is at hand (O20). -/
namespace Sys2Proof.Machine

/-! ## Entries that read a tile (R109, R133, R142) -/

section
variable {s : State} {m : Nat} (c : Nat) {e : Bytes} {f : Fetched} (unswitched : (cluster s m).switched = false)
  (ready : tileReady s m e = true) (come : loadsCome s m e = true)
include unswitched ready come

/-- The entry is not held back: its cluster has not switched to the direct path, and its tile and loads are there (R136). -/
theorem tileEntry_notHeldBack : ((cluster s m).switched || !tileReady s m e || !loadsCome s m e) = false := by
  rw [unswitched, ready, come]
  rfl

theorem execLoadTile_fetched (here : entryOf s m opLoadTile = some e) (fetched : fetchRef s (enRef e) (leAt e 20 4) = some f) :
    execLoadTile m c s = .next (releaseTile m (cluster s m).pc (loadTileFx m e f (issue m c e s))) := by
  simp only [execLoadTile, here, tileEntry_notHeldBack unswitched ready come, fetched, Bool.false_eq_true, if_false]

theorem execExpandTile_fetched (here : entryOf s m opExpand = some e) (fetched : fetchRef s (enRef e) (enTileLen s e) = some f) :
    execExpandTile m c s = .next (releaseTile m (cluster s m).pc (expandFx m e f false (issue m c e s))) := by
  simp only [execExpandTile, here, tileEntry_notHeldBack unswitched ready come, fetched, Bool.false_eq_true, if_false]

theorem execSentinelEntry_fetched (here : entryOf s m opSentinel = some e) (checks : sentIdle s e = false)
    (fetched : fetchRef s (enRef e) (enTileLen s e) = some f) :
    execSentinelEntry m c s = .next (releaseTile m (cluster s m).pc (sentinelFx m e f (issue m c e s))) := by
  simp only [execSentinelEntry, here, checks, tileEntry_notHeldBack unswitched ready come, fetched, Bool.false_eq_true, if_false]

end

theorem execSentinelEntry_idle {s : State} {m : Nat} (c : Nat) {e : Bytes} (here : entryOf s m opSentinel = some e)
    (idle : sentIdle s e = true) : execSentinelEntry m c s = .next (releaseTile m (cluster s m).pc (issue m c e s)) := by
  simp [execSentinelEntry, here, idle]

/-- Each container block of an EXPAND goes to the named tile buffers; a plain source goes there as one run of symbols (R109, R194). -/
theorem expandFx_queued {s : State} {m : Nat} {e : Bytes} {f : Fetched} {l : List ExpBlock} (direct : Bool)
    (blocks : l = if f.blocks = [] then [⟨refOff (enRef e), false, plainSyms (refFmt s (enRef e)).1 f.bytes.length, none, expandBufs s m e, 0⟩]
      else f.blocks.map fun b => { b with bufs := expandBufs s m e }) :
    expandFx m e f direct s = freeNext (countPoison f.tags (queueBlocks m l
      (modCluster m (putTile (expandBufs s m e) (expandTileOf s e f l.length direct)) s))) := by
  subst blocks
  cases plain : f.blocks <;> simp [expandFx, plain]

/-- A SENTINEL whose tiles agree within the tolerance stages its counts and marks nothing (R94, R97). -/
theorem sentinelFx_agrees {s : State} {m : Nat} {e : Bytes} {f : Fetched} {r : Run} {k : Stake} {x : Nat} {l : List Nat} {n : Nat}
    {q : SentOut} {d : Res × Res} (checks : sentIdle s e = false) (run : curRun s = some r) (stake : curStake s = some k)
    (cores : entryCores s m e = x :: l) (rows : n = resolveRows r.batch (leAt e 28 2))
    (tiles : q = sentTiles s x e r f.bytes (fetchRecords s k (refHandle (enRef e)) (refOff (enRef e) / 32) (f.bytes.length / 32)).1 n
      (recStep s % divUp n 64))
    (sums : d = driftSums q.narrow q.ref) (agree : driftFails (teTol (stkEntry k (leAt e 24 2))) d.1.bits d.2.bits = false) :
    sentinelFx m e f s = freeNext (queueBlocks m (loadBlocks (enCores e) f.blocks)
      ((q.sats ++ [(0, d.1.sat + d.2.sat)]).foldl (stageSat x) s)) := by
  subst rows tiles sums
  simp only [sentinelFx, run, stake, cores, checks, agree, Bool.false_eq_true, if_false]

/-! ## Entries that compute on the named cores (R102, R133, R135, R136) -/

section
variable {s : State} {m : Nat} (c : Nat) {e : Bytes}

theorem execMma_noRows (here : entryOf s m opMma = some e) (noRows : mmaRows s e = 0) : execMma m c s = .next (issue m c e s) := by
  simp [execMma, here, noRows]

theorem execMma_streams (here : entryOf s m opMma = some e) (ready : mmaReady s m e = true) (free : enginesFree s m c e = true)
    (rows : 0 < mmaRows s e) :
    execMma m c s = .next ((namedCores s m e).foldl (mmaCore m c e (mmaRows s e)) (issue m c e s)) := by
  simp [execMma, here, ready, free, rows.ne']

theorem execVec_come (here : entryOf s m opVec = some e) (come : loadsCome s m e = true) :
    execVec m c s = .next ((entryCores s m e).foldl (vecCore e) (issue m c e s)) := by
  simp [execVec, here, come]

theorem execSampleEntry_come {r : Run} (here : entryOf s m opSample = some e) (come : loadsCome s m e = true) (run : curRun s = some r) :
    execSampleEntry m c s =
      .next ((entryCores s m e).foldl (sampleCore e (resolveRows r.batch (leAt e 16 2))) (issue m c e s)) := by
  simp [execSampleEntry, here, come, run]

end

/-- Settles O20: each entry, its inputs at hand, issues and takes the effect that the equation of its case gives. -/
theorem tableEntriesTakeEffect : Obligations.TableEntriesTakeEffect := by
  intro s m c e v issued
  subst issued
  refine ⟨?load, ?expand, ?mmaNoRows, ?mma, ?vec, ?sample, ?sentinelIdle, ?sentinel⟩
  case load => exact fun f here unswitched ready come fetched => execLoadTile_fetched c unswitched ready come here fetched
  case expand =>
    intro f l here unswitched ready come fetched blocks
    rw [exec_expandTile, execExpandTile_fetched c unswitched ready come here fetched, expandFx_queued false blocks]
    rfl
  case mmaNoRows => exact execMma_noRows c
  case mma => exact execMma_streams c
  case vec => exact execVec_come c
  case sample => exact fun r => execSampleEntry_come c
  case sentinelIdle => exact execSentinelEntry_idle c
  case sentinel =>
    intro f r k x l here checks unswitched ready come fetched checksThen run stake cores n q d agree
    rw [exec_sentinelEntry, execSentinelEntry_fetched c unswitched ready come here checks fetched,
      sentinelFx_agrees checksThen run stake cores rfl rfl rfl agree]

end Sys2Proof.Machine
end

section
/-! PROOF. How tests of cores are asked for, start and end (O19). -/
namespace Sys2Proof.Machine

/-- An accepted packet whose parameters are good takes the effect of its opcode (R324). -/
theorem receive_orFormat {r : OpRow} {p : Pkt} {s : State} (o : Nat) {good : State → Bool} (act : State → State) (h : Accepted r s p)
    (params : good (taken r p s) = true) : receive r p (fun t => orFormat (good t) o p act t) s = act (taken r p s) := by
  rw [receive_accepted _ h, params]
  rfl

/-- TEST.SENTINEL waits at its slot, whose test becomes due, when it names a slot that is neither NOT_PRESENT nor FENCED (R118, log 134). -/
theorem sentinelAct_inService {s : State} {p : Pkt} {n : Nat} (named : sentinelSlot s p.p0 = some n) (present : (coreSlot s n).state ≠ 0)
    (unfenced : (coreSlot s n).state ≠ 5) :
    sentinelAct p s = coresNow (testDue n false (modSlot n (fun c => { c with waiting := c.waiting ++ [p] }) (pend 0x60 p s))) := by
  simp [sentinelAct, named, present, unfenced]

theorem testSentinelFx_inService {s : State} {p : Pkt} {n : Nat} (h : Accepted rowSentinel s p)
    (params : paramsZero p true false false false = true) (reserved : bits p.p0 30 11 = 0) (small : p.p0 < 2 ^ 32)
    (named : sentinelSlot (taken rowSentinel p s) p.p0 = some n) (present : (coreSlot (taken rowSentinel p s) n).state ≠ 0)
    (unfenced : (coreSlot (taken rowSentinel p s) n).state ≠ 5) :
    testSentinelFx p s =
      coresNow (testDue n false (modSlot n (fun c => { c with waiting := c.waiting ++ [p] }) (pend 0x60 p (taken rowSentinel p s)))) :=
  (receive_orFormat 0x60 _ h (by simp only [params, reserved, small, decide_true, Bool.and_self])).trans
    (sentinelAct_inService named present unfenced)

/-- TEST.KAT is answered ST_PENDING while no other is in progress (R324, log 80). -/
theorem katAct_noneRuns {s : State} (p : Pkt) (noKat : s.core.kats = []) :
    katAct p s = pend 0x61 p (modCore (fun c => { c with kats := [p] }) s) := by
  simp [katAct, noKat]

theorem testKatFx_noneRuns {s : State} {p : Pkt} (h : Accepted rowKat s p) (params : paramsZero p true false false false = true)
    (small : p.p0 < 128) (target : p.p0 = 127 ∨ (cluster (taken rowKat p s) p.p0).present = true)
    (noKat : (taken rowKat p s).core.kats = []) :
    testKatFx p s = pend 0x61 p (modCore (fun c => { c with kats := [p] }) (taken rowKat p s)) :=
  (receive_orFormat 0x61 (katAct p) h (by simpa [params, small] using target)).trans (katAct_noneRuns p noKat)

/-- A good checksum starts the tests of the cluster's slots that wait for the load (R121). -/
theorem spareLoadCompleteFx_matches {s : State} {m : Nat} (now : Nat) (live : alive s = true) (loading : (cluster s m).loading = true) :
    spareLoadCompleteFx m now true s =
      (clusterSlots m).foldl (fun t n =>
          if (coreSlot t n).testState = 3 then modSlot n (fun x => { x with testState := 4, testAt := max s.tick now }) t else t)
        (modCluster m (fun c => { c with loading := false }) (atTick now s)) := by
  simp [spareLoadCompleteFx, live, loading]

section
variable {s : State} {n now : Nat} (live : alive s = true) (underTest : (coreSlot s n).state = 4) (runs : (coreSlot s n).testState = 4)
  (notEnded : (coreSlot s n).ended = none) (late : (coreSlot s n).testAt + testTicks ≤ max s.tick now)
include live underTest runs notEnded late

/-- A core that fails its test is fenced for cause 4 once what waited is answered (R117, R118). -/
theorem sentinelTestEndFx_failed : sentinelTestEndFx n now false s =
    fenceOne n 4 (testAnswer n 2 (modSlot n (fun x => { x with testsRun := min 255 (x.testsRun + 1) }) (atTick now s))) := by
  simp [sentinelTestEndFx, live, underTest, runs, notEnded, Nat.not_lt.mpr late]

/-- A core tested in place that passes is idle again, and its errors no longer count towards the suspect threshold (R117, R426). -/
theorem sentinelTestEndFx_passedIdle (idle : (coreSlot s n).home = none) : sentinelTestEndFx n now true s =
    modSlot n (fun x => { x with state := 2 }) (modErr (fun e => { e with coreSince := tabDel e.coreSince n })
      (testAnswer n 1 (modSlot n (fun x => { x with testsRun := min 255 (x.testsRun + 1) }) (atTick now s)))) := by
  simp [sentinelTestEndFx, live, underTest, runs, notEnded, Nat.not_lt.mpr late, idle]

end

/-- Settles O19: the two commands act as `receive_orFormat` has it, and the load and the test program end by the equation of their case. -/
theorem coreTestsRun : Obligations.CoreTestsRun := by
  refine ⟨?sentinel, ?kat, ?load, ?testEnd⟩
  case sentinel =>
    exact fun s p n h params reserved small named present unfenced =>
      congrArg Host.Outcome.next (testSentinelFx_inService h params reserved small named present unfenced)
  case kat => exact fun s p h params small target noKat => congrArg Host.Outcome.next (testKatFx_noneRuns h params small target noKat)
  case load => exact fun s m now live loading => congrArg Host.Outcome.next (spareLoadCompleteFx_matches now live loading)
  case testEnd =>
    exact fun s n now live underTest runs notEnded late =>
      ⟨congrArg Host.Outcome.next (sentinelTestEndFx_failed live underTest runs notEnded late),
        fun idle => congrArg Host.Outcome.next (sentinelTestEndFx_passedIdle live underTest runs notEnded late idle)⟩

end Sys2Proof.Machine
end

section
/-! PROOF. What the stager, the direct path, the expander and the compressor bring to an end (O22). -/
namespace Sys2Proof.Machine

/-- The next tile, not in the slice yet, is started when the slice has room for the whole of it (R172, R173). -/
theorem execStagerTileStart_fits {s : State} {m : Nat} {r : Run} {img v : Bytes} {i : Nat} {e : Bytes}
    (present : (cluster s m).present = true) (free : (cluster s m).staging = none) (variant : stageVariant s m = some (r, img, v))
    (nextTile : stageNext s r img v (varEntries v) (cluster s m).reach = some (i, e))
    (absent : inSlice (cluster s m) (tileName s r (enRef e)) (tileLenIn s r e) = none)
    (fits : sliceUsed (cluster s m) + refStored s r (enRef e) (tileLenIn s r e) ≤ 24 * 2 ^ 20) :
    execStagerTileStart m s = .next (modCluster m (fun c => { c with
      reach := i + 1, staging := some ⟨stageNo c i, (tileName s r (enRef e)).1, (tileName s r (enRef e)).2, tileLenIn s r e,
                                       refStored s r (enRef e) (tileLenIn s r e), refTierIn s r (enRef e), 0⟩ }) s) := by
  simp only [execStagerTileStart, present, free, variant, nextTile, absent, fits, Option.isNone_none, Option.isSome_none, Bool.and_self,
    Bool.false_eq_true, if_true, if_false]

/-- A staged tile is in the slice for the entries that still name it, and is counted (R115, R173, R180). -/
theorem execStagingComplete_staging {s : State} {m : Nat} {t : StagedTile} (c : Nat) (staging : (cluster s m).staging = some t) :
    execStagingComplete ⟨m, c⟩ s = .next (stagedCount t (modCluster m (fun x => { x with
      staging := none, staged := x.staged ++ if servesLater s m t then [{ t with since := c }] else [] }) s)) := by
  simp only [execStagingComplete, staging]

/-- The tile of a switched LOAD_TILE goes into the cores that the entry names (R114, R115). -/
theorem execDirectPathComplete_loadTile {s : State} {m : Nat} {e : Bytes} {f : Fetched} (c : Nat) (switched : directEntry s m = some e)
    (load : enOp e = opLoadTile) (fetched : fetchRef s (enRef e) (enTileLen s e) = some f) :
    execDirectPathComplete ⟨m, c⟩ s = .next (directNext m c (loadedAt m c 2 (enCores e)
      (bump (SEQ_CLU_DIRECT_BYTES m) f.stored (loadTileFx m e f s)))) := by
  have noExpand : opLoadTile ≠ opExpand := by decide
  simp only [execDirectPathComplete, switched, fetched, directFx, load, noExpand, if_true, if_false]

/-- A block without a length mismatch adds its symbols and its cycles to the expander's counters (R193). -/
theorem expanderCounts_noMismatch {b : ExpBlock} (m : Nat) (s : State) (whole : b.mismatch = none) :
    expanderCounts m b s = bump (EXP_BUSY_CYCLES m) (divUp b.syms (if b.coded then 256 else 512))
      (bump (if b.coded then EXP_CODED_SYMS m else EXP_RAW_SYMS m) b.syms s) := by
  simp only [expanderCounts, mismatchFx, whole]

/-- The expander's first block comes into the tile buffers and the cores that wait for it (R193, R194). -/
theorem execExpanderBlockDone_cons {s : State} {m : Nat} {b : ExpBlock} {l : List ExpBlock} (c : Nat)
    (queued : (cluster s m).expander = b :: l) :
    execExpanderBlockDone ⟨m, c⟩ s = .next (loadedAt m c 1 b.cores
      (expanderCounts m b (modCluster m (fun x => blockDelivered b c { x with expander := l }) s))) := by
  simp only [execExpanderBlockDone, queued]

/-- A region's compressor counts its oldest object as it ends (R199). -/
theorem execCompressorObjectReady_cons {s : State} {region syms bytes raw : Nat} {l : List (Nat × Nat × Nat)}
    (coding : (regionSt s region).coding = (syms, bytes, raw) :: l) :
    execCompressorObjectReady region s = .next (bump (CMP_RAW_BLOCKS region) raw (bump (CMP_OUT_BYTES region) bytes
      (bump (CMP_IN_SYMS region) syms (modRegion region (fun r => { r with coding := l }) s)))) := by
  simp only [execCompressorObjectReady, coding]

/-- Settles O22: each unit's event takes the effect that the equation of its case gives. -/
theorem tilesAreStaged : Obligations.TilesAreStaged := by
  refine fun s m => ⟨?start, ?staged, ?direct, ?expander, ?compressor⟩
  case start => exact fun r img v i e => execStagerTileStart_fits
  case staged => exact fun c t => execStagingComplete_staging c
  case direct => exact fun c e f => execDirectPathComplete_loadTile c
  case expander =>
    intro c b l queued whole
    rw [exec_expanderBlockDone, execExpanderBlockDone_cons c queued, expanderCounts_noMismatch m _ whole]
  case compressor => exact fun x y z l => execCompressorObjectReady_cons

end Sys2Proof.Machine
end

section
/-! PROOF. How the entries of different clusters meet: flags, signals, barriers, deadlines and END (O21). -/
namespace Sys2Proof.Machine

section
variable {s : State} {m : Nat} (c : Nat) {e : Bytes}

theorem execWaitEntry_reached (here : entryOf s m opWait = some e) (reached : leAt e 16 2 ≤ flagOf s m (leAt e 8 1)) :
    execWaitEntry m c s = .next (issue m c e s) := by
  simp only [execWaitEntry, here, reached, if_true]

/-- A SIGNAL to a cluster in service is on its way for 40 cycles, or 160 to another die stack (R139). -/
theorem execSignalEntry_present (here : entryOf s m opSignal = some e) (present : (cluster s (leAt e 10 2)).present = true) :
    execSignalEntry m c s = .next (issue m c e (modCluster m (fun x => { x with signals := x.signals ++
      [⟨leAt e 10 2, leAt e 8 1, c + if m / 32 = leAt e 10 2 / 32 then 40 else 160⟩] }) s)) := by
  simp only [execSignalEntry, here, present, signalDelay, if_true]

theorem execSignalEntry_absent (here : entryOf s m opSignal = some e) (absent : (cluster s (leAt e 10 2)).present = false) :
    execSignalEntry m c s = .next (issue m c e s) := by
  simp only [execSignalEntry, here, absent, Bool.false_eq_true, if_false]

/-- The cluster waits at its BARRIER, and every BARRIER whose scope is complete with it issues (R139). -/
theorem execBarrierEntry_here (here : entryOf s m opBarrier = some e) :
    execBarrierEntry m c s =
      let t := modCluster m (fun x => { x with barrier := some (leAt e 8 1, leAt e 9 1) }) s
      .next (((List.range 128).filter (barrierMet t c)).foldl (fun t k => advance k c t) t) := by
  simp only [execBarrierEntry, here]

/-- A passed deadline counts the stall so far; the fallback is applied once, and only to an entry whose input is not ready (R134, R140). -/
theorem execEntryDeadline_passed (here : curEntry s m = some e) (bound : enDeadline e ≠ 0xFFFFFFFF) (passed : enDeadline e ≤ c) :
    execEntryDeadline m c false false s =
      let t := stallTo m e c (stallCause s m e) s
      .next (if inputReady s m e = true then modCluster m (fun x => { x with unfetched := true }) t
             else if (cluster s m).fellBack then t else fallback m c e t) := by
  simp only [execEntryDeadline, here, bound, passed.not_gt, decide_false, Bool.or_self, Bool.false_eq_true, if_false]

theorem execEndEntry_done (here : entryOf s m opEnd = some e) (done : entriesDone s m c = true) :
    execEndEntry m c s = .next (modCluster m (fun x => { x with finished := true })
      (stallTo m e (min c (dataCame s m c e).1) (dataCame s m c e).2 s)) := by
  simp only [execEndEntry, here, done, if_true]

end

/-- A SIGNAL that some cluster has on its way leaves it, and advances the flag of a target in service (R139). -/
theorem execSignalDelivered_onItsWay {s : State} {m k f c : Nat}
    (onItsWay : (List.range 128).find? (fun m => hasSignal ⟨k, f, c⟩ (cluster s m)) = some m) :
    execSignalDelivered k f c s =
      let u := modCluster m (fun x => { x with signals := x.signals.erase ⟨k, f, c⟩ }) s
      .next (if (cluster u k).present = true then flagUp k f u else u) := by
  simp only [execSignalDelivered, onItsWay]

theorem flagArrival_bound {f : Nat} (s : State) (low : 48 ≤ f) (high : f ≤ 63) :
    flagArrival f s = (clustersIn s).foldl (fun t m => flagUp m f t) s := by
  simp only [flagArrival, low, high, decide_true, Bool.and_self, if_true]

/-- An arrival for a slot with a host flag, 56 to 63, advances it in every cluster in service (R138, R139). -/
theorem execHostArrivalComplete_hostFlag {s : State} {r : Run} {k : Nat} (runs : curRun s = some r)
    (low : 56 ≤ (slotRec r.batch k).flag) (high : (slotRec r.batch k).flag ≤ 63) :
    execHostArrivalComplete k s = .next ((clustersIn s).foldl (fun t m => flagUp m (slotRec r.batch k).flag t) s) := by
  simp only [execHostArrivalComplete, runs, low, high, decide_true, Bool.and_self, if_true, flagArrival_bound s (Nat.le_trans (by decide) low) high]

/-- Settles O21: each entry and each event takes the effect that the equation of its case gives. -/
theorem entriesMeetEachOther : Obligations.EntriesMeetEachOther := by
  refine fun s m c e => ⟨?wait, ?signal, ?signalAbsent, ?delivered, ?barrier, ?deadline, ?arrival, ?endEntry⟩
  case wait => exact execWaitEntry_reached c
  case signal => exact execSignalEntry_present c
  case signalAbsent => exact execSignalEntry_absent c
  case delivered =>
    rintro k f u onItsWay rfl
    exact execSignalDelivered_onItsWay onItsWay
  case barrier => exact fun here => ⟨_, execBarrierEntry_here c here, rfl⟩
  case deadline => exact fun here bound passed => ⟨_, rfl, execEntryDeadline_passed c here bound passed⟩
  case arrival => exact fun r k => execHostArrivalComplete_hostFlag
  case endEntry => exact execEndEntry_done c

end Sys2Proof.Machine
end

section
/-! PROOF. What the sender of attention does: SEND to a HELD slot, results, status replies and timeouts (O12). -/
namespace Sys2Proof.Machine

/-! ## The engines' state through an issue and a flag -/

theorem curRun_of_eng {s t : State} (same : t.eng = s.eng) : curRun t = curRun s := by
  unfold curRun
  rw [same]

theorem stallTo_eng (m : Nat) (e : Bytes) (upTo cause : Nat) (s : State) : (stallTo m e upTo cause s).eng = s.eng := by
  unfold stallTo
  extract_lets x start
  split <;> rfl

theorem issue_eng (m c : Nat) (e : Bytes) (s : State) : (issue m c e s).eng = s.eng := stallTo_eng _ _ _ _ s

theorem flagArrival_eng (f : Nat) (s : State) : (flagArrival f s).eng = s.eng := by
  have all : ∀ (l : List Nat) (t : State), (l.foldl (fun t m => flagUp m f t) t).eng = t.eng := by
    intro l
    induction l with
    | nil => exact fun _ => rfl
    | cons m l ih => exact fun t => ih (flagUp m f t)
  unfold flagArrival
  split
  · exact all _ s
  · rfl

theorem slotFlag_eng (k : Nat) (s : State) : (slotFlag k s).eng = s.eng := by
  unfold slotFlag
  split
  · rfl
  · exact flagArrival_eng _ s

theorem budgetCheck_eng (x : Exchange) (s : State) : (budgetCheck x s).eng = s.eng := by
  unfold budgetCheck
  split <;> rfl

/-! ## SEND (R138, R182) -/

/-- A SEND that does not ask for coding leaves its bytes plain for a HELD slot. -/
theorem sendFx_heldPlain {s : State} {e : Bytes} {r : Run} {w : StepRun} (m : Nat) (run : curRun s = some r) (step : s.eng.step = some w)
    (held : (slotRec r.batch (refHandle (sendDest e) - 0xF000)).kind = 1) (plain : sendCode e = false) :
    sendFx m e s = modRun (fun r =>
      { r with heldNow := ⟨refHandle (sendDest e) - 0xF000, refOff (sendDest e), (sendData s m e).1, (sendData s m e).2,
        none⟩ :: r.heldNow }) s := by
  simp only [sendFx, run, step, held, sendCoded, plain, Bool.not_false, if_true]

theorem execSendEntry_come {s : State} {m : Nat} {e : Bytes} (c now : Nat) (here : entryOf (atTick now s) m opSend = some e)
    (come : loadsCome (atTick now s) m e = true) :
    execSendEntry m c now s = .next (sendFx m e (issue m c e (atTick now s))) := by
  simp only [execSendEntry, here, come, if_true]

/-! ## Results and status replies (R273, R275, R279) -/

/-- A segment with no page left to fold is done. -/
theorem runOn_segmentEnd {x : Exchange} {s : State} (ended : x.last ≤ x.first) (grouped : tabGet s.eng.groups x.group ≠ none) :
    runOn (runFuel x) x s = segDone x s := by
  have noPages : x.last - x.first = 0 := Nat.sub_eq_zero_of_le ended
  have noRun : nextRun s x = none := by simp [nextRun, noPages]
  have group : (tabGet s.eng.groups x.group).isNone = false :=
    Option.isNone_eq_false_iff.mpr (Option.isSome_iff_ne_none.mpr grouped)
  simp only [runFuel, noPages, runOn, group, noRun, List.range_zero, List.any_nil, Bool.false_eq_true, if_false]

/-- An ATT.RESULT with ST_OK closes its exchange; its state becomes the segment's, which it ends (R273, R275). -/
theorem resultFx_segmentEnd {x : Exchange} {p : Pkt} {s : State} (tag : Nat) (good : resultOk x p = true) (ok : arStatus p.payload = stOk)
    (ended : x.last ≤ x.first + x.count) (grouped : tabGet s.eng.groups x.group ≠ none) :
    resultFx tag x p s =
      segDone { x with state := p.payload.drop 32, first := x.first + x.count, again := false } (slotFlag x.slot
        (keepMax ATT_RTT_MAX (exchangeAge s x) (exClose tag (budgetCheck x (moved x.berth (evoBytes p.payload.length) s))))) := by
  simp only [resultFx, good, ok, Bool.not_true, Bool.false_eq_true, if_false, ne_eq, not_true_eq_false]
  refine runOn_segmentEnd ended ?_
  rw [slotFlag_eng]
  show tabGet (budgetCheck x (moved x.berth (evoBytes p.payload.length) s)).eng.groups x.group ≠ none
  rw [budgetCheck_eng]
  exact grouped

/-- An ATT.RESULT meets the exchange of its TAG, unless that one still waits for a SYS.HELLO (R273, R528). -/
theorem attResultAct_sent {p : Pkt} {s : State} {x : Exchange} (found : tabGet s.eng.exch p.tag = some x) (sent : x.qp ≠ 2 ^ 20) :
    attResultAct p s = resultFx p.tag x p s := by
  simp only [attResultAct, found, sent, if_false]

/-- ST_PENDING is noted in the exchange and fails nothing (R279). -/
theorem attReplyAct_pending {tag : Nat} {s : State} {x : Exchange} (found : tabGet s.eng.exch tag = some x) :
    attReplyAct tag stPending s = modEng (fun e => { e with exch := tabMod e.exch tag fun y => { y with pended := true } }) s := by
  simp only [attReplyAct, found, if_true]

/-- An exchange that nothing answers on the tick of ATT_TMO passes its holder over (R279). -/
theorem attExchangeTimeoutFx_late {s : State} {tag now : Nat} {x : Exchange} (live : alive s = true) (found : tabGet s.eng.exch tag = some x)
    (sent : x.sentAt ≠ none) (late : usTicks (regField s ATT_TMO 13 0) ≤ exchangeAge (atTick now s) x)
    (noResult : resultArrives (atTick now s) tag = false) (noReply : replyArrives (atTick now s) tag = false) :
    attExchangeTimeoutFx tag now s = exFailed tag x none (budgetCheck x (atTick now s)) := by
  have begun : x.sentAt.isSome = true := Option.isSome_iff_ne_none.mpr sent
  simp only [attExchangeTimeoutFx, atTick_eng, alive_atTick, regField_atTick, found, live, begun, late, noResult, noReply, decide_true,
    Bool.not_false, Bool.and_self, if_true]

/-- Settles O12: each command of the sender takes the effect that the equation of its case gives. -/
theorem attentionSenderRuns : Obligations.AttentionSenderRuns := by
  refine ⟨?send, ?result, ?pending, ?timeout⟩
  case send =>
    rintro s m c now e r w u rfl here come run step held plain
    have eng := issue_eng m c e (atTick now s)
    rw [exec_sendEntry, execSendEntry_come c now here come,
      sendFx_heldPlain m ((curRun_of_eng eng).trans run) ((congrArg EngSt.step eng).trans step) held plain]
  case result =>
    rintro s p x u rfl h params found sent good ok ended grouped
    have accepted : attResultFx p s = attResultAct p (taken rowAttResult p s) :=
      (receive_accepted _ h).trans (if_pos params)
    exact congrArg Host.Outcome.next
      (accepted.trans ((attResultAct_sent found sent).trans (resultFx_segmentEnd p.tag good ok ended grouped)))
  case pending =>
    intro s r x live good pending found fresh
    refine congrArg Host.Outcome.next ((onReply_listed _ _ live good fresh ?known ?listed).trans ?noted)
    case known => simp [found]
    case listed => rw [pending]; decide
    case noted => rw [pending]; exact attReplyAct_pending found
  case timeout =>
    rintro s tag now x u rfl live found sent late noResult noReply
    exact congrArg Host.Outcome.next (attExchangeTimeoutFx_late live found sent late noResult noReply)

end Sys2Proof.Machine
end

section
/-! PROOF. How clocks, sensors, estimates and AVS change the device (O44). -/
namespace Sys2Proof.Machine

/-! ## Parts that an operation leaves -/

theorem Part.same_trans {p : Part} {s t u : State} (h : p.same s t) (k : p.same t u) : p.same s u := by
  cases p <;> exact Eq.trans k h

theorem OnlyParts.trans {l : List Part} {s t u : State} (h : OnlyParts l s t) (k : OnlyParts l t u) : OnlyParts l s u :=
  fun p other => Part.same_trans (h p other) (k p other)

theorem OnlyParts.mono {l k : List Part} {s t : State} (sub : l ⊆ k) (h : OnlyParts l s t) : OnlyParts k s t :=
  fun p other => h p fun mem => other (sub mem)

theorem OnlyParts.refl (l : List Part) (s : State) : OnlyParts l s s := fun p _ => by cases p <;> rfl

theorem atTick_onlyParts (now : Nat) (s : State) : OnlyParts [.tick] s (atTick now s) := by
  intro part other
  cases part with
  | tick => exact absurd List.mem_cons_self other
  | _ => rfl

theorem modPwr_onlyParts (f : PwrSt → PwrSt) (s : State) : OnlyParts [.pwr] s (modPwr f s) := by
  intro part other
  cases part with
  | pwr => exact absurd List.mem_cons_self other
  | _ => rfl

theorem bump_onlyParts (off k : Nat) (s : State) : OnlyParts [.regs] s (bump off k s) := regPut_onlyParts off _ s

theorem regPuts_onlyParts (f g : Nat → Nat) (l : List Nat) (s : State) :
    OnlyParts [.regs] s (l.foldl (fun t n => regPut (f n) (g n) t) s) := by
  induction l generalizing s with
  | nil => exact OnlyParts.refl _ s
  | cons n l ih => exact (regPut_onlyParts (f n) (g n) s).trans (ih _)

theorem tempsPut_onlyParts (l : List Nat) (s : State) : OnlyParts [.regs] s (tempsPut l s) := by
  unfold tempsPut
  exact regPuts_onlyParts THM_TEMP _ _ s

theorem msixRaise_onlyParts (fn v : Nat) (s : State) : OnlyParts [.regs, .pcie, .out] s (msixRaise fn v s) := by
  intro part other
  cases part with
  | regs | pcie | out => simp at other
  | _ =>
    unfold msixRaise
    split <;> rfl

/-- A device event is a matter of its status bit and of the message that it raises (R493). -/
theorem irqEvent_onlyParts (b : Nat) (s : State) : OnlyParts [.regs, .pcie, .out] s (irqEvent b s) := by
  unfold irqEvent
  split
  · exact OnlyParts.refl _ s
  · have status := (regPut_onlyParts DEV_IRQ_STATUS (setBits (regGet s DEV_IRQ_STATUS) b b 1) s).mono
      (k := [.regs, .pcie, .out]) (by simp)
    dsimp only
    split
    · exact status.trans (msixRaise_onlyParts _ _ _)
    · exact status

/-! ## Registers that an operation leaves -/

theorem regGet_bump_other {off j : Nat} (k : Nat) (s : State) (other : off ≠ j) : regGet (bump off k s) j = regGet s j := by
  rw [bump, regGet_regPut, if_neg other]

theorem regGet_bump_same (off k : Nat) (s : State) : regGet (bump off k s) off = min (regGet s off + k) cntMax := by
  rw [bump, regGet_regPut, if_pos rfl]

theorem regGet_irqEvent {j : Nat} (b : Nat) (s : State) (noStatus : DEV_IRQ_STATUS ≠ j) (noCount : DEV_MSIX_SENT_CNT ≠ j) :
    regGet (irqEvent b s) j = regGet s j := by
  have raised : ∀ fn v t, regGet (msixRaise fn v t) j = regGet t j := by
    intro fn v t
    unfold msixRaise
    split
    · rfl
    · exact regGet_bump_other 1 _ noCount
  have status : regGet (regPut DEV_IRQ_STATUS (setBits (regGet s DEV_IRQ_STATUS) b b 1) s) j = regGet s j := by
    rw [regGet_regPut, if_neg noStatus]
  unfold irqEvent
  split
  · rfl
  · dsimp only
    split
    · exact (raised _ _ _).trans status
    · exact status

/-! ## FATAL events (R457, R519, R520) -/

section
variable {s : State} (now : Nat) (live : alive s = true)
include live

theorem ioDieFatalErrorFx_alive {die : Nat} (isDie : die < 2) :
    ioDieFatalErrorFx now die s = fatalShutdown { cause := 0x48, cls := 2, kind := 10, unit := die, c0 := 1 } (atTick now s) :=
  if_pos (by simp only [alive_atTick, live, isDie, decide_true, Bool.and_self])

theorem rootLockLossFx_alive : rootLockLossFx now s = clockLost (atTick now s) := if_pos live

theorem ref100LossFx_alive : ref100LossFx now s = clockLost (atTick now s) := if_pos live

theorem thermtripFx_alive {n : Nat} (die : n < 10) (notTripped : s.dev.thermtrip = false) :
    thermtripFx now n s = fatalShutdown { cause := 0x49, cls := 2 }
      (emit (.pin .thermtripN false) (modDev (fun d => { d with thermtrip := true }) (atTick now s))) := by
  simp only [thermtripFx, atTick_dev, notTripped, die.not_ge, decide_false, Bool.or_self, Bool.false_eq_true, if_false, alive_atTick, live, if_true]

/-! ## Samples and estimates (R515 to R518) -/

/-- What a sample does: the readings and the withheld cycles, the count of hot stacks, the level of `levelAfter`, and the event of a
level that leaves 16. -/
theorem thermalSampleFx_cases (l : List Nat) (q : Bool) : ∃ u v w,
    u = bump PWR_THROTTLE_CYCLES (16875 * (16 - s.pwr.level)) (tempsPut l (atTick now s)) ∧
    (v = u ∨ v = bump THM_HBM_HOT_CNT 1 u) ∧
    (∃ f, w = modPwr f v ∧ ∀ p, (f p).level = levelAfter (atTick now s) l (q && (ownedPin s 2).isSome)) ∧
    (thermalSampleFx now l q s = w ∨ thermalSampleFx now l q s = irqEvent 9 (bump PWR_THROTTLE_EVENTS 1 w)) := by
  have readings : (!alive (atTick now s)) ≠ true := by simp [live]
  unfold thermalSampleFx
  extract_lets t asked hot thermal n u v w
  rw [if_neg readings]
  refine ⟨u, v, w, rfl, (ite_eq_or_eq _ _ _).symm, ⟨_, rfl, ?level⟩, (ite_eq_or_eq _ _ _).symm⟩
  exact fun _ => rfl

theorem thermalSampleFx_level (l : List Nat) (q : Bool) :
    (thermalSampleFx now l q s).pwr.level = levelAfter (atTick now s) l (q && (ownedPin s 2).isSome) := by
  obtain ⟨u, v, w, -, -, ⟨f, rfl, level⟩, same | raised⟩ := thermalSampleFx_cases now live l q
  · rw [same]
    exact level v.pwr
  · rw [raised]
    exact (congrArg PwrSt.level (irqEvent_onlyParts 9 _ .pwr (by decide))).trans (level v.pwr)

theorem thermalSampleFx_onlyParts (l : List Nat) (q : Bool) :
    OnlyParts [.tick, .regs, .pwr, .pcie, .out] s (thermalSampleFx now l q s) := by
  obtain ⟨u, v, w, rfl, hot, ⟨f, rfl, -⟩, event⟩ := thermalSampleFx_cases now live l q
  have read : OnlyParts [.tick, .regs] s (bump PWR_THROTTLE_CYCLES (16875 * (16 - s.pwr.level)) (tempsPut l (atTick now s))) :=
    ((atTick_onlyParts now s).mono (by simp)).trans (((tempsPut_onlyParts l _).trans (bump_onlyParts _ _ _)).mono (by simp))
  have counted : OnlyParts [.tick, .regs] s v := by
    rcases hot with rfl | rfl
    · exact read
    · exact read.trans ((bump_onlyParts _ _ _).mono (by simp))
  have set : OnlyParts [.tick, .regs, .pwr] s (modPwr f v) := (counted.mono (by simp)).trans ((modPwr_onlyParts f v).mono (by simp))
  rcases event with same | raised
  · rw [same]
    exact set.mono (by simp)
  · rw [raised]
    exact (set.mono (by simp)).trans (((bump_onlyParts _ _ _).mono (by simp)).trans ((irqEvent_onlyParts 9 _).mono (by simp)))

/-- A sample counts the cycles that the level before it withheld (R518, log 111). -/
theorem thermalSampleFx_throttleCycles (l : List Nat) (q : Bool) : regGet (thermalSampleFx now l q s) PWR_THROTTLE_CYCLES =
    min (regGet (tempsPut l (atTick now s)) PWR_THROTTLE_CYCLES + 16875 * (16 - s.pwr.level)) cntMax := by
  obtain ⟨u, v, w, counted, hot, ⟨f, rfl, -⟩, event⟩ := thermalSampleFx_cases now live l q
  have hotKeeps : regGet v PWR_THROTTLE_CYCLES = regGet u PWR_THROTTLE_CYCLES := by
    rcases hot with rfl | rfl
    · rfl
    · exact regGet_bump_other 1 u (by decide)
  have eventKeeps : regGet (thermalSampleFx now l q s) PWR_THROTTLE_CYCLES = regGet v PWR_THROTTLE_CYCLES := by
    rcases event with same | raised
    · rw [same]
      rfl
    · rw [raised, regGet_irqEvent 9 _ (by decide) (by decide), regGet_bump_other 1 _ (by decide)]
      rfl
  rw [eventKeeps, hotKeeps, counted, regGet_bump_same]

theorem powerEstimateFx_alive (watts : Nat) (rails : List Nat) :
    powerEstimateFx now watts rails s = (List.range 13).foldl (fun t r => regPut (PWR_RAIL_MV r) (rails.getD r 0 % 2 ^ 12) t)
      (regPut PWR_EST_W (min watts (2 ^ 13 - 1)) (atTick now s)) := by
  simp only [powerEstimateFx, alive_atTick, live, Bool.not_true, Bool.false_eq_true, if_false]

/-! ## AVSBus (R512) -/

/-- An adjustment that is not early and ends within 0.62 to 0.80 V is sent; only an acknowledged one becomes the target. -/
theorem avsAdjustFx_due {k mv : Nat} {up : Bool} (acked : Bool) (stack : k < 4) (present : s.core.stacksGone.contains k = false)
    (due : ∀ t, tabGet s.pwr.avsAt k = some t → t + msTicks 10 ≤ max s.tick now)
    (target : mv = if up then regField s (PWR_CMP_MV k) 9 0 + 5 else regField s (PWR_CMP_MV k) 9 0 - 5) (low : 620 ≤ mv) (high : mv ≤ 800) :
    avsAdjustFx now k up acked s =
      avsSet k mv acked (modPwr (fun p => { p with avsAt := tabPut p.avsAt k (max s.tick now) }) (atTick now s)) := by
  subst target
  refine if_neg (ne_true_of_eq_false ?_)
  simp only [Bool.or_eq_false_iff]
  refine ⟨⟨⟨⟨⟨?live, decide_eq_false stack.not_ge⟩, present⟩, ?early⟩, decide_eq_false low.not_gt⟩, decide_eq_false high.not_gt⟩
  case live => rw [alive_atTick, live]; rfl
  case early =>
    split
    next t sent => exact decide_eq_false (due t sent).not_gt
    next => rfl

end

/-- Settles O44: each event takes the effect that the equation of its case gives, and the `thermalSampleFx_` lemmas give the sample. -/
theorem clocksPowerAndTemperatures : Obligations.ClocksPowerAndTemperatures := by
  refine fun s now live => ⟨?ioDie, ?rootLock, ?ref100, ?thermtrip, ?sample, ?estimate, ?avs⟩
  case ioDie => exact fun die isDie => congrArg Host.Outcome.next (ioDieFatalErrorFx_alive now live isDie)
  case rootLock => exact congrArg Host.Outcome.next (rootLockLossFx_alive now live)
  case ref100 => exact congrArg Host.Outcome.next (ref100LossFx_alive now live)
  case thermtrip => exact fun n die notTripped => congrArg Host.Outcome.next (thermtripFx_alive now live die notTripped)
  case sample =>
    exact fun l q => ⟨_, _, rfl, thermalSampleFx_level now live l q, thermalSampleFx_onlyParts now live l q, rfl,
      thermalSampleFx_throttleCycles now live l q⟩
  case estimate => exact fun watts rails => congrArg Host.Outcome.next (powerEstimateFx_alive now live watts rails)
  case avs =>
    exact fun k up acked mv stack present due target low high =>
      congrArg Host.Outcome.next (avsAdjustFx_due now live acked stack present due target low high)

end Sys2Proof.Machine
end

section
/-! PROOF. How engine steps start, end, overrun and are aborted (O48). -/
namespace Sys2Proof.Machine

section
variable {s : State} {now : Nat} (ready : mayStart s = true)
include ready

/-- A replay goes ahead of every other step (R433). -/
theorem stepStartFx_replay {w : Running} (ahead : aheadOf (atTick now s) = .replay w) :
    stepStartFx now s = startReplay w (atTick now s) := by
  simp [stepStartFx, ready, ahead]

/-- A re-run goes ahead of the compositions, with its recorded inputs (R438, R439). -/
theorem stepStartFx_ahead {w : Running} {r : Run} (ahead : aheadOf (atTick now s) = .ahead w r) :
    stepStartFx now s = inputFlags r (startStep w r false (modEng (fun e => { e with aux := some r }) (atTick now s))) := by
  simp [stepStartFx, ready, ahead]

/-- With nothing ahead of it, the composition already chosen runs its ready step (R407). -/
theorem stepStartFx_chosen {c : Nat} (noneAhead : aheadOf (atTick now s) = .none) (chosen : s.eng.next = some c)
    (stepIsReady : stepReady s c = true) : stepStartFx now s = startChosen c (atTick now s) := by
  simp [stepStartFx, ready, noneAhead, chosen, stepIsReady]

end

section
variable {s : State} {st : StepRun} (live : alive s = true) (runs : s.eng.step = some st) (notHeld : st.held = none)
include live runs notHeld

/-- The boundary's effects follow once every cluster has finished; during a control-plane restart they wait for its end (R137, R452). -/
theorem stepBoundaryFx_finished (now cyc : Nat) (finished : allFinished s = true) :
    stepBoundaryFx now cyc s =
      if s.err.restarting then modEng (fun e => { e with step := some { st with held := some cyc } }) (atTick now s)
      else boundaryFx cyc (atTick now s) := by
  have guard : (!alive (atTick now s) || st.held.isSome || !allFinished (atTick now s)) = false := by
    rw [alive_atTick, live, notHeld, allFinished_atTick, finished]
    rfl
  simp only [stepBoundaryFx, atTick_eng, runs, guard, Bool.false_eq_true, if_false]
  rfl

/-- A step's overrun is counted once (R143). -/
theorem stepOverrunFx_first (first : st.overrun = false) :
    stepOverrunFx s = bump SEQ_OVERRUN_CNT 1 (modEng (fun e => { e with step := some { st with overrun := true } }) s) := by
  simp [stepOverrunFx, runs, live, first, notHeld]

/-- A step past the watchdog's cycle is aborted; its clusters that have not finished are counted, recorded and reset (R143 to R145). -/
theorem stepWatchdogFx_passed {now : Nat} (noEnd : endsAtWatchdog (atTick now s) = false) (noFence : fenceAtWatchdog (atTick now s) = false) :
    stepWatchdogFx now s =
      let l := (clustersIn s).filter fun m => !(cluster s m).finished
      let u := watchdogEnds st.what (record
        { cause := 9, cls := 1, c0 := bitmap 64 fun i => l.contains i, c1 := bitmap 64 fun i => l.contains (64 + i) }
        (bump SEQ_WDOG_CNT 1 (l.foldl clusterReset (stepAbort watchdogCycle (atTick now s)))))
      if s.err.restarting then u else weaveNext (boundaryTail u) := by
  have guard : (!alive (atTick now s) || st.held.isSome || endsAtWatchdog (atTick now s) || fenceAtWatchdog (atTick now s)) = false := by
    rw [alive_atTick, live, notHeld, noEnd, noFence]
    rfl
  simp only [stepWatchdogFx, atTick_eng, runs, guard, Bool.false_eq_true, if_false, Nat.mul_zero, Nat.zero_add, Nat.mul_one]
  rfl

end

theorem clusterResetCompleteFx_alive {s : State} (m : Nat) (live : alive s = true) :
    clusterResetCompleteFx m s = modCluster m (fun c => { c with resetting := false }) s := if_pos live

/-- Settles O48: each event of a step takes the effect that the equation of its case gives. -/
theorem engineSteps : Obligations.EngineSteps := by
  refine ⟨fun s now ready => ⟨?replay, ?ahead, ?chosen⟩, ?boundary, ?overrun, ?watchdog, ?reset⟩
  case replay => exact fun w ahead => congrArg Host.Outcome.next (stepStartFx_replay ready ahead)
  case ahead => exact fun w r ahead => congrArg Host.Outcome.next (stepStartFx_ahead ready ahead)
  case chosen =>
    exact fun c noneAhead chosen stepIsReady => congrArg Host.Outcome.next (stepStartFx_chosen ready noneAhead chosen stepIsReady)
  case boundary =>
    exact fun s now cyc st live runs notHeld finished =>
      congrArg Host.Outcome.next (stepBoundaryFx_finished live runs notHeld now cyc finished)
  case overrun =>
    exact fun s st live runs notHeld first => congrArg Host.Outcome.next (stepOverrunFx_first live runs notHeld first)
  case watchdog =>
    exact fun s now st live runs notHeld noEnd noFence =>
      congrArg Host.Outcome.next (stepWatchdogFx_passed live runs notHeld noEnd noFence)
  case reset => exact fun s m live => congrArg Host.Outcome.next (clusterResetCompleteFx_alive m live)

end Sys2Proof.Machine
end

section
/-! PROOF. How the packets of stake images and table sets are placed, and how either is retired or made ACTIVE (O49). -/
namespace Sys2Proof.Machine

/-! ## Packets of a load (R311) -/

/-- A packet of a load that passes the checks of R312 takes with it nothing that was placed before. -/
theorem loadReceive_accepted {r : OpRow} {p : Pkt} {s : State} (act : State → State) (h : Accepted r s p)
    (passes : firstFail (atTick p.now s) r p = none) : loadReceive r p act s = act (taken r p s) := by
  simp only [loadReceive, passes, Option.isSome_none, Bool.and_false, Bool.false_eq_true, if_false, receive_accepted act h]

/-- A load that keeps P1 free for STK.LOAD flags and has it 0 sets no flag (R324). -/
theorem paramsZero_of_p1Zero {p : Pkt} (h : paramsZero p true false false true = true) :
    p.p1 = 0 ∧ paramsZero p true true false true = true := by
  simp only [paramsZero, Bool.true_or, Bool.false_or, Bool.true_and, Bool.and_true, Bool.and_eq_true, decide_eq_true_eq] at h ⊢
  exact h

/-! ## Stake images (R163, R164, R527) -/

/-- Before the whole header is there, a packet of a stake image is placed and answered ST_OK. -/
theorem stkAfter_headerMissing {p : Pkt} {l : ImgLoad} (s : State) (unread : l.header = false) (missing : covers (loadPieces l) 128 = false) :
    stkAfter p l s = ok 0x14 p 0 (loadPut l s) := by
  simp only [stkAfter, unread, missing, Bool.not_false, Bool.and_false, Bool.false_and, Bool.false_eq_true, if_false]

/-- The packet that makes the image whole completes the load. -/
theorem stkAfter_whole {p : Pkt} {l : ImgLoad} (s : State) (read : l.header = true)
    (whole : loadWhole l (stkLen (assemble (loadPieces l))) = true) : stkAfter p l s = stkComplete p p.p0 l (loadPut l s) := by
  simp only [stkAfter, read, whole, Bool.not_true, Bool.false_and, Bool.and_self, Bool.false_eq_true, if_false, if_true]

/-- A packet of a stake image that the device does not hold is placed in the image's load (R163). -/
theorem stkLoadAct_placed {p : Pkt} {s : State} {l : ImgLoad} (params : paramsZero p true false false true = true) (named : 0 < p.p0)
    (small : p.p0 < 2 ^ 32) (absent : tabGet s.tier.stakes p.p0 = none)
    (load : l = (loadOf s (.stake p.p0)).getD ⟨.stake p.p0, p.p1, [], false, [], arrivalComp s p.path⟩) (sameFlags : l.arg = p.p1)
    (inside : segAt p + p.payload.length ≤ stkMax + 65536) : stkLoadAct p s = stkAfter p (loadPlace 0x14 p l) s := by
  obtain ⟨fromHost, paramsOk⟩ := paramsZero_of_p1Zero params
  have oneBit : ¬ 4 ≤ p.p1 := by omega
  have noCopy : bit p.p1 1 = false := by rw [fromHost]; rfl
  simp only [stkLoadAct, ← load, paramsOk, oneBit, noCopy, named.ne', small.not_ge, absent, sameFlags, inside.not_gt, Option.isSome_none,
    ne_eq, not_true_eq_false, decide_false, Bool.not_true, Bool.or_self, Bool.false_eq_true, if_false]

theorem stkRetireAct_held {p : Pkt} {s : State} {k : Stake} (noLoad : loadOf s (.stake p.p0) = none)
    (held : tabGet s.tier.stakes p.p0 = some k) (unnamed : setNames s p.p0 = false) :
    stkRetireAct p s =
      ok 0x15 p 0 (refsNow (modTier (fun t => { t with stakes := tabDel t.stakes p.p0, dying := t.dying ++ [(p.p0, k)] }) s)) := by
  simp only [stkRetireAct, noLoad, held, unnamed, Option.isSome_none, Bool.false_eq_true, if_false]

/-! ## Table sets (R130, R151, R152) -/

/-- The slot that receives a packet of a table set, the packet counted in it. -/
def tblReceiving (p : Pkt) (n : Nat) (l : ImgLoad) (s : State) : State :=
  modTbl n (fun t => { t with state := 1, setId := p.p0, bytes := t.bytes + p.payload.length }) (loadPut l s)

theorem tblAfter_headerMissing {p : Pkt} {l : ImgLoad} (n : Nat) (s : State) (unread : l.header = false)
    (missing : covers (loadPieces l) 32 = false) : tblAfter p n l s = ok 0x10 p 0 (tblReceiving p n l s) := by
  simp only [tblAfter, unread, missing, Bool.not_false, Bool.and_false, Bool.false_and, Bool.false_eq_true, if_false, tblReceiving]

theorem tblAfter_whole {p : Pkt} {l : ImgLoad} (n : Nat) (s : State) (read : l.header = true)
    (whole : loadWhole l (tblLen (assemble (loadPieces l))) = true) : tblAfter p n l s = tblComplete p n l (tblReceiving p n l s) := by
  simp only [tblAfter, read, whole, Bool.not_true, Bool.false_and, Bool.and_self, Bool.false_eq_true, if_false, if_true, tblReceiving]

section
variable {p : Pkt} {s : State} {n : Nat} {l : ImgLoad} (params : paramsZero p true false false true = true) (named : 0 < p.p0)
  (small : p.p0 < 2 ^ 32) (inside : segAt p + p.payload.length ≤ 2 ^ 30 + 65536)
  (load : l = loadPlace 0x10 p ((loadOf s (.table p.p0)).getD ⟨.table p.p0, 0, [], false, [], arrivalComp s p.path⟩))
include params named small inside load

/-- The first packet of a set takes an EMPTY slot, which keeps only the cause of its last failure (R151). -/
theorem tblLoadAct_new (unheld : slotOfSet s p.p0 = none) (empty : slotEmpty s = some n) :
    tblLoadAct p s = tblAfter p n l (modTbl n (fun t => { lastErr := t.lastErr }) s) := by
  subst load
  simp only [tblLoadAct, params, named.ne', small.not_ge, inside.not_gt, unheld, empty, decide_false, Bool.not_true, Bool.or_self,
    Bool.false_eq_true, if_false]

/-- A later packet goes to the slot that is LOADING its set (R151). -/
theorem tblLoadAct_loading (held : slotOfSet s p.p0 = some n) (loading : (tblSlot s n).state = 1) :
    tblLoadAct p s = tblAfter p n l s := by
  subst load
  simp only [tblLoadAct, params, named.ne', small.not_ge, inside.not_gt, held, loading, decide_false, Bool.not_true, Bool.or_self,
    Bool.false_eq_true, if_false, if_true]

end

section
variable {p : Pkt} {s : State} {n : Nat} {k : Stake} (idle : s.tier.pendAct = none) (held : slotOfSet s p.p0 = some n)
  (stake : tabGet s.tier.stakes (tblSlot s n).stakeId = some k) (tensors : tensorsOk (tblSlot s n).image k = true)
include idle held stake tensors

/-- TBL.ACTIVATE of the ACTIVE set changes no slot; it counts as the set's reload (R65, R151, log 82). -/
theorem activateAct_active (active : (tblSlot s n).state = 3) : activateAct p s = ok 0x11 p 0 (shapeCheck (tableLoaded s)) := by
  simp [activateAct, idle, held, stake, tensors, active]

/-- TBL.ACTIVATE of a LOADED set is answered ST_PENDING and waits for the boundary (R151). -/
theorem activateAct_loaded (loaded : (tblSlot s n).state = 2) :
    activateAct p s = activateSoon (pend 0x11 p (modTier (fun x => { x with pendAct := some (n, [p]) }) s)) := by
  simp [activateAct, idle, held, stake, tensors, loaded]

end

theorem tblRetireAct_unused {p : Pkt} {s : State} {n : Nat} (held : slotOfSet s p.p0 = some n) (notActive : (tblSlot s n).state ≠ 3)
    (notPending : ∀ l, s.tier.pendAct ≠ some (n, l)) : tblRetireAct p s = ok 0x12 p 0 (slotClear n stOk s) := by
  rcases pending : s.tier.pendAct with _ | ⟨k, l⟩
  · simp [tblRetireAct, held, notActive, pending]
  · have other : k ≠ n := fun same => notPending l (same ▸ pending)
    simp [tblRetireAct, held, notActive, pending, other]

/-- Settles O49: a packet of a load that passes R312 is placed by `stkLoadAct_placed` or by the equation for its table slot; the others act
as `receive_orFormat` has it. -/
theorem stakesAndTables : Obligations.StakesAndTables := by
  refine ⟨?stkLoad, ?stkRetire, ?tblLoad, ?activate, ?tblRetire⟩
  case stkLoad =>
    rintro s p u l rfl h passes params - named small absent load sameFlags inside
    have placed : stkLoadFx p s = stkAfter p (loadPlace 0x14 p l) (taken rowStkLoad p s) :=
      (loadReceive_accepted _ h passes).trans (stkLoadAct_placed params named small absent load sameFlags inside)
    exact ⟨fun unread missing => congrArg Host.Outcome.next (placed.trans (stkAfter_headerMissing _ unread missing)),
      fun read whole => congrArg Host.Outcome.next (placed.trans (stkAfter_whole _ read whole))⟩
  case stkRetire =>
    rintro s p u k rfl h params noLoad held unnamed
    exact congrArg Host.Outcome.next ((receive_orFormat 0x15 _ h params).trans (stkRetireAct_held noLoad held unnamed))
  case tblLoad =>
    rintro s p u n l rfl h passes params named small inside load
    have taken := loadReceive_accepted (tblLoadAct p) h passes
    refine ⟨fun unheld empty unread missing => congrArg Host.Outcome.next (taken.trans ?_),
      fun held loading read whole => congrArg Host.Outcome.next (taken.trans ?_)⟩
    · exact (tblLoadAct_new params named small inside load unheld empty).trans (tblAfter_headerMissing n _ unread missing)
    · exact (tblLoadAct_loading params named small inside load held loading).trans (tblAfter_whole n _ read whole)
  case activate =>
    rintro s p u n k rfl h params nonzero held idle stake tensors
    have accepted := receive_orFormat 0x11 (activateAct p) h (good := fun _ => paramsZero p true false false false && decide (p.p0 ≠ 0))
      (by simp only [params, nonzero, ne_eq, not_false_eq_true, decide_true, Bool.and_self])
    exact ⟨fun active => congrArg Host.Outcome.next (accepted.trans (activateAct_active idle held stake tensors active)),
      fun loaded => congrArg Host.Outcome.next (accepted.trans (activateAct_loaded idle held stake tensors loaded))⟩
  case tblRetire =>
    rintro s p u n rfl h params held notActive notPending
    exact congrArg Host.Outcome.next ((receive_orFormat 0x12 _ h params).trans (tblRetireAct_unused held notActive notPending))

end Sys2Proof.Machine
end

section
/-! PROOF. Which commands stop: a table entry that reads a tile at a reserved DPA, and no other (O7, O23; the stop is the model's own
choice, log 127). -/
namespace Sys2Proof.Machine

/-! ## The outcomes of a command -/

/-- The outcome is a next state. -/
def Answers (x : Host.Outcome State Fault Refusal) : Prop := ∃ t, x = .next t

/-- The outcome is the stop at a reserved DPA. -/
def StopsReserved (x : Host.Outcome State Fault Refusal) : Prop := ∃ a, x = .fault (.reservedDpa a)

theorem Answers.next (t : State) : Answers (.next t) := ⟨t, rfl⟩

theorem Answers.ite {p : Prop} [Decidable p] {x y : Host.Outcome State Fault Refusal} (hx : Answers x) (hy : Answers y) :
    Answers (if p then x else y) := by
  split <;> assumption

theorem StopsReserved.fault (a : Nat) : StopsReserved (.fault (.reservedDpa a)) := ⟨a, rfl⟩

/-! ## Entries that read a tile: they answer, or stop where `fetchRef` finds no target (R167) -/

section
variable (m c : Nat) (s : State)

theorem execLoadTile_answers_or_stops : Answers (execLoadTile m c s) ∨ StopsReserved (execLoadTile m c s) := by
  unfold execLoadTile
  split
  · exact .inl (.next _)
  · split
    · exact .inl (.next _)
    · split
      · exact .inl (.next _)
      · exact .inr (.fault _)

theorem execExpandTile_answers_or_stops : Answers (execExpandTile m c s) ∨ StopsReserved (execExpandTile m c s) := by
  unfold execExpandTile
  split
  · exact .inl (.next _)
  · split
    · exact .inl (.next _)
    · split
      · exact .inl (.next _)
      · exact .inr (.fault _)

theorem execSentinelEntry_answers_or_stops : Answers (execSentinelEntry m c s) ∨ StopsReserved (execSentinelEntry m c s) := by
  unfold execSentinelEntry
  split
  · exact .inl (.next _)
  · split
    · exact .inl (.next _)
    · split
      · exact .inl (.next _)
      · split
        · exact .inl (.next _)
        · exact .inr (.fault _)

theorem execDirectPathComplete_answers_or_stops (x : ClusterCycle) :
    Answers (execDirectPathComplete x s) ∨ StopsReserved (execDirectPathComplete x s) := by
  unfold execDirectPathComplete
  split
  · exact .inl (.next _)
  · split
    · exact .inr (.fault _)
    · exact .inl (.next _)

/-! ## Commands whose meaning branches and does not stop -/

theorem execMma_answers : Answers (execMma m c s) := by
  unfold execMma
  split
  · exact .next _
  · exact .ite (.next _) (.ite (.next _) (.next _))

theorem execStagerTileStart_answers : Answers (execStagerTileStart m s) := by
  dsimp only [execStagerTileStart]
  split
  · exact .next _
  · split
    · exact .next _
    · exact .ite (.next _) (.ite (.next _) (.next _))

end

/-- Settles O7: the four entries that read a tile answer or stop; every other command answers, in each branch of its meaning. -/
theorem onlyEntriesStop : Obligations.OnlyEntriesStop := by
  intro c s
  cases c
  case loadTile m k => exact (execLoadTile_answers_or_stops m k s).imp_right fun stops => ⟨stops, .inl ⟨m, k, rfl⟩⟩
  case expandTile m k => exact (execExpandTile_answers_or_stops m k s).imp_right fun stops => ⟨stops, .inr (.inl ⟨m, k, rfl⟩)⟩
  case sentinelEntry m k => exact (execSentinelEntry_answers_or_stops m k s).imp_right fun stops => ⟨stops, .inr (.inr (.inl ⟨m, k, rfl⟩))⟩
  case directPathComplete x => exact (execDirectPathComplete_answers_or_stops s x).imp_right fun stops => ⟨stops, .inr (.inr (.inr ⟨x, rfl⟩))⟩
  case mma m k => exact .inl (execMma_answers m k s)
  case stagerTileStart m => exact .inl (execStagerTileStart_answers m s)
  -- Nothing to do for the unit, or one effect.
  case signalEntry | barrierEntry | signalDelivered | hostArrivalComplete | stagingComplete | expanderBlockDone | compressorObjectReady =>
    refine .inl (?_ : Answers _)
    dsimp only [exec_signalEntry, exec_barrierEntry, exec_signalDelivered, exec_hostArrivalComplete, exec_stagingComplete,
      exec_expanderBlockDone, exec_compressorObjectReady, execSignalEntry, execBarrierEntry, execSignalDelivered,
      execHostArrivalComplete, execStagingComplete, execExpanderBlockDone, execCompressorObjectReady]
    split <;> exact .next _
  -- No such entry, or one that either waits or takes effect.
  case vec | sampleEntry | sendEntry | waitEntry | endEntry | entryDeadline =>
    refine .inl (?_ : Answers _)
    dsimp only [exec_vec, exec_sampleEntry, exec_sendEntry, exec_waitEntry, exec_endEntry, exec_entryDeadline, execVec, execSampleEntry,
      execSendEntry, execWaitEntry, execEndEntry, execEntryDeadline]
    split
    · exact .next _
    · exact .ite (.next _) (.next _)
  -- The meaning of every other command is the next state itself.
  all_goals exact .inl (Answers.next _)

/-! ## The stop at a reserved source -/

section
variable {s : State} {m : Nat} (c : Nat) {e : Bytes} (unswitched : (cluster s m).switched = false)
  (ready : tileReady s m e = true) (come : loadsCome s m e = true)
include unswitched ready come

theorem execLoadTile_reserved (here : entryOf s m opLoadTile = some e) (reserved : fetchRef s (enRef e) (leAt e 20 4) = none) :
    execLoadTile m c s = .fault (.reservedDpa (refOff (enRef e))) := by
  simp only [execLoadTile, here, tileEntry_notHeldBack unswitched ready come, reserved, Bool.false_eq_true, if_false]

theorem execExpandTile_reserved (here : entryOf s m opExpand = some e) (reserved : fetchRef s (enRef e) (enTileLen s e) = none) :
    execExpandTile m c s = .fault (.reservedDpa (refOff (enRef e))) := by
  simp only [execExpandTile, here, tileEntry_notHeldBack unswitched ready come, reserved, Bool.false_eq_true, if_false]

theorem execSentinelEntry_reserved (here : entryOf s m opSentinel = some e) (checks : sentIdle s e = false)
    (reserved : fetchRef s (enRef e) (enTileLen s e) = none) :
    execSentinelEntry m c s = .fault (.reservedDpa (refOff (enRef e))) := by
  simp only [execSentinelEntry, here, checks, tileEntry_notHeldBack unswitched ready come, reserved, Bool.false_eq_true, if_false]

end

/-- Settles O23: an entry that nothing holds back goes on to its read, which finds no target. -/
theorem reservedSourcesStop : Obligations.ReservedSourcesStop := fun _ _ c _ unswitched ready come =>
  ⟨execLoadTile_reserved c unswitched ready come, execExpandTile_reserved c unswitched ready come,
    execSentinelEntry_reserved c unswitched ready come⟩

end Sys2Proof.Machine
end

section
/-! PROOF. What errors of the memory tiers do, and writes to a host window (O50, O51). -/
namespace Sys2Proof.Machine

/-! ## Corrected errors and the moves that follow them (R176 to R178) -/

section
variable {s : State} (now : Nat) (reads : readable s = true)

include reads in
/-- An error of a serving stack is counted, recorded and kept in its row's history, in `u`; whether the row has `hit` its threshold decides
what follows (R177, R424). -/
theorem hbmCorrectedErrorFx_serves {u : State} {a : Nat} {hit : Bool} (serves : hbmServes s (stackOf a) = true)
    (counted : u = modErr (fun e => { e with rowHist := histAdd e.rowHist (rowBase a) (msNow (atTick now s)) })
      (record { cause := 0x12, cls := 0, kind := 5, unit := stackOf a, addr := a } (bump (MEM_HBM_CE_CNT (stackOf a)) 1 (atTick now s))))
    (judged : hit = histReached (tabGetD u.err.rowHist (rowBase a) []) (regField s ERR_TH_HBM_ROW 7 0)
      (3600000 * regField s ERR_TH_HBM_ROW 23 16)) :
    hbmCorrectedErrorFx (stackOf a) a now s =
      if !hit then u
      else if remapsLeft u a = 0 then rowWithdraw a u
      else rowRemap a (modErr (fun e => { e with rowHist := tabDel e.rowHist (rowBase a) }) u) := by
  subst judged counted
  exact if_neg (by simp [reads, serves])

theorem objectMoveCompleteFx_moving {o : MovedObject} {v : ObjMove} (good : Bool) (live : alive s = true)
    (moving : s.tier.objMoves.find? (fun v => v.obj = o) = some v) :
    objectMoveCompleteFx o now good s =
      moveEnds v good (modTier (fun t => { t with objMoves := t.objMoves.filter fun v => v.obj ≠ o }) (atTick now s)) := by
  simp only [objectMoveCompleteFx, atTick_tier, moving, alive_atTick, live, if_true]

include reads

theorem lpxCorrectedErrorFx_serves {d a : Nat} (serves : lpxDeviceServes s d = true) (low : lpxBase (d / 8) ≤ a)
    (high : a < lpxBase (d / 8 + 1)) (device : lpxDeviceOf a = d) :
    lpxCorrectedErrorFx d a now s =
      record { cause := 0x15, cls := 0, kind := 6, unit := d, addr := a } (bump (MEM_LPX_CE_CNT d) 1 (atTick now s)) := by
  simp [lpxCorrectedErrorFx, reads, serves, low, high, device]

theorem sramCorrectedErrorFx_slice {n : Nat} (a : Nat) (present : (cluster s n).present = true) :
    sramCorrectedErrorFx true n a now s = record { cause := 0x10, cls := 0, kind := 2, unit := n } (bump MEM_SLICE_CE_CNT 1 (atTick now s)) := by
  simp [sramCorrectedErrorFx, reads, present]

theorem sramCorrectedErrorFx_context {n a : Nat} (die : n < 2) (inside : inContext n a = true) :
    sramCorrectedErrorFx false n a now s = record { cause := 0x10, cls := 0, kind := 10, unit := n, addr := a } (atTick now s) := by
  simp [sramCorrectedErrorFx, reads, die, inside]

end

/-- Settles O50: an HBM3E error is judged on the row's history after it, and each other event takes the effect of its equation. -/
theorem correctedMemoryErrors : Obligations.CorrectedMemoryErrors := by
  refine fun s now reads => ⟨?hbm, fun a => rfl, ?move, ?lpx, fun n a => ⟨?slice, ?context⟩⟩
  case hbm =>
    intro a u serves counted hit
    have effect := hbmCorrectedErrorFx_serves now reads serves counted (hit := hit) rfl
    exact ⟨fun below => congrArg Host.Outcome.next (effect.trans (by simp only [below, Bool.not_false, if_true])),
      fun reached full => congrArg Host.Outcome.next
        (effect.trans (by simp only [reached, full, Bool.not_true, Bool.false_eq_true, if_false, if_true])),
      fun reached room => congrArg Host.Outcome.next
        (effect.trans (by simp only [reached, room, Bool.not_true, Bool.false_eq_true, if_false]))⟩
  case move => exact fun o v good live moving => congrArg Host.Outcome.next (objectMoveCompleteFx_moving now good live moving)
  case lpx =>
    exact fun d a serves low high device => congrArg Host.Outcome.next (lpxCorrectedErrorFx_serves now reads serves low high device)
  case slice => exact fun present => congrArg Host.Outcome.next (sramCorrectedErrorFx_slice now reads a present)
  case context => exact fun die inside => congrArg Host.Outcome.next (sramCorrectedErrorFx_context now reads die inside)

/-! ## Uncorrected errors (R176, R374, R389) -/

section
variable {s : State} (now : Nat) {a : Nat} (live : alive s = true)
include live

section
variable {o : DamagedObject} (holds : objectHolds s a o = true)
include holds

theorem memoryUeFx_hbm (serves : hbmServes s (stackOf a) = true) :
    memoryUeFx now a false o s = repairNow (objectDamage a o
      (record { cause := 0x14, cls := 1, kind := 5, unit := stackOf a, addr := a, c0 := objectCode o }
        (bump (MEM_HBM_UE_CNT (stackOf a)) 1 { atTick now s with memPoison := tabPut s.memPoison (a / 8) 2 }))) := by
  simp [memoryUeFx, live, serves, holds]

theorem memoryUeFx_lpx (low : lpxBase 0 ≤ a) (high : a < lpxBase 2) (serves : lpxServes s (if a < lpxBase 1 then 0 else 1) = true) :
    memoryUeFx now a true o s = repairNow (objectDamage a o
      (record { cause := 0x16, cls := 1, kind := 6, unit := lpxDeviceOf a, addr := a, c0 := objectCode o }
        (bump (MEM_LPX_UE_CNT (lpxDeviceOf a)) 1 { atTick now s with memPoison := tabPut s.memPoison (a / 8) 2 }))) := by
  simp [memoryUeFx, live, low, high, serves, holds]

end

theorem sramUeFx_berth {b : Nat} (holds : sramHolds s a (.berth b) = true) :
    sramUeFx now a (.berth b) s =
      settle (failSoon b stStateLost (record { cause := 0x11, cls := 1, kind := 12, unit := b, addr := a } (atTick now s))) := by
  simp [sramUeFx, live, holds]

theorem sramUeFx_qp {n : Nat} (holds : sramHolds s a (.qp n) = true) :
    sramUeFx now a (.qp n) s = qpError n 5 (record { cause := 0x11, cls := 1, kind := 13, unit := n, addr := a } (atTick now s)) := by
  simp [sramUeFx, live, holds]

theorem sramUeFx_msaLine {l : Nat} (holds : sramHolds s a (.msaLine l) = true) :
    sramUeFx now a (.msaLine l) s =
      linePoison l (record { cause := 0x11, cls := 1, kind := 10, unit := lineDie l, addr := 64 * l } (atTick now s)) := by
  simp [sramUeFx, live, holds]

end

/-! ## Host windows (R170, R171) -/

/-- ENABLE rises over an aligned window, after the other fields of the write are stored. -/
theorem winCtrlWrite_enables {s u : State} {n v : Nat} (disabled : winEnabled s n = false) (enable : bit v 0 = true)
    (stored : u = regSet (MEM_HOSTWIN_CTRL n) (setBits v 0 0 0) s) (aligned : winAligned u n = true) :
    winCtrlWrite n v s = regPut (MEM_HOSTWIN_CTRL n) (setBits (regGet u (MEM_HOSTWIN_CTRL n)) 0 0 1) u := by
  subst stored
  simp [winCtrlWrite, disabled, enable, aligned]

/-- The base and the length of a disabled window are plain words. -/
theorem winFieldWrite_disabled {s : State} {off n : Nat} (v : Nat) (window : winOf off = some n) (low : 8 ≤ off % 0x20)
    (high : off % 0x20 < 0x18) (disabled : winEnabled s n = false) : winFieldWrite off v s = wordWrite off v s := by
  have noCtrl : ¬ off % 32 < 4 := by omega
  have noGap : ¬ (off % 32 < 8 ∨ 24 ≤ off % 32) := by omega
  simp [winFieldWrite, window, noCtrl, noGap, disabled]

/-- Settles O51: an error that its owner's memory serves takes the effect of its case, and each write of a window is `winCtrlWrite` or
`winFieldWrite` once it is heard. -/
theorem uncorrectedMemoryErrors : Obligations.UncorrectedMemoryErrors := by
  refine ⟨fun s now a o live holds => ⟨?hbm, ?lpx⟩, fun s now a live => ⟨?berth, ?qp, ?line⟩, ?enable, ?field⟩
  case hbm => exact fun serves => congrArg Host.Outcome.next (memoryUeFx_hbm now live holds serves)
  case lpx => exact fun low high serves => congrArg Host.Outcome.next (memoryUeFx_lpx now live holds low high serves)
  case berth => exact fun b holds => congrArg Host.Outcome.next (sramUeFx_berth now live holds)
  case qp => exact fun n holds => congrArg Host.Outcome.next (sramUeFx_qp now live holds)
  case line => exact fun l holds => congrArg Host.Outcome.next (sramUeFx_msaLine now live holds)
  case enable =>
    intro s n v heard window disabled enable aligned
    have write : hostwinEnableWriteFx n v s = winCtrlWrite n v s := if_pos (by simp [heard, window])
    exact congrArg Host.Outcome.next (write.trans (winCtrlWrite_enables disabled enable rfl aligned))
  case field =>
    intro s off v n heard window low high disabled
    have write : hostwinFieldWriteFx off v s = winFieldWrite off v s := if_pos heard
    exact congrArg Host.Outcome.next (write.trans (winFieldWrite_disabled v window low high disabled))

end Sys2Proof.Machine
end

section
/-! PROOF. How an admission is checked, repeated and enrolled (O33), and what requests do on the manifest that they name (O34). -/
namespace Sys2Proof.Machine

/-! ## Admissions -/

/-- The row of REQ.ADMIT, or of REQ.REBUILD. -/
def admissionRow (rebuild : Bool) : OpRow := ⟨if rebuild then 0x26 else 0x20, true, false, false, 8908, false⟩

/-- An admission whose epoch row and first steps pass goes on to the checks of its record (R213). -/
theorem exec_admission {s : State} {p : Pkt} (rebuild : Bool) (h : AcceptedBy admChecks (admissionRow rebuild) s p) :
    exec (if rebuild then .reqRebuild p else .reqAdmit p) s =
      .next (admAct rebuild (admissionRow rebuild).code p (taken (admissionRow rebuild) p s)) := by
  cases rebuild with
  | false => exact congrArg Host.Outcome.next (receiveWith_accepted (admAct false 0x20 p) h)
  | true => exact congrArg Host.Outcome.next (receiveWith_accepted (admAct true 0x26 p) h)

section
variable {s : State} {p : Pkt} {rebuild : Bool} (o : Nat)

theorem admAct_badFormat
    (bad : paramsZero p false false false false = false ∨ admFormatOk s rebuild p.payload (admRec p.payload) = false) :
    admAct rebuild o p s = failAt o p stFormat 0x104 s := by
  refine if_pos ?_
  rcases bad with bad | bad <;> simp [bad]

section
variable (params : paramsZero p false false false false = true) (format : admFormatOk s rebuild p.payload (admRec p.payload) = true)
include params format

/-- The request has a manifest here: the same command again is answered with it, and any other is refused (R214). -/
theorem admAct_repeated {b : Nat} {x : Berth} (known : berthOfRequest s (admRec p.payload).requestId = some b) (held : berthAt s b = some x) :
    admAct rebuild o p s = if x.adm = admKey o p ∧ x.id.ttftBudget = p.slack then answer o p (midOf s b) stOk 0 x.prog.logLen true s
                           else failAt o p stFormat 0x105 s := by
  simp [admAct, params, format, known, held]

/-- The request is new here: checks 6 to 9 of R213 follow. -/
theorem admAct_new (unknown : berthOfRequest s (admRec p.payload).requestId = none) :
    admAct rebuild o p s = admChecked rebuild o p (admRec p.payload) s := by
  simp [admAct, params, format, unknown]

end

variable {a : AdmRec}

theorem admChecked_noWithy (refused : admWithy s rebuild a.withy = none) :
    admChecked rebuild o p a s = failAt o p stWithyRetired 0x106 s := by
  simp only [admChecked, refused]

theorem admChecked_noBerth {ver : Nat} (withy : admWithy s rebuild a.withy = some ver)
    (noBerth : berthFree s = none ∨ berthAllowed s (compOfQp s a.ownerQp) = false) :
    admChecked rebuild o p a s = failAt o p stNoBerth 0x107 s := by
  simp only [admChecked, withy]
  cases free : berthFree s with
  | none => rfl
  | some b =>
    have notAllowed : berthAllowed s (compOfQp s a.ownerQp) = false := noBerth.resolve_left (by simp [free])
    simp [notAllowed]

section
variable {ver b : Nat} (withy : admWithy s rebuild a.withy = some ver) (free : berthFree s = some b)
  (allowed : berthAllowed s (compOfQp s a.ownerQp) = true)
include withy free allowed

theorem admChecked_noStopSlot (hasStop : a.hasStop = 1) (noSlot : stopSlot s a.stop = none) :
    admChecked rebuild o p a s = failAt o p stBusy 0x108 s := by
  simp [admChecked, withy, free, allowed, hasStop, noSlot]

/-- With a version, a berth and a place for the stop set, the frames decide whether the manifest is enrolled (R213, R215). -/
theorem admChecked_stopPlaced {n : Nat} (slot : (if a.hasStop = 1 then stopSlot s a.stop else some 0xFFFF) = some n) :
    admChecked rebuild o p a s = if framesAllowed s (compOfQp s a.ownerQp) 2 then enrol rebuild o p a ver n b s
                                 else failAt o p stNoPage 0x109 s := by
  simp only [admChecked, withy, free, allowed, slot]
  cases framesAllowed s (compOfQp s a.ownerQp) 2 <;> rfl

end
end

/-- Settles O33: an accepted admission is `admAct` (`exec_admission`), and each row of R213 is one case of it. -/
theorem admissionFollowsItsChecks : Obligations.AdmissionFollowsItsChecks := by
  intro s p rebuild row cmd u a h
  have act : exec cmd s = .next (admAct rebuild row.code p u) := exec_admission rebuild h
  rw [act]
  refine ⟨fun bad => congrArg Host.Outcome.next (admAct_badFormat _ bad), fun params format => ⟨?repeated, ?newRequest⟩⟩
  case repeated => exact fun b x known held => congrArg Host.Outcome.next (admAct_repeated _ params format known held)
  case newRequest =>
    have checked := fun unknown : berthOfRequest u a.requestId = none => admAct_new row.code params format unknown
    refine ⟨fun unknown refused => ?noWithy, fun ver unknown withy noBerth => ?noBerth,
      fun ver b unknown withy free allowed hasStop noSlot => ?noStopSlot, fun ver b n unknown withy free allowed slot => ?enrolled⟩ <;>
      rw [checked unknown]
    case noWithy => exact congrArg Host.Outcome.next (admChecked_noWithy _ refused)
    case noBerth => exact congrArg Host.Outcome.next (admChecked_noBerth _ withy noBerth)
    case noStopSlot => exact congrArg Host.Outcome.next (admChecked_noStopSlot _ withy free allowed hasStop noSlot)
    case enrolled => exact congrArg Host.Outcome.next (admChecked_stopPlaced _ withy free allowed slot)

/-! ## Commands that name a manifest -/

/-- A command in its layout that names no manifest here is refused and counted (R205). -/
theorem receiveMan_unnamed {r : OpRow} {p : Pkt} {lay : Bool} {s : State} (act : Nat → Berth → State → State) (h : Accepted r s p)
    (unnamed : berthNamed (taken r p s) p.mid = none) (layout : lay = true) :
    receiveMan r p lay act s = fail r.code p stFormat (bump MAN_STALE_ID_CNT 1 (taken r p s)) := by
  simp [receiveMan, receive_accepted _ h, onManifest, unnamed, layout]

section
variable {p : Pkt} {b : Nat} {x : Berth} {s : State}

/-- Tokens that the target leaves room for, and the log frames for, lengthen the log of an ADMITTED manifest (R218). -/
theorem appendAct_fits {v : State} (admitted : x.prog.state = 1) (fits : x.prog.logLen + (payloadTokens p.payload).length ≤ x.target)
    (logged : logAppend b (payloadTokens p.payload) s = some v) :
    appendAct p b x s = logComplete b (ok 0x21 p (x.prog.logLen + (payloadTokens p.payload).length) v) := by
  simp [appendAct, admitted, Nat.not_lt.mpr fits, logged]

theorem cancelAct_ended (ended : 8 ≤ x.prog.state) : cancelAct p b x s = ok 0x24 p 0 s := if_pos ended

/-- In PROMPT and GENERATING a cancel waits for the step boundary (R210). -/
theorem cancelAct_withRows (rows : x.prog.state = 2 ∨ x.prog.state = 4) :
    cancelAct p b x s = settle (modBerth b (fun y => { y with cancels := y.cancels ++ [p], prog := { y.prog with cancel := true } }) s) := by
  rcases rows with state | state <;> simp [cancelAct, state]

/-- A cancel ends an ADMITTED manifest at once (R210). -/
theorem cancelAct_admitted (admitted : x.prog.state = 1) : cancelAct p b x s =
    manCancel b (modBerth b (fun y => { y with cancels := y.cancels ++ [p], prog := { y.prog with cancel := true } }) s) := by
  simp [cancelAct, admitted]

theorem releaseAct_ended (ended : 8 ≤ x.prog.state) :
    releaseAct p b x s = ok 0x27 p 0 (freeBerth b (if s.dev.personality = 2 then dropAt' x (compOf s x) (holdersOf s b x) s else s)) :=
  if_neg (Nat.not_lt.mpr ended)

/-- A draft of as many tokens as it says, fewer than SPEC_MAX, and not behind the log, takes the place of an older one (R297). -/
theorem draftAct_generating (generating : x.prog.state = 4) (nonempty : p.p1 ≠ 0) (few : p.p1 < x.id.specMax)
    (whole : p.payload.length = 4 * p.p1) (current : x.prog.logLen ≤ p.p0) :
    draftAct p b x s = modBerth b (fun y => { y with draft := some (p, payloadTokens p.payload) }) (wasteDraft b s) := by
  have drafts : ¬ x.id.specMax ≤ 1 := by omega
  have bounded : ¬ x.id.specMax - 1 < p.p1 := by omega
  simp [draftAct, generating, nonempty, whole, drafts, bounded, Nat.not_lt.mpr current]

end

/-- Settles O34: a command that names a manifest acts on it as `receiveMan_named` has it, by the equation of its case, and one that
names none is `receiveMan_unnamed`. -/
theorem requestsActOnTheirBerth : Obligations.RequestsActOnTheirBerth := by
  intro s p b x named
  refine ⟨?append, ?cancel, ?query, ?release, ?draft, ?unnamed⟩
  case append =>
    rintro r u v rfl rfl ⟨h, name, held, epoch⟩ params whole admitted fits logged
    have layout : (paramsZero p false false false false && p.payload.length % 4 = 0) = true := by simp [params, whole]
    exact congrArg Host.Outcome.next ((receiveMan_named _ h name held epoch layout).trans (appendAct_fits admitted fits logged))
  case cancel =>
    rintro r u rfl rfl ⟨h, name, held, epoch⟩ params
    have act := receiveMan_named (cancelAct p) h name held epoch params
    exact ⟨fun ended => congrArg Host.Outcome.next (act.trans (cancelAct_ended ended)),
      fun rows => congrArg Host.Outcome.next (act.trans (cancelAct_withRows rows)),
      fun admitted => congrArg Host.Outcome.next (act.trans (cancelAct_admitted admitted))⟩
  case query =>
    rintro r rfl ⟨h, name, held, epoch⟩ params
    exact congrArg Host.Outcome.next (receiveMan_named _ h name held epoch params)
  case release =>
    rintro r u rfl rfl ⟨h, name, held, epoch⟩ params ended
    exact congrArg Host.Outcome.next ((receiveMan_named _ h name held epoch params).trans (releaseAct_ended ended))
  case draft =>
    rintro r u rfl rfl ⟨h, name, held, epoch⟩ params generating nonempty few whole current
    exact congrArg Host.Outcome.next
      ((receiveMan_named _ h name held epoch params).trans (draftAct_generating generating nonempty few whole current))
  case unnamed =>
    rintro r rfl h unnamed params
    exact congrArg Host.Outcome.next (receiveMan_unnamed _ h unnamed params)

end Sys2Proof.Machine
end

section
/-! PROOF. How pages are placed, sealed, fetched and dropped (O36), how PAGE.MIRROR repairs mirrors (O37), and the states that swaps need
(O59). -/
namespace Sys2Proof.Machine

/-- An accepted packet whose layout is good takes the effect of its opcode (R324). -/
theorem receive_layout {r : OpRow} {p : Pkt} {s : State} {layout : Bool} (o : Nat) (act : State → State) (h : Accepted r s p)
    (good : layout = true) : receive r p (orFormat layout o p act) s = act (taken r p s) :=
  receive_orFormat o (good := fun _ => layout) act h good

/-! ## Arriving pages (R251) -/

/-- The ARRIVING frame of a packet's key, else one that is taken for it. -/
def putFrame (p : Pkt) (s : State) : Option (Nat × State) :=
  match arrivingOf s (p.p0 + 2 ^ 32 * p.p1) p.p3 (p.p2 % 256) with
  | some f => some (f, s)
  | none => takeArriving p (p.p0 + 2 ^ 32 * p.p1) (p.p2 % 256) p.p3 (p.p2 / 256) (arrivalAnew (p.p0 + 2 ^ 32 * p.p1, p.p3, p.p2 % 256) s)

/-- A PAGE.PUT packet whose key has a frame, or finds one, is placed in it. -/
theorem putAct_placed {p : Pkt} {s v : State} {f : Nat} (fields : p.p2 < 2 ^ 20) (transcodes : noTranscode s p = false)
    (notLost : (s.man.arrivalsLost.contains (p.p0 + 2 ^ 32 * p.p1, p.p3, p.p2 % 256) && p.offset ≠ 0) = false)
    (frame : putFrame p s = some (f, v)) :
    putAct p s = demoteCheck (ok 0x30 p 0 (bump (LGT_REG_BYTES_IN (frameRegion s f)) p.payload.length
      (modFrame f (fun x => { x with partner := p.p2 / 256, src := srcOf p, putAt := s.tick,
                                     placed := (p.offset, p.payload.length) :: x.placed })
        (putBytes f p.offset (oldPartner s p) p.payload v)))) := by
  cases arriving : arrivingOf s (p.p0 + 2 ^ 32 * p.p1) p.p3 (p.p2 % 256) with
  | some g =>
    simp only [putFrame, arriving, Option.some.injEq, Prod.mk.injEq] at frame
    obtain ⟨rfl, rfl⟩ := frame
    simp only [putAct, fields.not_ge, transcodes, notLost, arriving, Bool.false_eq_true, if_false]
  | none =>
    simp only [putFrame, arriving] at frame
    simp only [putAct, fields.not_ge, transcodes, notLost, arriving, frame, Bool.false_eq_true, if_false]

/-- A PAGE.SEAL of a key with an ARRIVING frame ends the arrival, with ST_FORMAT when its record breaks a field rule (R251, R326). -/
theorem sealAct_arriving {p : Pkt} {s : State} {f : Nat} {x : Frame} (transcodes : noTranscode s p = false)
    (arriving : arrivingOf s (leAt p.payload 0 8) (leAt p.payload 16 4) (leAt p.payload 20 1) = some f) (held : frameAt s f = some x) :
    sealAct p s = if sealOk s (oldPartner s p) p.payload then sealArrived p f x s else fail 0x32 p stFormat (arrivingGone f s) := by
  simp only [sealAct, transcodes, arriving, held, Bool.false_eq_true, if_false]

/-- An ARRIVING frame with bytes placed goes when its seal is late. -/
theorem arrivingFrameTimeoutFx_late {s : State} {f now : Nat} {x : Frame} (live : alive s = true) (held : frameAt s f = some x)
    (arriving : x.state = 4) (placed : x.placed ≠ []) (late : x.putAt + moveTmoTicks s ≤ now) :
    arrivingFrameTimeoutFx f now s = arrivingGone f (atTick now s) := by
  simp [arrivingFrameTimeoutFx, live, held, arriving, placed, late]

/-! ## Copies that are asked for (R250) -/

section
variable {p : Pkt} {s : State} {f : Nat} {x : Frame} (copy : copyOf s (p.p0 + 2 ^ 32 * p.p1) p.p3 (p.p2 % 256) = some f)
  (held : frameAt s f = some x)
include copy held

theorem getAct_fabric {qp d port : Nat} (path : p.path = .fabric qp d port) :
    getAct p s = startMove f .get none x.comp [d] (ok 0x31 p 0 s) := by
  simp only [getAct, copy, held, path, Option.getD_some]

theorem getAct_ring {n : Nat} (path : p.path = .ring n) : getAct p s = getOnRing n f x (ok 0x31 p 0 s) := by
  simp only [getAct, copy, held, path, Option.getD_some]

end

/-- Settles O36: PAGE.PUT acts as `receive_accepted` has it, the other commands as `receive_layout` has it, and the timer by the
equation of its late case. -/
theorem pagesAreHeld : Obligations.PagesAreHeld := by
  refine ⟨?place, ?arrive, ?fetch, ?drop, ?timeout⟩
  case place =>
    exact fun s p f v h fields transcodes notLost frame =>
      congrArg Host.Outcome.next ((receive_accepted (putAct p) h).trans (putAct_placed fields transcodes notLost frame))
  case arrive =>
    rintro s p f x r u rfl rfl h params transcodes arriving held
    exact congrArg Host.Outcome.next ((receive_layout 0x32 (sealAct p) h params).trans (sealAct_arriving transcodes arriving held))
  case fetch =>
    rintro s p f x r u rfl rfl h layer copy held
    have accepted := receive_layout 0x31 (getAct p) h (decide_eq_true layer)
    exact ⟨fun qp d port path => congrArg Host.Outcome.next (accepted.trans (getAct_fabric copy held path)),
      fun n path => congrArg Host.Outcome.next (accepted.trans (getAct_ring copy held path))⟩
  case drop =>
    rintro s p r rfl h layout
    exact congrArg Host.Outcome.next (receive_layout 0x34 _ h layout)
  case timeout =>
    exact fun s f now x live held arriving placed late =>
      congrArg Host.Outcome.next (arrivingFrameTimeoutFx_late live held arriving placed late)

/-! ## PAGE.MIRROR (R256) -/

section
variable {p : Pkt} {s : State} {b : Nat} (request : berthOfRequest s (leAt p.payload 0 8) = some b)
include request

/-- Mode 3: every entry of the request that V holds takes the spare. -/
theorem spareAct_all : spareAct p (fun _ _ => true) s =
    transferCheck b (ok 0x33 p 0 (modTable b (fun t => { t with entries := t.entries.map fun e =>
      if e.2.holderA = p.p1 % 4096 ∨ e.2.holderB = p.p1 % 4096 then (e.1, addSpare (p.p1 % 4096) (p.p1 / 4096) e.2) else e }) s)) := by
  simp only [spareAct, request, Bool.and_true, Bool.or_eq_true, decide_eq_true_eq]

/-- Mode 4: the entries below the place (`k`, `m`) in the order of index and layer take it. -/
theorem spareAct_below (k m : Nat) : spareAct p (fun i l => decide (i < k) || (i = k && decide (l < m))) s =
    transferCheck b (ok 0x33 p 0 (modTable b (fun t => { t with entries := t.entries.map fun e =>
      if (e.2.holderA = p.p1 % 4096 ∨ e.2.holderB = p.p1 % 4096) ∧
          (e.1 / max 1 t.layers < k ∨ e.1 / max 1 t.layers = k ∧ e.1 % max 1 t.layers < m)
      then (e.1, addSpare (p.p1 % 4096) (p.p1 / 4096) e.2) else e }) s)) := by
  simp only [spareAct, request, Bool.and_eq_true, Bool.or_eq_true, decide_eq_true_eq]

end

/-- Settles O37: each mode is accepted in its own layout (`receive_layout`), and takes the effect that its equation gives. -/
theorem mirrorsAreRepaired : Obligations.MirrorsAreRepaired := by
  refine fun s p => ⟨?cache, ?owner⟩
  case cache =>
    rintro r u rfl rfl h
    refine ⟨fun mode noPair empty => ?copy, fun mode device noPair empty => ?close⟩
    case copy => exact congrArg Host.Outcome.next (receive_layout 0x33 (copyAct p) h (by simp [mode, noPair, empty]))
    case close =>
      have noSpare : p.p1 / 4096 = 0 := Nat.div_eq_of_lt device
      exact congrArg Host.Outcome.next (receive_layout 0x33 (closeAct p) h (by simp [mode, noSpare, noPair, empty]))
  case owner =>
    rintro r u rfl rfl h
    refine ⟨fun mode pair dead ids => ?repair, fun b mode noPair whole request => ?done,
      fun b mode noPair whole reserved request => ?partly⟩
    case repair => exact congrArg Host.Outcome.next (receive_layout 0x33 (repairAct p) h (by simp [mode, pair, dead, ids]))
    case done =>
      exact congrArg Host.Outcome.next ((receive_layout 0x33 _ h (by simp [mode, noPair, whole])).trans (spareAct_all request))
    case partly =>
      exact congrArg Host.Outcome.next
        ((receive_layout 0x33 _ h (by simp [mode, noPair, whole, reserved])).trans (spareAct_below request _ _))

/-! ## Swaps in another state (R262) -/

theorem swapOutAct_busy {p : Pkt} {b : Nat} {x : Berth} {s : State} (busy : x.prog.state ≠ 4 ∨ pagesMoving s b x = true) :
    swapOutAct p b x s = fail 0x35 p stBusy s := by
  refine if_pos ?_
  rcases busy with state | moving
  · simp [state]
  · simp [moving]

theorem swapInAct_busy {p : Pkt} {b : Nat} {x : Berth} {s : State} (busy : x.prog.state ≠ 6 ∨ pagesMoving s b x = true) :
    swapInAct p b x s = fail 0x36 p stBusy s := by
  refine if_pos ?_
  rcases busy with state | moving
  · simp [state]
  · simp [moving]

/-- Settles O59: both commands act as `receiveMan_named` has it, by the equation of their case. -/
theorem swapsNeedTheirState : Obligations.SwapsNeedTheirState := by
  refine fun s p b x r u => ⟨?swapOut, ?swapIn⟩
  case swapOut =>
    rintro rfl rfl h named held epoch params -
    have act := receiveMan_named (swapOutAct p) h named held epoch params
    refine ⟨fun busy => congrArg Host.Outcome.next (act.trans (swapOutAct_busy busy)), fun generating still noSwap running => ?_⟩
    exact congrArg Host.Outcome.next
      (act.trans ((swapOutAct_generating _ generating still noSwap).trans (if_pos (Option.isSome_iff_ne_none.mpr running))))
  case swapIn =>
    rintro rfl rfl h named held epoch params -
    have act := receiveMan_named (swapInAct p) h named held epoch params
    exact ⟨fun busy => congrArg Host.Outcome.next (act.trans (swapInAct_busy busy)),
      fun v swapped still begun => congrArg Host.Outcome.next (act.trans (swapInAct_swapped swapped still begun))⟩

end Sys2Proof.Machine
end

section
/-! PROOF. What a cache node does with attention: it takes an ATT.PARTIAL into service, answers it with the fold of its pages, and shows the
longest round trip (O13). -/
namespace Sys2Proof.Machine

/-! ## Coming into service (R278) -/

/-- The state in which a service of an ATT.PARTIAL holds a reference on each of the frames `fs`. -/
def pagesReferenced (fs : List Nat) (s : State) : State :=
  fs.foldl (fun t f => modFrame f (fun x => { x with refs := x.refs + 1 }) t) s

/-- A well-formed ATT.PARTIAL comes into service, references on the pages it reads, and is answered ST_PENDING. -/
theorem serviceAct_wellFormed {p : Pkt} {s : State} (params : paramsZero p false false false false = true)
    (wellFormed : partialOk p.payload = true) :
    serviceAct p s =
      let t := serveBegins (arrivalComp s p.path) s
      pend 0x38 p (modEng (fun e => { e with folds := tabPut e.folds (tabGap e.folds 0) ⟨p, servedFrames t p.payload⟩ })
        (pagesReferenced (servedFrames t p.payload) t)) := by
  refine if_neg ?_
  simp [params, wellFormed]

/-! ## The end of a service (R272, R278, R317) -/

/-- Plain pages pass no expander. -/
theorem servedBlocks_plain {s : State} {l : List Fetched} (plain : ∀ x ∈ l, x.blocks = []) : servedBlocks s l = s := by
  refine if_pos ?_
  simpa using plain

/-- With no uncorrected error, a page whose words carry no tag is not poisoned. -/
theorem readPoisoned_untagged {x : Nat × Nat × Fetched} (untagged : worst x.2.2.tags = 0) : readPoisoned [] x = false := by
  simp [readPoisoned, untagged]

/-- A service at its end: its frames lose their references, and it leaves the table. -/
def serviceOver (n : Nat) (v : AttService) (s : State) : State :=
  serveEnds (arrivalComp s v.pkt.path) (modEng (fun e => { e with folds := tabDel e.folds n })
    (v.frames.foldl (fun t f => frameUnref f (modFrame f (fun x => { x with served := s.tick }) t)) s))

/-- The ATT.RESULT of a service that found every page: ST_OK, no page at fault, and the fold (R272). -/
def foldResult (v : AttService) (s : State) : MsgOut :=
  { opcode := 0x39, tag := v.pkt.tag, mid := v.pkt.mid, flags := 3, slack := slackOut s v.pkt,
    payload := resultHead v.pkt.payload stOk 0xFFFFFFFF ++
      foldRun (vecFtz s) (escIgnore s) (halfIeee s) v.pkt.payload (servedPages s v)
        (if apHasState v.pkt.payload then v.pkt.payload.drop (apStateAt v.pkt.payload) else []) }

/-- A service whose pages are here, untagged and plain sends its fold, and the command's final reply follows it. -/
theorem attServiceCompleteFx_clean {s : State} {n now : Nat} {v : AttService} (live : alive s = true)
    (serving : tabGet s.eng.folds n = some v) (noneBad : servedBad (atTick now s) v [] = none)
    (untagged : ∀ x ∈ servedReads s v, worst x.2.2.tags = 0) (plain : ∀ x ∈ servedReads s v, x.2.2.blocks = [])
    (noNan : foldNan (escIgnore s) v.pkt.payload (servedPages (atTick now s) v) = false) :
    attServiceCompleteFx n now [] s =
      copyJobs (ok 0x38 v.pkt 0 (sendBack v.pkt (foldResult v (atTick now s))
        (bump ATT_REMOTE_PAGES (apCount v.pkt.payload) (bump ATT_SERVED_CNT 1 (serviceOver n v (atTick now s)))))) := by
  have noExpander : servedBlocks (atTick now s) ((servedReads s v).map (·.2.2)) = atTick now s :=
    servedBlocks_plain (List.forall_mem_map.mpr plain)
  have noneHurt : (servedReads s v).filter (readPoisoned []) = [] :=
    List.filter_eq_nil_iff.mpr fun x here => by simp [readPoisoned_untagged (untagged x here)]
  rw [servedPages_atTick] at noNan
  simp only [attServiceCompleteFx, atTick_eng, serving, alive_atTick, live, servedReads_atTick, servedPages_atTick, escIgnore_atTick,
    noneBad, noExpander, noneHurt, noNan, Bool.not_true, Bool.and_false, Bool.false_eq_true, if_false, if_true, List.map_nil,
    List.foldl_nil]
  rfl

/-- Settles O13: the command acts as `receive_accepted` and `serviceAct_wellFormed` have it, the service ends as
`attServiceCompleteFx_clean` has it, and the read is `readClear`. -/
theorem attentionIsServed : Obligations.AttentionIsServed := by
  refine ⟨?begin, ?complete, fun s heard => congrArg Host.Outcome.next (if_pos heard)⟩
  case begin =>
    exact fun s p h params wellFormed =>
      congrArg Host.Outcome.next ((receive_accepted (serviceAct p) h).trans (serviceAct_wellFormed params wellFormed))
  case complete =>
    exact fun s n now v live serving noneBad clean noNan =>
      congrArg Host.Outcome.next (attServiceCompleteFx_clean live serving noneBad (fun x here => (clean x here).1)
        (fun x here => (clean x here).2) noNan)

end Sys2Proof.Machine
end

section
/-! PROOF. How the packets of withy images are placed and make a version whole, and how a resident slot is shown and
promoted (O55). -/
namespace Sys2Proof.Machine

/-! ## Packets of a withy image (R286, R288, R311) -/

/-- Before the whole header is there, a packet of a withy image is placed and answered ST_OK. -/
theorem wthAfter_headerMissing {p : Pkt} {l : ImgLoad} (key : Nat) (s : State) (unread : l.header = false)
    (missing : covers (loadPieces l) 32 = false) : wthAfter p key l s = ok 0x18 p 0 (loadPut l s) := by
  simp only [wthAfter, unread, missing, Bool.not_false, Bool.and_false, Bool.false_and, Bool.false_eq_true, if_false]

/-- The packet that makes the image whole completes the load. -/
theorem wthAfter_whole {p : Pkt} {l : ImgLoad} (key : Nat) (s : State) (read : l.header = true)
    (whole : loadWhole l (wthLen (assemble (loadPieces l))) = true) : wthAfter p key l s = wthComplete p key l (loadPut l s) := by
  simp only [wthAfter, read, whole, Bool.not_true, Bool.false_and, Bool.and_self, Bool.false_eq_true, if_false, if_true]

/-- The first packet of a version that is not held, its space had, is placed with the version LOADING (R286, R288). -/
theorem wthBegin_unheld {p : Pkt} {key : Nat} {l : ImgLoad} {s v : State} (takes : wthTake l.comp key l.arg s = (stOk, v))
    (unheld : withyHeld (loadPut l v) key = none) :
    wthBegin p key l s =
      wthAfter p key (loadPlace 0x18 p l) (modTier (fun t => { t with withies := tabPut t.withies key wthLoading }) (loadPut l v)) := by
  simp only [wthBegin, takes, unheld, ne_eq, not_true_eq_false, Option.isNone_none, if_false, if_true]

section
variable {p : Pkt} (params : paramsZero p true true false true = true) (placement : p.p0 < 3) (small : p.p1 < 2 ^ 32)
  (withy : p.p1 / 4096 ≠ 0xFFFFF) (version : p.p1 % 4096 ≠ 0xFFF) (inside : segAt p + p.payload.length ≤ 2 ^ 40 + 65536)
include params placement small withy version inside

/-- A well-formed packet of a version that is not loading begins its load (R288). -/
theorem wthLoadAct_new {s : State} (noLoad : loadOf s (.withy (p.p1 / 4096) (p.p1 % 4096)) = none) :
    wthLoadAct p s = wthBegin p p.p1 ⟨.withy (p.p1 / 4096) (p.p1 % 4096), p.p0, [], false, [], arrivalComp s p.path⟩ s := by
  simp only [wthLoadAct, params, placement.not_ge, small.not_ge, withy, version, inside.not_gt, noLoad, decide_false, Bool.not_true,
    Bool.or_self, Bool.false_eq_true, if_false]

/-- A later packet with the placement of the first is placed in the load that it names (R311). -/
theorem wthLoadAct_loading {s : State} {k : ImgLoad} (load : loadOf s (.withy (p.p1 / 4096) (p.p1 % 4096)) = some k)
    (samePlacement : k.arg = p.p0) : wthLoadAct p s = wthAfter p p.p1 (loadPlace 0x18 p k) s := by
  have notStruck : ¬ 16 ≤ p.p0 := by omega
  simp only [wthLoadAct, params, placement.not_ge, small.not_ge, withy, version, inside.not_gt, load, samePlacement, notStruck, ne_eq,
    not_true_eq_false, decide_false, Bool.not_true, Bool.or_self, Bool.false_eq_true, if_false]

end

/-! ## Resident slots (R289, R290, R306) -/

section
variable {s : State} {n : Nat} {w : WSlot} (live : alive s = true) (held : tabGet s.tier.wslots n = some w) (filling : w.state = 1)
  (promoting : w.promo = true)
include live held filling promoting

/-- A verified promotion makes its slot READY with the image of the version that is held. -/
theorem promotionVerifiedFx_verified {v : WithyVer} (version : withyHeld s w.ver = some v) :
    promotionVerifiedFx n true s =
      bump WTH_PROMOTE_CNT 1 (modWslot n (fun w => { w with state := 2, promo := false }) (extWrite w.ext v.image s)) := by
  simp [promotionVerifiedFx, held, live, filling, promoting, version]

/-- A promotion that is not verified empties its slot and frees its extents. -/
theorem promotionVerifiedFx_failed :
    promotionVerifiedFx n false s = extFree w.ext (modTier (fun t => { t with wslots := tabDel t.wslots n }) s) := by
  simp [promotionVerifiedFx, wslotClear, held, live, filling, promoting]

end

/-- While the host is heard, a write of WTH_SLOT_SEL shows the slot that the register then selects (R306). -/
theorem wthSlotSelWriteFx_heard {s : State} (v : Nat) (heard : hostHeard s = true) :
    wthSlotSelWriteFx v s =
      regPut WTH_SLOT_INFO (wslotInfo (regSet WTH_SLOT_SEL v s) (regField (regSet WTH_SLOT_SEL v s) WTH_SLOT_SEL 9 0))
        (regSet WTH_SLOT_SEL v s) := by
  simp only [wthSlotSelWriteFx, heard, Bool.not_true, Bool.false_eq_true, if_false]

/-- Settles O55: a packet of a load that passes R312 begins the load or is placed in it as `wthLoadAct_new` and `wthLoadAct_loading` have it,
WTH.RETIRE and WTH.QUERY act as `receive_layout` has it, and the window and the promotions by their own equations. -/
theorem withiesAreHeld : Obligations.WithiesAreHeld := by
  refine ⟨?load, ?retire, ?query, ?window, ?promotion⟩
  case load =>
    rintro s p u rfl h passes params placement small withy version inside n l
    have taken := loadReceive_accepted (wthLoadAct p) h passes
    refine ⟨fun v noLoad takes missing unheld => congrArg Host.Outcome.next (taken.trans ?first),
      fun k load samePlacement read whole => congrArg Host.Outcome.next (taken.trans ?last)⟩
    case first =>
      exact (wthLoadAct_new params placement small withy version inside noLoad).trans
        ((wthBegin_unheld takes unheld).trans (wthAfter_headerMissing _ _ rfl missing))
    case last =>
      exact (wthLoadAct_loading params placement small withy version inside load samePlacement).trans (wthAfter_whole _ _ read whole)
  case retire => exact fun s p h named => congrArg Host.Outcome.next (receive_layout 0x19 _ h named)
  case query => exact fun s p h named => congrArg Host.Outcome.next (receive_layout 0x1A _ h named)
  case window => exact fun s v heard => congrArg Host.Outcome.next (wthSlotSelWriteFx_heard v heard)
  case promotion =>
    exact fun s n w live held filling promoting =>
      ⟨fun v version => congrArg Host.Outcome.next (promotionVerifiedFx_verified live held filling promoting version),
        congrArg Host.Outcome.next (promotionVerifiedFx_failed live held filling promoting)⟩

end Sys2Proof.Machine
end

section
/-! PROOF. The front of the queue and its rest (O1, O6), and the invariant at reset (O4). -/
namespace Sys2Proof.Machine

/-- Settles O1: `step` on a queue with a front is that command's `exec` on the rest. -/
theorem stepRunsFront : Obligations.StepRunsFront := fun _ _ _ => rfl

/-- Settles O6: every operation keeps the queue (`exec_keeps`). -/
theorem execLeavesQueue : Obligations.ExecLeavesQueue := fun c s t ran => (exec_keeps c s (Keeps.refl s) t ran).queue

/-- Settles O4: both memories are empty (`reset_wf`), and the numbers in question are at their reset values. -/
theorem goodAtReset : Obligations.GoodAtReset where
  mem := reset_wf.1
  coreMem := reset_wf.2
  level := by decide
  mode := by decide
  log := by decide
  tag := by decide

end Sys2Proof.Machine
end

section
/-! PROOF. Which opcodes a path accepts, and the two checks that keep the others out (O56). -/
namespace Sys2Proof.Machine

/-! ## Classes of opcodes (R321, R322) -/

/-- The management class is the list of R321. -/
theorem mgmtClass_iff (o : Nat) : mgmtClass o = true ↔
    o ≤ 0x05 ∨ (0x08 ≤ o ∧ o ≤ 0x0D) ∨ (0x10 ≤ o ∧ o ≤ 0x12) ∨ (0x14 ≤ o ∧ o ≤ 0x15) ∨ (0x18 ≤ o ∧ o ≤ 0x1A) ∨ o = 0x25 ∨
      o = 0x27 ∨ (0x48 ≤ o ∧ o ≤ 0x4B) ∨ (0x58 ≤ o ∧ o ≤ 0x5B) ∨ (0x60 ≤ o ∧ o ≤ 0x61) ∨ o = 0x68 := by
  simp only [mgmtClass, Bool.or_eq_true, Bool.and_eq_true, decide_eq_true_eq]
  omega

theorem pathOk_ring (o n : Nat) : pathOk o (.ring n) = true := rfl

/-- The fabric carries every opcode but the five of R322. -/
theorem pathOk_fabric_eq_false_iff (o qp d port : Nat) :
    pathOk o (.fabric qp d port) = false ↔ o = 0x05 ∨ o = 0x09 ∨ o = 0x0A ∨ o = 0x0B ∨ o = 0x0C := by
  simp only [pathOk, notFabric, Bool.not_eq_false', Bool.or_eq_true, decide_eq_true_eq, or_assoc]

/-! ## Steps 6 and 7 of R312 -/

section
variable {s : State} {r : OpRow} {p : Pkt} (version : versionOk s r.code p = true) (header : headerBad r p = false)
  (defined : opLacking p.format p.minor r.code = false) (crc : p.crcOk = true)
include version header defined crc

/-- A packet that is good to step 6, on a path that does not permit its opcode, fails there. -/
theorem firstFail_pathNotOk (path : pathOk r.code p.path = false) : firstFail s r p = some (stPd, 6) := by
  simp [firstFail, version, header, defined, crc, path]

/-- A packet of a serving opcode that is good to step 7 fails there in restricted mode. -/
theorem firstFail_restricted (path : pathOk r.code p.path = true) (pd : pdOk s p = true) (restrict : restricted s = true)
    (serving : mgmtClass r.code = false) : firstFail s r p = some (stRestricted, 7) := by
  simp [firstFail, version, header, defined, crc, path, pd, restrict, serving]

end

/-- Restricted mode turns away no opcode of the management class. -/
theorem firstFail_mgmtClass {r : OpRow} (s : State) (p : Pkt) (mgmt : mgmtClass r.code = true) :
    firstFail s r p ≠ some (stRestricted, 7) := by
  simp only [firstFail, mgmt, Bool.not_true, Bool.and_false, Bool.false_eq_true, if_false]
  repeat' split
  all_goals simp [stVersion, stFormat, stOpcode, stCrc, stPd, stLicence, stEpochStale, stRestricted]

/-! ## The answer to a failing check (R312, R314, R316) -/

theorem arrived_dev (p : Pkt) (s : State) : (arrived p s).dev = s.dev := (endDiscards_dev p _).trans (meterRx_dev p _)

theorem arrived_err (p : Pkt) (s : State) : (arrived p s).err = s.err := by
  unfold arrived endDiscards meterRx
  split <;> rfl

/-- A packet at which a check fails is rejected in the state in which the check looked at it. -/
theorem receive_failing {r : OpRow} {p : Pkt} {s : State} {st d : Nat} (act : State → State) (live : alive s = true)
    (serves : s.err.restarting = false) (command : p.resp = false) (fresh : discarding (arrived p s) r.code p = false)
    (fails : firstFail (arrived p s) r p = some (st, d)) : receive r p act s = reject r p st d (arrived p s) := by
  have ticked : alive (atTick p.now s) = true := live
  have serving : (atTick p.now s).err.restarting = false := serves
  unfold arrived at fresh fails
  unfold receive receiveWith
  simp only [ticked, serving, fresh, command, fails, Bool.not_true, Bool.false_and, Bool.false_eq_true, if_false]
  rfl

/-- An opcode that is answered is answered once, with the check's status and DETAIL; a failed payload CRC is counted before. -/
theorem reject_answered {r : OpRow} {p : Pkt} (st d : Nat) (s : State) (answered : neverAnswered r.code = false) :
    reject r p st d s =
      startDiscard r p (failAt r.code p st d (if st = stCrc ∧ d = 5 then bump CMD_PCRC_ERR_CNT 1 s else s)) := by
  simp [reject, answered]

/-- Settles O56: the classes are the lists of R321 and R322, and each check is its own step of `firstFail`. -/
theorem pathsAcceptTheirOpcodes : Obligations.PathsAcceptTheirOpcodes := by
  refine ⟨fun o _ => ⟨mgmtClass_iff o, pathOk_ring o, pathOk_fabric_eq_false_iff o, ?others⟩, fun s r p version header defined crc =>
    ⟨fun path => ⟨firstFail_pathNotOk version header defined crc path, ?answer⟩, firstFail_restricted version header defined crc⟩,
    fun s r p mgmt => firstFail_mgmtClass s p mgmt⟩
  case others => rintro _ (⟨n, rfl⟩ | rfl) <;> rfl
  case answer =>
    rintro answered live serves command act s₀ rfl fresh
    have fails := firstFail_pathNotOk version header defined crc path
    rw [alive_of_dev (arrived_dev p s₀)] at live
    rw [arrived_err] at serves
    have rejected := receive_failing act live serves command fresh fails
    exact rejected.trans (reject_answered stPd 6 _ answered)

end Sys2Proof.Machine
end

section
/-! PROOF. How a command is answered on its path, and which parts of the state its reception and its answer touch (O57). -/
namespace Sys2Proof.Machine

/-! ## The answer on each path (R315, R316) -/

/-- ST_OK is left out where the packet asks for no reply. -/
theorem ok_noReply {p : Pkt} (o v : Nat) (s : State) (noReply : p.noReply = true) : ok o p v s = s := by
  simp [ok, answer, noReply]

/-- The final ST_OK to a packet, with a RESULT. -/
def okReply (o v : Nat) (p : Pkt) : ReplyOut := ⟨p.format, p.minor, o, true, p.tag, p.mid, stOk, 0, v, p.seq⟩

/-- Elsewhere ST_OK is one reply on the path of the packet. -/
theorem ok_replies {p : Pkt} (o v : Nat) (s : State) (replies : p.noReply = false) : ok o p v s = sendReply p.path (okReply o v p) s := by
  simp [ok, answer, replies, okReply, stOk, stInternal]

/-- A failure other than ST_INTERNAL is counted, and is one reply on the path of the packet. -/
theorem failAt_replies {p : Pkt} {st : Nat} (o d : Nat) (s : State) (notOk : st ≠ stOk) (notInternal : st ≠ stInternal) :
    failAt o p st d s = if p.noReply ∧ st = stPending then s else
      sendReply p.path ⟨p.format, p.minor, o, true, p.tag, p.mid, st, d, 0, p.seq⟩ (bump CMD_REJECT_CNT 1 s) := by
  simp [failAt, answer, notOk, notInternal]

/-! ## Parts that a reception touches -/

theorem modSched_onlyParts (f : SchedSt → SchedSt) (s : State) : OnlyParts [.sched] s (modSched f s) := by
  intro part other
  cases part with
  | sched => exact absurd List.mem_cons_self other
  | _ => rfl

theorem meterRx_onlyParts (p : Pkt) (s : State) : OnlyParts [.sched] s (meterRx p s) := by
  unfold meterRx meterIn
  split
  · exact modSched_onlyParts _ s
  · exact modSched_onlyParts _ s
  · exact OnlyParts.refl _ s

theorem endDiscards_onlyParts (p : Pkt) (s : State) : OnlyParts [.discards] s (endDiscards p s) := by
  intro part other
  cases part with
  | discards => exact absurd List.mem_cons_self other
  | _ => rfl

theorem arrived_onlyParts (p : Pkt) (s : State) : OnlyParts [.tick, .regs, .sched, .discards] s (arrived p s) := by
  have counted := ((atTick_onlyParts p.now s).mono (k := [.tick, .regs]) (by simp)).trans
    ((bump_onlyParts CMD_RX_CNT (packetsOf p) _).mono (by simp))
  have metered := (counted.mono (k := [.tick, .regs, .sched]) (by simp)).trans ((meterRx_onlyParts p _).mono (by simp))
  exact (metered.mono (by simp)).trans ((endDiscards_onlyParts p _).mono (by simp))

theorem noteMsg_onlyParts (r : OpRow) (p : Pkt) (s : State) : OnlyParts [.msgs, .man] s (noteMsg r p s) := by
  intro part other
  cases part with
  | msgs | man => simp at other
  | _ =>
    unfold noteMsg noteLink
    split
    · rfl
    · split <;> rfl

theorem taken_onlyParts (r : OpRow) (p : Pkt) (s : State) : OnlyParts [.tick, .regs, .msgs, .discards, .man, .sched] s (taken r p s) :=
  ((arrived_onlyParts p s).mono (by simp)).trans ((noteMsg_onlyParts r p _).mono (by simp))

/-! ## Parts that an answer touches -/

/-- What an answer can touch: a completion ring and its interrupt, a queue pair with its context and its shaper, and what leaves. -/
def answerParts : List Part := [.cq, .fab, .out, .pcie, .regs, .sched, .tier]

/-- An operation that began in `s₀` has touched what an answer can touch, and nothing else. -/
abbrev Answering (s₀ s : State) : Prop := OnlyParts answerParts s₀ s

theorem Answering.upd {s₀ s : State} {cq fab out pcie regs sched tier} (h : Answering s₀ s) :
    Answering s₀ { s with cq := cq, fab := fab, out := out, pcie := pcie, regs := regs, sched := sched, tier := tier } := by
  refine h.trans fun part other => ?_
  cases part with
  | cq | fab | out | pcie | regs | sched | tier => simp [answerParts] at other
  | _ => rfl

theorem Answering.ite {c : Prop} [Decidable c] {s₀ t u : State} (h : Answering s₀ t) (k : Answering s₀ u) :
    Answering s₀ (if c then t else u) := by
  split <;> assumption

theorem msixRaise_answering {s₀ s : State} (fn v : Nat) (h : Answering s₀ s) : Answering s₀ (msixRaise fn v s) :=
  h.trans ((msixRaise_onlyParts fn v s).mono (by simp [answerParts]))

theorem cqIrq_answering {s₀ s : State} (n : Nat) (h : Answering s₀ s) : Answering s₀ (cqIrq n s) :=
  .ite (msixRaise_answering _ _ h.upd) h.upd

theorem cqCoalesce_answering {s₀ s : State} (n : Nat) (h : Answering s₀ s) : Answering s₀ (cqCoalesce n s) :=
  .ite (cqIrq_answering n h) h.upd

theorem cqSlotWrites_answering {s₀ s : State} (fn base size tail : Nat) (l : List Bytes) (h : Answering s₀ s) :
    Answering s₀ (cqSlotWrites fn base size tail l s) := by
  induction l generalizing tail s with
  | nil => exact h
  | cons b l ih => exact ih _ h.upd

theorem cqWrite_answering {s₀ s : State} (n : Nat) (b : Bytes) (h : Answering s₀ s) : Answering s₀ (cqWrite n b s) :=
  cqCoalesce_answering n (.ite (cqSlotWrites_answering _ _ _ _ _ h).upd (cqSlotWrites_answering _ _ _ _ _ h).upd)

theorem cqPost_answering {s₀ s : State} (n : Nat) (b : Bytes) (h : Answering s₀ s) : Answering s₀ (cqPost n b s) :=
  .ite h.upd (.ite (cqWrite_answering n b h) h.upd)

theorem evictStart_answering {s₀ s : State} (die : Nat) (h : Answering s₀ s) : Answering s₀ (evictStart die s) := by
  unfold evictStart
  split
  · exact h.upd
  · exact h

theorem needSlot_answering {s₀ s : State} (n : Nat) (h : Answering s₀ s) : Answering s₀ (needSlot n s) := by
  unfold needSlot
  split
  · exact h
  · exact .ite h (.ite h.upd (evictStart_answering _ h.upd))

theorem evictAbandon_answering {s₀ s : State} (n : Nat) (h : Answering s₀ s) : Answering s₀ (evictAbandon n s) :=
  .ite (evictStart_answering _ h.upd) h.upd

theorem wakeQp_answering {s₀ s : State} (n : Nat) (h : Answering s₀ s) : Answering s₀ (wakeQp n s) := by
  unfold wakeQp
  split
  · exact h
  · exact .ite (evictAbandon_answering n h) (needSlot_answering n h)

theorem queueFrame_answering {s₀ s : State} (p : Option Nat) (f : TxFrame) (h : Answering s₀ s) : Answering s₀ (queueFrame p f s) := by
  unfold queueFrame
  split
  · exact h
  · exact .ite h.upd h.upd

theorem tclSend_answering {s₀ s : State} (n bytes : Nat) (what : TxWhat) (b : Budget) (h : Answering s₀ s) :
    Answering s₀ (tclSend n bytes what b s) := by
  have woken := wakeQp_answering n h
  unfold tclSend
  dsimp only
  split
  · exact woken
  · exact .ite woken (.ite (queueFrame_answering _ _ woken.upd) woken.upd)

theorem putWords_answering {s₀ s : State} (off : Nat) (b : Bytes) (h : Answering s₀ s) : Answering s₀ (putWords off b s) :=
  h.trans ((regPuts_onlyParts (fun i => off + 4 * i) (fun i => leAt b (4 * i) 4) _ s).mono (by simp [answerParts]))

theorem sendReply_answering {s₀ s : State} (path : Path) (r : ReplyOut) (h : Answering s₀ s) : Answering s₀ (sendReply path r s) := by
  cases path with
  | ring n => exact cqPost_answering _ _ h
  | fabric qp d port => exact tclSend_answering _ _ _ _ h.upd
  | mbox => exact (putWords_answering _ _ h.upd).upd
  | mgmt n => exact h.upd
  | i3c => exact h.upd

theorem ok_onlyParts (o v : Nat) (p : Pkt) (s : State) : OnlyParts answerParts s (ok o p v s) := by
  cases reply : p.noReply with
  | true =>
    rw [ok_noReply o v s reply]
    exact OnlyParts.refl _ s
  | false =>
    rw [ok_replies o v s reply]
    exact sendReply_answering p.path _ (OnlyParts.refl _ s)

/-! ## NOP -/

/-- A NOP that is taken, with no parameter set, is answered ST_OK (R324). -/
theorem execNop_accepted {s : State} {p : Pkt} (h : Accepted rowNop s p) (params : paramsZero p false false false false = true) :
    execNop p s = .next (ok 0x00 p 0 (taken rowNop p s)) :=
  congrArg Host.Outcome.next (receive_layout 0x00 (ok 0x00 p 0) h params)

/-- Settles O57: a reply is `sendReply` on the path of its command (`ok_replies`, `failAt_replies`), a failing check is `reject_answered`, and the
parts touched are those of `taken_onlyParts` and `ok_onlyParts`. -/
theorem commandsAreAnswered : Obligations.CommandsAreAnswered := by
  refine ⟨?nop, ?failing, fun s p o v => ⟨ok_noReply o v s, ?replies, ?rejected⟩,
    fun s p r o v => ⟨taken_onlyParts r p s, (ok_onlyParts o v p s).mono (by simp [answerParts])⟩⟩
  case nop => exact fun s p h h0 h1 h2 h3 => execNop_accepted h (by simp [paramsZero, h0, h1, h2, h3])
  case failing =>
    exact fun s p r act st d live serves command fresh fails answered =>
      (receive_failing act live serves command fresh fails).trans (reject_answered st d _ answered)
  case replies =>
    intro reply
    have sent := ok_replies o v s reply
    refine ⟨fun n path => sent.trans ?_, fun qp d port path => sent.trans ?_, fun n path => sent.trans ?_, fun path => sent.trans ?_,
      fun path => sent.trans ?_⟩ <;> rw [path] <;> rfl
  case rejected =>
    intro st d notOk notInternal path
    rw [failAt_replies o d s notOk notInternal, path]
    rfl

end Sys2Proof.Machine
end

section
/-! PROOF. What host software does to a ring, how its doorbells are heard, and what ends a wait on it (O9, O10, O11). -/
namespace Sys2Proof.Machine

/-! ## Control registers (R334, R336, R340, R341) -/

theorem bit_eq_bits (v i : Nat) : bit v i = (bits v i i == 1) := by
  simp [bit, bits]

/-- A bit that is written reads back. -/
theorem bit_setBits_same (v i x : Nat) : bit (setBits v i i x) i = (x % 2 == 1) := by
  rw [bit_eq_bits, bits_setBits_same, Nat.add_sub_cancel_left, pow_one]

/-- A word whose vector the ring's function has is stored as it is, while ENABLE is 0 (R341, R488). -/
theorem cqCtrlSet_vectorAllowed {s : State} {n v : Nat} (unset : bit (regGet s (CMD_CQ_CTRL n)) 31 = false)
    (vector : ringOwner s n = 0 ∨ bits v 21 11 ≤ 63) : cqCtrlSet n v s = regSet (CMD_CQ_CTRL n) v s := by
  have allowed : (decide (ringOwner s n ≠ 0) && decide (63 < bits v 21 11)) = false := by
    rcases vector with pf0 | small
    · simp [pf0]
    · simp [small]
  simp only [cqCtrlSet, unset, allowed, Bool.false_eq_true, if_false]

section
variable {s : State} {fn n : Nat} (v : Nat) (heard : windowHeard s fn n = true)
include heard

/-- ENABLE 1 on a DISABLED submission ring stores the word and makes the ring ACTIVE. -/
theorem execSqEnable_disabled (unset : bit (regGet s (CMD_SQ_CTRL n)) 31 = false) (disabled : (sqRing s n).state = 0) :
    execSqEnable fn n v s = .next (modSq n (fun q => { q with state := 1 }) (regSet (CMD_SQ_CTRL n) (setBits v 31 31 1) s)) := by
  simp [execSqEnable, heard, sqCtrlFx, sqCtrlSet, bit_setBits_same, unset, disabled]

theorem execSqDisable_heard : execSqDisable fn n v s = .next (sqDisableFx n (sqCtrlSet n (setBits v 31 31 0) s)) := by
  simp [execSqDisable, heard, sqCtrlFx, bit_setBits_same]

/-- ENABLE 1 on a DISABLED completion ring stores the word, with a vector that the ring's function has, and makes the ring ACTIVE. -/
theorem execCqEnable_disabled (unset : bit (regGet s (CMD_CQ_CTRL n)) 31 = false) (disabled : (cqRing s n).state = 0)
    (vector : fn = 0 ∨ bits (setBits v 31 31 1) 21 11 ≤ 63) :
    execCqEnable fn n v s = .next (modCq n (fun q => { q with state := 1 }) (regSet (CMD_CQ_CTRL n) (setBits v 31 31 1) s)) := by
  have owner : ringOwner s n = fn := by
    simp only [windowHeard, Bool.and_eq_true, decide_eq_true_eq] at heard
    exact heard.2
  simp [execCqEnable, heard, cqCtrlFx, bit_setBits_same, disabled, cqCtrlSet_vectorAllowed unset (owner.symm ▸ vector)]

theorem execCqDisable_heard : execCqDisable fn n v s = .next (cqDisableFx n (cqCtrlSet n (setBits v 31 31 0) s)) := by
  simp [execCqDisable, heard, cqCtrlFx, bit_setBits_same]

end

/-- Settles O9: each write is heard, and ENABLE reads back as it is written. -/
theorem ringsAreEnabledAndDisabled : Obligations.RingsAreEnabledAndDisabled := fun _ _ _ v heard =>
  ⟨execSqEnable_disabled v heard, execSqDisable_heard v heard, execCqEnable_disabled v heard, _, execCqDisable_heard v heard, rfl⟩

/-! ## Doorbells (R335, R337, R338) -/

/-- A tail that is new, below the ring size, enters a doorbell FIFO that has room. -/
theorem doorbellFx_enters {s : State} {n v : Nat} (good : Bool) (room : (sqRing s n).fifo.length < 32) (small : v < sqSlots s n)
    (new : v ≠ (sqRing s n).tail) : doorbellFx n v good s = modSq n (fun q => { q with tail := v, fifo := q.fifo ++ [(v, good)] }) s := by
  have fits : tailBad s n v = false := by simp [tailBad, small]
  simp [doorbellFx, room.ne, fits, new]

theorem takeTail_good {s : State} {n v : Nat} {l : List (Nat × Bool)} (fifo : (sqRing s n).fifo = (v, true) :: l) :
    takeTail n s = modSq n (fun q => { q with fifo := l, reach := v }) s := by
  simp only [takeTail, fifo]

theorem ringWaits_modSq {n op : Nat} (k : Nat) (f : SqRing → SqRing) (s : State) : ringWaits (modSq k f s) n op = ringWaits s n op := rfl

/-- A packet that the tail covers, and that nothing makes wait, moves HEAD past its slots. -/
theorem consume_packet {s : State} {n k op : Nat} (starts : ringWaits s n op = false) (covered : k ≤ slotsCovered s n) :
    consume n [.packet k op] s = modSq n (fun q => { q with head := (q.head + k) % sqSlots s n }) s := by
  simp [consume, starts, covered]

/-- What a tail that was taken covers. -/
theorem slotsCovered_reach (s : State) (n v : Nat) (l : List (Nat × Bool)) :
    slotsCovered (modSq n (fun q => { q with fifo := l, reach := v }) s) n = (v + sqSlots s n - (sqRing s n).head) % sqSlots s n := by
  unfold slotsCovered
  rw [sqRing_modSq, if_pos rfl]
  rfl

/-- A head equal to CQ_TAIL returns every slot of a ring that holds nothing. -/
theorem cqHeadAll_tail {s : State} {n : Nat} (empty : (cqRing s n).held = []) :
    cqHeadAll n (cqRing s n).tail s = modCq n (fun q => { q with head := q.tail, used := 0 }) s := by
  simp only [cqHeadAll, if_true, empty]
  rfl

/-- Settles O10: `doorbellFx_enters`, `consume_packet` after `takeTail_good`, and `cqHeadAll_tail`. -/
theorem doorbellsAreHeard : Obligations.DoorbellsAreHeard := by
  refine ⟨fun s fn n v good heard enabled room small new => ?enters, ?consumes, fun s fn n heard active empty => ?head⟩
  case enters =>
    exact congrArg Host.Outcome.next ((if_pos (by simp [heard, enabled])).trans (doorbellFx_enters good room small new))
  case consumes =>
    intro s n v k op l live serves active fifo outstanding empty covered
    have starts : ringWaits (modSq n (fun q => { q with fifo := l, reach := v }) s) n op = false := by
      rw [ringWaits_modSq]
      simpa [ringWaits, empty] using outstanding
    have consumed := consume_packet starts (slotsCovered_reach s n v l ▸ covered)
    have taken : execSqTailConsume n [.packet k op] s = .next (consume n [.packet k op] (takeTail n s)) := by
      simp [execSqTailConsume, live, active, serves]
    rw [exec_sqTailConsume, taken, takeTail_good fifo, consumed]
    rfl
  case head => exact congrArg Host.Outcome.next ((if_pos (by simp [heard, active])).trans (cqHeadAll_tail empty))

/-! ## Waits and failed headers (R313, R336, R337, R340) -/

theorem execCqStallTimeout_late {s : State} {n now : Nat} {e : CqEntry} {l : List CqEntry} (live : alive s = true)
    (held : (cqRing s n).held = e :: l) (first : (cqRing s n).stalled = false)
    (late : e.since + msTicks (regField s CMD_CQ_STALL_TMO 13 0) ≤ max s.tick now) :
    execCqStallTimeout n now s = .next (irqEvent 6 (msixRaise (ringOwner s n) (regField s (CMD_CQ_CTRL n) 21 11)
      (modCq n (fun q => { q with stalled := true }) (atTick now s)))) := by
  simp [execCqStallTimeout, held, live, first, late]

theorem execCqCoalTimeout_late {s : State} {n now : Nat} (live : alive s = true) (pending : (cqRing s n).coal ≠ 0)
    (delay : regField s (CMD_CQ_COAL n) 15 0 ≠ 0)
    (late : (cqRing s n).coalSince + usTicks (regField s (CMD_CQ_COAL n) 15 0) ≤ max s.tick now) :
    execCqCoalTimeout n now s = .next (cqIrq n (atTick now s)) := by
  simp [execCqCoalTimeout, live, pending, delay, late]

/-- Off the host rings a failed header is counted, and nothing else follows (R313, log 37). -/
theorem hcrcFx_noRing {path : Path} (slot : Nat) (s : State) (noRing : ∀ n, path ≠ .ring n) :
    hcrcFx path slot s = bump CMD_HCRC_ERR_CNT 1 s := by
  cases path with
  | ring n => exact absurd rfl (noRing n)
  | _ => rfl

/-- An ACTIVE host ring goes to ERROR at the slot. -/
theorem hcrcFx_ring {s : State} {n : Nat} (slot : Nat) (active : (sqRing s n).state = 1) :
    hcrcFx (.ring n) slot s = ringError n slot stCrc (bump CMD_HCRC_ERR_CNT 1 s) := if_pos active

/-- Settles O11: the two timers by the equation of their late case, and a failed header by its path. -/
theorem ringTimesAndHeaderChecks : Obligations.RingTimesAndHeaderChecks := by
  refine ⟨fun s n now live => ⟨fun e l held first late => execCqStallTimeout_late live held first late,
    fun pending delay late => execCqCoalTimeout_late live pending delay late⟩, fun s path slot live => ⟨fun noRing => ?off, ?ring⟩⟩
  case off => exact congrArg Host.Outcome.next ((if_pos live).trans (hcrcFx_noRing slot s noRing))
  case ring =>
    rintro n rfl active
    exact congrArg Host.Outcome.next ((if_pos live).trans (hcrcFx_ring slot active))

end Sys2Proof.Machine
end

section
/-! PROOF. Faults of FIFOs and what other devices send back (O17), and restarts of the control plane (O15). -/
namespace Sys2Proof.Machine

/-! ## FIFOs (R432) -/

/-- Outside a cluster a parity error damages no word of a running step. -/
theorem fifoDamage_noCluster {p : FifoPlace} (s : State) (noCluster : ∀ m, p ≠ .cluster m) : fifoDamage p s = s := by
  cases p with
  | cluster m => exact absurd rfl (noCluster m)
  | _ => rfl

section
variable {s : State} {p : FifoPlace} (i now : Nat) (live : alive s = true) (place : fifoThere p = true)
include live place

theorem fifoParityErrorFx_noCluster (noCluster : ∀ m, p ≠ .cluster m) :
    fifoParityErrorFx p i now s = record { cause := 0x38, cls := 1, kind := fifoKind p, unit := fifoUnit p, c0 := i }
      (bump ERR_POISON_CNT 1 (bump ERR_FIFO_PAR_CNT 1 (atTick now s))) := by
  simp [fifoParityErrorFx, live, place, fifoDamage_noCluster _ noCluster]

/-- The first overrun of a FIFO off the I/O dies sets its bit, is counted and recorded, and its unit fails. -/
theorem fifoOverrunFx_first (noIoDie : ∀ d, p ≠ .ioDie d) (first : s.err.fifoOvr.contains (p, i) = false) :
    fifoOverrunFx p i now s = fifoUnitFails p now i (record { cause := 0x39, cls := 1, kind := fifoKind p, unit := fifoUnit p, c0 := i }
      (modErr (fun e => { e with fifoOvr := (p, i) :: e.fifoOvr }) (bump ERR_FIFO_OVR_CNT 1 (atTick now s)))) := by
  have set : modErr (fun e => { e with fifoOvr := if e.fifoOvr.contains (p, i) then e.fifoOvr else (p, i) :: e.fifoOvr })
      (bump ERR_FIFO_OVR_CNT 1 (atTick now s)) =
      modErr (fun e => { e with fifoOvr := (p, i) :: e.fifoOvr }) (bump ERR_FIFO_OVR_CNT 1 (atTick now s)) := by
    have unset : (bump ERR_FIFO_OVR_CNT 1 (atTick now s)).err.fifoOvr.contains (p, i) = false := first
    simp only [modErr, unset, Bool.false_eq_true, if_false]
  simp only [fifoOverrunFx, alive_atTick, live, place, set, Bool.not_true, Bool.or_self, Bool.false_eq_true, if_false]

end

/-! ## Answers of other devices (R317, R318, R328) -/

section
variable {s : State} {r : Rep} (live : alive s = true) (good : r.rcrcOk = true) (fresh : staleAnswer s r.opcode r.mid = false)
  (listed : statusListed r.status = true)
include live good fresh listed

/-- A reply to a SYS.HELLO of this device settles the version of its queue pair. -/
theorem replyReceivedFx_hello {n : Nat} (hello : helloOf s r.tag = some n) :
    replyReceivedFx r s = helloAnswered n r.status r.result (atTick r.now s) := by
  unfold replyReceivedFx
  rw [onReply_listed _ _ live good fresh (by simp [hello]) listed]
  simp [replyAct, hello]

/-- A final reply to another open command closes its TAG. -/
theorem replyReceivedFx_open (noHello : helloOf s r.tag = none) (noDrop : dropOfTag s r.tag = none)
    (opened : s.fab.openTags.contains r.tag = true) (final : r.final = true) :
    replyReceivedFx r s = modFab (fun f => { f with openTags := f.openTags.filter fun t => t ≠ r.tag }) (atTick r.now s) := by
  have waits : (atTick r.now s).fab.openTags.contains r.tag = true := opened
  unfold replyReceivedFx
  rw [onReply_listed _ _ live good fresh (by simp only [waits, Bool.or_true, Bool.true_or]) listed]
  simp only [replyAct, helloOf_atTick, noHello, dropOfTag_atTick, noDrop, waits, final, if_true]

end

/-- A packet of a response to a forwarded operation is placed for it. -/
theorem responsePacketReceivedFx_forwarded {s : State} {tag mid : Nat} {x : MsaFwd} (now off : Nat) (last : Bool) (b : Bytes)
    (live : alive s = true) (forwarded : tabGet s.msa.fwd tag = some x) (fresh : staleAnswer s x.opcode mid = false) :
    responsePacketReceivedFx x.qp now ⟨tag, mid⟩ x.opcode off last b s =
      modFab (fun f => { f with resps := respPlace x.qp tag x.opcode off last b f.resps }) (atTick now s) := by
  simp [responsePacketReceivedFx, live, forwarded, fresh]

/-- Settles O17: the FIFOs' faults and the answers each by the equation of their case. -/
theorem faultsAndAnswersAreTaken : Obligations.FaultsAndAnswersAreTaken := by
  refine fun s now live => ⟨fun p i place noCluster => ?parity, fun p i place noIoDie first => ?overrun,
    fun r good listed now' fresh => ?replies, ?response⟩
  case parity => exact congrArg Host.Outcome.next (fifoParityErrorFx_noCluster i now live place noCluster)
  case overrun => exact congrArg Host.Outcome.next (fifoOverrunFx_first i now live place noIoDie first)
  case replies =>
    subst now'
    exact ⟨fun n hello => congrArg Host.Outcome.next (replyReceivedFx_hello live good fresh listed hello),
      fun noHello noDrop opened final => congrArg Host.Outcome.next (replyReceivedFx_open live good fresh listed noHello noDrop opened final)⟩
  case response =>
    rintro qp tag mid off last b x forwarded rfl fresh
    exact congrArg Host.Outcome.next (responsePacketReceivedFx_forwarded now off last b live forwarded fresh)

/-! ## Restarts (R449, R450, R452, R453) -/

/-- What a restart that starts leaves of its cause and its tick. -/
theorem restartStart_err {s : State} (cause : Nat) (serves : s.err.restarting = false) :
    (restartStart cause s).err.restarting = true ∧ (restartStart cause s).err.restartCause = cause ∧
      (restartStart cause s).err.restartAt = s.tick := by
  simp [restartStart, serves]

/-- DEV_RESET with its KEY and CP_RESTART alone starts a restart with cause 3. -/
theorem devResetWrite_cpRestart {s : State} {v : Nat} (heard : readable s = true) (key : bits v 31 16 = 0x0840)
    (noDevice : bit v 1 = false) (cpRestart : bit v 0 = true) (noFatal : s.dev.fatal = false) : devResetWrite v s = restartStart 3 s := by
  simp [devResetWrite, heard, key, noDevice, cpRestart, noFatal]

/-- SYS.RESTART with P0 0 is answered, and then starts a restart with cause 2. -/
theorem sysRestart_warm {s : State} {p : Pkt} (h : Accepted rowRestart s p) (h0 : p.p0 = 0) (h1 : p.p1 = 0) (h2 : p.p2 = 0)
    (h3 : p.p3 = 0) : sysRestart p s = restartStart 2 (ok 5 p 0 (taken rowRestart p s)) :=
  (receive_layout 5 (restartAct p) h (by simp [paramsZero, h0, h1, h2, h3])).trans (if_pos h0)

/-- The hang of a command processor is counted and recorded, and starts a restart with cause 1. -/
theorem cpWatchdogExpireFx_alive {s : State} {cp : Nat} (now : Nat) (live : alive s = true) (processor : cp < 8) :
    cpWatchdogExpireFx cp now s =
      restartStart 1 (record { cause := 0x40, cls := 1, kind := 9, unit := cp, c0 := regField s ERR_CP_WDOG 9 0 }
        (bump ERR_CP_WDOG_CNT 1 (modErr (fun e => { e with cpHung := setBits e.cpHung cp cp 1 }) (atTick now s)))) := by
  have limit : regField (bump ERR_CP_WDOG_CNT 1 (modErr (fun e => { e with cpHung := setBits e.cpHung cp cp 1 }) (atTick now s)))
      ERR_CP_WDOG 9 0 = regField s ERR_CP_WDOG 9 0 := by
    unfold regField
    rw [regGet_bump_other 1 _ (by decide)]
    rfl
  simp [cpWatchdogExpireFx, live, processor, limit]

/-- The end of a restart answers what waited, lets a held boundary take effect, and leaves a record. -/
theorem cpRestartCompleteFx_restarting {s : State} (now : Nat) (live : alive s = true) (restarts : s.err.restarting = true) :
    cpRestartCompleteFx now s =
      record { cause := 0x41, cls := 0, c0 := s.err.restartCause, c1 := (max s.tick now - s.err.restartAt) / 100 }
        (irqEvent 4 (bump ERR_CP_RESTART_CNT 1 (heldBoundary (s.err.owed.foldl (fun t x => fail x.1 x.2 stBusy t)
          (modErr (fun e => { e with restarting := false, owed := [] }) (atTick now s)))))) := by
  simp [cpRestartCompleteFx, live, restarts]

/-- Settles O15: each request is a `restartStart`, and its end and the management controller's watchdog are their own equations. -/
theorem controlPlaneRestarts : Obligations.ControlPlaneRestarts := by
  refine ⟨fun s v heard noFatal serves key noDevice cpRestart => ?host, fun s p h _ h0 h1 h2 h3 => ?command,
    fun s cp now live processor => ?watchdog, fun s now live restarts => ?done, fun s now live => ?mgmt⟩
  case host =>
    exact ⟨_, congrArg Host.Outcome.next (devResetWrite_cpRestart heard key noDevice cpRestart noFatal), restartStart_err 3 serves⟩
  case command => exact congrArg Host.Outcome.next (sysRestart_warm h h0 h1 h2 h3)
  case watchdog => exact congrArg Host.Outcome.next (cpWatchdogExpireFx_alive now live processor)
  case done => exact congrArg Host.Outcome.next (cpRestartCompleteFx_restarting now live restarts)
  case mgmt => exact congrArg Host.Outcome.next (if_pos live)

end Sys2Proof.Machine
end

section
/-! PROOF. Sessions, protection domains and regions (O41), queue pairs (O42), and messages to posted buffers (O43). -/
namespace Sys2Proof.Machine

/-! ## SYS.HELLO (R328) -/

/-- Off the fabric SYS.HELLO is answered with the highest version that both speak. -/
theorem helloAct_noFabric {p : Pkt} {s : State} {v : Nat} (choice : helloChoice p.p0 = some v)
    (noFabric : ∀ qp d port, p.path ≠ .fabric qp d port) : helloAct p s = ok 0x01 p (helloResult s v) s := by
  unfold helloAct
  split
  next qp d port path => exact absurd path (noFabric qp d port)
  next => simp only [choice]

section
variable {p : Pkt} {s : State} {n : Nat} {q : Qp} (found : qpOf s n = some q)
include found

/-- The first choice on a queue pair is its session's. -/
theorem helloOnQp_first {v : Nat} (unsettled : q.evoest = 0) (choice : helloChoice p.p0 = some v) :
    helloOnQp n p s = afterHello (ok 0x01 p (helloResult s v) (modQp n (fun q => { q with evoest := v }) s)) := by
  simp only [helloOnQp, found, unsettled, choice, ne_eq, not_true_eq_false, if_false]

/-- A negotiated queue pair is answered again while the range holds its version. -/
theorem helloOnQp_settled (settled : q.evoest ≠ 0) (keeps : helloKeeps p.p0 q.evoest = true) :
    helloOnQp n p s = ok 0x01 p (helloResult s q.evoest) s := by
  simp only [helloOnQp, found, settled, keeps, ne_eq, not_false_eq_true, if_true]

end

/-! ## Protection domains and regions (R367) -/

theorem pdCreateAct_new {p : Pkt} {s : State} (new : s.fab.pds.contains p.p0 = false) :
    pdCreateAct p s = ok 0x4B p 0 (modFab (fun f => { f with pds := p.p0 :: f.pds }) s) := by
  simp only [pdCreateAct, new, Bool.false_eq_true, if_false]

theorem registerAct_free {p : Pkt} {s : State} {i : Nat} (domain : s.fab.pds.contains p.p0 = true)
    (free : tabFree s.fab.regions 262144 = some i) :
    registerAct p s =
      ok 0x4C p (regionKey (regionPut i (regionRec p.p0 p.payload) s) i) (regionPut i (regionRec p.p0 p.payload) s) := by
  simp only [registerAct, domain, free, Bool.not_true, Bool.false_eq_true, if_false]

theorem deregisterAct_held {p : Pkt} {s : State} (held : regionOfKey s p.p0 ≠ none) :
    deregisterAct p s = ok 0x4D p 0 (modFab (fun f => { f with regions := tabDel f.regions (p.p0 / 256) }) s) := by
  obtain ⟨r, key⟩ := Option.ne_none_iff_exists'.mp held
  simp only [deregisterAct, key]

/-- Settles O41: each command acts as `receive_layout` has it, by the equation of its case. -/
theorem sessionsAndRegions : Obligations.SessionsAndRegions := by
  refine ⟨?hello, fun s p h params => ?caps, fun s p h params small new => ?pd, ?register, fun s p h params held => ?deregister⟩
  case hello =>
    rintro s p v u rfl h params dev vendor
    have act := receive_layout 0x01 (helloAct p) h
      (layout := paramsZero p true true true false && decide (p.p1 < 4096) && decide (p.p2 < 2 ^ 24))
      (by simp only [params, dev, vendor, decide_true, Bool.and_self])
    refine ⟨fun choice noFabric => congrArg Host.Outcome.next (act.trans (helloAct_noFabric choice noFabric)), ?_⟩
    intro qp d port q path found
    have onQp : helloAct p (taken rowHello p s) = helloOnQp qp p (taken rowHello p s) := by simp only [helloAct, path]
    exact ⟨fun unsettled choice => congrArg Host.Outcome.next ((act.trans onQp).trans (helloOnQp_first found unsettled choice)),
      fun settled keeps => congrArg Host.Outcome.next ((act.trans onQp).trans (helloOnQp_settled found settled keeps))⟩
  case caps => exact congrArg Host.Outcome.next (receive_layout 0x02 _ h params)
  case pd =>
    exact congrArg Host.Outcome.next ((receive_layout 0x4B (pdCreateAct p) h (by simp [params, small])).trans (pdCreateAct_new new))
  case register =>
    rintro s p i u v rfl h params small layout domain free rfl
    exact congrArg Host.Outcome.next
      ((receive_layout 0x4C (registerAct p) h (by simp [params, small, layout])).trans (registerAct_free domain free))
  case deregister => exact congrArg Host.Outcome.next ((receive_layout 0x4D (deregisterAct p) h params).trans (deregisterAct_held held))

/-! ## Commands on a queue pair (R365, R366, R371) -/

/-- A new queue pair: its context looks for a slot, and its shaper and state follow its record (R370). -/
theorem createAct_new {p : Pkt} {s : State} (domain : s.fab.pds.contains p.p1 = true) (new : qpOf s p.p0 = none)
    (room : (p.p2 = 0 ∧ bit (recFlags p.payload) 1 = false) ∨ diePinned s (p.p0 % 2) < 2048) :
    createAct p s =
      let v := needSlot p.p0 (modFab (fun f => { f with qps := tabPut f.qps p.p0 (recPeer p.payload (recFields p.payload
        { state := 1, type := p.p2, pd := p.p1, loc := 1, lastUse := s.tick })) }) s)
      let w := if bit (recFlags p.payload) 0 then setShaped p.p0 true v else v
      ok 0x48 p 0 (if recTarget p.payload = 2 then enterRts p.p0 w else w) := by
  have pinnable : ((p.p2 = 1 || bit (recFlags p.payload) 1) && decide (2048 ≤ diePinned s (p.p0 % 2))) = false := by
    rcases room with ⟨plain, unpinned⟩ | few
    · simp [plain, unpinned]
    · simp [few]
  simp only [createAct, domain, new, pinnable, Bool.not_true, Option.isSome_none, Bool.false_eq_true, if_false]

section
variable {x : Nat × Pkt} {s : State} {q : Qp} (found : qpOf (wakeQp x.2.p0 s) x.2.p0 = some q)
include found

/-- A command on a context that is not resident waits for it. -/
theorem onContext_waits (out : q.loc ≠ 0) :
    onContext x s = modQp x.2.p0 (fun q => { q with waitCmds := q.waitCmds ++ [x] }) (wakeQp x.2.p0 s) := by
  simp only [onContext, found, out, if_false]

theorem onContext_resident (resident : q.loc = 0) : onContext x s = contextCmd x (wakeQp x.2.p0 s) := by
  simp only [onContext, found, resident, if_true]

end

section
variable {p : Pkt} {s : State} {q : Qp} (found : qpOf s p.p0 = some q)
include found

/-- QP.MODIFY whose move stands in the table of R366 takes the record's fields and moves. -/
theorem modifyNow_moves {v : State} (pin : qpPinned q = true ∨ bit (recFlags p.payload) 1 = false)
    (moves : qpMove p.p0 (recTarget p.payload) p.payload q (modifyFields p.p0 p.payload q s) = some v) :
    modifyNow p s = ok 0x49 p 0 v := by
  have allowed : (!qpPinned q && bit (recFlags p.payload) 1 && decide (2048 ≤ diePinned s (p.p0 % 2))) = false := by
    rcases pin with pinned | unpinned
    · simp [pinned]
    · simp [unpinned]
  simp only [modifyNow, found, allowed, moves, Bool.false_eq_true, if_false]

theorem shaperNow_held : shaperNow p s = ok 0x59 p 0 (shaperReset p.p0 (fun h =>
      if leAt p.payload 8 1 = 1 then { h with enabled := true, rate := leAt p.payload 0 4, burst := leAt p.payload 4 4 } else { h with enabled := false })
      (modQp p.p0 (fun q => { q with shaped := leAt p.payload 8 1 = 1 }) s)) := by
  simp only [shaperNow, found]

theorem destroyAct_held : destroyAct p s = ok 0x4A p 0 (qpGone p.p0 q s) := by simp only [destroyAct, found]

end

/-! ## Context fetches (R371, R374) -/

section
variable {s : State} {n : Nat} {q : Qp} (now : Nat) (live : alive s = true) (found : qpOf s n = some q) (fetching : q.loc = 2)
include live found fetching

/-- A fetched context is placed, and what waited for it follows. -/
theorem qpcFetchCompleteFx_fetching : qpcFetchCompleteFx n now s =
    q.parked.foldl (parkedRun n) (waitedRun n q (modQp n (fun q => { q with loc := 0, parked := [] })
      (keepMax QPC_FETCH_MAX (max s.tick now - q.fetchAt) (bump QPC_FETCH_CNT 1 (winFree (.qpContext n) (atTick now s)))))) := by
  simp [qpcFetchCompleteFx, found, live, fetching]

/-- A fetch that fails puts the queue pair in ERROR with cause 5, its parked packets gone. -/
theorem qpcFetchFailFx_fetching : qpcFetchFailFx n now s =
    waitedRun n q (qpError n 5 (modQp n (fun q => { q with loc := 0, parked := [] })
      (bump QPC_FETCH_FAIL_CNT 1 (winFree (.qpContext n) (hostPoison (.qpContext n) (atTick now s)))))) := by
  simp [qpcFetchFailFx, found, live, fetching]

end

/-- Settles O42: the commands act as `receive_layout` has it, on a resident context or by waiting for it, and a fetch ends by the equations
above. -/
theorem queuePairsLiveAndEnd : Obligations.QueuePairsLiveAndEnd := by
  refine ⟨?create, ?modify, ?shaper, fun s p q h params small found => ?destroy, fun s n now q live found fetching =>
    ⟨congrArg Host.Outcome.next (qpcFetchCompleteFx_fetching now live found fetching),
      congrArg Host.Outcome.next (qpcFetchFailFx_fetching now live found fetching)⟩⟩
  case create =>
    rintro s p u v w rfl h layout domain new room rfl rfl
    exact congrArg Host.Outcome.next ((receive_layout 0x48 (createAct p) h layout).trans (createAct_new domain new room))
  case modify =>
    rintro s p q u rfl h params small record found
    have act := receive_layout 0x49 (onContext (0x49, p)) h
      (layout := paramsZero p true false false false && decide (p.p0 < 2 ^ 20) && recOk p.payload)
      (by simp only [params, small, record, decide_true, Bool.and_self])
    refine ⟨fun out => congrArg Host.Outcome.next (act.trans (onContext_waits found out)), fun v resident pin moves => ?_⟩
    exact congrArg Host.Outcome.next ((act.trans (onContext_resident found resident)).trans (modifyNow_moves found pin moves))
  case shaper =>
    rintro s p q u rfl h params small record found
    have act := receive_layout 0x59 (onContext (0x59, p)) h
      (layout := paramsZero p true false false false && decide (p.p0 < 2 ^ 20) && shaperOk p.payload)
      (by simp only [params, small, record, decide_true, Bool.and_self])
    refine ⟨fun out => congrArg Host.Outcome.next (act.trans (onContext_waits found out)), fun resident => ?_⟩
    exact congrArg Host.Outcome.next ((act.trans (onContext_resident found resident)).trans (shaperNow_held found))
  case destroy =>
    have act := receive_layout 0x4A (destroyAct p) h (layout := paramsZero p true false false false && decide (p.p0 < 2 ^ 20))
      (by simp only [params, small, decide_true, Bool.and_self])
    exact congrArg Host.Outcome.next (act.trans (destroyAct_held found))

/-! ## Buffers (R368, R369) -/

/-- RECV.POST on a queue pair that takes packets appends buffers whose keys are good, up to 256 of them. -/
theorem recvAct_fits {p : Pkt} {s : State} {q : Qp} (found : qpOf s p.p0 = some q) (open' : q.state = 1 ∨ q.state = 2)
    (few : q.posted.length + ((records 16 p.payload).map bufferRec).length ≤ 256)
    (keys : (((records 16 p.payload).map bufferRec).all fun x => (bufferKey s q.pd x x.len).isSome) = true) :
    recvAct p s = ok 0x4E p 0
      (modQp p.p0 (fun q => { q with posted := q.posted ++ (records 16 p.payload).map bufferRec }) (wakeQp p.p0 s)) := by
  have takes : (q.state = 0 || q.state = 3) = false := by
    rcases open' with init | rts
    · simp [init]
    · simp [rts]
  simp only [recvAct, found, takes, few.not_gt, keys, decide_false, Bool.false_eq_true, if_false, if_true]

/-- A message whose buffer holds it, under a good key, is placed there, answered, and completed. -/
theorem sendAct_fits {p : Pkt} {s : State} {n d port : Nat} {q : Qp} {x : Posted} {g : Region} (path : p.path = .fabric n d port)
    (found : qpOf s n = some q) (bound : boundOf q p.tag = some x) (fits : p.payload.length ≤ x.len)
    (key : bufferKey s q.pd x p.payload.length = some g) :
    sendAct p s = boundDone n p p.payload.length stOk (ok 0x4F p 0 (bufferPlace x g p.payload s)) := by
  simp only [sendAct, path, found, Option.bind_some, bound, Option.map_some, fits.not_gt, key, decide_false, Bool.false_eq_true, if_false]

/-- A SEND in its layout that the checks of R312 let pass does no more than its reception. -/
theorem sendMsgFx_passes {p : Pkt} {s : State} {n d port : Nat} (path : p.path = .fabric n d port)
    (params : paramsZero p true false false false = true) (passes : firstFail (atTick p.now s) rowSend p = none) :
    sendMsgFx p s = receive rowSend p (orFormat (paramsZero p true false false false) 0x4F p (sendAct p)) s := by
  simp only [sendMsgFx, path, passes, params, if_true, ite_self]

/-- Settles O43: both commands act as `receive_layout` has it, by the equation of their case. -/
theorem messagesReachBuffers : Obligations.MessagesReachBuffers := by
  refine ⟨?post, ?send⟩
  case post =>
    rintro s p q u l rfl h params small whole rfl layout found open' few keys
    have act := receive_layout 0x4E (recvAct p) h (layout := paramsZero p true false false false && decide (p.p0 < 2 ^ 20) &&
      p.payload.length % 16 = 0 && ((records 16 p.payload).map bufferRec).all bufferOk)
      (by simp only [params, small, whole, layout, decide_true, Bool.and_self])
    exact congrArg Host.Outcome.next (act.trans (recvAct_fits found open' few keys))
  case send =>
    rintro s p n d port q x g u rfl h path params found bound fits key passes
    exact congrArg Host.Outcome.next ((sendMsgFx_passes path params passes).trans
      ((receive_layout 0x4F (sendAct p) h params).trans (sendAct_fits path found bound fits key)))

end Sys2Proof.Machine
end

section
/-! PROOF. How an UP port's frames reach a queue pair (O24), and how the timers of its transport act (O25). -/
namespace Sys2Proof.Machine

/-! ## Data frames on a resident context (R353, R362, R366) -/

/-- A resident context needs no waking. -/
theorem wakeQp_resident {s : State} {n : Nat} {q : Qp} (found : qpOf s n = some q) (resident : q.loc = 0) : wakeQp n s = s := by
  simp [wakeQp, needSlot, found, resident]

/-- A data frame for this device and a queue pair in INIT or RTS, whose context is resident, is taken by its class. -/
theorem dataFx_resident {s : State} {f : Fab} {q : Qp} (tcs : Bool) (up : portUp s f.port = true) (here : f.dstDev = s.dev.deviceId)
    (found : qpOf s f.dstQp = some q) (takes : q.state = 1 ∨ q.state = 2) (resident : q.loc = 0) :
    dataFx tcs f s = if tcs then tcsAccept f (bump (FAB_PORT_RX_FRAMES f.port) 1 (atTick f.now s))
      else tclAccept f (bump (FAB_PORT_RX_FRAMES f.port) 1 (atTick f.now s)) := by
  have known : qpOf (bump (FAB_PORT_RX_FRAMES f.port) 1 (atTick f.now s)) f.dstQp = some q := found
  have addressed : f.dstDev = (atTick f.now s).dev.deviceId := here
  have notReset : q.state ≠ 0 := by omega
  have notError : q.state ≠ 3 := by omega
  simp only [dataFx, portUp_atTick, up, addressed, known, notReset, notError, toContext, wakeQp_resident known resident, resident,
    Bool.not_true, Bool.false_eq_true, ne_eq, not_true_eq_false, if_false, if_true]

section
variable {s : State} {f : Fab} {q : Qp} (found : qpOf s f.dstQp = some q)
include found

/-- The TC-L packet with the expected PSN is accepted, and an ACK is owed for it. -/
theorem tclAccept_expected (expected : f.psn = q.expPsn) (serves : s.err.restarting = false) (noGateway : f.opcode ≠ 0x53)
    (few : q.ackOwed < 7) :
    tclAccept f s = modQp f.dstQp (fun q => { q with
      expPsn := (q.expPsn + 1) % 2 ^ 24, nakSent := false, lastUse := s.tick, ackOwed := q.ackOwed + 1,
      ackSince := if q.ackOwed = 0 then s.tick else q.ackSince }) s := by
  have inOrder : (f.psn + 2 ^ 24 - q.expPsn) % 2 ^ 24 = 0 := by omega
  have room : gwRoom s f = true := by simp [gwRoom, noGateway]
  have notFull : ¬ 8 ≤ q.ackOwed + 1 := by omega
  have note : ∀ t, gwNote f t = t := fun t => by simp [gwNote, noGateway]
  simp only [tclAccept, found, inOrder, serves, room, note, notFull, ne_eq, not_true_eq_false, decide_false, Bool.false_and, Bool.not_true,
    Bool.false_eq_true, if_false]

/-- One ahead of it is discarded with one NAK SEQ. -/
theorem tclAccept_ahead (ahead : 1 ≤ (f.psn + 2 ^ 24 - q.expPsn) % 2 ^ 24) (near : (f.psn + 2 ^ 24 - q.expPsn) % 2 ^ 24 < 2 ^ 23)
    (first : q.nakSent = false) :
    tclAccept f s = sendNak f.dstQp q.expPsn .seq (modQp f.dstQp (fun q => { q with nakSent := true }) s) := by
  have outOfOrder : (f.psn + 2 ^ 24 - q.expPsn) % 2 ^ 24 ≠ 0 := by omega
  simp only [tclAccept, found, outOfOrder, near.not_ge, first, ne_eq, not_false_eq_true, decide_true, decide_false, Bool.and_false,
    Bool.false_eq_true, if_false, if_true]

end

/-! ## Acknowledgements (R359, R363) -/

/-- A control frame for a queue pair in INIT or RTS counts on its port alone. -/
theorem controlIn_takes {s : State} {n : Nat} {q : Qp} (port late : Nat) (found : qpOf s n = some q) (takes : q.state = 1 ∨ q.state = 2) :
    controlIn port n late s = bump (FAB_PORT_RX_FRAMES port) 1 s := by
  have known : qpOf (bump (FAB_PORT_RX_FRAMES port) 1 s) n = some q := found
  have notReset : q.state ≠ 0 := by omega
  have notError : q.state ≠ 3 := by omega
  simp [controlIn, strayFrame, known, notReset, notError]

/-- The count of packets from `a` to a PSN `k` after it, around the numbers. -/
theorem psn_distance {a k : Nat} (ha : a < 2 ^ 24) (hk : k < 2 ^ 24) : ((a + k) % 2 ^ 24 + 2 ^ 24 - a) % 2 ^ 24 = k := by omega

section
variable {s : State} {n : Nat} {q : Qp} (found : qpOf s n = some q) (takes : q.state = 1 ∨ q.state = 2)
include found takes

/-- An ACK releases the packets up to its PSN, and the window takes what waited. -/
theorem ackFx_covers {k : Nat} (covers : k < q.unacked.length) (psn : q.ackedPsn < 2 ^ 24) (small : k < 2 ^ 24) :
    ackFx n ((q.ackedPsn + k) % 2 ^ 24) s =
      windowRefill n ((doneWork ((q.unacked.take (k + 1)).map (·.what)) ((q.unacked.drop (k + 1)).map (·.what) ++ q.queued.map (·.2.1))).foldl
        (fun t w => txDone w t) (modQp n (fun p => { p with unacked := q.unacked.drop (k + 1), ackedPsn := ((q.ackedPsn + k) % 2 ^ 24 + 1) % 2 ^ 24,
                                                            retry := 0, lastUse := s.tick }) s)) := by
  have notReset : q.state ≠ 0 := by omega
  have notError : q.state ≠ 3 := by omega
  simp only [ackFx, found, psn_distance psn small, notReset, notError, covers.not_ge, decide_false, Bool.or_self, Bool.false_eq_true, if_false]

/-- A NAK acts by its code. -/
theorem nakFx_takes (port psn : Nat) (code : NakCode) :
    nakFx n port psn code s = match code with
      | .seq => tclRetry n psn s
      | .noContext => modQp n (fun q => { q with resend := some (s.tick + usTicks 5, psn) }) s
      | .noQp => qpError n 3 s
      | .qpError => qpError n 3 s
      | .unreachable => leaveOut n port s := by
  have notReset : q.state ≠ 0 := by omega
  have notError : q.state ≠ 3 := by omega
  cases code <;> simp only [nakFx, found, notReset, notError, decide_false, Bool.or_self, Bool.false_eq_true, if_false]

end

section
variable {s : State} {n : Nat} {q : Qp} {o : TcsOut} (found : qpOf s n = some q)
  (sent : q.tcsOut.find? (fun x => x.msgId = o.msgId) = some o)
include found sent

/-- A SACK COMPLETE completes its message. -/
theorem sackFx_complete (base : Nat) (busy : Bool) (l : List Nat) : sackFx n o.msgId base true busy l s =
    txDone o.what (modQp n (fun q => { q with tcsOut := q.tcsOut.filter fun x => x.msgId ≠ o.msgId, lastUse := s.tick }) s) := by
  simp only [sackFx, found, Option.bind_some, sent, if_true]

/-- Any other SACK with a buffer takes the packets that it covers off the message. -/
theorem sackFx_covers (base : Nat) (l : List Nat) : sackFx n o.msgId base false false l s =
    modQp n (fun q => { q with tcsOut := q.tcsOut.map fun x =>
      if x.msgId = o.msgId then { x with open' := x.open'.filter fun p => !(l.any fun i => base + i = p.idx) } else x }) s := by
  simp only [sackFx, found, Option.bind_some, sent, Bool.false_eq_true, if_false]

end

/-- Settles O24: a data frame reaches its context as `dataFx_resident` has it, a control frame its queue pair as `controlIn_takes` has
it, and each then acts by the equation of its case. -/
theorem framesAreTaken : Obligations.FramesAreTaken := by
  refine ⟨fun s f q up here found takes resident => ?data, fun s n port now q up found takes => ?control⟩
  case data =>
    have known : qpOf (bump (FAB_PORT_RX_FRAMES f.port) 1 (atTick f.now s)) f.dstQp = some q := found
    have reaches := fun tcs => dataFx_resident tcs up here found takes resident
    refine ⟨fun expected serves noGateway few => ?_, fun ahead near first => ?_, congrArg Host.Outcome.next (reaches true)⟩
    · exact congrArg Host.Outcome.next ((reaches false).trans (tclAccept_expected known expected serves noGateway few))
    · exact congrArg Host.Outcome.next ((reaches false).trans (tclAccept_ahead known ahead near first))
  case control =>
    intro t
    have known : qpOf t n = some q := found
    have counted : ∀ late, controlIn port n late (atTick now s) = t := fun late => controlIn_takes port late found takes
    have ack : ∀ psn, exec (.ackReceived n port psn now) s = .next (ackFx n psn t) := fun psn => by
      rw [exec_ackReceived, execAckReceived, ackReceivedFx, portUp_atTick, if_pos up, counted]
    have nak : ∀ psn code, exec (.nakReceived n port psn now code) s = .next (nakFx n port psn code (bump FAB_TCL_NAK_RX 1 t)) :=
      fun psn code => by rw [exec_nakReceived, execNakReceived, nakReceivedFx, portUp_atTick, if_pos up, counted]
    have sack : ∀ id base complete busy l, exec (.sackReceived n port id base now complete busy l) s =
        .next (sackFx n id base complete busy l t) := fun id base complete busy l => by
      rw [exec_sackReceived, execSackReceived, sackReceivedFx, portUp_atTick, if_pos up, counted]
    have acts : ∀ psn code, nakFx n port psn code (bump FAB_TCL_NAK_RX 1 t) = _ := nakFx_takes (s := bump FAB_TCL_NAK_RX 1 t) known takes port
    refine ⟨fun k covers psn small => (ack _).trans (congrArg Host.Outcome.next (ackFx_covers known takes covers psn small)),
      fun psn => ?_, fun psn => ?_, fun psn => ?_, fun psn => ?_, fun psn => ?_, fun o base busy l sent => ?_, fun o base l sent => ?_⟩
    · exact (nak psn .seq).trans (congrArg Host.Outcome.next (acts psn .seq))
    · exact (nak psn .noContext).trans (congrArg Host.Outcome.next (acts psn .noContext))
    · exact (nak psn .noQp).trans (congrArg Host.Outcome.next (acts psn .noQp))
    · exact (nak psn .qpError).trans (congrArg Host.Outcome.next (acts psn .qpError))
    · exact (nak psn .unreachable).trans (congrArg Host.Outcome.next (acts psn .unreachable))
    · exact (sack o.msgId base true busy l).trans (congrArg Host.Outcome.next (sackFx_complete known sent base busy l))
    · exact (sack o.msgId base false false l).trans (congrArg Host.Outcome.next (sackFx_covers known sent base l))

/-! ## Timers (R357 to R363) -/

section
variable {s : State} {n now : Nat} {q : Qp} (live : alive s = true) (found : qpOf s n = some q)
include live found

theorem tclAckTimeoutFx_due {psn : Nat} (due : tclDue (atTick now s) n q = some psn) (noAck : ackArrives (atTick now s) n q = false) :
    tclAckTimeoutFx n now s = tclRetry n psn (atTick now s) := by
  simp [tclAckTimeoutFx, live, found, due, noAck]

theorem tclAckDelayExpireFx_owed (owed : q.ackOwed ≠ 0) (late : q.ackSince + usTicks 2 ≤ max s.tick now) :
    tclAckDelayExpireFx n now s = sendAck n (atTick now s) := by
  simp [tclAckDelayExpireFx, live, found, owed, late]

theorem tclNoContextResendFx_planned {at' psn : Nat} (planned : q.resend = some (at', psn)) (due : at' ≤ max s.tick now) :
    tclNoContextResendFx n now s = tclResend n psn (modQp n (fun q => { q with resend := none }) (atTick now s)) := by
  simp [tclNoContextResendFx, live, found, planned, due]

section
variable {id i : Nat} {o : TcsOut} {x : TcsPkt} (sent : q.tcsOut.find? (fun o => o.msgId = id) = some o)
  (uncovered : o.open'.find? (fun p => p.idx = i) = some x)
include sent uncovered

/-- A TC-S packet whose SACK is late, and not in this tick's queue, is resent. -/
theorem tcsRetransmitTimeoutFx_late (late : x.sentAt + usTicks (regField s FAB_TMO 25 16) ≤ max s.tick now)
    (noFrame : frameWaits s n true id i = false) (noSack : sackArrives (atTick now s) n id i = false) :
    tcsRetransmitTimeoutFx n id i now s = tcsResend n id i q x (atTick now s) := by
  simp [tcsRetransmitTimeoutFx, live, found, sent, uncovered, late, noFrame, noSack]

omit live found uncovered in
/-- While a retry and a port are left, a packet is resent on its next path, its retry counted. -/
theorem tcsResend_left (left : x.retries < retryLimit s) (port : allExcluded s q.peerDev = false) :
    tcsResend n id i q x s =
      let t := modQp n (fun q => { q with tcsOut := q.tcsOut.map fun o => if o.msgId = id then { o with open' := o.open'.map fun p =>
        if p.idx = i then { p with retries := p.retries + 1, sentAt := s.tick } else p } else o }) s
      queueFrame (pathPort t q.peerDev (sprayPath t q i (x.retries + 1)))
        ⟨n, true, id, i, x.bytes, true, s.tick, o.budget, sprayPath t q i (x.retries + 1), pktCountOf i o.count⟩ t := by
  simp only [tcsResend, port, left.not_ge, sent, Option.map_some, Option.getD_some, Bool.false_eq_true, if_false]

end

section
variable {id : Nat} {t : TcsIn} (tracked : q.tcsIn.find? (fun t => t.msgId = id) = some t)
include tracked

theorem tcsSackTimerFx_fresh (fresh : t.fresh = true) (due : t.sackAt ≤ max s.tick now) :
    tcsSackTimerFx n id now s = sendSack n id false false t.placed (modQp n (fun q => { q with tcsIn := q.tcsIn.map fun x =>
      if x.msgId = id then { x with sackAt := t.sackAt + usTicks 8, fresh := false } else x }) (atTick now s)) := by
  simp [tcsSackTimerFx, live, found, tracked, fresh, due]

/-- A message that is not whole in time, and binds no buffer, is closed, and its number counts as completed. -/
theorem tcsAssemblyTimeoutFx_late (noBuffer : t.buffer = none)
    (late : t.firstAt + usTicks (regField s FAB_ASM_TMO 13 0) ≤ max s.tick now) (noPacket : asmArrives (atTick now s) n t = false) :
    tcsAssemblyTimeoutFx n id now s =
      bump FAB_ASM_TMO_CNT 1 (modQp n (fun q => msgClosed id { q with tcsIn := q.tcsIn.filter fun x => x.msgId ≠ id, tcsLate := id :: q.tcsLate })
        (msgClose n t.src t.opcode t.tag (atTick now s))) := by
  simp [tcsAssemblyTimeoutFx, live, found, tracked, noBuffer, late, noPacket]

end

end

/-- Settles O25: each timer by the equation of its late case. -/
theorem transportTimersAct : Obligations.TransportTimersAct := by
  refine fun s n now live => ⟨fun q psn found due noAck => ?ack, fun q found owed late => ?delay, fun q at' psn found planned due => ?resend,
    fun q id i o x found sent uncovered late noFrame noSack left port => ⟨_, ?packet, rfl⟩,
    fun q id t found tracked fresh due => ?sack, fun q id t found tracked noBuffer late noPacket => ?assembly, fun port dest => ?port⟩
  case ack => exact congrArg Host.Outcome.next (tclAckTimeoutFx_due live found due noAck)
  case delay => exact congrArg Host.Outcome.next (tclAckDelayExpireFx_owed live found owed late)
  case resend => exact congrArg Host.Outcome.next (tclNoContextResendFx_planned live found planned due)
  case packet =>
    have resent := tcsResend_left (s := atTick now s) (n := n) (i := i) sent left port
    exact congrArg Host.Outcome.next ((tcsRetransmitTimeoutFx_late live found sent uncovered late noFrame noSack).trans resent)
  case sack => exact congrArg Host.Outcome.next (tcsSackTimerFx_fresh live found tracked fresh due)
  case assembly => exact congrArg Host.Outcome.next (tcsAssemblyTimeoutFx_late live found tracked noBuffer late noPacket)
  case port => exact congrArg Host.Outcome.next (if_pos live)

end Sys2Proof.Machine
end

section
/-! PROOF. How a fabric port trains (O31), and what an UP port does with its frames (O32). -/
namespace Sys2Proof.Machine

/-! ## Training (R344, R345) -/

/-- A port whose time in a state is over. -/
theorem portDue_late {s : State} {p st ms now : Nat} (live : alive s = true) (port : p < 8) (state : (portOf s p).state = st)
    (late : (portOf s p).since + msTicks ms ≤ max s.tick now) : portDue (atTick now s) p st ms = true := by
  simp [portDue, live, port, state, late]

section
variable {s : State} {p : Nat} (live : alive s = true) (port : p < 8)
include live port

theorem execPortSignalDetect_detect (detect : (portOf s p).state = 1) : execPortSignalDetect p s =
    .next (lanesSet p 2 (modPort p (fun q => { q with state := 2, since := s.tick, slow := false }) s)) := by
  simp [execPortSignalDetect, live, port, detect]

/-- Lanes that lock in TRAIN, at a rate that may lock, give the port its width. -/
theorem execPortLaneLock_train {lanes : List Nat} {fast : Bool} {up : Nat}
    (locked : up = bitmap 4 fun l => lanes.contains l && !bit (portOf s p).lanesDis l) (train : (portOf s p).state = 2)
    (some' : up ≠ 0) (rate : fast = true ∨ (portOf s p).slow = true) :
    execPortLaneLock p lanes fast s = .next ((bitsOf 4 up).foldl (fun t l => laneSet p l 1 t)
      (modPort p (fun q => { q with state := 3, since := s.tick, lanesUp := up, width := widthOf up }) s)) := by
  have may : (fast || (portOf s p).slow) = true := by simpa using rate
  simp only [execPortLaneLock, ← locked, live, port, train, some', may, decide_true, Bool.and_self, ne_eq, not_false_eq_true, if_true]

theorem execPortNegotiateDone_negotiate (now major minor plane : Nat) (negotiate : (portOf s p).state = 3) :
    execPortNegotiateDone p now major minor plane s =
      .next (if linkSpoken major minor then negotiated p major minor plane (atTick now s) else attemptFailed p (atTick now s)) := by
  simp [execPortNegotiateDone, live, port, negotiate]

/-- A lane that loses lock is retrained, and leaves the lanes of its port. -/
theorem execLaneLossOfLock_up {l : Nat} (now : Nat) (lane : l < 4) (up : bit (portOf s p).lanesUp l = true) :
    execLaneLossOfLock p l now s = .next (laneLossPort p ((lanesUsed (portOf s p).lanesUp).contains l)
      (modPort p (fun q => { q with lanesUp := setBits q.lanesUp l l 0 }) (laneRetrained p l (atTick now s)))) := by
  simp [execLaneLossOfLock, live, port, lane, up]

/-- A retrained lane that locks again joins the lanes of its port. -/
theorem execLaneRetrainLock_retrained {l : Nat} (lane : l < 4) (retrained : s.fab.lanes.getD (4 * p + l) 0 = 2)
    (trained : (portOf s p).state = 3 ∨ (portOf s p).state = 4) :
    execLaneRetrainLock p l s = .next (laneSet p l 1 (modPort p (fun q =>
      { q with lanesUp := setBits q.lanesUp l l 1, width := widthOf (setBits q.lanesUp l l 1) }) s)) := by
  have low : 3 ≤ (portOf s p).state := by omega
  have high : (portOf s p).state ≤ 4 := by omega
  simp only [execLaneRetrainLock, live, port, lane, retrained, low, high, decide_true, Bool.and_self, if_true]

theorem execPortRetrainWrite_heard : execPortRetrainWrite p s = .next (retrainFx p s) := by
  simp [execPortRetrainWrite, hostHeard, live, port]

end

/-- Settles O31: each event by the equation of the state in which it finds the port. -/
theorem portsTrain : Obligations.PortsTrain := by
  refine fun s p now live port => ⟨execPortSignalDetect_detect live port, fun lanes fast up => execPortLaneLock_train live port,
    fun major minor plane negotiate spoken => ?agreed, fun major minor plane negotiate unspoken => ?refused,
    fun late train => congrArg Host.Outcome.next (if_pos (portDue_late live port train late)),
    fun late => ⟨fun detect => congrArg Host.Outcome.next (if_pos (portDue_late live port detect late)),
      fun train => congrArg Host.Outcome.next (if_pos (portDue_late live port train late))⟩,
    fun late negotiate => congrArg Host.Outcome.next (if_pos (portDue_late live port negotiate late)),
    fun l lane up => execLaneLossOfLock_up live port now lane up,
    fun l lane retrained trained => execLaneRetrainLock_retrained live port lane retrained trained, fun up => ?retrain, fun left => ?again⟩
  case agreed =>
    exact (execPortNegotiateDone_negotiate live port now major minor plane negotiate).trans (congrArg Host.Outcome.next (if_pos spoken))
  case refused =>
    exact (execPortNegotiateDone_negotiate live port now major minor plane negotiate).trans
      (congrArg Host.Outcome.next (if_neg (by simp [unspoken])))
  case retrain => exact (execPortRetrainWrite_heard live port).trans (congrArg Host.Outcome.next (by simp only [retrainFx, up]))
  case again =>
    refine (execPortRetrainWrite_heard live port).trans (congrArg Host.Outcome.next ?_)
    rcases left with miswired | down
    · simp only [retrainFx, miswired]
    · simp only [retrainFx, down]

/-! ## Link control (R349 to R351) -/

section
variable {s : State} {p : Nat} (up : portUp s p = true)
include up

theorem execKeepaliveSend_due {now : Nat} (due : (portOf s p).kaTx + usTicks 100 ≤ max s.tick now) : execKeepaliveSend p now s =
    .next (frameOut (some p) (0, 0) (.keepalive p (max s.tick now) (portOf s p).partnerTick
        (if (portOf s p).partnerTick = 0 then 0 else max s.tick now - (portOf s p).kaRx))
      (modPort p (fun q => { q with kaTx := max s.tick now }) (atTick now s))) :=
  congrArg Host.Outcome.next (if_pos (by simp [up, due]))

theorem execKeepaliveReceived_up {plane : Nat} (now tx echo hold : Nat) (legal : plane < 16) :
    execKeepaliveReceived p now plane tx echo hold s = .next (bump (FAB_PORT_RX_FRAMES p) 1
      (modPort p (fun q => { q with partnerTick := tx, kaRx := max s.tick now, kaMiss := 0,
                                    delay := delayAfter q.delay (max s.tick now) echo hold }) (atTick now s))) := by
  simp [execKeepaliveReceived, up, legal]

/-- A KEEPALIVE that is missing is counted; the third one starts training again. -/
theorem execKeepaliveMiss_late {now : Nat} (late : (portOf s p).kaRx + usTicks 100 * ((portOf s p).kaMiss + 1) ≤ max s.tick now) :
    execKeepaliveMiss p now s =
      let t := bump (FAB_PORT_KA_MISS p) 1 (modPort p (fun q => { q with kaMiss := q.kaMiss + 1 }) (atTick now s))
      .next (if (portOf s p).kaMiss = 2 then portRetrain p (record { cause := 0x26, cls := 0, kind := 7, unit := p, c0 := 1 } t) else t) :=
  congrArg Host.Outcome.next (if_pos (by simp [up, late]))

theorem execPauseReceived_up {time : Nat} (now : Nat) (tcl tcs : Bool) (pauses : time ≠ 0) : execPauseReceived p now tcl tcs time s =
    .next (bump (FAB_PORT_PAUSE_RX p) 1 (bump (FAB_PORT_RX_FRAMES p) 1
      (modPort p (fun q => { q with pauseTcl := if tcl then some (max s.tick now + time) else q.pauseTcl,
                                    pauseTcs := if tcs then some (max s.tick now + time) else q.pauseTcs }) (atTick now s)))) := by
  simp [execPauseReceived, up, pauses]

end

/-! ## Frames that start (R350, R416) -/

section
variable {s : State} {p : Nat} {f : TxFrame} {l : List TxFrame} (k : Nat) (passes : shapedOut s f = false)
include passes

/-- The first TC-L frame starts where tokens, pause and credits let it go. -/
theorem startTcl_passes (first : (portOf s p).tcl = f :: l) (noPause : (portOf s p).pauseTcl = none)
    (credit : frameCredits f.bytes ≤ creditsLeft (portOf s p)) :
    startTcl p (k + 1) s = startFrame p f (creditWaited p (modPort p (fun q => { q with tcl := l }) s)) := by
  have enough : creditShort s p = false := by simp [creditShort, first, credit]
  simp only [startTcl, first, passes, noPause, enough, Option.isSome_none, Bool.false_eq_true, if_false]

/-- The first TC-S frame starts where tokens, pause, TC-L and the gates let it go. -/
theorem startTcs_passes (first : (portOf s p).tcs = f :: l) (noPause : (portOf s p).pauseTcs = none) (noTcl : tclReady s p = false)
    (gates : gateAllows s p f.bytes = true) :
    startTcs p (k + 1) s = startFrame p f (modPort p (fun q => { q with tcs := l }) s) := by
  simp only [startTcs, first, passes, noPause, noTcl, gates, Option.isSome_none, Bool.not_true, Bool.or_self, Bool.false_eq_true, if_false]

end

/-- Eight ticks after its last move the wheel moves on one slot. -/
theorem execShaperWheelSlot_next {s : State} {now : Nat} (live : alive s = true) (eight : max s.tick now = s.sched.wheelAt + 8) :
    execShaperWheelSlot now s = .next (modSched (fun c => { c with wheelAt := s.sched.wheelAt + 8, cursor := (s.sched.cursor + 1) % 4096 })
      (wheelStep (atTick now s))) := by
  have one : ((atTick now s).tick - (atTick now s).sched.wheelAt) / 8 = 1 := by
    show (max s.tick now - s.sched.wheelAt) / 8 = 1
    omega
  simp only [execShaperWheelSlot, alive_atTick, live, one, if_true]
  rfl

/-- Settles O32: each event of an UP port by the equation of its case. -/
theorem linkLayerRuns : Obligations.LinkLayerRuns := by
  refine fun s p now up => ⟨?send, fun plane tx echo hold legal => execKeepaliveReceived_up up now tx echo hold legal,
    fun late => ⟨_, rfl, execKeepaliveMiss_late up late⟩, fun n => congrArg Host.Outcome.next (if_pos up),
    fun tcl tcs time pauses => execPauseReceived_up up now tcl tcs pauses, congrArg Host.Outcome.next (if_pos up),
    congrArg Host.Outcome.next (if_pos up), congrArg Host.Outcome.next (if_pos up), fun f l first passes noPause credit => ?tcl,
    fun f l first passes noPause noTcl gates => ?tcs, fun eight => execShaperWheelSlot_next ?live eight⟩
  case send =>
    rintro f rfl due
    exact execKeepaliveSend_due up due
  case tcl =>
    exact congrArg Host.Outcome.next ((if_pos up).trans (startTcl_passes (s := atTick now s) _ passes first noPause credit))
  case tcs =>
    exact congrArg Host.Outcome.next ((if_pos up).trans (startTcs_passes (s := atTick now s) _ passes first noPause noTcl gates))
  case live =>
    simp only [portUp, Bool.and_eq_true] at up
    exact up.1.1

end Sys2Proof.Machine
end

section
/-! PROOF. A line of the memory-semantic area is read and written in place (O40): an answer and the arrival of a store leave both memories
and the line's queues alone. -/
namespace Sys2Proof.Machine

/-! ## Response messages (R318) -/

theorem cqPackets_answering {s₀ s : State} (cq : Nat) (pk : TxPkt) (h : Answering s₀ s) : Answering s₀ (cqPackets cq pk s) := by
  unfold cqPackets
  induction cutPackets pk generalizing s with
  | nil => exact h
  | cons x l ih => exact ih (cqPost_answering _ _ h)

theorem tclSendAll_answering {s₀ s : State} (n : Nat) (what : TxWhat) (b : Budget) (l : List Nat) (h : Answering s₀ s) :
    Answering s₀ (tclSendAll n what b l s) := by
  induction l generalizing s with
  | nil => exact h
  | cons x l ih => exact ih (tclSend_answering _ _ _ _ h)

theorem ok_answering {s₀ s : State} (o v : Nat) (p : Pkt) (h : Answering s₀ s) : Answering s₀ (ok o p v s) := h.trans (ok_onlyParts o v p s)

/-- A response message and its final reply touch what a reply touches. -/
theorem respond_answering {s₀ s : State} (o v : Nat) (p : Pkt) (b : Bytes) (h : Answering s₀ s) : Answering s₀ (respond o p b v s) := by
  refine ok_answering o v p ?_
  cases p.path with
  | ring n => exact cqPackets_answering _ _ h.upd
  | fabric qp d port =>
    refine tclSendAll_answering _ _ _ _ (Answering.upd ?_)
    dsimp only
    split
    · exact h.upd
    · exact h
  | mbox => exact putWords_answering _ _ h.upd
  | mgmt n => exact h.upd
  | i3c => exact h.upd

/-! ## What an answer to an operation leaves (R384, R395) -/

/-- Both memories, the operations that wait for a line, and the poisoned lines are the same in both states. -/
structure SameLines (s t : State) : Prop where
  mem : t.mem = s.mem
  coreMem : t.coreMem = s.coreMem
  ingress : t.msa.ingress = s.msa.ingress
  poisoned : t.msa.poisoned = s.msa.poisoned

namespace SameLines

theorem refl (s : State) : SameLines s s := ⟨rfl, rfl, rfl, rfl⟩

theorem trans {s t u : State} (h : SameLines s t) (k : SameLines t u) : SameLines s u :=
  ⟨k.mem.trans h.mem, k.coreMem.trans h.coreMem, k.ingress.trans h.ingress, k.poisoned.trans h.poisoned⟩

theorem of_onlyParts {l : List Part} {s t : State} (h : OnlyParts l s t) (mem : .mem ∉ l) (coreMem : .coreMem ∉ l) (msa : .msa ∉ l) :
    SameLines s t :=
  have same : t.msa = s.msa := h .msa msa
  ⟨h .mem mem, h .coreMem coreMem, congrArg _ same, congrArg _ same⟩

theorem of_answering {s t : State} (h : Answering s t) : SameLines s t :=
  of_onlyParts h (by simp [answerParts]) (by simp [answerParts]) (by simp [answerParts])

end SameLines

theorem bump_sameLines (off k : Nat) (s : State) : SameLines s (bump off k s) := ⟨rfl, rfl, rfl, rfl⟩

theorem gatewayCheck_sameLines (batch : Nat) (s : State) : SameLines s (gatewayCheck batch s) := by
  unfold gatewayCheck
  split
  · exact .refl s
  next g _ =>
    split
    · exact .refl s
    · have gone : SameLines s (modMsa (fun m => { m with gwIn := tabDel m.gwIn batch }) s) := ⟨rfl, rfl, rfl, rfl⟩
      exact (gone.trans (.of_answering (respond_answering 0x53 0 g.pkt (gatewayBytes g) (OnlyParts.refl _ _)))).trans (bump_sameLines _ _ _)

/-- The answer ST_OK to an operation, to its packet or into its batch. -/
theorem msaAnswer_ok_sameLines (o : MsaOp) (result : Nat) (b : Bytes) (s : State) : SameLines s (msaAnswer o stOk result b s) := by
  unfold msaAnswer
  split
  next batch i _ =>
    have noted : SameLines s (modMsa (fun m => { m with gwIn := tabMod m.gwIn batch fun g => { g with done := g.done ++ [(i, stOk, b)] } }) s) :=
      ⟨rfl, rfl, rfl, rfl⟩
    exact noted.trans (gatewayCheck_sameLines batch _)
  next opcode p _ =>
    split
    · exact .of_answering (respond_answering opcode result p b (OnlyParts.refl _ s))
    · exact .of_answering (ok_onlyParts opcode result p s)

theorem modCore_onlyParts (f : CoreSt → CoreSt) (s : State) : OnlyParts [.core] s (modCore f s) := by
  intro part other
  cases part with
  | core => exact absurd List.mem_cons_self other
  | _ => rfl

theorem flagUp_onlyParts (m f : Nat) (s : State) : OnlyParts [.core] s (flagUp m f s) := modCore_onlyParts _ s

theorem OnlyParts.foldl {α : Type} {l : List Part} {g : State → α → State} (h : ∀ t x, OnlyParts l t (g t x)) (xs : List α) (s : State) :
    OnlyParts l s (xs.foldl g s) := by
  induction xs generalizing s with
  | nil => exact OnlyParts.refl l s
  | cons x xs ih => exact (h s x).trans (ih _)

theorem flagArrival_onlyParts (f : Nat) (s : State) : OnlyParts [.core] s (flagArrival f s) := by
  unfold flagArrival
  split
  · exact OnlyParts.foldl (fun t m => flagUp_onlyParts m f t) _ s
  · exact OnlyParts.refl _ s

/-- An arrival in memory advances flags, and nothing else (R139). -/
theorem inputArrived_onlyParts (a len : Nat) (s : State) : OnlyParts [.core] s (inputArrived a len s) := by
  unfold inputArrived
  split
  · exact OnlyParts.refl _ s
  · exact OnlyParts.foldl (fun t _ => flagArrival_onlyParts _ t) _ s

/-! ## Bytes written in place -/

theorem toLe_length (n v : Nat) : (toLe n v).length = n := by
  induction n generalizing v with
  | zero => rfl
  | succ n ih => exact congrArg Nat.succ (ih _)

/-- Bytes that are written read back. -/
theorem cellsRead_write_same (m : List Host.Cell) (a : Nat) (b : Bytes) : cellsRead (cellsWrite m a b) a b.length = b := by
  refine List.ext_getElem (by simp [cellsRead]) fun i _ inside => ?_
  simp [cellsRead, cellRead_write, inside]

/-- Every byte outside a write is as it was. -/
theorem cellRead_write_outside (m : List Host.Cell) {a x : Nat} (b : Bytes) (outside : x < a ∨ a + b.length ≤ x) :
    cellRead (cellsWrite m a b) x = cellRead m x := by
  rw [cellRead_write, if_neg (by omega)]

/-! ## The one operation of a line -/

/-- The state in which the one operation of a line is applied: its queue is empty. -/
def lineTaken (line now : Nat) (s : State) : State := modMsa (fun m => { m with lines := tabSet m.lines line [] [] }) (atTick now s)

/-- Operations that wait behind a port follow, where there are any. -/
def lineDrained (s : State) : State := ingressDrain s.msa.ingress [] s

theorem lineDrained_noWait {s : State} (noWait : s.msa.ingress = []) : lineDrained s = s := by
  unfold lineDrained
  rw [noWait]
  rfl

section
variable {s : State} {line now : Nat} {o : MsaOp} (live : alive s = true) (only : lineQueue s line = [o])
include live only

theorem msaLineApplyFx_load (kind : o.kind = .load) :
    msaLineApplyFx line now s = lineDrained (applyLoad line o (lineTaken line now s)) := by
  have noRun : storeRun [o] = [] := by simp [storeRun, isStore, kind]
  simp only [msaLineApplyFx, alive_atTick, live, lineQueue_atTick, only, noRun, kind, List.isEmpty_nil, Bool.not_true, Bool.false_eq_true,
    if_false, if_true]
  rfl

theorem msaLineApplyFx_store {d : Bytes} (kind : o.kind = .store d) :
    msaLineApplyFx line now s = lineDrained (applyRun line [o] (lineTaken line now s)) := by
  have run : storeRun [o] = [o] := by simp [storeRun, isStore, kind]
  simp only [msaLineApplyFx, alive_atTick, live, lineQueue_atTick, only, run, kind, List.isEmpty_cons, Bool.not_true, Bool.false_eq_true,
    if_false]
  rfl

theorem msaLineApplyFx_atomic {op v w off k : Nat} (kind : o.kind = .atomic op v w off k) :
    msaLineApplyFx line now s = lineDrained (applyAtomic line op v w off k o (lineTaken line now s)) := by
  have noRun : storeRun [o] = [] := by simp [storeRun, isStore, kind]
  simp only [msaLineApplyFx, alive_atTick, live, lineQueue_atTick, only, noRun, kind, List.isEmpty_nil, Bool.not_true, Bool.false_eq_true,
    if_false, if_true]
  rfl

end

/-- A line that is not poisoned, in the list of poisoned lines. -/
theorem linePoisoned_eq_false {s : State} {line : Nat} (cleanLine : line ∉ s.msa.poisoned) : linePoisoned s line = false := by
  simpa [linePoisoned] using cleanLine

/-- A load of a clean line is answered with its bytes (R384). -/
theorem applyLoad_clean {s : State} {line : Nat} (o : MsaOp) (cleanLine : line ∉ s.msa.poisoned) :
    applyLoad line o s = msaAnswer o stOk 0 (lineRead s line) (bump MSA_LOAD_CNT 1 s) := by
  simp only [applyLoad, linePoisoned_eq_false cleanLine, Bool.false_eq_true, if_false]

/-- An atomic on a clean line leaves the new word and is answered with the old one (R385). -/
theorem applyAtomic_clean {s : State} {line : Nat} (op v w off k : Nat) (o : MsaOp) (cleanLine : line ∉ s.msa.poisoned) :
    applyAtomic line op v w off k o s = msaAnswer o stOk (leNat (slice (lineRead s line) off 8)) []
      (bump MSA_MULT_SUM k (bump MSA_ATOMIC_CNT 1
        (lineWrite line off (toLe 8 (atomicNew op v w k (leNat (slice (lineRead s line) off 8)))) s))) := by
  simp only [applyAtomic, linePoisoned_eq_false cleanLine, Bool.false_eq_true, if_false]

/-- The state that a store leaves before its answer: its data in the line, which is clean, and its counts (R383, R389). -/
def lineStored (line : Nat) (d : Bytes) (s : State) : State :=
  bump MSA_ABSORB_CNT 0 (bump MSA_STORE_CNT 1 (modMsa (fun m => { m with poisoned := m.poisoned.filter (· ≠ line) }) (lineWrite line 0 d s)))

/-- One store leaves its data in the line; its answer and its arrival leave the lines. -/
theorem applyRun_single {o : MsaOp} {d : Bytes} (line : Nat) (s : State) (kind : o.kind = .store d) :
    SameLines (lineStored line d s) (applyRun line [o] s) := by
  have value : runValue [o] = d := by
    obtain ⟨k, e, c, f⟩ := o
    cases kind
    rfl
  have answered := msaAnswer_ok_sameLines o 0 [] (lineStored line d s)
  unfold applyRun
  rw [value]
  show SameLines _ (if opFabric o then _ else _)
  split
  · exact answered.trans (.of_onlyParts (inputArrived_onlyParts _ _ _) (by simp) (by simp) (by simp))
  · exact answered

/-- Settles O40: the operation is applied by its kind, and its answer leaves the memories and the queues (`SameLines`). -/
theorem linesAreAppliedInPlace : Obligations.LinesAreAppliedInPlace := by
  intro s line now o live only noWait a
  refine ⟨fun kind cleanLine => ?load, fun d kind whole => ?store, fun op v w off k kind inside cleanLine => ?atomic⟩
  case load =>
    have applied := applyLoad_clean (s := lineTaken line now s) o cleanLine
    have same := (bump_sameLines MSA_LOAD_CNT 1 (lineTaken line now s)).trans (msaAnswer_ok_sameLines o 0 (lineRead s line) _)
    have noWait' : (applyLoad line o (lineTaken line now s)).msa.ingress = [] := by
      rw [applied]
      exact same.ingress.trans noWait
    refine ⟨_, bump MSA_LOAD_CNT 1 (lineTaken line now s), congrArg Host.Outcome.next ((msaLineApplyFx_load live only kind).trans
      ((lineDrained_noWait noWait').trans applied)), rfl, fun x => ?_, same.coreMem⟩
    exact congrArg (fun m => cellRead m x) same.mem
  case store =>
    have same := applyRun_single line (lineTaken line now s) kind
    have noWait' : (applyRun line [o] (lineTaken line now s)).msa.ingress = [] := same.ingress.trans noWait
    have mem : (applyRun line [o] (lineTaken line now s)).mem = cellsWrite s.mem a d := same.mem
    refine ⟨_, congrArg Host.Outcome.next ((msaLineApplyFx_store live only kind).trans (lineDrained_noWait noWait')), ?_, ?_,
      fun x outside => ?_, same.coreMem⟩
    · have back := cellsRead_write_same s.mem a d
      rw [whole] at back
      exact (congrArg (fun m => cellsRead m a 64) mem).trans back
    · rw [same.poisoned]
      simp [lineStored, lineTaken]
    · rw [mem]
      exact cellRead_write_outside s.mem d (by rwa [whole])
  case atomic =>
    have applied := applyAtomic_clean (s := lineTaken line now s) op v w off k o cleanLine
    have same := msaAnswer_ok_sameLines o (leNat (slice (lineRead s line) off 8)) [] (bump MSA_MULT_SUM k (bump MSA_ATOMIC_CNT 1
      (lineWrite line off (toLe 8 (atomicNew op v w k (leNat (slice (lineRead s line) off 8)))) (lineTaken line now s))))
    have noWait' : (applyAtomic line op v w off k o (lineTaken line now s)).msa.ingress = [] := by
      rw [applied]
      exact same.ingress.trans noWait
    have mem := same.mem
    refine ⟨_, _, congrArg Host.Outcome.next ((msaLineApplyFx_atomic live only kind).trans
      ((lineDrained_noWait noWait').trans applied)), rfl, ?_, fun x outside => ?_, same.coreMem⟩
    · exact (congrArg (fun m => cellsRead m (a + off) 8) mem).trans
        (toLe_length 8 _ ▸ cellsRead_write_same s.mem (a + off) (toLe 8 (atomicNew op v w k (leNat (slice (lineRead s line) off 8)))))
    · exact (congrArg (fun m => cellRead m x) mem).trans (cellRead_write_outside s.mem _ (by rwa [toLe_length]))

end Sys2Proof.Machine
end

section
/-! PROOF. Memory-semantic packets at their home and at their issuer (O39), and a misaligned access that its issuer's own check answers
first (O58). -/
namespace Sys2Proof.Machine

/-! ## MEM.LOAD, STORE and ATOMIC (R376 to R381) -/

/-- The row of a memory-semantic opcode. -/
def memRow (op : Nat) : OpRow := ⟨op, true, true, true, if op = 0x50 then 0 else if op = 0x51 then 64 else 16, false⟩

/-- A packet that is taken, and counts as no stale operation, acts by its opcode. -/
theorem memReceive_accepted {r : OpRow} {s : State} {p : Pkt} (h : Accepted r s p) (notStale : memStale r p (atTick p.now s) = false) :
    memReceive r p s = memAct r.code p (taken r p s) := by
  simp only [memReceive, notStale, Bool.false_eq_true, if_false]
  exact receive_accepted (memAct r.code p) h

/-- What the three commands do is what `memAct` does with their opcode. -/
theorem exec_mem {op : Nat} {s t : State} {p : Pkt} (acts : memReceive (memRow op) p s = t) :
    (op = 0x50 → exec (.memLoad p) s = .next t) ∧ (op = 0x51 → exec (.memStore p) s = .next t) ∧
      (op = 0x52 → exec (.memAtomic p) s = .next t) := by
  refine ⟨?_, ?_, ?_⟩ <;> rintro rfl <;> exact congrArg Host.Outcome.next acts

section
variable {s : State} {p : Pkt} {op : Nat} {k : MsaKind} (layout : memKind op p = some k)
include layout

/-- At its home, its key good for the access, an operation joins the queue of its line. -/
theorem memAct_home {a : Nat} (home : forwards s p = none) (near : farSource s p.path = false)
    (key : keyAddr s p.p0 p.pd (memAccess k) (memOff p) (memLen k) = some a) :
    memAct op p s = lineArrive (arrivalPort p.path) (a / 64) ⟨k, p.epoch, arrivalComp s p.path, .pkt op p⟩ s := by
  simp only [memAct, home, layout, near, key, Bool.false_eq_true, if_false]

/-- On a ring with a queue pair in the same basin it is forwarded. -/
theorem memAct_forwarded {n : Nat} {q : Qp} (ring : forwards s p = some n) (checks : fwdCheck s n = none) (near : fwdNear s n op p = true)
    (found : qpOf s (fwdQp s n) = some q) :
    memAct op p s = bump MSA_ISSUED_CNT 1 (forward op (fwdQp s n) p
      (fun tag t => modMsa (fun m => { m with fwd := tabPut m.fwd tag ⟨op, p, fwdQp s n, q.peerDev, none⟩ }) t) .msa s) := by
  simp only [memAct, ring, memForward, checks, near, layout, found, Option.isNone_some, Option.getD_some, Bool.not_true, Bool.or_self,
    Bool.false_eq_true, if_false]

end

/-! ## MEM.GATEWAY (R392 to R394) -/

theorem shares_eq_false {s : State} (share : gwShare s 0 ≠ 0 ∨ gwShare s 1 ≠ 0) : (gwShare s 0 = 0 && gwShare s 1 = 0) = false := by
  rcases share with north | south
  · simp [north]
  · simp [south]

section
variable {s : State} {p : Pkt} {l : List (Bytes × Bytes)} (share : gwShare s 0 ≠ 0 ∨ gwShare s 1 ≠ 0)
  (params : paramsZero p true false false false = true) (dev : p.p0 < 4096) (batch : gwBatch p.payload = some l)
include share params dev batch

theorem gatewayAct_ring {n : Nat} (path : p.path = .ring n) : gatewayAct p s = gwIssue n p s := by
  simp only [gatewayAct, shares_eq_false share, params, dev, batch, path, decide_true, Bool.and_self, Bool.not_true, Bool.false_eq_true, if_false]

theorem gatewayAct_fabric {qp d port : Nat} (path : p.path = .fabric qp d port) : gatewayAct p s = gwHome p l qp port s := by
  simp only [gatewayAct, shares_eq_false share, params, dev, batch, path, decide_true, Bool.and_self, Bool.not_true, Bool.false_eq_true, if_false]

end

/-! ## The end of what was forwarded (R378, R387, R396) -/

theorem atTick_atTick (now : Nat) (s : State) : atTick now (atTick now s) = atTick now s := by
  unfold atTick
  simp only [max_assoc, max_self]

/-- The home's final reply passes back to the ring, and what was placed for it goes. -/
theorem msaForwardReplyFx_final {s : State} {r : Rep} {f : MsaFwd} (b : Bytes) (live : alive s = true) (good : r.rcrcOk = true)
    (listed : statusListed r.status = true) (fresh : staleAnswer s r.opcode r.mid = false) (final : r.final = true)
    (forwarded : tabGet s.msa.fwd r.tag = some f) :
    msaForwardReplyFx r b s = respDrop r.tag (passBack f.opcode f.pkt r r.status (respFor s r.tag b)
      (modMsa (fun m => { m with fwd := tabDel m.fwd r.tag }) (atTick r.now s))) := by
  have answered := onReply_listed (s := atTick r.now s) (fun _ => true)
    (fun st t => respDrop r.tag (forwardReplyAct r (respFor t r.tag b) st t)) live good fresh rfl listed
  rw [atTick_atTick] at answered
  have here : tabGet (atTick r.now s).msa.fwd r.tag = some f := forwarded
  simp only [msaForwardReplyFx, here, final, Option.isNone_some, Bool.not_true, Bool.and_false, Bool.false_and, Bool.false_eq_true, if_false]
  rw [answered]
  simp only [forwardReplyAct, here, respFor_atTick]

section
variable {s : State} {tag now : Nat} (live : alive s = true) (noReply : replyArrives (atTick now s) tag = false)
include live noReply

theorem msaOpTimeoutFx_late {f : MsaFwd} (forwarded : tabGet s.msa.fwd tag = some f)
    (late : sentBefore f.sentAt (10 * regField s MSA_TMO 6 0) (max s.tick now) = true) :
    msaOpTimeoutFx tag now s = msaDead tag (atTick now s) := by
  simp [msaOpTimeoutFx, forwarded, live, late, noReply]

theorem msaGwTimeoutFx_late {g : GwOut} (sent : tabGet s.msa.gwOut tag = some g)
    (late : sentBefore g.sentAt (msTicks (regField s MSA_GW_TMO 9 0)) (max s.tick now) = true) :
    msaGwTimeoutFx tag now s = fail 0x53 g.pkt stTimeout (bump MSA_GW_TMO_CNT 1
      (modMsa (fun m => { m with gwOut := tabDel m.gwOut tag }) (atTick now s))) := by
  simp [msaGwTimeoutFx, gatewayEnd, sent, live, late, noReply]

end

/-- Settles O39: a packet acts as `memReceive_accepted` or `receive_accepted` has it, and an answer or a timer by the equation of its case. -/
theorem memoryPacketsAreServed : Obligations.MemoryPacketsAreServed := by
  refine ⟨?packets, ?gateway, fun s r b f live good listed fresh final forwarded => ?reply, fun s tag now live =>
    ⟨fun f forwarded late noReply => ?op, fun g sent late noReply => ?batch, congrArg Host.Outcome.next (if_pos (readable_of_hostHeard live))⟩⟩
  case packets =>
    rintro s p op k a r u rfl rfl h notStale layout
    have acts := memReceive_accepted h notStale
    exact ⟨fun home near key => ⟨_, rfl, exec_mem (acts.trans (memAct_home layout home near key))⟩,
      fun n q ring checks near found => ⟨_, rfl, exec_mem (acts.trans (memAct_forwarded layout ring checks near found))⟩⟩
  case gateway =>
    rintro s p r u l rfl rfl h share params dev batch
    have acts := receive_accepted (gatewayAct p) h
    exact ⟨fun n path => congrArg Host.Outcome.next (acts.trans (gatewayAct_ring share params dev batch path)),
      fun qp d port path => congrArg Host.Outcome.next (acts.trans (gatewayAct_fabric share params dev batch path))⟩
  case reply => exact congrArg Host.Outcome.next (msaForwardReplyFx_final b live good listed fresh final forwarded)
  case op => exact congrArg Host.Outcome.next (msaOpTimeoutFx_late live noReply forwarded late)
  case batch => exact congrArg Host.Outcome.next (msaGwTimeoutFx_late live noReply sent late)

/-! ## A misaligned access on a forwarding ring (R377, R379) -/

/-- The issuer's own checks come before the layout: an operation on a ring whose queue pair they refuse is answered with their status
(R379, log 157). -/
theorem memAct_refused {s : State} {p : Pkt} {n st : Nat} (op : Nat) (ring : forwards s p = some n) (refused : fwdCheck s n = some st) :
    memAct op p s = fail op p st s := by
  simp only [memAct, ring, memForward, refused]

/-- A serving device whose ring 0 forwards to queue pair 0, which does not exist; its completion ring 0 is ACTIVE, the link down. -/
def orphanRing : State :=
  { dev := { held := false, phase := 11, ready := true, personality := 2, deviceId := 0x52 },
    sched := { epoch := 1, map := [(0, 1)] },
    cq := [(0, { state := 1 })],
    regs := [(MSA_SQ_QP 0, 2 ^ 31)] }

/-- A MEM.LOAD on ring 0 at offset 63, which is no multiple of 64. -/
def misalignedLoad : Pkt :=
  { path := .ring 0, now := 5, format := 3, minor := 2, flagsRsvd := 0, resp := false, noReply := false, last := true,
    tag := 7, mid := 0, epoch := 1, pd := 0, offset := 0, p0 := 0, p1 := 63, p2 := 0, p3 := 0, slack := 0, seq := 9,
    rsvd := 0, payload := [], crcOk := true }

theorem orphanRing_accepts : Accepted (memRow 0x50) orphanRing misalignedLoad where
  alive := by decide
  serves := .inl (by decide)
  fresh := by decide
  command := by decide
  checks := by decide
  alone := by decide

/-- The status codes of the replies that completion ring 0 holds (R315, R336). -/
def heldStatus (s : State) : List Nat := (cqRing s 0).held.map fun e => leAt e.bytes 12 2

/-- Refutes O58: `orphanRing` answers a misaligned MEM.LOAD with ST_QP_ERROR, by the check that its issuer makes first. -/
theorem not_misalignedAccessesAreAnswered : ¬ Obligations.MisalignedAccessesAreAnswered := by
  rintro ⟨claim, -⟩
  obtain ⟨load, -⟩ := claim orphanRing misalignedLoad 0x50 _ rfl orphanRing_accepts (by decide)
  have format := load rfl (by decide)
  have acts := (memReceive_accepted orphanRing_accepts (by decide)).trans
    (memAct_refused (n := 0) (st := stQpError) 0x50 (by decide) (by decide))
  rw [(exec_mem acts).1 rfl] at format
  have status := congrArg heldStatus (Host.Outcome.next.inj format)
  exact absurd status (by decide)

end Sys2Proof.Machine
end

section
/-! PROOF. Share classes, compositions and meters (O45), epochs and fences (O46), histograms and the shaper window (O47). -/
namespace Sys2Proof.Machine

/-! ## Classes, compositions and meters (R399, R400, R406, R414) -/

/-- A class that no manifest holds, or whose pattern stays, takes its record. -/
theorem sharesAct_free {p : Pkt} {s : State} (free : classHeld s p.p0 = 0 ∨ ((classOf p.payload).window = (classRec s p.p0).window ∧
      (classOf p.payload).attWindow = (classRec s p.p0).attWindow ∧ (classOf p.payload).attGlobal = (classRec s p.p0).attGlobal)) :
    sharesAct p s = ok 0x58 p 0 (modSched (fun d => { d with classes := tabSet d.classes p.p0 (classOf p.payload) {} }) s) := by
  refine if_neg ?_
  rcases free with unheld | ⟨window, attWindow, attGlobal⟩
  · simp [unheld]
  · simp [window, attWindow, attGlobal]

/-- A composition whose reservations fit beside the others' takes its record. -/
theorem compCreateAct_fits {p : Pkt} {s : State} (berths : rsvSum s p.p0 (compOfBytes p.payload) CompRec.berthRsv ≤ 16384)
    (frames : rsvSum s p.p0 (compOfBytes p.payload) CompRec.frameRsv ≤ framesInService s)
    (withies : rsvSum s p.p0 (compOfBytes p.payload) CompRec.withyRsv ≤ 1024) :
    compCreateAct p s = ok 0x5A p 0 (modSched (fun d => { d with comps := tabSet d.comps p.p0 (compOfBytes p.payload) {} }) s) := by
  simp only [compCreateAct, berths.not_gt, frames.not_gt, withies.not_gt, if_false]

/-- A millisecond that has not been metered adds the frames charged to each composition. -/
theorem meterPageMsTickFx_due {s : State} {now : Nat} (live : alive s = true) (due : s.sched.pageMsAt / msTicks 1 < max s.tick now / msTicks 1) :
    meterPageMsTickFx now s = modSched (fun d => { d with
      pageMsAt := max s.tick now
      meters := s.man.frames.foldl (fun t e => tabSet t e.2.comp { tabGetD t e.2.comp {} with
        pageMs := min ((tabGetD t e.2.comp {}).pageMs + 1) cntMax } {}) d.meters }) (atTick now s) :=
  if_neg (by
    rw [alive_atTick, live, Bool.not_true, Bool.false_or, decide_eq_true_eq]
    exact due.not_ge)

/-- Settles O45: the commands act as `receive_layout` has it, and the millisecond by its own equation. -/
theorem classesAndCompositions : Obligations.ClassesAndCompositions := by
  refine ⟨?shares, ?create, ?meter, fun s now live due => congrArg Host.Outcome.next (meterPageMsTickFx_due live due)⟩
  case shares =>
    rintro s p u rfl h params small layout free
    exact congrArg Host.Outcome.next
      ((receive_layout 0x58 (sharesAct p) h (by simp only [params, small, layout, decide_true, Bool.and_self])).trans (sharesAct_free free))
  case create =>
    rintro s p u r rfl h params small layout rfl berths frames withies
    exact congrArg Host.Outcome.next
      ((receive_layout 0x5A (compCreateAct p) h (by simp only [params, small, layout, decide_true, Bool.and_self])).trans
        (compCreateAct_fits berths frames withies))
  case meter =>
    rintro s p u rfl h params small clear
    exact congrArg Host.Outcome.next (receive_layout 0x5B (compMeterAct p) h (by simp only [params, small, clear, decide_true, Bool.and_self]))

/-! ## Epochs (R402 to R404) -/

/-- The epoch, its map, and those of the epoch before are the same in both states. -/
structure SameEpoch (s t : State) : Prop where
  epoch : t.sched.epoch = s.sched.epoch
  map : t.sched.map = s.sched.map
  prev : t.sched.prev = s.sched.prev
  prevMap : t.sched.prevMap = s.sched.prevMap

namespace SameEpoch

theorem of_sched {s t : State} (same : t.sched = s.sched) : SameEpoch s t :=
  ⟨congrArg _ same, congrArg _ same, congrArg _ same, congrArg _ same⟩

theorem refl (s : State) : SameEpoch s s := of_sched rfl

theorem trans {s t u : State} (h : SameEpoch s t) (k : SameEpoch t u) : SameEpoch s u :=
  ⟨k.epoch.trans h.epoch, k.map.trans h.map, k.prev.trans h.prev, k.prevMap.trans h.prevMap⟩

theorem foldl {α : Type} {g : State → α → State} (h : ∀ t x, SameEpoch t (g t x)) (xs : List α) (s : State) :
    SameEpoch s (xs.foldl g s) := by
  induction xs generalizing s with
  | nil => exact refl s
  | cons x xs ih => exact (h s x).trans (ih _)

end SameEpoch

theorem modShaper_sameEpoch (n : Nat) (f : Shaper → Shaper) (s : State) : SameEpoch s (modShaper n f s) := ⟨rfl, rfl, rfl, rfl⟩

theorem queueFrame_sameEpoch (p : Option Nat) (f : TxFrame) (s : State) : SameEpoch s (queueFrame p f s) := by
  unfold queueFrame
  split
  · exact .refl s
  · split
    · exact modShaper_sameEpoch _ _ s
    · exact .of_sched rfl

theorem wheelEval_sameEpoch (qp : Nat) (s : State) : SameEpoch s (wheelEval qp s) := by
  unfold wheelEval
  dsimp only
  split
  · exact modShaper_sameEpoch _ _ s
  · exact (modShaper_sameEpoch _ _ s).trans (.foldl (fun t x => queueFrame_sameEpoch _ _ t) _ _)

theorem wheelReturn_sameEpoch (s : State) : SameEpoch s (wheelReturn s) := by
  refine .foldl (fun t e => ?_) _ s
  split
  · exact wheelEval_sameEpoch _ t
  · exact .refl t

theorem unfence_sameEpoch (s : State) : SameEpoch s (unfence s) := by
  refine .foldl (fun t e => ?_) _ s
  split
  · exact .of_sched rfl
  · exact .refl t

/-- With no drain window open, the new epoch and its map stand beside the old ones. -/
theorem epochNext_sched {s : State} (e ms : Nat) (map : Tab Nat) (noWindow : s.sched.drainEnd = none) :
    (epochNext e ms map s).sched.epoch = e ∧ (epochNext e ms map s).sched.map = map ∧
      (epochNext e ms map s).sched.prev = s.sched.epoch ∧ (epochNext e ms map s).sched.prevMap = s.sched.map := by
  have drained : (if ms = 0 then s else regPut SCH_DRAIN ms s).sched = s.sched := by split <;> rfl
  have settled : ∀ u, SameEpoch u (if (wheelReturn u).eng.step.isSome then wheelReturn u else unfence (wheelReturn u)) := by
    intro u
    split
    · exact wheelReturn_sameEpoch u
    · exact (wheelReturn_sameEpoch u).trans (unfence_sameEpoch _)
  simp only [epochNext, noWindow, Option.isSome_none, Bool.false_eq_true, if_false]
  refine ⟨(settled _).epoch, (settled _).map, (settled _).prev.trans ?_, (settled _).prevMap.trans ?_⟩
  · exact congrArg (·.epoch) drained
  · exact congrArg (·.map) drained

/-- A greater epoch number with a map that keeps its layout takes effect. -/
theorem epochAct_greater {p : Pkt} {s : State} (greater : s.sched.epoch < p.p0) (map : mapOk p.payload = true) (drain : p.p1 ≤ 1000) :
    epochAct p s = ok 4 p 0 (bump SCH_EPOCH_CNT 1 (epochNext p.p0 p.p1 (mapOf p.payload) s)) := by
  simp only [epochAct, greater.not_ge, map, drain, decide_true, Bool.and_self, Bool.not_true, Bool.false_eq_true, if_false]

theorem drainWindowEndFx_due {s : State} {now t : Nat} (live : alive s = true) (window : s.sched.drainEnd = some t) (due : t ≤ max s.tick now) :
    drainWindowEndFx now s = drainEnds (atTick now s) := by
  simp [drainWindowEndFx, window, live, due]

/-- Settles O46: the commands act as `receive_layout` has it, and the epoch follows from `epochNext_sched`. -/
theorem epochsAndFences : Obligations.EpochsAndFences := by
  refine ⟨fun s p h params small => ?fence, ?epoch, fun e ms map u noWindow => epochNext_sched e ms map noWindow,
    fun s now t live window due => congrArg Host.Outcome.next (drainWindowEndFx_due live window due)⟩
  case fence => exact congrArg Host.Outcome.next (receive_layout 3 _ h (by simp only [params, small, decide_true, Bool.and_self]))
  case epoch =>
    rintro s p u rfl h params greater map drain
    exact congrArg Host.Outcome.next ((receive_layout 4 (epochAct p) h params).trans (epochAct_greater greater map drain))

/-! ## Histograms and the shaper window (R418, R419) -/

/-- A tick of 1 us that has not been sampled adds a sample of each of the 17 queues. -/
theorem queueSampleTickFx_due {s : State} {now : Nat} (live : alive s = true) (due : s.sched.sampleAt / 100 < max s.tick now / 100) :
    queueSampleTickFx now s =
      let u := markReady (atTick now s)
      (List.range 17).foldl (fun t q => binUp (SCH_HIST_SOJ q (histBin (queueSample u q).2))
        (binUp (SCH_HIST_DEPTH q (histBin (queueSample u q).1)) t)) (modSched (fun d => { d with sampleAt := max s.tick now }) u) :=
  if_neg (by
    rw [alive_atTick, live, Bool.not_true, Bool.false_or, decide_eq_true_eq]
    exact due.not_ge)

/-- Settles O47: each by the equation of its due or heard case. -/
theorem histogramsAndShaperWindow : Obligations.HistogramsAndShaperWindow := by
  refine ⟨fun s now live due => congrArg Host.Outcome.next (queueSampleTickFx_due live due),
    fun s heard => congrArg Host.Outcome.next (if_neg (by simp [heard])), ?window⟩
  case window =>
    rintro s v u h heard rfl rfl
    exact congrArg Host.Outcome.next (if_neg (by simp [heard]))

end Sys2Proof.Machine
end

section
/-! PROOF. The mailbox and the BAR4 window (O30), and the management paths besides the port (O28). -/
namespace Sys2Proof.Machine

/-! ## The mailbox (R453, R504, R507) -/

/-- A packet for a mailbox that is not BUSY sets BUSY and is handled, or waits for the management controller. -/
theorem mgtMboxGoFx_idle (op : Nat) {p : Pkt} {s t : State} (heard : hostHeard s = true) (idle : regField s MGT_MBOX_STATUS 0 0 = 0)
    (busy : t = regPut MGT_MBOX_STATUS (setBits (regGet s MGT_MBOX_STATUS) 0 0 1) (atTick p.now s)) :
    mgtMboxGoFx op p s = if s.err.mgtDown then modMgmt (fun m => { m with mboxWait := some (op, p) }) t else mboxRun op p t := by
  subst busy
  exact if_neg (by simp [heard, idle])

/-- The end of a restart of the management controller, with no packet that waits for it. -/
theorem mgtRestartCompleteFx_noWait {s : State} (now : Nat) (heard : hostHeard s = true) (down : s.err.mgtDown = true)
    (none_waits : s.mgmt.mboxWait = none) :
    mgtRestartCompleteFx now s = record { cause := 0x42, cls := 1, kind := 10 } (s.err.heldRecs.foldl (fun t r => recSend r t)
      (modMgmt (fun m => { m with mboxWait := none }) (modErr (fun e => { e with mgtDown := false, heldRecs := [] }) (atTick now s)))) := by
  have live : alive s = true := heard
  simp [mgtRestartCompleteFx, live, down, none_waits]

/-! ## The window (R499, R500) -/

/-- A read within an open window, of DPAs that it reaches, returns their bytes. -/
theorem bar4ReadFx_reached {s : State} {off len : Nat} (heard : hostHeard s = true) (some_bytes : len ≠ 0) (fits : off + len ≤ 2 ^ 28)
    (opened : bar4Open s = true) (reached : ∀ i, i < len → bar4Reaches s (bar4Base s + off + i) = true) :
    bar4ReadFx off len false s = emit (.readData (bar4Bytes (bar4Base s + off) len s).1
      ((memTags s (bar4Base s + off) len).any fun t => t ≠ 0)) (bar4Bytes (bar4Base s + off) len s).2 := by
  have inside : ¬ 2 ^ 28 < off + len := fits.not_gt
  have none_missed : ((List.range len).any fun i => !bar4Reaches s (bar4Base s + off + i)) = false :=
    List.any_eq_false.2 fun i hi => by simp [reached i (List.mem_range.1 hi)]
  rw [bar4ReadFx]
  simp only [readable_of_hostHeard heard, inside, some_bytes, opened, none_missed, Bool.not_true, Bool.false_or, Bool.false_and,
    decide_false, Bool.false_eq_true, if_false]

/-- A write within the window is applied, or discarded and counted. -/
theorem bar4WriteFx_inside {s : State} {off : Nat} {l : List (Option Byte)} (heard : hostHeard s = true) (fits : off + l.length ≤ 2 ^ 28) :
    bar4WriteFx off l s = if bar4Open s = true ∧ regField s DEV_BAR4_CTRL 1 1 = 1 ∧ restricted s = true then bar4Puts (bar4Base s + off) l s
      else bump DEV_BAR4_DISCARD_CNT 1 s := by
  have inside : ¬ 2 ^ 28 < off + l.length := fits.not_gt
  rw [bar4WriteFx]
  simp only [heard, inside, Bool.not_true, Bool.false_or, decide_false, Bool.false_eq_true, if_false, Bool.and_eq_true, decide_eq_true_eq,
    and_assoc]

/-- Settles O30: the mailbox, the end of the controller's restart, and the window, each by its own equation. -/
theorem mailboxAndWindow : Obligations.MailboxAndWindow := by
  intro s heard
  refine ⟨fun op p idle => ⟨_, rfl, congrArg Host.Outcome.next (mgtMboxGoFx_idle op heard idle rfl)⟩,
    fun now down none_waits => congrArg Host.Outcome.next (mgtRestartCompleteFx_noWait now heard down none_waits), ?read, ?write⟩
  case read => exact fun off len some_bytes fits opened reached => congrArg Host.Outcome.next (bar4ReadFx_reached heard some_bytes fits opened reached)
  case write => exact fun off l fits => congrArg Host.Outcome.next (bar4WriteFx_inside heard fits)

/-! ## I3C, UART, JTAG and IPv6 (R457, R501, R503, R505, R506) -/

/-- A control message is answered by a target that has its address and whose firmware runs. -/
theorem mctpControlMessageFx_runs {s : State} {a : Nat} (b : Bytes) (runs : mgtRuns s = true) (address : s.mgmt.i3cAddr = some a) :
    mctpControlMessageFx b s = emit (.mctp (Config.mctpAnswer a b)) s := by
  simp only [mctpControlMessageFx, address, runs, if_true]

/-- Settles O28: each path answers where its condition holds. -/
theorem managementPathsAnswer : Obligations.ManagementPathsAnswer := by
  refine fun s => ⟨?entdaa, ?clock, ?control, ?ipv6, ?uart, fun i => rfl, ?trigger⟩
  case entdaa => exact fun a released small => congrArg Host.Outcome.next (if_neg (by simp [released, small]))
  case clock => exact fun released => congrArg Host.Outcome.next (if_neg (by simp [released]))
  case control => exact fun a b runs address => congrArg Host.Outcome.next (mctpControlMessageFx_runs b runs address)
  case ipv6 =>
    intro src dst b runs own
    have answers : (mgtRuns s && (mgtAddresses s).contains dst) = true := by simp [runs, own]
    exact ⟨congrArg Host.Outcome.next (if_pos answers), congrArg Host.Outcome.next (if_pos answers)⟩
  case uart => exact fun b live owned => congrArg Host.Outcome.next (if_pos (by rw [live, owned, Bool.and_self]))
  case trigger => exact fun pin up live owned => congrArg Host.Outcome.next (if_pos (by simp [live, owned]))

end Sys2Proof.Machine
end

section
/-! PROOF. The PCIe link and its functions (O27). -/
namespace Sys2Proof.Machine

/-! ## Function-level reset (R490) -/

/-- A function other than PF0 that has no queue pairs: its rings, its vectors and its place among the functions in reset. -/
theorem flrFx_noQps {s : State} {fn : Nat} (vf : fn ≠ 0) (noQps : fnQps s fn = []) :
    flrFx fn s = settle (modPcie (fun x => { x with msix := tabKeep x.msix fun k _ => decide (k / 2048 ≠ fn),
                                                    fnMasked := x.fnMasked.filter fun g => g ≠ fn, inFlr := fn :: x.inFlr.filter fun g => g ≠ fn })
      (ringRegsReset (fun n => decide (ringOwner s n = fn)) (ringsReset (fun n => decide (ringOwner s n = fn)) s))) := by
  simp only [flrFx, vf, noQps, if_false, List.foldl_nil]

/-- A function that exists is reset while the device is readable. -/
theorem functionLevelResetFx_exists {s : State} {fn : Nat} (now : Nat) (reads : readable s = true) (is : fnExists s fn = true) :
    functionLevelResetFx fn now s = flrFx fn (atTick now s) :=
  if_pos (by simp [reads, is])

/-- VF Enable changes with at most the 31 VFs that the capability names. -/
theorem vfEnableChangeFx_total {s : State} {k : Nat} (on : Bool) (reads : readable s = true) (small : k < 32) :
    vfEnableChangeFx on k s = vfSet on k s := by
  have total : k ≤ sriovCap.totalVfs := Nat.le_of_lt_succ small
  exact if_pos (by simp [reads, total])

/-- PF0 is a function. -/
theorem fnExists_pf0 (s : State) : fnExists s 0 = true := rfl

/-! ## Vectors (R492) -/

/-- The unmasking of a vector of a function that is not masked as a whole. -/
theorem msixUnmaskFx_unmasked {s : State} {fn v : Nat} (reads : readable s = true) (is : fnExists s fn = true)
    (small : v < (if fn = 0 then 2048 else 64)) (unmasked : s.pcie.fnMasked.contains fn = false) :
    msixUnmaskFx fn v s = (if (msixVec s fn v).pending then msixRaise fn v else id)
      (modPcie (fun x => { x with msix := tabSet x.msix (2048 * fn + v) { msixVec s fn v with masked := false, pending := false } {} }) s) := by
  have heard : ¬ (!(readable s && fnExists s fn && decide (v < (if fn = 0 then 2048 else 64)))) = true := by
    simp [reads, is, small]
  rw [msixUnmaskFx, if_neg heard]
  cases pending : (msixVec s fn v).pending with
  | true => simp only [pending, unmasked, Bool.not_false, Bool.and_self, if_true]
  | false => simp only [pending, Bool.false_and, Bool.false_eq_true, if_false, id]

/-! ## The obligation -/

/-- Settles O27: resets, VF Enable, vectors and the link, each by its own equation. -/
theorem linkAndFunctions : Obligations.LinkAndFunctions := by
  intro s now reads
  refine ⟨?vf, ?pf0, ?hot, ?perst, ?done, ?enable, ?unmask, ?rise, ?up, ?down⟩
  case vf =>
    exact fun fn is vf noQps => congrArg Host.Outcome.next ((functionLevelResetFx_exists now reads is).trans (flrFx_noQps (s := atTick now s) vf noQps))
  case pf0 => exact congrArg Host.Outcome.next (functionLevelResetFx_exists now reads (fnExists_pf0 s))
  case hot => exact congrArg Host.Outcome.next (if_pos reads)
  case perst => exact fun high => congrArg Host.Outcome.next (if_pos (by simp [reads, high]))
  case done => exact fun fn resetting => congrArg Host.Outcome.next (if_pos resetting)
  case enable => exact fun on k small => ⟨_, congrArg Host.Outcome.next (vfEnableChangeFx_total on reads small), rfl⟩
  case unmask => exact fun fn v is small unmasked => congrArg Host.Outcome.next (msixUnmaskFx_unmasked reads is small unmasked)
  case rise => exact fun flit w v => congrArg Host.Outcome.next (if_pos reads)
  case up => exact fun flit w v high => congrArg Host.Outcome.next (if_pos (by simp [reads, high]))
  case down => exact fun isUp => congrArg Host.Outcome.next (if_pos (by simp [reads, isUp]))

end Sys2Proof.Machine
end

section
/-! PROOF. Configuration, licences and firmware in flash (O52), and attestation (O53). -/
namespace Sys2Proof.Machine

/-! ## The commands that take the flash (R464, R468, R473, R480) -/

/-- A configuration record that finds the flash free takes it, and the copy that would not be picked is erased. -/
theorem cfgWriteAct_free {p : Pkt} {s : State} (free : s.flash.holder = none) (seqLeft : cfgTop s.flash + 1 ≠ 2 ^ 64 - 1) :
    cfgWriteAct p s = modFlash (fun f => if cfgPick s.flash = 1 then { f with cfgB := [] } else { f with cfgA := [] })
      (flashTake (.cfg (cfgPick s.flash = 1) (cfgFinal s.flash p.payload) false) p s) := by
  rw [cfgWriteAct, if_neg (by simp [free]), if_neg seqLeft]

/-- A licence that finds the flash free and a slot takes the flash where it is valid. -/
theorem licAct_free {p : Pkt} {s : State} {n : Nat} (free : s.flash.holder = none) (layout : licLayout p.payload = true)
    (slot : licSlot s.flash (licId p.payload) = some n) :
    licAct p s = if licValid s p.payload then flashTake (.lic n p.payload) p s else fail 0x0A p stKey s := by
  cases valid : licValid s p.payload <;> simp [licAct, free, layout, slot, valid]

/-- The first packet of a firmware image that finds the flash free. -/
theorem stageAct_free {p : Pkt} {s : State} (params : paramsZero p true false false false = true) (small : p.p0 < 3) (free : s.flash.holder = none) :
    stageAct p s = stagePlace p.p0 [] none p p (modFlash (fun f => { fwPut (otherSlot f p.p0) p.p0 [] f with
      staged := setBits f.staged p.p0 p.p0 0, pending := setBits f.pending p.p0 p.p0 0 }) s) := by
  simp only [stageAct, params, small.not_ge, free, Bool.not_true, Bool.false_or, decide_false, Bool.false_eq_true, if_false]

/-- No message lets go of a flash that none holds. -/
theorem stageDrop_free {p : Pkt} {s0 : State} (s : State) (free : s0.flash.holder = none) : stageDrop p s0 s = s := by
  simp only [stageDrop, free]

/-- Staged components that find the flash free take it where each carries a good signature. -/
theorem commitAct_free {p : Pkt} {s : State} (free : s.flash.holder = none) (staged : commitComps s p.p0 ≠ []) :
    commitAct p s = if (commitComps s p.p0).all (fun c => fwSigned (fwImage s.flash (otherSlot s.flash c) c)) then
      flashTake (.commit (commitComps s p.p0)) p s else fail 0x0C p stKey s := by
  rw [commitAct, if_neg (by simp [free]), if_neg (by simp [staged])]

/-- A packet that ROM recovery does not take is received as any other. -/
theorem fwStageFx_noRecovery {p : Pkt} {s : State} (noRecovery : recoveryTakes s p = false) (free : s.flash.holder = none) :
    fwStageFx p s = receive rowStage p (stageAct p) s := by
  rw [fwStageFx, if_neg (by simp [noRecovery]), stageDrop_free _ free]

theorem fwCommitFx_noRecovery {p : Pkt} {s : State} (noRecovery : recoveryTakes s p = false) :
    fwCommitFx p s = receive rowCommit p (orFormat (commitOk p) 0x0C p (commitAct p)) s :=
  if_neg (by simp [noRecovery])

/-! ## The end of a write (R464, R468, R473, R480) -/

/-- The end of a write has its holder's outcome while the device is alive. -/
theorem flashWriteCompleteFx_alive {s : State} (now : Nat) (good : Bool) (live : alive s = true) :
    flashWriteCompleteFx now good s = flashDone good (atTick now s) :=
  if_pos (by simp [live])

section
variable {s : State} {p : Pkt} (good : Bool) (held : s.flash.holderPkt = some p)
include held

theorem flashDone_cfg {toB : Bool} {b : Bytes} {again : Bool} (job : s.flash.holder = some (.cfg toB b again)) :
    flashDone good s = cfgDone toB b again good p s := by
  simp only [flashDone, job, held]

theorem flashDone_lic {n : Nat} {b : Bytes} (job : s.flash.holder = some (.lic n b)) : flashDone good s = licDone n b good p s := by
  simp only [flashDone, job, held]

theorem flashDone_stage {c : Nat} {l : List (Nat × Bytes)} {n : Option Nat} (job : s.flash.holder = some (.stage c l n true)) :
    flashDone good s = stageDone c (assemble l) good p s := by
  simp only [flashDone, job, held]

theorem flashDone_commit {l : List Nat} (job : s.flash.holder = some (.commit l)) : flashDone good s = commitDone l good p s := by
  simp only [flashDone, job, held]

end

/-! ## The features with a timer (R469) -/

theorem telemetryTickFx_due {s : State} {now : Nat} (live : alive s = true) (runs : featureOn s 5 = true)
    (due : s.dev.telemetryDue ≤ max s.tick now) :
    telemetryTickFx now s = (collectors s).foldl (fun t n => emit (.telemetry n) t)
      (modDev (fun d => { d with telemetryDue := d.telemetryDue + 100000000 * leAt d.cfg 76 2 }) (atTick now s)) := by
  have late : ¬ (atTick now s).tick < (atTick now s).dev.telemetryDue := due.not_gt
  exact if_neg (by
    simp only [alive_atTick, featureOn_atTick, live, runs, late, decide_false, Bool.not_true, Bool.or_self, Bool.false_eq_true, not_false_eq_true])

theorem flashScrubTickFx_due {s : State} {now : Nat} (live : alive s = true) (runs : featureOn s 6 = true)
    (due : s.dev.scrubDue ≤ max s.tick now) :
    flashScrubTickFx now s = modDev (fun d => { d with scrubDue := d.scrubDue + 360000000000 * leAt d.cfg 78 2 }) (atTick now s) := by
  have late : ¬ (atTick now s).tick < (atTick now s).dev.scrubDue := due.not_gt
  exact if_neg (by
    simp only [alive_atTick, featureOn_atTick, live, runs, late, decide_false, Bool.not_true, Bool.or_self, Bool.false_eq_true, not_false_eq_true])

/-- Settles O52: the accepted commands act by their equations above, and the end of a write and the ticks by theirs. -/
theorem flashIsWritten : Obligations.FlashIsWritten := by
  refine ⟨?read, ?write, ?licence, ?stage, ?commit, ?done, ?ticks⟩
  case read =>
    exact fun s p h params small => congrArg Host.Outcome.next
      (receive_layout 0x08 (fun t => respond 0x08 p (cfgCopy t p.p0) (b2n (cfgCheck (cfgCopy t p.p0))) t) h
        (by simp only [params, small, decide_true, Bool.and_self]))
  case write =>
    rintro s p u rfl h params record free seqLeft
    exact congrArg Host.Outcome.next
      ((receive_layout 0x09 (cfgWriteAct p) h (by simp only [params, record, Bool.and_self])).trans (cfgWriteAct_free free seqLeft))
  case licence =>
    rintro s p u n rfl h params layout free slot
    exact congrArg Host.Outcome.next ((receive_layout 0x0A (licAct p) h params).trans (licAct_free free layout slot))
  case stage =>
    rintro s p u rfl h noRecovery params small free freeThen
    exact congrArg Host.Outcome.next
      ((fwStageFx_noRecovery noRecovery free).trans ((receive_accepted (stageAct p) h).trans (stageAct_free params small freeThen)))
  case commit =>
    rintro s p u rfl h noRecovery layout free staged
    exact congrArg Host.Outcome.next
      ((fwCommitFx_noRecovery noRecovery).trans ((receive_layout 0x0C (commitAct p) h layout).trans (commitAct_free free staged)))
  case done =>
    intro s now good p live held
    have ends := flashWriteCompleteFx_alive now good live
    exact ⟨fun toB b again job => congrArg Host.Outcome.next (ends.trans (flashDone_cfg (s := atTick now s) good held job)),
      fun n b job => congrArg Host.Outcome.next (ends.trans (flashDone_lic (s := atTick now s) good held job)),
      fun c l n job => congrArg Host.Outcome.next (ends.trans (flashDone_stage (s := atTick now s) good held job)),
      fun l job => congrArg Host.Outcome.next (ends.trans (flashDone_commit (s := atTick now s) good held job))⟩
  case ticks =>
    exact fun s now live => ⟨fun runs due => congrArg Host.Outcome.next (telemetryTickFx_due live runs due),
      fun runs due => congrArg Host.Outcome.next (flashScrubTickFx_due live runs due)⟩

/-! ## Attestation (R476 to R478) -/

/-- A request that passes every check is signed, or starts the generation of the next tree. -/
theorem attestAct_passes {p : Pkt} {s : State} (valid : s.dev.idValid = true) (left : s.flash.counters.getD 0 0 < 2 ^ 30)
    (idle : s.dev.keygen = false) (slow : (sigRecent s.dev s.tick).length < 100) :
    attestAct p s = if s.flash.idTree = some (s.flash.counters.getD 0 0 / 2 ^ 15) then attestSign p s
      else attestTree p (s.flash.counters.getD 0 0 / 2 ^ 15) s := by
  rw [attestAct, if_neg (by simp [valid]), if_neg left.not_ge, if_neg (by simp [idle]), if_neg slow.not_ge]

/-- A tree that is generated stands, and the signature that waited for it follows. -/
theorem bottomTreeGeneratedFx_running {s u : State} (now : Nat) (live : alive s = true) (runs : s.dev.keygen = true)
    (stands : u = modDev (fun d => { d with keygen := false, attest := none })
      (modFlash (fun f => { f with idTree := some (s.flash.counters.getD 0 0 / 2 ^ 15) }) (atTick now s))) :
    bottomTreeGeneratedFx now s = s.dev.attest.elim u (fun p => attestSign p u) := by
  subst stands
  have going : ¬ (!alive (atTick now s) || !(atTick now s).dev.keygen) = true := by simp [live, runs]
  rw [bottomTreeGeneratedFx, if_neg going]
  cases waiting : s.dev.attest with
  | none => simp only [atTick_dev, waiting, Option.elim_none]; rfl
  | some p => simp only [atTick_dev, waiting, Option.elim_some]; rfl

/-- Settles O53: a request by `attestAct_passes`, a tree by `bottomTreeGeneratedFx_running`. -/
theorem attestationSigns : Obligations.AttestationSigns := by
  refine ⟨?request, ?tree⟩
  case request =>
    rintro s p u q rfl h params length rfl valid left idle slow
    have passes : secAttestFx p s = _ :=
      (receive_layout 0x0D (attestAct p) h (by simp only [params, length, decide_true, Bool.and_self])).trans (attestAct_passes valid left idle slow)
    exact ⟨fun stands => ⟨_, congrArg Host.Outcome.next (passes.trans (if_pos stands)), rfl⟩,
      fun other => congrArg Host.Outcome.next (passes.trans (if_neg other))⟩
  case tree =>
    intro s now live runs
    refine congrArg Host.Outcome.next ((bottomTreeGeneratedFx_running now live runs rfl).trans ?_)
    cases s.dev.attest <;> rfl

end Sys2Proof.Machine
end

section
/-! PROOF. Verdicts and replays (O54). -/
namespace Sys2Proof.Machine

/-! ## VERIFY.RESULT (R436, R442) -/

/-- A final result of the round that is open. -/
theorem resultAct_open {p : Pkt} {s : State} {x : Suspect} {n since : Nat} {tg : List Nat} (final : leAt p.payload 4 1 = 0)
    (suspect : suspectOf s (leAt p.payload 0 4) = some x) (peer : x.peer = some (n, tg, since)) (round : x.round = leAt p.payload 5 1)
    (arrival : arrivalQp p = some (peerQpn s n)) :
    resultAct p s = if leAt p.payload 6 2 = stOk then digestIn (leAt p.payload 0 4) (slice p.payload 32 32) s
      else roundFailed (leAt p.payload 0 4) s := by
  simp only [resultAct, final, suspect, peer, round, arrival, decide_true, Bool.and_self, Bool.not_true, Bool.false_eq_true, if_false, if_true]

/-- A final result for a step that is not suspect comes late. -/
theorem resultAct_late {p : Pkt} {s : State} (final : leAt p.payload 4 1 = 0) (unknown : suspectOf s (leAt p.payload 0 4) = none) :
    resultAct p s = bump PERF_REPLAY_LATE_CNT 1 s := by
  simp only [resultAct, final, unknown, Bool.not_false, if_true]

theorem resultAct_won {p : Pkt} {s : State} (won : leAt p.payload 4 1 = 1) : resultAct p s = s := by
  simp only [resultAct, won, OfNat.one_ne_ofNat, one_ne_zero, if_false]

theorem resultAct_lost {p : Pkt} {s : State} (lost : leAt p.payload 4 1 = 2) :
    resultAct p s = lossNoted 0 (srcOf p) (leAt p.payload 5 1) s := by
  simp only [resultAct, lost, OfNat.ofNat_ne_zero, if_false, if_true]

/-! ## VERIFY.REPLAY (R439 to R441) -/

/-- A part that passes the four checks is taken. -/
theorem replayAct_passes {p : Pkt} {s : State} (layout : replayLayout s p = true) (version : leAt p.payload 28 4 = s.dev.fwGen)
    (held : replayHolds s p.payload = true) (room : servicesBusy s < 4) : replayAct p s = replayTake p s := by
  rw [replayAct, if_neg (by simp [layout]), if_neg (not_not.2 version), if_neg (by simp [held]), if_neg room.not_ge]

/-- A replay of one part goes into service with it. -/
theorem replayTake_only {p : Pkt} {s : State} (unknown : replayFind s p = none) (one : leAt p.payload 19 1 = 1) :
    replayTake p s = pend 0x69 p (modEng (fun g => { g with
      services := tabPut g.services (tabGap s.eng.services 0) {
        path := p.path, stepSeq := p.p0, round := leAt p.payload 7 1, programId := leAt p.payload 4 2,
        step := leAt p.payload 6 1, setId := leAt p.payload 8 4, rows := leAt p.payload 16 2, parts := tabPut [] (leAt p.payload 18 1) p.payload,
        count := 1, comp := arrivalComp s p.path, since := s.tick, last := some p } }) s) := by
  have whole : 1 ≤ (tabPut ([] : Tab Bytes) (leAt p.payload 18 1) p.payload).length := by simp [tabPut]
  simp only [replayTake, unknown, one, whole, if_true]

/-- A part that leaves its replay incomplete is kept. -/
theorem replayTake_more {p : Pkt} {s : State} {id : Nat} {v : ReplaySvc} (known : replayFind s p = some (id, v))
    (more : (tabPut v.parts (leAt p.payload 18 1) p.payload).length < v.count) :
    replayTake p s = ok 0x69 p 0 (modEng (fun g => { g with
      services := tabPut g.services id { v with parts := tabPut v.parts (leAt p.payload 18 1) p.payload } }) s) := by
  simp only [replayTake, known, more.not_ge, if_false]

/-! ## Timers (R435, R439) -/

/-- A round that is due, and whose result does not arrive on this tick, fails. -/
theorem replayRoundTimeoutFx_due {s : State} {seq now n since : Nat} {tag : List Nat} {x : Suspect} (live : alive s = true)
    (suspect : suspectOf s seq = some x) (peer : x.peer = some (n, tag, since))
    (due : since + msTicks (regField s ERR_REPLAY_TMO 9 0) ≤ max s.tick now) (absent : roundArrives (atTick now s) seq n x.round = false) :
    replayRoundTimeoutFx seq now s = roundFailed seq (atTick now s) := by
  have suspectThen : suspectOf (atTick now s) seq = some x := suspect
  have dueThen : since + msTicks (regField (atTick now s) ERR_REPLAY_TMO 9 0) ≤ (atTick now s).tick := due
  simp only [replayRoundTimeoutFx, suspectThen, peer]
  exact if_pos (by simp only [alive_atTick, live, dueThen, absent, decide_true, Bool.not_false, Bool.and_self])

/-- Settles O54: results and parts of a replay by the equations of their acts, the timers by their own. -/
theorem verdictsAndReplays : Obligations.VerdictsAndReplays := by
  refine ⟨?result, ?replay, ?round, ?parts⟩
  case result =>
    rintro s p u x n since tg rfl h layout
    have acts : verifyResultFx p s = resultAct p (ok 0x6A p 0 (taken rowVerifyResult p s)) :=
      receive_layout 0x6A (fun t => resultAct p (ok 0x6A p 0 t)) h layout
    refine ⟨?final, fun final unknown => ?late, fun won => ?won, fun lost => ?lost⟩
    case final =>
      intro final suspect peer round arrival
      have opened := acts.trans (resultAct_open final suspect peer round arrival)
      exact ⟨fun good => congrArg Host.Outcome.next (opened.trans (if_pos good)), fun bad => congrArg Host.Outcome.next (opened.trans (if_neg bad))⟩
    case late => exact congrArg Host.Outcome.next (acts.trans (resultAct_late final unknown))
    case won => exact congrArg Host.Outcome.next (acts.trans (resultAct_won won))
    case lost => exact congrArg Host.Outcome.next (acts.trans (resultAct_lost lost))
  case replay =>
    rintro s p u rfl h layout version held room
    have takes : verifyReplayFx p s = replayTake p (taken rowVerifyReplay p s) :=
      (receive_accepted (replayAct p) h).trans (replayAct_passes layout version held room)
    exact ⟨fun unknown one => congrArg Host.Outcome.next (takes.trans (replayTake_only unknown one)),
      fun id v known more => congrArg Host.Outcome.next (takes.trans (replayTake_more known more))⟩
  case round =>
    exact fun s seq now x n since tag live suspect peer due absent =>
      congrArg Host.Outcome.next (replayRoundTimeoutFx_due live suspect peer due absent)
  case parts => exact fun s qp seq now live => congrArg Host.Outcome.next (if_neg (by simp [live]))

end Sys2Proof.Machine
end
